-- ==== Sys2Proof/Word.lean ====
section
/-! DEFINITION. The word types of the TZ6400 and the plainest arithmetic on them (R7, R8). -/

namespace Sys2Proof

/-- A 32-bit register or instruction word (R8). -/
abbrev Word := BitVec 32

/-- One byte. -/
abbrev Byte := BitVec 8

/-- Bits `[hi:lo]` of a word, as a number (R7: bit 0 is the least significant). -/
def fld (w : Word) (hi lo : Nat) : Nat := (w.toNat >>> lo) % 2 ^ (hi + 1 - lo)

/-- Bit `i` of a word. -/
def bitOf (w : Word) (i : Nat) : Bool := w.toNat.testBit i

/-- The mask with ones in `[hi:lo]`. -/
def maskOf (hi lo : Nat) : Word := BitVec.ofNat 32 ((2 ^ (hi + 1 - lo) - 1) <<< lo)

/-- `w` with field `[hi:lo]` replaced by `v` (only as many low bits of `v` as fit). -/
def setFld (w : Word) (hi lo v : Nat) : Word :=
  (w &&& ~~~(maskOf hi lo)) ||| (BitVec.ofNat 32 (v <<< lo) &&& maskOf hi lo)

/-- `w` with bit `i` set to `b`. -/
def setBit (w : Word) (i : Nat) (b : Bool) : Word := setFld w i i (if b then 1 else 0)

/-- A number as a word, modulo 2^32. -/
def wd (n : Nat) : Word := BitVec.ofNat 32 n

/-- An integer as a word, modulo 2^32. -/
def wdi (n : Int) : Word := BitVec.ofInt 32 n

/-- The 0/1 value of a Boolean. -/
def b2n (b : Bool) : Nat := if b then 1 else 0

end Sys2Proof
end

