-- ==== Sys2Proof/Syntax.lean ====
section
/-! DEFINITION. The commands of the TZ6400: one constructor of `Instr` for each row of the table of
operations and events. Operands name the instance a step acts on and carry what comes from outside the
device (a written word, a measured value, sampled bits, a received frame). Every operand that selects an
instance has the range the spec gives it. -/

namespace Sys2Proof

/-- A core that executes the Soette set: control engine CE0–CE511 or supervisor SV0–SV3 (R154). -/
inductive Core where
  | ce (n : Fin 512)
  | sv (n : Fin 4)
  deriving DecidableEq, Repr

/-- A requester of a register or memory access (R38, R197, R297, R339). -/
inductive Requester where
  | core (c : Core)
  | host
  | debug
  deriving DecidableEq, Repr

/-- What brings a power-on reset (R317): a rail 0–3 below its reset level, or the supplies rising. -/
inductive PorCause where
  | rail (r : Fin 4)
  | supplies
  deriving DecidableEq, Repr

/-- The kinds of lane event candidates (R61). -/
inductive LaneEv where
  | zero
  | top
  | cmp
  deriving DecidableEq, Repr

/-- The two side units of a core (R133). -/
inductive SideUnit where
  | divide
  | cordic
  deriving DecidableEq, Repr

/-- What ends Idle (R306). -/
inductive IdleCause where
  | irq (n : Fin 4)
  | wakePin
  | stringWake
  | power
  deriving DecidableEq, Repr

/-- Which safe torque off input moves (R116). -/
inductive StoPin where
  | a
  | b
  | both
  deriving DecidableEq, Repr

/-- The two paths of host commands (R296). -/
inductive Path where
  | slot
  | bulk
  deriving DecidableEq, Repr

/-- Which part of a guard comparator pair a settling time belongs to (R104). -/
inductive GcPart where
  | high
  | low
  | window
  deriving DecidableEq, Repr

/-- The commands. A general register is numbered 0–31, an immediate and an offset are the encoded bits. An operand with a
default is one that a command need not state. -/
inductive Instr where
  -- reset, boot, supplies and power (R306–R320, R332)
  | powerOnReset (cause : PorCause)
  | suppliesRemoved
  | resetnAssert
  | fmCtlDevrst (who : Requester) (v : Word)
  | resetEnd (vrefen : Bool) (extVrefUv : Nat)
  | secureBoot
  | supplyWarningStart (rail : Fin 7) (mv : Nat)
  | supplySample (rail : Fin 7) (mv : Nat)
  | supplyEpisodeEnd (rail : Fin 7) (mv : Nat := 4000)
  | fmSupWarnWrite (v : Word)
  | supplyBelowResetLevel (rail : Fin 7)
  | supplyRestored (rail : Fin 7)
  | fmPwrRun (who : Requester) (v : Word)
  | fmPwrIdle (who : Requester) (v : Word)
  | idleEntered
  | idleExit (cause : IdleCause)
  | fmPwrHold (who : Requester) (v : Word)
  | holdEntryComplete
  | wakePin
  | stringWakeSequence
  | tbWakeCompare
  | holdWake
  | descriptorReapplied
  -- timebase and speed monitor (R30–R46, R379)
  | pllLock (mv : Nat)
  | lfTimeExit
  | refclkLoss
  | lfcntRunEnd (count : BitVec 24)
  | lfCrystalFail
  | tbNowlRead (who : Requester)
  | tbWakehWrite (v : Word)
  | tbLock (v : Word)
  | alignmentLoad (ring : BitVec 64)
  | speedWindowEnd (row : Fin 64) (rate : BitVec 20) (mv : Nat)
  | vddCoreFall20mv (row : Fin 64) (mv : Nat)
  | rwFloorWrite (row : Fin 64) (v : Word)
  -- general timers (R47–R56)
  | gtWrap (t : Fin 16)
  | gtCompareMatch (t : Fin 16) (c : Fin 4)
  | gtPerWrite (t : Fin 16) (v : Word)
  | gtCmpWrite (t : Fin 16) (c : Fin 4) (v : Word)
  | gtSwrst (t : Fin 16) (v : Word)
  | gtCapture (t : Fin 16) (c : Fin 4) (rising : Bool := true)
  | gtSwcap (t : Fin 16) (c : Fin 4) (v : Word)
  | gtClrovr (t : Fin 16) (c : Fin 4) (v : Word)
  | gtCaplRead (who : Requester) (t : Fin 16) (c : Fin 4)
  | gtCaphRead (who : Requester) (t : Fin 16) (c : Fin 4)
  | gtReadTimeout (who : Requester) (t : Fin 16) (c : Fin 4)
  -- lanes and trios (R57–R84)
  | laneEvent (n : Fin 192) (kind : LaneEv)
  | periodBoundary (t : Fin 64)
  | laneRisingEdge (n : Fin 192)
  | laneFallingEdge (n : Fin 192)
  | stretchCheck (n : Fin 192)
  | deadTimeEnd (n : Fin 192)
  | refreshPulseEnd (n : Fin 192)
  | lnCommitLane (n : Fin 192)
  | lnCommitTrio (n : Fin 192)
  | commitRegister
  | trioRunStart (t : Fin 64) (v : Word)
  | trioSyncStart (t : Fin 64)
  | trioRunStop (t : Fin 64) (v : Word)
  | laneEnable (n : Fin 192) (v : Word)
  | laneDisable (n : Fin 192) (v : Word)
  | lnEvtWrite (n : Fin 192) (v : Word)
  | lnOvrWrite (n : Fin 192) (v : Word)
  -- sensing and converters (R85–R101)
  | sdWordReady (inp : Fin 192) (bits : List Bool) (merged : Bool)
  | sdCoarseWord (inp : Fin 192) (bits : List Bool)
  | sdStuck (inp : Fin 192)
  | sdClockLoss (g : Fin 24)
  | sdPeriodMeasured (g : Fin 24) (period : BitVec 13)
  | sdClockRecover (g : Fin 24)
  | sdClkWrite (g : Fin 24) (v : Word)
  | sdFltWrite (inp : Fin 192) (v : Word)
  | sdWinWrite (inp : Fin 192) (v : Word)
  | sdCfltWrite (inp : Fin 192) (v : Word)
  | adTrigger (k : Fin 16)
  | adSwtrig (k : Fin 16) (v : Word)
  | adStepEnd (k : Fin 16) (uv : Nat)
  | adCtlWrite (k : Fin 16) (v : Word)
  | adClrovr (k : Fin 16) (v : Word)
  | adResRead (who : Requester) (k : Fin 16) (st : Fin 8)
  -- guard comparators, Mute network, safe torque off (R102–R118)
  | guardThresholdCrossing (n : Fin 64) (uv : Nat)
  | gcConfigWrite (n : Fin 64) (mode : Bool) (v : Word)
  | gcSettleEnd (n : Fin 64) (part : GcPart)
  | muteSourceAssert (src : Fin 416)
  | muteSourceDeassert (src : Fin 416)
  | muRouteWrite (src : Fin 416) (w : Fin 3) (v : Word)
  | muMaskWrite (n : Fin 192) (w : Fin 3) (v : Word)
  | muLineModeWrite (l : Fin 96) (v : Word)
  | muLineRelease (l : Fin 96) (v : Word)
  | muSwtripWrite (v : Word)
  | muLock (v : Word)
  | tripPinEdge (j : Fin 16) (level : Bool)
  | tripFilterExpiry (j : Fin 16)
  | stoAssert (pin : StoPin)
  | stoEnClearDone
  | stoRearm (v : Word)
  | stoDiscrepancy
  -- encoder ports (R119–R127)
  | encFilteredEdge (p : Fin 64) (a b z : Bool)
  | encReceiverOpen (p : Fin 64) (rx : Fin 4) (fault : Bool := true)
  | epSwlat (p : Fin 64) (v : Word)
  | ssiFrameComplete (p : Fin 64) (data : Word) (parity : Bool)
  | ssiDataReturn (p : Fin 64)
  | ssiTimeout (p : Fin 64)
  | epPosWrite (p : Fin 64) (v : Word)
  | epCfgWrite (p : Fin 64) (v : Word)
  -- rows (R177–R195)
  | camSetpointReady (k : Fin 64) (sl : Fin 4)
  | activationPoint (k : Fin 64) (sl : Fin 4)
  | deadlineExpiry (k : Fin 64) (sl : Fin 4)
  | rowRejoin (k : Fin 64) (sl : Fin 4) (v : Word)
  | rowEnable (k : Fin 64) (v : Word)
  | rowDisable (k : Fin 64) (v : Word)
  | rwTriosWrite (k : Fin 64) (v : Word)
  | rwBindWrite (k : Fin 64) (sl : Fin 4) (v : Word)
  -- Soette: integer (R160)
  | add (c : Core) (rd ra rb : Fin 32)
  | sub (c : Core) (rd ra rb : Fin 32)
  | addo (c : Core) (rd ra rb : Fin 32)
  | subo (c : Core) (rd ra rb : Fin 32)
  | and (c : Core) (rd ra rb : Fin 32)
  | or (c : Core) (rd ra rb : Fin 32)
  | xor (c : Core) (rd ra rb : Fin 32)
  | sll (c : Core) (rd ra rb : Fin 32)
  | srl (c : Core) (rd ra rb : Fin 32)
  | sra (c : Core) (rd ra rb : Fin 32)
  | mul (c : Core) (rd ra rb : Fin 32)
  | mulh (c : Core) (rd ra rb : Fin 32)
  | mulhu (c : Core) (rd ra rb : Fin 32)
  | addi (c : Core) (rd ra : Fin 32) (imm : BitVec 16)
  | andi (c : Core) (rd ra : Fin 32) (imm : BitVec 16)
  | ori (c : Core) (rd ra : Fin 32) (imm : BitVec 16)
  | xori (c : Core) (rd ra : Fin 32) (imm : BitVec 16)
  | lui (c : Core) (rd : Fin 32) (imm : BitVec 16)
  | slli (c : Core) (rd ra : Fin 32) (aux : BitVec 5)
  | srli (c : Core) (rd ra : Fin 32) (aux : BitVec 5)
  | srai (c : Core) (rd ra : Fin 32) (aux : BitVec 5)
  | min (c : Core) (rd ra rb : Fin 32)
  | max (c : Core) (rd ra rb : Fin 32)
  | clz (c : Core) (rd ra : Fin 32)
  | adds (c : Core) (rd ra rb : Fin 32)
  | subs (c : Core) (rd ra rb : Fin 32)
  -- Soette: compares and selection (R161)
  | ceq (c : Core) (rd ra rb : Fin 32)
  | clt (c : Core) (rd ra rb : Fin 32)
  | cltu (c : Core) (rd ra rb : Fin 32)
  | ceqi (c : Core) (rd ra : Fin 32) (imm : BitVec 16)
  | clti (c : Core) (rd ra : Fin 32) (imm : BitVec 16)
  | cltui (c : Core) (rd ra : Fin 32) (imm : BitVec 16)
  | sel (c : Core) (rd ra rb rc : Fin 32)
  -- Soette: Q format (R162)
  | qmul (c : Core) (rd ra rb : Fin 32)
  | qmuls (c : Core) (rd ra rb : Fin 32)
  | qmac (c : Core) (rd ra rb : Fin 32)
  | qmacs (c : Core) (rd ra rb : Fin 32)
  | hmul (c : Core) (rd ra rb : Fin 32)
  | hmuls (c : Core) (rd ra rb : Fin 32)
  | hmac (c : Core) (rd ra rb : Fin 32)
  | hmacs (c : Core) (rd ra rb : Fin 32)
  -- Soette: binary32 (R163)
  | fadd (c : Core) (rd ra rb : Fin 32)
  | fsub (c : Core) (rd ra rb : Fin 32)
  | fmul (c : Core) (rd ra rb : Fin 32)
  | fma (c : Core) (rd ra rb : Fin 32)
  | fmin (c : Core) (rd ra rb : Fin 32)
  | fmax (c : Core) (rd ra rb : Fin 32)
  | fabs (c : Core) (rd ra : Fin 32)
  | fneg (c : Core) (rd ra : Fin 32)
  | fceq (c : Core) (rd ra rb : Fin 32)
  | fclt (c : Core) (rd ra rb : Fin 32)
  | fcle (c : Core) (rd ra rb : Fin 32)
  | fitof (c : Core) (rd ra : Fin 32)
  | fftoi (c : Core) (rd ra : Fin 32)
  | ftoq (c : Core) (rd ra : Fin 32)
  | qtof (c : Core) (rd ra : Fin 32)
  -- Soette: side units (R133, R164)
  | div (c : Core) (rd ra rb : Fin 32)
  | divu (c : Core) (rd ra rb : Fin 32)
  | sqrt (c : Core) (rd ra : Fin 32)
  | fdiv (c : Core) (rd ra rb : Fin 32)
  | fsqrt (c : Core) (rd ra : Fin 32)
  | recip (c : Core) (rd ra : Fin 32)
  | sin (c : Core) (rd ra : Fin 32)
  | cos (c : Core) (rd ra : Fin 32)
  | atan2 (c : Core) (rd ra rb : Fin 32)
  | sideUnitResult (c : Core) (u : SideUnit)
  -- Soette: loads, stores, atomics (R165–R168)
  | lb (c : Core) (rd ra : Fin 32) (imm : BitVec 16)
  | lbu (c : Core) (rd ra : Fin 32) (imm : BitVec 16)
  | lh (c : Core) (rd ra : Fin 32) (imm : BitVec 16)
  | lhu (c : Core) (rd ra : Fin 32) (imm : BitVec 16)
  | lw (c : Core) (rd ra : Fin 32) (imm : BitVec 16)
  | sb (c : Core) (rd ra : Fin 32) (imm : BitVec 16)
  | sh (c : Core) (rd ra : Fin 32) (imm : BitVec 16)
  | sw (c : Core) (rd ra : Fin 32) (imm : BitVec 16)
  | lhp (c : Core) (rd ra : Fin 32) (imm : BitVec 16)
  | lwp (c : Core) (rd ra : Fin 32) (imm : BitVec 16)
  | shp (c : Core) (rd ra : Fin 32) (imm : BitVec 16)
  | swp (c : Core) (rd ra : Fin 32) (imm : BitVec 16)
  | swap (c : Core) (rd ra rb : Fin 32)
  | cas (c : Core) (rd ra rb : Fin 32)
  | farAccessComplete (c : Core)
  | storeBufferDrain (c : Core)
  -- Soette: branches and system (R169–R176)
  | bez (c : Core) (ra : Fin 32) (off : BitVec 21)
  | bnz (c : Core) (ra : Fin 32) (off : BitVec 21)
  | jmp (c : Core) (off : BitVec 21)
  | call (c : Core) (rd : Fin 32) (off : BitVec 21)
  | jr (c : Core) (ra : Fin 32)
  | jalr (c : Core) (rd ra : Fin 32)
  | yield (c : Core)
  | commit (c : Core)
  | sync (c : Core)
  | check (c : Core)
  | eret (c : Core)
  | mtcr (c : Core) (crn : Fin 64) (ra : Fin 32)
  | mfcr (c : Core) (rd : Fin 32) (crn : Fin 64)
  | svc (c : Core) (code : BitVec 20)
  | wfi (c : Core)
  | wfiEnd (n : Fin 4)
  | fence (c : Core)
  | bcpy (c : Core) (rd ra rb : Fin 32)
  | bset (c : Core) (rd ra rb : Fin 32)
  | bcrc (c : Core) (rd ra rb : Fin 32)
  | cload (c : Core) (rd ra rb : Fin 32)
  | longStep (n : Fin 4)
  | reservedOpcode (c : Core) (w : Word)
  | illegalOpcode (c : Core) (w : Word)
  | ceSelfCheck (n : Fin 512)
  | ceWatchdog (n : Fin 512)
  | ceStopClear (n : Fin 512)
  | exceptionEntry (n : Fin 4)
  -- Heritage window (R216–R219)
  | hwCtlWrite (v : BitVec 16)
  | hwPerhWrite (n : Fin 24) (v : BitVec 16)
  | hwDutyhWrite (n : Fin 24) (v : BitVec 16)
  -- interrupt controller (R220–R233)
  | irqClaim (n : Fin 4)
  | irqDone (n : Fin 4) (v : Word)
  | irqSwset (v : Word)
  | irqSclr (n : Fin 4)
  | irqAexrClr (k : Fin 64) (v : Word)
  -- memory protection (R234–R247)
  | scrubStep (m : Fin 1092)
  | scrubLapLimit (m : Fin 1092)
  | memVclr (m : Fin 1092) (v : Word)
  | memVclrDone (m : Fin 1092)
  | memClrw (m : Fin 1092) (v : Word)
  | memClrc (m : Fin 1092) (v : Word)
  | memFlipWrite (who : Requester) (m : Fin 1092) (v : Word)
  | mpLock (v : Word)
  -- Cask (R248–R275)
  | ckDirBegin (v : Fin 8) (w : Word)
  | ckDirSeal (v : Fin 8) (w : Word)
  | sealComplete (v : Fin 8)
  | ckDirErase (v : Fin 8) (w : Word)
  | eraseBlockDone (v : Fin 8)
  | ckLoadGo (w : Word)
  | loadEntryWrite
  | ckSwitchArm (w : Word)
  | prefetchComplete
  | ckSwitchDisarm (w : Word)
  | switchInstant
  | ckClrc (w : Word)
  | ckFlipArm (w : Word)
  | ckLock (w : Word)
  | rackingStep
  -- String link and host (R276–R305)
  | stringPortUp (p : Fin 2)
  | stringPortDown (p : Fin 2)
  | stringIdleEnd (p : Fin 2)
  | stringCycleBoundary
  | headPageLatch
  | cycFrameSend
  | cycFrameReceive (p : Fin 2) (ws : List Word) (ta : Nat)
  | cycFrameReturn (ws : List Word) (rtl : Nat) (p : Fin 2 := 0)
  | bulkFrameReceive (p : Fin 2) (ws : List Word)
  | queuedFrameSend (p : Fin 2)
  | echoSend (p : Fin 2) (t1 : Nat)
  | echoReceive (p : Fin 2) (t1 t2 t3 : Nat)
  | echoReplyReceive (p : Fin 2) (t2 t3 t4 : Nat) (t1 : Nat := 0)
  | tuneStart (v : Word)
  | tuneFrameReceive (counter : BitVec 8) (keep toomany : Bool)
  | tuneReturn (counter : BitVec 8) (keep toomany : Bool)
  | tuneTimeout
  | nop (path : Path) (seq : BitVec 16)
  | read (path : Path) (seq : BitVec 16) (addr : Word) (len : Nat)
  | write (path : Path) (seq : BitVec 16) (addr : Word) (bytes : List Byte)
  | dsc (path : Path) (seq : BitVec 16) (first last : Bool) (bytes : List Byte)
  | descriptorJudged
  | arm (path : Path) (seq : BitVec 16) (slot cyc ang : Word)
  | disarm (path : Path) (seq : BitVec 16)
  | freset (path : Path) (seq : BitVec 16) (arg : BitVec 16)
  | devreset (path : Path) (seq : BitVec 16)
  | attnclr (path : Path) (seq : BitVec 16)
  | mbox (path : Path) (seq : BitVec 16) (ws : List Word)
  | power (path : Path) (seq : BitVec 16) (arg : BitVec 16)
  | cbclear (path : Path) (seq : BitVec 16) (ws : List Word)
  | unknownCommand (path : Path) (seq : BitVec 16) (code : BitVec 8)
  | stHeadWrite (who : Requester) (v : Word)
  | stSwake (v : Word)
  | stHostPost (v : Word)
  | stBqtailWrite (v : Word)
  | stBrheadWrite (v : Word)
  | stAttnClr (v : Word)
  | stMboReady (v : Word)
  | stCyctWrite (v : Word)
  | perstnAssert (level : Bool)
  | pcieLinkDown
  -- fault manager (R321–R327)
  | fmFreset (who : Requester) (v : Word)
  | fresetEnd (f : Fin 80)
  | heartbeatProbe (silent : List (Fin 80))
  | probeTimeout (f : Fin 80)
  | fmLock (v : Word)
  -- security and debug (R328–R344)
  | secKeyWrite (v : Word)
  | secKeyErase (v : Word)
  | secBankWrite (v : Word)
  | secBankWriteDone
  | secRollWrite (v : Word) (who : Requester := .core (.sv 0))
  | secSvrel (who : Requester) (v : Word)
  | secOpenChreq (random : BitVec 192)
  | challengeExpiry
  | secOpenGo
  | openingVerified
  | openEntered
  | jtagExtest
  | jtagSamplePreload (pins : List Bool) (load : List Bool := [])
  | jtagIdcode
  | jtagBypass
  | dbgRead (addr : Word) (early : Bool := false)
  | dbgWrite (addr : Word) (data : Word) (early : Bool := false)
  | dbgAttach (early : Bool := false)
  | dbgDetach (early : Bool := false)
  | dbgHalt (tgt : BitVec 4) (addr : Word) (early : Bool := false)
  | dbgResume (tgt : BitVec 4) (addr : Word) (early : Bool := false)
  | dbgStep (tgt : BitVec 4) (addr : Word) (early : Bool := false)
  | dbgStatus (early : Bool := false)
  | dbgReset (data : Word) (early : Bool := false)
  | dbgReadChallenge (addr : Word) (early : Bool := false)
  | dbgWriteResponse (addr : Word) (data : Word) (random : BitVec 192) (early : Bool := false)
  | dbgOpError (op : BitVec 4) (early : Bool := false)
  -- Cellar Book (R345–R356)
  | cbRecordWrite
  | cbRepeatRewrite
  | cbOperatingSecond
  | cbReadWrite (who : Requester) (v : Word)
  | cbReadReady (who : Requester)
  | cbClearGo (who : Requester) (v : Word)
  | cbClearVerified
  | cbClearDone
  -- PMU (R357–R366)
  | pmuFixlRead (who : Requester) (n : Fin 4)
  | pmuCounterOverflow (row : Bool) (idx : Fin 64) (c : Fin 8)
  | pmuTagEnWrite (k : Fin 64) (v : Word)
  | pmuTagRecord (k : Fin 64) (rec : List Word)
  | pmuDctlEnable (v : Word)
  | pmuDumpTrigger
  | pmuDumpWriteDone
  -- general
  | registerWrite (who : Requester) (addr : Word) (v : Word)
  | lowFrequencyEdge
  | stoInputRelease (pin : StoPin)
  | pcieReadRequest (bar1 : Bool) (off : Word) (len : Nat)
  | pcieWriteRequest (bar1 : Bool) (off : Word) (bytes : List Byte) (ep : Bool)
  | pcieLinkUp
  | tapReset
  | resetBoundExceeded (f : Option (Fin 80))
  deriving DecidableEq, Repr

end Sys2Proof
end

