-- ==== Sys2Proof/Config.lean ====
section
/-! DEFINITION. What one device fixes and what the manual leaves open. Every constant here has no body:
no proof can rest on a value of it. Each stands in a row of the assumption log. -/

namespace Sys2Proof.Config

/-- The class the DEC-TED decoder gives an error pattern of four or more bits (R249): 0 clean, 1 single,
2 double, any other number uncorrectable. A free value, log entry 5. -/
opaque decTedClass : BitVec 64 → BitVec 80 → Nat

/-- The data a decoder delivers when it takes such a pattern for a correctable one (R249). Log entry 5. -/
opaque decTedData : BitVec 64 → BitVec 80 → BitVec 64

/-- The stored form of entry `e` of block 0, from the directory's words and the checkpoint entries written so far, each with
its RACK_POS (R248, R251, R270). Log entry 5. -/
opaque block0 (dir : List (BitVec 32)) (checks : List (Nat × Nat)) (e : Nat) : BitVec 64

/-- The deviation, 0 to 16 standing for −8 to +8 units, of the CORDIC result of SIN (R164). Log entry 6. -/
opaque sinDev : BitVec 32 → Fin 17

/-- As `sinDev`, for COS (R164). Log entry 6. -/
opaque cosDev : BitVec 32 → Fin 17

/-- As `sinDev`, for ATAN2 (R164). Log entry 6. -/
opaque atan2Dev : BitVec 32 → BitVec 32 → Fin 17

/-- The SHA-256 digest of a byte string (named, not stated, by R329 and R332). Log entry 7. -/
opaque sha256 : List (BitVec 8) → BitVec 256

/-- Whether an ECDSA P-256 signature (r, s) of a digest verifies under the key (x, y) (R332, R336, R352).
Log entry 7. -/
opaque ecdsaP256 (x y r s digest : BitVec 256) : Bool

/-- The plaintext word that AES-256-GCM gives for ciphertext word `i` under a key and a 96-bit initialisation
vector (R258, R335). Log entry 7. -/
opaque gcmWord (key : BitVec 256) (iv : BitVec 96) (i : Nat) (cipher : BitVec 64) : BitVec 64

/-- The AES-256-GCM tag over the additional data and the ciphertext words (R335). Log entry 7. -/
opaque gcmTag (key : BitVec 256) (iv : BitVec 96) (aad : BitVec 128) (cipher : List (BitVec 64)) : BitVec 128

/-- The stored form of a recipe secret under the key derived from slot 0's content and the nonce (R331). Log entry 7. -/
opaque wrapKey (device nonce key : BitVec 256) : BitVec 256

/-- The level that the boundary register drives on pin `n` under EXTEST, none for high impedance: the boundary-scan
description is no part of the manual (R338). Log entry 102. -/
opaque bsPin : List Bool → Nat → Option Bool

/-- The serial number of the device (R351, CB_SER). Log entry 8. -/
opaque serial : BitVec 64

/-- The next value of the 16-bit tagging register of R364, whose polynomial the manual does not give.
Log entry 9. -/
opaque tagNext : BitVec 16 → BitVec 16

/-- The draw that R364 makes from the register value; the model reduces it to 1 … 2 × MEAN − 1. Log entry 9. -/
opaque tagDraw : BitVec 16 → Nat → Nat

/-- Which edges of a run of 32 take the extra tick of R40 under LFCAL. Log entry 10. -/
opaque lfExtra : Nat → Nat → Bool

/-- The Boot ROM's bytes (R197). The manual gives its actions, not its contents. Log entry 11. -/
opaque bootRom : Nat → BitVec 8

/-- Whether two detections of the speed monitor lie within 300 ns of each other where low-frequency time counts no tick between
them (R31, R41). A free value, log entry 115. -/
opaque freeNear : Nat → Bool

/-- A free 32-bit value for use number `n` of the state's counter. Log entry 4. -/
opaque freeWord : Nat → BitVec 32

end Sys2Proof.Config
end

