-- ==== Sys2Proof/Machine/State.lean ====
section
/-! DEFINITION. The state of the TZ6400: every register under its address, every memory, and the state the
manual gives each block behind its registers. Tables are sparse: an index a table does not list holds that
table's after-reset value. -/

namespace Sys2Proof.Machine

/-- A sparse table in one canonical form: keys strictly rising, and no entry that equals what an unlisted
key reads as. -/
abbrev Tbl (α : Type) := List (Nat × α)

/-- A result in flight towards a general register (R130). -/
structure Producer where
  /-- Program-order number of the instruction. -/
  idx : Nat
  /-- Result distance (R131). -/
  d : Nat
  reg : Nat
  val : Word
  poison : Bool
  deriving DecidableEq, Repr

/-- One store-buffer entry (R138): bytes with their poison tags, or a COMMIT. -/
structure SbEntry where
  /-- Program-order number of the instruction. -/
  idx : Nat
  commit : Bool
  addr : Nat
  bytes : List (Byte × Bool)
  deriving DecidableEq, Repr

/-- An operation in a side unit (R133): what it writes, and the AEX bits it sets, when the unit finishes. -/
structure SideOp where
  dest : Nat
  val : Word
  poison : Bool
  aex : Nat
  pc : Nat
  /-- Program-order number of the instruction. -/
  idx : Nat
  deriving DecidableEq, Repr

/-- What a far access does when its target answers (R136). -/
inductive FarKind where
  | load (bytes : Nat) (signed : Bool)
  | swap (b : Word) (bp : Bool)
  | cas (b : Word) (bp : Bool) (d : Word) (dp : Bool)
  deriving DecidableEq, Repr

/-- An outstanding far access in the M stage (R136). -/
structure FarOp where
  kind : FarKind
  addr : Nat
  rd : Nat
  d : Nat
  pc : Nat
  /-- The base update of a post-modify form, made with the access (R166). -/
  upd : Option (Nat × Word)
  /-- When its request went out, by `State.steady`, and of a read of IRQ_CLAIM its place in the order of arrival (R226). -/
  since : BitVec 64 := 0
  order : Nat := 0
  /-- The halves of a split load that the store buffer gave at once, none for those still to come (R139, R141). -/
  taken : List (Option (List (Byte × Bool))) := []
  /-- The skid record that an event of the instruction itself has begun (R363). -/
  skid : Option Word := none
  deriving DecidableEq, Repr

/-- The long instructions (R175). -/
inductive LongKind where
  | bcpy
  | bset
  | bcrc
  | cload
  deriving DecidableEq, Repr

/-- A long instruction under way on a supervisor (R175). -/
structure LongOp where
  kind : LongKind
  rd : Nat
  ra : Nat
  rb : Nat
  /-- The skid record that an event of the instruction itself has begun (R363). -/
  skid : Option Word := none
  deriving DecidableEq, Repr

/-- What the control registers of an engine held before an instruction changed some of them (R153): its number in program
order, pending copies and active copies, by register number. -/
structure CrUndo where
  idx : Nat
  pend : List (Nat × Option Word)
  act : List (Nat × Word)
  deriving DecidableEq, Repr

/-- The states of a core: an engine is Idle, Active, Stopped or Halted (R144, R341); a supervisor runs, waits
in WFI, is halted, locked out (R212) or not yet released (R334). -/
inductive CoreMode where
  | idle
  | active
  | stopped
  | wfi
  | lockedOut
  | unreleased
  deriving DecidableEq, Repr

/-- A core's state behind its control registers. -/
structure CoreS where
  /-- G1–G31 with their poison tags (R129). -/
  base : Tbl (Word × Bool) := []
  /-- Results whose distance may not be reached, newest first (R130). -/
  infl : List Producer := []
  /-- Number of the next instruction in program order (R130). -/
  seq : Nat := 0
  pc : Nat := 0
  /-- Addresses of the last three instructions issued, newest first: those not yet past W (R153). -/
  pcs : List Nat := []
  /-- The next instruction is a delay slot, and execution continues here after it (R132). -/
  slot : Option Nat := none
  /-- The store buffer, oldest entry first (R138). -/
  sb : List SbEntry := []
  divU : Option SideOp := none
  corU : Option SideOp := none
  far : Option FarOp := none
  long : Option LongOp := none
  mode : CoreMode := .idle
  /-- Halted by debug (R341), and one instruction allowed by a Step (R339). -/
  halted : Bool := false
  stepOne : Bool := false
  /-- An instruction waits for a hazard to end (R134). -/
  held : Bool := false
  /-- It waits at M: it is past D, and the three before it are past W (R134, R139, R153, R206). -/
  atM : Bool := false
  /-- The skid record that one of its own waits has begun (R363). -/
  skid : Option Word := none
  /-- Steps for which the next instruction is still held after a producer under PRECISE (R150). -/
  wait : Nat := 0
  /-- Steps that the next instruction has waited at D or M in a case of R134 (R364). -/
  waited : Nat := 0
  /-- Control registers as they were before the instructions not yet past W changed them, newest first (R153). -/
  undo : List CrUndo := []
  /-- YIELD has been issued and the activation ends when the buffer and units are empty (R144). -/
  yielding : Bool := false
  /-- Pending non-maskable kinds, one bit each (R205). -/
  nmi : Nat := 0
  /-- A priority-stack fault is pending (R228). -/
  psf : Bool := false
  deriving DecidableEq, Repr

/-- State of a trio behind its registers (R57–R60, R71). -/
structure TrioS where
  /-- Ticks into the present count unit. -/
  phase : Nat := 0
  /-- Active period in count units. -/
  per : Nat := 0x1000
  /-- Active prescaler exponent. -/
  k : Nat := 0
  /-- A committed period or prescaler waits for a boundary (R71). -/
  perPend : Option Nat := none
  kPend : Option Nat := none
  /-- Ticks since the period boundary. -/
  elapsed : Nat := 0
  /-- RUN written with SYNC 1 waits for a String cycle boundary (R60). -/
  armed : Bool := false
  /-- A start waits for ticks: RUN was written while the timing domain places no instant (R36, R41). -/
  waits : Bool := false
  /-- Ticks for which a count at or above the period is held at its end before the boundary (R60, R72). -/
  extra : Nat := 0
  deriving DecidableEq, Repr

/-- A dead time in progress: which switch turns on when it ends (R67). -/
inductive DeadTime where
  | none
  | toHigh
  | toLow
  deriving DecidableEq, Repr

/-- Where a bootstrap refresh stands (R78). -/
inductive Refresh where
  | none
  | waitLow
  | lowOn
  | waitHigh
  deriving DecidableEq, Repr

/-- What a lane output pin shows before polarity (R80, R81). -/
inductive Pin where
  | off
  | on
  | z
  deriving DecidableEq, Repr

/-- State of a lane behind its registers. Times within a period are in fine steps from its start. -/
structure LaneS where
  /-- Active copies of the shadowed registers (R68). -/
  duty : Word := 0
  edgeA : Word := 0
  edgeB : Word := 0
  dtr : Word := 0x1900
  dtf : Word := 0x1900
  minp : Word := 0
  /-- Candidates counted by the event prescaler, and the kinds counted in which tick last, by `TbS.ticks` (R61). -/
  evCnt : Nat := 0
  evHad : List LaneEv := []
  evTick : Nat := 0
  /-- SWAP and INV as they act, which follow LN_OVR at an edge or boundary (R82). -/
  swap : Bool := false
  inv : Bool := false
  /-- Nominal edges of the present period and whether they have been placed (R70). -/
  rise : Nat := 0
  fall : Nat := 0
  /-- Times of the nominal edges under the active values (R70). -/
  nomR : Int := 0
  nomF : Int := 0
  riseDone : Bool := false
  fallDone : Bool := false
  /-- On-time in force, and the carry-in of the present period (R74, R76). -/
  w : Nat := 0
  carry : Int := 0
  /-- The side the waveform asks for: high between its edges (R67). -/
  high : Bool := false
  /-- The high-side pulse of this period, or the low-side pulse that its falling edge begins, is omitted (R74, R77). -/
  omitH : Bool := false
  omitL : Bool := false
  /-- A high-side pulse of the period before ends at this time of the present one (R77). -/
  offAt : Option Nat := none
  /-- When the present high-side and low-side pulses reached effect, from the start of the period (R77). -/
  highStart : Option Int := none
  lowStart : Option Int := none
  /-- Commands of stage 4 (R80) and a dead time in progress. -/
  hOn : Bool := false
  lOn : Bool := false
  dt : DeadTime := .none
  /-- When the dead time or the refresh pulse in progress ends, from the start of the period (R67, R78). -/
  ends : Option Int := none
  /-- The high side has been on since the boundary with no low-side pulse; consecutive full periods (R78). -/
  fullSoFar : Bool := false
  full : Nat := 0
  refresh : Refresh := .none
  refw : Nat := 0
  /-- LN_REFN.N as it acts in the present period (R78). -/
  refn : Nat := 8
  /-- A commit has registered since EN went to 1 (R84). -/
  primed : Bool := false
  driving : Bool := false
  /-- Lines that trip the lane now (R108, R109). -/
  trips : BitVec 96 := 0
  /-- The lane shows its safe state because its row is in reset (R194). -/
  rowRst : List Nat := []
  /-- What the two pins show, and when each went off, in fine steps of `TbS.ticks`: the other turns on only after the dead time
  from then (R81, R83, R113). None: no dead time is left to wait for. -/
  outH : Pin := .z
  outL : Pin := .z
  offH : Option Int := none
  offL : Option Int := none
  /-- The state the pins showed when the trip began, for SAFE 3 (R113). -/
  heldH : Pin := .z
  heldL : Pin := .z
  deriving DecidableEq, Repr

/-- A commit on its way to the lanes (R17, R187): the lanes it covers and the staged stores it writes. -/
structure CommitX where
  lanes : List Nat
  stores : List (Nat × Word)
  deriving DecidableEq, Repr

/-- State of a general timer behind its registers (R47, R48). -/
structure TimerS where
  phase : Nat := 0
  per : Word := 0xFFFFFFFF
  /-- A count unit at or above the period is over: the wrap is due (R47). -/
  wrapDue : Bool := false
  deriving DecidableEq, Repr

/-- State of a timer channel behind its registers (R49, R50, R54). -/
structure ChanS where
  level : Bool := false
  /-- The compare has matched at the present count (R49). -/
  fired : Bool := false
  /-- A write to GT_CMP has fired it since the last wrap (R50). -/
  passed : Bool := false
  /-- Mode 3: it has not fired since the last write to GT_CMP (R50). -/
  armed : Bool := true
  pend : Option (BitVec 64) := none
  /-- Times of source events not yet captured, oldest first (R53). -/
  due : List (BitVec 64) := []
  /-- Requesters with a read open, each with the tick at which it opened, and every requester's latched high word (R54). -/
  opens : List (Nat × Nat) := []
  latch : Tbl Word := []
  deriving DecidableEq, Repr

/-- A window of an event-aligned input (R91): the event's tick, the tick of its centre, and whether an earlier event's
window has merged into it (R93). -/
structure SdWin where
  te : Int
  tc : Int
  merged : Bool
  deriving DecidableEq, Repr

/-- State of a sensing input behind its registers (R93–R96). -/
structure SdS where
  /-- Consecutive coarse words beyond, and within, the thresholds. -/
  beyond : Nat := 0
  within : Nat := 0
  /-- Windows of lane events whose words are not ready yet, oldest first (R91, R93). -/
  wins : List SdWin := []
  /-- The tick at which filling began, by `TbS.ticks`, and the time of the first bit received since, in fine steps of TB_NOW
  (R88, R94). -/
  begun : Nat := 0
  first : Option Int := none
  /-- The counts of the group's bits at which the next free-running main word and the next coarse word end (R91, R95). -/
  next : Nat := 0
  cnext : Nat := 0
  /-- The count of the group's bits from which the present run of identical bits counts, none while both filters are disabled,
  whether it has been reported, the count up to which words have shown bits, and the last bit they showed (R89). -/
  same : Option Nat := none
  told : Bool := false
  seen : Nat := 0
  level : Option Bool := none
  /-- On an input clock: the ticks at which the three counts began, inside a run of 8 periods that has not ended (R88). -/
  nextAt : Option Nat := none
  cnextAt : Option Nat := none
  sameAt : Option Nat := none
  deriving DecidableEq, Repr

/-- State of a clock group behind its registers (R87, R88). -/
structure SdG where
  /-- Bits that its clock has sampled so far. -/
  bits : Nat := 0
  /-- On an input clock: the tick of the last known edge, or of the enable before one is known, by `TbS.ticks`; whether one is
  known; and the tick at which that edge's bit is still to be sampled. -/
  mark : Nat := 0
  known : Bool := false
  due : Option Nat := none
  /-- A run of 8 periods has measured in range since the clock error began (R88). -/
  ok : Bool := false
  deriving DecidableEq, Repr

/-- State of a converter behind its registers (R99). -/
structure AdS where
  step : Nat := 0
  seqs : BitVec 8 := 0
  /-- Ticks of triggers not yet taken, oldest first, and the tick of the last one taken (R100), by `TbS.ticks`. -/
  due : List Nat := []
  last : Option Nat := none
  /-- The tick at which the conversion of the running step ends (R99). -/
  endAt : Nat := 0
  /-- EN has been cleared during the sequence, which stops after its step (R101). -/
  stop : Bool := false
  deriving DecidableEq, Repr

/-- State of a pair of guard comparators (R102–R104). -/
structure GcS where
  hi : Bool := false
  lo : Bool := false
  /-- The input level last applied, in µV. -/
  uv : Nat := 0
  setH : Bool := false
  setL : Bool := false
  setW : Bool := false
  /-- Held asserted by a reset of function 67 or by VDD_ANA (R105, R313). -/
  hold : Bool := false
  deriving DecidableEq, Repr

/-- State of an encoder port behind its registers (R120–R126). -/
structure EncS where
  /-- The filtered levels. -/
  a : Bool := false
  b : Bool := false
  z : Bool := false
  /-- The levels last sampled at the receivers, and the ticks of the first of the samples that agree with them (R120), by
  `TbS.ticks`; the tick up to which the samples are known. -/
  pins : Bool × Bool × Bool := (false, false, false)
  since : Nat × Nat × Nat := (0, 0, 0)
  seen : Nat := 0
  /-- Filtered levels that samples have settled and the input delay still holds back: tick, receiver and level; and the changes of
  the filtered levels in the last 400 ticks: tick, receiver and the level before (R120, R121). -/
  edges : List (Nat × Nat × Bool) := []
  hist : List (Nat × Nat × Bool) := []
  /-- Receivers whose fail-safe reports a fault (R121). -/
  openRx : BitVec 4 := 0
  /-- An SSI frame runs; after it, D has not returned high. -/
  frame : Bool := false
  /-- The trigger tick of the last SSI frame, at which driver C falls (R126), by `TbS.ticks`. -/
  t0 : Nat := 0
  /-- The filtered level of D, and the first tick of the samples that may change it (R120, R126). -/
  d : Bool := true
  dSince : Nat := 0
  /-- The tick at which D's fault began, and the faults of D that have cleared since the frame began (R121). -/
  dFrom : Nat := 0
  dPast : List (Nat × Nat) := []
  deriving DecidableEq, Repr

/-- An open activation of a slot (R181): its trigger tick and the indications received. -/
structure OpenAct where
  trig : BitVec 64
  /-- The trigger tick by `State.steady`, from which the deadline counts (R192). -/
  since : BitVec 64
  mpos : Word
  /-- Master velocity and active vintage slot at the trigger (R184, R186). -/
  vel : Word
  vint : Option Nat
  stale : Bool
  newv : Bool
  /-- First ready of each awaited input at or after the trigger. -/
  sd : BitVec 4
  ep : Bool
  ad : Bool
  cam : Bool
  setp : Word
  setv : Word
  camErr : Bool
  camPoison : Bool
  /-- The input block with the values of the activation point, once it is reached; count and JOIN come with the start
  (R182). -/
  block : Option (List (Word × Bool)) := none
  /-- The tick of the activation point (R181). -/
  point : BitVec 64 := 0
  /-- The parameter block of the vintage that this activation opens (R186). -/
  pblock : List (BitVec 64 × Bool) := []
  deriving DecidableEq, Repr

/-- One engine's part in an activation, as the agreement checker sees it (R187, R188). -/
structure EngAct where
  /-- Staged lane stores in program order, and those of the first COMMIT once taken. -/
  staged : List (Nat × Word) := []
  committed : Bool := false
  /-- The commit was taken at or before the deadline. -/
  onTime : Bool := false
  yielded : Bool := false
  missed : Bool := false
  /-- Its commit has been applied. -/
  applied : Bool := false
  /-- The engine takes part in the slot's running activation. -/
  inAct : Bool := false
  /-- Its activation is an earlier one: it was halted in it while the partner took a later one (R183, log entry 94). -/
  past : Bool := false
  /-- The activation point of its activation (R364). -/
  point : BitVec 64 := 0
  deriving DecidableEq, Repr

/-- A standby's commit that is held for an earlier activation than the running one, since the primary was halted in that
one (R188): the trigger tick by `State.steady`, the primary, the standby, and the staged stores. -/
structure HeldAct where
  since : BitVec 64
  p : Nat
  q : Nat
  stores : List (Nat × Word)
  deriving DecidableEq, Repr

/-- State of a row's slot behind its registers (R180–R192). -/
structure SlotS where
  acts : List OpenAct := []
  /-- The held commit of an earlier activation, if there is one (R188). -/
  prev : Option HeldAct := none
  /-- Trigger tick, by `State.steady`, of the activation whose engines are running, and whether its deadline has passed. -/
  run : Option (BitVec 64 × Bool) := none
  count : BitVec 16 := 0
  /-- Primary and standby with which the running activation began, when both took part (R189). -/
  began : Option (Nat × Nat) := none
  /-- The engines PCE and SCE that have lost their role (R189). -/
  lostP : Bool := false
  lostS : Bool := false
  /-- A REJOIN that acts at the next activation: of SCE, and as standby (R191). -/
  rejoin : Option (Bool × Bool) := none
  /-- The lists have been compared in this activation (R188). -/
  judged : Bool := false
  /-- A late commit has been applied after both engines missed (R189). -/
  lateDone : Bool := false
  deriving DecidableEq, Repr

/-- State of a row behind its registers (R33, R185, R186). -/
structure RowS where
  /-- VDD_CORE in mV at the start of the present speed window, and whether it is a short window (R31). -/
  startMv : Nat := 0
  short : Bool := false
  first : Bool := false
  /-- Ticks, by `TbS.locked`, of the last 20 mV fall and warning crossing that applied a step, and whether the loop has lost
  its lock since (R31). -/
  lastFall : Option (Nat × Bool) := none
  lastWarn : Option (Nat × Bool) := none
  /-- A deadline-risk episode: its start and the lowest bound (R33). -/
  episode : Option (BitVec 64 × BitVec 20) := none
  /-- The vintage switch whose first activation has not opened yet (R186). -/
  newv : Bool := false
  /-- The parameter block of the switch whose first activation has not opened yet: 16 entries with their poison (R186). -/
  pblock : List (BitVec 64 × Bool) := []
  /-- The parameter block prefetched for the armed switch (R263). -/
  nblock : List (BitVec 64 × Bool) := []
  deriving DecidableEq, Repr

/-- The interrupt controller behind its registers (R221–R228). -/
structure IrqS where
  edge : Tbl Bool := []
  /-- Owner + 1 of each source in service; 0 when not. -/
  serv : Tbl Nat := []
  stack : Tbl (List (Nat × Nat)) := []
  /-- Core served last by the claim rotation (R226). -/
  last : Nat := 3
  deriving DecidableEq, Repr

/-- What the interrupt controller copies into retention on entry to Hold (R231). -/
structure IrqKeep where
  regs : Tbl Word
  st : IrqS
  deriving DecidableEq, Repr

/-- A protected memory's scrubber and test state behind its registers (R239–R245). -/
structure MemS where
  repair : Option Nat := none
  /-- Start of the present lap; none for the first lap since the scrubbers started. -/
  lapStart : Option (BitVec 64) := none
  lapFlagged : Bool := false
  /-- Requester that armed the flip, by its code (R245). -/
  owner : Nat := 0
  deriving DecidableEq, Repr

/-- A record of the Cellar Book (R346). -/
structure Rec where
  code : Nat := 0
  src : Nat := 0
  sev : Nat := 0
  perm : Bool := false
  time : Word := 0
  cycles : BitVec 24 := 0
  rpt : Nat := 0
  seq : BitVec 16 := 0
  p0 : Word := 0
  p1 : Word := 0
  p2 : Word := 0
  p3 : Word := 0
  deriving DecidableEq, Repr

/-- The Cask and its controller behind the registers (R248–R273). -/
structure CaskS where
  /-- Stored entry data, as last encoded, and the bits in error over the 80 stored bits (R249). -/
  data : Tbl (BitVec 64) := []
  err : Tbl (BitVec 80) := []
  repair : Option Nat := none
  /-- Racking position of the last checkpoint, the positions that the 256 checkpoint entries hold, and the entry that is
  written next (R270). -/
  check : Nat := 0
  checks : Tbl Nat := []
  checkNext : Nat := 0
  lapStart : BitVec 64 := 0
  /-- Blocks of each slot still to erase (R255). -/
  erase : Tbl (List Nat) := []
  /-- Decryption context of a running load (R335): key, initialisation vector, additional data, words read. -/
  gcm : Option (BitVec 256 × BitVec 96 × BitVec 128 × List (BitVec 64)) := none
  /-- COUNT as written with GO (R335), and the slot that the load fills (R257, R258). -/
  ldTotal : Nat := 0
  ldSlot : Option Nat := none
  /-- The armed switch, kept until its result: slot, cycle, angle (R263). -/
  sw : Option (Nat × Word × Word) := none
  /-- The result of the vote has been received (R264). -/
  result : Bool := false
  /-- The one write in progress when the present pause began has completed (R254); it was the load engine's, or the erase of
  one of these slots. -/
  late : Bool := false
  lateLoad : Bool := false
  lateErase : List Nat := []
  /-- Directory changes (slot, state, FCAUSE) and corrected entries that wait for writes to resume (R254). -/
  waiting : List (Nat × Nat × Nat) := []
  rewrites : List Nat := []
  tsValid : Bool := false
  deriving DecidableEq, Repr

/-- A read bank of the Cellar Book (R351). -/
structure CbBank where
  sel : Word := 0
  /-- A read has been started and has not ended. -/
  started : Bool := false
  ready : Bool := false
  words : List (Word × Bool) := []
  deriving DecidableEq, Repr

/-- The Cellar Book behind its registers (R345–R353). -/
structure BookS where
  /-- The places of the region, each the content of its four entries, and the bit errors of those entries by
  `bookEntry` (R345, R249). -/
  perm : Tbl Rec := []
  circ : Tbl Rec := []
  err : Tbl (BitVec 80) := []
  queue : List Rec := []
  lost : Nat := 0
  /-- Repeats not yet rewritten, by circulating place (R348). -/
  rptPend : Tbl Nat := []
  opTime : Nat := 0
  opStored : Nat := 0
  cycles : BitVec 24 := 0
  banks : Tbl CbBank := []
  csig : Tbl Word := []
  /-- A clear under verification or running: the SEQ of the CBCLEAR that asked for it, if one did, and its words. -/
  clear : Option (Option (BitVec 16) × List Word) := none
  erasing : Bool := false
  clrSlot : Nat := 0
  deriving DecidableEq, Repr

/-- A supply episode (R314–R316): its start by `State.steady`, the lowest sample, missed deadlines and rows below. -/
structure Episode where
  start : BitVec 64
  low : Nat
  misses : Nat
  rows : BitVec 64
  deriving DecidableEq, Repr

/-- How far a reset has come (R317, R318). -/
inductive ResetPhase where
  | none
  | device
  | powerOn
  | off
  deriving DecidableEq, Repr

/-- Where a change of power state stands (R306–R311). -/
inductive PowerPhase where
  | run
  | enteringIdle
  | idle
  | enteringHold
  | hold
  deriving DecidableEq, Repr

/-- The fault manager behind its registers (R306–R325). -/
structure FmS where
  reset : ResetPhase := .none
  power : PowerPhase := .run
  /-- A wake event latched during entry to Hold (R309): 1 pin, 2 String, 3 TB_WAKE. -/
  wake : Nat := 0
  eps : Tbl (Option Episode) := []
  /-- Rails below their reset level (R313). -/
  down : Tbl Bool := []
  /-- Functions held in reset (R322), and when each function's last reset ended, by `State.steady`. -/
  inrst : List Nat := []
  frEnd : Tbl (Option (BitVec 64)) := []
  devEnd : Option (BitVec 64) := none
  /-- Functions with an unanswered probe (R323). -/
  probes : List Nat := []
  /-- Voltage on VREF in µV (R102, R369). -/
  vrefUv : Nat := 2500000
  stoA : Bool := true
  stoB : Bool := true
  /-- The logic is still clearing EN after the latch set, and a REARM is held (R116). -/
  stoClearing : Bool := false
  stoRearm : Bool := false
  /-- Levels of FAULTn and ATTENDn (driven low) at entry to Hold, which both keep while it lasts (R307). -/
  pinsKept : Option (Bool × Bool) := none
  /-- VDD_CORE in mV as last reported, which a speed window that opens records (R31). -/
  coreMv : Nat := 750
  /-- `State.steady` at which the scrubbers last started: reset, or a wake from Hold (R241, R242). -/
  scrubAt : BitVec 64 := 0
  /-- Functions that have wedged since the last power-on or device reset (R324). -/
  wedged : List Nat := []
  /-- Levels of the TRIP pins, and the consecutive active samples of each, up to 40 (R112). -/
  trip : BitVec 16 := 0xFFFF
  tripOn : Tbl Nat := []
  /-- SV0 halts at 0x0000_0000 after the reset (R339, OP 9). -/
  haltSv0 : Bool := false
  deriving DecidableEq, Repr

/-- The timebase behind its registers (R38–R46). -/
structure TbS where
  /-- The ticks that the locked loop has given (R36), and the sum of the jumps that alignment loads have made in TB_NOW
  (R46): the model's own counts, by which it measures durations. -/
  ticks : Nat := 0
  shift : BitVec 64 := 0
  /-- Ticks of the locked loop, those in which low-frequency time still runs included (R34, R42). -/
  locked : Nat := 0
  latch : Tbl Word := []
  wake : BitVec 64 := 0
  /-- Low-frequency edges since entry, and extra ticks given in the present run of 32 (R40). -/
  edges : Nat := 0
  extra : Nat := 0
  /-- The run of 32 low-frequency periods being measured: its first tick, and the edges since (R43). -/
  run : Option (BitVec 64 × Nat) := none
  /-- The internal oscillator is in use after a crystal failure (R43). -/
  internal : Bool := false
  /-- The loop has locked and waits for the next low-frequency edge (R42). -/
  leaving : Bool := false
  /-- The last measured offset from ring time in fine steps, and consecutive ones beyond ±2 ns (R45). -/
  ofs : Int := 0
  far : Nat := 0
  /-- The String cycle in which it was measured (R46). -/
  ofsIn : Option Word := none
  deriving DecidableEq, Repr

/-- A frame waiting in a port's queue (R287). -/
structure QFrame where
  port : Nat
  words : List Word
  deriving DecidableEq, Repr

/-- The response a path keeps for its last SEQ (R296). -/
structure HostResp where
  seq : BitVec 16 := 0
  /-- A command has been executed on this path. -/
  valid : Bool := false
  cmd : Nat := 0
  status : Nat := 0
  len : Nat := 0
  words : List Word := []
  deriving DecidableEq, Repr

/-- The String link and host port behind their registers (R276–R302). -/
structure StrS where
  /-- Ports transmitting electrical idle, or in pass-through (R277, R280). -/
  idleTx : Tbl Bool := []
  passThru : Bool := true
  /-- Ports that have gone down and not come up again: a break (R292). -/
  fell : Tbl Bool := []
  /-- The head waits for its CYC frame to return (R285, R292). -/
  awaitRet : Bool := false
  cycle : Word := 0
  /-- The cycle whose boundary has been placed, or passed without one (R281). -/
  placed : Option Word := none
  /-- The cycle for which the head latched a page last, and the one whose frame it sent last (R282). -/
  latched : Option Word := none
  sentIn : Option Word := none
  /-- Boundaries since the last valid CYC frame (R293). -/
  noFrame : Nat := 0
  /-- Boundaries that the SA port has seen without a valid CYC frame since it came up (R277). -/
  saMiss : Nat := 0
  /-- Master values (R184), and whether any have come. -/
  m : Word := 0
  v : Word := 0
  tm : BitVec 64 := 0
  mValid : Bool := false
  /-- The page posted and the page latched by the head (R282, R284). -/
  posted : Option Nat := none
  page : List Word := []
  fresh : Bool := false
  /-- The vote this device casts in the frame it passes, and the head's returned result (R264, R282). -/
  vote : Bool := false
  rvalid : Bool := false
  rready : Bool := false
  /-- The slot command of the last frame (R295). -/
  slotCmd : List Word := []
  /-- The BULK command taken off the ring, without its CRC (R286). -/
  bulkCmd : List Word := []
  slotResp : HostResp := {}
  bulkResp : HostResp := {}
  queue : List QFrame := []
  /-- Own frames of requesters that wait for a place in a queue, frames from upstream that wait for their turn, and the ports
  that sent a forwarded frame last (R287). -/
  qwait : List QFrame := []
  fwd : List QFrame := []
  fwdLast : Tbl Bool := []
  sent : List QFrame := []
  /-- Path of a DEVRESET whose response is still to be sent (R296). -/
  resetDue : Option Path := none
  /-- Heal cycle announced (R294). -/
  heal : Option Word := none
  /-- The time at which each port's last ECHO request left, and the cycle in which it did (R289). -/
  echoT1 : Tbl Nat := []
  echoIn : Tbl (Option Word) := []
  hops : Tbl (List Nat) := []
  /-- Descriptor buffer, whether a FIRST has opened it, its path and the retained accepted descriptor (R298). -/
  dbuf : List Byte := []
  dopen : Bool := false
  dpath : Path := .slot
  dkeep : List Byte := []
  /-- The retained descriptor is being re-applied after Hold (R312). -/
  reapply : Bool := false
  /-- Buffers of R302, by offset from 0x6600_0000. -/
  bufs : Tbl Word := []
  tuning : Bool := false
  /-- A TUNE frame leaves after the next CYC frame (R288). -/
  tuneDue : Bool := false
  /-- Body of the CYC frame of this cycle, and the copy of it that has come back first in loopback, with its port
  (R292). -/
  sentBody : List Word := []
  firstRet : Option (Nat × List Word) := none
  pcieUp : Bool := false
  perstn : Bool := true
  /-- Signals of MSI-X vectors 0–3 raised so far, one bit each (R301). -/
  msix : Nat := 0
  ur : Nat := 0
  bqWait : Nat := 0
  brUsed : Nat := 0
  wakeSent : Bool := false
  mboxSeq : Option (Path × BitVec 16) := none
  deriving DecidableEq, Repr

/-- The security block behind its registers (R328–R341). -/
structure SecS where
  cls : Tbl Nat := []
  keys : Tbl (BitVec 256) := []
  kw : Tbl Word := []
  resp : Tbl Word := []
  chal : BitVec 256 := 0
  chv : Bool := false
  /-- An opening under verification, with the words it verifies (R336). -/
  opening : Option (List Word) := none
  banks : Tbl Byte := []
  bankBusy : Option (Nat × Nat) := none
  digest : Option (BitVec 256) := none
  /-- Load address, body length and VER of the image that runs (R332, R334). -/
  imgLoad : Nat := 0
  imgLen : Nat := 0
  imgVer : Bool := false
  /-- Mask of class 4 slots erased and of directory slots sent to Erasing by the opening in progress. -/
  eraMask : Nat := 0
  dirMask : Nat := 0
  /-- The nonce entry of the security region, and the recipe secrets as stored under the wrapping key (R331). -/
  nonce : BitVec 256 := 0
  stored : Tbl (BitVec 256) := []
  deriving DecidableEq, Repr

/-- A tagged instruction (R364): engine, number in program order, pc, activation point, steps waited, and whether it has
completed. -/
structure TagRun where
  eng : Nat
  idx : Nat
  pc : Nat
  point : BitVec 64
  waited : Nat
  done : Bool
  deriving DecidableEq, Repr

/-- The PMU behind its registers (R357–R365). -/
structure PmuS where
  fix : Tbl (BitVec 64) := []
  latch : Tbl Word := []
  lfsr : Tbl (BitVec 16) := []
  /-- Instructions still to count down before the next tag (R364), and tagged instructions on their way to W: those that have
  completed, in that order, then those that have only issued. -/
  left : Tbl Nat := []
  tagged : Tbl (List TagRun) := []
  events : Nat := 0
  dumpSeq : Word := 0
  skipped : Nat := 0
  copy : List Word := []
  deriving DecidableEq, Repr

/-- The JTAG port (R338, R339). -/
structure TapS where
  ir : Nat := 2
  /-- Pins as last sampled, the boundary register as last loaded, and whether EXTEST drives pins from it. -/
  sample : List Bool := []
  boundary : List Bool := []
  extest : Bool := false
  dr : Word := 0x16400A5F
  /-- STATUS, POISON and DATA of the last operation, the 72 bits that the last scan captured and those it shifted in, and when
  the operation began, by `State.steady` (R339). -/
  status : Nat := 0
  capture : BitVec 72 := 0
  scan : BitVec 72 := 0
  opAt : Option (BitVec 64) := none
  poison : Nat := 0
  data : Word := 0
  deriving DecidableEq, Repr

/-- What a requester received for its last access: data, poison per byte, or a fault (0 none, 4 misaligned,
5 bus error, 6 protection, as numbered by R204). -/
structure Resp where
  data : List (Byte × Bool) := []
  fault : Nat := 0
  deriving DecidableEq, Repr

/-- The machine. -/
structure State where
  /-- Commands that wait, first in first out. -/
  pending : List Instr
  /-- TB_NOW (R36). -/
  now : BitVec 64
  /-- The model's own counter of free values used. -/
  free : Nat
  /-- Every register, by supervisor-view address; supervisor control registers from 2^32 upward. -/
  regs : Tbl Word
  /-- Pending copies of control registers (R143, R202). -/
  crPend : Tbl (Option Word)
  /-- Data bits of every SRAM byte, by supervisor-view address (R234). -/
  mem : List Host.Cell
  /-- Deviation of a byte's stored check bits from those of its stored data bits (R235). -/
  chk : Tbl (BitVec 5)
  /-- The three copies of each 8-byte word's valid bit, by word address / 8 (R237). -/
  vld : Tbl (BitVec 3)
  /-- Control engines 0–511, supervisors at 512–515. -/
  cores : Tbl CoreS
  trios : Tbl TrioS
  lanes : Tbl LaneS
  commits : List CommitX
  tb : TbS
  timers : Tbl TimerS
  /-- Channel c of timer t at 4t + c. -/
  chans : Tbl ChanS
  sds : Tbl SdS
  /-- Clock groups of the sensing inputs. -/
  sdgs : Tbl SdG
  ads : Tbl AdS
  gcs : Tbl GcS
  /-- Asserted Mute sources (R107). -/
  srcs : Tbl Bool
  encs : Tbl EncS
  /-- Slot s of row k at 4k + s. -/
  slots : Tbl SlotS
  rows : Tbl RowS
  eacts : Tbl EngAct
  irq : IrqS
  irqKeep : Option IrqKeep
  mems : Tbl MemS
  cask : CaskS
  book : BookS
  fm : FmS
  str : StrS
  sec : SecS
  pmu : PmuS
  tap : TapS
  /-- Last response each requester received. -/
  resp : Tbl Resp
  deriving DecidableEq, Repr

/-- Reasons for a fault outcome. The commands of this block end in none: an access the manual calls a bus
error, a misaligned fault or a protection exception is answered to its requester inside the state. -/
inductive Fault where
  /-- Raised by no command; it stands for the closed list of faults the model needs. Safe. -/
  | none
  deriving DecidableEq, Repr

/-- Reasons for a refusal. -/
inductive Refusal where
  /-- A command whose meaning is not written yet. Safe. -/
  | notModelled (mnemonic : String)
  deriving DecidableEq, Repr

/-- The machine right after a cold power-on reset, at step 3 of R318; the manual gives the security region's contents
(SEC_ROLL, SEC_BOOT.PREF, SEC_RESEAL.ARM, the key slots, the nonce) only as "from the security region": the model starts
them at 0, a DESIGN CHOICE of log entry 86. It has: every register at its after-reset value but
ST_ATTN, which carries REASON 0x01; the timebase not yet locked; SV0 at 0x0000_0000 in Boot ROM and SV1–SV3 not
released (R11, R215, R303, R334); the first power cycle counted (R349). -/
def State.reset : State where
  pending := []
  now := 0
  free := 0
  regs := [(0x66000020, 1)]
  crPend := []
  mem := []
  chk := []
  vld := []
  cores := []
  trios := []
  lanes := []
  commits := []
  tb := {}
  timers := []
  chans := []
  sds := []
  sdgs := []
  ads := []
  gcs := []
  srcs := []
  encs := []
  slots := []
  rows := []
  eacts := []
  irq := {}
  irqKeep := none
  mems := []
  cask := {}
  book := { cycles := 1 }
  fm := {}
  str := {}
  sec := {}
  pmu := {}
  tap := {}
  resp := []

end Sys2Proof.Machine
end

