-- ==== Sys2Proof/Machine/Regs.lean ====
section
/-! DEFINITION. The register index (R8–R10, R390, R391 and every chapter's register map): for each register its
address form, the bits each access code of R9 gives it, and its after-reset value. Bits no mask names are
reserved: they read 0 and ignore writes (R10). -/

namespace Sys2Proof.Machine

/-- The registers of the index, by name. `ceCr i j` is control register `j` of engine `i` (R143) and `svCr i j`
that of supervisor `i` (R202). -/
inductive Reg where
  | lnCtl
  | lnPer
  | lnPsc
  | lnDuty
  | lnEdgea
  | lnEdgeb
  | lnDtr
  | lnDtf
  | lnMinp
  | lnEvt
  | lnOvr
  | lnCommit
  | lnStat
  | lnOwed
  | lnRefn
  | lnRefw
  | lnRefloss
  | lnCnt
  | sdFlt
  | sdCflt
  | sdChi
  | sdClo
  | sdWin
  | sdOfs
  | sdFs
  | sdData
  | sdCdata
  | sdStat
  | sdClk
  | sdGstat
  | gcDac
  | gcMode
  | gcStat
  | epCfg
  | epPos
  | epIdx
  | epLat
  | epLatp
  | epSsi
  | epStat
  | tbNowl
  | tbNowh
  | tbCtl
  | tbStat
  | tbLfcnt
  | tbTrim
  | tbWakel
  | tbWakeh
  | gtCtl
  | gtPer
  | gtCnt
  | gtLink
  | gtStat
  | gtCcfg
  | gtCmp
  | gtCapl
  | gtCaph
  | gtCst
  | irqPrio
  | irqTgt
  | irqClaim
  | irqDone
  | irqSwset
  | irqThr
  | irqSdep
  | irqSflt
  | irqStack
  | irqAexr
  | stCtl
  | stAddr
  | stCyct
  | stCycno
  | stStat
  | stDsc
  | stAttn
  | stHost
  | stLink
  | stMbi
  | stMbo
  | fmCtl
  | fmRstat
  | fmPwr
  | fmPstat
  | fmFreset
  | fmFcfg
  | fmFlt
  | fmWdt
  | fmInrst
  | fmSup
  | fmSstat
  | fmSdur
  | fmStat
  | spmRate
  | spmBound
  | secState
  | secStat
  | secKcmd
  | secBoot
  | secRoll
  | secSvrel
  | secSvpc
  | secBankw
  | secOpen
  | secReseal
  | secDbg
  | secKw
  | secKey
  | secChal
  | secResp
  | cbStat
  | cbHead
  | cbRead
  | cbCcnt
  | cbClear
  | cbRdata
  | cbSer
  | cbCsig
  | pmuCtl
  | pmuUen
  | pmuOvf
  | pmuSkid
  | pmuFixl
  | pmuFixh
  | pmuArl
  | pmuArh
  | pmuCnt
  | pmuEvt
  | pmuRctl
  | pmuTag
  | pmuRcnt
  | pmuRevt
  | pmuTrec
  | pmuDctl
  | pmuDbase
  | pmuDstat
  | ckCtl
  | ckStat
  | ckEcnt
  | ckUeaddr
  | ckLdsrc
  | ckLddst
  | ckLdcnt
  | ckFlipl
  | ckFliph
  | ckFlipc
  | ckSwitch
  | ckSwcyc
  | ckSwang
  | ckSwstat
  | ckSwtl
  | ckSwth
  | rackRate
  | rackPos
  | rackCnt
  | rackUeaddr
  | rackLapt
  | ckDir
  | ckDirr
  | ckDirh
  | ckDirnl
  | ckDirnh
  | ckDirseq
  | mpCtl
  | mpStat
  | mpHpc
  | mpNext
  | memCfg
  | memStat
  | memEcnt
  | memUeaddr
  | memLapt
  | memFlip
  | memPos
  | memCeaddr
  | adCtl
  | adTrig
  | adDst
  | adStat
  | adSeq
  | adRes
  | muCtl
  | muSwtrip
  | muSto
  | muTripcfg
  | muLine
  | muLstat
  | muRoute
  | muMask
  | muSafe
  | rwCtl
  | rwTrios
  | rwFloor
  | rwStat
  | rwCam
  | rwBind
  | rwTrig
  | rwWait
  | rwDl
  | rwSstat
  | rwMiss
  | rwDis
  | hwPerl
  | hwPerh
  | hwDutyl
  | hwDutyh
  | hwStat
  | hwCtl
  | ceCr
  | svCr
  deriving DecidableEq, Repr

/-- One line of the index: register at `base + si * i + sj * j` for `i < ni`, `j < nj`; the masks of the fields
that are RW, W1C, W1S and RWL, and of those that a read returns; the after-reset value. -/
structure RegInfo where
  base : Nat
  si : Nat
  ni : Nat
  sj : Nat
  nj : Nat
  rw : Word
  w1c : Word
  w1s : Word
  rwl : Word
  ro : Word
  rst : Word
  deriving DecidableEq, Repr

/-- The index. -/
def Reg.info : Reg → RegInfo
  | .lnCtl => ⟨0x60000000, 256, 192, 0, 1, 0xF00FF, 0x0, 0x0, 0x0, 0x0, 0x10012⟩
  | .lnPer => ⟨0x60000004, 256, 192, 0, 1, 0xFFFFFF, 0x0, 0x0, 0x0, 0x0, 0x1000⟩
  | .lnPsc => ⟨0x60000008, 256, 192, 0, 1, 0xF, 0x0, 0x0, 0x0, 0x0, 0x0⟩
  | .lnDuty => ⟨0x6000000C, 256, 192, 0, 1, 0x1FFFFFF, 0x0, 0x0, 0x0, 0x0, 0x0⟩
  | .lnEdgea => ⟨0x60000010, 256, 192, 0, 1, 0x3FFFFFFF, 0x0, 0x0, 0x0, 0x0, 0x0⟩
  | .lnEdgeb => ⟨0x60000014, 256, 192, 0, 1, 0x3FFFFFFF, 0x0, 0x0, 0x0, 0x0, 0x0⟩
  | .lnDtr => ⟨0x60000018, 256, 192, 0, 1, 0x3FFFF, 0x0, 0x0, 0x0, 0x0, 0x1900⟩
  | .lnDtf => ⟨0x6000001C, 256, 192, 0, 1, 0x3FFFF, 0x0, 0x0, 0x0, 0x0, 0x1900⟩
  | .lnMinp => ⟨0x60000020, 256, 192, 0, 1, 0x3FF, 0x0, 0x0, 0x0, 0x0, 0x0⟩
  | .lnEvt => ⟨0x60000024, 256, 192, 0, 1, 0xFFFFFFFF, 0x0, 0x0, 0x0, 0x0, 0x0⟩
  | .lnOvr => ⟨0x60000028, 256, 192, 0, 1, 0xF3, 0x0, 0x0, 0x0, 0x0, 0x0⟩
  | .lnCommit => ⟨0x6000002C, 256, 192, 0, 1, 0x0, 0x0, 0x0, 0x0, 0x0, 0x0⟩
  | .lnStat => ⟨0x60000030, 256, 192, 0, 1, 0x0, 0x7F, 0x0, 0x0, 0xF0000, 0x10000⟩
  | .lnOwed => ⟨0x60000034, 256, 192, 0, 1, 0xFFFFFFFF, 0x0, 0x0, 0x0, 0x0, 0x0⟩
  | .lnRefn => ⟨0x60000038, 256, 192, 0, 1, 0xFF, 0x0, 0x0, 0x0, 0x0, 0x8⟩
  | .lnRefw => ⟨0x6000003C, 256, 192, 0, 1, 0x3FFFF, 0x0, 0x0, 0x0, 0x0, 0x3200⟩
  | .lnRefloss => ⟨0x60000040, 256, 192, 0, 1, 0x0, 0x0, 0x0, 0x0, 0xFFFFF, 0x0⟩
  | .lnCnt => ⟨0x60000044, 256, 192, 0, 1, 0x1FFFFFF, 0x0, 0x0, 0x0, 0x0, 0x0⟩
  | .sdFlt => ⟨0x61000000, 64, 192, 0, 1, 0xFFFFF, 0x0, 0x0, 0x0, 0x0, 0x20104⟩
  | .sdCflt => ⟨0x61000004, 64, 192, 0, 1, 0xFFFF, 0x0, 0x0, 0x0, 0x0, 0x4042⟩
  | .sdChi => ⟨0x61000008, 64, 192, 0, 1, 0xFFFFF, 0x0, 0x0, 0x0, 0x0, 0x7FFFF⟩
  | .sdClo => ⟨0x6100000C, 64, 192, 0, 1, 0xFFFFF, 0x0, 0x0, 0x0, 0x0, 0x80000⟩
  | .sdWin => ⟨0x61000010, 64, 192, 0, 1, 0x1FFFFF, 0x0, 0x0, 0x0, 0x0, 0xFF⟩
  | .sdOfs => ⟨0x61000014, 64, 192, 0, 1, 0xFFFFFFFF, 0x0, 0x0, 0x0, 0x0, 0x0⟩
  | .sdFs => ⟨0x61000018, 64, 192, 0, 1, 0xFFFFFFFF, 0x0, 0x0, 0x0, 0x0, 0x0⟩
  | .sdData => ⟨0x6100001C, 64, 192, 0, 1, 0x0, 0x0, 0x0, 0x0, 0xFFFFFFFF, 0x0⟩
  | .sdCdata => ⟨0x61000020, 64, 192, 0, 1, 0x0, 0x0, 0x0, 0x0, 0xFFFFFFFF, 0x0⟩
  | .sdStat => ⟨0x61000024, 64, 192, 0, 1, 0x0, 0x3E00, 0x0, 0x0, 0xC1FF, 0x0⟩
  | .sdClk => ⟨0x61004000, 16, 24, 0, 1, 0x3FFFFF, 0x0, 0x0, 0x0, 0x0, 0x50⟩
  | .sdGstat => ⟨0x61004004, 16, 24, 0, 1, 0x0, 0x8000, 0x0, 0x0, 0x7FFF, 0x0⟩
  | .gcDac => ⟨0x62000000, 16, 64, 0, 1, 0x3FF03FF, 0x0, 0x0, 0x0, 0x0, 0x3FF⟩
  | .gcMode => ⟨0x62000004, 16, 64, 0, 1, 0x7FF, 0x0, 0x0, 0x0, 0x0, 0x0⟩
  | .gcStat => ⟨0x62000008, 16, 64, 0, 1, 0x0, 0xC, 0x0, 0x0, 0x13, 0x0⟩
  | .epCfg => ⟨0x63000000, 64, 64, 0, 1, 0x1FFF, 0x0, 0x0, 0x0, 0x0, 0x0⟩
  | .epPos => ⟨0x63000004, 64, 64, 0, 1, 0xFFFFFFFF, 0x0, 0x0, 0x0, 0x0, 0x0⟩
  | .epIdx => ⟨0x63000008, 64, 64, 0, 1, 0x0, 0x0, 0x0, 0x0, 0xFFFFFFFF, 0x0⟩
  | .epLat => ⟨0x6300000C, 64, 64, 0, 1, 0xFF, 0x0, 0x0, 0x0, 0x0, 0xFF⟩
  | .epLatp => ⟨0x63000010, 64, 64, 0, 1, 0x0, 0x0, 0x0, 0x0, 0xFFFFFFFF, 0x0⟩
  | .epSsi => ⟨0x63000014, 64, 64, 0, 1, 0xFFFF, 0x0, 0x0, 0x0, 0x0, 0x518⟩
  | .epStat => ⟨0x63000018, 64, 64, 0, 1, 0x0, 0x1FF, 0x0, 0x0, 0x7E00, 0x0⟩
  | .tbNowl => ⟨0x64000000, 0, 1, 0, 1, 0x0, 0x0, 0x0, 0x0, 0xFFFFFFFF, 0x0⟩
  | .tbNowh => ⟨0x64000004, 0, 1, 0, 1, 0x0, 0x0, 0x0, 0x0, 0xFFFFFFFF, 0x0⟩
  | .tbCtl => ⟨0x64000008, 0, 1, 0, 1, 0x1C, 0x0, 0x80000000, 0x3, 0x0, 0x8⟩
  | .tbStat => ⟨0x6400000C, 0, 1, 0, 1, 0x0, 0x70, 0x0, 0x0, 0xF, 0x0⟩
  | .tbLfcnt => ⟨0x64000010, 0, 1, 0, 1, 0x0, 0x0, 0x0, 0x0, 0xFFFFFF, 0x0⟩
  | .tbTrim => ⟨0x64000014, 0, 1, 0, 1, 0x0, 0x0, 0x0, 0x0, 0xFFFFFF, 0x0⟩
  | .tbWakel => ⟨0x64000018, 0, 1, 0, 1, 0xFFFFFFFF, 0x0, 0x0, 0x0, 0x0, 0x0⟩
  | .tbWakeh => ⟨0x6400001C, 0, 1, 0, 1, 0xFFFFFFFF, 0x0, 0x0, 0x0, 0x0, 0x0⟩
  | .gtCtl => ⟨0x64001000, 256, 16, 0, 1, 0x7F, 0x0, 0x0, 0x0, 0x0, 0x40⟩
  | .gtPer => ⟨0x64001004, 256, 16, 0, 1, 0xFFFFFFFF, 0x0, 0x0, 0x0, 0x0, 0xFFFFFFFF⟩
  | .gtCnt => ⟨0x64001008, 256, 16, 0, 1, 0xFFFFFFFF, 0x0, 0x0, 0x0, 0x0, 0x0⟩
  | .gtLink => ⟨0x6400100C, 256, 16, 0, 1, 0x77F, 0x0, 0x0, 0x0, 0x0, 0x0⟩
  | .gtStat => ⟨0x64001010, 256, 16, 0, 1, 0x0, 0x5, 0x0, 0x0, 0x2, 0x0⟩
  | .gtCcfg => ⟨0x64001020, 256, 16, 32, 4, 0x7FFFF, 0x0, 0x0, 0x0, 0x0, 0x0⟩
  | .gtCmp => ⟨0x64001024, 256, 16, 32, 4, 0xFFFFFFFF, 0x0, 0x0, 0x0, 0x0, 0x0⟩
  | .gtCapl => ⟨0x64001028, 256, 16, 32, 4, 0x0, 0x0, 0x0, 0x0, 0xFFFFFFFF, 0x0⟩
  | .gtCaph => ⟨0x6400102C, 256, 16, 32, 4, 0x0, 0x0, 0x0, 0x0, 0xFFFFFFFF, 0x0⟩
  | .gtCst => ⟨0x64001030, 256, 16, 32, 4, 0x0, 0x400, 0x0, 0x0, 0x3FF, 0x0⟩
  | .irqPrio => ⟨0x65000000, 4, 1024, 0, 1, 0xF, 0x0, 0x0, 0x0, 0x3F00, 0x0⟩
  | .irqTgt => ⟨0x65001000, 4, 1024, 0, 1, 0xF, 0x0, 0x0, 0x0, 0x0, 0x1⟩
  | .irqClaim => ⟨0x65002000, 0, 1, 0, 1, 0x0, 0x0, 0x0, 0x0, 0x3FF, 0x0⟩
  | .irqDone => ⟨0x65002004, 0, 1, 0, 1, 0x0, 0x0, 0x0, 0x0, 0x0, 0x0⟩
  | .irqSwset => ⟨0x65002008, 0, 1, 0, 1, 0x0, 0x0, 0x0, 0x0, 0x0, 0x0⟩
  | .irqThr => ⟨0x65003000, 256, 4, 0, 1, 0xF, 0x0, 0x0, 0x0, 0x0, 0x0⟩
  | .irqSdep => ⟨0x65003004, 256, 4, 0, 1, 0x0, 0x0, 0x0, 0x0, 0x3FFFF, 0x0⟩
  | .irqSflt => ⟨0x65003008, 256, 4, 0, 1, 0x0, 0x0, 0x0, 0x0, 0xFFFF03FF, 0x0⟩
  | .irqStack => ⟨0x65003040, 256, 4, 4, 15, 0x0, 0x0, 0x0, 0x0, 0x3FFF, 0x0⟩
  | .irqAexr => ⟨0x65004000, 4, 64, 0, 1, 0x0, 0xFFF, 0x0, 0x0, 0xFF000, 0x0⟩
  | .stCtl => ⟨0x66000000, 0, 1, 0, 1, 0x3, 0x0, 0x0, 0x0, 0x0, 0x0⟩
  | .stAddr => ⟨0x66000004, 0, 1, 0, 1, 0x0, 0x0, 0x0, 0x0, 0xFFFF, 0xFF⟩
  | .stCyct => ⟨0x66000008, 0, 1, 0, 1, 0x7FFFF, 0x0, 0x0, 0x0, 0x0, 0x30D4⟩
  | .stCycno => ⟨0x6600000C, 0, 1, 0, 1, 0x0, 0x0, 0x0, 0x0, 0xFFFFFFFF, 0x0⟩
  | .stStat => ⟨0x66000010, 0, 1, 0, 1, 0x0, 0xFFE, 0x0, 0x0, 0xFFFF0001, 0x0⟩
  | .stDsc => ⟨0x6600001C, 0, 1, 0, 1, 0x0, 0xC, 0x0, 0x0, 0x7FFFF3, 0x0⟩
  | .stAttn => ⟨0x66000020, 0, 1, 0, 1, 0x0, 0x0, 0x0, 0x0, 0xFFFF, 0x0⟩
  | .stHost => ⟨0x66000024, 0, 1, 0, 1, 0x700701, 0x0, 0x0, 0x0, 0xFF07F030, 0x0⟩
  | .stLink => ⟨0x66000014, 4, 2, 0, 1, 0x0, 0x4, 0x0, 0x0, 0xFFFFFF03, 0x0⟩
  | .stMbi => ⟨0x66000100, 4, 16, 0, 1, 0x0, 0x0, 0x0, 0x0, 0xFFFFFFFF, 0x0⟩
  | .stMbo => ⟨0x66000140, 4, 16, 0, 1, 0xFFFFFFFF, 0x0, 0x0, 0x0, 0x0, 0x0⟩
  | .fmCtl => ⟨0x67000000, 0, 1, 0, 1, 0x0, 0x0, 0x80000000, 0x0, 0x0, 0x0⟩
  | .fmRstat => ⟨0x67000004, 0, 1, 0, 1, 0x0, 0x0, 0x0, 0x0, 0xFFFF1F3F, 0x38⟩
  | .fmPwr => ⟨0x67000008, 0, 1, 0, 1, 0x1FC, 0x0, 0x0, 0x0, 0x0, 0x140⟩
  | .fmPstat => ⟨0x6700000C, 0, 1, 0, 1, 0x0, 0x60, 0x0, 0x0, 0x71F, 0x0⟩
  | .fmFreset => ⟨0x67000010, 0, 1, 0, 1, 0x7F, 0x200, 0x0, 0x0, 0x100, 0x0⟩
  | .fmFcfg => ⟨0x67000020, 0, 1, 0, 1, 0x0, 0x0, 0x0, 0x3F, 0x0, 0x1⟩
  | .fmFlt => ⟨0x67000024, 0, 1, 0, 1, 0x0, 0x3F, 0x0, 0x0, 0x0, 0x0⟩
  | .fmWdt => ⟨0x67000028, 0, 1, 0, 1, 0xFFFF, 0x0, 0x0, 0x0, 0x0, 0x3E8⟩
  | .fmInrst => ⟨0x67000014, 4, 3, 0, 1, 0x0, 0x0, 0x0, 0x0, 0xFFFFFFFF, 0x0⟩
  | .fmSup => ⟨0x67000040, 16, 7, 0, 1, 0x10, 0x0, 0x0, 0xF, 0x0, 0x0⟩
  | .fmSstat => ⟨0x67000044, 16, 7, 0, 1, 0x0, 0x6, 0x0, 0x0, 0xFFFF0001, 0x0⟩
  | .fmSdur => ⟨0x67000048, 16, 7, 0, 1, 0x0, 0x0, 0x0, 0x0, 0xFFFFFFFF, 0x0⟩
  | .fmStat => ⟨0x67000200, 4, 80, 0, 1, 0x80, 0x20, 0x0, 0x0, 0xFF5F, 0x80⟩
  | .spmRate => ⟨0x67001000, 8, 64, 0, 1, 0x0, 0x0, 0x0, 0x0, 0x100FFFFF, 0x0⟩
  | .spmBound => ⟨0x67001004, 8, 64, 0, 1, 0x0, 0x80000000, 0x0, 0x0, 0x600FFFFF, 0x0⟩
  | .secState => ⟨0x68000000, 0, 1, 0, 1, 0x0, 0x0, 0x0, 0x0, 0x3, 0x0⟩
  | .secStat => ⟨0x68000004, 0, 1, 0, 1, 0x0, 0x118, 0x0, 0x0, 0x1EE7, 0x0⟩
  | .secKcmd => ⟨0x68000008, 0, 1, 0, 1, 0x0, 0x0, 0x0, 0x0, 0x0, 0x0⟩
  | .secBoot => ⟨0x68000100, 0, 1, 0, 1, 0x1, 0x0, 0x0, 0x0, 0x0, 0x0⟩
  | .secRoll => ⟨0x68000104, 0, 1, 0, 1, 0xFFFFFFFF, 0x0, 0x0, 0x0, 0x0, 0x0⟩
  | .secSvrel => ⟨0x68000108, 0, 1, 0, 1, 0x0, 0x0, 0xE, 0x0, 0x0, 0x0⟩
  | .secSvpc => ⟨0x6800010C, 0, 1, 0, 1, 0xFFFFFFFC, 0x0, 0x0, 0x0, 0x0, 0x0⟩
  | .secBankw => ⟨0x68000110, 0, 1, 0, 1, 0xFFFFFFFA, 0x0, 0x0, 0x0, 0x4, 0x0⟩
  | .secOpen => ⟨0x680001E0, 0, 1, 0, 1, 0x0, 0x0, 0x0, 0x0, 0x4, 0x0⟩
  | .secReseal => ⟨0x680001E4, 0, 1, 0, 1, 0x1, 0x0, 0x0, 0x0, 0x0, 0x0⟩
  | .secDbg => ⟨0x680001E8, 0, 1, 0, 1, 0x0, 0x40, 0x0, 0x0, 0x3F, 0x0⟩
  | .secKw => ⟨0x68000010, 4, 8, 0, 1, 0x0, 0x0, 0x0, 0x0, 0x0, 0x0⟩
  | .secKey => ⟨0x68000040, 4, 32, 0, 1, 0x0, 0x0, 0x0, 0x0, 0x7, 0x0⟩
  | .secChal => ⟨0x68000140, 4, 8, 0, 1, 0x0, 0x0, 0x0, 0x0, 0xFFFFFFFF, 0x0⟩
  | .secResp => ⟨0x68000160, 4, 32, 0, 1, 0x0, 0x0, 0x0, 0x0, 0x0, 0x0⟩
  | .cbStat => ⟨0x69000000, 0, 1, 0, 1, 0x0, 0x4C000000, 0x0, 0x0, 0x33FFFFFF, 0x0⟩
  | .cbHead => ⟨0x69000004, 0, 1, 0, 1, 0x0, 0x0, 0x0, 0x0, 0xFFFF0FFF, 0x0⟩
  | .cbRead => ⟨0x69000008, 0, 1, 0, 1, 0x3FFF, 0x0, 0x0, 0x0, 0x80000000, 0x0⟩
  | .cbCcnt => ⟨0x69000038, 0, 1, 0, 1, 0x0, 0x0, 0x0, 0x0, 0xFFFFFFFF, 0x0⟩
  | .cbClear => ⟨0x69000040, 0, 1, 0, 1, 0x0, 0x0, 0x0, 0x0, 0x0, 0x0⟩
  | .cbRdata => ⟨0x69000010, 4, 8, 0, 1, 0x0, 0x0, 0x0, 0x0, 0xFFFFFFFF, 0x0⟩
  | .cbSer => ⟨0x69000030, 4, 2, 0, 1, 0x0, 0x0, 0x0, 0x0, 0xFFFFFFFF, 0x0⟩
  | .cbCsig => ⟨0x69000080, 4, 32, 0, 1, 0x0, 0x0, 0x0, 0x0, 0x0, 0x0⟩
  | .pmuCtl => ⟨0x6A000000, 256, 4, 0, 1, 0x1FFFF, 0x0, 0x0, 0x0, 0x0, 0x10000⟩
  | .pmuUen => ⟨0x6A000004, 256, 4, 0, 1, 0x1FF, 0x0, 0x0, 0x0, 0x0, 0x0⟩
  | .pmuOvf => ⟨0x6A000008, 256, 4, 0, 1, 0x0, 0xFF, 0x0, 0x0, 0x0, 0x0⟩
  | .pmuSkid => ⟨0x6A00000C, 256, 4, 0, 1, 0x0, 0x0, 0x0, 0x0, 0xF7, 0x0⟩
  | .pmuFixl => ⟨0x6A000010, 256, 4, 0, 1, 0xFFFFFFFF, 0x0, 0x0, 0x0, 0x0, 0x0⟩
  | .pmuFixh => ⟨0x6A000014, 256, 4, 0, 1, 0xFFFFFFFF, 0x0, 0x0, 0x0, 0x0, 0x0⟩
  | .pmuArl => ⟨0x6A000018, 256, 4, 0, 1, 0xFFFFFFFF, 0x0, 0x0, 0x0, 0x0, 0x0⟩
  | .pmuArh => ⟨0x6A00001C, 256, 4, 0, 1, 0xFFFFFFFF, 0x0, 0x0, 0x0, 0x0, 0x0⟩
  | .pmuCnt => ⟨0x6A000020, 256, 4, 4, 8, 0xFFFFFFFF, 0x0, 0x0, 0x0, 0x0, 0x0⟩
  | .pmuEvt => ⟨0x6A000040, 256, 4, 4, 8, 0x3FF, 0x0, 0x0, 0x0, 0x0, 0x0⟩
  | .pmuRctl => ⟨0x6A001000, 64, 64, 0, 1, 0x3C3FF, 0x3C00, 0x0, 0x0, 0x0, 0x0⟩
  | .pmuTag => ⟨0x6A001004, 64, 64, 0, 1, 0xFFFF0001, 0x0, 0x0, 0x0, 0xFF00, 0x0⟩
  | .pmuRcnt => ⟨0x6A001010, 64, 64, 4, 4, 0xFFFFFFFF, 0x0, 0x0, 0x0, 0x0, 0x0⟩
  | .pmuRevt => ⟨0x6A001020, 64, 64, 4, 4, 0xFF7F, 0x0, 0x0, 0x0, 0x0, 0xFF00⟩
  | .pmuTrec => ⟨0x6A002000, 32, 64, 4, 8, 0x0, 0x0, 0x0, 0x0, 0xFFFFFFFF, 0x0⟩
  | .pmuDctl => ⟨0x6A003000, 0, 1, 0, 1, 0xFFFFFFFF, 0x0, 0x0, 0x0, 0x0, 0x0⟩
  | .pmuDbase => ⟨0x6A003004, 0, 1, 0, 1, 0xFFFFFFF8, 0x0, 0x0, 0x0, 0x0, 0x0⟩
  | .pmuDstat => ⟨0x6A003008, 0, 1, 0, 1, 0x0, 0xE00, 0x0, 0x0, 0xFF1FF, 0x0⟩
  | .ckCtl => ⟨0x6B000000, 0, 1, 0, 1, 0xF, 0x0, 0x80000000, 0x10, 0x0, 0x4⟩
  | .ckStat => ⟨0x6B000004, 0, 1, 0, 1, 0x0, 0x3A6, 0x0, 0x0, 0x459, 0x0⟩
  | .ckEcnt => ⟨0x6B000008, 0, 1, 0, 1, 0x0, 0x0, 0x0, 0x0, 0xFFFFFF, 0x0⟩
  | .ckUeaddr => ⟨0x6B00000C, 0, 1, 0, 1, 0x0, 0x0, 0x0, 0x0, 0x80FFFFFF, 0x0⟩
  | .ckLdsrc => ⟨0x6B000010, 0, 1, 0, 1, 0xFFFFFFFF, 0x0, 0x0, 0x0, 0x0, 0x0⟩
  | .ckLddst => ⟨0x6B000014, 0, 1, 0, 1, 0xFFFFFF, 0x0, 0x0, 0x0, 0x0, 0x0⟩
  | .ckLdcnt => ⟨0x6B000018, 0, 1, 0, 1, 0x7FFFFFFF, 0x0, 0x0, 0x0, 0x0, 0x0⟩
  | .ckFlipl => ⟨0x6B000020, 0, 1, 0, 1, 0xFFFFFFFF, 0x0, 0x0, 0x0, 0x0, 0x0⟩
  | .ckFliph => ⟨0x6B000024, 0, 1, 0, 1, 0xFFFFFFFF, 0x0, 0x0, 0x0, 0x0, 0x0⟩
  | .ckFlipc => ⟨0x6B000028, 0, 1, 0, 1, 0xFFFF, 0x0, 0x0, 0x0, 0x80000000, 0x0⟩
  | .ckSwitch => ⟨0x6B000040, 0, 1, 0, 1, 0x7, 0x0, 0x0, 0x0, 0x0, 0x0⟩
  | .ckSwcyc => ⟨0x6B000044, 0, 1, 0, 1, 0xFFFFFFFF, 0x0, 0x0, 0x0, 0x0, 0x0⟩
  | .ckSwang => ⟨0x6B000048, 0, 1, 0, 1, 0xFFFFFFFF, 0x0, 0x0, 0x0, 0x0, 0x0⟩
  | .ckSwstat => ⟨0x6B00004C, 0, 1, 0, 1, 0x0, 0x60000, 0x0, 0x0, 0x1FF07, 0x0⟩
  | .ckSwtl => ⟨0x6B000050, 0, 1, 0, 1, 0x0, 0x0, 0x0, 0x0, 0xFFFFFFFF, 0x0⟩
  | .ckSwth => ⟨0x6B000054, 0, 1, 0, 1, 0x0, 0x0, 0x0, 0x0, 0xFFFFFFFF, 0x0⟩
  | .rackRate => ⟨0x6B000080, 0, 1, 0, 1, 0xFFFF, 0x0, 0x0, 0x0, 0x0, 0x1000⟩
  | .rackPos => ⟨0x6B000084, 0, 1, 0, 1, 0x0, 0x0, 0x0, 0x0, 0xFFFFFF, 0x0⟩
  | .rackCnt => ⟨0x6B000088, 0, 1, 0, 1, 0x0, 0x0, 0x0, 0x0, 0xFFFFFFFF, 0x0⟩
  | .rackUeaddr => ⟨0x6B00008C, 0, 1, 0, 1, 0x0, 0x0, 0x0, 0x0, 0x80FFFFFF, 0x0⟩
  | .rackLapt => ⟨0x6B000090, 0, 1, 0, 1, 0x0, 0x0, 0x0, 0x0, 0xFFFFFFFF, 0x0⟩
  | .ckDir => ⟨0x6B000100, 32, 8, 0, 1, 0x8, 0x0, 0x0, 0x0, 0x70007, 0x0⟩
  | .ckDirr => ⟨0x6B000104, 32, 8, 0, 1, 0xFFFFFF, 0x0, 0x0, 0x0, 0x0, 0x0⟩
  | .ckDirh => ⟨0x6B000108, 32, 8, 0, 1, 0x0, 0x0, 0x0, 0x0, 0xFFFFFFFF, 0x0⟩
  | .ckDirnl => ⟨0x6B00010C, 32, 8, 0, 1, 0x0, 0x0, 0x0, 0x0, 0xFFFFFFFF, 0x0⟩
  | .ckDirnh => ⟨0x6B000110, 32, 8, 0, 1, 0x0, 0x0, 0x0, 0x0, 0xFFFFFFFF, 0x0⟩
  | .ckDirseq => ⟨0x6B000114, 32, 8, 0, 1, 0x0, 0x0, 0x0, 0x0, 0xFFFFFFFF, 0x0⟩
  | .mpCtl => ⟨0x6C000000, 0, 1, 0, 1, 0x0, 0x0, 0x80000000, 0x1, 0x0, 0x0⟩
  | .mpStat => ⟨0x6C000004, 0, 1, 0, 1, 0x0, 0x1, 0x0, 0x0, 0x0, 0x0⟩
  | .mpHpc => ⟨0x6C000008, 0, 1, 0, 1, 0x0, 0x0, 0x0, 0x0, 0xFFFF, 0x0⟩
  | .mpNext => ⟨0x6C000010, 4, 4, 0, 1, 0x0, 0x0, 0x0, 0x0, 0xFFFF, 0xFFFF⟩
  | .memCfg => ⟨0x6C001000, 32, 1092, 0, 1, 0x7FF, 0x0, 0x0, 0x0, 0x0, 0x205⟩
  | .memStat => ⟨0x6C001004, 32, 1092, 0, 1, 0x0, 0x7F, 0x0, 0x0, 0x180, 0x0⟩
  | .memEcnt => ⟨0x6C001008, 32, 1092, 0, 1, 0x0, 0x0, 0x0, 0x0, 0xFFFFFFFF, 0x0⟩
  | .memUeaddr => ⟨0x6C00100C, 32, 1092, 0, 1, 0x0, 0x0, 0x0, 0x0, 0xFFFFFFFF, 0x0⟩
  | .memLapt => ⟨0x6C001010, 32, 1092, 0, 1, 0x0, 0x0, 0x0, 0x0, 0xFFFFFFFF, 0x0⟩
  | .memFlip => ⟨0x6C001014, 32, 1092, 0, 1, 0x40071FFF, 0x0, 0x0, 0x0, 0x80000000, 0x0⟩
  | .memPos => ⟨0x6C001018, 32, 1092, 0, 1, 0x0, 0x0, 0x0, 0x0, 0xFFFFFFFF, 0x0⟩
  | .memCeaddr => ⟨0x6C00101C, 32, 1092, 0, 1, 0x0, 0x0, 0x0, 0x0, 0xFFFFFFFF, 0x0⟩
  | .adCtl => ⟨0x6D000000, 256, 16, 0, 1, 0x7F, 0x0, 0x0, 0x0, 0x0, 0x0⟩
  | .adTrig => ⟨0x6D000004, 256, 16, 0, 1, 0xFF07, 0x0, 0x0, 0x0, 0x0, 0x0⟩
  | .adDst => ⟨0x6D000008, 256, 16, 0, 1, 0x3FFFFF, 0x0, 0x0, 0x0, 0x0, 0x0⟩
  | .adStat => ⟨0x6D00000C, 256, 16, 0, 1, 0x0, 0x400, 0x0, 0x0, 0x3FF, 0x0⟩
  | .adSeq => ⟨0x6D000020, 256, 16, 4, 8, 0x3FF, 0x0, 0x0, 0x0, 0x0, 0x60⟩
  | .adRes => ⟨0x6D000040, 256, 16, 4, 8, 0x0, 0x0, 0x0, 0x0, 0x80FF3FFF, 0x0⟩
  | .muCtl => ⟨0x6E000000, 0, 1, 0, 1, 0x0, 0x0, 0x1, 0x0, 0x0, 0x0⟩
  | .muSwtrip => ⟨0x6E000004, 0, 1, 0, 1, 0xFFFF, 0x0, 0x0, 0x0, 0x0, 0x0⟩
  | .muSto => ⟨0x6E000008, 0, 1, 0, 1, 0xFFFF0010, 0x8, 0x0, 0x0, 0x7, 0x3E80000⟩
  | .muTripcfg => ⟨0x6E000040, 4, 16, 0, 1, 0x0, 0x0, 0x0, 0x7, 0x8, 0x0⟩
  | .muLine => ⟨0x6E000100, 8, 96, 0, 1, 0x8, 0x0, 0x0, 0x7, 0x0, 0x2⟩
  | .muLstat => ⟨0x6E000104, 8, 96, 0, 1, 0x0, 0xC, 0x0, 0x0, 0x3FF3, 0x0⟩
  | .muRoute => ⟨0x6E001000, 16, 416, 4, 3, 0x0, 0x0, 0x0, 0xFFFFFFFF, 0x0, 0x0⟩
  | .muMask => ⟨0x6E004000, 16, 192, 4, 3, 0x0, 0x0, 0x0, 0xFFFFFFFF, 0x0, 0x0⟩
  | .muSafe => ⟨0x6E00400C, 16, 192, 0, 1, 0x0, 0x0, 0x0, 0x3, 0x0, 0x2⟩
  | .rwCtl => ⟨0x6F000000, 4096, 64, 0, 1, 0x3F, 0x0, 0x0, 0x0, 0x0, 0x6⟩
  | .rwTrios => ⟨0x6F000004, 4096, 64, 0, 1, 0x3FF, 0x0, 0x0, 0x0, 0x0, 0x0⟩
  | .rwFloor => ⟨0x6F000008, 4096, 64, 0, 1, 0xFFFFF, 0x0, 0x0, 0x0, 0x0, 0x0⟩
  | .rwStat => ⟨0x6F00000C, 4096, 64, 0, 1, 0x0, 0x1, 0x0, 0x0, 0xE, 0x0⟩
  | .rwCam => ⟨0x6F000010, 4096, 64, 0, 1, 0x3FF, 0x0, 0x0, 0x0, 0x0, 0x0⟩
  | .rwBind => ⟨0x6F000100, 4096, 64, 64, 4, 0x8007FFFF, 0x0, 0x0, 0x0, 0x0, 0x0⟩
  | .rwTrig => ⟨0x6F000104, 4096, 64, 64, 4, 0xFF07, 0x0, 0x0, 0x0, 0x0, 0x0⟩
  | .rwWait => ⟨0x6F000108, 4096, 64, 64, 4, 0x7FFFFF, 0x0, 0x0, 0x0, 0x0, 0x0⟩
  | .rwDl => ⟨0x6F00010C, 4096, 64, 64, 4, 0x1FFF, 0x0, 0x0, 0x0, 0x0, 0x0⟩
  | .rwSstat => ⟨0x6F000110, 4096, 64, 64, 4, 0x0, 0x3FC, 0x0, 0x0, 0xF0003, 0x0⟩
  | .rwMiss => ⟨0x6F000114, 4096, 64, 64, 4, 0x0, 0x0, 0x0, 0x0, 0xFFFFFFFF, 0x0⟩
  | .rwDis => ⟨0x6F000118, 4096, 64, 64, 4, 0x0, 0x0, 0x0, 0x0, 0x1FFFFFF, 0x0⟩
  | .hwPerl => ⟨0x00080000, 16, 24, 0, 1, 0xFFFF, 0x0, 0x0, 0x0, 0x0, 0x1000⟩
  | .hwPerh => ⟨0x00080002, 16, 24, 0, 1, 0xFF, 0x0, 0x0, 0x0, 0x0, 0x0⟩
  | .hwDutyl => ⟨0x00080004, 16, 24, 0, 1, 0xFFFF, 0x0, 0x0, 0x0, 0x0, 0x0⟩
  | .hwDutyh => ⟨0x00080006, 16, 24, 0, 1, 0xFF, 0x0, 0x0, 0x0, 0x0, 0x0⟩
  | .hwStat => ⟨0x00080008, 16, 24, 0, 1, 0x0, 0x0, 0x0, 0x0, 0x7F, 0x0⟩
  | .hwCtl => ⟨0x00080FFE, 0, 1, 0, 1, 0x1, 0x0, 0x0, 0x0, 0x0, 0x0⟩
  | .ceCr => ⟨0x6F000400, 0, 512, 4, 64, 0, 0, 0, 0, 0, 0⟩
  | .svCr => ⟨0x100000000, 256, 4, 4, 64, 0, 0, 0, 0, 0, 0⟩

/-- The registers of a peripheral block, by bits [31:24] of its base (R391); 0 is the Heritage window. -/
def blockRegs : Nat → List Reg
  | 0x00 => [.hwPerl, .hwPerh, .hwDutyl, .hwDutyh, .hwStat, .hwCtl]
  | 0x60 => [.lnCtl, .lnPer, .lnPsc, .lnDuty, .lnEdgea, .lnEdgeb, .lnDtr, .lnDtf, .lnMinp, .lnEvt, .lnOvr,
      .lnCommit, .lnStat, .lnOwed, .lnRefn, .lnRefw, .lnRefloss, .lnCnt]
  | 0x61 => [.sdFlt, .sdCflt, .sdChi, .sdClo, .sdWin, .sdOfs, .sdFs, .sdData, .sdCdata, .sdStat, .sdClk, .sdGstat]
  | 0x62 => [.gcDac, .gcMode, .gcStat]
  | 0x63 => [.epCfg, .epPos, .epIdx, .epLat, .epLatp, .epSsi, .epStat]
  | 0x64 => [.tbNowl, .tbNowh, .tbCtl, .tbStat, .tbLfcnt, .tbTrim, .tbWakel, .tbWakeh, .gtCtl, .gtPer, .gtCnt,
      .gtLink, .gtStat, .gtCcfg, .gtCmp, .gtCapl, .gtCaph, .gtCst]
  | 0x65 => [.irqPrio, .irqTgt, .irqClaim, .irqDone, .irqSwset, .irqThr, .irqSdep, .irqSflt, .irqStack, .irqAexr]
  | 0x66 => [.stCtl, .stAddr, .stCyct, .stCycno, .stStat, .stDsc, .stAttn, .stHost, .stLink, .stMbi, .stMbo]
  | 0x67 => [.fmCtl, .fmRstat, .fmPwr, .fmPstat, .fmFreset, .fmFcfg, .fmFlt, .fmWdt, .fmInrst, .fmSup, .fmSstat,
      .fmSdur, .fmStat, .spmRate, .spmBound]
  | 0x68 => [.secState, .secStat, .secKcmd, .secBoot, .secRoll, .secSvrel, .secSvpc, .secBankw, .secOpen,
      .secReseal, .secDbg, .secKw, .secKey, .secChal, .secResp]
  | 0x69 => [.cbStat, .cbHead, .cbRead, .cbCcnt, .cbClear, .cbRdata, .cbSer, .cbCsig]
  | 0x6A => [.pmuCtl, .pmuUen, .pmuOvf, .pmuSkid, .pmuFixl, .pmuFixh, .pmuArl, .pmuArh, .pmuCnt, .pmuEvt,
      .pmuRctl, .pmuTag, .pmuRcnt, .pmuRevt, .pmuTrec, .pmuDctl, .pmuDbase, .pmuDstat]
  | 0x6B => [.ckCtl, .ckStat, .ckEcnt, .ckUeaddr, .ckLdsrc, .ckLddst, .ckLdcnt, .ckFlipl, .ckFliph, .ckFlipc,
      .ckSwitch, .ckSwcyc, .ckSwang, .ckSwstat, .ckSwtl, .ckSwth, .rackRate, .rackPos, .rackCnt,
      .rackUeaddr, .rackLapt, .ckDir, .ckDirr, .ckDirh, .ckDirnl, .ckDirnh, .ckDirseq]
  | 0x6C => [.mpCtl, .mpStat, .mpHpc, .mpNext, .memCfg, .memStat, .memEcnt, .memUeaddr, .memLapt, .memFlip,
      .memPos, .memCeaddr]
  | 0x6D => [.adCtl, .adTrig, .adDst, .adStat, .adSeq, .adRes]
  | 0x6E => [.muCtl, .muSwtrip, .muSto, .muTripcfg, .muLine, .muLstat, .muRoute, .muMask, .muSafe]
  | 0x6F => [.rwCtl, .rwTrios, .rwFloor, .rwStat, .rwCam, .rwBind, .rwTrig, .rwWait, .rwDl, .rwSstat, .rwMiss,
      .rwDis]
  | _ => []

/-- Address of a register (R8, R391). -/
def Reg.addr (r : Reg) (i j : Nat) : Nat :=
  match r with
  | .ceCr => 0x6F000400 + i / 8 * 0x1000 + i % 8 * 0x100 + 4 * j
  | r => r.info.base + r.info.si * i + r.info.sj * j

/-- The indices at which a register has address `a`, if it has. -/
def Reg.hit (r : Reg) (a : Nat) : Option (Nat × Nat) :=
  let g := r.info
  if a < g.base then none else
  let o := a - g.base
  let i := if g.si = 0 then 0 else if g.sj = 0 then o / g.si else
    if g.ni = 1 then 0 else Nat.min (o / g.si) (g.ni - 1)
  let q := o - g.si * i
  let j := if g.sj = 0 then 0 else q / g.sj
  if i < g.ni ∧ j < g.nj ∧ q = g.sj * j then some (i, j) else none

/-- The control register of an engine at an address of the row-control block (R143). -/
def ceCrHit (a : Nat) : Option (Nat × Nat) :=
  let o := a - 0x6F000000
  let q := o % 0x1000
  if 0x6F000000 ≤ a ∧ o < 0x40000 ∧ 0x400 ≤ q ∧ q < 0xC00 ∧ q % 4 = 0 then
    some (8 * (o / 0x1000) + (q - 0x400) / 0x100, q % 0x100 / 4)
  else none

/-- First register of a list at an address. -/
def findReg : List Reg → Nat → Option (Reg × Nat × Nat)
  | [], _ => none
  | r :: rs, a =>
    match r.hit a with
    | some (i, j) => some (r, i, j)
    | none => findReg rs a

/-- The register at a supervisor-view address, with its indices (R391). -/
def regAt (a : Nat) : Option (Reg × Nat × Nat) :=
  match ceCrHit a with
  | some (n, j) => some (.ceCr, n, j)
  | none => findReg (blockRegs (a / 0x1000000)) a

/-- Masks and after-reset value of control register `j` of a control engine (R143, R359). -/
def ceCrInfo (j : Nat) : RegInfo :=
  let g (rw w1c ro rst : Word) : RegInfo := ⟨0, 0, 0, 0, 0, rw, w1c, 0, 0, ro, rst⟩
  match j with
  | 0 => g 0 0 0x1FF 0
  | 1 => g 0x10000 0xF 0xF00 0
  | 2 => g 0xF 0 0 7
  | 3 => g 0x80003FFC 0 0 0
  | 4 => g 0x3FFC 0 0x80000000 0
  | 5 => g 0 0 0xFFFFFFFF 0
  | 6 => g 0 1 0xFF3E 0
  | 7 => g 0 0 0x3FFC 0
  | 8 => g 0 0 0xFFFFFFFF 0
  | 16 | 17 | 18 | 19 => g 0xFFFFFFFF 0 0 0
  | 20 | 21 | 22 | 23 => g 0x1FFFF 0 0 0
  | 24 => g 1 0 0 1
  | _ => g 0 0 0 0

/-- Masks and after-reset value of control register `j` of a supervisor (R202, R359). -/
def svCrInfo (j : Nat) : RegInfo :=
  let g (rw w1c ro rst : Word) : RegInfo := ⟨0, 0, 0, 0, 0, rw, w1c, 0, 0, ro, rst⟩
  match j with
  | 0 => g 0 0 3 0
  | 1 => g 0x10000 0xF 0 0
  | 2 => g 7 0 0x78 1
  | 3 => g 0xFFFFFC00 0 0 0x400
  | 4 | 5 | 6 | 7 | 10 | 11 => g 0 0 0xFFFFFFFF 0
  | 8 | 9 => g 0xFFFFFFF8 0 0 0
  | 12 | 13 | 14 | 15 => g 0 0 0 0
  | 16 | 17 | 18 | 19 => g 0xFFFFFFFF 0 0 0
  | 20 | 21 | 22 | 23 => g 0x1FFFF 0 0 0
  | 24 | 25 | 26 | 27 | 28 | 29 | 30 | 31 => g 0xFFFFFFFF 0 0 0
  | n => if n < 48 then g 0xFFFFFFFF 0 0 0 else g 0xFFFFFFC0 0 0 0

/-- Supervisor-view address of word 0 of protected memory `m` (R234). -/
def memBase (m : Nat) : Nat :=
  if m < 1024 then 0x11000000 + m / 2 * 0x8000 + m % 2 * 0x4000
  else if m < 1088 then 0x10000000 + (m - 1024) * 0x40000
  else 0x20000000 + (m - 1088) * 0x100000

/-- After-reset value of a register, with those that depend on its index: engine and core numbers, WARN of rail 0,
the scrubber's first word. -/
def Reg.rstAt (r : Reg) (i j : Nat) : Word :=
  match r with
  | .ceCr => if j = 0 then wd i else (ceCrInfo j).rst
  | .svCr => if j = 0 then wd i else (svCrInfo j).rst
  | .fmSup => if i = 0 then 4 else 0
  | .memPos => wd (memBase i)
  | .secKey => if i = 0 then 5 else 0
  | .irqTgt => if 1004 ≤ i ∧ i ≤ 1007 then 0 else r.info.rst
  | r => r.info.rst

/-- The masks a write or read of register `r` goes by. -/
def Reg.masks (r : Reg) (i j : Nat) : RegInfo :=
  match r with
  | .ceCr => ceCrInfo j
  | .svCr => svCrInfo j
  | .fmSup => if i = 0 then r.info else ⟨0, 0, 0, 0, 0, 0x10, 0, 0, 0, 0, 0⟩
  | .pmuTrec => if j = 0 then ⟨0, 0, 0, 0, 0, 0, 0x200000, 0, 0, 0xFFFFFFFF, 0⟩ else r.info
  | r => r.info

/-- The fields of a register that a read returns; every other bit reads 0 (R9, R10). -/
def Reg.readMask (r : Reg) (i j : Nat) : Word :=
  let g := r.masks i j
  g.rw ||| g.w1c ||| g.w1s ||| g.rwl ||| g.ro

/-- Span of each peripheral block from its base; 0 where no block stands (R391). -/
def blockSpan : Nat → Nat
  | 0x60 => 0xC000
  | 0x61 => 0x4180
  | 0x62 => 0x400
  | 0x63 => 0x1000
  | 0x64 => 0x2000
  | 0x65 => 0x4100
  | 0x66 => 0x10000
  | 0x67 => 0x1200
  | 0x68 => 0x200
  | 0x69 => 0x100
  | 0x6A => 0x3010
  | 0x6B => 0x200
  | 0x6C => 0x9880
  | 0x6D => 0x1000
  | 0x6E => 0x4C00
  | 0x6F => 0x40000
  | _ => 0

/-- An address inside the span of a peripheral block (R391). -/
def inBlock (a : Nat) : Bool := a % 0x1000000 < blockSpan (a / 0x1000000)

end Sys2Proof.Machine
end

