-- ==== Sys2Proof/Machine/Ops.lean ====
section
/-! DEFINITION. The named operations over the state: sparse tables, registers and their fields, the tables of
hidden state, free values, Cellar Book events, interrupt edges, FAULTn causes and attention requests. -/

namespace Sys2Proof.Machine

/-! ### Sparse tables -/

/-- The entry of key `k`; an unlisted key reads as `d k`. -/
def tget {α : Type} (d : Nat → α) : Tbl α → Nat → α
  | [], k => d k
  | (k', v) :: t, k => if k' = k then v else tget d t k

/-- `t` without key `k`. -/
def tdel {α : Type} (t : Tbl α) (k : Nat) : Tbl α := t.filter (fun e => e.1 != k)

/-- `t` with an entry for key `k` before the first greater key. -/
def tins {α : Type} : Tbl α → Nat → α → Tbl α
  | [], k, v => [(k, v)]
  | e :: t, k, v => if k < e.1 then (k, v) :: e :: t else e :: tins t k v

/-- `t` with key `k` holding `v`: canonical if `t` is (keys rising, no entry that equals its default). -/
def tput {α : Type} [DecidableEq α] (d : Nat → α) (t : Tbl α) (k : Nat) (v : α) : Tbl α :=
  if v = d k then tdel t k else tins (tdel t k) k v

/-- Every entry changed by `f`; entries that come to equal the default `d` are listed no longer. -/
def tmap {α : Type} [DecidableEq α] (f : α → α) (d : α) (t : Tbl α) : Tbl α :=
  (t.map (fun e => (e.1, f e.2))).filter (fun e => decide (e.2 ≠ d))

/-- The canonical form of a table: keys strictly rising from `lo`, no entry equal to its default. -/
def Tbl.wf {α : Type} [DecidableEq α] (d : Nat → α) : Nat → Tbl α → Bool
  | _, [] => true
  | lo, (k, v) :: t => decide (lo ≤ k) && decide (v ≠ d k) && Tbl.wf d (k + 1) t

/-! ### Registers -/

/-- After-reset value of the register at a key of `State.regs`. -/
def regDef (a : Nat) : Word :=
  if 0x100000000 ≤ a then Reg.rstAt .svCr ((a - 0x100000000) / 256) ((a - 0x100000000) % 256 / 4)
  else match regAt a with
    | some (r, i, j) => r.rstAt i j
    | none => 0

/-- The present word of register `r` at indices `i`, `j`. -/
def State.rd (s : State) (r : Reg) (i j : Nat := 0) : Word := tget regDef s.regs (r.addr i j)

/-- Register `r` at `i`, `j` takes the word `v`. -/
def State.wr (s : State) (r : Reg) (i j : Nat) (v : Word) : State :=
  { s with regs := tput regDef s.regs (r.addr i j) v }

/-- Bits `[hi:lo]` of a register. -/
def State.rdF (s : State) (r : Reg) (i j hi lo : Nat) : Nat := fld (s.rd r i j) hi lo

/-- Bit `b` of a register. -/
def State.bit (s : State) (r : Reg) (i j b : Nat) : Bool := bitOf (s.rd r i j) b

/-- Field `[hi:lo]` of a register takes `v`. -/
def State.wrF (s : State) (r : Reg) (i j hi lo v : Nat) : State :=
  s.wr r i j (setFld (s.rd r i j) hi lo v)

/-- Bit `b` of a register takes the value `v`. -/
def State.wrB (s : State) (r : Reg) (i j b : Nat) (v : Bool) : State :=
  s.wr r i j (setBit (s.rd r i j) b v)

/-- Bit `b` of a register becomes 1. -/
def State.setB (s : State) (r : Reg) (i j b : Nat) : State := s.wrB r i j b true

/-- Bit `b` of a register becomes 0. -/
def State.clrB (s : State) (r : Reg) (i j b : Nat) : State := s.wrB r i j b false

/-- A count field `[hi:lo]` increases by 1, saturating. -/
def State.incF (s : State) (r : Reg) (i j hi lo : Nat) : State :=
  s.wrF r i j hi lo (Nat.min (s.rdF r i j hi lo + 1) (2 ^ (hi + 1 - lo) - 1))

/-- Whether the block of `r` has its LOCK bit set, for RWL fields (R9). -/
def State.locked (s : State) (r : Reg) : Bool :=
  match r with
  | .tbCtl => s.bit .tbCtl 0 0 31
  | .fmFcfg | .fmSup => s.bit .fmCtl 0 0 31
  | .muTripcfg | .muLine | .muRoute | .muMask | .muSafe => s.bit .muCtl 0 0 0
  | .mpCtl => s.bit .mpCtl 0 0 31
  | .ckCtl => s.bit .ckCtl 0 0 31
  | _ => false

/-- The word a write of `v` leaves in a register by the access codes of R9: RW and unlocked RWL fields take the
written bits, W1C bits written 1 clear, W1S bits written 1 set, everything else keeps its value. -/
def applyWrite (g : RegInfo) (lk : Bool) (old v : Word) : Word :=
  let m := if lk then g.rw else g.rw ||| g.rwl
  ((old &&& ~~~m) ||| (v &&& m)) &&& ~~~(v &&& g.w1c) ||| (v &&& g.w1s)

/-- A write of `v` by the access codes alone (R9, R10). -/
def State.wrCodes (s : State) (r : Reg) (i j : Nat) (v : Word) : State :=
  s.wr r i j (applyWrite (r.masks i j) (s.locked r) (s.rd r i j) v)

/-! ### Tables of hidden state -/

/-- Engines start Idle; SV0 runs from reset, SV1–SV3 wait for their release (R215, R334). -/
def coreDef (n : Nat) : CoreS :=
  if n < 512 then {} else if n = 512 then { mode := .active } else { mode := .unreleased }

def State.core (s : State) (n : Nat) : CoreS := tget coreDef s.cores n
def State.setCore (s : State) (n : Nat) (c : CoreS) : State := { s with cores := tput coreDef s.cores n c }
def State.trio (s : State) (t : Nat) : TrioS := tget (fun _ => {}) s.trios t
def State.setTrio (s : State) (t : Nat) (x : TrioS) : State := { s with trios := tput (fun _ => {}) s.trios t x }
def State.lane (s : State) (n : Nat) : LaneS := tget (fun _ => {}) s.lanes n
def State.setLane (s : State) (n : Nat) (x : LaneS) : State := { s with lanes := tput (fun _ => {}) s.lanes n x }
def State.timer (s : State) (t : Nat) : TimerS := tget (fun _ => {}) s.timers t
def State.setTimer (s : State) (t : Nat) (x : TimerS) : State :=
  { s with timers := tput (fun _ => {}) s.timers t x }
def State.chan (s : State) (t c : Nat) : ChanS := tget (fun _ => {}) s.chans (4 * t + c)
def State.setChan (s : State) (t c : Nat) (x : ChanS) : State :=
  { s with chans := tput (fun _ => {}) s.chans (4 * t + c) x }
def State.sd (s : State) (i : Nat) : SdS := tget (fun _ => {}) s.sds i
def State.setSd (s : State) (i : Nat) (x : SdS) : State := { s with sds := tput (fun _ => {}) s.sds i x }
def State.sdg (s : State) (g : Nat) : SdG := tget (fun _ => {}) s.sdgs g
def State.setSdg (s : State) (g : Nat) (x : SdG) : State := { s with sdgs := tput (fun _ => {}) s.sdgs g x }
def State.ad (s : State) (k : Nat) : AdS := tget (fun _ => {}) s.ads k
def State.setAd (s : State) (k : Nat) (x : AdS) : State := { s with ads := tput (fun _ => {}) s.ads k x }
def State.gc (s : State) (n : Nat) : GcS := tget (fun _ => {}) s.gcs n
def State.setGc (s : State) (n : Nat) (x : GcS) : State := { s with gcs := tput (fun _ => {}) s.gcs n x }
def State.src (s : State) (k : Nat) : Bool := tget (fun _ => false) s.srcs k
def State.setSrc (s : State) (k : Nat) (b : Bool) : State := { s with srcs := tput (fun _ => false) s.srcs k b }
def State.enc (s : State) (p : Nat) : EncS := tget (fun _ => {}) s.encs p
def State.setEnc (s : State) (p : Nat) (x : EncS) : State := { s with encs := tput (fun _ => {}) s.encs p x }
def State.slot (s : State) (k x : Nat) : SlotS := tget (fun _ => {}) s.slots (4 * k + x)
def State.setSlot (s : State) (k x : Nat) (v : SlotS) : State :=
  { s with slots := tput (fun _ => {}) s.slots (4 * k + x) v }
def State.row (s : State) (k : Nat) : RowS := tget (fun _ => {}) s.rows k
def State.setRow (s : State) (k : Nat) (x : RowS) : State := { s with rows := tput (fun _ => {}) s.rows k x }
def State.eact (s : State) (n : Nat) : EngAct := tget (fun _ => {}) s.eacts n
def State.setEact (s : State) (n : Nat) (x : EngAct) : State := { s with eacts := tput (fun _ => {}) s.eacts n x }
def State.memS (s : State) (m : Nat) : MemS := tget (fun _ => {}) s.mems m
def State.setMemS (s : State) (m : Nat) (x : MemS) : State := { s with mems := tput (fun _ => {}) s.mems m x }

/-- Apply `f` for each of `0 … n − 1`, in rising order. -/
def State.forN (s : State) (n : Nat) (f : State → Nat → State) : State := (List.range n).foldl f s

/-- `f s` when `b`, else `s`. -/
def State.when (s : State) (b : Bool) (f : State → State) : State := if b then f s else s

/-- A free value, fresh for this use (log entry 4): nothing says which word it is. -/
def State.freeWord (s : State) : Word := Config.freeWord s.free

/-- The counter of free values advances. -/
def State.useFree (s : State) : State := { s with free := s.free + 1 }

/-! ### Requesters -/

/-- Number of a core: engines 0–511, supervisors 512–515. -/
def coreNum : Core → Nat
  | .ce n => n.val
  | .sv n => 512 + n.val

/-- Number of a requester: cores as above, 516 the host, 517 the debug port. -/
def reqNum : Requester → Nat
  | .core c => coreNum c
  | .host => 516
  | .debug => 517

/-! ### Events -/

/-- A function is held in reset (R322). -/
def State.inRst (s : State) (f : Nat) : Bool := decide (f ∈ s.fm.inrst)

/-- The function whose per-function reset holds register `r` at index `i` (R322). -/
def regFunc (r : Reg) (i : Nat) : Option Nat :=
  match r with
  | .rwCtl | .rwTrios | .rwFloor | .rwStat | .rwCam | .rwBind | .rwTrig | .rwWait | .rwDl | .rwSstat | .rwMiss
  | .rwDis => some i
  | .ceCr => some (i / 8)
  | .sdFlt | .sdCflt | .sdChi | .sdClo | .sdWin | .sdOfs | .sdFs | .sdData | .sdCdata | .sdStat | .sdClk
  | .sdGstat => some 64
  | .adCtl | .adTrig | .adDst | .adStat | .adSeq | .adRes => some 65
  | .epCfg | .epPos | .epIdx | .epLat | .epLatp | .epSsi | .epStat => some 66
  | .gcDac | .gcMode | .gcStat => some 67
  | .ckCtl | .ckStat | .ckEcnt | .ckUeaddr | .ckLdsrc | .ckLddst | .ckLdcnt | .ckFlipl | .ckFliph | .ckFlipc
  | .ckSwitch | .ckSwcyc | .ckSwang | .ckSwstat | .ckSwtl | .ckSwth | .rackRate | .rackPos | .rackCnt
  | .rackUeaddr | .rackLapt | .ckDir | .ckDirr | .ckDirh | .ckDirnl | .ckDirnh | .ckDirseq => some 68
  | .stLink => some (69 + i)
  | .irqPrio | .irqTgt | .irqClaim | .irqDone | .irqSwset | .irqThr | .irqSdep | .irqSflt | .irqStack
  | .irqAexr => some 72
  | .pmuCtl | .pmuUen | .pmuOvf | .pmuSkid | .pmuFixl | .pmuFixh | .pmuArl | .pmuArh | .pmuCnt | .pmuEvt
  | .pmuRctl | .pmuTag | .pmuRcnt | .pmuRevt | .pmuTrec | .pmuDctl | .pmuDbase | .pmuDstat => some 73
  | .cbStat | .cbHead | .cbRead | .cbCcnt | .cbClear | .cbRdata | .cbSer | .cbCsig => some 74
  | .svCr => some (76 + i)
  | _ => none

/-- Register `r` at index `i` belongs to a function held in reset (R322). -/
def State.funcHeld (s : State) (r : Reg) (i : Nat) : Bool :=
  match regFunc r i with
  | some f => s.inRst f
  | none => false

/-- Writes to register `r` at index `i` are ignored: its function is held in reset (R322), or the device is in reset
or off, or in Hold with its core domain switched off (R307, R317). -/
def State.regHeld (s : State) (r : Reg) (i : Nat) : Bool :=
  s.fm.reset != .none || s.fm.power == .hold || s.funcHeld r i

/-- A write to register `r` at index `i`, ignored while the register is held. -/
def State.gate (s : State) (r : Reg) (i : Nat) (f : State → State) : State := if s.regHeld r i then s else f s

/-- Severity of an event code (R355). -/
def sevOf (code : Nat) (p0 : Word) : Nat :=
  match code with
  | 0x0101 | 0x0202 | 0x0204 | 0x0205 | 0x0301 | 0x0303 | 0x0304 | 0x0401 | 0x0604 => 2
  | 0x0104 | 0x0402 | 0x0602 => 3
  | 0x0501 => if p0 = 0 then 0 else 1
  | _ => 1

/-- A block raises a Cellar Book event: it joins the queue of 16, or is lost (R346, R349, R350); LOSTF of a block held in
reset stays at its after-reset value (R322). -/
def State.record (s : State) (code src : Nat) (p0 p1 p2 p3 : Word) : State :=
  let r : Rec := { code := code, src := src, sev := sevOf code p0, time := wd s.book.opTime,
                   cycles := s.book.cycles, rpt := 1, p0 := p0, p1 := p1, p2 := p2, p3 := p3 }
  if s.book.queue.length < 16 then { s with book := { s.book with queue := s.book.queue ++ [r] } }
  else
    ({ s with book := { s.book with lost := s.book.lost + 1 } }).when (!s.inRst 74) (·.setB .cbStat 0 0 30)

/-- An edge event of interrupt source `id` sets its latch; nothing is latched while the controller is in reset,
and in Hold the retention domain holds the latch (R221, R230, R231). -/
def State.irqEdge (s : State) (id : Nat) : State :=
  if s.inRst 72 then s
  else match s.irqKeep with
    | some k => { s with irqKeep := some { k with st := { k.st with edge := tput (fun _ => false) k.st.edge id true } } }
    | none => { s with irq := { s.irq with edge := tput (fun _ => false) s.irq.edge id true } }

/-- A cause of FAULTn occurs: its FM_FLT bit sets whether or not it is enabled (R325). -/
def State.fault (s : State) (b : Nat) : State := s.setB .fmFlt 0 0 b

/-- An enabled cause of FAULTn stands (R325). -/
def State.faultn (s : State) : Bool := (s.rd .fmFlt 0 0 &&& s.rd .fmFcfg 0 0) != 0

/-- The device is in reset, off or in Hold: its core domain does nothing and answers nothing (R307, R317). -/
def State.dark (s : State) : Bool := s.fm.reset != .none || s.fm.power == .hold

/-- The timing domain places instants: the loop is locked and low-frequency time does not run (R36, R41). -/
def State.timeOk (s : State) : Bool := s.bit .tbStat 0 0 0 && !s.bit .tbStat 0 0 1

/-- TB_NOW without the jumps of alignment loads (R46): durations are differences of it. -/
def State.steady (s : State) : BitVec 64 := s.now - s.tb.shift

/-- EXTEST drives pins (R338); in Sealed and Opening it acts as BYPASS. In a reset every pin is as R319 says, and in Off the
port is unpowered (R342). -/
def State.extestOn (s : State) : Bool :=
  s.tap.extest && s.fm.reset == .none && s.rdF .secState 0 0 1 0 != 1 && s.rdF .secState 0 0 1 0 != 2

/-- The level at pin `n`: the boundary register's under EXTEST, else the block's own level (R338). Lane n's pins are 2n
and 2n + 1, FAULTn is 384, ATTENDn 385, SDCg 386 + g and driver C of port p 410 + p (log entry 102). -/
def State.atPin (s : State) (n : Nat) (own : Option Bool) : Option Bool :=
  if s.extestOn then Config.bsPin s.tap.boundary n else own

/-- FAULTn is driven low; released, this open-drain pin is high-impedance. In reset it is driven (R319, log entry 79), in
Hold it keeps its level, and otherwise it follows its enabled causes (R307, R325). -/
def State.faultOwn (s : State) : Bool :=
  match s.fm.reset, s.fm.pinsKept with
  | .off, _ => false
  | .none, some k => k.1
  | .none, none => s.faultn
  | _, _ => true

/-- ATTENDn is driven low: while REASON is non-zero (R303), not in reset before R318 asserts it (R319), and as it stood in
Hold (R307). -/
def State.attnOwn (s : State) : Bool :=
  match s.fm.reset, s.fm.pinsKept with
  | .none, some k => k.2
  | .none, none => s.rdF .stAttn 0 0 7 0 != 0
  | _, _ => false

/-- FAULTn and ATTENDn are low at the pin (R338). -/
def State.faultLow (s : State) : Bool := s.atPin 384 (if s.faultOwn then some false else none) == some false
def State.attnLow (s : State) : Bool := s.atPin 385 (if s.attnOwn then some false else none) == some false

/-- The writes that R2, R85, R105 and R119 gate act: a descriptor has been accepted and none is being re-applied
(R298, R312). -/
def State.acc (s : State) : Bool := s.bit .stDsc 0 0 0 && !s.str.reapply

/-- The String cycle in ticks; a value outside 5,000–400,000 acts as the nearer limit (R281). -/
def cyct (s : State) : Nat := Nat.max 5000 (Nat.min 400000 (s.rdF .stCyct 0 0 18 0))

/-- The number of the String cycle at TB_NOW (R281). -/
def cycleNow (s : State) : Word := wd (s.now.toNat / cyct s)

/-- MSI-X vector `n` is signalled while the PCIe link is up (R301). -/
def State.msixSig (s : State) (n : Nat) : State :=
  if s.str.pcieUp then { s with str := { s.str with msix := s.str.msix ||| 2 ^ n } } else s

/-- An attention request of the given REASON for a function (R303): a higher REASON replaces the pending one, an
equal or lower one sets MORE. -/
def State.attn (s : State) (reason func : Nat) : State :=
  let s := s.msixSig 2
  if s.rdF .stAttn 0 0 7 0 < reason then (s.wrF .stAttn 0 0 7 0 reason).wrF .stAttn 0 0 14 8 func
  else s.setB .stAttn 0 0 15

end Sys2Proof.Machine
end

