-- ==== Sys2Proof/Machine/Count.lean ====
section
/-! DEFINITION. The counting side of the PMU (R357, R361–R364): the events the other blocks report, filters, overflow,
skid and the tag countdown. -/

namespace Sys2Proof.Machine

/-- ST.PRIV of supervisor `n`. -/
def svPriv (s : State) (n : Nat) : Bool := s.bit .svCr n 2 0

/-- A supervisor counter overflows (R363): its flag sets and the skid record starts. -/
def svOverflow (s : State) (n c : Nat) : State :=
  (s.setB .pmuOvf n 0 c).wr .pmuSkid n 0 (wd (16 * c + 128))

/-- Counter `c` of supervisor `n` adds one event; it wraps with an overflow (R357). -/
def svBump (s : State) (n c : Nat) : State :=
  if s.rd .pmuCnt n c = 0xFFFFFFFF then svOverflow (s.wr .pmuCnt n c 0) n c
  else s.wr .pmuCnt n c (s.rd .pmuCnt n c + 1)

/-- Counter `c` of row `k` adds one event (R357, R363). -/
def rowBump (s : State) (k c : Nat) : State :=
  if s.rd .pmuRcnt k c = 0xFFFFFFFF then (s.wr .pmuRcnt k c 0).setB .pmuRctl k 0 (10 + c)
  else s.wr .pmuRcnt k c (s.rd .pmuRcnt k c + 1)

/-- The selection fields of an event register pick class `cls`, event `e` (R361). -/
def evtSel (w : Word) (cls e : Nat) : Bool := fld w 5 4 == cls && (bitOf w 6 || fld w 3 0 == e)

/-- The counters of supervisor `n` count: a halted core counts nothing (R360), but for the instruction of a debug step. -/
def svCounts (s : State) (n : Nat) : Bool := !(s.core (512 + n)).halted || (s.core (512 + n)).stepOne

/-- Event `e` of class `cls` on supervisor `n`, at privileged level or not; `addr` is the first byte of a class 1 access (R361,
R362). -/
def countSvAt (priv : Bool) (s : State) (n cls e addr : Nat) : State :=
  if !svCounts s n then s
  else s.forN 8 (fun s c =>
    let w := s.rd .pmuEvt n c
    let lev := match fld w 8 7 with | 1 => priv | 2 => !priv | _ => true
    let inR := !(cls == 1 && bitOf w 9) ||
      (decide ((s.rd .pmuArl n 0).toNat ≤ addr) && decide (addr ≤ (s.rd .pmuArh n 0).toNat))
    s.when (s.bit .pmuCtl n 0 c && evtSel w cls e && lev && inR) (svBump · n c))

/-- As `countSvAt`, at the level that ST.PRIV shows. -/
def countSv (s : State) (n cls e addr : Nat) : State := countSvAt (svPriv s n) s n cls e addr

/-- Event `e` of class `cls` on row `k`; `eng` is the row's engine it belongs to, for class 0 and for class 1 event 0
(R361, R362). -/
def countRow (s : State) (k cls e : Nat) (eng : Option Nat) : State :=
  s.forN 4 (fun s c =>
    let w := s.rd .pmuRevt k c
    let req := match eng with | some g => bitOf w (8 + g % 8) | none => true
    s.when (s.bit .pmuRctl k 0 c && evtSel w cls e && req) (rowBump · k c))

/-- An event of the core's own class: `cls`, `e` are the supervisor's codes, with the row's class 0 codes in `re`. -/
def countCore (s : State) (n cls e : Nat) (re : Option Nat) : State :=
  if 512 ≤ n then countSv s (n - 512) cls e 0
  else match re with
    | some re => countRow s (n / 8) 0 re (some n)
    | none => s

/-- An access of row memory, whose number is 1024 + k, by requester `who` (R361, row class 1): by an own engine, or a request from
outside the row, which a supervisor's is not (R137). -/
def countRowMem (s : State) (m who : Nat) : State :=
  if 1024 ≤ m ∧ m < 1088 then
    if who < 512 ∧ who / 8 = m - 1024 then countRow s (m - 1024) 1 0 (some who)
    else if 512 ≤ who ∧ who < 516 then s
    else countRow s (m - 1024) 1 1 none
  else s

/-- The skid record that the instruction under way on core `c` has begun: one that its events from `s0` to `s` have begun, else
`old` (R363). -/
def ownSkid (s0 s : State) (c : Nat) (old : Option Word) : Option Word :=
  if c < 512 ∨ s.rd .pmuSkid (c - 512) 0 = s0.rd .pmuSkid (c - 512) 0 then old else some (s.rd .pmuSkid (c - 512) 0)

/-- Supervisor `n` has completed an instruction that began at privileged level or not (R362): a skid record counts it, unless an
event of the instruction itself began that record, `own` (R363). -/
def countDone (own : Option Word) (priv : Bool) (s : State) (n : Nat) : State :=
  let w := s.rd .pmuSkid n 0
  let s := if bitOf w 7 && own != some w then s.wrF .pmuSkid n 0 2 0 (Nat.min 7 (fld w 2 0 + 1)) else s
  countSvAt priv s n 0 0 0

/-- The next interval of row `k` is drawn, 1 to 2 × MEAN − 1, and the register steps (R364, log entry 9). -/
def drawTag (s : State) (k : Nat) : State :=
  let m := s.rdF .pmuTag k 0 31 16
  let l := tget (fun _ => 0xACE1) s.pmu.lfsr k
  { s with pmu := { s.pmu with left := tput (fun _ => 0) s.pmu.left k (Config.tagDraw l m % (2 * m - 1) + 1),
                               lfsr := tput (fun _ => 0xACE1) s.pmu.lfsr k (Config.tagNext l) } }

/-- The tagged instruction `t` joins those on their way to W: one that has completed behind the others that have (R364). -/
def joinTags (ts : List TagRun) (t : TagRun) : List TagRun :=
  if t.done then ts.takeWhile (·.done) ++ t :: ts.dropWhile (·.done) else ts ++ [t]

/-- The tagged instructions of row `k` that have not written their records. -/
def tags (s : State) (k : Nat) : List TagRun := tget (fun _ => []) s.pmu.tagged k

def setTags (s : State) (k : Nat) (ts : List TagRun) : State :=
  { s with pmu := { s.pmu with tagged := tput (fun _ => []) s.pmu.tagged k ts } }

/-- Engine `n` issues its instruction number `idx` at `pc`, which has waited `waited` steps (R361, R364): counted, and tagged when
the countdown stands at 0. `done`: it completes at once. -/
def countIssue (s : State) (n idx pc waited : Nat) (done : Bool) : State :=
  let k := n / 8
  let s := countRow s k 0 0 (some n)
  if s.bit .pmuTag k 0 0 && s.rdF .pmuTag k 0 31 16 != 0 && s.bit .ceCr n 24 0 then
    let left := tget (fun _ => 0) s.pmu.left k
    if left = 0 then
      let t : TagRun := { eng := n, idx := idx, pc := pc, point := (s.eact n).point, waited := waited, done := done }
      drawTag (setTags s k (joinTags (tags s k) t)) k
    else { s with pmu := { s.pmu with left := tput (fun _ => 0) s.pmu.left k (left - 1) } }
  else s

/-- An event that PMU_DCTL.SRC may select (R365): 1 of lane `i`, 2 a compare of timer `i / 4`, channel
`i % 4`, which bits [5:0] of TIDX name, 3 a wrap of timer `i`, 4 the
String cycle start. -/
def dumpEvent (s : State) (src i : Nat) : State :=
  let x := s.rdF .pmuDctl 0 0 11 4
  if s.bit .pmuDctl 0 0 0 && s.rdF .pmuDctl 0 0 3 1 == src && (src == 4 || (if src = 2 then x % 64 else x) == i) then
    { s with pmu := { s.pmu with events := s.pmu.events + 1 } }
  else s

/-- Instruction number `idx` of engine `n`, whose access was outstanding, completes (R364). -/
def tagDone (s : State) (n idx : Nat) : State :=
  let mine (t : TagRun) : Bool := t.eng == n && t.idx == idx
  match (tags s (n / 8)).find? mine with
  | none => s
  | some t => setTags s (n / 8) (joinTags ((tags s (n / 8)).filter (fun t => !mine t)) { t with done := true })

/-- The instructions of engine `n` from number `cut` on are abandoned and write no tag record (R153, R364). -/
def dropTags (s : State) (n cut : Nat) : State :=
  setTags s (n / 8) ((tags s (n / 8)).filter (fun t => !(t.eng == n && decide (cut ≤ t.idx))))

end Sys2Proof.Machine
end

