-- ==== Sys2Proof/Machine/Irq.lean ====
section
/-! DEFINITION. The interrupt controller (R220–R233): level inputs, pending state, signalling, claim, completion,
stack clear, arithmetic reports and the copy kept through Hold. -/

namespace Sys2Proof.Machine

/-- Some `k < n` satisfies `p`. -/
def anyN (n : Nat) (p : Nat → Bool) : Bool := (List.range n).any p

/-- The W1C flags of register `r` that are 1. -/
def State.flags (s : State) (r : Reg) (i j : Nat) : Word := s.rd r i j &&& (r.masks i j).w1c

/-- The level input of source `id`, from the condition of its row in R220 (R246, R274, R304, R326, R344, R356, R363,
R366 for the sources other chapters assign). -/
def irqLevel (s : State) (id : Nat) : Bool :=
  if id < 1 then false
  else if id < 65 then
    let k := id - 1
    s.bit .rwCtl k 0 5 && anyN 4 (fun x => s.flags .rwSstat k x != 0)
  else if id < 129 then s.bit .spmBound (id - 65) 0 31
  else if id < 193 then anyN 8 (fun e => s.bit .ceCr (8 * (id - 129) + e) 6 0)
  else if id < 257 then false
  else if id < 449 then s.bit .lnCtl (id - 257) 0 7 && s.flags .lnStat (id - 257) 0 != 0
  else if id < 641 then
    let i := id - 449
    (s.rd .sdStat i 0 &&& 0xE00 != 0 && s.bit .sdFlt i 0 19) ||
      (s.rd .sdStat i 0 &&& 0x3000 != 0 && s.bit .sdCflt i 0 15)
  else if id < 665 then s.bit .sdGstat (id - 641) 0 15 && s.bit .sdClk (id - 641) 0 21
  else if id < 681 then s.bit .adStat (id - 665) 0 10 && s.bit .adCtl (id - 665) 0 5
  else if id < 745 then s.flags .gcStat (id - 681) 0 != 0 && s.bit .gcMode (id - 681) 0 10
  else if id < 841 then s.bit .muLstat (id - 745) 0 2 && s.bit .muLine (id - 745) 0 3
  else if id = 841 then (s.bit .muSto 0 0 2 || s.bit .muSto 0 0 3) && s.bit .muSto 0 0 4
  else if id < 906 then s.flags .epStat (id - 842) 0 != 0 && s.bit .epCfg (id - 842) 0 12
  else if id < 970 then
    let t := (id - 906) / 4
    let c := (id - 906) % 4
    s.rd .gtCst t c &&& 0x401 != 0 && s.bit .gtCcfg t c 18
  else match id with
    | 970 => s.bit .tbStat 0 0 5
    | 971 => s.bit .tbStat 0 0 6
    | 972 => s.bit .stLink 0 0 2
    | 973 => s.bit .stLink 1 0 2
    | 974 => s.bit .stStat 0 0 9
    | 975 => s.bit .stStat 0 0 10
    | 976 => s.bit .stDsc 0 0 2 || s.bit .stDsc 0 0 3
    | 977 => s.rd .stStat 0 0 &&& 0x182 != 0
    | 978 => s.rd .stStat 0 0 &&& 0x820 != 0
    | 979 => s.rdF .stAttn 0 0 7 0 != 0
    | 980 => s.rd .ckStat 0 0 &&& 0x6 != 0 && s.bit .ckCtl 0 0 0
    | 981 => s.rd .ckSwstat 0 0 &&& 0x60000 != 0 && s.bit .ckCtl 0 0 1
    | 982 => s.bit .ckStat 0 0 8 && s.bit .ckCtl 0 0 2
    | 983 => s.rd .ckStat 0 0 &&& 0x280 != 0 && s.bit .ckCtl 0 0 3
    | 984 => anyN 80 (fun f => s.bit .fmStat f 0 5 && s.bit .fmStat f 0 7)
    | 985 => anyN 7 (fun r => s.bit .fmSstat r 0 1 && s.bit .fmSup r 0 4)
    | 986 => anyN 7 (fun r => s.bit .fmSstat r 0 2 && s.bit .fmSup r 0 4)
    | 987 => s.rd .fmPstat 0 0 &&& 0x60 != 0
    | 988 => s.bit .fmFreset 0 0 9
    | 989 => s.faultn
    | 992 => s.rd .secStat 0 0 &&& 0x11C != 0
    | 993 => s.bit .secDbg 0 0 6
    | 994 => s.rd .cbStat 0 0 &&& 0x4C000000 != 0
    | 995 | 996 | 997 | 998 =>
      let n := id - 995
      s.rdF .pmuOvf n 0 7 0 &&& s.rdF .pmuCtl n 0 15 8 != 0 ||
        anyN 64 (fun k => s.rdF .pmuRctl k 0 9 8 == n && s.rdF .pmuRctl k 0 13 10 &&& s.rdF .pmuRctl k 0 7 4 != 0)
    | 999 => s.rd .pmuDstat 0 0 &&& 0x600 != 0 && s.bit .pmuDctl 0 0 31
    | 1000 => anyN 1092 (fun m => s.bit .memStat m 0 0 && s.bit .memCfg m 0 1)
    | 1001 => anyN 1092 (fun m => s.bit .memStat m 0 1 && s.bit .memCfg m 0 2)
    | 1002 => anyN 1092 (fun m => s.bit .memStat m 0 2 && s.bit .memCfg m 0 3) || s.bit .mpStat 0 0 0
    | 1003 => anyN 1092 (fun m => s.bit .memStat m 0 3 && s.bit .memCfg m 0 4)
    | _ => false

/-- The edge latch of a source (R221). -/
def State.edge (s : State) (id : Nat) : Bool := tget (fun _ => false) s.irq.edge id

/-- Pending state IP (R221). -/
def irqIp (s : State) (id : Nat) : Bool := s.edge id || irqLevel s id

/-- In-service state: 0, or the owner plus 1 (R225). -/
def State.serv (s : State) (id : Nat) : Nat := tget (fun _ => 0) s.irq.serv id

/-- Core `n`'s priority stack, top first (R225). -/
def State.stack (s : State) (n : Nat) : List (Nat × Nat) := tget (fun _ => []) s.irq.stack n

/-- The running priority of core `n` (R222). -/
def State.runPrio (s : State) (n : Nat) : Nat := match s.stack n with | [] => 0 | e :: _ => e.2

/-- IDs 1,004–1,007, whose registers read 0 and ignore writes (R220). -/
def noSource (id : Nat) : Bool := decide (1004 ≤ id) && decide (id ≤ 1007)

/-- IDs 0 and 1,004–1,007 carry no source (R220). -/
def irqExists (id : Nat) : Bool := 1 ≤ id && id < 1024 && !noSource id

/-- Source `id` signals supervisor `n` (R222). Nothing signals while the controller is in reset (R230), nor a core that is
(R229). -/
def signals (s : State) (n id : Nat) : Bool :=
  let p := s.rdF .irqPrio id 0 3 0
  p != 0 && irqExists id && s.bit .irqTgt id 0 n && s.runPrio n < p && s.rdF .irqThr n 0 3 0 < p &&
    s.serv id == 0 && !s.inRst 72 && !s.inRst (76 + n) && irqIp s id

/-- The source a claim by core `n` would take: the highest priority, then the lowest ID (R225). -/
def bestSource (s : State) (n : Nat) : Option Nat :=
  (List.range 1024).foldl (fun b id =>
    if signals s n id then
      match b with
      | none => some id
      | some b' => if s.rdF .irqPrio b' 0 3 0 < s.rdF .irqPrio id 0 3 0 then some id else some b'
    else b) none

/-- Core `n` is signalled (R222). -/
def signalled (s : State) (n : Nat) : Bool := (bestSource s n).isSome

/-- Put `st` in core `n`'s stack, and its registers DEPTH, TOPID and TOPPRIO beside it (IRQ_SDEP, IRQ_STACK). -/
def State.setStack (s : State) (n : Nat) (st : List (Nat × Nat)) : State :=
  { s with irq := { s.irq with stack := tput (fun _ => []) s.irq.stack n st } }

/-- In-service state of a source. -/
def State.setServ (s : State) (id v : Nat) : State :=
  { s with irq := { s.irq with serv := tput (fun _ => 0) s.irq.serv id v } }

/-- Clear the edge latch of a source. -/
def State.clrEdge (s : State) (id : Nat) : State :=
  { s with irq := { s.irq with edge := tput (fun _ => false) s.irq.edge id false } }

/-- A claim by core `n` (R225): the ID it reads and the state after. -/
def irqClaim (s : State) (n : Nat) : Nat × State :=
  match bestSource s n with
  | none => (0, countSv s n 3 2 0)
  | some id =>
    let s1 := (s.setServ id (n + 1)).clrEdge id
    let s2 := s1.setStack n ((id, s.rdF .irqPrio id 0 3 0) :: s.stack n)
    (id, { s2 with irq := { s2.irq with last := n } })

/-- A priority-stack fault of core `n` on value `v` with top ID `top` (R228): IRQ_SFLT is written and exception 10
becomes pending on the core. -/
def stackFault (s : State) (n v top : Nat) : State :=
  let s1 := (s.wrF .irqSflt n 0 9 0 v).wrF .irqSflt n 0 25 16 top
  let s2 := s1.incF .irqSflt n 0 31 26
  s2.setCore (512 + n) { s2.core (512 + n) with psf := true }

/-- A write of `v` to IRQ_DONE by core `n` (R228); ignored while the controller is in reset (R230). -/
def irqDone (s : State) (n v : Nat) : State :=
  s.gate .irqDone 0 fun s => match s.stack n with
    | [] => if v = 0 then s else stackFault s n v 0
    | (id, _) :: rest => if v = id then (s.setServ id 0).setStack n rest else stackFault s n v id

/-- Core `n`'s stack is emptied and the sources on it leave service (R229, R231). -/
def emptyStack (s : State) (n : Nat) : State :=
  ((s.stack n).foldl (fun s e => s.setServ e.1 0) s).setStack n []

/-- Core `n`'s sources leave service and its stack empties, as at the start of its reset (R229). -/
def dropOwner (s : State) (n : Nat) : State :=
  (s.irq.serv.foldl (fun s e => if e.2 = n + 1 then s.setServ e.1 0 else s) s).setStack n []

/-- An arithmetic report of engine `e` carrying `bits` (R149, R233); a controller in reset takes none (R230). -/
def aexReport (s : State) (e bits : Nat) : State := s.gate .irqAexr (e / 8) fun s =>
  let k := e / 8
  let s := s.setB .irqAexr k 0 (e % 8)
  let s := s.wrF .irqAexr k 0 11 8 (s.rdF .irqAexr k 0 11 8 ||| bits)
  (s.incF .irqAexr k 0 19 12).irqEdge (193 + k)

/-- IRQ_PRIO as read: PRIO, IP, IS, OWNER, LEVEL and EDGE (R221, R224, R225). -/
def readIrqPrio (s : State) (id : Nat) : Word :=
  if noSource id then 0 else
  let v := s.serv id
  wd (s.rdF .irqPrio id 0 3 0 + 2 ^ 8 * b2n (irqIp s id) + 2 ^ 9 * b2n (v != 0) + 2 ^ 10 * (v - 1)
    + 2 ^ 12 * b2n (irqLevel s id) + 2 ^ 13 * b2n (s.edge id))

/-- IRQ_SDEP as read. -/
def readIrqSdep (s : State) (n : Nat) : Word :=
  match s.stack n with
  | [] => 0
  | (id, p) :: t => wd (t.length + 1 + 2 ^ 4 * id + 2 ^ 14 * p)

/-- IRQ_STACK as read: entry `j` from the bottom; entries at or above DEPTH read 0. -/
def readIrqStack (s : State) (n j : Nat) : Word :=
  match (s.stack n).reverse[j]? with
  | none => 0
  | some (id, p) => wd (id + 2 ^ 10 * p)

/-- The interrupt controller's registers at their after-reset values, its stacks, latches and IS cleared (R230). -/
def resetIrq (s : State) : State :=
  { s with irq := {}, regs := s.regs.filter (fun e => !(0x65000000 ≤ e.1 && e.1 < 0x65004100)) }

/-- The controller copies its state into retention (R231). -/
def saveIrq (s : State) : State :=
  { s with irqKeep := some { regs := s.regs.filter (fun e => 0x65000000 ≤ e.1 && e.1 < 0x65003000 + 0x400 &&
      (e.1 < 0x65002000 || (e.1 - 0x65003000) % 0x100 = 0)), st := s.irq } }

/-- The retained state is restored (R231). -/
def restoreIrq (s : State) : State :=
  match s.irqKeep with
  | none => s
  | some k =>
    let s1 : State := { resetIrq s with irq := k.st, irqKeep := none }
    { s1 with regs := k.regs.foldl (fun r e => tput regDef r e.1 e.2) s1.regs }

/-- IRQ_DONE: a write to IRQ_DONE by core `n` (R228). -/
def execIrqDone (n : Fin 4) (v : Word) (s : State) : Host.Outcome State Fault Refusal :=
  .next (irqDone s n (fld v 9 0))

/-- A write to IRQ_SWSET: bit b at 1 sets the edge latch of source 1,008 + b (R220). -/
def swSet (s : State) (v : Word) : State :=
  s.gate .irqSwset 0 (·.forN 16 (fun s b => s.when (bitOf v b) (·.irqEdge (1008 + b))))

/-- IRQ_SWSET (R220, R221). -/
def execIrqSwset (v : Word) (s : State) : Host.Outcome State Fault Refusal := .next (swSet s v)

/-- IRQ_SCLR: a write of 1 to IRQ_SDEP.SCLR of core `n` (R231). -/
def execIrqSclr (n : Fin 4) (s : State) : Host.Outcome State Fault Refusal := .next (emptyStack s n)

/-- A write of `v` to IRQ_AEXR[k]: W1C fields, and CLR sets COUNT to 0. -/
def wrIrqAexr (s : State) (k : Nat) (v : Word) : State :=
  s.gate .irqAexr k fun s => (s.wrCodes .irqAexr k 0 v).when (bitOf v 20) (·.wrF .irqAexr k 0 19 12 0)

/-- IRQ_AEXR_CLR: a write to IRQ_AEXR with CLR at 1 (R233). -/
def execIrqAexrClr (k : Fin 64) (v : Word) (s : State) : Host.Outcome State Fault Refusal :=
  .next (wrIrqAexr s k (setBit v 20 true))

end Sys2Proof.Machine
end

