-- ==== Sys2Proof/Machine/MemProt.lean ====
section
/-! DEFINITION. The protected memories (R234–R247): bytes with their check bits, valid bits, corrected and
uncorrectable reads, poison, the scrubber, the valid-bit clear and the checker test. -/

namespace Sys2Proof.Machine

/-- The number of the protected memory that holds a supervisor-view address (R234). -/
def memOf (a : Nat) : Option Nat :=
  if 0x10000000 ≤ a ∧ a < 0x11000000 then some (1024 + (a - 0x10000000) / 0x40000)
  else if 0x11000000 ≤ a ∧ a < 0x12000000 then some ((a - 0x11000000) / 0x4000)
  else if 0x20000000 ≤ a ∧ a < 0x20400000 then some (1088 + (a - 0x20000000) / 0x100000)
  else none

/-- Size of memory `m` in bytes (R234). -/
def memSize (m : Nat) : Nat := if m < 1024 then 0x4000 else if m < 1088 then 0x40000 else 0x100000

/-- What an unlisted byte of data bits is: 0 (log entry 3). -/
def memDef : Nat → Byte := fun _ => 0

/-- The stored data bits of a byte. -/
def State.dataAt (s : State) (a : Nat) : Byte := tget memDef s.mem a

/-- The deviation of a byte's stored check bits from those of its stored data: bits 0–3 are C1, C2, C4, C8 and bit 4
is P (R235). -/
def State.devAt (s : State) (a : Nat) : BitVec 5 := tget (fun _ => 0) s.chk a

/-- Copies of the valid bit of the word that holds byte `a`. -/
def State.vldAt (s : State) (a : Nat) : BitVec 3 := tget (fun _ => 0) s.vld (a / 8)

/-- Majority of three copies (R237). -/
def majority (b : BitVec 3) : Bool :=
  (b.getLsbD 0 && b.getLsbD 1) || (b.getLsbD 0 && b.getLsbD 2) || (b.getLsbD 1 && b.getLsbD 2)

/-- The canonical form of memory: addresses strictly rising, no entry equal to what an unlisted address reads as. -/
def Memory.wf (m : List Host.Cell) : Bool := Tbl.wf memDef 0 m

/-- Check bits of a byte (R235): C1, C2, C4, C8 by Hamming position and P, the parity of the other twelve bits. -/
def checkBits (d : Byte) : BitVec 5 :=
  let x (i : Nat) : Bool := d.getLsbD i
  let c1 := x 0 ^^ x 1 ^^ x 3 ^^ x 4 ^^ x 6
  let c2 := x 0 ^^ x 2 ^^ x 3 ^^ x 5 ^^ x 6
  let c4 := x 1 ^^ x 2 ^^ x 3 ^^ x 7
  let c8 := x 4 ^^ x 5 ^^ x 6 ^^ x 7
  let p := x 0 ^^ x 1 ^^ x 2 ^^ x 3 ^^ x 4 ^^ x 5 ^^ x 6 ^^ x 7 ^^ c1 ^^ c2 ^^ c4 ^^ c8
  BitVec.ofNat 5 (b2n c1 + 2 * b2n c2 + 4 * b2n c4 + 8 * b2n c8 + 16 * b2n p)

/-- How a stored byte reads (R236). -/
inductive ByteClass where
  | clean
  | corrected
  | poison
  | uncorrectable
  deriving DecidableEq, Repr

/-- The data bit at Hamming position `p`, or none for a check bit (R235). -/
def posBit (p : Nat) : Option Nat :=
  match p with
  | 3 => some 0 | 5 => some 1 | 6 => some 2 | 7 => some 3
  | 9 => some 4 | 10 => some 5 | 11 => some 6 | 12 => some 7
  | _ => none

/-- The table of R236: how a byte with deviation `dev` reads, and the data delivered. -/
def decodeByte (d : Byte) (dev : BitVec 5) : ByteClass × Byte :=
  let sy := dev.toNat % 16
  let odd := dev.getLsbD 0 ^^ dev.getLsbD 1 ^^ dev.getLsbD 2 ^^ dev.getLsbD 3 ^^ dev.getLsbD 4
  if sy = 0 then (if odd then .corrected else .clean, d)
  else if !odd then (.uncorrectable, d)
  else if sy = 15 then (.poison, d)
  else if sy ≤ 12 then
    (.corrected, match posBit sy with
      | some i => d ^^^ ((1 : Byte) <<< i)
      | none => d)
  else (.uncorrectable, d)

/-- One byte as a read delivers it, with its poison (R236, R237). -/
def State.byteAt (s : State) (a : Nat) : Byte × Bool :=
  if majority (s.vldAt a) then
    let (c, d) := decodeByte (s.dataAt a) (s.devAt a)
    (d, c == .poison || c == .uncorrectable)
  else (0, false)

/-- How the byte at `a` reads; a byte of an invalid word is clean. -/
def State.classAt (s : State) (a : Nat) : ByteClass :=
  if majority (s.vldAt a) then (decodeByte (s.dataAt a) (s.devAt a)).1 else .clean

/-- `n` bytes from `a`, as a read delivers them. -/
def State.bytesAt (s : State) (a n : Nat) : List (Byte × Bool) := (List.range n).map (fun i => s.byteAt (a + i))

/-- Every valid bit of memory `m` becomes 0 (R238). -/
def clearValid (s : State) (m : Nat) : State :=
  { s with vld := s.vld.filter (fun e => !(memBase m ≤ 8 * e.1 && 8 * e.1 < memBase m + memSize m)) }

/-- The running clear of memory `m`'s valid bits ends (R238). -/
def endVclr (s : State) (m : Nat) : State := if s.bit .memStat m 0 7 then (clearValid s m).clrB .memStat m 0 7 else s

/-- An access at `a` that waits for a running clear of its memory finds the clear ended (R238, log entry 93). -/
def awaitClear (s : State) (a : Nat) : State := match memOf a with | some m => endVclr s m | none => s

/-- The word is offered to the repair slot, which takes it if empty (R239). -/
def toRepair (s : State) (m w : Nat) : State :=
  let x := s.memS m
  s.setMemS m { x with repair := some (x.repair.getD w) }

/-- A correction in word `w` of memory `m` is counted (R239). -/
def countCe (s : State) (m w : Nat) : State :=
  ((s.incF .memEcnt m 0 15 0).wr .memCeaddr m 0 (wd w)).setB .memStat m 0 0

/-- An uncorrectable byte in word `w` of memory `m` is counted and recorded (R240). -/
def countUe (s : State) (m w : Nat) : State :=
  let s := s.incF .memEcnt m 0 23 16
  let s := if s.bit .memStat m 0 8 then s else (s.wr .memUeaddr m 0 (wd w)).setB .memStat m 0 8
  (((s.setB .memStat m 0 1).record 0x0301 0x54 (wd m) (wd w) 0 0)).fault 2

/-- The counts and flags of a read of bytes `a … a + n − 1`, all in one 8-byte word (R239, R240). -/
def noteRead (s : State) (a n : Nat) : State :=
  match memOf a with
  | none => s
  | some m =>
    let w := a / 8 * 8
    let has (c : ByteClass) : Bool := (List.range n).any (fun i => s.classAt (a + i) == c)
    let s1 := s.when (has .corrected) (fun s => toRepair (countCe s m w) m w)
    let s2 := s1.when (has .uncorrectable) (fun s => toRepair (countUe s m w) m w)
    s2.when (has .poison) (fun s => (s.incF .memEcnt m 0 31 24).setB .memStat m 0 2)

/-- A read of `n` bytes at `a`, taken word by word as the memory serves them: the bytes, and the state with its counts
and flags. -/
def readMem (s : State) (a n : Nat) : List (Byte × Bool) × State :=
  let s := awaitClear (awaitClear s a) (a + (n - 1))
  let n1 := Nat.min n (8 - a % 8)
  let s1 := noteRead s a n1
  (s.bytesAt a n, if n1 < n then noteRead s1 (a + n1) (n - n1) else s1)

/-- A read of `n` bytes at `a` word by word, `f` words at most: each word read is counted and flagged (R239, R240). -/
def readWords : Nat → State → Nat → Nat → List (Byte × Bool) × State
  | 0, s, _, _ => ([], s)
  | f + 1, s, a, n =>
    if n = 0 then ([], s)
    else
      let m := Nat.min n (8 - a % 8)
      let (bs, s1) := readMem s a m
      let (r, s2) := readWords f s1 (a + m) (n - m)
      (bs ++ r, s2)

/-- A read of `n` bytes at `a` of any length. -/
def readLong (s : State) (a n : Nat) : List (Byte × Bool) × State := readWords (n / 8 + 2) s a n

/-- A byte of memory with its data and check deviation. -/
def State.putByte (s : State) (a : Nat) (d : Byte) (dev : BitVec 5) : State :=
  { s with mem := tput memDef s.mem a d, chk := tput (fun _ => 0) s.chk a dev }

/-- Byte `a` becomes `b`, clean or stored poison (R235). -/
def State.storeByte (s : State) (a : Nat) (b : Byte × Bool) : State := s.putByte a b.1 (if b.2 then 0x1F else 0)

/-- A write's word: if its valid bit is 0 the eight bytes become zero with correct check bits, and the bit sets
(R237). -/
def State.openWord (s : State) (a : Nat) : State :=
  if majority (s.vldAt a) then s
  else
    let s := s.forN 8 (fun s i => s.putByte (a / 8 * 8 + i) 0 0)
    { s with vld := tput (fun _ => 0) s.vld (a / 8) 7 }

/-- An armed flip acts on a write of `n` bytes at `a` by requester `who` (R245). -/
def flipApply (s : State) (who a n : Nat) : State :=
  match memOf a with
  | none => s
  | some m =>
    let mask := s.rdF .memFlip m 0 12 0
    let b := a / 8 * 8 + s.rdF .memFlip m 0 18 16
    if mask ≠ 0 ∧ a ≤ b ∧ b < a + n ∧ (!s.bit .memFlip m 0 30 || (s.memS m).owner == who) then
      let d := s.dataAt b
      let d' := d ^^^ BitVec.ofNat 8 mask
      let dev := s.devAt b ^^^ checkBits d ^^^ checkBits d' ^^^ BitVec.ofNat 5 (mask / 256)
      let s := s.putByte b d' dev
      ((s.wrF .memFlip m 0 12 0 0).clrB .memFlip m 0 31).setB .memStat m 0 4
    else s

/-- Bytes within one 8-byte word are stored (R235, R237, R245). -/
def putWord (s : State) (who a : Nat) (bs : List (Byte × Bool)) : State :=
  let s := (awaitClear s a).openWord a
  let s := (bs.zipIdx).foldl (fun s p => s.storeByte (a + p.2) p.1) s
  flipApply s who a bs.length

/-- A write of bytes within one 8-byte word, as an access of its memory (R361). -/
def writeWord (s : State) (who a : Nat) (bs : List (Byte × Bool)) : State :=
  putWord (match memOf a with | some m => countRowMem s m who | none => s) who a bs

/-- A write of bytes, word by word. -/
def writeMem (s : State) (who a : Nat) (bs : List (Byte × Bool)) : State :=
  let n1 := 8 - a % 8
  if bs.length ≤ n1 then writeWord s who a bs
  else writeWord (writeWord s who a (bs.take n1)) who (a + n1) (bs.drop n1)

/-- Every valid bit of every memory becomes 0 (R238). -/
def clearAllValid (s : State) : State := { s with vld := [] }

/-- Valid bits of memory `m` are being cleared: accesses to it wait (R238). -/
def clring (s : State) (a : Nat) : Bool :=
  match memOf a with
  | some m => s.bit .memStat m 0 7
  | none => false

/-- One scrub action on the byte at `a` (R241). -/
def scrubByte (s : State) (a : Nat) : State :=
  let (c, d) := decodeByte (s.dataAt a) (s.devAt a)
  match c with
  | .corrected => s.putByte a d 0
  | .uncorrectable => s.putByte a d 0x1F
  | _ => s

/-- The scrubber's work on word `w` of memory `m`; `fresh` at false when it came from the repair slot (R237, R241). -/
def scrubWord (s : State) (m w : Nat) (fresh : Bool) : State :=
  let v := s.vldAt w
  let s := if v = 0 ∨ v = 7 then s
    else (({ s with vld := tput (fun _ => 0) s.vld (w / 8) (if majority v then 7 else 0) } : State)).setB .memStat m 0 5
  if majority v then
    let has (c : ByteClass) : Bool := (List.range 8).any (fun i => s.classAt (w + i) == c)
    let s1 := s.when (fresh && has .corrected) (countCe · m w)
    let s2 := s1.when (fresh && has .uncorrectable) (countUe · m w)
    s2.forN 8 (fun s i => scrubByte s (w + i))
  else s

/-- The ticks that the running lap of memory `m` has lasted (R242). -/
def lapTicks (s : State) (m : Nat) : Nat := (s.steady - (s.memS m).lapStart.getD s.fm.scrubAt).toNat

/-- The walk returns to word 0 (R242). -/
def lapEnd (s : State) (m : Nat) : State :=
  let x := s.memS m
  let us := Nat.min (lapTicks s m / 400) 65535
  let s := s.wrF .memLapt m 0 15 0 us
  let s := s.when (s.rdF .memLapt m 0 31 16 < us) (·.wrF .memLapt m 0 31 16 us)
  s.setMemS m { x with lapStart := some s.steady, lapFlagged := false }

/-- The engine whose memory this is runs a kernel: it is Active, and not Halted by debug (R144, R341). -/
def ceActive (s : State) (m : Nat) : Bool := m < 1024 && (s.core (m / 2)).mode == .active && !(s.core (m / 2)).halted

/-- The memory's port lets the scrubber work: SEN is 1, its engine is not Active, the device is not in Hold (R241). -/
def scrubOk (s : State) (m : Nat) : Bool :=
  s.bit .memCfg m 0 0 && !ceActive s m && s.fm.power != .hold && s.fm.reset == .none
    && !s.bit .memStat m 0 7

/-- SCRUB_STEP (R241, R242). -/
def execScrubStep (m : Fin 1092) (s : State) : Host.Outcome State Fault Refusal :=
  if !scrubOk s m then .next s
  else match (s.memS m).repair with
    | some w => .next (scrubWord (s.setMemS m { s.memS m with repair := none }) m w false)
    | none =>
      let w := s.rdF .memPos m 0 31 0
      let s := scrubWord s m w true
      if w + 8 < memBase m + memSize m then .next (s.wr .memPos m 0 (wd (w + 8)))
      else .next (lapEnd (s.wr .memPos m 0 (wd (memBase m))) m)

/-- SCRUB_LAP_LIMIT (R242): the running lap reaches LAPLIM ms. -/
def execScrubLapLimit (m : Fin 1092) (s : State) : Host.Outcome State Fault Refusal :=
  let x := s.memS m
  let lim := s.rdF .memCfg m 0 10 5
  if lim ≠ 0 ∧ !x.lapFlagged ∧ s.dark = false ∧ 400000 * lim ≤ lapTicks s m then
    .next ((s.setB .memStat m 0 3).setMemS m { x with lapFlagged := true })
  else .next s

/-- VCLR is refused: the memory's engine is Active, or its row is enabled (R238). -/
def vclrRefused (s : State) (m : Nat) : Bool :=
  ceActive s m || (1024 ≤ m && m < 1088 && s.bit .rwCtl (m - 1024) 0 0)

/-- A write to MEM_CFG[m] (R238, R240, R242). -/
def wrMemCfg (s : State) (m : Nat) (v : Word) : State :=
  s.gate .memCfg m fun s =>
    let s := s.wrCodes .memCfg m 0 v
    let s := s.when (bitOf v 11) (·.wrF .memLapt m 0 31 16 0)
    let s := s.when (bitOf v 12) (fun s => (s.wr .memEcnt m 0 0).clrB .memStat m 0 8)
    if bitOf v 13 then
      if vclrRefused s m then s.setB .memStat m 0 6 else s.setB .memStat m 0 7
    else s

/-- MEM_VCLR: a write to MEM_CFG with VCLR at 1 (R238). -/
def execMemVclr (m : Fin 1092) (v : Word) (s : State) : Host.Outcome State Fault Refusal :=
  .next (wrMemCfg s m (setBit v 13 true))

/-- MEM_VCLR_DONE (R238). -/
def execMemVclrDone (m : Fin 1092) (s : State) : Host.Outcome State Fault Refusal :=
  .next (endVclr s m)

/-- MEM_CLRW: a write to MEM_CFG with CLRW at 1 (R242). -/
def execMemClrw (m : Fin 1092) (v : Word) (s : State) : Host.Outcome State Fault Refusal :=
  .next (wrMemCfg s m (setBit v 11 true))

/-- MEM_CLRC: a write to MEM_CFG with CLRC at 1 (R240). -/
def execMemClrc (m : Fin 1092) (v : Word) (s : State) : Host.Outcome State Fault Refusal :=
  .next (wrMemCfg s m (setBit v 12 true))

/-- A write to MEM_FLIP[m] by requester `who` (R245). -/
def wrMemFlip (s : State) (who m : Nat) (v : Word) : State :=
  s.gate .memFlip m fun s =>
    if s.bit .mpCtl 0 0 0 then
      let s := (s.wrCodes .memFlip m 0 v).wrB .memFlip m 0 31 (fld v 12 0 != 0)
      s.setMemS m { s.memS m with owner := who }
    else s

/-- MEM_FLIP_WRITE (R245). -/
def execMemFlipWrite (who : Requester) (m : Fin 1092) (v : Word) (s : State) : Host.Outcome State Fault Refusal :=
  .next (wrMemFlip s (reqNum who) m v)

/-- MP_LOCK: a write of 1 to MP_CTL.LOCK (R247). -/
def execMpLock (v : Word) (s : State) : Host.Outcome State Fault Refusal :=
  .next (s.gate .mpCtl 0 (·.wrCodes .mpCtl 0 0 (setBit v 31 true)))

/-- MP_NEXT[c] as read (R246). -/
def readMpNext (s : State) (c : Nat) : Word :=
  match (List.range 1092).find? (fun m => s.bit .memStat m 0 c && s.bit .memCfg m 0 (c + 1)) with
  | some m => wd m
  | none => 0xFFFF

end Sys2Proof.Machine
end

