-- ==== Sys2Proof/Machine/Cask.lean ====
section
/-! DEFINITION. The Cask (R248–R275): entries and their code, the Vintage Directory, the load engine, sealing, the
cam tables, arming and performing a switch, and Racking. -/

namespace Sys2Proof.Machine

/-! ### Entries and the code -/

/-- How an entry reads (R249). -/
inductive EntryClass where
  | clean
  | single
  | double
  | uncorrectable
  deriving DecidableEq, Repr

/-- Bits in error among the 80 stored bits of an entry. -/
def errCount (e : BitVec 80) : Nat := (List.range 80).countP (fun i => e.getLsbD i)

/-- The table of R249 for an entry last encoded as `d` whose stored bits differ from that by `e`: the reading and the
data delivered. Four or more errors are delivered as the decoder classifies them, which the manual leaves open
(log entry 5). -/
def decodeEntry (d : BitVec 64) (e : BitVec 80) : EntryClass × BitVec 64 :=
  let stored := d ^^^ e.truncate 64
  match errCount e with
  | 0 => (.clean, d)
  | 1 => (.single, d)
  | 2 => (.double, d)
  | 3 => (.uncorrectable, stored)
  | _ => match Config.decTedClass d e with
    | 0 => (.clean, stored)
    | 1 => (.single, Config.decTedData d e)
    | 2 => (.double, Config.decTedData d e)
    | _ => (.uncorrectable, stored)

/-- The words of the directory as they stand in block 0 (R255). -/
def dirWords (s : State) : List Word :=
  (List.range 8).flatMap (fun v => [Reg.ckDir, .ckDirr, .ckDirh, .ckDirnl, .ckDirnh, .ckDirseq].map (s.rd · v 0))

/-- The entry last encoded; an entry never written holds zero (log entry 3). Block 0 holds the directory and the checkpoint
entries, in a form that the manual leaves open (R248, R251, log entry 5). -/
def State.ckData (s : State) (e : Nat) : BitVec 64 :=
  if e < 4096 then Config.block0 (dirWords s) s.cask.checks e else tget (fun _ => 0) s.cask.data e

/-- The bits in error of an entry. -/
def State.ckErr (s : State) (e : Nat) : BitVec 80 := tget (fun _ => 0) s.cask.err e

/-- Entry `e` takes data `d` with the bits `err` in error; a rewrite that waits for this entry is dropped (R253). -/
def State.ckPut (s : State) (e : Nat) (d : BitVec 64) (err : BitVec 80) : State :=
  { s with cask := { s.cask with data := tput (fun _ => 0) s.cask.data e d, err := tput (fun _ => 0) s.cask.err e err,
                                 rewrites := s.cask.rewrites.filter (· != e) } }

/-- The controller's one-deep repair slot takes an entry if it is empty (R250). -/
def State.ckRepair (s : State) (e : Nat) : State :=
  { s with cask := { s.cask with repair := some (s.cask.repair.getD e) } }

/-- A read of entry `e` by a reader of R250: the data with its poison, and the state with the counts, flags and record
of that rule; of block 0 the stored entries (R251). -/
def ckRead (s : State) (e : Nat) : (BitVec 64 × Bool) × State :=
  let (c, d) := decodeEntry (s.ckData e) (s.ckErr e)
  match c with
  | .clean => ((d, false), s)
  | .single | .double => ((d, false), (s.incF .ckEcnt 0 0 15 0).ckRepair e)
  | .uncorrectable =>
    let s := s.incF .ckEcnt 0 0 23 16
    let s := if s.bit .ckUeaddr 0 0 31 then s else s.wr .ckUeaddr 0 0 (wd (e + 2 ^ 31))
    ((d, true), ((s.setB .ckStat 0 0 8).record 0x0303 68 (wd e) 0 0 0).fault 2)

/-- The eight bytes of an entry, each with the entry's poison (R7, R248). -/
def entryBytes (d : BitVec 64) (p : Bool) : List (Byte × Bool) :=
  (List.range 8).map (fun i => (BitVec.ofNat 8 (d.toNat / 2 ^ (8 * i)), p))

/-- Eight bytes as an entry, and whether one of them is poisoned. -/
def bytesEntry (bs : List (Byte × Bool)) : BitVec 64 × Bool :=
  (BitVec.ofNat 64 (bs.foldr (fun b n => b.1.toNat + 256 * n) 0), bs.any (·.2))

/-! ### The Vintage Directory -/

/-- State of slot `v` as the last change gives it: one that still waits for writes to resume, else CK_DIR.STATE. -/
def dirState (s : State) (v : Nat) : Nat :=
  match s.cask.waiting.reverse.find? (fun x => x.1 == v) with
  | some x => x.2.1
  | none => s.rdF .ckDir v 0 2 0

/-- First entry, and the entry after the last, of slot `v`. -/
def slotLo (s : State) (v : Nat) : Nat := 4096 * s.rdF .ckDirr v 0 11 0
def slotHi (s : State) (v : Nat) : Nat := slotLo s v + 4096 * s.rdF .ckDirr v 0 23 12

/-- Entry `e` lies in the range of slot `v`. -/
def inSlot (s : State) (v e : Nat) : Bool := decide (slotLo s v ≤ e) && decide (e < slotHi s v)

/-- A read of entry `e` by the window, CLOAD or the host is a bus error (R251). -/
def confEntry (s : State) (e : Nat) : Bool := anyN 8 (fun v => s.bit .ckDir v 0 3 && inSlot s v e)

/-- The slot that is Active, if any. -/
def activeSlot (s : State) : Option Nat := (List.range 8).find? (fun v => dirState s v == 4)

/-- The mirrors of slot `v` read 0 unless it is Ready or Active. -/
def clearMirrors (s : State) (v : Nat) : State :=
  [Reg.ckDirh, .ckDirnl, .ckDirnh, .ckDirseq].foldl (fun s r => s.wr r v 0 0) s

/-- CK_DIR[v].STATE as it shows (R255): a change that still waits for writes to resume does not. -/
def dirShown (s : State) (v : Nat) : Nat := s.rdF .ckDir v 0 2 0

/-- Bits `[hi:lo]` of an entry. -/
def efld (d : BitVec 64) (hi lo : Nat) : Nat := d.toNat / 2 ^ lo % 2 ^ (hi + 1 - lo)

/-- The data a reader gets from an entry, without the effects of the read. -/
def ckPeek (s : State) (e : Nat) : BitVec 64 := (decodeEntry (s.ckData e) (s.ckErr e)).2

/-- T, FORMAT, the name and the sequence number of the vintage go to slot `v`'s registers (R260). -/
def copyHeader (s : State) (v : Nat) : State :=
  let b := slotLo s v
  let e0 := ckPeek s b
  let e1 := ckPeek s (b + 1)
  let e2 := ckPeek s (b + 2)
  let s := (s.wr .ckDirh v 0 (wd (efld e0 31 0))).wr .ckDirnl v 0 (wd (efld e1 31 0))
  (s.wr .ckDirnh v 0 (wd (efld e1 63 32))).wr .ckDirseq v 0 (wd (efld e2 63 32))

/-- Slot `v` shows a new state and FCAUSE (R255). From Sealing to Ready the header is copied (R260); an Erasing slot starts
with every block of its range to erase; at Empty CONF and the range are 0. -/
def dirShow (s : State) (v st fc : Nat) : State :=
  let sealed := dirShown s v == 2
  let s := (s.wrF .ckDir v 0 2 0 st).wrF .ckDir v 0 18 16 fc
  let s := if st = 3 ∧ sealed then copyHeader s v else if st = 3 ∨ st = 4 then s else clearMirrors s v
  let s := if st = 0 then (s.clrB .ckDir v 0 3).wr .ckDirr v 0 0 else s
  if st = 6 then
    let b := s.rdF .ckDirr v 0 11 0
    let blocks := (List.range (s.rdF .ckDirr v 0 23 12)).map (b + ·)
    { s with cask := { s.cask with erase := tput (fun _ => []) s.cask.erase v blocks } }
  else s

/-- A change of slot `v`, written to block 0 first: while writes are paused it waits (R254). -/
def dirGo (s : State) (v st fc : Nat) : State :=
  if s.bit .ckStat 0 0 6 then { s with cask := { s.cask with waiting := s.cask.waiting ++ [(v, st, fc)] } }
  else dirShow s v st fc

/-- BEGIN's range check (R255). -/
def rangeOk (s : State) (v : Nat) : Bool :=
  let b := s.rdF .ckDirr v 0 11 0
  let n := s.rdF .ckDirr v 0 23 12
  b != 0 && n != 0 && decide (b + n ≤ 4096) &&
    !anyN 8 (fun u => u != v && dirState s u != 0 && decide (slotLo s u < slotHi s v) && decide (slotLo s v < slotHi s u))

/-- Slot `v` is the target of a switch that is Armed or Voted. -/
def armedFor (s : State) (v : Nat) : Bool :=
  (s.rdF .ckSwstat 0 0 2 0 == 1 || s.rdF .ckSwstat 0 0 2 0 == 2) && (s.cask.sw.map (·.1) == some v)

/-- A refused command (R255, R263, R267). -/
def reject (s : State) : State := s.setB .ckStat 0 0 5

/-- Slot `v` is Empty, and shows it. -/
def emptySlot (s : State) (v : Nat) : Bool := dirShown s v == 0 && dirState s v == 0

/-- A write to CK_DIR[v]: CONF while Empty, and the command by the table of R255. -/
def wrCkDir (s : State) (v : Nat) (w : Word) : State :=
  s.gate .ckDir v fun s =>
    let st := dirState s v
    let busy := s.bit .ckStat 0 0 0
    let s := if emptySlot s v then s.wrB .ckDir v 0 3 (bitOf w 3) else s
    match fld w 10 8 with
    | 1 => if emptySlot s v && rangeOk s v then dirGo s v 1 0 else reject s
    | 2 => if st = 1 && !busy then dirGo s v 2 0 else reject s
    | 3 =>
      if (st = 1 && !busy) || (st = 3 && !armedFor s v) || st = 5 then dirGo s v 6 0 else reject s
    | _ => s

/-- A write to CK_DIRR[v], writable only while Empty. -/
def wrCkDirr (s : State) (v : Nat) (w : Word) : State :=
  s.gate .ckDirr v fun s => if emptySlot s v then s.wrCodes .ckDirr v 0 w else s

/-- CK_DIR_BEGIN (R255). -/
def execCkDirBegin (v : Fin 8) (w : Word) (s : State) : Host.Outcome State Fault Refusal :=
  .next (wrCkDir s v (setFld w 10 8 1))

/-- CK_DIR_SEAL (R255, R260). -/
def execCkDirSeal (v : Fin 8) (w : Word) (s : State) : Host.Outcome State Fault Refusal :=
  .next (wrCkDir s v (setFld w 10 8 2))

/-- CK_DIR_ERASE (R255). -/
def execCkDirErase (v : Fin 8) (w : Word) (s : State) : Host.Outcome State Fault Refusal :=
  .next (wrCkDir s v (setFld w 10 8 3))

/-- The reflected CRC-32 step of R176 over one byte. -/
def crcByte (c : Word) (x : Byte) : Word :=
  (List.range 8).foldl (fun c _ => if c.getLsbD 0 then (c >>> 1) ^^^ 0xEDB88320 else c >>> 1) (c ^^^ x.zeroExtend 32)

/-- CRC-32 over the eight bytes of an entry. -/
def crcEntry (c : Word) (d : BitVec 64) : Word := (entryBytes d false).foldl (fun c b => crcByte c b.1) c

/-- Whether an entry reads uncorrectable. -/
def ckBad (s : State) (e : Nat) : Bool := (decodeEntry (s.ckData e) (s.ckErr e)).1 == .uncorrectable

/-- First failing check of SEAL over the range from entry `b` of `l` entries, 0 when all hold (R260). -/
def sealCause (s : State) (b l : Nat) : Nat :=
  let e0 := ckPeek s b
  let t := efld e0 15 0
  let e3 := ckPeek s (b + 3)
  let table (j : Nat) : Bool :=
    let x := ckPeek s (b + 1028 + j)
    let ofs := efld x 23 0
    let lg := efld x 27 24
    2 ≤ lg && 1028 + t ≤ ofs && ofs + 2 ^ lg ≤ l
  if !(efld e0 31 16 == 1 && 1 ≤ t && t ≤ 256 && efld e0 63 32 == l) then 1
  else if !((List.range t).all table && efld e3 31 0 + efld e3 63 32 ≤ l) then 2
  else
    let crc := ~~~((List.range (l - 4)).foldl (fun c i => crcEntry c (ckPeek s (b + 4 + i))) 0xFFFFFFFF)
    if crc.toNat ≠ efld (ckPeek s (b + 2)) 31 0 then 3
    else if (List.range l).any (fun i => ckBad s (b + i)) then 5
    else 0

/-- SEAL_COMPLETE (R260): the whole range has been read; the slot becomes Ready with its header mirrored, or Failed. A SEAL
that waits for writes to resume has not begun (R254), and in Hold and in a reset it stands (R307). -/
def execSealComplete (v : Fin 8) (s : State) : Host.Outcome State Fault Refusal :=
  if dirShown s v ≠ 2 ∨ dirState s v ≠ 2 ∨ s.inRst 68 ∨ s.dark then .next s
  else
    let b := slotLo s v
    let l := slotHi s v - b
    let fc := sealCause s b l
    let s := (List.range l).foldl (fun s i => (ckRead s (b + i)).2) s
    .next (if fc ≠ 0 then dirGo s v 5 fc else dirGo s v 3 0)

/-- Writes are paused, and the write was not in progress when the pause began or has completed (R254): the load engine's, or
the erase of a slot. -/
def loadStopped (s : State) : Bool := s.bit .ckStat 0 0 6 && (s.cask.late || !s.cask.lateLoad)
def eraseStopped (s : State) (v : Nat) : Bool := s.bit .ckStat 0 0 6 && (s.cask.late || v ∉ s.cask.lateErase)

/-- A write completes: during a pause it was the one in progress. -/
def noteWrite (s : State) : State :=
  { s with cask := { s.cask with late := s.cask.late || s.bit .ckStat 0 0 6 } }

/-- Every entry of block `b` becomes zero (R253). -/
def eraseBlock (s : State) (b : Nat) : State :=
  let keep {α : Type} (t : Tbl α) : Tbl α := t.filter (fun e => e.1 / 4096 != b)
  { s with cask := { s.cask with data := keep s.cask.data, err := keep s.cask.err,
                                 rewrites := s.cask.rewrites.filter (· / 4096 != b) } }

/-- ERASE_BLOCK_DONE (R253, R255): one more block of an Erasing slot is zero; after the last the slot is Empty with CONF
and its range 0. In Hold and in a reset the controller stands (R307). -/
def execEraseBlockDone (v : Fin 8) (s : State) : Host.Outcome State Fault Refusal :=
  if dirShown s v ≠ 6 ∨ dirState s v ≠ 6 ∨ eraseStopped s v ∨ s.dark then .next s
  else
    let left := tget (fun _ => []) s.cask.erase v
    let s := noteWrite s
    let s := match left with
      | [] => s
      | b :: rest =>
        let s := eraseBlock s b
        { s with cask := { s.cask with erase := tput (fun _ => []) s.cask.erase v rest } }
    if (left.drop 1).isEmpty then .next (dirGo s v 0 0) else .next s

/-! ### The load engine -/

/-- Addresses `a … a + n − 1` lie wholly in supervisor SRAM or row memory (R257). -/
def loadSrcOk (a n : Nat) : Bool :=
  (decide (0x20000000 ≤ a) && decide (a + n ≤ 0x20400000)) || (decide (0x10000000 ≤ a) && decide (a + n ≤ 0x11000000))

/-- A load is refused or stops, with its LCAUSE (R257). -/
def loadErr (s : State) (c : Nat) : State := ((s.setB .ckStat 0 0 2).wrF .ckStat 0 0 4 3 c).clrB .ckStat 0 0 0

/-- The slot in state Loading that holds entries `d … d + n − 1`. -/
def loadSlot (s : State) (d n : Nat) : Option Nat :=
  (List.range 8).find? (fun v => dirState s v == 1 && decide (slotLo s v ≤ d) && decide (d + n ≤ slotHi s v))

/-- The key a decrypting load uses (R331): zero bits unless the slot holds a class 4 key. -/
def loadKey (s : State) (k : Nat) : BitVec 256 :=
  if tget (fun _ => 0) s.sec.cls k = 4 then tget (fun _ => 0) s.sec.keys k else 0

/-- The engine reads its source, in row memory a request from outside the row (R257, R361). -/
def loadFetch (s : State) (a n : Nat) : List (Byte × Bool) × State :=
  readMem (match memOf a with | some m => countRowMem s m 600 | none => s) a n

/-- COUNT has reached 0 (R257, R258, R335): a decrypting load reads the tag at CK_LDSRC; a tag that fails, a COUNT of the load's head
that differs, or a key that is not class 4 sends the slot to Failed with FCAUSE 4. -/
def loadEnd (s : State) : State :=
  let s1 := (s.setB .ckStat 0 0 1).clrB .ckStat 0 0 0
  match s.cask.gcm with
  | none => s1
  | some (key, iv, aad, ws) =>
    let (tb, s1) := loadFetch s1 (s.rdF .ckLdsrc 0 0 31 0) 16
    let tag := BitVec.ofNat 128 (tb.foldr (fun b n => b.1.toNat + 256 * n) 0)
    let k := s.rdF .ckLdcnt 0 0 29 25
    let ok := tag == Config.gcmTag key iv aad ws && !tb.any (·.2) && tget (fun _ => 0) s.sec.cls k == 4 &&
      aad.toNat / 2 ^ 96 == s.cask.ldTotal
    let s1 : State := { s1 with cask := { s1.cask with gcm := none } }
    if ok then s1
    else match s1.cask.ldSlot with
      | some v => if dirState s1 v = 1 then dirGo s1 v 5 4 else s1
      | none => s1

/-- The engine reads the 16 bytes ahead of a decrypting load (R335), and CK_LDSRC passes it. -/
def loadHead (s : State) : State :=
  let a := s.rdF .ckLdsrc 0 0 31 0
  let (pb, s) := loadFetch s a 16
  let w := pb.foldr (fun b n => b.1.toNat + 256 * n) 0
  let s := s.wr .ckLdsrc 0 0 (wd (a + 16))
  let s : State := { s with cask := { s.cask with
    gcm := some (loadKey s (s.rdF .ckLdcnt 0 0 29 25), BitVec.ofNat 96 w, BitVec.ofNat 128 w, []) } }
  if pb.any (·.2) then (loadErr s 3) else s

/-- A write to CK_LDCNT (R257): ignored while the engine runs; GO starts or is refused. -/
def wrCkLdcnt (s : State) (w : Word) : State :=
  s.gate .ckLdcnt 0 fun s =>
    if s.bit .ckStat 0 0 0 then s
    else
      let s := s.wrCodes .ckLdcnt 0 0 w
      if !bitOf w 31 then s
      else
        let a := s.rdF .ckLdsrc 0 0 31 0
        let n := s.rdF .ckLdcnt 0 0 24 0
        let ken := bitOf w 30
        let d := s.rdF .ckLddst 0 0 23 0
        if a % 8 ≠ 0 then loadErr s 2
        else if !loadSrcOk a (8 * n + (if ken then 32 else 0)) then loadErr s 2
        else if (loadSlot s d n).isNone then loadErr s 1
        else
          let s := s.setB .ckStat 0 0 0
          let s : State := { s with cask := { s.cask with
            ldTotal := n, ldSlot := loadSlot s d n, gcm := none, lateLoad := false } }
          let s := if ken then loadHead s else s
          if s.bit .ckStat 0 0 0 && n == 0 then loadEnd s else s

/-- CK_LOAD_GO: a write to CK_LDCNT with GO at 1 (R257). -/
def execCkLoadGo (w : Word) (s : State) : Host.Outcome State Fault Refusal := .next (wrCkLdcnt s (setBit w 31 true))

/-- Writes to CK_LDSRC and CK_LDDST while the engine runs are ignored (R257). -/
def wrCkLoadAddr (s : State) (r : Reg) (w : Word) : State :=
  s.gate r 0 fun s => if s.bit .ckStat 0 0 0 then s else s.wrCodes r 0 0 w

/-- The masks of an armed flip, over the 80 bits, and the state with them cleared (R272). -/
def takeFlip (s : State) : BitVec 80 × State :=
  if s.bit .ckFlipc 0 0 31 then
    (BitVec.ofNat 80 (s.rdF .ckFlipl 0 0 31 0 + 2 ^ 32 * s.rdF .ckFliph 0 0 31 0 + 2 ^ 64 * s.rdF .ckFlipc 0 0 15 0),
      ((s.wr .ckFlipl 0 0 0).wr .ckFliph 0 0 0).wr .ckFlipc 0 0 0)
  else (0, s)

/-- LOAD_ENTRY_WRITE (R257, R258, R272): the engine writes one entry and its registers advance, or it stops before an
entry with a poisoned source byte. In Hold and in a reset it stands (R307). -/
def execLoadEntryWrite (s : State) : Host.Outcome State Fault Refusal :=
  let n := s.rdF .ckLdcnt 0 0 24 0
  if !s.bit .ckStat 0 0 0 ∨ n = 0 ∨ loadStopped s ∨ s.dark then .next s
  else
    let a := s.rdF .ckLdsrc 0 0 31 0
    let d := s.rdF .ckLddst 0 0 23 0
    let (bs, s) := loadFetch s a 8
    let (x, bad) := bytesEntry bs
    if bad then .next (loadErr s 3)
    else
      let (y, s) : BitVec 64 × State := match s.cask.gcm with
        | none => (x, s)
        | some (key, iv, aad, ws) =>
          (Config.gcmWord key iv ws.length x, { s with cask := { s.cask with gcm := some (key, iv, aad, ws ++ [x]) } })
      let (flip, s) := takeFlip s
      let s := noteWrite (s.ckPut d y flip)
      let s := (s.wr .ckLdsrc 0 0 (wd (a + 8))).wr .ckLddst 0 0 (wd ((d + 1) % 2 ^ 24))
      let s := s.wrF .ckLdcnt 0 0 24 0 (n - 1)
      .next (if n = 1 then loadEnd s else s)

/-- A write to one of the three flip registers (R272): ignored while TEN is 0; a write to CK_FLIPC arms. -/
def wrCkFlip (s : State) (r : Reg) (w : Word) : State :=
  s.gate r 0 fun s =>
    if s.bit .ckCtl 0 0 4 then
      let s := s.wrCodes r 0 0 w
      if r = .ckFlipc then
        s.wrB .ckFlipc 0 0 31 (s.rd .ckFlipl 0 0 != 0 || s.rd .ckFliph 0 0 != 0 || s.rdF .ckFlipc 0 0 15 0 != 0)
      else s
    else s

/-- CK_FLIP_ARM: a write to CK_FLIPC (R272). -/
def execCkFlipArm (w : Word) (s : State) : Host.Outcome State Fault Refusal := .next (wrCkFlip s .ckFlipc w)

/-- A write to CK_CTL: CLRC clears CK_ECNT, RACK_CNT, UEV and V. -/
def wrCkCtl (s : State) (w : Word) : State :=
  s.gate .ckCtl 0 fun s =>
    let s := s.wrCodes .ckCtl 0 0 w
    if bitOf w 5 then
      (((s.wr .ckEcnt 0 0 0).wr .rackCnt 0 0 0).clrB .ckUeaddr 0 0 31).clrB .rackUeaddr 0 0 31
    else s

/-- CK_CLRC: a write to CK_CTL with CLRC at 1 (R250). -/
def execCkClrc (w : Word) (s : State) : Host.Outcome State Fault Refusal := .next (wrCkCtl s (setBit w 5 true))

/-- CK_LOCK: a write to CK_CTL with LOCK at 1 (R9). -/
def execCkLock (w : Word) (s : State) : Host.Outcome State Fault Refusal := .next (wrCkCtl s (setBit w 31 true))

/-! ### The cam follower's tables -/

/-- A rational rounded to the nearest integer, halves upwards. -/
def roundQ (q : Rat) : Int := (q + 1 / 2).floor

/-- Saturation to a signed 32-bit range. -/
def sat32 (x : Int) : Int := max (-2147483648) (min 2147483647 x)

/-- The results of R261 between two points: `p0 s0 p1 s1` signed, `lg` = LOGN, master position and velocity. -/
def hermite (lg : Nat) (cyc p0 s0 p1 s1 : Int) (mpos v : Word) : Word × Word :=
  let sh := 32 - lg
  let i := mpos.toNat / 2 ^ sh
  let u : Rat := ((mpos.toNat % 2 ^ sh : Nat) : Rat) / ((2 ^ sh : Nat) : Rat)
  let one : Rat := 65536
  let p0 : Rat := p0
  let p1 : Rat := if i + 1 = 2 ^ lg then p1 + cyc else p1
  let s0 : Rat := (s0 : Rat) / one
  let s1 : Rat := (s1 : Rat) / one
  let pos := (2 * u * u * u - 3 * u * u + 1) * p0 + (u * u * u - 2 * u * u + u) * s0 + (3 * u * u - 2 * u * u * u) * p1
    + (u * u * u - u * u) * s1
  let der := (6 * u * u - 6 * u) * p0 + (3 * u * u - 4 * u + 1) * s0 + (6 * u - 6 * u * u) * p1 + (3 * u * u - 2 * u) * s1
  (wdi (roundQ pos), wdi (sat32 (roundQ (der * (v.toInt : Rat) / ((2 ^ sh : Nat) : Rat)))))

/-- What the follower delivers: SETP, SETV, CAMERR, and whether the two words are poisoned (R185, R261, R262). -/
structure CamOut where
  setp : Word
  setv : Word
  err : Bool
  poison : Bool
  deriving DecidableEq, Repr

/-- Signed 32-bit field of an entry. -/
def sfld (d : BitVec 64) (lo : Nat) : Int := (BitVec.ofNat 32 (efld d (lo + 31) lo)).toInt

/-- A trigger's cam reads are issued: a slot is Active and holds table `j` (R262). -/
def camReads (s : State) (a : Option Nat) (j : Nat) : Bool := a.any (fun v => decide (j < s.rdF .ckDirh v 0 15 0))

/-- The cam setpoint of table `j` at master position `mpos` and velocity `v` in slot `a` (R261, R262). -/
def camRead (s : State) (a : Option Nat) (j : Nat) (mpos v : Word) : CamOut × State :=
  match a with
  | none => (⟨0, 0, true, false⟩, s)
  | some slot =>
    if s.rdF .ckDirh slot 0 15 0 ≤ j then (⟨0, 0, true, false⟩, s)
    else
      let b := slotLo s slot
      let h := ckPeek s (b + 1028 + j)
      let lg := efld h 27 24
      let p := b + efld h 23 0
      let i := mpos.toNat / 2 ^ (32 - lg)
      let ((x0, e0), s) := ckRead s (p + i)
      let ((x1, e1), s) := ckRead s (p + (i + 1) % 2 ^ lg)
      let (sp, sv) := hermite lg (sfld h 32) (sfld x0 0) (sfld x0 32) (sfld x1 0) (sfld x1 32) mpos v
      (⟨sp, sv, e0 || e1, e0 || e1⟩, s)

/-! ### Arming and performing a switch -/

/-- Cycle number `a` has reached `b`, modulo 2^32. -/
def cycReached (a b : Word) : Bool := (a - b).toNat < 2 ^ 31

/-- No row holds a prefetched block of an armed switch (R186, R263). The block of a switch that is Done stays with the
rows until its first activation. -/
def dropBlocks (s : State) : State :=
  s.forN 64 (fun s k => (s.setRow k { s.row k with nblock := [] }).clrB .rwStat k 0 2)

/-- A switch is declined with reasons `rsn` (R266). -/
def declineSwitch (s : State) (rsn : Nat) : State :=
  let s := s.wrF .ckSwstat 0 0 2 0 4
  let s := s.wrF .ckSwstat 0 0 16 8 (s.rdF .ckSwstat 0 0 16 8 ||| rsn)
  dropBlocks (s.setB .ckSwstat 0 0 18)

/-- An arming of slot `v` for cycle `c` and angle `a` (R263): refused while Armed or Voted; declined at once when the
vote of cycle c − 2 has begun. -/
def armSwitch (s : State) (v : Nat) (c a : Word) : State :=
  let st := s.rdF .ckSwstat 0 0 2 0
  if st = 1 ∨ st = 2 then reject s
  else
    let s := s.wrF .ckSwstat 0 0 16 8 0
    let s : State := { s with cask := { s.cask with sw := some (v, c, a), result := false, tsValid := false } }
    if cycReached s.str.cycle (c - 2) then declineSwitch s 1
    else dropBlocks (((s.wrF .ckSwstat 0 0 2 0 1).wr .ckSwtl 0 0 0).wr .ckSwth 0 0 0)

/-- A disarming (R267). -/
def disarmSwitch (s : State) : State :=
  match s.rdF .ckSwstat 0 0 2 0 with
  | 1 => declineSwitch s 128
  | 2 => reject s
  | _ => s

/-- A write to CK_SWITCH: SLOT, then ARM, then DISARM. -/
def wrCkSwitch (s : State) (w : Word) : State :=
  s.gate .ckSwitch 0 fun s =>
    let s := s.wrCodes .ckSwitch 0 0 w
    let s := if bitOf w 8 then armSwitch s (fld w 2 0) (s.rd .ckSwcyc 0 0) (s.rd .ckSwang 0 0) else s
    if bitOf w 9 then disarmSwitch s else s

/-- CK_SWITCH_ARM: a write to CK_SWITCH with ARM at 1 (R263). -/
def execCkSwitchArm (w : Word) (s : State) : Host.Outcome State Fault Refusal :=
  .next (wrCkSwitch s (setBit w 8 true))

/-- CK_SWITCH_DISARM: a write to CK_SWITCH with DISARM at 1 (R267). -/
def execCkSwitchDisarm (w : Word) (s : State) : Host.Outcome State Fault Refusal :=
  .next (wrCkSwitch s (setBit w 9 true))

/-- PREFETCH_COMPLETE (R186, R263): each row with PBEN at 1 holds its parameter block from the target vintage. -/
def execPrefetchComplete (s : State) : Host.Outcome State Fault Refusal :=
  let st := s.rdF .ckSwstat 0 0 2 0
  match s.cask.sw with
  | none => .next s
  | some (v, _, _) =>
    if !s.dark && (st == 1 || st == 2) then
      .next (s.forN 64 (fun s k =>
        if s.bit .rwCam k 0 9 then
          let b := slotLo s v + 4 + 16 * k
          let (ws, s) := (List.range 16).foldl (fun (acc : List (BitVec 64 × Bool) × State) i =>
            let (x, s) := ckRead acc.2 (b + i)
            (acc.1 ++ [x], s)) ([], s)
          (s.setRow k { s.row k with nblock := ws }).setB .rwStat k 0 2
        else s))
    else .next s

/-- The vote of R264 at the start of cycle C − 2: the reasons against. A slot that is not ready has no T to be judged by. -/
def voteReasons (s : State) (v : Nat) : Nat :=
  let ready := dirShown s v == 3 || dirShown s v == 4
  let t := s.rdF .ckDirh v 0 15 0
  let table := ready && anyN 64 (fun k => s.bit .rwCtl k 0 0 && s.bit .rwCam k 0 0 && decide (t ≤ s.rdF .rwCam k 0 8 1))
  let pref := anyN 64 (fun k => s.bit .rwCam k 0 9 && !s.bit .rwStat k 0 2)
  (if ready then 0 else 2) + (if table then 4 else 0) + (if pref then 8 else 0)

/-- The switch instant t_S of a voted switch is known and reached (R265, R266). -/
def switchDue (s : State) : Bool :=
  s.rdF .ckSwstat 0 0 2 0 == 2 && s.cask.tsValid && !s.dark &&
    decide ((s.rd .ckSwtl 0 0).toNat + 2 ^ 32 * (s.rd .ckSwth 0 0).toNat ≤ s.now.toNat)

/-- A voted switch whose instant is reached takes effect (R266); each row holds the block of the new vintage for its first
activation (R186). -/
def takeSwitch (s : State) : State :=
  match s.cask.sw with
  | none => s
  | some (v, _, _) =>
    if switchDue s then
      let old := activeSlot s
      let s := if old = some v then s
        else match old with
          | some u => dirGo (dirGo s u 3 0) v 4 0
          | none => dirGo s v 4 0
      let s := (s.wrF .ckSwstat 0 0 2 0 3).setB .ckSwstat 0 0 17
      let s : State := { s with cask := { s.cask with sw := none, tsValid := false } }
      s.forN 64 (fun s k => s.setRow k { s.row k with newv := true, pblock := (s.row k).nblock, nblock := [] })
    else s

/-- SWITCH_INSTANT (R266). -/
def execSwitchInstant (s : State) : Host.Outcome State Fault Refusal := .next (takeSwitch s)

/-! ### Racking -/

/-- The checkpoint of R270: each time the walk passes a multiple of 1,048,576, RACK_POS is written to the next of the 256
checkpoint entries of block 0; the write waits while writes are paused. -/
def checkpoint (s : State) : State :=
  let p := s.rdF .rackPos 0 0 23 0
  if s.bit .ckStat 0 0 6 ∨ p / 0x100000 = s.cask.check / 0x100000 then s
  else { s with cask := { s.cask with check := p, checks := tput (fun _ => 2 ^ 24) s.cask.checks s.cask.checkNext p,
                                      checkNext := (s.cask.checkNext + 1) % 256 } }

/-- Racking's rewrite of entry `e` (R253): at once, or when writes resume. -/
def rewriteEntry (s : State) (e : Nat) : State :=
  if s.bit .ckStat 0 0 6 then { s with cask := { s.cask with rewrites := s.cask.rewrites ++ [e] } }
  else
    let (c, d) := decodeEntry (s.ckData e) (s.ckErr e)
    if c = .single ∨ c = .double then s.ckPut e d 0 else s

/-- The walk's action at entry `e` (R269). -/
def rackEntry (s : State) (e : Nat) : State :=
  match (decodeEntry (s.ckData e) (s.ckErr e)).1 with
  | .clean => s
  | .single => (rewriteEntry s e).incF .rackCnt 0 0 15 0
  | .double => (rewriteEntry s e).incF .rackCnt 0 0 23 16
  | .uncorrectable =>
    (((((s.wr .rackUeaddr 0 0 (wd (e + 2 ^ 31))).setB .ckStat 0 0 8).record 0x0304 68 (wd e) 0 0 0)).fault 2).incF
      .rackCnt 0 0 31 24

/-- The walk has returned to entry 0 (R269). -/
def rackLap (s : State) : State :=
  let sec := Nat.min ((s.steady - s.cask.lapStart).toNat / 400000000) 65535
  let s := ((s.wrF .rackLapt 0 0 15 0 sec).incF .rackLapt 0 0 31 16).setB .ckStat 0 0 9
  { s with cask := { s.cask with lapStart := s.steady } }

/-- Racking may take a step: RATE is not 0, no VDD_CASK warning, not in Hold, the controller not in reset. -/
def rackOk (s : State) : Bool :=
  s.rdF .rackRate 0 0 15 0 != 0 && !s.bit .ckStat 0 0 10 && s.fm.power != .hold && s.fm.reset == .none && !s.inRst 68

/-- RACKING_STEP (R268–R270): the repair slot first; else the next entry of the walk, passing slots that are erasing. -/
def execRackingStep (s : State) : Host.Outcome State Fault Refusal :=
  if !rackOk s then .next s
  else match s.cask.repair with
    | some e => .next (rewriteEntry { s with cask := { s.cask with repair := none } } e)
    | none =>
      let e := s.rdF .rackPos 0 0 23 0
      let skip := (List.range 8).find? (fun v => dirState s v == 6 && inSlot s v e)
      let (s, nx) : State × Nat := match skip with
        | some v => (s, slotHi s v)
        | none => (rackEntry s e, e + 1)
      if nx < 2 ^ 24 then .next (checkpoint (s.wr .rackPos 0 0 (wd nx)))
      else .next (checkpoint (rackLap (s.wr .rackPos 0 0 0)))

/-! ### Pauses, reset and power -/

/-- Writes resume (R254): directory changes and rewrites that waited are made in order. -/
def resumeWrites (s : State) : State :=
  let w := s.cask.waiting
  let r := s.cask.rewrites
  let s : State := { s with cask := { s.cask with waiting := [], rewrites := [] } }
  let s := s.clrB .ckStat 0 0 6
  let s := w.foldl (fun s x => dirShow s x.1 x.2.1 x.2.2) s
  checkpoint (r.foldl rewriteEntry s)

/-- Writes pause while `warn`, and Racking's reads while `cask` (R254, R270). -/
def setPause (s : State) (warn cask : Bool) : State :=
  let s := s.wrB .ckStat 0 0 10 cask
  if warn && !s.bit .ckStat 0 0 6 then
    let s := (s.setB .ckStat 0 0 6).setB .ckStat 0 0 7
    { s with cask := { s.cask with
      late := false, lateLoad := s.bit .ckStat 0 0 0 && s.rdF .ckLdcnt 0 0 24 0 != 0,
      lateErase := (List.range 8).filter (fun v => dirShown s v == 6) } }
  else if !warn && s.bit .ckStat 0 0 6 then resumeWrites s
  else s

/-- The load engine stops after the entry in progress; its slot stays in Loading (R273). -/
def stopLoad (s : State) : State :=
  let s : State := { s with cask := { s.cask with gcm := none } }
  s.clrB .ckStat 0 0 0

/-- Every register of the controller but the directory mirrors, RACK_POS and LOCK takes its after-reset value. -/
def caskRegsReset (s : State) : State :=
  let lock := s.bit .ckCtl 0 0 31
  let pause := s.rd .ckStat 0 0 &&& 0x440
  let regs := s.regs.filter (fun e => !(0x6B000000 ≤ e.1 && e.1 < 0x6B000100 && e.1 != 0x6B000084))
  let s : State := { s with regs := regs }
  (s.wr .ckStat 0 0 pause).wrB .ckCtl 0 0 31 lock

/-- A per-function reset of function 68 (R273). -/
def resetCask (s : State) : State :=
  let s := stopLoad s
  let s := s.forN 8 (fun s v => if dirState s v = 2 then dirGo s v 1 0 else s)
  let st := s.rdF .ckSwstat 0 0 2 0
  let s := caskRegsReset s
  let s := if st = 1 ∨ st = 2 then declineSwitch s 256 else s
  { s with cask := { s.cask with sw := none, result := false, tsValid := false, repair := none, lapStart := s.steady } }

/-- DIRECTORY_RESTORE (R256): slots caught in Loading or Sealing are Failed with FCAUSE 6. -/
def restoreDirectory (s : State) : State :=
  s.forN 8 (fun s v => if dirState s v = 1 ∨ dirState s v = 2 then dirShow s v 5 6 else s)

end Sys2Proof.Machine
end

