-- ==== Sys2Proof/Machine/Flags.lean ====
section
/-! DEFINITION. Arithmetic of the Soette set with its AEX bits (R148, R160–R162, R164): each function gives the delivered
word and the bits it sets. -/

namespace Sys2Proof.Machine

/-- The AEX bits DZ, INV, OVF, QSAT (R148). -/
def aexDz : Nat := 1
def aexInv : Nat := 2
def aexOvf : Nat := 4
def aexQsat : Nat := 8

/-- A delivered word and the AEX bits set. -/
structure Res where
  val : Word
  aex : Nat := 0
  deriving DecidableEq, Repr

/-- A word read as signed. -/
def sgn (w : Word) : Int := w.toInt

/-- The low half of a word read as a signed Q15 value. -/
def sgn16 (w : Word) : Int := (w.truncate 16).toInt

/-- sat32 of an exact value, with `bit` set when it changes it (R160). -/
def satRes (v : Int) (bit : Nat) : Res := { val := wdi (sat32 v), aex := if sat32 v = v then 0 else bit }

/-- sat16 (R162). -/
def sat16 (v : Int) : Int := max (-32768) (min 32767 v)

/-- sat16 of an exact value, sign-extended, with `bit` set when it changes it. -/
def satRes16 (v : Int) (bit : Nat) : Res := { val := wdi (sat16 v), aex := if sat16 v = v then 0 else bit }

/-- A shift amount: b[4:0] (R160). -/
def shAmt (b : Word) : Nat := b.toNat % 32

/-- Leading zero bits; 32 for 0. -/
def clz32 (a : Word) : Nat := if a = 0 then 32 else 31 - Nat.log2 a.toNat

/-- A product rounded to nearest with halves upwards: `n` fraction bits leave (R162). -/
def roundProd (p : Int) (n : Nat) : Int := (p + 2 ^ (n - 1)) / 2 ^ n

/-- QMUL and QMULS: `bit` is OVF or QSAT. -/
def qMul (a b : Word) (bit : Nat) : Res := satRes (roundProd (sgn a * sgn b) 31) bit

/-- QMAC and QMACS. -/
def qMac (a b d : Word) (bit : Nat) : Res := satRes (sgn d + roundProd (sgn a * sgn b) 31) bit

/-- HMUL and HMULS. -/
def hMul (a b : Word) (bit : Nat) : Res := satRes16 (roundProd (sgn16 a * sgn16 b) 15) bit

/-- HMAC and HMACS. -/
def hMac (a b d : Word) (bit : Nat) : Res := satRes16 (sgn16 d + roundProd (sgn16 a * sgn16 b) 15) bit

/-- DIV (R148, R164). -/
def sDiv (a b : Word) : Res :=
  if b = 0 then { val := 0x7FFFFFFF, aex := aexDz }
  else if a = 0x80000000 ∧ b = 0xFFFFFFFF then { val := 0x7FFFFFFF, aex := aexOvf }
  else { val := wdi (Int.tdiv (sgn a) (sgn b)) }

/-- DIVU (R148, R164). -/
def uDiv (a b : Word) : Res :=
  if b = 0 then { val := 0xFFFFFFFF, aex := aexDz } else { val := wd (a.toNat / b.toNat) }

/-- The integer square root of `n` from its `k` candidate result bits, the highest first: `r` so far. -/
def isqrtBits (n : Nat) : Nat → Nat → Nat
  | 0, r => r
  | k + 1, r => let t := r + 2 ^ k; isqrtBits n k (if t * t ≤ n then t else r)

/-- ⌊√n⌋ for `n` below 2^(2k). -/
def isqrt (k n : Nat) : Nat := isqrtBits n k 0

end Sys2Proof.Machine
end

