-- ==== Sys2Proof/Machine/Float.lean ====
section
/-! DEFINITION. binary32 (R148, R163, R164): exact values, one rounding to nearest with ties to even, NaN and infinity
rules, conversions. -/

namespace Sys2Proof.Machine

/-- What a binary32 word stands for: a finite value is (−1)^neg × m × 2^e. -/
inductive FVal where
  | fin (neg : Bool) (m : Nat) (e : Int)
  | inf (neg : Bool)
  | qnan
  | snan
  deriving DecidableEq, Repr

/-- Sign, exponent and fraction of a word. -/
def fval (w : Word) : FVal :=
  let neg := bitOf w 31
  let x := fld w 30 23
  let f := fld w 22 0
  if x = 255 then (if f = 0 then .inf neg else if bitOf w 22 then .qnan else .snan)
  else if x = 0 then .fin neg f (-149)
  else .fin neg (f + 2 ^ 23) (x - 150)

/-- Every NaN result. -/
def nanWord : Word := 0x7FC00000

/-- The sign bit. -/
def signBit (neg : Bool) : Nat := if neg then 2 ^ 31 else 0

/-- ±∞ and ±0. -/
def infWord (neg : Bool) : Word := wd (signBit neg + 0x7F800000)
def zeroWord (neg : Bool) : Word := wd (signBit neg)

/-- The nearest binary32 to (−1)^neg × (m + δ) × 2^e, ties to even, with 0 < δ < 1 exactly when `sticky` is set; then m has at
least 26 bits. -/
def roundPack (neg : Bool) (m : Nat) (e : Int) (sticky : Bool) : Word :=
  if m = 0 then zeroWord neg
  else
    let len : Int := Nat.log2 m + 1
    let q : Int := max (e + len - 24) (-149)
    let sig :=
      if q ≤ e then m * 2 ^ (e - q).toNat
      else
        let sh := (q - e).toNat
        let s := m / 2 ^ sh
        let r := m % 2 ^ sh
        let half := 2 ^ (sh - 1)
        if half < r ∨ (r = half ∧ (sticky ∨ s % 2 = 1)) then s + 1 else s
    let (sig, q) := if sig = 2 ^ 24 then (2 ^ 23, q + 1) else (sig, q)
    if sig < 2 ^ 23 then wd (signBit neg + sig)
    else if 104 < q then infWord neg
    else wd (signBit neg + (q + 150).toNat * 2 ^ 23 + (sig - 2 ^ 23))

/-- A signed exact value n × 2^e; an exact zero takes the sign `z`. -/
def roundInt (n : Int) (e : Int) (z : Bool) : Word :=
  if n = 0 then zeroWord z else roundPack (decide (n < 0)) n.natAbs e false

/-- The signed mantissa of a finite value at exponent `e0`, which is not above its own. -/
def atExp (neg : Bool) (m : Nat) (e e0 : Int) : Int := (if neg then -1 else 1) * (m * 2 ^ (e - e0).toNat : Nat)

/-- The invalid result. -/
def invalid : Res := { val := nanWord, aex := aexInv }

/-- The NaN result of operands that hold a NaN: INV for a signalling one (R163). -/
def nanRes (xs : List FVal) : Res := if xs.any (· == .snan) then invalid else { val := nanWord }

/-- An operand is a NaN. -/
def isNan (x : FVal) : Bool := x == .qnan || x == .snan

/-- FADD: an exact zero sum is +0 unless both operands are −0. -/
def fAddV (x y : FVal) : Res :=
  if isNan x || isNan y then nanRes [x, y]
  else match x, y with
    | .inf s, .inf t => if s = t then { val := infWord s } else invalid
    | .inf s, _ => { val := infWord s }
    | _, .inf t => { val := infWord t }
    | .fin s m e, .fin t n f =>
      let e0 := min e f
      { val := roundInt (atExp s m e e0 + atExp t n f e0) e0 (s && t) }
    | _, _ => invalid

/-- The negative of a value. -/
def negV : FVal → FVal
  | .fin s m e => .fin (!s) m e
  | .inf s => .inf (!s)
  | x => x

def fAdd (a b : Word) : Res := fAddV (fval a) (fval b)
def fSub (a b : Word) : Res := fAddV (fval a) (negV (fval b))

/-- The exact product, none for 0 × ∞. -/
def mulV (x y : FVal) : Option FVal :=
  match x, y with
  | .fin s m e, .fin t n f => some (.fin (s != t) (m * n) (e + f))
  | .inf s, .inf t => some (.inf (s != t))
  | .inf s, .fin t n _ => if n = 0 then none else some (.inf (s != t))
  | .fin s m _, .inf t => if m = 0 then none else some (.inf (s != t))
  | _, _ => some .qnan

/-- The word of an exact value. -/
def packV : FVal → Word
  | .fin s m e => if m = 0 then zeroWord s else roundPack s m e false
  | .inf s => infWord s
  | _ => nanWord

/-- FMUL (R148: 0 × ∞ is invalid). -/
def fMul (a b : Word) : Res :=
  let x := fval a
  let y := fval b
  if isNan x || isNan y then nanRes [x, y]
  else match mulV x y with
    | none => invalid
    | some p => { val := packV p }

/-- FMA: d + a × b with one rounding; 0 × ∞ is invalid whatever d holds (R148, R163). -/
def fMa (a b d : Word) : Res :=
  let x := fval a
  let y := fval b
  let z := fval d
  if isNan x || isNan y then nanRes [x, y, z]
  else match mulV x y with
    | none => invalid
    | some p => if isNan z then nanRes [z] else fAddV z p

/-- Order of two values that are no NaN: a key of the sign and size; −0 and +0 are equal. -/
def fLt (x y : FVal) : Bool :=
  match x, y with
  | .fin s m e, .fin t n f => let e0 := min e f; decide (atExp s m e e0 < atExp t n f e0)
  | .inf s, .inf t => s && !t
  | .inf s, .fin _ _ _ => s
  | .fin _ _ _, .inf t => !t
  | _, _ => false

/-- Equality of two values that are no NaN. -/
def fEq (x y : FVal) : Bool := !isNan x && !isNan y && !fLt x y && !fLt y x

/-- INV for a signalling NaN among the operands. -/
def snanBit (x y : FVal) : Nat := if x == .snan || y == .snan then aexInv else 0

/-- FMIN (`big` false) and FMAX. -/
def fMinMax (big : Bool) (a b : Word) : Res :=
  let x := fval a
  let y := fval b
  let inv := snanBit x y
  if isNan x && isNan y then { val := nanWord, aex := inv }
  else if isNan x then { val := b, aex := inv }
  else if isNan y then { val := a, aex := inv }
  else
    let aLess := fLt x y || (fEq x y && bitOf a 31)
    { val := if aLess != big then a else b, aex := inv }

/-- A compare: 0 if either operand is a NaN. -/
def fCmp (rel : FVal → FVal → Bool) (a b : Word) : Res :=
  let x := fval a
  let y := fval b
  { val := wd (b2n (!isNan x && !isNan y && rel x y)), aex := snanBit x y }

def fCeq (a b : Word) : Res := fCmp fEq a b
def fClt (a b : Word) : Res := fCmp fLt a b
def fCle (a b : Word) : Res := fCmp (fun x y => !fLt y x) a b

/-- FITOF, and QTOF with exponent −31. -/
def fItof (a : Word) : Res := { val := roundInt (sgn a) 0 false }
def fQtof (a : Word) : Res := { val := roundInt (sgn a) (-31) false }

/-- FFTOI: truncated towards zero. -/
def fFtoi (a : Word) : Res :=
  let beyond (neg : Bool) : Res := { val := if neg then 0x80000000 else 0x7FFFFFFF, aex := aexInv }
  match fval a with
  | .fin s m e =>
    if 32 < e then (if m = 0 then { val := 0 } else beyond s)
    else
      let n : Nat := if 0 ≤ e then m * 2 ^ e.toNat else m / 2 ^ (-e).toNat
      let v : Int := if s then -(n : Int) else n
      if sat32 v = v then { val := wdi v } else beyond s
  | .inf s => beyond s
  | _ => { val := 0, aex := aexInv }

/-- m × 2^e to the nearest integer, ties to even, for e ≤ 0. -/
def roundEven (m : Nat) (e : Int) : Nat :=
  let sh := (-e).toNat
  if sh = 0 then m
  else
    let q := m / 2 ^ sh
    let r := m % 2 ^ sh
    if 2 ^ (sh - 1) < r ∨ (r = 2 ^ (sh - 1) ∧ q % 2 = 1) then q + 1 else q

/-- FTOQ: round(a × 2^31), saturated. -/
def fToq (a : Word) : Res :=
  match fval a with
  | .fin s m e =>
    let e := e + 31
    let n : Nat := if 0 < e then m * 2 ^ (Nat.min 64 e.toNat) else roundEven m e
    satRes (if s then -(n : Int) else n) aexQsat
  | .inf s => { val := if s then 0x80000000 else 0x7FFFFFFF, aex := aexQsat }
  | _ => { val := 0, aex := aexInv }

/-- FDIV (R148: a finite non-zero value by 0 delivers the largest finite value of the dividend's sign, with DZ). -/
def fDiv (a b : Word) : Res :=
  let x := fval a
  let y := fval b
  if isNan x || isNan y then nanRes [x, y]
  else match x, y with
    | .inf _, .inf _ => invalid
    | .inf s, .fin t _ _ => { val := infWord (s != t) }
    | .fin s _ _, .inf t => { val := zeroWord (s != t) }
    | .fin s m e, .fin t n f =>
      if n = 0 then (if m = 0 then invalid else { val := wd (signBit s + 0x7F7FFFFF), aex := aexDz })
      else if m = 0 then { val := zeroWord (s != t) }
      else { val := roundPack (s != t) (m * 2 ^ 60 / n) (e - f - 60) (m * 2 ^ 60 % n != 0) }
    | _, _ => invalid

/-- RECIP: 1.0 / a (R164). -/
def fRecip (a : Word) : Res := fDiv 0x3F800000 a

/-- FSQRT (R148, R164): √−0 = −0, a value below −0 is invalid. -/
def fSqrt (a : Word) : Res :=
  match fval a with
  | .fin s m e =>
    if m = 0 then { val := zeroWord s }
    else if s then invalid
    else
      let (m, e) := if e % 2 = 0 then (m, e) else (2 * m, e - 1)
      let n := m * 2 ^ 60
      let r := isqrt 44 n
      { val := roundPack false r (e / 2 - 30) (r * r != n) }
  | .inf s => if s then invalid else { val := infWord false }
  | .qnan => { val := nanWord }
  | .snan => invalid

/-- FABS and FNEG (R163) act on bit 31 alone. -/
def fAbs (a : Word) : Res := { val := a &&& 0x7FFFFFFF }
def fNeg (a : Word) : Res := { val := a ^^^ 0x80000000 }

end Sys2Proof.Machine
end

