-- ==== Sys2Proof/Machine/Cordic.lean ====
section
/-! DEFINITION. SIN, COS and ATAN2 (R164): the nearest unit to the true value, moved by the deviation that the part's
iteration gives, which the manual bounds and leaves open (log entry 6). -/

namespace Sys2Proof.Machine

/-- Fraction bits of the fixed-point values below. -/
def fixBits : Nat := 96

/-- 1.0 in fixed point. -/
def fixOne : Int := 2 ^ fixBits

/-- π in fixed point, below by less than 1 unit. -/
def fixPi : Int := 248902613312231085230521944622

/-- The product of two fixed-point values. -/
def fixMul (x y : Int) : Int := x * y / fixOne

/-- The terms of an alternating power series from term `t`: each next term is the last times −x² / (d (d + 1)). -/
def trigSeries (x2 : Int) : Nat → Int → Int → Int
  | 0, _, _ => 0
  | f + 1, d, t => t + trigSeries x2 f (d + 2) (-(fixMul t x2) / (d * (d + 1)))

/-- sin x and cos x for a fixed-point x in [0, π/2). -/
def fixSin (x : Int) : Int := trigSeries (fixMul x x) 20 2 x
def fixCos (x : Int) : Int := trigSeries (fixMul x x) 20 1 fixOne

/-- sin(2π a / 2^32) in fixed point: the quadrant, and the series in it. -/
def fixSinTurn (a : Nat) : Int :=
  let x := fixPi * (a % 2 ^ 30 : Nat) / 2 ^ 31
  match a / 2 ^ 30 % 4 with
  | 0 => fixSin x
  | 1 => fixCos x
  | 2 => -fixSin x
  | _ => -fixCos x

/-- One of the whole numbers within 8 of the value `p / q`, the part's iteration choosing by `d` (R164). -/
def within8 (p q : Int) (d : Fin 17) : Int := min (-((8 * q - p) / q) + d.val) ((p + 8 * q) / q)

/-- A Q31 result within 8 units of the fixed-point value `x`; a true +1.0 is 0x7FFFFFFF (R164). -/
def trigRes (x : Int) (d : Fin 17) : Res :=
  if x = fixOne then { val := 0x7FFFFFFF } else { val := wdi (sat32 (within8 x (2 ^ (fixBits - 31)) d)) }

/-- SIN and COS (R164). -/
def sinRes (a : Word) : Res := trigRes (fixSinTurn a.toNat) (Config.sinDev a)
def cosRes (a : Word) : Res := trigRes (fixSinTurn (a.toNat + 2 ^ 30)) (Config.cosDev a)

/-- The terms of the arctangent series: Σ (−1)^i x^(2i+1) / (2i + 1), `p` the power. -/
def atanSeries (x2 : Int) : Nat → Int → Int → Int
  | 0, _, _ => 0
  | f + 1, d, p => p / d + atanSeries x2 f (d + 2) (-(fixMul p x2))

/-- atan t for t in [0, 1]: halved `h` times by t ↦ t / (1 + √(1 + t²)), then the series. -/
def fixAtan : Nat → Int → Int
  | 0, t => atanSeries (fixMul t t) 24 1 t
  | h + 1, t =>
    let r : Int := isqrt (fixBits + 2) ((fixOne + fixMul t t) * fixOne).toNat
    2 * fixAtan h (t * fixOne / (fixOne + r))

/-- Angle of the point (x, y) ≠ (0, 0), in fixed-point radians from −π to π. -/
def fixAtan2 (y x : Int) : Int :=
  let ax : Int := x.natAbs
  let ay : Int := y.natAbs
  let t := if ay ≤ ax then fixAtan 3 (ay * fixOne / ax) else fixPi / 2 - fixAtan 3 (ax * fixOne / ay)
  let t := if x < 0 then fixPi - t else t
  if y < 0 then -t else t

/-- ATAN2 (R164): a signed fraction of a turn in 2^32 units. -/
def atan2Res (a b : Word) : Res :=
  let y := sgn a
  let x := sgn b
  if y = 0 ∧ x = 0 then { val := 0 }
  else if y = 0 ∧ x < 0 then { val := 0x80000000 }
  else
    { val := wdi (within8 (fixAtan2 y x * 2 ^ 32) (2 * fixPi) (Config.atan2Dev a b)) }

end Sys2Proof.Machine
end

