-- ==== Sys2Proof/Machine/Answer.lean ====
section
/-! DEFINITION. Answers to host commands (R286, R295, R296, R302): what a path keeps, the BULK frame that carries it, and
the buffers of the String block. -/

namespace Sys2Proof.Machine

/-- ST_CTL.HEAD: this device is the head of the ring. -/
def isHead (s : State) : Bool := s.bit .stCtl 0 0 0

/-- ST_CTL.SOLO on a head: a ring of one (R278). -/
def isSolo (s : State) : Bool := isHead s && s.bit .stCtl 0 0 1

/-- ST_ADDR.ADDR and NDEV. -/
def stAddr (s : State) : Nat := s.rdF .stAddr 0 0 7 0
def ndev (s : State) : Nat := s.rdF .stAddr 0 0 15 8

/-- Words as bytes, little-endian (R7). -/
def wordsBytes (ws : List Word) : List Byte :=
  ws.flatMap (fun w => (List.range 4).map (fun i => BitVec.ofNat 8 (w.toNat / 2 ^ (8 * i))))

/-- The CRC-32 of a frame's words, as BCRC computes it, inverted at the end (R282). -/
def frameCrc (ws : List Word) : Word := ~~~((wordsBytes ws).foldl crcByte 0xFFFFFFFF)

/-- The port takes part in loopback (ST_LINK.LOOP). -/
def looping (s : State) (p : Nat) : Bool := s.bit .stLink p 0 1

/-- Word at offset `o` of the block's buffers (R302). -/
def State.buf (s : State) (o : Nat) : Word := tget (fun _ => 0) s.str.bufs o

/-- Words are written to the buffers from offset `o` on. -/
def putBuf (s : State) (o : Nat) (ws : List Word) : State :=
  let b := (ws.zipIdx).foldl (fun b p => tput (fun _ => 0) b (o + 4 * p.2) p.1) s.str.bufs
  { s with str := { s.str with bufs := b } }

/-- BULK entries waiting to be sent, and RX entries held (R302). -/
def takeRx (s : State) (ws : List Word) : State :=
  if 8 ≤ s.str.brUsed then s.incF .stHost 0 0 31 24
  else
    let t := s.rdF .stHost 0 0 18 16
    let s := (putBuf s (0xE000 + 0x400 * t) ws).wrF .stHost 0 0 18 16 ((t + 1) % 8)
    ({ s with str := { s.str with brUsed := s.str.brUsed + 1 } }).msixSig 1

/-- Where a processed frame leaves: SB, or SA where a break at SB loops it back (R279, R292). -/
def outPort (s : State) : Nat := if looping s 0 && !isHead s then 0 else 1

/-- Own frames that port `p` has queued. -/
def queued (s : State) (p : Nat) : List QFrame := s.str.queue.filter (·.port == p)

/-- A frame of the device's own joins the queue of a port; with 8 frames there it waits for a place (R287). -/
def queueFrame (s : State) (p : Nat) (body : List Word) : State :=
  let q : QFrame := { port := p, words := body ++ [frameCrc body] }
  if (queued s p).length < 8 then { s with str := { s.str with queue := s.str.queue ++ [q] } }
  else { s with str := { s.str with qwait := s.str.qwait ++ [q] } }

/-- A response leaves as a BULK frame; while the command still runs, with STATUS 1, nothing is sent (R286, R295). -/
def sendResp (s : State) (r : HostResp) : State :=
  if r.status = 1 then s
  else
    let body := [wd (2 + 2 ^ 8 * 1 + 2 ^ 16 * stAddr s), wd (r.seq.toNat + 2 ^ 16 * r.status), wd r.len,
      wd (stAddr s), 0, 0, 0, 0] ++ r.words
    if isSolo s then takeRx s body else queueFrame s (outPort s) body

/-- The response of a command on a path (R295, R296): kept, and sent as a BULK frame on that path. -/
def respond (s : State) (path : Path) (r : HostResp) : State :=
  match path with
  | .slot => { s with str := { s.str with slotResp := r, slotCmd := [] } }
  | .bulk => sendResp { s with str := { s.str with bulkResp := r, bulkCmd := [] } } r

/-- The answer to a BULK command that ran on while others may have followed it (R353): sent, and kept where that command is
still the path's last. -/
def respondLate (s : State) (r : HostResp) : State :=
  let k := s.str.bulkResp
  let s : State := if k.seq = r.seq ∧ k.cmd = r.cmd then { s with str := { s.str with bulkResp := r } } else s
  sendResp s r

end Sys2Proof.Machine
end

