-- ==== Sys2Proof/Machine/Book.lean ====
section
/-! DEFINITION. The Cellar Book (R345–R356): the queue, records and their repeats, permanent copies, the counters,
banked reads and the signed clear. -/

namespace Sys2Proof.Machine

/-- The circulating record at a place. -/
def State.circ (s : State) (p : Nat) : Rec := tget (fun _ => {}) s.book.circ p

/-- The permanent record at a place. -/
def State.perm (s : State) (p : Nat) : Rec := tget (fun _ => {}) s.book.perm p

/-- PCOUNT, CCOUNT, CHEAD and LASTSEQ. -/
def State.pcount (s : State) : Nat := s.rdF .cbStat 0 0 10 0
def State.ccount (s : State) : Nat := s.rdF .cbStat 0 0 24 12
def State.chead (s : State) : Nat := s.rdF .cbHead 0 0 11 0
def State.lastSeq (s : State) : Nat := s.rdF .cbHead 0 0 31 16

/-- The newest circulating place. -/
def newestPlace (s : State) : Nat := (s.chead + 4095) % 4096

/-- Two records are of one event: CODE, SRC and P0–P3 agree (R348). -/
def sameEvent (a b : Rec) : Bool :=
  a.code == b.code && a.src == b.src && a.p0 == b.p0 && a.p1 == b.p1 && a.p2 == b.p2 && a.p3 == b.p3

/-- The eight words of a record (R346). -/
def recWords (r : Rec) : List Word :=
  [wd (r.code + 2 ^ 16 * r.src + 2 ^ 24 * (16 * r.sev + b2n r.perm)), r.time, r.cycles.zeroExtend 32,
   wd (r.rpt + 2 ^ 16 * r.seq.toNat), r.p0, r.p1, r.p2, r.p3]

/-- The number of entry `j` of a place: the circulating places first, then the permanent ones (R345). -/
def bookEntry (perm : Bool) (p j : Nat) : Nat := 4 * ((if perm then 4096 else 0) + p) + j

/-- The data of entry `j` of a place: bytes 8j to 8j + 7 of its record (R345). -/
def entryData (r : Rec) (j : Nat) : BitVec 64 := (recWords r).getD (2 * j + 1) 0 ++ (recWords r).getD (2 * j) 0

/-- A place whose record `old` is being replaced by `new`, after `k` of the five entry writes of R347: entry 0 as zero, then
entries 3, 2 and 1, then entry 0. With entry 0 zero CODE is 0, "no record". -/
def partWritten (old new : Rec) (k : Nat) : Rec :=
  if k = 0 then old
  else if 5 ≤ k then new
  else
    let e1 := if 4 ≤ k then new else old
    let e2 := if 3 ≤ k then new else old
    let e3 := if 2 ≤ k then new else old
    { cycles := e1.cycles, rpt := e1.rpt, seq := e1.seq, p0 := e2.p0, p1 := e2.p1, p2 := e3.p2, p3 := e3.p3 }

/-- What the entry writes of a place leave of its bit errors: a written entry has none (R249). -/
def partErr (t : Tbl (BitVec 80)) (perm : Bool) (p k : Nat) : Tbl (BitVec 80) :=
  (List.range 4).foldl (fun t j =>
    if k = 0 ∨ (j ≠ 0 ∧ k < 5 - j) then t else tput (fun _ => 0) t (bookEntry perm p j) 0) t

/-- The record that a new record is stored as, with its permanent copy or without (R347, R354); `always` for the cleared
record. -/
def stored (s : State) (r : Rec) (always : Bool) : Rec :=
  { r with seq := BitVec.ofNat 16 (s.lastSeq + 1), rpt := 1,
           perm := (always || !s.book.perm.any (fun e => e.2.code == r.code && e.2.src == r.src)) && decide (s.pcount < 1024) }

/-- The region after `k` of the ten entry writes that store `r`: five at CHEAD, then five at the next free permanent place
where a copy goes there. -/
def regionAfter (s : State) (r : Rec) (k : Nat) : State :=
  let h := s.chead
  let p := s.pcount
  let b := s.book
  let b := { b with circ := tput (fun _ => {}) b.circ h (partWritten (s.circ h) r k), err := partErr b.err false h k }
  let b := if r.perm then
      { b with perm := tput (fun _ => {}) b.perm p (partWritten (s.perm p) r (k - 5)), err := partErr b.err true p (k - 5) }
    else b
  { s with book := b }

/-- Record `r` is written as a new record (R347, R354); `always` for the cleared record. -/
def writeNew (s : State) (r : Rec) (always : Bool) : State :=
  let seq := (s.lastSeq + 1) % 65536
  let h := s.chead
  let p := s.pcount
  let r := stored s r always
  let perm := r.perm
  let s := regionAfter s r 10
  let s : State := { s with book := { s.book with rptPend := tput (fun _ => 0) s.book.rptPend h 0 } }
  let s := (s.wrF .cbHead 0 0 11 0 ((h + 1) % 4096)).wrF .cbHead 0 0 31 16 seq
  let s := s.wrF .cbStat 0 0 24 12 (Nat.min (s.ccount + 1) 4096)
  if perm then (s.wrF .cbStat 0 0 10 0 (p + 1)).wrB .cbStat 0 0 11 (p + 1 == 1024) else s

/-- A record of the queue is written, or counts as a repeat of the newest (R347, R348). -/
def writeRec (s : State) (r : Rec) : State :=
  let n := newestPlace s
  if s.ccount ≠ 0 ∧ sameEvent r (s.circ n) then
    { s with book := { s.book with
        rptPend := tput (fun _ => 0) s.book.rptPend n (tget (fun _ => 0) s.book.rptPend n + 1) } }
  else writeNew s r false

/-- The records-lost record, when the queue has emptied after losses (R350). -/
def recordsLost (s : State) : State :=
  if s.book.queue.isEmpty && s.book.lost != 0 then
    let n := s.book.lost
    let s : State := { s with book := { s.book with lost := 0 } }
    writeRec s { code := 3, src := 74, sev := 1, time := wd s.book.opTime, cycles := s.book.cycles, rpt := 1,
                 p0 := wd n }
  else s

/-- The book may write: writes are not paused, no clear erases, function 74 is not in reset, and the core domain is
powered. -/
def bookOk (s : State) : Bool :=
  !s.bit .ckStat 0 0 6 && !s.book.erasing && !s.inRst 74 && s.fm.power != .hold && s.fm.reset == .none

/-- The first `n` of the four blocks of the circulating area are erased (R352): 1,024 places each. -/
def eraseBlocks (s : State) (n : Nat) : State :=
  { s with book := { s.book with circ := s.book.circ.filter (fun e => 1024 * n ≤ e.1),
                                 err := s.book.err.filter (fun e => 4096 * n ≤ e.1),
                                 rptPend := s.book.rptPend.filter (fun e => 1024 * n ≤ e.1) } }

/-- The counts after the erase, and the cleared record of state `s` before it (R352). -/
def clearCounts (s : State) : State :=
  ((s.wrF .cbStat 0 0 24 12 0).wrF .cbHead 0 0 11 0 0).wr .cbCcnt 0 0 (s.rd .cbCcnt 0 0 + 1)

def clearedRec (s : State) : Rec :=
  { code := 1, src := 74, sev := 1, time := wd s.book.opTime, cycles := s.book.cycles, rpt := 1,
    p0 := s.rd .cbCcnt 0 0 + 1, p1 := wd s.ccount, p2 := wd s.lastSeq, p3 := wd s.book.clrSlot }

/-- Power is lost (R347): the write of the queue's oldest record, also one that stands in a write pause (R350), is cut after a
free number of its entry writes, so its place reads as the old record, as "no record" or as the new one. A clear is cut after
a free number of its erases and entry writes and does not go on (log entry 118). -/
def cutRecord (s : State) : State :=
  if s.fm.reset == .off then s
  else if s.book.erasing then
    let x := s.freeWord.toNat % 16
    let t := eraseBlocks s (Nat.min x 4)
    let t := if 5 ≤ x then
        let t := clearCounts t
        regionAfter t (stored t (clearedRec s) true) (x - 5)
      else t
    { t with book := { t.book with clear := none, erasing := false } }.useFree
  else match s.book.queue with
    | [] => s
    | r :: _ =>
      if s.inRst 74 || s.dark || (s.ccount != 0 && sameEvent r (s.circ (newestPlace s))) then s
      else (regionAfter s (stored s r false) (s.freeWord.toNat % 11)).useFree

/-- At power-on the book finds CHEAD, LASTSEQ and the counts from the places (R347): the newest circulating record is the one
whose next place holds no record or does not continue its SEQ; with the circulating area empty the newest permanent record
gives LASTSEQ. -/
def findHead (s : State) : State :=
  let n := (s.book.circ.filter (fun e => e.2.code != 0)).length
  let pn := (s.book.perm.filter (fun e => e.2.code != 0)).length
  let next (p : Nat) : Rec := s.circ ((p + 1) % 4096)
  let last (e : Nat × Rec) : Bool := e.2.code != 0 && ((next e.1).code == 0 || (next e.1).seq != e.2.seq + 1)
  let (h, q) := match s.book.circ.find? last with
    | some e => ((e.1 + 1) % 4096, e.2.seq.toNat)
    | none => (0, if pn = 0 then 0 else (s.perm (pn - 1)).seq.toNat)
  let s := (s.wrF .cbHead 0 0 11 0 h).wrF .cbHead 0 0 31 16 q
  ((s.wrF .cbStat 0 0 24 12 n).wrF .cbStat 0 0 10 0 pn).wrB .cbStat 0 0 11 (pn == 1024)

/-- CB_RECORD_WRITE (R347, R348, R350). -/
def execCbRecordWrite (s : State) : Host.Outcome State Fault Refusal :=
  if !bookOk s then .next s
  else match s.book.queue with
    | [] => .next (recordsLost s)
    | r :: rest => .next (recordsLost (writeRec { s with book := { s.book with queue := rest } } r))

/-- CB_REPEAT_REWRITE (R348): the merged increases are written; REPEAT saturates. The entry that holds REPEAT, entry 1 of its
place, is written whole, so no bit of it is in error (R249). -/
def execCbRepeatRewrite (s : State) : Host.Outcome State Fault Refusal :=
  if !bookOk s then .next s
  else
    let circ := s.book.rptPend.foldl (fun c e =>
      let r := tget (fun _ => {}) c e.1
      tput (fun _ => {}) c e.1 { r with rpt := Nat.min (r.rpt + e.2) 65535 }) s.book.circ
    let err := s.book.rptPend.foldl (fun t e => tput (fun _ => 0) t (bookEntry false e.1 1) 0) s.book.err
    .next { s with book := { s.book with circ := circ, err := err, rptPend := [] } }

/-- CB_OPERATING_SECOND (R349): the count increases, and is stored every 64 s. -/
def execCbOperatingSecond (s : State) : Host.Outcome State Fault Refusal :=
  if s.fm.reset = .off then .next s
  else
    let t := s.book.opTime + 1
    let st := if s.book.opStored + 64 ≤ t ∧ !s.bit .ckStat 0 0 6 then t else s.book.opStored
    .next { s with book := { s.book with opTime := t, opStored := st } }

/-- Bank of a requester (R351): SV0–SV3, the host over either path, the debug port. -/
def bankOf (who : Nat) : Nat := who - 512

/-- A requester's bank. -/
def State.bank (s : State) (b : Nat) : CbBank := tget (fun _ => {}) s.book.banks b

def State.setBank (s : State) (b : Nat) (x : CbBank) : State :=
  { s with book := { s.book with banks := tput (fun _ => {}) s.book.banks b x } }

/-- A write to CB_READ starts a read of one place for the requester (R351). -/
def wrCbRead (s : State) (who : Nat) (v : Word) : State :=
  s.gate .cbRead 0 fun s => s.setBank (bankOf who) { sel := v &&& 0x3FFF, started := true }

/-- The place a selection names (R351): the area, true for the permanent one, and the number; none where it reads as "no
record". -/
def selected (s : State) (sel : Word) : Option (Bool × Nat) :=
  let i := fld sel 11 0
  let rel := bitOf sel 13
  if bitOf sel 12 then
    if s.pcount ≤ i then none else some (true, if rel then s.pcount - 1 - i else i)
  else
    if s.ccount ≤ i then none else some (false, if rel then (s.chead + 8192 - 1 - i) % 4096 else i)

/-- The words of the selected place as its entries decode, each with its poison: an uncorrectable entry poisons its two
words (R345, R351, R249); no place and a place without a record read as 32 zero bytes (R346). -/
def placeWords (s : State) (sel : Word) : List (Word × Bool) :=
  match selected s sel with
  | none => List.replicate 8 (0, false)
  | some (perm, p) =>
    let r := if perm then s.perm p else s.circ p
    if r.code = 0 then List.replicate 8 (0, false)
    else (List.range 4).flatMap (fun j =>
      let (c, d) := decodeEntry (entryData r j) (tget (fun _ => 0) s.book.err (bookEntry perm p j))
      let bad := c == .uncorrectable
      [(d.truncate 32, bad), ((d >>> 32).truncate 32, bad)])

/-- CB_READ_READY (R351): the read that the requester has started ends. An engine has no bank. -/
def execCbReadReady (who : Requester) (s : State) : Host.Outcome State Fault Refusal :=
  let b := bankOf (reqNum who)
  let x := s.bank b
  if decide (reqNum who < 512) || s.inRst 74 || !x.started then .next s
  else .next (s.setBank b { x with started := false, ready := true, words := placeWords s x.sel })

/-- A host's CBCLEAR is answered, whatever BULK commands have followed it (R353). -/
def clearAnswer (s : State) (asker : Option (BitVec 16)) (status : Nat) (ws : List Word) : State :=
  match asker with
  | none => s
  | some q => respondLate s { seq := q, valid := true, cmd := 11, status := status, len := 4 * ws.length, words := ws }

/-- A clear is refused with reason `n` (R353). -/
def refuseClear (s : State) (asker : Option (BitVec 16)) (n : Nat) : State :=
  let s := ((s.setB .cbStat 0 0 27).wrF .cbStat 0 0 29 28 n).record 0x0002 74 (wd n) (s.rd .cbCcnt 0 0) 0 0
  clearAnswer s asker 5 [wd n]

/-- A clear is requested with the 32 words `ws` (R352, R353). -/
def requestClear (s : State) (asker : Option (BitVec 16)) (ws : List Word) : State :=
  if s.book.clear.isSome then refuseClear s asker 2
  else { s with book := { s.book with clear := some (asker, ws) } }.setB .cbStat 0 0 25

/-- A write to CB_CLEAR: GO verifies CB_CSIG and clears; every GO clears CB_CSIG. -/
def wrCbClear (s : State) (v : Word) : State :=
  s.gate .cbClear 0 fun s =>
    if bitOf v 0 then
      let ws := (List.range 32).map (tget (fun _ => 0) s.book.csig)
      let s := requestClear s none ws
      { s with book := { s.book with csig := [] } }
    else s

/-- A write to CB_CSIG[w]. -/
def wrCbCsig (s : State) (w : Nat) (v : Word) : State :=
  s.gate .cbCsig 0 fun s => { s with book := { s.book with csig := tput (fun _ => 0) s.book.csig w v } }

/-- Eight words as a 256-bit value, word 0 least significant. -/
def words256 (ws : List Word) : BitVec 256 :=
  BitVec.ofNat 256 ((ws.take 8).foldr (fun w n => w.toNat + 2 ^ 32 * n) 0)

/-- The slot of class `c` that holds the SHA-256 digest of a public key (R329). -/
def keySlot (s : State) (c : Nat) (key : List Word) : Option Nat :=
  let d := Config.sha256 (wordsBytes key)
  (List.range 32).find? (fun k => tget (fun _ => 0) s.sec.cls k == c && tget (fun _ => 0) s.sec.keys k == d)

/-- The signature of 32 words x, y, r, s over a message verifies. -/
def sigOk (ws : List Word) (msg : List Byte) : Bool :=
  Config.ecdsaP256 (words256 ws) (words256 (ws.drop 8)) (words256 (ws.drop 16)) (words256 (ws.drop 24)) (Config.sha256 msg)

/-- The device serial as two words. -/
def serialWords : List Word := [Config.serial.truncate 32, (Config.serial >>> 32).truncate 32]

/-- CB_CLEAR_VERIFIED (R352, R353). -/
def execCbClearVerified (s : State) : Host.Outcome State Fault Refusal :=
  match s.book.clear with
  | none => .next s
  | some (asker, ws) =>
    if s.book.erasing then .next s
    else
      match keySlot s 3 (ws.take 16) with
      | some k =>
        if sigOk ws (wordsBytes ([0x4C434243] ++ serialWords ++ [s.rd .cbCcnt 0 0])) then
          .next { s with book := { s.book with erasing := true, clrSlot := k } }
        else .next (refuseClear ({ s with book := { s.book with clear := none } }.clrB .cbStat 0 0 25) asker 1)
      | none => .next (refuseClear ({ s with book := { s.book with clear := none } }.clrB .cbStat 0 0 25) asker 1)

/-- CB_CLEAR_DONE (R352): the circulating area is erased, the counts change, the cleared record is written and CDONE is
set; not while writes pause, in a reset of the book or of the device, in Off or in Hold. -/
def execCbClearDone (s : State) : Host.Outcome State Fault Refusal :=
  match s.book.clear with
  | none => .next s
  | some (asker, _) =>
    if !s.book.erasing || s.bit .ckStat 0 0 6 || s.inRst 74 || s.dark then .next s
    else
      let r := clearedRec s
      let s := clearCounts (eraseBlocks s 4)
      let s := writeNew { s with book := { s.book with clear := none, erasing := false } } r true
      let s := (s.setB .cbStat 0 0 26).clrB .cbStat 0 0 25
      .next (clearAnswer s asker 0 [])

/-- A reset of the book (R322): flags, banks and CB_CSIG take their after-reset values; what the region holds stays, and
an erase that has begun goes on when the reset ends (log entry 118). -/
def resetBook (s : State) : State :=
  let keep := s.rd .cbStat 0 0 &&& 0x1FFFFFF
  let b := s.book
  let s : State := { s with book := { b with banks := [], csig := [], clear := if b.erasing then b.clear else none } }
  s.wr .cbStat 0 0 keep

end Sys2Proof.Machine
end

