-- ==== Sys2Proof/Machine/Events.lean ====
section
/-! DEFINITION. Events of the timing domain that another unit selects (R53, R100): a capture channel notes the tick, and a
converter the trigger, in the step of the event; GT_CAPTURE and AD_TRIGGER then act on what was noted. -/

namespace Sys2Proof.Machine

/-- The events that a capture channel or a converter can select (R53, AD_TRIG). -/
inductive Event where
  | lane (n : Nat)
  | index (p : Nat)
  | trip (j : Nat) (rising : Bool)
  | wake (rising : Bool)
  | cycle
  /-- Compare match of channel `i % 4` of timer `i / 4`. -/
  | compare (i : Nat)
  | wrap (t : Nat)
  deriving DecidableEq, Repr

/-- GT_CCFG.CEDGE selects an edge: 0 rising, 1 falling, 2 and 3 both (R53). -/
def edgeSel (s : State) (t c : Nat) (rising : Bool) : Bool :=
  match s.rdF .gtCcfg t c 17 16 with | 0 => rising | 1 => !rising | _ => true

/-- Capture channel `c` of timer `t` selects the event (R53). An index beyond its range is no event's number. -/
def capSelects (s : State) (t c : Nat) (e : Event) : Bool :=
  let src := s.rdF .gtCcfg t c 7 2
  let i := s.rdF .gtCcfg t c 15 8
  s.rdF .gtCcfg t c 1 0 == 2 && match e with
    | .lane n => src == 1 && i == n
    | .index p => src == 2 && i == p
    | .trip j r => src == 3 && i == j && edgeSel s t c r
    | .wake r => src == 4 && edgeSel s t c r
    | .cycle => src == 5
    | .compare k => src == 6 && i == k && k / 4 != t
    | .wrap u => src == 7 && i == u && u != t

/-- The time a capture of the event records: a pin's edge less the fixed input delay of 3 ticks (R53). -/
def capTime (s : State) (e : Event) : BitVec 64 :=
  match e with
  | .trip _ _ | .wake _ => s.now - 3
  | _ => s.now

/-- Converter `k` accepts triggers and AD_TRIG selects the event (R100). -/
def adSelects (s : State) (k : Nat) (e : Event) : Bool :=
  let src := s.rdF .adTrig k 0 2 0
  let i := s.rdF .adTrig k 0 15 8
  s.bit .adCtl k 0 0 && match e with
  | .lane n => src == 1 && i == n
  | .compare c => src == 2 && i == c
  | .wrap t => src == 3 && i == t
  | .cycle => src == 4
  | _ => false

/-- Capture channels note the event's time while ticks run (R41, R53). -/
def capNote (s : State) (e : Event) : State :=
  s.forN 64 (fun s i =>
    if capSelects s (i / 4) (i % 4) e then
      let ch := s.chan (i / 4) (i % 4)
      s.setChan (i / 4) (i % 4) { ch with due := ch.due ++ [capTime s e] }
    else s)

/-- Converters note the tick of a trigger; triggers of one tick count as one (R100). -/
def adNote (s : State) (e : Event) : State :=
  s.forN 16 (fun s k =>
    if adSelects s k e && !(s.ad k).due.contains s.tb.ticks then
      s.setAd k { s.ad k with due := (s.ad k).due ++ [s.tb.ticks] }
    else s)

/-- An event of the timing domain: every unit that selects it notes it. -/
def State.event (s : State) (e : Event) : State := if s.timeOk then adNote (capNote s e) e else s

end Sys2Proof.Machine
end

