-- ==== Sys2Proof/Machine/Mute.lean ====
section
/-! DEFINITION. The output stage of the lanes (R22, R80–R84, R113), the Mute network (R107–R115), the guard
comparators (R102–R105) and safe torque off (R116–R118). -/

namespace Sys2Proof.Machine

/-! ### The output stage -/

/-- The first lane of lane `n`'s trio, where the trio-wide fields live (R57). -/
def first (n : Nat) : Nat := n / 3 * 3

/-- The trio's LN_CTL.RUN (R60). -/
def State.running (s : State) (t : Nat) : Bool := s.bit .lnCtl (3 * t) 0 18

/-- Rank 1 of R22: the STO latch (R116), a reset, or Hold, from its entry on (R309), releases every lane pin. -/
def rankOne (s : State) : Bool :=
  s.bit .muSto 0 0 2 || s.fm.reset != .none || s.fm.power == .enteringHold || s.fm.power == .hold

/-- Rank 1 of R22, and EN at 0 (R84): both pins are high-impedance. Low-frequency time releases lanes too (R41). -/
def released (s : State) (n : Nat) : Bool := !s.bit .lnCtl n 0 0 || rankOne s || s.bit .tbStat 0 0 1

/-- Rank 2 of R22: a subscribed line trips the lane, or its row is in reset (R194). -/
def safed (s : State) (n : Nat) : Bool := (s.lane n).trips != 0 || !(s.lane n).rowRst.isEmpty

def pinOf (b : Bool) : Pin := if b then .on else .off

/-- The safe state of R113. -/
def safePins (s : State) (n : Nat) : Pin × Pin :=
  let pair := s.bit .lnCtl n 0 1
  let l := s.lane n
  match s.rdF .muSafe n 0 1 0 with
  | 0 => (.off, if pair then .off else .z)
  | 1 => (.off, if pair then .on else .z)
  | 2 => (.z, .z)
  | _ => (l.heldH, l.heldL)

/-- Stages 4 and 5 of R80: the switch commands, exchanged by SWAP on a complementary lane. A lane that does not drive
yet (R84), or whose trio is stopped (R60), commands both switches off. -/
def stage5 (s : State) (n : Nat) : Pin × Pin :=
  let l := s.lane n
  let live := l.driving && s.running (n / 3)
  let h := pinOf (live && l.hOn)
  if !s.bit .lnCtl n 0 1 then (h, .z)
  else
    let lo := pinOf (live && l.lOn)
    if l.swap then (lo, h) else (h, lo)

/-- Stage 6: the table of R81. -/
def forced (pair : Bool) (fh fl : Nat) (p : Pin × Pin) : Pin × Pin :=
  if !pair then
    (match fh with | 0 => p.1 | 1 => .off | 2 => .on | _ => .z, .z)
  else match fh, fl with
    | 0, 0 => p
    | 0, 1 => (p.1, .off)
    | 0, 2 => (.off, .on)
    | 0, _ => (p.1, .z)
    | 1, 0 => (.off, p.2)
    | 1, 1 => (.off, .off)
    | 1, 2 => (.off, .on)
    | 1, _ => (.off, .z)
    | 2, 0 => (.on, .off)
    | 2, 1 => (.on, .off)
    | 2, 2 => (.off, .off)
    | 2, _ => (.on, .z)
    | _, 0 => (.z, p.2)
    | _, 1 => (.z, .off)
    | _, 2 => (.z, .on)
    | _, _ => (.z, .z)

/-- What the lane's pins are asked to show: the highest active rank of R22. -/
def demand (s : State) (n : Nat) : Pin × Pin :=
  if released s n then (.z, .z)
  else if safed s n then safePins s n
  else forced (s.bit .lnCtl n 0 1) (s.rdF .lnOvr n 0 5 4) (s.rdF .lnOvr n 0 7 6) (stage5 s n)

/-- Active dead times in fine steps; a one-switch lane has none (R67). -/
def dtr (s : State) (n : Nat) : Nat := if s.bit .lnCtl n 0 1 then fld (s.lane n).dtr 17 0 else 0
def dtf (s : State) (n : Nat) : Nat := if s.bit .lnCtl n 0 1 then fld (s.lane n).dtf 17 0 else 0

/-- A pin that went off at `o` has been off for the dead time `d` in the tick that ends at `e`. -/
def rested (o : Option Int) (d : Nat) (e : Int) : Bool :=
  match o with
  | none => true
  | some x => decide (x + d < e)

/-- One lane's pins move towards a demand at time `at'` of the tick that ends at `e` (R81, R113): a pin turns off or releases at
once; it turns on only while the other pin is not on and has been off for the dead time, `dr` before LnH and `df` before
LnL. -/
def drive (dr df : Nat) (at' e : Int) (l : LaneS) (d : Pin × Pin) : LaneS :=
  let h1 : Pin := if d.1 = .on ∧ l.outH ≠ .on then .off else d.1
  let l1 : Pin := if d.2 = .on ∧ l.outL ≠ .on then .off else d.2
  let oH := if l.outH = .on ∧ h1 ≠ .on then some at' else l.offH
  let oL := if l.outL = .on ∧ l1 ≠ .on then some at' else l.offL
  let h2 : Pin := if d.1 = .on ∧ l1 ≠ .on ∧ rested oL dr e then .on else h1
  let l2 : Pin := if d.2 = .on ∧ h2 ≠ .on ∧ rested oH df e then .on else l1
  { l with outH := h2, outL := l2, offH := if h2 = .on then none else oH, offL := if l2 = .on then none else oL }

/-- Lane `n`'s pins and the state bits [19:16] of LN_STAT follow the lane's present state at time `at'`, in fine steps of
`TbS.ticks`. -/
def settleAt (s : State) (n : Nat) (at' : Int) : State :=
  let s := s.setLane n (drive (dtr s n) (dtf s n) at' (64 * ((s.tb.ticks : Int) + 1)) (s.lane n) (demand s n))
  let l := s.lane n
  let z := l.outH == .z && l.outL == .z
  s.wrF .lnStat n 0 19 16 (b2n z + 2 * b2n (l.trips != 0) + 4 * b2n (s.rdF .lnOvr n 0 7 4 != 0) + 8 * b2n l.driving)

/-- The time at which the running tick begins, in fine steps of `TbS.ticks`. -/
def tickFine (s : State) : Int := 64 * (s.tb.ticks : Int)

/-- The pins follow at the tick's own boundary. -/
def settle (s : State) (n : Nat) : State := settleAt s n (tickFine s)

/-- The dead time before a switch turns on counts from this tick for every pin that is off (R83, R194). -/
def restFrom (s : State) (l : LaneS) : LaneS :=
  { l with offH := if l.outH = .on then none else some (tickFine s), offL := if l.outL = .on then none else some (tickFine s) }

/-- Every lane's pins follow. -/
def settleAll (s : State) : State := s.forN 192 settle

/-- The level of a pin under its polarity (R80 stage 7): none when high-impedance. -/
def pinLevel (p : Pin) (pol : Bool) : Option Bool :=
  match p with | .z => none | .on => some (!pol) | .off => some pol

/-- The levels at pins LnH and LnL (R80 stage 7): LN_CTL.POLH and POLL act on what the pins show. EXTEST drives them only
while STOA and STOB are both high and nothing else of rank 1 releases them (R338, R22, R116). -/
def lanePins (s : State) (n : Nat) : Option Bool × Option Bool :=
  let h := pinLevel (s.lane n).outH (s.bit .lnCtl n 0 2)
  let l := pinLevel (s.lane n).outL (s.bit .lnCtl n 0 3)
  if s.fm.stoA && s.fm.stoB && !rankOne s then (s.atPin (2 * n) h, s.atPin (2 * n + 1) l) else (h, l)

/-! ### Lines, trips and sources -/

/-- Source `k` feeds line `l` (R108). -/
def routed (s : State) (k l : Nat) : Bool := s.bit .muRoute k (l / 32) (l % 32)

/-- Some source routed to line `l` is asserted. -/
def lineActive (s : State) (l : Nat) : Bool := s.srcs.any (fun e => e.2 && routed s e.1 l)

/-- The set of lines that satisfy `p`. -/
def lineSet (p : Nat → Bool) : BitVec 96 :=
  (List.range 96).foldl (fun b l => if p l then b ||| ((1 : BitVec 96) <<< l) else b) 0

/-- Lines of level, cycle-by-cycle and latching mode (R109). -/
def levelLines (s : State) : BitVec 96 := lineSet (fun l => s.rdF .muLine l 0 1 0 == 0)
def cycleLines (s : State) : BitVec 96 := lineSet (fun l => s.rdF .muLine l 0 1 0 == 1)
def activeLines (s : State) : BitVec 96 := lineSet (fun l => s.bit .muLstat l 0 0)
def latchedLines (s : State) : BitVec 96 := lineSet (fun l => s.bit .muLstat l 0 1)

/-- The lines lane `n` subscribes to. -/
def subs (s : State) (n : Nat) : BitVec 96 :=
  ((s.rd .muMask n 2) ++ (s.rd .muMask n 1) ++ (s.rd .muMask n 0) : BitVec 96)

/-- Lane `n`'s trips become `new` (R83, R113, R76): at the beginning of a trip LN_OWED is cleared and the shown state
is kept for SAFE 3; at its end a dead time runs before any switch turns on; the pins follow. -/
def setTrips (s : State) (n : Nat) (new : BitVec 96) : State :=
  let l := s.lane n
  if l.trips = new then s
  else
    let s := if l.trips = 0 then (s.setLane n { l with trips := new, heldH := l.outH, heldL := l.outL }).wr .lnOwed n 0 0
             else s.setLane n (if new = 0 then restFrom s { l with trips := new } else { l with trips := new })
    settle s n

/-- The lines that trip a lane, from its subscriptions `sub`, the line sets and the trips `old` it had (R108–R110):
a level line while a routed source is asserted; a cycle-by-cycle line also until the boundary; a latching line while
latched, and after a release with RELAT 1 until the boundary. While the trio is stopped nothing is kept to a
boundary. -/
def tripSet (sub lv cy act lat old : BitVec 96) (run : Bool) : BitVec 96 :=
  let keep := if run then old else 0
  sub &&& ((lv &&& act) ||| (cy &&& (act ||| keep)) ||| (~~~(lv ||| cy) &&& (lat ||| keep)))

/-- Recompute every lane's trips. `keepOld` at false drops what was only kept to a boundary. -/
def retrip (s : State) : State :=
  let lv := levelLines s
  let cy := cycleLines s
  let act := activeLines s
  let lat := latchedLines s
  s.forN 192 (fun s n =>
    setTrips s n (tripSet (subs s n) lv cy act lat (s.lane n).trips (s.running (n / 3))))

/-- At a period boundary of trio `t` (or when its RUN goes to 0) nothing is kept any longer (R109, R110). -/
def boundaryTrips (s : State) (t : Nat) : State :=
  let lv := levelLines s
  let cy := cycleLines s
  let act := activeLines s
  let lat := latchedLines s
  s.forN 3 (fun s j => setTrips s (3 * t + j) (tripSet (subs s (3 * t + j)) lv cy act lat 0 false))

/-- A source begins to feed line `l` while asserted, or asserts while it feeds it (R109, R111): the first of an
episode sets TRIPF and FIRST and, on a latching line, writes a record; a latching line latches. -/
def assertOn (s : State) (l k : Nat) : State :=
  let latching := 2 ≤ s.rdF .muLine l 0 1 0
  let s := if !s.bit .muLstat l 0 0 && !s.bit .muLstat l 0 1 then
      ((((s.setB .muLstat l 0 2).wrF .muLstat l 0 12 4 k).setB .muLstat l 0 13)).when latching
        (·.record 0x0401 0x51 (wd l) (wd k) 0 0)
    else s
  (s.setB .muLstat l 0 0).when latching (·.setB .muLstat l 0 1)

/-- The status bits that mirror source `k`: GC_STAT for comparators, SD_STAT.CASSERT, MU_TRIPCFG.ACT and
RW_STAT.FSRC. -/
def mirror (s : State) (k : Nat) (b : Bool) : State :=
  if k < 128 then
    (s.wrB .gcStat (k / 2) 0 (k % 2) b).when b (·.setB .gcStat (k / 2) 0 (2 + k % 2))
  else if k < 320 then s.wrB .sdStat (k - 128) 0 14 b
  else if k < 336 then s.wrB .muTripcfg (k - 320) 0 3 b
  else if k < 400 then s.wrB .rwStat (k - 336) 0 3 b
  else s

/-- Sources change without the trips being recomputed: used for several in one tick. -/
def srcEdge (s : State) (k : Nat) (b : Bool) : State :=
  if s.src k = b then s
  else
    let s := mirror (s.setSrc k b) k b
    s.forN 96 (fun s l =>
      if routed s k l then
        if b then assertOn s l k else s.wrB .muLstat l 0 0 (lineActive s l)
      else s)

/-- Source `k` asserts or deasserts (R109). -/
def setSource (s : State) (k : Nat) (b : Bool) : State :=
  if s.src k = b then s else
    let s1 := srcEdge s k b
    let s2 := s1.when (336 ≤ k && k < 400 && b) (·.fault 5)
    retrip s2

/-- Several sources change in one tick: those that assert act first, the lowest number first (R111). -/
def setSources (s : State) (l : List (Nat × Bool)) : State :=
  let s := (l.filter (·.2)).foldl (fun s e => srcEdge s e.1 true) s
  retrip ((l.filter (!·.2)).foldl (fun s e => srcEdge s e.1 false) s)

/-- MUTE_SOURCE_ASSERT (R109). Without its core domain the network has no sources (R307). -/
def execMuteSourceAssert (k : Fin 416) (s : State) : Host.Outcome State Fault Refusal :=
  .next (if s.dark then s else setSource s k true)

/-- MUTE_SOURCE_DEASSERT (R109). -/
def execMuteSourceDeassert (k : Fin 416) (s : State) : Host.Outcome State Fault Refusal :=
  .next (if s.dark then s else setSource s k false)

/-- A write to MU_ROUTE[k,w] (R108): each line added or removed acts as if the source asserted or deasserted on it. -/
def wrMuRoute (s : State) (k w : Nat) (v : Word) : State :=
  s.gate .muRoute k fun s =>
    let old := s.rd .muRoute k w
    let s := s.wrCodes .muRoute k w v
    let new := s.rd .muRoute k w
    if s.src k then
      retrip (s.forN 32 (fun s b =>
        if bitOf new b && !bitOf old b then assertOn s (32 * w + b) k
        else if bitOf old b && !bitOf new b then s.wrB .muLstat (32 * w + b) 0 0 (lineActive s (32 * w + b))
        else s))
    else s

/-- MU_ROUTE_WRITE (R108). -/
def execMuRouteWrite (k : Fin 416) (w : Fin 3) (v : Word) (s : State) : Host.Outcome State Fault Refusal :=
  .next (wrMuRoute s k w v)

/-- A write to MU_MASK[n,w] (R108). A lane that newly subscribes to a line whose trip only goes on to a boundary, with no
source asserted, is not tripped by it (log entry 113). -/
def wrMuMask (s : State) (n w : Nat) (v : Word) : State :=
  s.gate .muMask n fun s =>
    let s := s.wrCodes .muMask n w v
    setTrips s n (tripSet (subs s n) (levelLines s) (cycleLines s) (activeLines s) (latchedLines s)
      (s.lane n).trips (s.running (n / 3)))

/-- MU_MASK_WRITE (R108). -/
def execMuMaskWrite (n : Fin 192) (w : Fin 3) (v : Word) (s : State) : Host.Outcome State Fault Refusal :=
  .next (wrMuMask s n w v)

/-- The mode part of a write to MU_LINE[l] (R109): a line changed to latching while a source is asserted latches; a
line changed from latching clears LATCHED and keeps nothing to a boundary. -/
def wrMuLineMode (s : State) (l : Nat) (v : Word) : State :=
  s.gate .muLine l fun s =>
    let old := s.rdF .muLine l 0 1 0
    let s := s.wrCodes .muLine l 0 v
    let new := s.rdF .muLine l 0 1 0
    if decide (2 ≤ old) = decide (2 ≤ new) then (if old = new then s else retrip s)
    else if 2 ≤ new then retrip (s.when (s.bit .muLstat l 0 0) (·.setB .muLstat l 0 1))
    else
      let s := s.clrB .muLstat l 0 1
      let s := s.forN 192 (fun s n =>
        let x := s.lane n
        if x.trips.getLsbD l && !s.bit .muLstat l 0 0 then
          setTrips s n (x.trips &&& ~~~((1 : BitVec 96) <<< l)) else s)
      retrip s

/-- The REL part of a write to MU_LINE[l] (R110). It also ends what an earlier release with RELAT 1 keeps to a boundary. -/
def muRelease (s : State) (l : Nat) : State :=
  s.gate .muLine l fun s =>
    if s.rdF .muLine l 0 1 0 < 2 then s
    else if s.bit .muLstat l 0 0 then s.setB .muLstat l 0 3
    else
      let s := s.clrB .muLstat l 0 1
      if s.bit .muLine l 0 2 then retrip s
      else s.forN 192 (fun s n => setTrips s n ((s.lane n).trips &&& ~~~((1 : BitVec 96) <<< l)))

/-- A write of `v` to MU_LINE[l]: fields, mode, then a release that REL requests. -/
def wrMuLine (s : State) (l : Nat) (v : Word) : State :=
  (wrMuLineMode s l v).when (bitOf v 4) (muRelease · l)

/-- MU_LINE_MODE_WRITE (R109). -/
def execMuLineModeWrite (l : Fin 96) (v : Word) (s : State) : Host.Outcome State Fault Refusal :=
  .next (wrMuLine s l v)

/-- MU_LINE_RELEASE: a write to MU_LINE[l] with REL at 1 (R110). -/
def execMuLineRelease (l : Fin 96) (v : Word) (s : State) : Host.Outcome State Fault Refusal :=
  .next (wrMuLine s l (setBit v 4 true))

/-- A write to MU_SWTRIP (R107): the sources it asserts act first, lowest number first, then those it deasserts. -/
def wrMuSwtrip (s : State) (v : Word) : State :=
  s.gate .muSwtrip 0 fun s =>
    let s := s.wrCodes .muSwtrip 0 0 v
    let s := s.forN 16 (fun s b => if bitOf v b then srcEdge s (400 + b) true else s)
    retrip (s.forN 16 (fun s b => if bitOf v b then s else srcEdge s (400 + b) false))

/-- MU_SWTRIP_WRITE (R107). -/
def execMuSwtripWrite (v : Word) (s : State) : Host.Outcome State Fault Refusal := .next (wrMuSwtrip s v)

/-- MU_LOCK: a write of 1 to MU_CTL.LOCK (R118). -/
def execMuLock (v : Word) (s : State) : Host.Outcome State Fault Refusal :=
  .next (s.gate .muCtl 0 (·.wrCodes .muCtl 0 0 (setBit v 0 true)))

/-! ### TRIP pins -/

/-- Pin TRIPj is at its active level (R112). -/
def tripActive (s : State) (j : Nat) : Bool := s.fm.trip.getLsbD j == s.bit .muTripcfg j 0 0

/-- The source of an unfiltered TRIPj follows its pin; a filtered one waits for samples (R112), also where it has just
become filtered (log entry 114). -/
def tripFollow (s : State) (j : Nat) : State :=
  if s.rdF .muTripcfg j 0 2 1 = 0 then setSource s (320 + j) (tripActive s j) else s

/-- Pin TRIPj is sampled on a tick (R112): consecutive active samples count, and the first inactive one deasserts the
source of a filtered pin. -/
def tripSample (s : State) (j : Nat) : State :=
  let a := tripActive s j
  let n := if a then Nat.min 40 (tget (fun _ => 0) s.fm.tripOn j + 1) else 0
  let s : State := { s with fm := { s.fm with tripOn := tput (fun _ => 0) s.fm.tripOn j n } }
  s.when (!a && s.rdF .muTripcfg j 0 2 1 != 0) (setSource · (320 + j) false)

/-- TRIP_PIN_EDGE (R53, R112): pin TRIPj moves to `level`; captures see the unfiltered edge. -/
def execTripPinEdge (j : Fin 16) (level : Bool) (s : State) : Host.Outcome State Fault Refusal :=
  let t := if level then s.fm.trip ||| ((1 : BitVec 16) <<< j.val) else s.fm.trip &&& ~~~((1 : BitVec 16) <<< j.val)
  let s1 : State := { s with fm := { s.fm with trip := t } }
  if s.dark then .next s1
  else .next (tripFollow (if t = s.fm.trip then s1 else s1.event (.trip j level)) j)

/-- TRIP_FILTER_EXPIRY (R112): the tenth, or fortieth, consecutive active sample of a filtered pin has come. -/
def execTripFilterExpiry (j : Fin 16) (s : State) : Host.Outcome State Fault Refusal :=
  let flt := s.rdF .muTripcfg j 0 2 1
  let due := decide ((if flt = 1 then 10 else 40) ≤ tget (fun _ => 0) s.fm.tripOn j)
  .next (if flt ≠ 0 ∧ tripActive s j ∧ s.dark = false ∧ s.timeOk ∧ due then setSource s (320 + j) true else s)

/-- A write to MU_TRIPCFG[j]. -/
def wrMuTripcfg (s : State) (j : Nat) (v : Word) : State :=
  s.gate .muTripcfg j fun s => tripFollow (s.wrCodes .muTripcfg j 0 v) j

/-! ### Guard comparators -/

/-- Hysteresis in µV (R102). -/
def hysUv (code : Nat) : Nat := match code with | 0 => 0 | 1 => 10000 | 2 => 20000 | _ => 40000

/-- The comparator states for input level `uv` in µV against VREF, by R102; a disabled comparator is deasserted.
Levels are compared exactly, in units of 1 µV / 1,024. -/
def compare (s : State) (n : Nat) (uv : Nat) (hi lo : Bool) : Bool × Bool :=
  let vref := s.fm.vrefUv
  let h := 1024 * hysUv (s.rdF .gcMode n 0 7 6)
  let vh := s.rdF .gcDac n 0 9 0 * vref
  let vl := s.rdF .gcDac n 0 25 16 * vref
  let x := 1024 * uv
  let hi' := if vh < x then true else if x + h < vh then false else hi
  let lo' := if x < vl then true else if vl + h < x then false else lo
  (s.bit .gcMode n 0 0 && hi', s.bit .gcMode n 0 1 && lo')

/-- What source 2n carries (R103). -/
def window (s : State) (n : Nat) (hi lo : Bool) : Bool :=
  let both := s.bit .gcMode n 0 0 && s.bit .gcMode n 0 1
  match s.rdF .gcMode n 0 9 8 with
  | 1 => both && (hi || lo)
  | 2 => both && !hi && !lo
  | _ => hi

/-- VDD_ANA lies below its reset level (R313). -/
def anaLow (s : State) : Bool := tget (fun _ => false) s.fm.down 4

/-- The sources of input `n` follow its comparators, except while they settle (R104). A reset of function 67 holds them
(R105), and while VDD_ANA is below its reset level those of enabled comparators are held asserted (R313). A low comparator
that settles counts in the window as its source stands. -/
def gcFollow (s : State) (n : Nat) : State :=
  let g := s.gc n
  if s.inRst 67 then s
  else if anaLow s then setSources s [(2 * n, s.bit .gcMode n 0 0), (2 * n + 1, s.bit .gcMode n 0 1)]
  else if g.hold then s
  else
    let lo := if g.setL then s.src (2 * n + 1) else g.lo
    let hi := if g.setH || g.setW then s.src (2 * n) else window s n g.hi lo
    setSources s [(2 * n, hi), (2 * n + 1, lo)]

/-- GUARD_THRESHOLD_CROSSING (R102): the input stands at `uv` µV. In Hold and in reset the comparators are off (R105). -/
def execGuardThresholdCrossing (n : Fin 64) (uv : Nat) (s : State) : Host.Outcome State Fault Refusal :=
  let g := s.gc n
  if s.dark then .next (s.setGc n { g with uv := uv })
  else
    let (h, l) := compare s n uv g.hi g.lo
    .next (gcFollow (s.setGc n { g with uv := uv, hi := h, lo := l }) n)

/-- A write to GC_DAC or GC_MODE (R104): what it changes settles, and a comparator it enables starts deasserted. HEN
and LEN are ignored until a descriptor is accepted (R105). -/
def wrGc (s : State) (n : Nat) (mode : Bool) (v : Word) : State :=
  s.gate .gcDac n fun s =>
    let r : Reg := if mode then .gcMode else .gcDac
    let old := s.rd r n 0
    let v := if mode && !s.acc then setFld v 1 0 (fld old 1 0) else v
    let s := s.wrCodes r n 0 v
    let new := s.rd r n 0
    let ch (hi lo : Nat) : Bool := fld new hi lo != fld old hi lo
    let hen := s.bit .gcMode n 0 0
    let len := s.bit .gcMode n 0 1
    let cH := hen && (if mode then ch 3 2 || ch 0 0 || ch 7 6 else ch 9 0)
    let cL := len && (if mode then ch 5 4 || ch 1 1 || ch 7 6 else ch 25 16)
    let cW := mode && ch 9 8 && (hen || len)
    let g := s.gc n
    let hi0 := if mode && ch 0 0 then false else g.hi
    let lo0 := if mode && ch 1 1 then false else g.lo
    let (h, l) := compare s n g.uv hi0 lo0
    let s := s.setGc n { g with hi := h, lo := l, setH := (g.setH || cH) && hen, setL := (g.setL || cL) && len,
                                setW := g.setW || cW }
    let s := s.when (mode && ch 0 0) (setSource · (2 * n) false)
    let s := s.when (mode && ch 1 1) (setSource · (2 * n + 1) false)
    let g := s.gc n
    gcFollow (s.wrB .gcStat n 0 4 (g.setH || g.setL || g.setW)) n

/-- GC_CONFIG_WRITE (R104): a write to GC_MODE or GC_DAC of input `n`. -/
def execGcConfigWrite (n : Fin 64) (mode : Bool) (v : Word) (s : State) : Host.Outcome State Fault Refusal :=
  .next (wrGc s n mode v)

/-- GC_SETTLE_END (R104). -/
def execGcSettleEnd (n : Fin 64) (part : GcPart) (s : State) : Host.Outcome State Fault Refusal :=
  let g := s.gc n
  let g := match part with
    | .high => { g with setH := false }
    | .low => { g with setL := false }
    | .window => { g with setW := false }
  if s.dark then .next s
  else
    let (h, l) := compare s n g.uv g.hi g.lo
    let s := s.setGc n { g with hi := h, lo := l }
    .next (gcFollow (s.wrB .gcStat n 0 4 (g.setH || g.setL || g.setW)) n)

/-! ### Safe torque off -/

/-- LN_CTL.EN of lane `n` goes to 0 (R76, R84): LN_OWED clears and the lane drives no more. -/
def disableLane (s : State) (n : Nat) : State :=
  if s.bit .lnCtl n 0 0 then
    let s := (s.clrB .lnCtl n 0 0).wr .lnOwed n 0 0
    settle (s.setLane n { s.lane n with primed := false, driving := false }) n
  else s

/-- EN of every lane goes to 0. -/
def disableAll (s : State) : State := s.forN 192 disableLane

/-- Both inputs are high and DISC is 0, so a rearm acts (R116). -/
def canRearm (s : State) : Bool := s.fm.stoA && s.fm.stoB && !s.bit .muSto 0 0 3

/-- The input levels as MU_STO shows them. -/
def stoBits (s : State) : State := (s.wrB .muSto 0 0 0 (!s.fm.stoA)).wrB .muSto 0 0 1 (!s.fm.stoB)

/-- STO_ASSERT (R116): an input is low for 2 ns or longer; the latch sets, every lane pin is released, the logic begins
to clear EN, and the FAULTn cause is set (R325). -/
def execStoAssert (pin : StoPin) (s : State) : Host.Outcome State Fault Refusal :=
  let fm := match pin with
    | .a => { s.fm with stoA := false }
    | .b => { s.fm with stoB := false }
    | .both => { s.fm with stoA := false, stoB := false }
  let was := s.bit .muSto 0 0 2
  let s : State := { s with fm := { fm with stoClearing := if was then fm.stoClearing else true } }
  .next (settleAll (((stoBits s).setB .muSto 0 0 2).fault 4))

/-- The latch clears and the pins follow, if a rearm may act now (R116). -/
def rearmNow (s : State) : State :=
  if s.bit .muSto 0 0 2 && canRearm s then settleAll (s.clrB .muSto 0 0 2) else s

/-- STO_EN_CLEAR_DONE (R116): EN of every lane is 0, and a held REARM acts. -/
def execStoEnClearDone (s : State) : Host.Outcome State Fault Refusal :=
  if s.fm.stoClearing then
    let s := disableAll s
    let held := s.fm.stoRearm
    let s : State := { s with fm := { s.fm with stoClearing := false, stoRearm := false } }
    .next (s.when held rearmNow)
  else .next s

/-- A write to MU_STO (R116, R117): DISC clears only while both inputs agree; REARM while the clearing runs is held, with
an input low or DISC at 1 too (log entry 111). A store with DISC and REARM both 1 clears DISC first, and the rearm then acts
(log entry 111). -/
def wrMuSto (s : State) (v : Word) : State :=
  s.gate .muSto 0 fun s =>
    let v' := if s.fm.stoA = s.fm.stoB then v else setBit v 3 false
    let s := s.wrCodes .muSto 0 0 v'
    if bitOf v 5 then
      if s.fm.stoClearing then { s with fm := { s.fm with stoRearm := true } } else rearmNow s
    else s

/-- STO_REARM: a write to MU_STO with REARM at 1 (R116). -/
def execStoRearm (v : Word) (s : State) : Host.Outcome State Fault Refusal := .next (wrMuSto s (setBit v 5 true))

/-- STO_DISCREPANCY (R117): the inputs have differed for DISCT µs. The check runs in Hold and in a reset as well (DESIGN CHOICE, log
entry 125). -/
def execStoDiscrepancy (s : State) : Host.Outcome State Fault Refusal :=
  if s.fm.stoA ≠ s.fm.stoB ∧ s.rdF .muSto 0 0 31 16 ≠ 0 then
    let s := s.setB .muSto 0 0 3
    .next (s.record 0x0402 0x51 (s.rd .muSto 0 0) 0 0 0)
  else .next s

/-- STO_INPUT_RELEASE (R117): an input returns high. -/
def execStoInputRelease (pin : StoPin) (s : State) : Host.Outcome State Fault Refusal :=
  let fm := match pin with
    | .a => { s.fm with stoA := true }
    | .b => { s.fm with stoB := true }
    | .both => { s.fm with stoA := true, stoB := true }
  .next (stoBits { s with fm := fm })

end Sys2Proof.Machine
end

