-- ==== Sys2Proof/Machine/Lanes.lean ====
section
/-! DEFINITION. The trios and lanes (R57–R84): counter and period, nominal edges, shadows and commit, the late-edge
rule, minimum pulse, carry, bootstrap refresh, overrides and enables. Times within a period are in fine steps from
its start (R5). -/

namespace Sys2Proof.Machine

/-- The counter of trio `t` counts: it runs, ticks run, and it waits for no start (R36, R41, R60). -/
def State.counts (s : State) (t : Nat) : Bool :=
  s.running t && s.timeOk && !(s.trio t).armed && !(s.trio t).waits

/-- HW_CTL.HW_EN acts on lane `n` (R217). -/
def heritage (s : State) (n : Nat) : Bool := n < 24 && s.bit .hwCtl 0 0 0

/-- The prescaler exponent that acts on trio `t` (R57, R217). -/
def trioK (s : State) (t : Nat) : Nat := if heritage s (3 * t) then 2 else (s.trio t).k

/-- Up-down style (R59). -/
def upDown (s : State) (t : Nat) : Bool := s.bit .lnCtl (3 * t) 0 16

/-- Active period in count units; 0 and 1 act as 2 (R59). -/
def trioPer (s : State) (t : Nat) : Nat := Nat.max 2 (s.trio t).per

/-- One count unit in fine steps. -/
def unitFine (s : State) (t : Nat) : Nat := 64 * 2 ^ trioK s t

/-- The PWM period T in fine steps (R59). -/
def periodFine (s : State) (t : Nat) : Nat := trioPer s t * unitFine s t * (if upDown s t then 2 else 1)

/-- Nominal edges and requested on-time of a period. -/
structure Edges where
  rise : Nat
  fall : Nat
  w : Nat
  /-- An absolute edge lies beyond the period (R73). -/
  beyond : Bool
  deriving DecidableEq, Repr

/-- Ratio mode (R63): `n` count units per slope, `u` fine steps per unit, rounding to `g` fine steps (halves up). -/
def ratioEdges (ud : Bool) (per u g duty : Nat) : Edges :=
  let d := Nat.min duty (2 ^ 24)
  let rnd (num : Nat) : Nat := (2 * num + 2 ^ 24 * g) / (2 * 2 ^ 24 * g) * g
  if ud then
    let c := rnd (per * u * (2 ^ 24 - d))
    let t := 2 * per * u
    ⟨c, t - c, t - 2 * c, false⟩
  else
    let e := rnd (per * u * d)
    ⟨0, e, e, false⟩

/-- Absolute mode (R64, R65, R73): edges `a` and `b` in fine steps. -/
def absEdges (ud : Bool) (per u a b : Nat) : Edges :=
  let p := per * u
  let t := if ud then 2 * p else p
  if p < a ∨ p < b then ⟨0, t, t, true⟩
  else if ud then ⟨a, t - b, t - a - b, false⟩
  else if a < b then ⟨a, b, b - a, false⟩
  else ⟨a, a, 0, false⟩

/-- Stage 2 of R80: INV places the edges for the on-time T − w as ratio mode does for (T − w) / T. -/
def invEdges (ud : Bool) (t g : Nat) (e : Edges) : Edges :=
  let w := t - e.w
  if ud then
    let c := (e.w + g) / (2 * g) * g
    { e with rise := c, fall := t - c, w := w }
  else { e with rise := 0, fall := w, w := w }

/-- An absolute edge register as a position in fine steps (R65). -/
def edgePos (v : Word) (k : Nat) : Nat := if k = 0 then fld v 29 0 else fld v 29 6 * (64 * 2 ^ k)

/-- Requested edges of lane `n` under its active values (R63–R65, R73, R80). -/
def reqEdges (s : State) (n : Nat) : Edges :=
  let l := s.lane n
  let t := n / 3
  let ud := upDown s t
  let per := trioPer s t
  let u := unitFine s t
  let k := trioK s t
  let g := if k = 0 then 1 else u
  let e := if s.bit .lnCtl n 0 6 || heritage s n then absEdges ud per u (edgePos l.edgeA k) (edgePos l.edgeB k)
           else ratioEdges ud per u g (fld l.duty 24 0)
  if l.inv then invEdges ud (periodFine s t) g e else e

/-- The carry-in of R76 applied to requested edges of a period of `t` fine steps. -/
def carryEdges (ud : Bool) (t : Nat) (c : Int) (e : Edges) : Edges :=
  let w : Nat := (max 0 (min (t : Int) ((e.w : Int) + c))).toNat
  let d : Int := (w : Int) - e.w
  let r : Int := if ud then (e.rise : Int) - d.tdiv 2 else e.rise
  let f : Int := if ud then (e.fall : Int) + (d - d.tdiv 2) else (e.fall : Int) + d
  let (r, f) : Int × Int :=
    if r < 0 then (0, (w : Int)) else if (t : Int) < f then ((t : Int) - w, (t : Int)) else (r, f)
  { e with rise := r.toNat, fall := f.toNat, w := w }

/-- The edges of the present period with its carry-in (R74, R76). -/
def laneEdges (s : State) (n : Nat) : Edges :=
  carryEdges (upDown s (n / 3)) (periodFine s (n / 3)) (s.lane n).carry (reqEdges s n)

/-- The policy in force: 0 drop, 1 carry, 2 stretch (3 acts as carry) (R74). -/
def policy (s : State) (n : Nat) : Nat := match s.rdF .lnCtl n 0 5 4 with | 3 => 1 | p => p

/-- Active minimum pulse in fine steps (R74). -/
def minp (s : State) (n : Nat) : Nat := 64 * fld (s.lane n).minp 9 0

/-- Whether a stretched pulse can be held (R75). -/
def canStretch (s : State) (n : Nat) : Bool :=
  let t := periodFine s (n / 3)
  if s.bit .lnCtl n 0 1 then 2 * minp s n + dtr s n + dtf s n ≤ t else minp s n < t

/-- Change LN_OWED by `d`, kept within ±T (R76). -/
def owe (s : State) (n : Nat) (d : Int) : State :=
  let t : Int := periodFine s (n / 3)
  s.wr .lnOwed n 0 (wdi (max (-t) (min t ((s.rd .lnOwed n 0).toInt + d))))

/-- A refresh is over (R79): REFRESH, and the high-side on-time it removed. The worked example sets REFRESH when DTR has
elapsed (log entry 89). -/
def refreshed (s : State) (n : Nat) : State :=
  (s.setB .lnStat n 0 3).wr .lnRefloss n 0 (wd ((dtf s n + (s.lane n).refw + dtr s n) % 2 ^ 20))

/-- Time `x` of the period of lane `n`, in fine steps of `TbS.ticks`. -/
def absFine (s : State) (n : Nat) (x : Int) : Int := tickFine s - 64 * (s.trio (n / 3)).elapsed + x

/-- Stage 4 moves towards one side at time `at'` (R67): the switch that is on turns off, the other turns on after its
dead time. A refresh in progress keeps its own order (R78), except that a falling edge ends the wait for its high side. -/
def goSide (s : State) (n : Nat) (high : Bool) (at' : Int) : State :=
  let same := (s.lane n).high == high && (s.lane n).dt != .none
  let cut := !high && (s.lane n).refresh == .waitHigh
  let s := s.when cut (refreshed · n)
  let l := { s.lane n with high := high, offAt := none, refresh := if cut then .none else (s.lane n).refresh }
  if l.refresh ≠ .none || (same && !cut) then s.setLane n l
  else
    let pair := s.bit .lnCtl n 0 1
    let l :=
      if high then
        if l.hOn then l
        else if dtr s n = 0 then
          { l with lOn := false, hOn := true, dt := .none, ends := none, lowStart := none, highStart := some at' }
        else { l with lOn := false, dt := .toHigh, ends := some (at' + dtr s n), lowStart := none,
                      highStart := some (at' + dtr s n) }
      else if !pair then
        { l with hOn := false, lOn := false, dt := .none, ends := none, highStart := none, lowStart := none }
      else if l.lOn then l
      else if dtf s n = 0 then
        { l with hOn := false, lOn := true, dt := .none, ends := none, highStart := none, lowStart := some at' }
      else { l with hOn := false, dt := .toLow, ends := some (at' + dtf s n), highStart := none,
                    lowStart := some (at' + dtf s n) }
    settleAt (s.setLane n { l with fullSoFar := l.fullSoFar && high }) n (absFine s n at')

/-- Stage 4 where no edge is placed (R67, R84): from rest, with both switches off and no dead time running, the side
asked for turns on at once; else as at an edge. -/
def restSide (s : State) (n : Nat) (high : Bool) (at' : Int) : State :=
  let l := s.lane n
  if l.hOn || l.lOn || l.dt != .none || l.refresh != .none then goSide s n high at'
  else
    let low := !high && s.bit .lnCtl n 0 1
    settleAt (s.setLane n { l with high := high, hOn := high, lOn := low, highStart := if high then some at' else none,
                                   lowStart := if low then some at' else none }) n (absFine s n at')

/-- Stage 4 asks for neither switch. -/
def restLane (l : LaneS) : LaneS :=
  { l with high := false, hOn := false, lOn := false, dt := .none, ends := none, refresh := .none, highStart := none,
           lowStart := none, omitH := false, omitL := false, offAt := none }

/-- The tick that runs reaches time `x` of the period of lane `n` (R5, R13). -/
def reached (s : State) (n : Nat) (x : Int) : Bool := decide (x < 64 * ((s.trio (n / 3)).elapsed + 1))

/-- SWAP and INV act from a nominal edge or boundary (R82): an edge not yet placed moves to its new time, not before
`now'`. -/
def followOvr (s : State) (n : Nat) (now' : Nat) : State :=
  let l := s.lane n
  let sw := s.bit .lnOvr n 0 0
  let iv := s.bit .lnOvr n 0 1
  let s := s.setLane n { l with swap := sw, inv := iv }
  if iv = l.inv then s
  else
    let e := laneEdges s n
    let l := s.lane n
    s.setLane n { l with w := e.w, nomR := e.rise, nomF := e.fall, rise := if l.riseDone then l.rise else Nat.max e.rise now',
                         fall := if l.fallDone then l.fall else Nat.max e.fall now' }

/-- The pulse that has just begun on the high side lasts MINP (R77): a falling edge placed sooner comes at that time. -/
def holdFall (s : State) (n : Nat) : State :=
  let l := s.lane n
  let m : Nat := match l.highStart with | some h => (h + minp s n).toNat | none => 0
  if l.w < periodFine s (n / 3) ∧ !l.fallDone ∧ l.fall < m then (s.setLane n { l with fall := m }).setB .lnStat n 0 0 else s

/-- The rising transition at the placed edge; a period whose high side is asked for from its boundary on can be full
(R78). -/
def riseGo (s : State) (n : Nat) (l : LaneS) : State :=
  let s := holdFall (goSide (s.setLane n { l with riseDone := true }) n true l.rise) n
  let x := s.lane n
  if l.rise = 0 then s.setLane n { x with fullSoFar := x.driving && x.refresh == .none } else s

/-- The earliest time at which the lane may go to the other side (R77): the pulse that runs has its effective width. -/
def pulseEnd (s : State) (n : Nat) : Nat :=
  let l := s.lane n
  match (if l.high then l.highStart else l.lowStart) with
  | some h => (h + minp s n).toNat
  | none => 0

/-- The high-side pulse of a period is omitted (R74): the low side is asked for, but a pulse of the period before that is still
high ends only with its effective width (R77). -/
def omitHigh (s : State) (n : Nat) : State :=
  let l := s.lane n
  let m := Nat.max l.rise (pulseEnd s n)
  let s := s.setLane n { l with riseDone := true, fallDone := true, fall := l.rise, w := 0, omitH := true }
  if l.offAt.isSome then s
  else if l.high && decide (l.rise < m) then s.setLane n { s.lane n with offAt := some m }
  else restSide s n false l.rise

/-- The high-side check and the rising transition (R74, R75). The checks run on the waveform that the lane commands, also while
its pins do not show it (log entry 119). -/
def riseCheck (s : State) (n : Nat) : State :=
  let l := s.lane n
  let t := periodFine s (n / 3)
  if l.w = 0 then s.setLane n { l with riseDone := true }
  else if t ≤ l.w || decide (minp s n + dtr s n ≤ l.w) then riseGo s n l
  else
    let s := s.setB .lnStat n 0 0
    if policy s n = 2 ∧ canStretch s n then
      let w := minp s n + dtr s n
      riseGo s n { l with w := w, fall := l.rise + w }
    else
      omitHigh ((if policy s n = 1 then owe s n l.w else s).setLane n l) n

/-- SWAP and INV act at a nominal edge; a period of 0 % or 100 % has none (R66, R82). -/
def edgeOvr (s : State) (n : Nat) (at' : Nat) : State :=
  if (s.lane n).w = 0 ∨ periodFine s (n / 3) ≤ (s.lane n).w then s else followOvr s n at'

/-- LANE_RISING_EDGE (R13, R63, R67, R74): the nominal rising edge of the present period, once its time is reached. Where
INV moves it to a later time, it comes then (R82). -/
def execLaneRisingEdge (n : Fin 192) (s : State) : Host.Outcome State Fault Refusal :=
  let l := s.lane n
  if !s.counts (n / 3) || l.riseDone || !reached s n l.rise then .next s
  else
    let s := edgeOvr s n l.rise
    .next (settle (if l.rise < (s.lane n).rise then s else riseCheck s n) n)

/-- The low-side check and the falling transition (R74). -/
def fallCheck (s : State) (n : Nat) : State :=
  let l := s.lane n
  let t := periodFine s (n / 3)
  if l.w = 0 then goSide (s.setLane n { l with fallDone := true }) n false l.fall
  else if t ≤ l.w then s.setLane n { l with fallDone := true }
  else if !s.bit .lnCtl n 0 1 || minp s n + dtf s n ≤ t - l.w then
    goSide (s.setLane n { l with fallDone := true }) n false l.fall
  else
    let s := s.setB .lnStat n 0 0
    if policy s n = 2 ∧ canStretch s n then
      goSide (s.setLane n { l with fallDone := true, w := t - minp s n - dtf s n }) n false l.fall
    else
      let s := if policy s n = 1 then owe s n (-((t : Int) - l.w)) else s
      s.setLane n { l with fallDone := true, w := t, omitL := true }

/-- LANE_FALLING_EDGE (R13, R63, R67, R74): the nominal falling edge of the present period, or before it the end of a pulse
of the period before (R77), once its time is reached, unless a rising edge comes first. Where INV moves the edge to a later
time, it comes then (R82). -/
def execLaneFallingEdge (n : Fin 192) (s : State) : Host.Outcome State Fault Refusal :=
  let l := s.lane n
  if !s.counts (n / 3) then .next s
  else match l.offAt with
    | some x =>
      if reached s n x && (l.riseDone || l.w == 0 || decide (x < l.rise)) then .next (settle (goSide s n false x) n)
      else .next s
    | none =>
      if l.fallDone || !reached s n l.fall then .next s
      else
        let s := edgeOvr s n l.fall
        .next (settle (if l.fall < (s.lane n).fall then s else fallCheck s n) n)

/-- STRETCH_CHECK (R74): the moment R + (T − MINP − DTF) under stretch on a complementary lane. -/
def execStretchCheck (n : Fin 192) (s : State) : Host.Outcome State Fault Refusal :=
  let l := s.lane n
  let t := periodFine s (n.val / 3)
  let m := l.rise + (t - minp s n - dtf s n)
  if s.counts (n / 3) && s.bit .lnCtl n 0 1 && policy s n == 2 && canStretch s n && l.riseDone &&
      !l.fallDone && decide (0 < l.w) && decide (l.w < t) && decide (m < l.fall) && reached s n m then
    let s := s.setB .lnStat n 0 0
    .next (goSide (s.setLane n { l with fallDone := true, w := t - minp s n - dtf s n, fall := m }) n false m)
  else .next s

/-- The tick in which the dead time or refresh pulse of lane `n` ends is reached (R67, R78). No tick is counted while the
timing domain places no instant (R41, R379). -/
def endDue (s : State) (n : Nat) : Bool :=
  s.timeOk && (match (s.lane n).ends with | some x => reached s n x | none => true)

/-- DEAD_TIME_END (R67, R81, R83, R113): the switch whose dead time has elapsed turns on, and a pin that is asked to be on does
once the other has been off for its dead time. Under SWAP that may be the longer one (R81): a second command then ends it. -/
def execDeadTimeEnd (n : Fin 192) (s : State) : Host.Outcome State Fault Refusal :=
  let l := s.lane n
  if !s.timeOk then .next s
  else if !endDue s n then .next (settle s n)
  else
    let l := match l.dt with
      | .none => l
      | .toHigh =>
        { l with hOn := true, dt := .none, ends := none, refresh := if l.refresh = Refresh.waitHigh then .none else l.refresh }
      | .toLow =>
        if l.refresh = Refresh.waitLow then
          { l with lOn := true, dt := .none, ends := l.ends.map (· + (l.refw : Int)), refresh := .lowOn }
        else { l with lOn := true, dt := .none, ends := none }
    let s := s.when ((s.lane n).refresh == .waitHigh && l.refresh == .none) (refreshed · n)
    .next (settle (s.setLane n l) n)

/-- REFRESH_PULSE_END (R78, R79): the low side turns off, and the high side returns after DTR. Where the waveform has
meanwhile asked for the low side, the low side stays on. -/
def execRefreshPulseEnd (n : Fin 192) (s : State) : Host.Outcome State Fault Refusal :=
  let l := s.lane n
  if l.refresh ≠ .lowOn ∨ !endDue s n then .next s
  else
    let s := s.when (!l.high || dtr s n == 0) (refreshed · n)
    let l :=
      if !l.high then { l with ends := none, refresh := .none }
      else if dtr s n = 0 then { l with lOn := false, hOn := true, ends := none, refresh := .none }
      else { l with lOn := false, dt := .toHigh, ends := l.ends.map (· + (dtr s n : Int)), refresh := .waitHigh }
    .next (settle (s.setLane n l) n)

/-- The state of the waveform at time `pos` of a period under edges `e` of a period of `t`. -/
def highAt (e : Edges) (t pos : Nat) : Bool := e.w == t || (e.w != 0 && e.rise ≤ pos && pos < e.fall)

/-- The time in the new period before which a high-side pulse must not end (R77): a falling edge still to come, and the
moment the pulse's effective width reaches MINP. `tOld` is the time since the boundary before. -/
def pulseLeft (s : State) (n tOld : Nat) : Nat :=
  let l := s.lane n
  if !l.high || l.omitL then 0
  else
    let edge := if l.riseDone && !l.fallDone && decide (0 < l.w) then l.fall - tOld else 0
    let width := match l.highStart with | some h => (h + minp s n - (tOld : Int)).toNat | none => 0
    Nat.max edge width

/-- A lane whose period begins low (R77, R78): a high-side pulse that must last longer ends at `off`, an omitted low-side
pulse leaves the high side on up to the rising edge, and otherwise the low side is asked for at once. The pulse goes on into the
new one where that rises first. -/
def beginLow (s : State) (n off : Nat) (keep : Bool) : State :=
  let l := s.lane n
  if keep then s
  else if 0 < off then (s.setLane n { l with offAt := some off }).when (l.w == 0 || decide (off < l.rise)) (·.setB .lnStat n 0 0)
  else restSide s n false 0

/-- What a period boundary does to one lane (R71, R73, R76, R78, R82, R84): carry-in, the count of full periods,
refresh, the edges of the new period, and the beginning of the committed waveform. `tOld` is the time since the boundary
before. -/
def boundaryLane (tOld : Nat) (s : State) (n : Nat) : State :=
  let l := s.lane n
  let t := periodFine s (n / 3)
  let ti : Int := t
  let takes := policy s n == 1
  let c : Int := if takes then max (-ti) (min ti (s.rd .lnOwed n 0).toInt) else 0
  let s := if takes then s.wr .lnOwed n 0 0 else s
  let drv := l.driving || (l.primed && s.bit .lnCtl n 0 0)
  let full := if l.fullSoFar && l.refn != 0 && s.bit .lnCtl n 0 1 then l.full + 1 else 0
  let off := if l.driving then pulseLeft s n tOld else 0
  let keep := l.driving && l.high && l.omitL
  let nref := s.rdF .lnRefn n 0 7 0
  let l := if l.driving then l else restLane l
  let sh (x : Option Int) : Option Int := x.map (· - (tOld : Int))
  let l := { l with carry := c, swap := s.bit .lnOvr n 0 0, inv := s.bit .lnOvr n 0 1, driving := drv,
                    full := full, fullSoFar := true, riseDone := false, fallDone := false, omitH := false,
                    omitL := false, offAt := none, refn := nref, ends := sh l.ends,
                    highStart := sh l.highStart, lowStart := sh l.lowStart }
  let s := s.setLane n l
  let e := laneEdges s n
  let s := s.when (reqEdges s n).beyond (·.setB .lnStat n 0 1)
  let minR : Nat := match l.lowStart with
    | some h => if l.high then 0 else (h + minp s n).toNat
    | none => 0
  let r1 := Nat.max e.rise minR
  let held := decide (e.rise < minR) && e.w != 0
  let s := s.setLane n { l with nomR := e.rise, nomF := e.fall, rise := r1, fall := Nat.max r1 e.fall, w := e.w }
  let s := s.when held (·.setB .lnStat n 0 0)
  let s := if e.w = t && !held then restSide s n true 0
           else if e.w = 0 || decide (0 < r1) then beginLow s n off (keep && e.w != 0)
           else s
  let l := s.lane n
  if nref ≠ 0 ∧ nref ≤ full ∧ s.bit .lnCtl n 0 1 ∧ l.refresh = .none then
    let l := { l with hOn := false, full := 0, fullSoFar := false, refw := s.rdF .lnRefw n 0 17 0, offAt := none,
                      highStart := none, lowStart := none }
    let l := if dtf s n = 0 then { l with lOn := true, dt := .none, ends := some l.refw, refresh := .lowOn }
             else { l with dt := .toLow, ends := some (dtf s n : Int), refresh := .waitLow }
    settle (s.setLane n l) n
  else settle (s.setLane n { l with full := full, fullSoFar := l.driving && l.high && l.offAt.isNone }) n

/-- The count and direction shown by LN_CNT. -/
def setCount (s : State) (t c : Nat) (down : Bool) : State := s.wr .lnCnt (3 * t) 0 (wd (c + 2 ^ 24 * b2n down))

/-- The period boundary of trio `t` (R59, R71): committed period and prescaler become active, the three lanes start
their new period, and cycle-by-cycle and delayed trips are judged (R109, R110). `tOld` is the time since the boundary
before. -/
def boundaryAfter (s : State) (t tOld : Nat) : State :=
  let x := s.trio t
  let s := s.setTrio t { x with per := x.perPend.getD x.per, k := x.kPend.getD x.k, perPend := none, kPend := none,
                                phase := 0, elapsed := 0, extra := 0 }
  let s := setCount s t 0 false
  let s := s.forN 3 (fun s j => boundaryLane tOld s (3 * t + j))
  boundaryTrips s t

/-- The period boundary in this tick. -/
def boundary (s : State) (t : Nat) : State := boundaryAfter s t (64 * (s.trio t).elapsed)

/-- Ticks from the period boundary to the next one: T, and the count unit for which a count at or above the period is held
(R59, R60, R72). -/
def boundaryTicks (s : State) (t : Nat) : Nat := periodFine s t / 64 + (s.trio t).extra

/-- The tick of the next period boundary is reached: a commit in it acts at that boundary (R71). -/
def atBoundary (s : State) (t : Nat) : Bool := decide (boundaryTicks s t ≤ (s.trio t).elapsed)

/-- PERIOD_BOUNDARY (R13, R59, R71): once the counter has gone through its period. -/
def execPeriodBoundary (t : Fin 64) (s : State) : Host.Outcome State Fault Refusal :=
  if s.counts t && atBoundary s t then .next (boundary s t) else .next s

/-! ### Commits -/

/-- A trio bound to some row (R177). -/
def trioRow (s : State) (t : Nat) : Option Nat :=
  (List.range 64).find? (fun k =>
    let f := s.rdF .rwTrios k 0 5 0
    let m := s.rdF .rwTrios k 0 9 6
    decide (f ≤ t) && decide (t < f + m))

/-- A store of LN_COMMIT to lane `n` (R68, R69): rejected where a row or the Heritage window owns the commits. -/
def lnCommit (s : State) (n : Nat) (v : Word) : State :=
  let lane := bitOf v 0
  let trio := bitOf v 1
  if (trioRow s (n / 3)).isSome || heritage s n then s.setB .lnStat n 0 5
  else if !lane && !trio then s
  else { s with commits := s.commits ++ [{ lanes := if trio then [first n, first n + 1, first n + 2] else [n],
                                           stores := [] }] }

/-- LN_COMMIT_LANE: a store to LN_COMMIT with LANE at 1 (R68). -/
def execLnCommitLane (n : Fin 192) (s : State) : Host.Outcome State Fault Refusal := .next (lnCommit s n 1)

/-- LN_COMMIT_TRIO: a store to LN_COMMIT with TRIO at 1 (R68). -/
def execLnCommitTrio (n : Fin 192) (s : State) : Host.Outcome State Fault Refusal := .next (lnCommit s n 2)

/-- The active copies of lane `n` take its shadows (R68); on the first lane the trio's period and prescaler become
pending, or with IMM the period is returned to act now (R71, R72). -/
def takeShadows (s : State) (n : Nat) : State :=
  let l := s.lane n
  let s := s.setLane n { l with duty := s.rd .lnDuty n 0, edgeA := s.rd .lnEdgea n 0, edgeB := s.rd .lnEdgeb n 0,
                                dtr := s.rd .lnDtr n 0, dtf := s.rd .lnDtf n 0, minp := s.rd .lnMinp n 0,
                                primed := l.primed || s.bit .lnCtl n 0 0 }
  if n % 3 = 0 then
    let x := s.trio (n / 3)
    s.setTrio (n / 3) { x with perPend := some (s.rdF .lnPer n 0 23 0), kPend := some (s.rdF .lnPsc n 0 3 0) }
  else s

/-- What an immediate period did in its tick (R72). -/
inductive ImmTurn where
  | none
  | turn (top : Bool)
  | boundary
  deriving DecidableEq, Repr

/-- Lane `n` has counted a candidate of this kind in this tick. -/
def evFired (s : State) (n : Nat) (kind : LaneEv) : Bool :=
  (s.lane n).evTick == s.tb.ticks && (s.lane n).evHad.contains kind

/-- Lane `n` counts no further candidate of these kinds in this tick. -/
def noteEv (s : State) (n : Nat) (kinds : List LaneEv) : State :=
  let l := s.lane n
  s.setLane n { l with evTick := s.tb.ticks, evHad := kinds ++ (if l.evTick = s.tb.ticks then l.evHad else []) }

/-- At time `a` of the period a nominal edge has been placed that the values with edges `e` put at another time (R70). The
falling edge of `e` counts in a period whose end has moved by `d`. -/
def lateAt (l : LaneS) (a d : Int) (e : Edges) : Bool :=
  (decide ((l.rise : Int) < a) && decide (l.nomR < a) && (e.rise : Int) != l.nomR) ||
  (decide ((l.fall : Int) < a) && decide (l.nomF < a) && (e.fall : Int) - d != l.nomF)

/-- The position in the period moved by `d` fine steps with a new period: an edge that has been placed and has a new time is late
(R70), and the times of the period follow. The rising edge's own time counts from the start of the period, the falling edge's
back from its end. -/
def shiftEdges (d : Int) (s : State) (n : Nat) : State :=
  let l := s.lane n
  let e := laneEdges s n
  (s.setLane n { l with rise := ((l.rise : Int) + d).toNat, fall := ((l.fall : Int) + d).toNat, nomR := e.rise,
                        nomF := e.fall, ends := l.ends.map (· + d), highStart := l.highStart.map (· + d),
                        lowStart := l.lowStart.map (· + d) }).when
    (lateAt l (64 * (s.trio (n / 3)).elapsed - d) d e) (·.setB .lnStat n 0 6)

/-- An immediate period of trio `t` in tick A (R72). An up-down turn-point starts its count unit anew in tick A: the rule
says so of the up-count boundary only (log entry 103). Counting up, a count that equals the new period is held for its unit. -/
def immPeriod (s : State) (t : Nat) : State × ImmTurn :=
  let x := s.trio t
  match x.perPend with
  | none => (s, .none)
  | some p =>
    let s1 := s.setTrio t { x with per := p, perPend := none }
    if !s.counts t then (s1, .none)
    else if atBoundary s t then (s, .none)
    else
      let per := Nat.max 2 p
      let ud := upDown s t
      let cnt := s.rdF .lnCnt (3 * t) 0 23 0
      let down := s.bit .lnCnt (3 * t) 0 24
      let u := 2 ^ trioK s t
      let moveTo (s : State) (el : Nat) : State :=
        (s.setTrio t { s.trio t with elapsed := el, phase := el % u }).forN 3
          (fun s j => shiftEdges (64 * ((el : Int) - x.elapsed)) s (3 * t + j))
      if !ud && decide (cnt ≤ per) then
        (moveTo (s1.setTrio t { s1.trio t with extra := if cnt = per then u else 0 }) (cnt * u + x.phase), .none)
      else if ud && decide (cnt < per) then
        (if down then moveTo s1 ((2 * per - cnt) * u + x.phase) else s1, .none)
      else
        let s2 := s1.setB .lnStat (3 * t) 0 2
        if !ud then (boundary s2 t, .boundary)
        else (setCount (moveTo s2 (per * u)) t per true, .turn !down)

/-- The on-time of the checks still to come after a commit (R76): the request with the carry-in, except that the outcome of
a check already made stays (R77). -/
def wAfter (s : State) (n : Nat) (e : Edges) : Nat :=
  let l := s.lane n
  if l.riseDone && l.fallDone then l.w
  else if l.riseDone && policy s n == 2 && l.w == minp s n + dtr s n && e.w != 0 then Nat.max e.w l.w
  else e.w

/-- A commit at `a`, after the moment of the early low-side check, makes the low-side pulse short under stretch: the high
side turns off at once (R74). -/
def stretchNow (s : State) (n a : Nat) (e : Edges) : Bool :=
  let t := periodFine s (n / 3)
  s.bit .lnCtl n 0 1 && policy s n == 2 && canStretch s n && e.w != 0 && decide (e.w < t) &&
    decide (t < e.w + minp s n + dtf s n) && decide ((s.lane n).rise + (t - minp s n - dtf s n) < a)

/-- One lane's edges under its new active values at tick boundary A (R70, R74, R77). In a period of 0 % or 100 % the edges
judged for LATE are those of its request, at 0 and T (log entry 90). -/
def lateEdges (s : State) (n : Nat) : State :=
  if !s.counts (n / 3) || atBoundary s (n / 3) then s
  else
    let a := 64 * (s.trio (n / 3)).elapsed
    let l := s.lane n
    let e := laneEdges s n
    let passed (x : Nat) : Bool := decide (x < a)
    let rd := l.riseDone || passed l.rise
    let fd := l.fallDone || passed l.fall
    let late := lateAt l a 0 e
    let minF : Nat := match l.highStart with
      | some h => if l.high then (h + minp s n).toNat else 0
      | none => 0
    let minR : Nat := match l.lowStart with
      | some h => if l.high then 0 else (h + minp s n).toNat
      | none => 0
    let r0 := Nat.max e.rise a
    let f0 := if rd && stretchNow s n a e then a else Nat.max e.fall a
    let heldF := !fd && decide (f0 < minF)
    let heldR := !rd && decide (r0 < minR) && e.w != 0
    let r1 := if rd then l.rise else Nat.max r0 minR
    let f1 := if fd then l.fall else Nat.max f0 minF
    let l := { l with w := wAfter s n e, rise := r1, fall := f1, nomR := e.rise, nomF := e.fall }
    let s := (s.setLane n l).when late (·.setB .lnStat n 0 6)
    let s := s.when (heldF || heldR) (·.setB .lnStat n 0 0)
    s.when (reqEdges s n).beyond (·.setB .lnStat n 0 1)

/-- After an immediate period the outputs go to the state of the turn-point just produced (R72). An edge that is placed there
passes its check (R74). An omitted pulse stays omitted, and a pulse that has begun lasts MINP: its edge then comes at that
time (R77). -/
def turnState (s : State) (n : Nat) : State :=
  let a := 64 * (s.trio (n / 3)).elapsed
  let e := laneEdges s n
  let l := s.lane n
  if l.omitH || l.omitL then s
  else
    let high := highAt e (periodFine s (n / 3)) a
    let rose := l.riseDone
    let falls := !high && l.high && !l.fallDone && e.w != 0
    let m := pulseEnd s n
    let hold := high != l.high && decide (a < m)
    let l := { l with nomR := e.rise, nomF := e.fall, w := e.w, rise := if hold && high then m else e.rise,
                      fall := if hold && !high then m else if hold then Nat.max e.fall m else e.fall,
                      riseDone := decide (e.rise ≤ a) && !(hold && high),
                      fallDone := decide (e.fall ≤ a) && !(hold && !high) }
    if hold then (s.setLane n l).setB .lnStat n 0 0
    else if high && !rose then riseCheck (s.setLane n { l with rise := a }) n
    else if falls then fallCheck (s.setLane n { l with fall := a, fallDone := false }) n
    else goSide (s.setLane n l) n high a

/-- A commit over `lanes` registers in this tick (R69–R73): the trios whose TOP and ZERO events fire are returned. A turn-point
produced on the down-slope fires no event (R72). -/
def commitLanes (s : State) (lanes : List Nat) : State × List Nat × List Nat :=
  let s := lanes.foldl takeShadows s
  let trios := ((lanes.filter (· % 3 == 0)).map (· / 3)).filter (fun t => s.bit .lnCtl (3 * t) 0 17)
  let (s, tops, zeros) := trios.foldl (fun (acc : State × List Nat × List Nat) t =>
    let (s, tops, zeros) := acc
    match immPeriod s t with
    | (s1, .none) => (s1, tops, zeros)
    | (s1, .boundary) => (s1, tops, zeros ++ [t])
    | (s1, .turn top) =>
      let s1 := s1.forN 3 (fun s j => turnState s (3 * t + j))
      if top then (s1, tops ++ [t], zeros) else (s1.forN 3 (fun s j => noteEv s (3 * t + j) [.top, .cmp]), tops, zeros))
    (s, [], [])
  let more := (trios.flatMap (fun t => [3 * t, 3 * t + 1, 3 * t + 2])).filter (fun n => !lanes.contains n)
  ((lanes ++ more).foldl lateEdges s, tops, zeros)

/-! ### Trio start and stop, enables, overrides -/

/-- Stage 4 of the trio's lanes asks for neither switch: the trio stands, or is about to start (R60). The count of full
periods then starts from 0 (log entry 91). -/
def restLanes (s : State) (t : Nat) : State :=
  s.forN 3 (fun s j =>
    let n := 3 * t + j
    s.setLane n { restLane (s.lane n) with evCnt := 0, evHad := [], carry := 0, fullSoFar := false, full := 0,
                                           refn := s.rdF .lnRefn n 0 7 0 })

/-- The counter of trio `t` starts from LN_CNT (R60, R61). Counting up, a count at or above the period is held for its unit, with
the period's edges passed. A rising edge at the very start comes as one. A start at count 0 is a period boundary, at which a committed
period and prescaler become active; from any other count they wait for the first boundary (R59, R71). -/
def trioStart (s : State) (t : Nat) : State :=
  let s := s.setTrio t { s.trio t with phase := 0, elapsed := 0, armed := false, waits := false, extra := 0 }
  let s := restLanes s t
  let c0 := s.rdF .lnCnt (3 * t) 0 23 0
  if c0 = 0 then boundary s t
  else
    let ud := upDown s t
    let per := trioPer s t
    let d0 := s.bit .lnCnt (3 * t) 0 24
    let c := if ud && decide (per < c0) then per else c0
    let down := ud && (decide (per ≤ c0) || d0)
    let u := 2 ^ trioK s t
    let held := !ud && decide (per ≤ c0)
    let el := if down then (2 * per - c) * u else Nat.min c per * u
    let s := setCount (s.setTrio t { s.trio t with elapsed := el, extra := if held then u else 0 }) t c down
    s.forN 3 (fun s j =>
      let n := 3 * t + j
      let e := laneEdges s n
      let a := 64 * el
      let s := s.setLane n { s.lane n with rise := e.rise, fall := e.fall, nomR := e.rise, nomF := e.fall, w := e.w,
                                           riseDone := decide (e.rise < a), fallDone := decide (e.fall ≤ a) }
      let s := s.when (reqEdges s n).beyond (·.setB .lnStat n 0 1)
      if e.rise = a ∧ e.w ≠ 0 ∧ e.w < periodFine s t then s else restSide s n (highAt e (periodFine s t) a) a)

/-- The counter of trio `t` starts now, or with the first tick where none runs (R36, R41). -/
def trioGo (s : State) (t : Nat) : State :=
  if s.timeOk then trioStart s t else s.setTrio t { s.trio t with waits := true }

/-- Ticks run again: the trios whose start has waited for them start. -/
def startHeld (s : State) : State := s.forN 64 (fun s t => s.when (s.trio t).waits (trioStart · t))

/-- TRIO_SYNC_START (R60): a trio armed with SYNC starts in the tick of a String cycle boundary (R281). -/
def execTrioSyncStart (t : Fin 64) (s : State) : Host.Outcome State Fault Refusal :=
  if s.timeOk && (s.trio t).armed && s.now.toNat % cyct s == 0 then .next (trioStart s t) else .next s

/-- SWAP and INV act at once while the trio is stopped (R82). -/
def ovrStopped (s : State) (n : Nat) : State :=
  let s := s.setLane n { s.lane n with swap := s.bit .lnOvr n 0 0, inv := s.bit .lnOvr n 0 1 }
  settle s n

/-- A write of `v` to LN_CTL[n] (R57, R60, R84): EN needs an accepted descriptor and a clear STO latch; PAIR, polarity,
policy and ABS keep while EN is 1; the trio-wide fields act on the first lane only, CNT and SYNC only while RUN is 0. -/
def wrLnCtl (s : State) (n : Nat) (v : Word) : State :=
  s.gate .lnCtl n fun s =>
    let old := s.rd .lnCtl n 0
    let en := bitOf old 0
    let wantEn := bitOf v 0
    let newEn := if wantEn == en then en else if wantEn then s.acc && !s.bit .muSto 0 0 2 else false
    let keepCfg := if en then fld old 6 1 else fld v 6 1
    let run := bitOf old 18
    let lead := n % 3 == 0
    let newRun := lead && bitOf v 18
    let cnt := if run then bitOf old 16 else bitOf v 16
    let sync := if run then bitOf old 19 else bitOf v 19
    let hi := if lead then b2n cnt + 2 * b2n (bitOf v 17) + 4 * b2n newRun + 8 * b2n sync else 0
    let w := wd (b2n newEn + 2 * keepCfg + 128 * b2n (bitOf v 7) + 2 ^ 16 * hi)
    let s := s.wr .lnCtl n 0 w
    let t := n / 3
    let s :=
      if newEn = en then s
      else
        let s := s.wr .lnOwed n 0 0
        settle (s.setLane n { s.lane n with primed := false, driving := false }) n
    if !lead || newRun == run then s
    else if newRun then
      if sync then s.setTrio t { s.trio t with armed := true } else trioGo s t
    else
      let s := restLanes (s.setTrio t { s.trio t with armed := false, waits := false }) t
      let s := boundaryTrips s t
      s.forN 3 (fun s j => ovrStopped s (3 * t + j))

/-- TRIO_RUN_START: a write to LN_CTL of the trio's first lane with RUN at 1 (R60). -/
def execTrioRunStart (t : Fin 64) (v : Word) (s : State) : Host.Outcome State Fault Refusal :=
  .next (wrLnCtl s (3 * t.val) (setBit v 18 true))

/-- TRIO_RUN_STOP: a write to LN_CTL of the trio's first lane with RUN at 0 (R60). -/
def execTrioRunStop (t : Fin 64) (v : Word) (s : State) : Host.Outcome State Fault Refusal :=
  .next (wrLnCtl s (3 * t.val) (setBit v 18 false))

/-- LANE_ENABLE: a write to LN_CTL[n] with EN at 1 (R84). -/
def execLaneEnable (n : Fin 192) (v : Word) (s : State) : Host.Outcome State Fault Refusal :=
  .next (wrLnCtl s n (setBit v 0 true))

/-- LANE_DISABLE: a write to LN_CTL[n] with EN at 0 (R84). -/
def execLaneDisable (n : Fin 192) (v : Word) (s : State) : Host.Outcome State Fault Refusal :=
  .next (wrLnCtl s n (setBit v 0 false))

/-- A write of `v` to LN_OVR[n] (R81, R82): FORCE at once, SWAP and INV at the next edge or boundary, or at once while
the trio is stopped; both pins forced on sets OVR_ERR. -/
def wrLnOvr (s : State) (n : Nat) (v : Word) : State :=
  s.gate .lnOvr n fun s =>
    let s := s.wrCodes .lnOvr n 0 v
    let s := s.when (s.rdF .lnOvr n 0 7 4 == 10 && s.bit .lnCtl n 0 1) (·.setB .lnStat n 0 4)
    if s.running (n / 3) then settle s n else ovrStopped s n

/-- LN_OVR_WRITE (R82). -/
def execLnOvrWrite (n : Fin 192) (v : Word) (s : State) : Host.Outcome State Fault Refusal := .next (wrLnOvr s n v)

/-- A write to a lane register that only its fields concern (R57, R58, R68): trio-wide registers on the first lane
only, LN_CNT only while the trio is stopped. -/
def wrLanePlain (s : State) (r : Reg) (n : Nat) (v : Word) : State :=
  s.gate r n fun s =>
    match r with
    | .lnPer | .lnPsc => if n % 3 = 0 then s.wrCodes r n 0 v else s
    | .lnCnt => if n % 3 = 0 ∧ !s.running (n / 3) then s.wrCodes r n 0 v else s
    | .lnStat => settle (s.wrCodes r n 0 v) n
    | _ => s.wrCodes r n 0 v

/-! ### Heritage window -/

/-- A write to HW_CTL (R217). -/
def wrHwCtl (s : State) (v : BitVec 16) : State :=
  let busy := (List.range 8).any (fun t => s.running t || (trioRow s t).isSome)
  if busy || s.fm.reset != .none then s else s.wr .hwCtl 0 0 (wd (v.toNat % 2))

/-- HW_CTL_WRITE (R217). -/
def execHwCtlWrite (v : BitVec 16) (s : State) : Host.Outcome State Fault Refusal := .next (wrHwCtl s v)

/-- The commit of R218: one lane, and the trio's period with the first lane. -/
def hwCommit (s : State) (n : Nat) : State := { s with commits := s.commits ++ [{ lanes := [n], stores := [] }] }

/-- A write to HW_PERH[n] (R218): on the trio's first lane LN_PER takes both halves and the lane commits. -/
def wrHwPerh (s : State) (n : Nat) (v : BitVec 16) : State :=
  if !s.bit .hwCtl 0 0 0 || n % 3 != 0 || s.regHeld .lnPer n then s
  else
    let hi := v.toNat % 256
    let s := s.wr .hwPerh n 0 (wd hi)
    hwCommit (s.wr .lnPer n 0 (wd (s.rdF .hwPerl n 0 15 0 + 65536 * hi))) n

/-- HW_PERH_WRITE (R218). -/
def execHwPerhWrite (n : Fin 24) (v : BitVec 16) (s : State) : Host.Outcome State Fault Refusal :=
  .next (wrHwPerh s n v)

/-- A write to HW_DUTYH[n] (R218): the edges are set from H and the trio's shadow PER, and the lane commits. -/
def wrHwDutyh (s : State) (n : Nat) (v : BitVec 16) : State :=
  if !s.bit .hwCtl 0 0 0 || s.regHeld .lnPer n then s
  else
    let hi := v.toNat % 256
    let s := s.wr .hwDutyh n 0 (wd hi)
    let h := s.rdF .hwDutyl n 0 15 0 + 65536 * hi
    let per := s.rdF .lnPer (first n) 0 23 0
    let (a, b) := if upDown s (n / 3) then (per - h / 2, per - h / 2) else (0, h)
    hwCommit ((s.wr .lnEdgea n 0 (wd (64 * a))).wr .lnEdgeb n 0 (wd (64 * b))) n

/-- HW_DUTYH_WRITE (R218). -/
def execHwDutyhWrite (n : Fin 24) (v : BitVec 16) (s : State) : Host.Outcome State Fault Refusal :=
  .next (wrHwDutyh s n v)

end Sys2Proof.Machine
end

