-- ==== Sys2Proof/Machine/Speed.lean ====
section
/-! DEFINITION. The speed monitor (R30–R35): measured rate, guaranteed bound, provisional steps and deadline risk. -/

namespace Sys2Proof.Machine

/-- A row's bound lies below its floor, once the first bound is published (R33). -/
def belowFloor (s : State) (k : Nat) : Bool :=
  (s.row k).first && decide (s.rdF .spmBound k 0 19 0 < s.rdF .rwFloor k 0 19 0)

/-- Row `k` counts in a VDD_CORE episode that runs (R316). -/
def noteBelow (s : State) (k : Nat) : State :=
  match tget (fun _ => none) s.fm.eps 0 with
  | none => s
  | some e => { s with fm := { s.fm with
      eps := tput (fun _ => none) s.fm.eps 0 (some { e with rows := e.rows ||| ((1 : BitVec 64) <<< k) }) } }

/-- A risk episode ends with its record (R33). Its duration is in whole µs of `State.steady`, truncated (DESIGN CHOICE, log entry
122). -/
def endRisk (s : State) (k : Nat) : State :=
  match (s.row k).episode with
  | none => s
  | some (t, low) =>
    (s.setRow k { s.row k with episode := none }).record 0x0201 k (wd k) (low.zeroExtend 32)
      (wd ((s.steady - t).toNat / 400)) 0

/-- The comparison of R33; `pub` at a publication, false at a floor write. A publication after a Hold request has ended the
episode starts a new one (log entry 81). -/
def compareFloor (s : State) (k : Nat) (pub : Bool) : State :=
  let b := belowFloor s k
  let s := s.wrB .spmBound k 0 29 b
  if b then
    let bound := BitVec.ofNat 20 (s.rdF .spmBound k 0 19 0)
    let s := noteBelow s k
    match (s.row k).episode with
    | none => (s.setRow k { s.row k with episode := some (s.steady, bound) }).setB .spmBound k 0 31
    | some (t, low) =>
      let s := if pub then s.setB .spmBound k 0 31 else s
      s.setRow k { s.row k with episode := some (t, if bound.toNat < low.toNat then bound else low) }
  else endRisk s k

/-- LIVE follows EN and the first bound. -/
def rowLive (s : State) (k : Nat) : State := s.wrB .rwStat k 0 1 (s.bit .rwCtl k 0 0 && (s.row k).first)

/-- The monitor measures: the loop is locked, which it is before low-frequency time ends (R311), and the core domain
runs (R34). -/
def monitorOn (s : State) (k : Nat) : Bool := s.bit .tbStat 0 0 0 && !s.dark && !s.inRst k

/-- VDD_CORE stands at `mv`. -/
def State.atMv (s : State) (mv : Nat) : State := { s with fm := { s.fm with coreMv := mv } }

/-- SPEED_WINDOW_END (R30, R31): the rate and the bound are published, and a new window starts at `mv`. -/
def execSpeedWindowEnd (k : Fin 64) (rate : BitVec 20) (mv : Nat) (s : State) : Host.Outcome State Fault Refusal :=
  if !monitorOn s k then .next s
  else
    let s := s.atMv mv
    let x := s.row k
    let s := s.wr .spmRate k 0 (wd (rate.toNat + 2 ^ 28 * b2n x.short))
    let s := (s.wrF .spmBound k 0 19 0 (rate.toNat * 15 / 16)).clrB .spmBound k 0 30
    let s := s.setRow k { x with first := true, short := false, startMv := mv }
    .next (compareFloor (rowLive s k) k true)

/-- One 7/8 step of R31, truncated (log entry 80), or before the first bound only a short window. -/
def speedStep (s : State) (k mv : Nat) (step : Bool) : State :=
  let s := s.setRow k { s.row k with short := true, startMv := mv }
  if (s.row k).first && step then
    let s := (s.wrF .spmBound k 0 19 0 (s.rdF .spmBound k 0 19 0 * 7 / 8)).setB .spmBound k 0 30
    compareFloor s k true
  else s

/-- A detection lies at most 300 ns, 120 ticks of the locked loop, back (R31). Of one since which the loop has lost its lock the
ticks are only a lower bound: whether it lies within 300 ns is a free value (log entry 115). -/
def within300 (s : State) (t : Option (Nat × Bool)) : Bool :=
  match t with
  | some (t, lost) => decide (s.tb.locked - t ≤ 120) && (!lost || Config.freeNear s.free)
  | none => false

/-- The stamp of a detection made now. -/
def detected (s : State) : Option (Nat × Bool) := some (s.tb.locked, false)

/-- The loop has been out of lock since the detections that stand. -/
def lockLost (s : State) : State :=
  let f := Option.map (fun (t : Nat × Bool) => (t.1, true))
  { s with rows := tmap (fun x => { x with lastFall := f x.lastFall, lastWarn := f x.lastWarn }) {} s.rows }

/-- The counter of free values advances where the distance to `t` is one. -/
def useNear (s : State) (t : Option (Nat × Bool)) : State := s.when (t.any (·.2)) State.useFree

/-- VDD_CORE at `mv` lies 20 mV or more below its value at the start of row `k`'s window (R31). -/
def fellBelow (s : State) (k mv : Nat) : Bool := decide (mv + 20 ≤ (s.row k).startMv)

/-- VDD_CORE reaches `mv` (R31): a fall of 20 mV on row `k` steps the bound, unless a warning crossing within 300 ns has
already applied the step. Each detection pairs with one other (log entry 80). -/
def fallStep (s : State) (k mv : Nat) : State :=
  if !monitorOn s k || !fellBelow s k mv then s
  else
    let t := (s.row k).lastWarn
    if within300 s t then speedStep (useNear (s.setRow k { s.row k with lastWarn := none }) t) k mv false
    else speedStep (useNear (s.setRow k { s.row k with lastFall := detected s }) t) k mv true

/-- A crossing of the VDD_CORE warning level on row `k` (R31). -/
def warnStep (s : State) (k mv : Nat) : State :=
  if !monitorOn s k then s
  else
    let t := (s.row k).lastFall
    if within300 s t then speedStep (useNear (s.setRow k { s.row k with lastFall := none }) t) k mv false
    else speedStep (useNear (s.setRow k { s.row k with lastWarn := detected s }) t) k mv true

/-- VDD_CORE_FALL_20MV (R31). -/
def execVddCoreFall20mv (k : Fin 64) (mv : Nat) (s : State) : Host.Outcome State Fault Refusal :=
  .next (fallStep (s.atMv mv) k mv)

/-- A write to RW_FLOOR[k] (R33): 0 is ignored while a slot is bound; a non-zero value is compared at once. A floor of 0 clears
BELOW and leaves an episode under way (DESIGN CHOICE, log entry 123). -/
def wrRwFloor (s : State) (k : Nat) (v : Word) : State :=
  s.gate .rwFloor k fun s =>
    if fld v 19 0 = 0 then
      if anyN 4 (fun x => s.bit .rwBind k x 31) then s else (s.wrCodes .rwFloor k 0 v).clrB .spmBound k 0 29
    else compareFloor (s.wrCodes .rwFloor k 0 v) k false

/-- RW_FLOOR_WRITE (R33). -/
def execRwFloorWrite (k : Fin 64) (v : Word) (s : State) : Host.Outcome State Fault Refusal := .next (wrRwFloor s k v)

/-- The monitor of row `k` after a reset (R34): SPM registers read 0 until the first window ends, which opens at the present
VDD_CORE. -/
def resetSpeed (s : State) (k : Nat) : State :=
  let x := s.row k
  let s := (s.wr .spmRate k 0 0).wr .spmBound k 0 0
  s.setRow k { x with first := false, short := false, startMv := s.fm.coreMv, lastFall := none, lastWarn := none,
                      episode := none }

end Sys2Proof.Machine
end

