-- ==== Sys2Proof/Machine/Rows.lean ====
section
/-! DEFINITION. Rows (R177–R195): binding, triggers and activations, the input block, the agreement checker with
failover, deadlines, the row fault source, and the fault stops of a control engine that feed it (R152, R153). -/

namespace Sys2Proof.Machine

/-! ### Binding and roles -/

/-- The slot's engines by number: PCE and SCE of RW_BIND. -/
def pce (s : State) (k x : Nat) : Nat := 8 * k + s.rdF .rwBind k x 14 12
def sce (s : State) (k x : Nat) : Nat := 8 * k + s.rdF .rwBind k x 18 16

/-- The slot is bound. -/
def slotValid (s : State) (k x : Nat) : Bool := s.bit .rwBind k x 31

/-- The acting engine of a slot (R189): the one ACT names, unless it has lost its role. -/
def acting (s : State) (k x : Nat) : Option Nat :=
  let b := s.slot k x
  if !slotValid s k x then none
  else if s.bit .rwSstat k x 0 then (if b.lostS then none else some (sce s k x))
  else if b.lostP then none else some (pce s k x)

/-- The standby engine of a slot while it is paired. -/
def standby (s : State) (k x : Nat) : Option Nat :=
  if slotValid s k x && s.bit .rwSstat k x 1 then
    some (if s.bit .rwSstat k x 0 then pce s k x else sce s k x)
  else none

/-- The trios bound to row `k` (R177). -/
def rowTrios (s : State) (k : Nat) : List Nat :=
  (List.range (s.rdF .rwTrios k 0 9 6)).map (s.rdF .rwTrios k 0 5 0 + ·)

/-- The lanes of row `k`'s bound trios. -/
def rowLanes (s : State) (k : Nat) : List Nat := (rowTrios s k).flatMap (fun t => [3 * t, 3 * t + 1, 3 * t + 2])

/-- The row fault source follows its conditions (R193). -/
def rowSrc (s : State) (k : Nat) : State :=
  let missn := s.rdF .rwCtl k 0 4 1
  let on := s.inRst k || anyN 4 (fun x => (slotValid s k x && (acting s k x).isNone) ||
    (missn != 0 && decide (missn ≤ s.rdF .rwSstat k x 19 16)))
  setSource s (336 + k) on

/-- RW_STAT.BERR: a refused write (R177–R179). -/
def berr (s : State) (k : Nat) : State := s.setB .rwStat k 0 0

/-- A write to RW_TRIOS[k] (R177). -/
def wrRwTrios (s : State) (k : Nat) (v : Word) : State :=
  s.gate .rwTrios k fun s =>
    let f := fld v 5 0
    let n := fld v 9 6
    let taken := anyN n (fun i => match trioRow s (f + i) with | some j => j != k | none => false)
    if s.bit .rwCtl k 0 0 || decide (8 < n) || decide (64 < f + n) || taken ||
        (s.bit .hwCtl 0 0 0 && n != 0 && decide (f < 8)) then berr s k
    else s.wrCodes .rwTrios k 0 v

/-- RW_TRIOS_WRITE (R177). -/
def execRwTriosWrite (k : Fin 64) (v : Word) (s : State) : Host.Outcome State Fault Refusal := .next (wrRwTrios s k v)

/-- Engines of the row, 0–7, that a binding word names. -/
def namedEngines (w : Word) : List Nat :=
  if bitOf w 31 then (if bitOf w 15 then [fld w 14 12, fld w 18 16] else [fld w 14 12]) else []

/-- A write to RW_BIND[k,x] (R178, R182): refused, or the slot is bound anew with its count at 0. -/
def wrRwBind (s : State) (k x : Nat) (v : Word) : State :=
  s.gate .rwBind k fun s =>
    let clash := anyN 4 (fun y => y != x && (namedEngines (s.rd .rwBind k y)).any (fun e => e ∈ namedEngines v))
    let twin := bitOf v 31 && bitOf v 15 && fld v 14 12 == fld v 18 16
    if s.bit .rwCtl k 0 0 || clash || twin then berr s k
    else
      let s := s.wrCodes .rwBind k x v
      let s := s.setSlot k x {}
      rowSrc (s.wrF .rwSstat k x 1 0 (2 * b2n (bitOf v 31 && bitOf v 15))) k

/-- RW_BIND_WRITE (R178). -/
def execRwBindWrite (k : Fin 64) (x : Fin 4) (v : Word) (s : State) : Host.Outcome State Fault Refusal :=
  .next (wrRwBind s k x v)

/-- A write to RW_TRIG, RW_WAIT or RW_DL of a slot: ignored with BERR while EN is 1 (R178). -/
def wrRwSlot (s : State) (r : Reg) (k x : Nat) (v : Word) : State :=
  s.gate r k fun s => if s.bit .rwCtl k 0 0 then berr s k else s.wrCodes r k x v

/-- An open activation of row `k` closes or is dropped without starting: the switch it carried is left to the next one
(R186). -/
def newvBack (s : State) (k : Nat) (a : OpenAct) : State :=
  if a.newv && !(s.row k).newv then s.setRow k { s.row k with newv := true, pblock := a.pblock } else s

/-- A write to RW_CTL[k] (R179, R193): EN is accepted under its conditions; a 0 drops every open trigger. -/
def wrRwCtl (s : State) (k : Nat) (v : Word) : State :=
  s.gate .rwCtl k fun s =>
    let en := s.bit .rwCtl k 0 0
    let ok := s.acc && s.rdF .rwFloor k 0 19 0 != 0 && anyN 4 (slotValid s k)
    let s := if bitOf v 0 && !en && !ok then berr s k else s
    let new := bitOf v 0 && (en || ok)
    let s := s.wrCodes .rwCtl k 0 (setBit v 0 new)
    let s := if new then s else s.forN 4 (fun s x =>
      (s.slot k x).acts.foldl (fun s a => newvBack s k a) (s.setSlot k x { s.slot k x with acts := [] }))
    rowSrc (rowLive s k) k

/-- ROW_ENABLE: a write to RW_CTL[k] with EN at 1 (R179). -/
def execRowEnable (k : Fin 64) (v : Word) (s : State) : Host.Outcome State Fault Refusal :=
  .next (wrRwCtl s k (setBit v 0 true))

/-- ROW_DISABLE: a write to RW_CTL[k] with EN at 0 (R179). -/
def execRowDisable (k : Fin 64) (v : Word) (s : State) : Host.Outcome State Fault Refusal :=
  .next (wrRwCtl s k (setBit v 0 false))

/-! ### Counted outcomes -/

/-- A counted outcome adds 1 to CONSEC (R192). -/
def consec (s : State) (k x : Nat) : State := rowSrc (s.incF .rwSstat k x 19 16) k

/-- A miss: flag, count, CONSEC, and the misses of a VDD_CORE episode (R192, R316). -/
def miss (s : State) (k x : Nat) : State :=
  let s := countRow ((s.setB .rwSstat k x 5).incF .rwMiss k x 11 0) k 2 3 none
  let s := match tget (fun _ => none) s.fm.eps 0 with
    | none => s
    | some e => { s with fm := { s.fm with eps := tput (fun _ => none) s.fm.eps 0 (some { e with misses := e.misses + 1 }) } }
  consec s k x

/-- An activation completed before its deadline: CONSEC is 0 (R192). -/
def onTime (s : State) (k x : Nat) : State := rowSrc (s.wrF .rwSstat k x 19 16 0) k

/-! ### Triggers and indications -/

/-- MPOS at the trigger tick (R184). -/
def mposNow (s : State) : Word :=
  let dt := (s.now - s.str.tm).toInt
  s.str.m + wdi (s.str.v.toInt * dt / 65536)

/-- The master values are more than two String cycles old, or have never come (R184); a t_M still to come is not old. -/
def stale (s : State) : Bool :=
  !s.str.mValid || decide ((2 * cyct s : Int) < (s.now - s.str.tm).toInt)

/-- Cam reads of activation `a` of row `k` are outstanding (R185, R262). -/
def camWaits (s : State) (k : Nat) (a : OpenAct) : Bool :=
  s.bit .rwCam k 0 0 && !a.cam && camReads s a.vint (s.rdF .rwCam k 0 8 1)

/-- A trigger event for slot `x` of row `k` (R180, R181, R183): it opens an activation, or is dropped. A switch whose instant is
reached takes effect before it (R186, R266). With RW_CAM.EN the follower issues its two reads (R185, R361). -/
def trigger (s : State) (k x : Nat) : State :=
  if !s.bit .rwCtl k 0 0 || !slotValid s k x || !(s.row k).first || s.inRst k || s.fm.power == .idle ||
      s.fm.reset != .none then s
  else
    let b := s.slot k x
    if 2 ≤ b.acts.length then consec ((s.setB .rwSstat k x 7).incF .rwMiss k x 27 20) k x
    else
      let s := takeSwitch s
      let newv := (s.row k).newv
      let a : OpenAct :=
        { trig := s.now, since := s.steady, mpos := mposNow s, vel := s.str.v, vint := activeSlot s, stale := stale s, newv := newv, sd := 0,
          ep := false, ad := false, cam := false, setp := 0, setv := 0, camErr := false, camPoison := false,
          pblock := (s.row k).pblock }
      let s := if camWaits s k a then countRow (countRow s k 1 2 none) k 1 2 none else s
      (s.setSlot k x { b with acts := b.acts ++ [a] }).setRow k { s.row k with newv := false, pblock := [] }

/-- An event of trigger source `src` and index test `p` reaches every slot that selects it (R180). -/
def triggers (s : State) (src : Nat) (p : Nat → Nat → Bool) : State :=
  s.forN 64 (fun s k => s.forN 4 (fun s x =>
    if s.rdF .rwTrig k x 2 0 = src ∧ p k (s.rdF .rwTrig k x 15 8) then trigger s k x else s))

/-- A lane event of lane `n` as a trigger: only for a row whose bound trios hold the lane (R24, R180). -/
def laneTrigger (s : State) (n : Nat) : State := triggers s 1 (fun k i => i == n && n ∈ rowLanes s k)

/-- Every open activation of every slot takes an indication. -/
def indicate (s : State) (f : Nat → Nat → OpenAct → OpenAct) : State :=
  { s with slots := s.slots.map (fun e => (e.1, { e.2 with acts := e.2.acts.map (f (e.1 / 4) (e.1 % 4)) })) }

/-- The ready indication of sensing input `i` (R92, R181). -/
def sdReady (s : State) (i : Nat) : State :=
  indicate s (fun k x a =>
    let i0 := s.rdF .rwWait k x 7 0
    if i0 ≤ i ∧ i < i0 + 4 then { a with sd := a.sd ||| ((1 : BitVec 4) <<< (i - i0)) } else a)

/-- The frame-done of port `p` (R126). -/
def epDone (s : State) (p : Nat) : State :=
  indicate s (fun k x a => if s.rdF .rwWait k x 17 12 = p then { a with ep := true } else a)

/-- The sequence-done of converter `c` (R99), which is also a trigger. -/
def adDone (s : State) (c : Nat) : State :=
  let s := indicate s (fun k x a => if s.rdF .rwWait k x 22 19 = c then { a with ad := true } else a)
  triggers s 2 (fun _ i => i == c)

/-- Number of sensing inputs slot `x` awaits: inputs beyond 191 do not exist (R181). -/
def sdn (s : State) (k x : Nat) : Nat := Nat.min 4 (s.rdF .rwWait k x 10 8)

/-- Every awaited indication of an open activation has arrived (R181). -/
def allIn (s : State) (k x : Nat) (a : OpenAct) : Bool :=
  let i0 := s.rdF .rwWait k x 7 0
  (List.range (sdn s k x)).all (fun j => decide (191 < i0 + j) || a.sd.getLsbD j) &&
    (!s.bit .rwWait k x 11 || a.ep) && (!s.bit .rwWait k x 18 || a.ad) && (!s.bit .rwCam k 0 0 || a.cam)

/-- CAM_SETPOINT_READY (R185, R261, R262): the follower delivers the setpoint of the oldest trigger that awaits one.
Reads issued during a reset of the Cask controller are served after it (R273). -/
def execCamSetpointReady (k : Fin 64) (x : Fin 4) (s : State) : Host.Outcome State Fault Refusal :=
  let b := s.slot k x
  match b.acts.find? (fun a => !a.cam) with
  | none => .next s
  | some a =>
    if !s.bit .rwCam k 0 0 || s.inRst 68 || s.dark then .next s
    else
      let (c, s1) := camRead s a.vint (s.rdF .rwCam k 0 8 1) a.mpos a.vel
      let a' := { a with cam := true, setp := c.setp, setv := c.setv, camErr := c.err, camPoison := c.poison }
      let before := b.acts.takeWhile (fun a => a.cam)
      let after := (b.acts.dropWhile (fun a => a.cam)).drop 1
      .next (s1.setSlot k x { b with acts := before ++ [a'] ++ after })

/-! ### Activation -/

/-- Supervisor-view address of an engine's data memory byte at kernel address `a`. -/
def ceData (n a : Nat) : Nat := memBase (2 * n + 1) + (a - 0x4000)

/-- Code of the activation unit, the load engine and the other units that write memory by themselves. -/
def unitWho : Nat := 600

/-- The sixteen words of the input block with their poison, FLAGS still without count and JOIN (R182). -/
def inputBlock (s : State) (k x : Nat) (a : OpenAct) : List (Word × Bool) :=
  let i0 := s.rdF .rwWait k x 7 0
  let act := activeSlot s
  let cam := s.bit .rwCam k 0 0
  let flags := 2 ^ 16 * b2n a.newv + 2 ^ 18 * b2n a.stale + 2 ^ 19 * b2n a.camErr + 2 ^ 24 * act.getD 0 + 2 ^ 27 * b2n act.isNone
  let sd (j : Nat) : Word × Bool := (if j < sdn s k x ∧ i0 + j ≤ 191 then s.rd .sdData (i0 + j) 0 else 0, false)
  let ad (j : Nat) : Word × Bool := (s.rd .adRes (s.rdF .rwWait k x 22 19) j, false)
  [(a.trig.truncate 32, false), (wd flags, false), sd 0, sd 1, sd 2, sd 3,
   (s.rd .epLatp (s.rdF .rwWait k x 17 12) 0, false), (a.mpos, false),
   (if cam then a.setp else 0, a.camPoison), (if cam then a.setv else 0, a.camPoison),
   ad 0, ad 1, ad 2, ad 3, (0, false), (0, false)]

/-- The block as an activation that starts writes it: FLAGS carries its count and JOIN (R182). -/
def startBlock (ws : List (Word × Bool)) (count : Nat) (join : Bool) : List (Word × Bool) :=
  (ws.zipIdx).map (fun p => if p.2 = 1 then (p.1.1 ||| wd (count + 2 ^ 17 * b2n join), p.1.2) else p.1)

/-- A word as four bytes, each with its poison. -/
def wordBytes (w : Word) (p : Bool) : List (Byte × Bool) :=
  (List.range 4).map (fun i => (BitVec.ofNat 8 (w.toNat / 2 ^ (8 * i)), p))

/-- The words of a list are written from address `a` on. -/
def writeWords (s : State) (a : Nat) (ws : List (Word × Bool)) : State :=
  (ws.zipIdx).foldl (fun s p => writeMem s unitWho (a + 4 * p.2) (wordBytes p.1.1 p.1.2)) s

/-- Engine `n` becomes Active at the slot's entry, in an activation with its activation point (R144, R183). -/
def startEngine (s : State) (n entry : Nat) (point : BitVec 64) : State :=
  let c := s.core n
  let s := s.setCore n { c with mode := .active, pc := 4 * entry, pcs := [], slot := none, sb := [], infl := [],
                                divU := none, corU := none, far := none, held := false, atM := false, wait := 0, waited := 0, undo := [],
                                yielding := false }
  s.setEact n { inAct := true, point := point }

/-- Engine `n` can take an activation (R183). -/
def able (s : State) (n : Nat) : Bool := (s.core n).mode == .idle && !(s.core n).halted

/-- A REJOIN acts from this activation (R191): the roles change and JOIN is carried. -/
def takeRejoin (s : State) (k x : Nat) : State × Bool :=
  let b := s.slot k x
  match b.rejoin with
  | none => (s, false)
  | some (isS, asStandby) =>
    let b := { b with rejoin := none, lostP := b.lostP && isS, lostS := b.lostS && !isS }
    let s := s.setSlot k x b
    let s := if asStandby then s.setB .rwSstat k x 1 else (s.wrB .rwSstat k x 0 isS).clrB .rwSstat k x 1
    (rowSrc s k, true)

/-- The engines with a role in the slot: the acting one and the standby. -/
def roles (s : State) (k x : Nat) : List Nat := (acting s k x).toList ++ (standby s k x).toList

/-- The held commit of the standby, if the slot's activation leaves one when the next starts on the engines `es`: the primary is
halted in that activation, has not committed, and the deadline is still to come (R188, log entry 94). -/
def heldOver (s : State) (k x : Nat) (es : List Nat) : Option HeldAct :=
  let b := s.slot k x
  match acting s k x, standby s k x, b.run with
  | some p, some q, some (t, false) =>
    if !(p ∈ es) && b.began == some (p, q) && (s.eact p).inAct && !(s.eact p).past && !(s.eact p).committed &&
        (s.eact q).committed && !(s.eact q).applied then
      some { since := t, p := p, q := q, stores := (s.eact q).staged }
    else b.prev
  | _, _, _ => b.prev

/-- The activation `a` at the head of the slot starts on the engines `es` (R182, R183, R186). -/
def startAct (s : State) (k x : Nat) (a : OpenAct) (es : List Nat) (join : Bool) : State :=
  let b := { s.slot k x with prev := heldOver s k x es }
  let count := b.count + 1
  let ws := startBlock (a.block.getD []) count.toNat join
  let pb := a.newv && s.bit .rwCam k 0 9
  let block := if pb then a.pblock else []
  let entry := s.rdF .rwBind k x 11 0
  let s := (roles s k x).foldl (fun s n =>
    if n ∈ es then s else s.setEact n { s.eact n with past := true }) s
  let s := es.foldl (fun s n =>
    let s := writeWords s (ceData n 0x7FC0) ws
    let s := (block.zipIdx).foldl (fun s p =>
      writeMem s unitWho (ceData n 0x4000 + 8 * p.2) (entryBytes p.1.1 p.1.2)) s
    countRow (startEngine s n entry a.point) k 0 2 (some n)) s
  let s := if pb && (s.row k).nblock.isEmpty then s.clrB .rwStat k 0 2 else s
  let began := match acting s k x, standby s k x with
    | some p, some q => if p ∈ es ∧ q ∈ es then some (p, q) else none
    | _, _ => none
  s.setSlot k x { b with acts := b.acts.drop 1, run := some (a.since, false), count := count, began := began,
                         judged := false, lateDone := false }

/-- The oldest open activation, once its activation point is reached and the slot's engines are not Active, starts every
engine of the slot that is able (R181, R183); a Halted engine is none that it waits for. With none able it stays open. No
activation starts in the Idle power state (R307). -/
def tryStart (s : State) (k x : Nat) : State :=
  match (s.slot k x).acts with
  | [] => s
  | a :: _ =>
    let busy := (roles s k x).any (fun n => (s.core n).mode == .active && !(s.core n).halted)
    if a.block.isNone || busy || s.fm.power == .idle || s.dark then s
    else
      let (s1, join) := takeRejoin s k x
      let es := (roles s1 k x).filter (able s1)
      if es.isEmpty then s else startAct s1 k x a es join

/-- Every slot starts what it can: the device leaves Idle (R307). -/
def startWaiting (s : State) : State := s.forN 64 (fun s k => s.forN 4 (fun s x => tryStart s k x))

/-- ACTIVATION_POINT (R181–R183): the last indication of the oldest open activation that awaits some has arrived; the
values of its input block are those of this tick. It starts now, or when the slot's engines are Idle. -/
def execActivationPoint (k : Fin 64) (x : Fin 4) (s : State) : Host.Outcome State Fault Refusal :=
  let b := s.slot k x
  match b.acts.find? (fun a => a.block.isNone) with
  | none => .next (tryStart s k x)
  | some a =>
    if !allIn s k x a then .next s
    else
      let before := b.acts.takeWhile (fun a => a.block.isSome)
      let after := (b.acts.dropWhile (fun a => a.block.isSome)).drop 1
      let a' := { a with block := some (inputBlock s k x a), point := s.now }
      .next (tryStart (s.setSlot k x { b with acts := before ++ [a'] ++ after }) k x)

/-! ### The agreement checker -/

/-- The slot engine `n` belongs to. -/
def slotOf (s : State) (n : Nat) : Option Nat :=
  (List.range 4).find? (fun x => n % 8 ∈ namedEngines (s.rd .rwBind (n / 8) x))

/-- The commit of engine `n` is applied (R17, R187): its staged stores and the bound trios go to the lanes. -/
def applyCommit (s : State) (k x n : Nat) : State :=
  let e := s.eact n
  let s : State := { s with commits := s.commits ++ [{ lanes := rowLanes s k, stores := e.staged }] }
  let s := countRow (s.setEact n { e with applied := true }) k 2 0 none
  if e.onTime then onTime s k x else s.setB .rwSstat k x 9

/-- A commit with the staged stores `ws` that was held for an earlier activation is applied (R188). -/
def applyHeld (s : State) (k : Nat) (ws : List (Nat × Word)) : State :=
  countRow { s with commits := s.commits ++ [{ lanes := rowLanes s k, stores := ws }] } k 2 0 none

/-- First position at which two staging lists differ: the address recorded and LEN (R189). -/
def firstDiff : List (Nat × Word) → List (Nat × Word) → Nat × Bool
  | [], [] => (0, false)
  | [], b :: _ => (b.1, true)
  | a :: _, [] => (a.1, true)
  | a :: as, b :: bs => if a = b then firstDiff as bs else (a.1, false)

/-- The commits of the primary and its partner are compared, each its list and whether it was made (R19, R188, R189). -/
def disagree (s : State) (k x : Nat) (u v : List (Nat × Word) × Bool) : State :=
  if u = v then s
  else
    let (addr, len) := firstDiff u.1 v.1
    let off := addr % 65536
    let s := countRow ((s.setB .rwSstat k x 4).incF .rwDis k x 23 16) k 2 2 none
    let s := (s.wrF .rwDis k x 15 0 off).wrB .rwDis k x 24 len
    s.record 0x0203 k (wd k) (wd x) (wd (s.rdF .rwBind k x 14 12 + 256 * s.rdF .rwBind k x 18 16))
      (wd (off + 65536 * b2n len))

/-- The two lists are compared when the later of the two completes, while the slot is paired (R188, R189, R19). -/
def judge (s : State) (k x : Nat) : State :=
  let b := s.slot k x
  match b.began with
  | none => s
  | some (p, q) =>
    let ep := s.eact p
    let eq := s.eact q
    let ended (n : Nat) (e : EngAct) : Bool := (e.committed || e.yielded) && (s.core n).mode != .stopped
    if b.judged || !s.bit .rwSstat k x 1 || !ended p ep || !ended q eq then s
    else
      let s := s.setSlot k x { b with judged := true }
      let (u, v) := if acting s k x = some q then (eq, ep) else (ep, eq)
      disagree s k x (u.staged, u.committed) (v.staged, v.committed)

/-- Engine `n` loses its role in its slot. -/
def loseRole (s : State) (k x n : Nat) : State :=
  let b := s.slot k x
  s.setSlot k x (if n = sce s k x ∧ s.bit .rwBind k x 15 then { b with lostS := true } else { b with lostP := true })

/-- The record of a failover or of a lost standby (R355). -/
def roleRecord (s : State) (code k x n : Nat) : State :=
  s.record code k (wd k) (wd x) (wd n) (match acting s k x with | some a => wd a | none => 0xFFFFFFFF)

/-- FOV: the flag, the count and the record of a failover from engine `n` (R189). -/
def failoverNote (s : State) (k x n : Nat) : State :=
  roleRecord (countRow ((s.setB .rwSstat k x 2).incF .rwMiss k x 31 28) k 2 1 none) 0x0204 k x n

/-- The commit that the slot holds for an earlier activation of engine `n` is taken out of it. -/
def takePrev (s : State) (k x n : Nat) : Option HeldAct × State :=
  let b := s.slot k x
  match b.prev with
  | some h => if h.p = n then (some h, s.setSlot k x { b with prev := none }) else (none, s)
  | none => (none, s)

/-- A failover gives the slot what its standby `q` has made of the running activation (R189, R192): its commit, if it is held, or
its YIELD without one before the deadline. -/
def takeOver (s : State) (k x q : Nat) : State :=
  let e := s.eact q
  match (s.slot k x).run with
  | none => s
  | some (_, dead) =>
    if e.past then s
    else if e.committed then (if e.applied then s else applyCommit s k x q)
    else if e.yielded && !dead then onTime s k x
    else s

/-- FAILOVER (R189, R190): the slot is unpaired on the standby; its held commits are applied. -/
def failover (s : State) (k x n : Nat) : State :=
  let q := standby s k x
  let (h, s) := takePrev s k x n
  let s := loseRole s k x n
  let s := (s.wrB .rwSstat k x 0 (!s.bit .rwSstat k x 0)).clrB .rwSstat k x 1
  let s := failoverNote s k x n
  let s := match h with | some h => applyHeld s k h.stores | none => s
  let s := match q with
    | some q => takeOver s k x q
    | none => s
  rowSrc s k

/-- SFLT: the standby `n` is lost and the slot is unpaired on the primary (R189). -/
def standbyLost (s : State) (k x n : Nat) : State :=
  let s := (loseRole s k x n).clrB .rwSstat k x 1
  let s := s.setSlot k x { s.slot k x with prev := none }
  rowSrc (roleRecord (s.setB .rwSstat k x 3) 0x0205 k x n) k

/-- The activation is over when none of its engines is in it. -/
def endRun (s : State) (k x : Nat) : State :=
  if (namedEngines (s.rd .rwBind k x)).any (fun e => (s.eact (8 * k + e)).inAct && !(s.eact (8 * k + e)).past) then s
  else s.setSlot k x { s.slot k x with run := none }

/-- A detected fault of engine `n` reaches the checker (R18, R189). -/
def checkerFault (s : State) (n : Nat) : State :=
  let k := n / 8
  match slotOf s n with
  | none => s
  | some x =>
    let s := s.setEact n { s.eact n with inAct := false }
    let s :=
      if acting s k x = some n then
        if s.bit .rwSstat k x 1 then failover s k x n
        else
          let s := loseRole s k x n
          let s := match (s.slot k x).began with
            | none => s
            | some (_, q) => if q = n then roleRecord (s.setB .rwSstat k x 3) 0x0205 k x n else failoverNote s k x n
          rowSrc s k
      else if standby s k x = some n then standbyLost s k x n
      else s
    endRun s k x

/-- While the slot is paired, the commit of the other engine of the activation's pair has been applied in place of engine `n`'s
(log entry 94). A standby that has taken over commits all the same (R189). -/
def partnerApplied (s : State) (k x n : Nat) : Bool :=
  s.bit .rwSstat k x 1 && match (s.slot k x).began with
  | some (p, q) => (n == p && (s.eact q).applied) || (n == q && (s.eact p).applied)
  | none => false

/-- Engine `n` commits, or yields without a commit, in an earlier activation for which its partner's commit is held: its commit
is accepted in place of that one, and the two are compared (R188, R189). -/
def prevEnds (s : State) (k x n : Nat) (commit : Bool) : State :=
  let e := s.eact n
  let (h, s) := takePrev s k x n
  match h with
  | none => s
  | some h =>
    let s := if commit then onTime (applyHeld (s.setEact n { s.eact n with applied := true }) k e.staged) k x else s
    disagree s k x (if commit then e.staged else [], commit) (h.stores, true)

/-- The checker takes a COMMIT of engine `n` (R171, R187–R189). A commit of an activation that is over is discarded. -/
def checkerCommit (s : State) (n : Nat) : State :=
  let k := n / 8
  let e := s.eact n
  match slotOf s n with
  | none => s
  | some x =>
    if !e.inAct then s
    else if e.committed then s.setB .rwSstat k x 8
    else if e.past then prevEnds (s.setEact n { e with committed := true }) k x n true
    else
      let dead := match (s.slot k x).run with | some (_, d) => d | none => false
      let s := s.setEact n { e with committed := true, onTime := !dead }
      let both := match (s.slot k x).began with
        | some (p, q) => (s.eact p).missed && (s.eact q).missed && s.bit .rwSstat k x 1
        | none => false
      if both then
        if (s.slot k x).lateDone then judge s k x
        else judge (applyCommit (s.setSlot k x { s.slot k x with lateDone := true }) k x n) k x
      else if acting s k x = some n then
        if partnerApplied s k x n then judge s k x else judge (applyCommit s k x n) k x
      else if standby s k x = some n then
        match acting s k x with
        | some p =>
          if (s.slot k x).began.isNone && (!(s.eact p).inAct || (s.eact p).past) then judge (applyCommit s k x n) k x else judge s k x
        | none => judge s k x
      else s

/-- A lane store of engine `n` drains to the checker (R187): staged before its first COMMIT, discarded with XCMT
after. -/
def checkerStore (s : State) (n addr : Nat) (v : Word) : State :=
  let e := s.eact n
  match slotOf s n with
  | none => s
  | some x =>
    if e.committed then s.setB .rwSstat (n / 8) x 8
    else s.setEact n { e with staged := e.staged ++ [(addr, v)] }

/-- Engine `n` answers for the slot's running activation: it is the acting engine, or the standby that serves it alone (R183). -/
def answers (s : State) (k x n : Nat) : Bool :=
  acting s k x == some n || (standby s k x == some n && (s.slot k x).began.isNone && match acting s k x with
    | some p => !(s.eact p).inAct || (s.eact p).past
    | none => true)

/-- Engine `n` has yielded (R188, R192): without a COMMIT and before the deadline, the activation for which it answers is
complete. -/
def checkerYield (s : State) (n : Nat) : State :=
  let k := n / 8
  let e := s.eact n
  match slotOf s n with
  | none => s
  | some x =>
    if !e.inAct then s
    else
      let e' := { e with yielded := true, inAct := false, staged := if e.committed then e.staged else [] }
      let s := if e.past && !e.committed then prevEnds s k x n false else s
      let s := s.setEact n e'
      let dead := match (s.slot k x).run with | some (_, d) => d | none => false
      let s := if !e.committed && !e.past && answers s k x n && !dead then onTime s k x else s
      tryStart (endRun (judge s k x) k x) k x

/-- Ticks from the trigger to the deadline (R192). -/
def deadlineTicks (s : State) (k x : Nat) : Nat :=
  let d := s.rdF .rwDl k x 12 0
  if d = 0 ∨ 4784 < d then 4784 else d

/-- The deadline of an activation triggered at `t`, by `State.steady`, has come (R192). -/
def deadlineCome (s : State) (k x : Nat) (t : BitVec 64) : Bool := decide (deadlineTicks s k x ≤ (s.steady - t).toNat)

/-- The oldest open activation closes at its deadline (R192): with its indications in a miss, else without input. -/
def closeAct (s : State) (k x : Nat) (a : OpenAct) (rest : List OpenAct) : State :=
  let s1 := newvBack (s.setSlot k x { s.slot k x with acts := rest }) k a
  let s1 := if allIn s k x a then miss s1 k x else consec ((s1.setB .rwSstat k x 6).incF .rwMiss k x 19 12) k x
  tryStart s1 k x

/-- Engine `n` is in the slot's running activation and has not completed its first COMMIT. -/
def lateEngine (s : State) (n : Nat) : Bool := (s.eact n).inAct && !(s.eact n).past && !(s.eact n).committed

/-- A late engine is noted as one. -/
def markLate (s : State) (n : Nat) : State :=
  if lateEngine s n then s.setEact n { s.eact n with missed := true } else s

/-- The deadline of a pair's running activation, with the acting engine `p` and the standby `q` (R189). No failover and no
standby loss is recorded for a Halted engine (R192, log entry 94). -/
def pairDeadline (s : State) (k x p q : Nat) : State :=
  let s1 := markLate (markLate s p) q
  if lateEngine s p && lateEngine s q then miss s1 k x
  else if lateEngine s p then
    if !(s.eact q).committed then miss s1 k x
    else if (s.core p).halted then (if (s.eact q).applied then s1 else applyCommit s1 k x q)
    else failover s1 k x p
  else if lateEngine s q then (if (s.core q).halted then s1 else standbyLost s1 k x q)
  else s1

/-- The deadline of the slot's running activation (R189, R192). -/
def runDeadline (s : State) (k x : Nat) : State :=
  let s := s.setSlot k x { s.slot k x with run := (s.slot k x).run.map (fun r => (r.1, true)) }
  let both (p q : Nat) : Bool := match (s.slot k x).began with
    | some (u, v) => (p == u || p == v) && (q == u || q == v)
    | none => false
  match acting s k x, standby s k x with
  | some p, some q =>
    if both p q then pairDeadline s k x p q
    else if lateEngine s p || lateEngine s q then miss (markLate (markLate s p) q) k x
    else s
  | some p, none => if lateEngine s p then miss (markLate s p) k x else s
  | none, _ => s

/-- The deadline of an earlier activation for which the standby's commit is held (R188, R189): it is applied in place of a
primary that is still halted, and else fails over from one that has missed it. -/
def prevDeadline (s : State) (k x : Nat) (h : HeldAct) : State :=
  if (s.core h.p).halted then applyHeld (takePrev s k x h.p).2 k h.stores else failover s k x h.p

/-- DEADLINE_EXPIRY (R189, R192): of an earlier activation whose commit is held, else of the running activation, else of the
oldest open one, once its deadline has come. -/
def execDeadlineExpiry (k : Fin 64) (x : Fin 4) (s : State) : Host.Outcome State Fault Refusal :=
  let b := s.slot k x
  let come (t : BitVec 64) : Bool := deadlineCome s k x t
  if s.dark then .next s
  else match b.prev.filter (fun h => come h.since), b.run, b.acts with
  | some h, _, _ => .next (prevDeadline s k x h)
  | none, some (t, false), _ => if come t then .next (runDeadline s k x) else .next s
  | none, _, [] => .next s
  | none, _, a :: rest => if come a.since then .next (closeAct s k x a rest) else .next s

/-- A write to RW_SSTAT[k,x] (R191): W1C flags, and REJOIN while the engine it acts on is Idle. -/
def wrRwSstat (s : State) (k x : Nat) (v : Word) : State :=
  s.gate .rwSstat k fun s =>
    let s := s.wrCodes .rwSstat k x v
    if !bitOf v 10 || !slotValid s k x then s
    else
      let b := s.slot k x
      let pair := s.bit .rwBind k x 15
      let set (isS st : Bool) : State := s.setSlot k x { b with rejoin := some (isS, st) }
      match acting s k x with
      | some a =>
        let isS := a == pce s k x
        let n := if isS then sce s k x else pce s k x
        if pair && !s.bit .rwSstat k x 1 && able s n then set isS true else s
      | none =>
        if able s (pce s k x) then set false false
        else if pair && able s (sce s k x) then set true false
        else s

/-- ROW_REJOIN: a write to RW_SSTAT[k,x] with REJOIN at 1 (R191). -/
def execRowRejoin (k : Fin 64) (x : Fin 4) (v : Word) (s : State) : Host.Outcome State Fault Refusal :=
  .next (wrRwSstat s k x (setBit v 10 true))

/-! ### Engines: registers in flight, draining and fault stops -/

/-- A general register takes a value (R129): G0 stays 0. -/
def regPut (c : CoreS) (r : Nat) (v : Word) (p : Bool) : CoreS :=
  if r = 0 then c else { c with base := tput (fun _ => (0, false)) c.base r (v, p) }

/-- Every result in flight reaches its register, oldest first. -/
def flushInfl (c : CoreS) : CoreS :=
  { c.infl.foldr (fun p c => regPut c p.reg p.val p.poison) c with infl := [] }

/-- A side-unit result is written with its AEX bits; poisoned operands set none (R133, R146). -/
def sideDone (s : State) (n : Nat) (o : SideOp) : State :=
  let s := s.setCore n (regPut (flushInfl (s.core n)) o.dest o.val o.poison)
  let s := if 512 ≤ n ∧ o.aex ≠ 0 then countSv s (n - 512) 0 3 0 else s
  let r : Reg := if n < 512 then .ceCr else .svCr
  let i := if n < 512 then n else n - 512
  s.wr r i 1 (s.rd r i 1 ||| wd o.aex)

/-- One store-buffer entry of an engine reaches its target (R136, R138): memory, the agreement checker's staging list, or
as COMMIT the checker. -/
def drainCe (s : State) (n : Nat) (e : SbEntry) : State :=
  if e.commit then checkerCommit s n
  else if 0x60000000 ≤ e.addr then
    checkerStore s n e.addr (wd (e.bytes.foldr (fun b m => b.1.toNat + 256 * m) 0))
  else if e.addr < 0x8000 then writeMem s n (ceData n e.addr) e.bytes
  else writeMem s n e.addr e.bytes

/-- Every entry of an engine's store buffer drains in program order. -/
def drainAll (s : State) (n : Nat) : State :=
  let sb := (s.core n).sb
  let s := s.setCore n { s.core n with sb := [] }
  sb.foldl (fun s e => drainCe s n e) s

/-- Engine `n` is Stopped with a cause; the checker, the interrupt controller and the book hear of it (R152 step 3 and 4,
R153). -/
def stopped (s : State) (n cause : Nat) (prec : Bool) (pc : Nat) (addr : Word) : State :=
  let f := s.rd .ceCr n 6
  let cnt := Nat.min (fld f 15 8 + 1) 255
  let s := s.wr .ceCr n 6 (wd (1 + 2 * cause + 32 * b2n prec + 256 * cnt))
  let s := (s.wr .ceCr n 7 (wd (pc % 0x4000))).wr .ceCr n 8 addr
  let c := s.core n
  let s := s.setCore n { c with mode := .stopped, held := false, atM := false, wait := 0, waited := 0, undo := [], yielding := false,
                                slot := none, pcs := [] }
  let s := countRow s (n / 8) 0 3 (some n)
  let s := checkerFault (s.record 0x0202 (n / 8) (wd n) (wd cause) (wd (pc % 0x4000)) addr) n
  match slotOf s n with | some x => tryStart s (n / 8) x | none => s

/-- FAULT_STOP (R152): earlier instructions complete, then the engine stops. `aex` is the bit of an arithmetic trap. -/
def faultStop (s : State) (n cause : Nat) (addr : Word) (aex : Nat) : State :=
  let pc := (s.core n).pc
  let s := if aex = 0 then s else s.wr .ceCr n 1 (s.rd .ceCr n 1 ||| wd aex)
  let s := drainAll s n
  let c := s.core n
  let s := s.setCore n { flushInfl c with divU := none, corU := none }
  let s := match c.divU with | some o => sideDone s n o | none => s
  let s := match c.corU with | some o => sideDone s n o | none => s
  stopped s n cause true pc addr

/-- The control registers of engine `n` that instruction `u` changed, pending copies and active ones, take what they held before
it (R153). -/
def undoCr (s : State) (n : Nat) (u : CrUndo) : State :=
  let s := u.pend.foldl (fun s e => { s with crPend := tput (fun _ => none) s.crPend (64 * n + e.1) e.2 }) s
  u.act.foldl (fun s e => s.wr .ceCr n e.1 e.2) s

/-- How many of the instructions that engine state `c` has issued are not yet past W (R128, R153, log entry 38): three, fewer by
the steps that the next one has waited at D, and none while the next one is at M or the engine is halted after its last one. -/
def inPipe (c : CoreS) : Nat := if c.far.isSome || c.atM || c.halted && !c.stepOne then 0 else 3 - c.waited

/-- The imprecise faults of R153: the instructions not yet past W, their store-buffer entries and the side-unit operations are
abandoned, and registers keep what they held before them. What an abandoned SWAP or CAS has written to the engine's own data
memory, and a report that an abandoned CHECK has sent, stand (log entry 38). In Hold and in a reset engines do nothing (R307). -/
def abandon (s : State) (n cause : Nat) : State :=
  let c := s.core n
  if c.mode ≠ .active ∨ 512 ≤ n ∨ s.dark then s
  else
    let cut := c.seq - inPipe c
    let side := (c.divU.toList ++ c.corU.toList).foldl (fun (b : Option SideOp) o =>
      match b with | none => some o | some p => if o.idx < p.idx then some o else some p) none
    let first := ((c.pcs.take (inPipe c)).getLast?).getD c.pc
    let old : Nat := match side with
      | some o => if o.idx < cut then o.pc else first
      | none => first
    let c := { c with infl := c.infl.filter (fun p => decide (p.idx < cut)), divU := none, corU := none, far := none,
                      sb := c.sb.filter (fun e => decide (e.idx < cut)) }
    let undo := c.undo.filter (fun u => decide (cut ≤ u.idx))
    let s := dropTags (undo.foldl (undoCr · n ·) (s.setCore n (flushInfl c))) n cut
    stopped s n cause false old 0

/-- CE_SELF_CHECK (R153): of an engine halted after its last instruction only a side unit can still show one. -/
def execCeSelfCheck (n : Fin 512) (s : State) : Host.Outcome State Fault Refusal :=
  let k := s.core n
  .next (if k.halted && !k.stepOne && k.far.isNone && k.divU.isNone && k.corU.isNone then s else abandon s n 6)

/-- CE_WATCHDOG (R153): of an Active engine, which a Halted one is not. -/
def execCeWatchdog (n : Fin 512) (s : State) : Host.Outcome State Fault Refusal :=
  .next (if (s.core n).halted && !(s.core n).stepOne then s else abandon s n 7)

/-- The engine is Idle or Stopped, so a supervisor's write to its control registers acts (R143). A Halted engine goes by its
state under the halt (DESIGN CHOICE, log entry 120). -/
def ceQuiet (s : State) (n : Nat) : Bool := (s.core n).mode == .idle || (s.core n).mode == .stopped

/-- A supervisor's write to control register `j` of engine `n` (R143, R144): at once while it is Idle or Stopped; the
clear of STOP returns a Stopped engine to Idle. -/
def wrCeCr (s : State) (n j : Nat) (v : Word) : State :=
  s.gate .ceCr n fun s =>
    if !ceQuiet s n then s
    else
      let s := s.wrCodes .ceCr n j v
      if j = 6 ∧ bitOf v 0 ∧ (s.core n).mode = .stopped then s.setCore n { s.core n with mode := .idle } else s

/-- CE_STOP_CLEAR: a supervisor's write of 1 to CE_FSTAT.STOP (R144). -/
def execCeStopClear (n : Fin 512) (s : State) : Host.Outcome State Fault Refusal := .next (wrCeCr s n 6 1)

/-! ### Row reset -/

/-- Row `k` enters a per-function reset (R194): engines Idle with after-reset values, its registers at theirs, its lanes
in their safe state, source 336 + k asserted. -/
def rowReset (s : State) (k : Nat) : State :=
  let lanes := rowLanes s k
  let s := endRisk s k
  let lo := 0x6F000000 + 0x1000 * k
  let s : State := { s with regs := s.regs.filter (fun e => !(lo ≤ e.1 && e.1 < lo + 0xC00)),
                            crPend := s.crPend.filter (fun e => !(512 * k ≤ e.1 && e.1 < 512 * k + 512)) }
  let s := s.forN 8 (fun s e => dropTags ((s.setCore (8 * k + e) {}).setEact (8 * k + e) {}) (8 * k + e) 0)
  let s := s.forN 4 (fun s x => s.setSlot k x {})
  let s := resetSpeed (s.setRow k {}) k
  let s := lanes.foldl (fun s n => settle (s.setLane n { s.lane n with rowRst := k :: (s.lane n).rowRst, heldH := (s.lane n).outH,
                                                                       heldL := (s.lane n).outL }) n) s
  let s := rowSrc s k
  s.wrB .rwStat k 0 3 (s.src (336 + k))

/-- The reset of row `k` ends (R194): the lanes it took leave their safe state unless another row's reset holds them. The
speed monitor takes the level of VDD_CORE at which its first window starts (R31). -/
def rowResetEnd (s : State) (k : Nat) : State :=
  let s := s.forN 192 (fun s n =>
    if k ∈ (s.lane n).rowRst then
      settle (s.setLane n (restFrom s { s.lane n with rowRst := (s.lane n).rowRst.filter (· != k) })) n
    else s)
  let s := s.setRow k { s.row k with startMv := s.fm.coreMv }
  rowSrc s k

end Sys2Proof.Machine
end

