-- ==== Sys2Proof/Machine/Enc.lean ====
section
/-! DEFINITION. Encoder ports (R119–R127): counting, index, latches and SSI frames. -/

namespace Sys2Proof.Machine

/-- EP_CFG.EN, MODE. -/
def epEn (s : State) (p : Nat) : Bool := s.bit .epCfg p 0 0
def epMode (s : State) (p : Nat) : Nat := s.rdF .epCfg p 0 2 1

/-- Position of levels A, B in the forward quadrature order 00, 10, 11, 01 (R122). -/
def quadPos (a b : Bool) : Nat :=
  match a, b with | false, false => 0 | true, false => 1 | true, true => 2 | false, true => 3

/-- Quadrature: the step and whether QERR sets (R122). -/
def quadStep (a b a' b' : Bool) : Int × Bool :=
  if a != a' && b != b' then (0, true)
  else match (quadPos a' b' + 4 - quadPos a b) % 4 with
    | 1 => (1, false)
    | 3 => (-1, false)
    | _ => (0, false)

/-- Place of a Hall state in the forward order 1, 3, 2, 6, 4, 5 (R122). -/
def hallPos (h : Nat) : Option Nat :=
  match h with | 1 => some 0 | 3 => some 1 | 2 => some 2 | 6 => some 3 | 4 => some 4 | 5 => some 5 | _ => none

/-- Hall: the step and whether HERR sets (R122). -/
def hallStep (h h' : Nat) : Int × Bool :=
  if h = h' then (0, false)
  else match hallPos h, hallPos h' with
    | _, none => (0, true)
    | none, some _ => (0, false)
    | some i, some j => match (j + 6 - i) % 6 with
      | 1 => (1, false)
      | 5 => (-1, false)
      | _ => (0, true)

/-- Pulse and direction: the step and whether PDERR sets (R122). -/
def pulseStep (a b a' b' : Bool) : Int × Bool := if !a && a' then (if b then 1 else -1, b != b') else (0, false)

/-- The Hall state of three levels. -/
def hallOf (u v w : Bool) : Nat := b2n u + 2 * b2n v + 4 * b2n w

/-- ENC_INDEX (R123): a qualifying index copies the count, with IDXRST sets it to 0, and is an event of the port. -/
def encIndex (s : State) (p : Nat) (a b : Bool) : State :=
  let m := s.rdF .epCfg p 0 9 8
  if m = 0 || (2 ≤ m && !(a && b)) || s.bit .epStat p 0 14 then s
  else
    let s := if s.bit .epCfg p 0 11 then (s.clrB .epCfg p 0 11).setB .epStat p 0 14 else s
    let s := s.wr .epIdx p 0 (s.rd .epPos p 0)
    let s := if s.bit .epStat p 0 0 then s.setB .epStat p 0 1 else s.setB .epStat p 0 0
    (s.when (s.bit .epCfg p 0 10) (·.wr .epPos p 0 0)).event (.index p)

/-- The port counts a change of filtered levels (R122, R125 steps 1 to 3). -/
def encCount (s : State) (p : Nat) (o n : Bool × Bool × Bool) : State :=
  let (a, b, z) := o
  let (a', b', z') := n
  let (d, e, flag) : Int × Bool × Nat := match epMode s p with
    | 0 => ((quadStep a b a' b').1, (quadStep a b a' b').2, 2)
    | 2 => ((hallStep (hallOf a b z) (hallOf a' b' z')).1, (hallStep (hallOf a b z) (hallOf a' b' z')).2, 3)
    | 3 => ((pulseStep a b a' b').1, (pulseStep a b a' b').2, 4)
    | _ => (0, false, 0)
  let s := if e then s.setB .epStat p 0 flag else s
  let d := if s.bit .epCfg p 0 3 then -d else d
  let s := if d = 0 then s
    else (s.wr .epPos p 0 (s.rd .epPos p 0 + wdi d)).wrB .epStat p 0 10 (decide (0 < d))
  if (epMode s p = 0 || epMode s p = 3) && !z && z' then encIndex s p a' b' else s

/-- The port's HALL field shows H in Hall mode; while the port runs an H of 0 or 7 sets HERR (R122). -/
def showHall (s : State) (p : Nat) : State :=
  let x := s.enc p
  let h := hallOf x.a x.b x.z
  let s := s.when (epEn s p && s.timeOk && epMode s p == 2 && (hallPos h).isNone) (·.setB .epStat p 0 3)
  s.wrF .epStat p 0 13 11 (if epMode s p = 2 then h else 0)

/-- The encoder ports run (R127, R307). -/
def encOn (s : State) : Bool := !s.inRst 66 && !s.dark

/-- Samples that agree from tick `t` on are the filtered level FILT + 4 ticks after the pin's edge (R120): FILT + 1 of them, and the
input delay. -/
def filterTick (s : State) (p t : Nat) : Nat := t + s.rdF .epCfg p 0 7 4 + 4

/-- The filtered level follows the samples since tick `t` by now (R120). -/
def filterDone (s : State) (p t : Nat) : Bool := decide (filterTick s p t ≤ s.tb.ticks)

/-- The filtered level of receiver `rx`: A, B or Z. -/
def filtOf (x : EncS) (rx : Nat) : Bool := if rx = 0 then x.a else if rx = 1 then x.b else x.z

/-- Receiver `rx` has the filtered level `v`. -/
def setFilt (x : EncS) (rx : Nat) (v : Bool) : EncS :=
  { x with a := if rx = 0 then v else x.a, b := if rx = 1 then v else x.b, z := if rx = 2 then v else x.z }

/-- `e` joins the settled levels in the order of their ticks. -/
def addEdge (e : Nat × Nat × Bool) : List (Nat × Nat × Bool) → List (Nat × Nat × Bool)
  | [] => [e]
  | f :: t => if e.1 < f.1 then e :: f :: t else f :: addEdge e t

/-- FILT + 1 samples of receiver `rx`, from tick `t` on and the last of them at the present tick or before, agree at `pin` (R120):
that level is settled, unless it was or the receiver is open (R121). -/
def settleRx (s : State) (p : Nat) (x : EncS) (rx t : Nat) (pin : Bool) : EncS :=
  let last := (((x.edges.filter (·.2.1 == rx)).getLast?).map (·.2.2)).getD (filtOf x rx)
  if x.openRx.getLsbD rx || s.tb.ticks < t + s.rdF .epCfg p 0 7 4 || pin == last then x
  else { x with edges := addEdge (filterTick s p t, rx, pin) x.edges }

/-- The receivers of port `p` are sampled at the levels a, b, z, which stand for every tick since the samples known so far (log
entry 85): the samples that agree, and the levels that they settle (R120). -/
def sampleRx (s : State) (p : Nat) (a b z : Bool) : EncS :=
  let x := s.enc p
  let at' (old new : Bool) (t : Nat) : Nat := if old = new then t else Nat.min (x.seen + 1) s.tb.ticks
  let ta := at' x.pins.1 a x.since.1
  let tb := at' x.pins.2.1 b x.since.2.1
  let tz := at' x.pins.2.2 z x.since.2.2
  let x := { x with pins := (a, b, z), since := (ta, tb, tz), seen := s.tb.ticks }
  settleRx s p (settleRx s p (settleRx s p x 0 ta a) 1 tb b) 2 tz z

/-- The filtered levels of port `p` become those of `y` at tick `t`: a port that is enabled counts the change (R122), and the changes
of the last 400 ticks are kept (R121). -/
def setLevels (s : State) (p t : Nat) (y : EncS) : State :=
  let x := s.enc p
  let had := (List.range 3).filterMap (fun rx => if filtOf x rx = filtOf y rx then none else some (t, rx, filtOf x rx))
  let hist := x.hist.filter (fun e => decide (s.tb.ticks ≤ e.1 + 400)) ++ had
  let s1 := s.setEnc p { y with hist := hist }
  if epEn s p then encCount s1 p (x.a, x.b, x.z) (y.a, y.b, y.z) else s1

/-- Levels that the input delay gives out at one tick, `g`, become filtered levels. -/
def takeEdges (s : State) (p : Nat) (g : List (Nat × Nat × Bool)) : State :=
  let x := s.enc p
  setLevels s p ((g.head?.map (·.1)).getD 0) (g.foldl (fun y e => setFilt y e.2.1 e.2.2) { x with edges := x.edges.drop g.length })

/-- Every settled level that has come through the input delay by now becomes a filtered level, tick by tick (R120). While no tick
runs none does (R41). -/
def ripen (s : State) (p : Nat) : State :=
  if !s.timeOk then s
  else (((s.enc p).edges.filter (fun e => decide (e.1 ≤ s.tb.ticks))).splitBy (·.1 == ·.1)).foldl (takeEdges · p ·) s

/-- ENC_FILTERED_EDGE (R120–R123): the receivers are sampled at the levels a, b, z, which also stand for every tick since
the command before it (log entry 85), and the port acts on the filtered levels. -/
def execEncFilteredEdge (p : Fin 64) (a b z : Bool) (s : State) : Host.Outcome State Fault Refusal :=
  if !encOn s then .next s else .next (showHall (ripen (s.setEnc p (sampleRx s p a b z)) p) p)

/-- A receiver the port's protocol uses. -/
def rxUsed (s : State) (p rx : Nat) : Bool := if epMode s p = 1 then rx == 3 else rx != 3

/-- The fault of receiver `rx` has cleared (R121): its filter takes samples from now on. -/
def closeRx (s : State) (p rx : Nat) : State :=
  let x := s.enc p
  if !x.openRx.getLsbD rx then s
  else
    let t := s.tb.ticks
    let (ta, tb, tz) := x.since
    s.setEnc p { x with
      openRx := x.openRx &&& ~~~((1 : BitVec 4) <<< rx),
      since := (if rx = 0 then t else ta, if rx = 1 then t else tb, if rx = 2 then t else tz),
      dSince := if rx = 3 then t else x.dSince, dPast := if rx = 3 then x.dPast ++ [(x.dFrom, t)] else x.dPast }

/-- The filtered level of receiver `rx` as it was 400 ticks ago (R121). -/
def levelBefore (s : State) (x : EncS) (rx : Nat) : Bool :=
  ((x.hist.find? (fun e => e.2.1 == rx && decide (s.tb.ticks < e.1 + 400))).map (·.2.2)).getD (filtOf x rx)

/-- The fail-safe of receiver `rx` has reported a fault for 400 ticks (R121): its filtered level from before the fault is held. A
change that the fault has made since is taken back as a change of the filtered level (log entry 131). -/
def holdRx (s : State) (p rx : Nat) : State :=
  if (s.enc p).openRx.getLsbD rx then s
  else
    let s := ripen s p
    let x := s.enc p
    setLevels s p s.tb.ticks { setFilt x rx (levelBefore s x rx) with
      openRx := x.openRx ||| ((1 : BitVec 4) <<< rx), edges := x.edges.filter (·.2.1 != rx),
      dFrom := if rx = 3 then s.tb.ticks - 400 else x.dFrom }

/-- ENC_RECEIVER_OPEN (R121): a fail-safe has reported a `fault` for 400 ticks, so the filtered level is held and OPEN is
set, on a used receiver of a port that is enabled; or it reports none any longer. While no tick runs the 400 do not end (R379). -/
def execEncReceiverOpen (p : Fin 64) (rx : Fin 4) (s : State) (fault : Bool := true) : Host.Outcome State Fault Refusal :=
  if !encOn s then .next s
  else if !fault then .next (closeRx s p rx)
  else if epEn s p && rxUsed s p rx && s.timeOk then .next (showHall ((holdRx s p rx).setB .epStat p 0 5) p)
  else .next s

/-- The clock period of EP_SSI.DIV, and the clock cycles of a frame: LEN + 2, and one with a parity bit (R126). -/
def ssiDiv (s : State) (p : Nat) : Nat := Nat.max 40 (s.rdF .epSsi p 0 12 5)
def ssiCycles (s : State) (p : Nat) : Nat :=
  s.rdF .epSsi p 0 4 0 + 2 + b2n (s.rdF .epSsi p 0 15 14 == 1 || s.rdF .epSsi p 0 15 14 == 2)

/-- Ticks since the last frame's T0, and the length of a frame (R126). -/
def ssiTicks (s : State) (p : Nat) : Nat := s.tb.ticks - (s.enc p).t0
def ssiLen (s : State) (p : Nat) : Nat := ssiCycles s p * ssiDiv s p

/-- Driver C of port `p` (R126, R127): its level, or none while it is high-impedance. It falls at T0, each cycle of a frame
is low for its first ⌊DIV / 2⌋ ticks, and it is high otherwise (log entry 85). EXTEST drives it (R338). -/
def ssiClock (s : State) (p : Nat) : Option Bool :=
  s.atPin (410 + p) <|
  if !epEn s p || epMode s p != 1 || !encOn s then none
  else some (!((s.enc p).frame && decide (ssiTicks s p < ssiLen s p) &&
    decide (ssiTicks s p % ssiDiv s p < ssiDiv s p / 2)))

/-- A latch trigger (R124, R126): the position is latched, or an SSI frame starts. -/
def encLatch (s : State) (p : Nat) : State :=
  if !epEn s p || !encOn s then s
  else if epMode s p = 1 then
    if s.bit .epStat p 0 9 then s.setB .epStat p 0 7
    else (s.setEnc p { s.enc p with frame := true, t0 := s.tb.ticks, dPast := [] }).setB .epStat p 0 9
  else (s.wr .epLatp p 0 (s.rd .epPos p 0)).setB .epStat p 0 8

/-- ENC_LATCH (R124): an event of lane `n` latches every port that selects it. -/
def laneLatch (s : State) (n : Nat) : State :=
  s.forN 64 (fun s p => if s.rdF .epLat p 0 7 0 = n then encLatch s p else s)

/-- A write to EP_LAT[p]: the lane, then SWLAT. -/
def wrEpLat (s : State) (p : Nat) (v : Word) : State :=
  s.gate .epLat p fun s => (s.wrCodes .epLat p 0 v).when (bitOf v 8 && s.timeOk) (encLatch · p)

/-- EP_SWLAT: a write to EP_LAT[p] with SWLAT at 1 (R124). -/
def execEpSwlat (p : Fin 64) (v : Word) (s : State) : Host.Outcome State Fault Refusal :=
  .next (wrEpLat s p (setBit v 8 true))

/-- Gray code to binary over `n` bits: each bit is the exclusive or of the Gray bits from the top down to it. -/
def grayToBin : Nat → Nat → Nat
  | 0, g => g
  | k + 1, g => grayToBin k (g ^^^ (g >>> 2 ^ k))

/-- Number of ones in a word. -/
def ones (w : Word) : Nat := (List.range 32).countP (fun i => bitOf w i)

/-- The tick at which a frame samples D for the `j`-th bit: the rising edge of C after the first (R126). -/
def ssiSample (s : State) (p j : Nat) : Nat := (s.enc p).t0 + (j + 1) * ssiDiv s p + ssiDiv s p / 2

/-- At tick `t` of the last frame the level of D was held (R121). -/
def dHeld (x : EncS) (t : Nat) : Bool :=
  x.dPast.any (fun r => decide (r.1 ≤ t) && decide (t < r.2)) || (x.openRx.getLsbD 3 && decide (x.dFrom ≤ t))

/-- The levels of D that a frame samples from its `j`-th bit on, after level `l`: where `held j` the one before (R121). -/
def heldBits (held : Nat → Bool) : Bool → Nat → List Bool → List Bool
  | _, _, [] => []
  | l, j, b :: bs => let c := if held j then l else b; c :: heldBits held c (j + 1) bs

/-- The number that bits spell, the most significant first. -/
def bitsNat (bs : List Bool) : Nat := bs.foldl (fun n b => 2 * n + b2n b) 0

/-- SSI_FRAME_COMPLETE (R126): the LEN + 1 data bits that the port sampled, and the parity bit, (LEN + 2 + PB) × DIV ticks
after T0; a bit sampled while D is open is its held level (R121). No frame ends while the timing domain places no latch
(R41). A frame during which EN was cleared runs to its end (DESIGN CHOICE, log entry 126). -/
def execSsiFrameComplete (p : Fin 64) (data : Word) (parity : Bool) (s : State) : Host.Outcome State Fault Refusal :=
  let x := s.enc p
  if !x.frame || !encOn s || !s.timeOk || decide (ssiTicks s p < ssiLen s p) then .next s
  else
    let len := s.rdF .epSsi p 0 4 0 + 1
    let sent := (List.range len).map (fun j => bitOf data (len - 1 - j)) ++ [parity]
    let got := heldBits (fun j => dHeld x (ssiSample s p j)) x.d 0 (sent.take (ssiCycles s p - 1))
    let raw := bitsNat (got.take len)
    let w := wd (if s.bit .epSsi p 0 13 then grayToBin 5 raw else raw)
    let odd := (ones (wd raw) + b2n (got.getD len false)) % 2 == 1
    let bad := match s.rdF .epSsi p 0 15 14 with
      | 1 => odd
      | 2 => !odd
      | _ => false
    let s := s.setEnc p { x with frame := false, d := got.getLast?.getD x.d, dSince := s.tb.ticks }
    let s := if bad then s.setB .epStat p 0 6 else s
    .next (epDone (((s.wr .epPos p 0 w).wr .epLatp p 0 w).setB .epStat p 0 8) p)

/-- The frame of port `p` is over and BUSY waits for D to return high (R126). -/
def ssiWaits (s : State) (p : Nat) : Bool := s.bit .epStat p 0 9 && !(s.enc p).frame && encOn s && s.timeOk

/-- The filtered level of D may be high now: it was at the last bit, or has had the time to become so since (R120). While D's
receiver is open its level is held (R121). -/
def dHigh (s : State) (p : Nat) : Bool :=
  let x := s.enc p
  x.d || (!x.openRx.getLsbD 3 && filterDone s p x.dSince)

/-- SSI_DATA_RETURN (R126): the filtered level of D is high again after a frame. -/
def execSsiDataReturn (p : Fin 64) (s : State) : Host.Outcome State Fault Refusal :=
  if ssiWaits s p && dHigh s p then .next ((s.setEnc p { s.enc p with d := true }).clrB .epStat p 0 9) else .next s

/-- SSI_TIMEOUT (R126): D has not returned high 10,000 ticks after completion. -/
def execSsiTimeout (p : Fin 64) (s : State) : Host.Outcome State Fault Refusal :=
  if ssiWaits s p && decide (ssiLen s p + 10000 ≤ ssiTicks s p) then .next ((s.setB .epStat p 0 6).clrB .epStat p 0 9)
  else .next s

/-- A write to EP_POS[p] (R125, R126): ignored in SSI mode. -/
def wrEpPos (s : State) (p : Nat) (v : Word) : State :=
  s.gate .epPos p fun s => if epMode s p = 1 then s else s.wr .epPos p 0 v

/-- EP_POS_WRITE (R125). -/
def execEpPosWrite (p : Fin 64) (v : Word) (s : State) : Host.Outcome State Fault Refusal := .next (wrEpPos s p v)

/-- A write to EP_CFG[p] (R119, R123): EN needs an accepted descriptor, MODE and FILT keep while EN is 1, IDXHOLD
clears. -/
def wrEpCfg (s : State) (p : Nat) (v : Word) : State :=
  s.gate .epCfg p fun s =>
    let old := s.rd .epCfg p 0
    let v := if s.acc then v else setBit v 0 (bitOf old 0)
    let v := if bitOf old 0 then setFld (setFld v 2 1 (fld old 2 1)) 7 4 (fld old 7 4) else v
    showHall ((s.wrCodes .epCfg p 0 v).clrB .epStat p 0 14) p

/-- EP_CFG_WRITE (R119, R123). -/
def execEpCfgWrite (p : Fin 64) (v : Word) (s : State) : Host.Outcome State Fault Refusal := .next (wrEpCfg s p v)

/-- A write to EP_SSI[p]: ignored while EN is 1. -/
def wrEpSsi (s : State) (p : Nat) (v : Word) : State :=
  s.gate .epSsi p fun s => if epEn s p then s else s.wrCodes .epSsi p 0 v

/-- A port after a reset or a wake at tick `t`: no frame runs and no receiver is known to be open; the levels stay. -/
def EncS.fresh (x : EncS) (t : Nat) : EncS :=
  { x with frame := false, openRx := 0, since := (t, t, t), seen := t, edges := [], hist := [], dSince := t, dPast := [] }

/-- A reset of the encoder ports (R127). -/
def resetEnc (s : State) : State :=
  let regs := s.regs.filter (fun e => !(0x63000000 ≤ e.1 && e.1 < 0x63001000))
  ({ s with regs := regs }).forN 64 (fun s p => s.setEnc p ((s.enc p).fresh s.tb.ticks))

end Sys2Proof.Machine
end

