-- ==== Sys2Proof/Machine/Sense.lean ====
section
/-! DEFINITION. Sigma-delta sensing (R85–R97) and the general converters (R98–R101). -/

namespace Sys2Proof.Machine

/-- Requester `who` receives a clean word as the answer to its read. -/
def State.answer (s : State) (who : Nat) (w : Word) : State :=
  { s with resp := tput (fun _ => {}) s.resp who { data := wordBytes w false } }

/-! ### Filters -/

/-- The sums over every `m` consecutive elements. -/
def boxcar (m : Nat) (xs : List Int) : List Int :=
  let p := xs.scanl (· + ·) 0
  List.zipWith (· - ·) (p.drop m) p

/-- The raw sum of a sinc filter of order `n` and ratio `osr` over a window of `n × osr` bits, oldest first (R90): the
weights fall on the latest `n (osr − 1) + 1` bits. -/
def sincSum (n osr : Nat) (bits : List Bool) : Int :=
  let xs := (bits.drop (n - 1)).map (fun b => if b then (1 : Int) else -1)
  ((List.range n).foldl (fun xs _ => boxcar osr xs) xs).headD 0

/-- A shift by a signed number of places, arithmetic to the right (R90). -/
def shiftInt (x : Int) (sh : Int) : Int := if 0 ≤ sh then x * 2 ^ sh.toNat else x.fdiv (2 ^ (-sh).toNat)

/-- Order, ratio and shift of the main filter (R90). -/
def mainOrder (s : State) (i : Nat) : Nat := s.rdF .sdFlt i 0 2 1 + 1
def mainOsr (s : State) (i : Nat) : Nat := Nat.max 4 (Nat.min 512 (s.rdF .sdFlt i 0 12 3))
def mainShift (s : State) (i : Nat) : Int := (BitVec.ofNat 6 (s.rdF .sdFlt i 0 18 13)).toInt

/-- Order and ratio of the coarse filter (R95). -/
def coarseOrder (s : State) (i : Nat) : Nat := Nat.min 2 (s.rdF .sdCflt i 0 2 1) + 1
def coarseOsr (s : State) (i : Nat) : Nat := Nat.max 4 (Nat.min 64 (s.rdF .sdCflt i 0 9 3))

/-- Bits of input `i` flow: its group clock is enabled and not in error, ticks run, sensing is not in reset. -/
def bitsFlow (s : State) (i : Nat) : Bool :=
  s.bit .sdClk (i / 8) 0 0 && !s.bit .sdGstat (i / 8) 0 14 && s.timeOk && !s.inRst 64 && !s.dark

/-- The output divider in force (R87). -/
def effDiv (d : Nat) : Nat := Nat.max 16 (Nat.min 80 d)

/-- SD_CLK of group `g` as it acts: the divider, and an output clock's first rising edge in TB_NOW (R87). -/
def sdDiv (s : State) (g : Nat) : Nat := effDiv (s.rdF .sdClk g 0 8 2)
def sdPhase (s : State) (g : Nat) : Nat := s.rdF .sdClk g 0 20 14 % sdDiv s g

/-- The level of pin SDCg as an output, or none while it is high-impedance or an input (R87, R319); EXTEST drives it (R338).
While no tick is given an enabled output shows the level of TB_NOW as it stands (log entry 105). -/
def sdcPin (s : State) (g : Nat) : Option Bool :=
  s.atPin (386 + g) <|
  if !s.bit .sdClk g 0 0 || s.bit .sdClk g 0 1 || s.inRst 64 || s.dark then none
  else some (decide ((s.now.toNat + sdDiv s g - sdPhase s g) % sdDiv s g < sdDiv s g / 2))

/-- The sampling instants of an output clock in TB_NOW, modulo its divider (R87): DLY ticks after the edge EDGE selects. -/
def sampleOfs (s : State) (g : Nat) : Nat :=
  (sdPhase s g + (if s.bit .sdClk g 0 9 then sdDiv s g / 2 else 0) + s.rdF .sdClk g 0 13 10) % sdDiv s g

/-- Ticks from `t` to the next sampling instant of an output clock. -/
def toSample (s : State) (g : Nat) (t : Nat) : Nat := (sampleOfs s g + sdDiv s g - t % sdDiv s g) % sdDiv s g

/-- The main filter's window of input `i`, N × OSR × P, in fine steps (R91); P is SD_GSTAT.PERIOD. -/
def winSpan (s : State) (i : Nat) : Int := (mainOrder s i * mainOsr s i * s.rdF .sdGstat (i / 8) 0 12 0 : Nat)

/-- The first tick at or after max(t_c + h, t_e) (R92). -/
def readyTick (s : State) (i : Nat) (w : SdWin) : Int := max (-((-(128 * w.tc + winSpan s i)).fdiv 128)) w.te

/-- `TbS.ticks` as the timing domain counted them, in TB_NOW. -/
def nowAt (s : State) (t : Nat) : Int := (s.now.toNat : Int) - s.tb.ticks + t

/-- Ticks by which the stamp of a bit precedes its sampling instant (R88): none on an output clock. -/
def stampLag (s : State) (g : Nat) : Nat := if s.bit .sdClk g 0 1 then s.rdF .sdClk g 0 13 10 + 3 else 0

/-- The window begins before the first bit since filling began; before that bit is known, before any that can come (R94). -/
def winEarly (s : State) (i : Nat) (w : SdWin) : Bool :=
  let f := match (s.sd i).first with
    | some f => f
    | none => 64 * (nowAt s (s.sd i).begun - stampLag s (i / 8))
  decide (128 * w.tc - winSpan s i < 2 * f)

/-- Every input of group `g`. -/
def groupInputs (s : State) (g : Nat) (f : State → Nat → State) : State := s.forN 8 (fun s j => f s (8 * g + j))

/-- The clock of group `g` has sampled one more bit, of time `x` in fine steps of TB_NOW; it is the first of an input that has
begun to fill (R94). -/
def bitComes (s : State) (g : Nat) (x : Int) : State :=
  groupInputs (s.setSdg g { s.sdg g with bits := (s.sdg g).bits + 1 }) g fun s i =>
    if s.bit .sdFlt i 0 0 && (s.sd i).first.isNone then s.setSd i { s.sd i with first := some x } else s

/-- Of `n` bits of an input clock, one every `p`, the oldest of time `x`, those sampled before tick `f` (R88). -/
def bitsBefore (s : State) (g n : Nat) (x : Int) (p f : Nat) : Nat :=
  Nat.min n ((64 * (nowAt s f - stampLag s g) - x + p - 1).fdiv p).toNat

/-- An input clock has sampled `n` bits, one every `p`, the oldest of time `x` (R88): a count that began among them leaves out
those before it. -/
def runBits (s : State) (g n : Nat) (x : Int) (p : Nat) : State :=
  groupInputs (s.setSdg g { s.sdg g with bits := (s.sdg g).bits + n }) g fun s i =>
    let y := s.sd i
    let k (o : Option Nat) : Nat := match o with | some f => bitsBefore s g n x p f | none => 0
    let b := bitsBefore s g n x p y.begun
    let first := if s.bit .sdFlt i 0 0 && y.first.isNone && decide (b < n) then some (x + (b * p : Nat)) else y.first
    s.setSd i { y with first := first, next := y.next + k y.nextAt, cnext := y.cnext + k y.cnextAt,
                       same := y.same.map (· + k y.sameAt), nextAt := none, cnextAt := none, sameAt := none }

/-- Group `g` samples the bits of the present tick: an output clock one at each of its sampling instants (R87), an input clock
that of the last known edge, DLY ticks after it; the edges within a run of 8 periods are known at its end (R88, log entry
110). -/
def sdBit (s : State) (g : Nat) : State :=
  if !s.bit .sdClk g 0 0 || s.inRst 64 then s
  else if s.bit .sdClk g 0 1 then
    match (s.sdg g).due with
    | some d =>
      if s.tb.ticks < d then s
      else bitComes (s.setSdg g { s.sdg g with due := none }) g (64 * (nowAt s d - stampLag s g))
    | none => s
  else if toSample s g s.now.toNat = 0 then bitComes s g (64 * s.now.toNat)
  else s

/-- The most bits that group `g` can have sampled by now: within a run of an input clock those of edges that no command has
brought, at most one every 15.50 ticks, the shortest period in range (R88, log entry 110). -/
def bitsMay (s : State) (g : Nat) : Nat :=
  let x := s.sdg g
  if s.bit .sdClk g 0 1 then
    x.bits + Nat.min 7 (64 * (s.tb.ticks - x.mark - s.rdF .sdClk g 0 13 10) / 992) + b2n (!x.known)
  else x.bits

/-- A filter of input `i` is enabled. -/
def anyFilter (s : State) (i : Nat) : Bool := s.bit .sdFlt i 0 0 || s.bit .sdCflt i 0 0

/-- On an input clock a count of input `i` that begins now begins inside a run (R88). -/
def inRun (s : State) (i : Nat) : Option Nat := if s.bit .sdClk (i / 8) 0 1 then some s.tb.ticks else none

/-- The run of identical bits of input `i` after a write to its filters, one of which `was` enabled before (R89). -/
def runFollow (s : State) (i : Nat) (was : Bool) : State :=
  if anyFilter s i && was then s
  else s.setSd i { s.sd i with same := if anyFilter s i then some (s.sdg (i / 8)).bits else none, told := false, seen := 0,
                               level := none, sameAt := if anyFilter s i then inRun s i else none }

/-- A word over consecutive bits up to the `e`-th of the group shows where the present run of identical bits begins (R89). -/
def runSeen (s : State) (i e : Nat) (bits : List Bool) : State :=
  let x := s.sd i
  let r := bits.reverse
  let n := (r.takeWhile (some · == r.head?)).length
  let newer := decide (x.seen ≤ e)
  let lo := if n < bits.length || (newer && x.level.isSome && x.level != r.head?) then e - n else 0
  let moved := match x.same with | some c => decide (c < lo) | none => false
  s.setSd i { x with same := x.same.map (Nat.max · lo), told := x.told && !moved, seen := Nat.max x.seen e,
                     sameAt := if moved then none else x.sameAt, level := if newer then r.head? else x.level }

/-- The count of the group's bits at which the window of an event ends (R91), by the latest sampling instant of an output
clock, or the last known edge of an input clock. -/
def winEnd (s : State) (i : Nat) (w : SdWin) : Nat :=
  let g := i / 8
  let x := s.sdg g
  let (b, last) : Nat × Int :=
    if s.bit .sdClk g 0 1 then (x.bits + b2n x.due.isSome, 64 * (nowAt s x.mark - 3))
    else (x.bits, 64 * ((s.now.toNat : Int) - (s.now.toNat + sdDiv s g - sampleOfs s g) % sdDiv s g))
  ((b : Int) - 1 - (2 * last - (128 * w.tc + winSpan s i)).fdiv (2 * s.rdF .sdGstat g 0 12 0 : Nat)).toNat

/-- Two window centres lie within the same modulator period (R93): the same period of an output clock, or less than a
measured period apart (log entry 87). -/
def samePeriod (s : State) (i : Nat) (x y : Int) : Bool :=
  let g := i / 8
  if s.bit .sdClk g 0 1 then decide (64 * (y - x).natAbs < s.rdF .sdGstat g 0 12 0)
  else (x - (sdPhase s g : Int)).fdiv (sdDiv s g) == (y - (sdPhase s g : Int)).fdiv (sdDiv s g)

/-- The windows of input `i` that can still hold only bits from this tick on: while no bits come to its filter, the others begin
before the first bit of the filling that is to follow (R94). -/
def winsAhead (s : State) (i : Nat) (ws : List SdWin) : List SdWin :=
  if s.bit .sdFlt i 0 0 && bitsFlow s i then ws
  else ws.filter (fun w => decide (128 * ((s.now.toNat : Int) - stampLag s (i / 8)) ≤ 128 * w.tc - winSpan s i))

/-- The event of lane `n` opens a window on input `i`, if the input selects it; it replaces a waiting window of the same
modulator period (R91, R93). With a first word already ready it gives a second one (log entry 107). A window that lies ahead
waits also while no bits come (R94). -/
def openWin (s : State) (n i : Nat) : State :=
  if !s.bit .sdWin i 0 20 || s.rdF .sdWin i 0 7 0 != n || s.inRst 64 || s.dark then s
  else
    let te : Int := s.now.toNat
    let tc := te + (BitVec.ofNat 12 (s.rdF .sdWin i 0 19 8)).toInt
    let x := s.sd i
    let joins := match x.wins.getLast? with | some w => samePeriod s i w.tc tc | none => false
    s.setSd i { x with wins := winsAhead s i ((if joins then x.wins.dropLast else x.wins) ++ [⟨te, tc, joins⟩]) }

/-- The event of lane `n` as the centre of windows (R91). -/
def openWins (s : State) (n : Nat) : State := s.forN 192 (fun s i => openWin s n i)

/-- A main word of input `i` from its window's bits (R90, R92, R93). -/
def mainWord (s : State) (i : Nat) (bits : List Bool) (merged : Bool) : State :=
  let x := shiftInt (sincSum (mainOrder s i) (mainOsr s i) bits) (mainShift s i) - (s.rd .sdOfs i 0).toInt
  let y := sat32 x
  let s := s.wr .sdData i 0 (wdi y)
  let s := s.wrF .sdStat i 0 7 0 (s.rdF .sdStat i 0 7 0 + 1)
  let s := if x = y then s else s.setB .sdStat i 0 10
  let s := if merged then s.setB .sdStat i 0 9 else s
  sdReady (s.clrB .sdStat i 0 8) i

/-- SD_WORD_READY (R90–R94): the bits of a window. Free-running, the window that ends OSR bits after the one before, or once
the filter has filled; event-aligned, the oldest window that waits, once its ready tick has come, which is `merged` or not.
A window that begins before the first bit produces no word (R94). -/
def execSdWordReady (i : Fin 192) (bits : List Bool) (merged : Bool) (s : State) : Host.Outcome State Fault Refusal :=
  if !bitsFlow s i || !s.bit .sdFlt i 0 0 || bits.length != mainOrder s i * mainOsr s i then .next s
  else if !s.bit .sdWin i 0 20 then
    let x := s.sd i
    if merged || decide (bitsMay s (i / 8) < x.next) then .next s
    else .next (mainWord (runSeen (s.setSd i { x with next := x.next + mainOsr s i }) i x.next bits) i bits false)
  else match (s.sd i).wins.dropWhile (winEarly s i) with
    | [] => .next s
    | w :: ws =>
      if w.merged != merged || decide ((s.now.toNat : Int) < readyTick s i w) then .next s
      else .next (mainWord (runSeen (s.setSd i { s.sd i with wins := ws }) i (winEnd s i w) bits) i bits merged)

/-- A signed 20-bit threshold. -/
def thr (s : State) (r : Reg) (i : Nat) : Int := (BitVec.ofNat 20 (s.rdF r i 0 19 0)).toInt

/-- The judgement of coarse word `w` (R95): flags, consecutive counts, and the coarse source. -/
def coarseWord (s : State) (i : Nat) (w : Int) : State :=
  let hi := decide (thr s .sdChi i < w)
  let lo := decide (w < thr s .sdClo i)
  let s := s.wr .sdCdata i 0 (wdi w)
  let s := if hi then s.setB .sdStat i 0 12 else s
  let s := if lo then s.setB .sdStat i 0 13 else s
  let c := s.rdF .sdCflt i 0 13 10 + 1
  let x := s.sd i
  if hi || lo then
    let s := s.setSd i { x with beyond := Nat.min 16 (x.beyond + 1), within := 0 }
    if c ≤ x.beyond + 1 then setSource s (128 + i) true else s
  else
    let s := s.setSd i { x with beyond := 0, within := Nat.min 16 (x.within + 1) }
    if c ≤ x.within + 1 then setSource s (128 + i) false else s

/-- SD_COARSE_WORD (R95, R96): in the tick of its last bit, the first when the window is full and then every COSR bits. -/
def execSdCoarseWord (i : Fin 192) (bits : List Bool) (s : State) : Host.Outcome State Fault Refusal :=
  let n := coarseOrder s i
  let o := coarseOsr s i
  let x := s.sd i
  if !bitsFlow s i || !s.bit .sdCflt i 0 0 || bits.length != n * o || decide (bitsMay s (i / 8) < x.cnext) then .next s
  else .next (coarseWord (runSeen (s.setSd i { x with cnext := x.cnext + o }) i x.cnext bits) i (sincSum n o bits))

/-- The present run of identical bits of input `i` has reached 256, as far as the count and the words tell (R89). -/
def stuckDue (s : State) (i : Nat) : Bool :=
  match (s.sd i).same with
  | some c => decide (c + 256 ≤ bitsMay s (i / 8)) && !(s.sd i).told
  | none => false

/-- SD_STUCK (R89): in the tick of the 256th bit, once in a run. -/
def execSdStuck (i : Fin 192) (s : State) : Host.Outcome State Fault Refusal :=
  if bitsFlow s i && anyFilter s i && stuckDue s i then
    .next ((s.setSd i { s.sd i with told := true }).setB .sdStat i 0 11)
  else .next s

/-! ### Clocks and filling -/

/-- Input `i` fills if its main filter is enabled (R94): the next bit is the first, only windows wholly after it wait on, and a
free-running word is complete N × OSR bits on. -/
def refill (s : State) (i : Nat) : State :=
  let n := (s.sdg (i / 8)).bits + mainOrder s i * mainOsr s i
  let s := s.setSd i { s.sd i with begun := s.tb.ticks, first := none, next := n, nextAt := inRun s i }
  (s.setSd i { s.sd i with wins := (s.sd i).wins.filter (!winEarly s i ·) }).wrB .sdStat i 0 8 (s.bit .sdFlt i 0 0)

/-- The coarse filter's word phase restarts, its first word complete (CORDER + 1) × COSR bits on (R95), and with it the counts
of consecutive words (log entry 88). -/
def coarseStart (s : State) (i : Nat) : State :=
  s.setSd i { s.sd i with
    beyond := 0, within := 0, cnext := (s.sdg (i / 8)).bits + coarseOrder s i * coarseOsr s i, cnextAt := inRun s i }

/-- An input clock that the group accepts. -/
def clkIn (s : State) (g : Nat) : Bool := s.bit .sdClk g 0 0 && s.bit .sdClk g 0 1 && !s.inRst 64 && !s.dark

/-- Group `g` enters clock error (R88), unless it is in one; no run of 8 periods in range has been measured since. `edge`: it has an
edge in this tick. -/
def clockError (s : State) (g : Nat) (edge : Bool) : State :=
  let s := s.setSdg g { s.sdg g with mark := s.tb.ticks, known := edge, due := none, ok := false }
  if s.bit .sdGstat g 0 14 then s
  else
    let s := ((s.setB .sdGstat g 0 14).setB .sdGstat g 0 15).clrB .sdGstat g 0 13
    groupInputs s g (fun s i =>
      let s := coarseStart (s.setB .sdStat i 0 15) i
      if s.bit .sdCflt i 0 14 && s.bit .sdCflt i 0 0 then setSource s (128 + i) true else s)

/-- SD_CLOCK_LOSS (R88): no edge for 400 ticks. -/
def execSdClockLoss (g : Fin 24) (s : State) : Host.Outcome State Fault Refusal :=
  if !clkIn s g || !s.timeOk || decide (s.tb.ticks < (s.sdg g).mark + 400) then .next s else .next (clockError s g false)

/-- A measured period within 15.50–82.00 ticks (R88), in fine steps. -/
def periodOk (p : Nat) : Bool := decide (992 ≤ p) && decide (p ≤ 5248)

/-- A run of 8 periods of `p` fine steps ends at this edge (R88): the bits of its edges before this one have been sampled, that of
this one comes DLY ticks on, and the next run begins. A first run begins at an edge of its own. In clock error one in range lets
the group recover. -/
def sdRun (s : State) (g p : Nat) : State :=
  let n := if (s.sdg g).known then 7 else 8
  let s := runBits s g n (64 * ((s.now.toNat : Int) - 3) - n * p) p
  sdBit (s.setSdg g { s.sdg g with
    mark := s.tb.ticks, known := true, due := some (s.tb.ticks + s.rdF .sdClk g 0 13 10), ok := s.bit .sdGstat g 0 14 }) g

/-- Eight periods of `p` fine steps, to within a tick, have gone by since the last known edge or the enable (R88). -/
def runOver (s : State) (g p : Nat) : Bool := decide (8 * p ≤ 64 * (s.tb.ticks - (s.sdg g).mark + 1))

/-- SD_PERIOD_MEASURED (R88): at the edge, of those that EDGE selects, that ends a run of 8 periods, the measured period in fine
steps; one out of range is a clock error. -/
def execSdPeriodMeasured (g : Fin 24) (period : BitVec 13) (s : State) : Host.Outcome State Fault Refusal :=
  if !clkIn s g || !s.timeOk || !runOver s g period.toNat then .next s
  else
    let s := s.wrF .sdGstat g 0 12 0 period.toNat
    if periodOk period.toNat then .next (sdRun (s.wrB .sdGstat g 0 13 (!s.bit .sdGstat g 0 14)) g period.toNat)
    else .next (clockError s g true)

/-- SD_CLOCK_RECOVER (R88): eight consecutive periods have measured in range. -/
def execSdClockRecover (g : Fin 24) (s : State) : Host.Outcome State Fault Refusal :=
  if !clkIn s g || !s.timeOk || !s.bit .sdGstat g 0 14 || !(s.sdg g).ok then .next s
  else
    let s := (s.setSdg g { s.sdg g with ok := false }).clrB .sdGstat g 0 14
    let s := s.setB .sdGstat g 0 13
    .next (groupInputs s g (fun s i => coarseStart (refill (s.clrB .sdStat i 0 15) i) i))

/-- A write to SD_CLK[g] (R85, R88, R94): EN needs an accepted descriptor; the other fields but IE keep while EN is 1; a
clear of EN ends a clock error, a set starts filling. -/
def wrSdClk (s : State) (g : Nat) (v : Word) : State :=
  s.gate .sdClk g fun s =>
    let old := s.rd .sdClk g 0
    let en := bitOf old 0
    let v := if s.acc then v else setBit v 0 en
    let v := if en then setFld v 20 1 (fld old 20 1) else v
    let s := s.wrCodes .sdClk g 0 v
    let new := bitOf v 0
    if en && !new then
      let s := s.wrF .sdGstat g 0 14 0 0
      groupInputs s g (fun s i => s.clrB .sdStat i 0 15)
    else if !en && new then
      let s := if bitOf v 1 then s
        else s.wrF .sdGstat g 0 14 0 (64 * effDiv (fld v 8 2) + 2 ^ 13)
      let s := s.setSdg g { s.sdg g with mark := s.tb.ticks, known := false, due := none, ok := false }
      groupInputs s g (fun s i => coarseStart (refill s i) i)
    else s

/-- SD_CLK_WRITE (R87, R88, R94). -/
def execSdClkWrite (g : Fin 24) (v : Word) (s : State) : Host.Outcome State Fault Refusal := .next (wrSdClk s g v)

/-- A write to SD_FLT[i] (R85, R94). -/
def wrSdFlt (s : State) (i : Nat) (v : Word) : State :=
  s.gate .sdFlt i fun s =>
    let old := s.rd .sdFlt i 0
    let en := bitOf old 0
    let v := if s.acc then v else setBit v 0 en
    let v := if en then setFld v 18 1 (fld old 18 1) else v
    let was := anyFilter s i
    let s := runFollow (s.wrCodes .sdFlt i 0 v) i was
    if bitOf v 0 = en then s else refill s i

/-- SD_FLT_WRITE (R94). -/
def execSdFltWrite (i : Fin 192) (v : Word) (s : State) : Host.Outcome State Fault Refusal := .next (wrSdFlt s i v)

/-- A write to SD_WIN[i] (R94): a change of MODE or LANE starts filling, and the windows of the lane before are no longer
wanted (R91). -/
def wrSdWin (s : State) (i : Nat) (v : Word) : State :=
  s.gate .sdWin i fun s =>
    let old := s.rd .sdWin i 0
    let s := s.wrCodes .sdWin i 0 v
    if fld old 7 0 ≠ fld v 7 0 ∨ bitOf old 20 ≠ bitOf v 20 then refill (s.setSd i { s.sd i with wins := [] }) i else s

/-- SD_WIN_WRITE (R94). -/
def execSdWinWrite (i : Fin 192) (v : Word) (s : State) : Host.Outcome State Fault Refusal := .next (wrSdWin s i v)

/-- A write to SD_CFLT[i] (R85, R95): CEN restarts the word phase, or at 0 deasserts the source. CEN or LOSSTRIP written 1 in
a clock error that lasts asserts nothing (log entry 106). -/
def wrSdCflt (s : State) (i : Nat) (v : Word) : State :=
  s.gate .sdCflt i fun s =>
    let old := s.rd .sdCflt i 0
    let en := bitOf old 0
    let v := if s.acc then v else setBit v 0 en
    let v := if en then setFld v 9 1 (fld old 9 1) else v
    let was := anyFilter s i
    let s := runFollow (s.wrCodes .sdCflt i 0 v) i was
    if !en && bitOf v 0 then coarseStart s i
    else if bitOf v 0 then s
    else setSource s (128 + i) false

/-- SD_CFLT_WRITE (R95). -/
def execSdCfltWrite (i : Fin 192) (v : Word) (s : State) : Host.Outcome State Fault Refusal := .next (wrSdCflt s i v)

/-- Sensing enters a per-function reset (R97): enabled coarse sources are held asserted. -/
def resetSensing (s : State) : State :=
  let live := (List.range 192).filter (fun i => s.bit .sdCflt i 0 0)
  let s : State := { s with regs := s.regs.filter (fun e => !(0x61000000 ≤ e.1 && e.1 < 0x61004180)), sds := [], sdgs := [] }
  s.forN 192 (fun s i => setSource s (128 + i) (decide (i ∈ live)))

/-- The reset of sensing ends (R97). -/
def resetSensingEnd (s : State) : State := s.forN 192 (fun s i => setSource s (128 + i) false)

/-! ### General converters -/

/-- A converter runs: enabled, ticks run, not in reset, VDD_ANA above its reset level (R99, R313). -/
def adOn (s : State) (k : Nat) : Bool :=
  s.bit .adCtl k 0 0 && s.timeOk && !s.inRst 65 && !s.dark && !tget (fun _ => false) s.fm.down 4

/-- The tick at which the conversion of step `st` ends whose acquisition begins at tick `t` (R99): ACQ ticks, at least 24, and
56 more. -/
def adEnd (s : State) (k st t : Nat) : Nat := t + Nat.max 24 (s.rdF .adSeq k st 9 2) + 56

/-- A sequence starts at step 0, whose acquisition begins at tick `t` (R99). -/
def adStart (s : State) (k t : Nat) : State :=
  (s.setAd k { s.ad k with step := 0, endAt := adEnd s k 0 t }).setB .adStat k 0 0

/-- A trigger of converter `k` in tick `t`; triggers of one tick count as one (R100). The acquisition of step 0 begins 2 ticks
later (R99). -/
def adTrig (s : State) (k t : Nat) : State :=
  if !adOn s k || (s.ad k).last == some t then s
  else
    let s := s.setAd k { s.ad k with last := some t }
    if !s.bit .adStat k 0 0 then adStart s k (t + 2)
    else if s.bit .adCtl k 0 4 then s
    else if !s.bit .adStat k 0 1 then s.setB .adStat k 0 1
    else s.incF .adStat k 0 9 2

/-- AD_TRIGGER (R100): the oldest trigger noted of the source that AD_TRIG selects. -/
def execAdTrigger (k : Fin 16) (s : State) : Host.Outcome State Fault Refusal :=
  match (s.ad k).due with
  | [] => .next s
  | t :: ts => .next (adTrig (s.setAd k { s.ad k with due := ts }) k t)

/-- The code of an input of `uv` µV (R98): rounded to the nearest, clamped to 0–4,095. An exact half goes up, and a VREF of 0
gives 4,095 (log entry 108). -/
def adCode (s : State) (uv : Nat) : Nat :=
  if s.fm.vrefUv = 0 then 4095 else Nat.min 4095 ((2 * 4096 * uv + s.fm.vrefUv) / (2 * s.fm.vrefUv))

/-- The sequence of converter `k` is over at tick `t`: with CONT step 0 follows directly, else a pending trigger starts the next
in that tick (R100), like any trigger (log entry 110). -/
def adNext (s : State) (k t : Nat) (cont : Bool) : State :=
  if cont then adStart s k t
  else if s.bit .adStat k 0 1 then adStart (s.clrB .adStat k 0 1) k (t + 2)
  else (s.clrB .adStat k 0 0).setAd k { s.ad k with step := 0 }

/-- AD_STEP_END (R98–R101): the step's conversion has ended; its result, its copy, and the next step, whose acquisition begins
in the same tick, or the end of the sequence. AD_RES.SEQ counts the sequences completed before this one (log entry 109). A
sequence during which EN was cleared stops here without DONE; its last step goes by AD_SEQ, AD_DST and DSTEN as they stand now
(DESIGN CHOICE, log entry 124). -/
def execAdStepEnd (k : Fin 16) (uv : Nat) (s : State) : Host.Outcome State Fault Refusal :=
  let k : Nat := k
  if !s.bit .adStat k 0 0 || s.inRst 65 || !s.timeOk || s.dark || tget (fun _ => false) s.fm.down 4 ||
      decide (s.tb.ticks < (s.ad k).endAt) then .next s
  else
    let x := s.ad k
    let st := x.step
    let w := wd (adCode s uv + 2 ^ 12 * s.rdF .adSeq k st 1 0 + 2 ^ 16 * x.seqs.toNat + 2 ^ 31)
    let s := s.wr .adRes k st w
    let s := if s.bit .adCtl k 0 6 then
        let a := 4 * (s.rdF .adDst k 0 21 6 + st) % 0x40000
        writeMem s unitWho (0x10000000 + 0x40000 * s.rdF .adDst k 0 5 0 + a) (wordBytes w false)
      else s
    if x.stop then .next (adNext (s.setAd k { x with stop := false }) k x.endAt false)
    else if st < s.rdF .adCtl k 0 3 1 then
      .next (s.setAd k { x with step := st + 1, endAt := adEnd s k (st + 1) x.endAt })
    else
      let s := (s.setAd k { x with seqs := x.seqs + 1 }).setB .adStat k 0 10
      .next (adNext (adDone s k) k x.endAt (s.bit .adCtl k 0 4))

/-- A write to AD_CTL[k] (R85, R100, R101): EN needs an accepted descriptor, LEN, CONT and DSTEN keep while EN is 1, a
clear of EN drops the pending triggers and stops a running sequence after its step; SWTRIG is a trigger. -/
def wrAdCtl (s : State) (k : Nat) (v : Word) : State :=
  s.gate .adCtl k fun s =>
    let old := s.rd .adCtl k 0
    let en := bitOf old 0
    let w := if s.acc then v else setBit v 0 en
    let w := if en then setBit (setFld w 4 1 (fld old 4 1)) 6 (bitOf old 6) else w
    let s := s.wrCodes .adCtl k 0 w
    let s := if bitOf w 0 then s
      else (s.clrB .adStat k 0 1).setAd k { s.ad k with due := [], stop := (s.ad k).stop || s.bit .adStat k 0 0 }
    if bitOf v 7 then adTrig s k s.tb.ticks else s

/-- AD_SWTRIG: a write to AD_CTL with SWTRIG at 1 (R100). -/
def execAdSwtrig (k : Fin 16) (v : Word) (s : State) : Host.Outcome State Fault Refusal :=
  .next (wrAdCtl s k (setBit v 7 true))

/-- AD_CTL_WRITE (R101). -/
def execAdCtlWrite (k : Fin 16) (v : Word) (s : State) : Host.Outcome State Fault Refusal := .next (wrAdCtl s k v)

/-- Writes to AD_SEQ, AD_DST and AD_TRIG are ignored while EN is 1 (R101). -/
def wrAdCfg (s : State) (r : Reg) (k j : Nat) (v : Word) : State :=
  s.gate r k fun s => if s.bit .adCtl k 0 0 then s else s.wrCodes r k j v

/-- A write to AD_STAT[k]: CLROVR sets TOVR to 0. -/
def wrAdStat (s : State) (k : Nat) (v : Word) : State :=
  s.gate .adStat k fun s => (s.wrCodes .adStat k 0 v).when (bitOf v 16) (·.wrF .adStat k 0 9 2 0)

/-- AD_CLROVR: a write to AD_STAT with CLROVR at 1 (R100). -/
def execAdClrovr (k : Fin 16) (v : Word) (s : State) : Host.Outcome State Fault Refusal :=
  .next (wrAdStat s k (setBit v 16 true))

/-- A read of AD_RES[k,j]: the word, and NEW cleared (R99). -/
def readAdRes (s : State) (k j : Nat) : Word × State := (s.rd .adRes k j, s.clrB .adRes k j 31)

/-- AD_RES_READ (R99). -/
def execAdResRead (who : Requester) (k : Fin 16) (st : Fin 8) (s : State) : Host.Outcome State Fault Refusal :=
  let (w, s1) := readAdRes s k st
  .next (s1.answer (reqNum who) w)

/-- A reset of the converters (R322): sequences stop and pending triggers are dropped. -/
def resetAd (s : State) : State :=
  { s with regs := s.regs.filter (fun e => !(0x6D000000 ≤ e.1 && e.1 < 0x6D001000)), ads := [] }

end Sys2Proof.Machine
end

