-- ==== Sys2Proof/Machine/LaneEvents.lean ====
section
/-! DEFINITION. Lane events (R61, R62), writes to lane registers, and a commit's registration at the lanes (R69–R73). -/

namespace Sys2Proof.Machine

/-- Enable bit of an event kind in LN_EVT. -/
def evBit : LaneEv → Nat
  | .zero => 24
  | .top => 25
  | .cmp => 26

/-- A lane's event is emitted (R61): encoder ports latch on it, windows of sensing inputs open, capture channels and
converters note it, and rows open activations on it. -/
def emitLane (s : State) (n : Nat) : State := dumpEvent (laneTrigger ((openWins (laneLatch s n) n).event (.lane n)) n) 1 n

/-- The counter of lane `n`'s trio produces a candidate of this kind in the first tick of the present count unit (R61). A
CMPV above the counter's highest value never fires; in the tick of a boundary the new period produces its events. -/
def produces (s : State) (n : Nat) (kind : LaneEv) : Bool :=
  let t := n / 3
  let cnt := s.rdF .lnCnt (3 * t) 0 23 0
  let down := s.bit .lnCnt (3 * t) 0 24
  let ud := upDown s t
  let per := trioPer s t
  let v := s.rdF .lnEvt n 0 23 0
  let top := if ud then per else per - 1
  (s.trio t).phase == 0 && !atBoundary s t && match kind with
    | .zero => cnt == 0 && !down
    | .top => cnt == top
    | .cmp => cnt == v && decide (v ≤ top) && (!ud || !down || v == per || s.bit .lnEvt n 0 27)

/-- A candidate of lane `n` (R61): its prescaler counts it, and the PRE + 1-th is the lane's event. -/
def candidate (s : State) (n : Nat) (kind : LaneEv) : State :=
  if !s.counts (n / 3) || !s.bit .lnEvt n 0 (evBit kind) then s
  else
    let s := noteEv s n [kind]
    let l := s.lane n
    if s.rdF .lnEvt n 0 31 28 ≤ l.evCnt then emitLane (s.setLane n { l with evCnt := 0 }) n
    else s.setLane n { l with evCnt := l.evCnt + 1 }

/-- LANE_EVENT (R61): in the count unit whose count and direction produce the kind, once. -/
def execLaneEvent (n : Fin 192) (kind : LaneEv) (s : State) : Host.Outcome State Fault Refusal :=
  .next (if produces s n kind && !evFired s n kind then candidate s n kind else s)

/-- A CMPV written while the counter has already passed it in the present period fires at once (R62); in the tick of a
boundary nothing of the new period has been passed. -/
def cmpPassed (s : State) (n : Nat) : Bool :=
  let t := n / 3
  let cnt := s.rdF .lnCnt (3 * t) 0 23 0
  let down := s.bit .lnCnt (3 * t) 0 24
  let v := s.rdF .lnEvt n 0 23 0
  let ud := upDown s t
  let top := if ud then trioPer s t else trioPer s t - 1
  s.counts t && !atBoundary s t && decide (v ≤ top) &&
    (if ud && down then decide (cnt ≤ v) && (s.bit .lnEvt n 0 27 || (cnt == v && v == top)) else decide (v ≤ cnt))

/-- A write to LN_EVT[n] (R61, R62): the prescaler restarts. A match at the present count that has fired does not fire again. -/
def wrLnEvt (s : State) (n : Nat) (v : Word) : State :=
  s.gate .lnEvt n fun s =>
    let s := s.wrCodes .lnEvt n 0 v
    let s := s.setLane n { s.lane n with evCnt := 0 }
    let again := evFired s n .cmp && s.rdF .lnCnt (n / 3 * 3) 0 23 0 == s.rdF .lnEvt n 0 23 0
    if cmpPassed s n && !again then candidate s n .cmp else s

/-- LN_EVT_WRITE (R61, R62). -/
def execLnEvtWrite (n : Fin 192) (v : Word) (s : State) : Host.Outcome State Fault Refusal := .next (wrLnEvt s n v)

/-- A write to a lane register (R57, R58). -/
def wrLane (s : State) (r : Reg) (n : Nat) (v : Word) : State :=
  match r with
  | .lnCtl => wrLnCtl s n v
  | .lnEvt => wrLnEvt s n v
  | .lnOvr => wrLnOvr s n v
  | .lnCommit => s.gate .lnCommit n (lnCommit · n v)
  | r => wrLanePlain s r n v

/-- A staged store reaches its lane register (R187). -/
def stagedStore (s : State) (addr : Nat) (v : Word) : State :=
  match regAt addr with
  | some (r, n, _) => if r.info.base < 0x61000000 && 0x60000000 ≤ r.info.base then wrLane s r n v else s
  | none => s

/-- COMMIT_REGISTER (R17, R69–R73, R187): at a tick boundary the oldest commit on its way writes its staged stores and
moves the shadows of its lanes; turn-points and boundaries that an immediate period produces emit their events. Without
ticks it stays on its way (R36). -/
def execCommitRegister (s : State) : Host.Outcome State Fault Refusal :=
  match s.timeOk, s.commits with
  | false, _ => .next s
  | true, [] => .next s
  | true, c :: rest =>
    let s : State := { s with commits := rest }
    let s := c.stores.foldl (fun s p => stagedStore s p.1 p.2) s
    let (s, tops, zeros) := commitLanes s c.lanes
    let s := tops.foldl (fun s t => s.forN 3 (fun s j => candidate s (3 * t + j) .top)) s
    .next (zeros.foldl (fun s t => s.forN 3 (fun s j => candidate s (3 * t + j) .zero)) s)

end Sys2Proof.Machine
end

