-- ==== Sys2Proof/Machine/Timers.lean ====
section
/-! DEFINITION. General timers (R47–R56): counting, wraps, compares, links and captures. -/

namespace Sys2Proof.Machine

/-- GT_CTL.EN and GT_CNT. -/
def gtEn (s : State) (t : Nat) : Bool := s.bit .gtCtl t 0 0
def gtCnt (s : State) (t : Nat) : Nat := (s.rd .gtCnt t 0).toNat

/-- The period in force (R48). -/
def gtPer (s : State) (t : Nat) : Nat := (s.timer t).per.toNat

/-- Timer `t` has a valid link: its master, mode and event selection (R51, R52). -/
def gtLink (s : State) (t : Nat) : Option (Nat × Nat × Nat) :=
  let src := s.rdF .gtLink t 0 3 0
  let mode := s.rdF .gtLink t 0 6 4
  let sev := s.rdF .gtLink t 0 10 8
  if mode = 0 || 5 ≤ mode || t ≤ src || (mode ≠ 3 && 5 ≤ sev) then none else some (src, mode, sev)

/-- GT_LINK selects an invalid link (GT_STAT.LINKERR, R51, R52). -/
def gtLinkErr (s : State) (t : Nat) : Bool := s.rdF .gtLink t 0 6 4 ≠ 0 && (gtLink s t).isNone

/-- The timer is in a count unit (R47, R52): enabled, ticks run, and a gating master's level is 1. -/
def gtUnits (s : State) (t : Nat) : Bool :=
  gtEn s t && s.timeOk && match gtLink s t with
    | some (m, 1, sev) => if sev = 4 then gtEn s m else (s.chan m sev).level
    | _ => true

/-- Timer `t` counts its master's wraps (R52). -/
def gtClocked (s : State) (t : Nat) : Bool :=
  match gtLink s t with | some (_, 3, _) => true | _ => false

/-- The timer's own prescaler counts now (R47, R52). -/
def gtCounting (s : State) (t : Nat) : Bool := gtUnits s t && !gtClocked s t

/-- Every channel of a timer. -/
def gtChans (s : State) (t : Nat) (f : ChanS → ChanS) : State := s.forN 4 (fun s c => s.setChan t c (f (s.chan t c)))

/-- The counter takes a value, and no wrap is due: a compare may match again, but not one that a write has fired since the
last wrap (R50). -/
def gtSetCnt (s : State) (t n : Nat) : State :=
  ((gtChans s t (fun c => { c with fired := false })).setTimer t { s.timer t with wrapDue := false }).wr .gtCnt t 0 (wd n)

/-- Counter and prescaler go to 0 (R47, R52). -/
def gtReset (s : State) (t : Nat) : State := (gtSetCnt s t 0).setTimer t { s.timer t with phase := 0 }

/-- EN becomes 1; the prescaler phase restarts when it was 0 (R47, R52). -/
def gtStart (s : State) (t : Nat) : State :=
  if gtEn s t then s else (s.setB .gtCtl t 0 0).setTimer t { s.timer t with phase := 0, wrapDue := false }

/-- The counter wraps to 0 (R47–R49): WRAP, the written period, one-shot, output levels. -/
def gtWrapSelf (s : State) (t : Nat) : State :=
  let s := gtChans ((gtReset s t).setB .gtStat t 0 0) t (fun c => { c with level := false, passed := false })
  let s := s.setTimer t { s.timer t with per := s.rd .gtPer t 0 }
  dumpEvent ((s.when (s.bit .gtCtl t 0 1) (·.clrB .gtCtl t 0 0)).event (.wrap t)) 3 t

/-- GT_LINK_ACTION (R52): event `e` of timer `t` (0–3 a compare match, 4 its wrap) acts on every slave, and the wrap
of a clocked slave on its own slaves. Links run downwards, so 16 levels are enough (R51). -/
def gtLinks : Nat → State → Nat → Nat → State
  | 0, s, _, _ => s
  | f + 1, s, t, e =>
    s.forN 16 (fun s u =>
      match gtLink s u with
      | some (m, 2, sev) => if m = t ∧ sev = e then gtReset s u else s
      | some (m, 3, _) =>
        if m = t ∧ e = 4 ∧ gtEn s u then
          if gtPer s u ≤ gtCnt s u then gtLinks f (gtWrapSelf s u) u 4 else gtSetCnt s u (gtCnt s u + 1)
        else s
      | some (m, 4, sev) => if m = t ∧ sev = e then gtStart s u else s
      | _ => s)

/-- A wrap of timer `t` with its link actions. -/
def gtWrap (s : State) (t : Nat) : State := gtLinks 16 (gtWrapSelf s t) t 4

/-- GT_WRAP (R47, R48, R52): once a count unit of the timer's own is over with the counter at or above the period. A
clock-linked timer wraps with its master. -/
def execGtWrap (t : Fin 16) (s : State) : Host.Outcome State Fault Refusal :=
  if gtCounting s t && (s.timer t).wrapDue && decide (gtPer s t ≤ gtCnt s t) then .next (gtWrap s t) else .next s

/-- Channel `c` compares: mode 1, or mode 3 while armed (R49, R50). -/
def gtCompares (s : State) (t c : Nat) : Bool :=
  let m := s.rdF .gtCcfg t c 1 0
  m == 1 || (m == 3 && (s.chan t c).armed)

/-- A compare match (R49): CMPF, the output level, row triggers (R180), events and links; mode 3 disarms (R50). -/
def gtFire (s : State) (t c : Nat) : State :=
  let ch := s.chan t c
  let s := s.setChan t c { ch with fired := true, armed := ch.armed && s.rdF .gtCcfg t c 1 0 != 3, level := true }
  let s := dumpEvent ((s.setB .gtCst t c 10).event (.compare (4 * t + c))) 2 (4 * t + c)
  gtLinks 16 (triggers s 3 (fun _ i => i == 4 * t + c)) t c

/-- A match is due: in a count unit the counter equals GT_CMP, not above the period; the channel has not matched at this
count, and no write to GT_CMP has fired it since the last wrap (R49, R50). -/
def gtDue (s : State) (t c : Nat) : Bool :=
  gtUnits s t && gtCompares s t c && !(s.chan t c).fired && !(s.chan t c).passed && decide (s.rd .gtCmp t c = s.rd .gtCnt t 0) &&
    decide ((s.rd .gtCmp t c).toNat ≤ gtPer s t)

/-- GT_COMPARE_MATCH (R49, R52). -/
def execGtCompareMatch (t : Fin 16) (c : Fin 4) (s : State) : Host.Outcome State Fault Refusal :=
  if gtDue s t c then .next (gtFire s t c) else .next s

/-- A write to GT_PER[t] (R48). -/
def wrGtPer (s : State) (t : Nat) (v : Word) : State :=
  s.gate .gtPer t fun s =>
    let s := s.wrCodes .gtPer t 0 v
    if s.bit .gtCtl t 0 6 then s
    else (s.setTimer t { s.timer t with per := v }).when (decide (v.toNat < gtCnt s t)) (·.setB .gtStat t 0 2)

/-- GT_PER_WRITE (R48). -/
def execGtPerWrite (t : Fin 16) (v : Word) (s : State) : Host.Outcome State Fault Refusal := .next (wrGtPer s t v)

/-- A write to GT_CMP[t,c] (R50): it arms mode 3, and fires at once on a value passed or equal. While the timers are frozen
a passed value fires neither then nor later (log entry 83). -/
def wrGtCmp (s : State) (t c : Nat) (v : Word) : State :=
  s.gate .gtCmp t fun s =>
    let s := s.wrCodes .gtCmp t c v
    let s := s.setChan t c { s.chan t c with armed := true, fired := false, passed := false }
    if s.timeOk && gtCompares s t c && decide (v.toNat ≤ gtCnt s t) && decide (v.toNat ≤ gtPer s t) then
      gtFire (s.setChan t c { s.chan t c with passed := decide (v.toNat < gtCnt s t) }) t c
    else s

/-- GT_CMP_WRITE (R50). -/
def execGtCmpWrite (t : Fin 16) (c : Fin 4) (v : Word) (s : State) : Host.Outcome State Fault Refusal :=
  .next (wrGtCmp s t c v)

/-- A write to GT_CTL[t] (R47): the prescaler phase restarts when EN goes from 0 to 1; SWRST acts last. -/
def wrGtCtl (s : State) (t : Nat) (v : Word) : State :=
  s.gate .gtCtl t fun s =>
    let s' := s.wrCodes .gtCtl t 0 v
    let s' := s'.when (!gtEn s t && bitOf v 0) (fun s => s.setTimer t { s.timer t with phase := 0, wrapDue := false })
    s'.when (bitOf v 7) (gtReset · t)

/-- GT_SWRST: a write to GT_CTL with SWRST at 1. -/
def execGtSwrst (t : Fin 16) (v : Word) (s : State) : Host.Outcome State Fault Refusal :=
  .next (wrGtCtl s t (setBit v 7 true))

/-- A write to GT_CNT[t] sets the count. -/
def wrGtCnt (s : State) (t : Nat) (v : Word) : State := s.gate .gtCnt t (gtSetCnt · t v.toNat)

/-- Capture of the TB_NOW value `x` (R53–R55): into GT_CAPL and GT_CAPH, into the pending slot while a read is open,
or an overrun with its event while the slot is full (R220). -/
def gtTake (s : State) (t c : Nat) (x : BitVec 64) : State :=
  let ch := s.chan t c
  if ch.pend.isSome then (s.incF .gtCst t c 9 2).when (s.bit .gtCcfg t c 18) (·.irqEdge (906 + 4 * t + c))
  else if ch.opens ≠ [] then (s.setChan t c { ch with pend := some x }).setB .gtCst t c 1
  else ((s.wr .gtCapl t c (x.truncate 32)).wr .gtCaph t c ((x >>> 32).truncate 32)).setB .gtCst t c 0

/-- The oldest source event that the channel has noted is captured, if there is one (R53); while the timers are frozen
captures are held (R41). -/
def gtCaptureDue (s : State) (t c : Nat) : State :=
  match s.timeOk, (s.chan t c).due with
  | true, x :: xs => gtTake (s.setChan t c { s.chan t c with due := xs }) t c x
  | _, _ => s

/-- GT_CAPTURE (R53–R55): the oldest event noted of the channel's source. For the WAKE pin, whose edges no other command
brings, the command is the edge, `rising` or falling. -/
def execGtCapture (t : Fin 16) (c : Fin 4) (s : State) (rising : Bool := true) : Host.Outcome State Fault Refusal :=
  if s.timeOk && capSelects s t c (.wake rising) then .next (gtTake s t c (capTime s (.wake rising)))
  else .next (gtCaptureDue s t c)

/-- A write to GT_CST[t,c] (R53, R55): CMPF, CLROVR, then SWCAP. -/
def wrGtCst (s : State) (t c : Nat) (v : Word) : State :=
  s.gate .gtCst t fun s =>
    let s := s.wrCodes .gtCst t c v
    let s := s.when (bitOf v 16) (·.wrF .gtCst t c 9 2 0)
    s.when (bitOf v 17 && s.timeOk && s.rdF .gtCcfg t c 7 0 == 2) (fun s => gtTake s t c s.now)

/-- GT_SWCAP: a write to GT_CST with SWCAP at 1 (R53). -/
def execGtSwcap (t : Fin 16) (c : Fin 4) (v : Word) (s : State) : Host.Outcome State Fault Refusal :=
  .next (wrGtCst s t c (setBit v 17 true))

/-- GT_CLROVR: a write to GT_CST with CLROVR at 1 (R55). -/
def execGtClrovr (t : Fin 16) (c : Fin 4) (v : Word) (s : State) : Host.Outcome State Fault Refusal :=
  .next (wrGtCst s t c (setBit v 16 true))

/-- A read of GT_CAPL[t,c] by requester `who` (R54, R56): every event that the channel has noted is captured first, then the
pending value moves in, the read opens at this tick and the high word is latched. The debug port (517) neither opens nor
moves. -/
def readGtCapl (s : State) (who t c : Nat) : Word × State :=
  let s := s.forN (s.chan t c).due.length (fun s _ => gtCaptureDue s t c)
  if who = 517 then (s.rd .gtCapl t c, s.clrB .gtCst t c 0)
  else
    let ch := s.chan t c
    let s := match ch.pend with
      | some x => ((s.wr .gtCapl t c (x.truncate 32)).wr .gtCaph t c ((x >>> 32).truncate 32)).clrB .gtCst t c 1
      | none => s
    let latch := tput (fun _ => 0) ch.latch who (s.rd .gtCaph t c)
    let s := s.setChan t c { ch with pend := none, opens := (who, s.tb.ticks) :: ch.opens.filter (·.1 != who), latch := latch }
    (s.rd .gtCapl t c, s.clrB .gtCst t c 0)

/-- A requester's open read closes (R54). -/
def gtClose (s : State) (who t c : Nat) : State :=
  s.setChan t c { s.chan t c with opens := (s.chan t c).opens.filter (·.1 != who) }

/-- A read of GT_CAPH[t,c] by `who` (R54, R56). -/
def readGtCaph (s : State) (who t c : Nat) : Word × State :=
  if who = 517 then (s.rd .gtCaph t c, s) else (tget (fun _ => 0) (s.chan t c).latch who, gtClose s who t c)

/-- GT_CAPL_READ (R54, R56). -/
def execGtCaplRead (who : Requester) (t : Fin 16) (c : Fin 4) (s : State) : Host.Outcome State Fault Refusal :=
  let (w, s) := readGtCapl s (reqNum who) t c
  .next (s.answer (reqNum who) w)

/-- GT_CAPH_READ (R54). -/
def execGtCaphRead (who : Requester) (t : Fin 16) (c : Fin 4) (s : State) : Host.Outcome State Fault Refusal :=
  let (w, s) := readGtCaph s (reqNum who) t c
  .next (s.answer (reqNum who) w)

/-- Requester `who` has held a read open for 1,024 ticks (R54). -/
def gtOpenLong (s : State) (who t c : Nat) : Bool :=
  (s.chan t c).opens.any (fun o => o.1 == who && decide (o.2 + 1024 ≤ s.tb.ticks))

/-- GT_READ_TIMEOUT (R54): 1,024 ticks after the read opened. -/
def execGtReadTimeout (who : Requester) (t : Fin 16) (c : Fin 4) (s : State) : Host.Outcome State Fault Refusal :=
  .next (s.when (gtOpenLong s (reqNum who) t c) (gtClose · (reqNum who) t c))

/-- GT_STAT as read. -/
def readGtStat (s : State) (t : Nat) : Word := setBit (s.rd .gtStat t 0) 1 (gtLinkErr s t)

end Sys2Proof.Machine
end

