-- ==== Sys2Proof/Machine/Timebase.lean ====
section
/-! DEFINITION. The timebase (R36–R46): lock, low-frequency time, the low-frequency source, alignment. -/

namespace Sys2Proof.Machine

/-- A wake event in Hold, or latched during its entry (R309, R310); the first one counts. -/
def noteWake (s : State) (src : Nat) : State :=
  if (s.fm.power == .hold || s.fm.power == .enteringHold) && s.fm.wake == 0 then
    { s with fm := { s.fm with wake := src } }
  else s

/-- The loop stops and TB_NOW goes over to low-frequency time (R40, R41): the lanes are released, and the sensing windows that
wait are placed no longer. -/
def enterLf (s : State) : State :=
  let s := ((s.clrB .tbStat 0 0 0).setB .tbStat 0 0 1).clrB .tbStat 0 0 3
  settleAll { s with sds := tmap (fun x => { x with wins := [] }) {} s.sds,
                     tb := { s.tb with edges := 0, extra := 0, leaving := false, run := none } }

/-- In quiet debug halt with QHLF at 1 a locked loop stops (R41, R341); low-frequency time that has not ended goes on. -/
def quietLf (s : State) : State :=
  if s.rdF .secDbg 0 0 1 0 == 3 && s.bit .tbCtl 0 0 2 && s.bit .tbStat 0 0 0 then
    if s.bit .tbStat 0 0 1 then { s with tb := { s.tb with leaving := false } }.clrB .tbStat 0 0 0 else enterLf s
  else s

/-- The String cycle boundaries up to now are not placed later; one that falls on this very tick is (R281). -/
def passBoundary (s : State) : State :=
  let n := s.now.toNat
  { s with str := { s.str with placed := if n % cyct s = 0 then none else some (wd (n / cyct s)) } }

/-- PLL_LOCK (R34, R36, R42, R379): the tick runs from the locked loop and the first speed windows open at `mv`; after a loss
of REFCLK the windows open anew beside the bounds that stand (log entry 82). On leaving low-frequency time the next
low-frequency edge ends it; a quiet halt with QHLF at 1 keeps it or goes over to it (R341). The String function runs again
(R280). -/
def execPllLock (mv : Nat) (s : State) : Host.Outcome State Fault Refusal :=
  if s.fm.reset != .none || s.fm.power == .hold || s.bit .tbStat 0 0 0 ||
      (s.bit .tbStat 0 0 1 && s.rdF .secDbg 0 0 1 0 == 3 && s.bit .tbCtl 0 0 2) then .next s
  else
    let s := (s.setB .tbStat 0 0 0).atMv mv
    let s : State := { s with tb := { s.tb with leaving := s.bit .tbStat 0 0 1 }, str := { s.str with passThru := false } }
    let s := s.forN 64 (fun s k => s.setRow k { s.row k with startMv := mv, short := false })
    .next (quietLf ((lockLost s).when s.timeOk startHeld))

/-- Ticks that TB_NOW gains at the next low-frequency edge (R40), and whether an extra tick is among them. The manual
spreads the LFCAL remainder over 32 edges and leaves open which of them take it (log entry 10). -/
def lfTicks (s : State) : Nat × Bool :=
  let pos := s.tb.edges % 32
  let cnt := s.rdF .tbLfcnt 0 0 23 0
  if s.bit .tbCtl 0 0 1 && cnt != 0 then
    let left := cnt % 32 - s.tb.extra
    let x := decide (0 < left) && (decide (32 - pos ≤ left) || Config.lfExtra s.tb.edges cnt)
    (cnt / 32 + b2n x, x)
  else (12207 + b2n (pos == 31), false)

/-- A rising edge of the low-frequency source in low-frequency time (R40). -/
def lfAdvance (s : State) : State :=
  let (n, x) := lfTicks s
  let e := s.tb.edges + 1
  { s with now := s.now + BitVec.ofNat 64 n,
           tb := { s.tb with edges := e, extra := if e % 32 = 0 then 0 else s.tb.extra + b2n x } }

/-- WEN is 1 in Hold and TB_NOW has reached WAKE (R44). -/
def wakeReached (s : State) : Bool :=
  s.fm.power == .hold && s.bit .tbCtl 0 0 4 && decide (s.tb.wake.toNat ≤ s.now.toNat)

/-- The first low-frequency edge after lock ends low-frequency time (R42); general timers and lanes resume, and the first
run of R43 starts. -/
def lfLeave (s : State) : State :=
  startHeld (settleAll (passBoundary
    ({ s with tb := { s.tb with leaving := false, run := some (s.now, 0) } }.clrB .tbStat 0 0 1)))

/-- A low-frequency edge while the locked loop gives ticks (R43): the first starts a run of 32 periods, and the 32nd after
it ends the run with its count of ticks and starts the next. -/
def runEdge (s : State) : State :=
  match s.tb.run with
  | none => { s with tb := { s.tb with run := some (s.now, 0) } }
  | some (t, n) =>
    if n < 31 then { s with tb := { s.tb with run := some (t, n + 1) } }
    else
      (({ s with tb := { s.tb with run := some (s.now, 0) } }).wrF .tbLfcnt 0 0 23 0 (s.now - t).toNat).setB .tbStat 0 0 2

/-- Low-frequency periods are measured: ticks run and the core domain is on. R43 speaks of Run; Idle counts as well (log
entry 84). -/
def measures (s : State) : Bool := s.timeOk && !s.dark

/-- LOW_FREQUENCY_EDGE (R40, R42–R44). -/
def execLowFrequencyEdge (s : State) : Host.Outcome State Fault Refusal :=
  if !s.bit .tbStat 0 0 1 then .next (s.when (measures s) runEdge)
  else
    let s := lfAdvance s
    let s := s.when (wakeReached s) (noteWake · 3)
    .next (s.when s.tb.leaving lfLeave)

/-- TB_WAKE_COMPARE (R44): the low-frequency edge in Hold at which TB_NOW reaches WAKE. -/
def execTbWakeCompare (s : State) : Host.Outcome State Fault Refusal :=
  if s.bit .tbStat 0 0 1 && wakeReached (lfAdvance s) then .next (noteWake (lfAdvance s) 3) else .next s

/-- LF_TIME_EXIT (R42). -/
def execLfTimeExit (s : State) : Host.Outcome State Fault Refusal :=
  if s.bit .tbStat 0 0 1 && s.tb.leaving then .next (lfLeave (lfAdvance s)) else .next s

/-- REFCLK_LOSS (R379): the loop loses lock, TB_NOW holds, every lane is released with EN cleared. -/
def execRefclkLoss (s : State) : Host.Outcome State Fault Refusal :=
  if s.bit .tbStat 0 0 0 then
    let s := (s.clrB .tbStat 0 0 0).clrB .tbStat 0 0 3
    .next (disableAll { s with tb := { s.tb with leaving := false, run := none } })
  else .next s

/-- LFCNT_RUN_END (R43): the low-frequency edge at which a run of 32 periods ends, `count` ticks after its first. With
another count no run ends. -/
def execLfcntRunEnd (count : BitVec 24) (s : State) : Host.Outcome State Fault Refusal :=
  match s.tb.run with
  | some (t, 31) => .next (s.when (measures s && count == (s.now - t).truncate 24) runEdge)
  | _ => .next s

/-- LF_CRYSTAL_FAIL (R43): no edge of the selected crystal for 122 µs. The internal oscillator then stays in use until a
reset (log entry 84). -/
def execLfCrystalFail (s : State) : Host.Outcome State Fault Refusal :=
  if s.bit .tbCtl 0 0 0 || s.tb.internal || s.fm.reset != .none then .next s
  else
    let s := (s.clrB .tbStat 0 0 2).setB .tbStat 0 0 5
    let s : State := { s with tb := { s.tb with internal := true, run := none } }
    .next (s.record 0x0103 0x52 (s.rd .tbLfcnt 0 0) 0 0 0)

/-- A read of TB_NOWL by requester `who` latches the high word for it (R38). -/
def readTbNowl (s : State) (who : Nat) : Word × State :=
  (s.now.truncate 32,
    { s with tb := { s.tb with latch := tput (fun _ => 0) s.tb.latch who ((s.now >>> 32).truncate 32) } })

/-- TB_NOWH as read by `who` (R38). -/
def readTbNowh (s : State) (who : Nat) : Word := tget (fun _ => 0) s.tb.latch who

/-- TB_NOWL_READ (R38). -/
def execTbNowlRead (who : Requester) (s : State) : Host.Outcome State Fault Refusal :=
  let (w, s) := readTbNowl s (reqNum who)
  .next (s.answer (reqNum who) w)

/-- A write to TB_WAKEH passes both halves to the comparator (R44). -/
def wrTbWakeh (s : State) (v : Word) : State :=
  s.gate .tbWakeh 0 fun s =>
    let s := s.wrCodes .tbWakeh 0 0 v
    { s with tb := { s.tb with wake := s.rd .tbWakeh 0 0 ++ s.rd .tbWakel 0 0 } }

/-- TB_WAKEH_WRITE (R44). -/
def execTbWakehWrite (v : Word) (s : State) : Host.Outcome State Fault Refusal := .next (wrTbWakeh s v)

/-- A write to TB_CTL (R9, R45): with ALEN at 0 the alignment bits and the offset read 0; QHLF written 1 in quiet debug halt
acts at once (R341). A run of R43 goes on when LFSRC changes, and LFOK stays (log entry 104). -/
def wrTbCtl (s : State) (v : Word) : State :=
  s.gate .tbCtl 0 fun s =>
    let s := quietLf (s.wrCodes .tbCtl 0 0 v)
    if s.bit .tbCtl 0 0 3 then s
    else
      let s := (s.clrB .tbStat 0 0 3).wr .tbTrim 0 0 0
      { s with tb := { s.tb with ofs := 0, far := 0 } }

/-- TB_LOCK: a write to TB_CTL with LOCK at 1 (R9). -/
def execTbLock (v : Word) (s : State) : Host.Outcome State Fault Refusal := .next (wrTbCtl s (setBit v 31 true))

/-- TB_STAT as read: ALIGNED is 1 on a locked head (TB_STAT), and 0 while ALEN is 0. -/
def readTbStat (s : State) : Word :=
  setBit (s.rd .tbStat 0 0) 3 (s.bit .tbCtl 0 0 3 && (s.bit .tbStat 0 0 3 || (isHead s && s.bit .tbStat 0 0 0)))

/-- TB_TRIM as read: 0 on the head and while ALEN is 0. -/
def readTbTrim (s : State) : Word := if isHead s || !s.bit .tbCtl 0 0 3 then 0 else s.rd .tbTrim 0 0

/-- The offset of R45 is measured, while ticks are given (R36, R41, R379): TB_TRIM, and ALIGNED within ±2 ns (51 fine steps),
lost after two beyond it. -/
def takeOffset (s : State) (ofs : Int) : State :=
  if isHead s || !s.bit .tbCtl 0 0 3 || !s.timeOk then s
  else
    let near := decide (ofs.natAbs ≤ 51)
    let far := if near then 0 else s.tb.far + 1
    let sat := max (-8388607) (min 8388607 ofs)
    let s := s.wr .tbTrim 0 0 (wd ((BitVec.ofInt 24 sat).toNat))
    let s : State := { s with tb := { s.tb with ofs := ofs, far := far, ofsIn := some (cycleNow s) } }
    if near then s.setB .tbStat 0 0 3 else if 2 ≤ far then s.clrB .tbStat 0 0 3 else s

/-- TB_NOW takes the value `x` (R46). The ticks of a run of R43 counted so far stay, sensing windows keep their instants, and
String cycle boundaries go by the new count. -/
def loadNow (s : State) (x : BitVec 64) : State :=
  let d := x - s.now
  let i : Int := x.toNat - s.now.toNat
  let win (x : SdS) : SdS :=
    { x with wins := x.wins.map (fun w => { w with te := w.te + i, tc := w.tc + i }), first := x.first.map (· + 64 * i) }
  passBoundary { s with now := x, sds := tmap win {} s.sds, tb := { s.tb with
    shift := s.tb.shift + d, run := s.tb.run.map (fun r => (r.1 + d, r.2)) } }

/-- ALIGNMENT_LOAD (R46): the last offset exceeds 64 ticks; at a String cycle boundary after its measurement TB_NOW takes ring
time while no lane is enabled. -/
def execAlignmentLoad (ring : BitVec 64) (s : State) : Host.Outcome State Fault Refusal :=
  if isHead s || !s.bit .tbCtl 0 0 3 || !s.timeOk || decide (s.tb.ofs.natAbs ≤ 64 * 64) ||
      s.tb.ofsIn == some (cycleNow s) then .next s
  else
    let s : State := { s with tb := { s.tb with ofs := 0 } }
    if anyN 192 (fun n => s.bit .lnCtl n 0 0) then .next (s.setB .tbStat 0 0 6)
    else .next ((loadNow s ring).setB .tbStat 0 0 4)

end Sys2Proof.Machine
end

