-- ==== Sys2Proof/Machine/Pmu.lean ====
section
/-! DEFINITION. The performance-monitoring unit (R357–R366): its registers, fixed counters, tag records and dumps. -/

namespace Sys2Proof.Machine

/-- The fixed counter of supervisor `n` counts ticks: FEN at 1, the core neither halted nor locked out (R357). -/
def fixRuns (s : State) (n : Nat) : Bool :=
  s.bit .pmuCtl n 0 16 && !(s.core (512 + n)).halted && (s.core (512 + n)).mode != .lockedOut && !s.inRst 73

/-- The fixed counter of supervisor `n`. -/
def State.fix (s : State) (n : Nat) : BitVec 64 := tget (fun _ => 0) s.pmu.fix n

def State.setFix (s : State) (n : Nat) (v : BitVec 64) : State :=
  { s with pmu := { s.pmu with fix := tput (fun _ => 0) s.pmu.fix n v } }

/-- A read of PMU_FIXL[n] by `who` latches the high word for it (R357). -/
def readPmuFixl (s : State) (who n : Nat) : Word × State :=
  ((s.fix n).truncate 32,
    { s with pmu := { s.pmu with
      latch := tput (fun _ => 0) s.pmu.latch (4 * who + n) ((s.fix n >>> 32).truncate 32) } })

/-- PMU_FIXH[n] as read by `who`. -/
def readPmuFixh (s : State) (who n : Nat) : Word := tget (fun _ => 0) s.pmu.latch (4 * who + n)

/-- The event register `w` selects an event that exists: the classes of `most` list so many events (R361). -/
def evtListed (most : List Nat) (w : Word) : Bool :=
  bitOf w 6 && decide (fld w 5 4 < most.length) || decide (fld w 3 0 < most.getD (fld w 5 4) 0)

/-- PMU_COUNTER_OVERFLOW (R357, R360, R361, R363): an enabled counter at 0xFFFF_FFFF that selects an event, not one of a halted
core, takes its event and wraps. -/
def execPmuCounterOverflow (row : Bool) (i : Fin 64) (c : Fin 8) (s : State) : Host.Outcome State Fault Refusal :=
  if s.inRst 73 then .next s
  else if row then
    if c.val < 4 && s.bit .pmuRctl i 0 c && evtListed [4, 4, 4] (s.rd .pmuRevt i c) && s.rd .pmuRcnt i c == 0xFFFFFFFF then .next (rowBump s i c) else .next s
  else if i.val < 4 && svCounts s i && s.bit .pmuCtl i 0 c && evtListed [4, 5, 2, 3] (s.rd .pmuEvt i c) &&
      s.rd .pmuCnt i c == 0xFFFFFFFF then .next (svBump s i c)
  else .next s

/-- Tagging of row `k` is on: EN at 1 and a mean (R364). -/
def tagOn (s : State) (k : Nat) : Bool := s.bit .pmuTag k 0 0 && s.rdF .pmuTag k 0 31 16 != 0

/-- A write to PMU_TAG[k] (R364): EN from 0 to 1 restarts the register and clears TSKIP; tagging that becomes active
draws an interval. -/
def wrPmuTag (s : State) (k : Nat) (v : Word) : State :=
  s.gate .pmuTag k fun s =>
    let on := s.bit .pmuTag k 0 0
    let was := tagOn s k
    let s := s.wrCodes .pmuTag k 0 v
    let s := if !on && bitOf v 0 then
        { s.wrF .pmuTag k 0 15 8 0 with pmu := { s.pmu with lfsr := tput (fun _ => 0xACE1) s.pmu.lfsr k 0xACE1 } }
      else s
    if tagOn s k && (!was || !on) then drawTag s k else s

/-- PMU_TAG_EN_WRITE: a write to PMU_TAG[k] with EN at 1 (R364). -/
def execPmuTagEnWrite (k : Fin 64) (v : Word) (s : State) : Host.Outcome State Fault Refusal :=
  .next (wrPmuTag s k (setBit v 0 true))

/-- A number of fine steps in a halfword, saturating (R364). -/
def capped16 (w : Word) : Nat := Nat.min 65535 w.toNat

/-- PMU_TAG_RECORD (R364): the first tagged instruction that has completed reaches W. `rec` gives what the row has measured on its way: the
fine steps from the activation point to its entry to F, D, X, M and W. Without VALID standing the record is written, with the
steps that the instruction waited, else dropped. -/
def execPmuTagRecord (k : Fin 64) (rec : List Word) (s : State) : Host.Outcome State Fault Refusal :=
  match tags s k with
  | [] => .next s
  | t :: rest =>
    if !t.done then .next s
    else
    let s := setTags s k rest
    if s.bit .pmuTrec k 0 21 then .next (s.incF .pmuTag k 0 15 8)
    else
      let h (i : Nat) : Nat := if i = 5 then Nat.min 65535 t.waited else capped16 (rec.getD i 0)
      let w0 := wd (t.eng + 2 ^ 9 * (t.pc / 4 % 4096) + 2 ^ 21 + 2 ^ 22 * b2n (h 5 != 0))
      let s := (s.wr .pmuTrec k 0 w0).wr .pmuTrec k 1 (t.point.truncate 32)
      let s := s.forN 3 (fun s i => s.wr .pmuTrec k (i + 2) (wd (h (2 * i) + 65536 * h (2 * i + 1))))
      .next (s.forN 3 (fun s i => s.wr .pmuTrec k (i + 5) 0))

/-- The ring of a PMU_DCTL word lies wholly in supervisor SRAM at or above 0x2000_1000, or in one row memory (R365). -/
def ringOk (s : State) (v : Word) : Bool :=
  let b := (s.rd .pmuDbase 0 0).toNat
  let e := b + 1216 * (fld v 19 12 + 1)
  (decide (0x20001000 ≤ b) && decide (e ≤ 0x20400000)) ||
    (decide (0x10000000 ≤ b) && decide (e ≤ 0x11000000) && b / 0x40000 == (e - 1) / 0x40000)

/-- A write to PMU_DCTL (R365): while EN is 1 only EN changes; EN = 1 is refused without a valid ring. -/
def wrPmuDctl (s : State) (v : Word) : State :=
  s.gate .pmuDctl 0 fun s =>
    if s.bit .pmuDctl 0 0 0 then s.wrB .pmuDctl 0 0 0 (bitOf v 0)
    else if bitOf v 0 then
      if ringOk s v then { s.wrCodes .pmuDctl 0 0 v with pmu := { s.pmu with events := 0 } }
      else s.setB .pmuDstat 0 0 11
    else s.wrCodes .pmuDctl 0 0 v

/-- A write to PMU_DBASE (R365), ignored while EN is 1. -/
def wrPmuDbase (s : State) (v : Word) : State :=
  s.gate .pmuDbase 0 fun s => if s.bit .pmuDctl 0 0 0 then s else s.wrCodes .pmuDbase 0 0 v

/-- PMU_DCTL_ENABLE: a write to PMU_DCTL with EN at 1 (R365). -/
def execPmuDctlEnable (v : Word) (s : State) : Host.Outcome State Fault Refusal := .next (wrPmuDctl s (setBit v 0 true))

/-- A 64-bit value as two words, low first. -/
def words64 (v : BitVec 64) : List Word := [v.truncate 32, (v >>> 32).truncate 32]

/-- Each row with a cam read outstanding counts the tick (R361, row class 1). -/
def tickCam (s : State) : State :=
  s.forN 64 (fun s k => s.when (anyN 4 (fun x => (s.slot k x).acts.any (camWaits s k))) (countRow · k 1 3 none))

/-- The 304 words of a dump record, copied in the tick after the event with what that tick counts (R365). -/
def dumpRecord (s : State) : List Word :=
  words64 (s.now + 1) ++ [s.pmu.dumpSeq, wd (Nat.min 255 s.pmu.skipped)] ++
    (List.range 4).flatMap (fun n => words64 (s.fix n + (if fixRuns s n then 1 else 0))) ++
    (List.range 32).map (fun i => s.rd .pmuCnt (i / 8) (i % 8)) ++
    (List.range 256).map (fun i => (tickCam s).rd .pmuRcnt (i / 4) (i % 4)) ++ [0, 0, 0, 0]

/-- PMU_DUMP_TRIGGER (R365): the N-th selected event copies every counter, or is skipped while a record is written. -/
def execPmuDumpTrigger (s : State) : Host.Outcome State Fault Refusal :=
  let n := s.rdF .pmuDctl 0 0 30 20 + 1
  if !s.bit .pmuDctl 0 0 0 || s.pmu.events < n then .next s
  else
    let p := { s.pmu with events := s.pmu.events - n }
    if s.bit .pmuDstat 0 0 8 then
      .next (({ s with pmu := { p with skipped := p.skipped + 1 } }).incF .pmuDstat 0 0 19 12)
    else
      .next (({ s with pmu := { p with copy := dumpRecord s, dumpSeq := p.dumpSeq + 1, skipped := 0 } }).setB
        .pmuDstat 0 0 8)

/-- Words are written from address `a` in 8-byte writes (R365). -/
def writePairs : State → Nat → List Word → State
  | s, a, x :: y :: ws => writePairs (writeMem s unitWho a (wordBytes x false ++ wordBytes y false)) (a + 8) ws
  | s, _, _ => s

/-- Address of the record being written. -/
def dumpAddr (s : State) : Nat := (s.rd .pmuDbase 0 0).toNat + 1216 * s.rdF .pmuDstat 0 0 7 0

/-- PMU_DUMP_WRITE_DONE (R365): the record stands in memory; WIDX advances. -/
def execPmuDumpWriteDone (s : State) : Host.Outcome State Fault Refusal :=
  if !s.bit .pmuDstat 0 0 8 then .next s
  else
    let s := writePairs s (dumpAddr s) s.pmu.copy
    let len := s.rdF .pmuDctl 0 0 19 12 + 1
    let w := (s.rdF .pmuDstat 0 0 7 0 + 1) % len
    let s := ({ s with pmu := { s.pmu with copy := [] } }.wrF .pmuDstat 0 0 7 0 w).clrB .pmuDstat 0 0 8
    let s := s.when (w == len / 2) (·.setB .pmuDstat 0 0 10)
    .next (s.when (w == 0) (·.setB .pmuDstat 0 0 9))

/-- A write to a PMU register (R358). -/
def wrPmu (s : State) (r : Reg) (i j : Nat) (v : Word) : State :=
  match r with
  | .pmuTag => wrPmuTag s i v
  | .pmuDctl => wrPmuDctl s v
  | .pmuDbase => wrPmuDbase s v
  | .pmuFixl => s.gate r i fun s => s.setFix i ((s.fix i >>> 32).truncate 32 ++ v)
  | .pmuFixh => s.gate r i fun s => s.setFix i (v ++ (s.fix i).truncate 32)
  | r => s.gate r i (·.wrCodes r i j v)

/-- Function 73 is reset, or the device wakes from Hold (R360): a dump in progress has made some of its 8-byte writes, how
many the manual leaves open (log entry 4). -/
def resetPmu (s : State) : State :=
  let s :=
    if s.bit .pmuDstat 0 0 8 then
      let n := s.freeWord.toNat % 152 + 1
      (writePairs s (dumpAddr s) (s.pmu.copy.take (2 * n))).useFree
    else s
  { s with regs := s.regs.filter (fun e => !(0x6A000000 ≤ e.1 && e.1 < 0x6B000000)), pmu := {} }

end Sys2Proof.Machine
end

