-- ==== Sys2Proof/Machine/Strlink.lean ====
section
/-! DEFINITION. The String link (R276–R295) and the head's host buffers (R284, R302): ports, cycles, frames, echoes,
tuning, loopback, attention requests. -/

namespace Sys2Proof.Machine

/-- A frame is its body and its CRC. -/
def crcOk (ws : List Word) : Bool :=
  match ws.getLast? with
  | some c => c == frameCrc ws.dropLast
  | none => false

/-- Port `p` is in pass-through (R280, R303). -/
def passing (s : State) (p : Nat) : Bool :=
  s.str.passThru || s.inRst (69 + p) || s.fm.power == .hold || s.fm.reset != .none

/-- The port for which a frame that arrives at port `p` is bound, unless the head takes it (R279, R292). -/
def boundFor (s : State) (p : Nat) : Option Nat :=
  if p = 1 && !looping s 1 then some 0 else if isHead s then none else some (outPort s)

/-- A frame that arrives at port `p` passes unchanged: that port, or the one for which it is bound, is in pass-through (R280,
R303). -/
def passIn (s : State) (p : Nat) : Bool := passing s p || (boundFor s p).any (fun q => s.inRst (69 + q))

/-- Port `p` sends frames of the String function: it is up, sends no electrical idle, and the device is no ring of one
(R277, R278). -/
def portSends (s : State) (p : Nat) : Bool :=
  s.bit .stLink p 0 0 && !tget (fun _ => false) s.str.idleTx p && !isSolo s

/-- A break at port `p`: it went down and has not come up (R292). -/
def fell (s : State) (p : Nat) : Bool := tget (fun _ => false) s.str.fell p

/-- A port is down or the device is in loopback (R303). -/
def ringCond (s : State) : Bool := fell s 0 || fell s 1 || looping s 0 || looping s 1

/-- The function an attention request of REASON 0x04 names. -/
def ringFunc (s : State) : Nat := if fell s 0 || !fell s 1 then 69 else 70

/-- Conditions that still hold assert their requests (R303); REASON 0x01 also while BOOTF is 1 (R332). -/
def attnHeld (s : State) : State :=
  let s := s.when (!s.bit .stDsc 0 0 0 || s.bit .secStat 0 0 2) (·.attn 1 0)
  s.when (ringCond s) (fun s => s.attn 4 (ringFunc s))

/-- ST_ATTN.CLR or ATTNCLR (R303). -/
def attnClear (s : State) : State := attnHeld ((s.wrF .stAttn 0 0 7 0 0).clrB .stAttn 0 0 15)

/-- A held request ends with its condition (R303). -/
def attnDrop (s : State) (reason : Nat) : State :=
  if s.rdF .stAttn 0 0 7 0 = reason then attnHeld (s.wrF .stAttn 0 0 7 0 0) else s

/-- The ring condition may have ended. -/
def ringEase (s : State) : State := if ringCond s then s else attnDrop s 4

/-- ST_STAT.LOOPED takes a value; LOOPF at each change (R292). -/
def setLooped (s : State) (b : Bool) : State :=
  if s.bit .stStat 0 0 0 = b then s else ((s.wrB .stStat 0 0 0 b).setB .stStat 0 0 8).msixSig 3

/-- STRING_PORT_UP (R277): also in pass-through the port is up while its receiver holds lock. -/
def execStringPortUp (p : Fin 2) (s : State) : Host.Outcome State Fault Refusal :=
  if isSolo s || s.inRst (69 + p.val) || s.fm.reset != .none || tget (fun _ => false) s.fm.down 5 then .next s
  else
    let s := (s.setB .stLink p 0 0).msixSig 3
    let s : State := if p.val = 0 then { s with str := { s.str with saMiss := 0 } } else s
    .next (ringEase { s with str := { s.str with fell := tput (fun _ => false) s.str.fell p false,
                                                 idleTx := tput (fun _ => false) s.str.idleTx p false } })

/-- A port goes down (R277). A solo head ignores its receivers (R278). -/
def portDown (s : State) (p : Nat) : State :=
  if s.bit .stLink p 0 0 && !isSolo s then
    let s := (((s.clrB .stLink p 0 0).setB .stLink p 0 2)).msixSig 3
    let s : State := { s with str := { s.str with fell := tput (fun _ => false) s.str.fell p true,
                                                  idleTx := tput (fun _ => false) s.str.idleTx p true } }
    s.attn 4 (69 + p)
  else s

/-- STRING_PORT_DOWN (R277). -/
def execStringPortDown (p : Fin 2) (s : State) : Host.Outcome State Fault Refusal := .next (portDown s p)

/-- STRING_IDLE_END (R277): 10 µs of electrical idle have passed; the transmitter sends commas. -/
def execStringIdleEnd (p : Fin 2) (s : State) : Host.Outcome State Fault Refusal :=
  .next { s with str := { s.str with idleTx := tput (fun _ => false) s.str.idleTx p false } }

/-! ### The String cycle -/

/-- A port leaves or enters loopback. -/
def setLoop (s : State) (p : Nat) (b : Bool) : State := s.wrB .stLink p 0 1 b

/-- The frames that wait at port `a` leave on port `b` (R292). -/
def moveQueue (s : State) (a b : Nat) : State :=
  let mv (q : QFrame) : QFrame := if q.port = a then { q with port := b } else q
  { s with str := { s.str with queue := s.str.queue.map mv, qwait := s.str.qwait.map mv, fwd := s.str.fwd.map mv } }

/-- Frames the device transmits now: only the latest transmission is kept. -/
def transmit (s : State) (fs : List QFrame) : State := { s with str := { s.str with sent := fs } }

/-- Frames that the String function sends: they leave on the ports that send (R277). -/
def sendOut (s : State) (fs : List QFrame) : State := transmit s (fs.filter (fun f => portSends s f.port))

/-- LOOPBACK_HEAL (R294) at the boundary of cycle H. -/
def loopHeal (s : State) : State :=
  let s : State := { s with str := { s.str with heal := none } }
  if !(looping s 0 || looping s 1) then s
  else if s.bit .stLink 0 0 0 && s.bit .stLink 1 0 0 then
    let s := s.when (looping s 0) (moveQueue · 0 1)
    let s := ringEase (setLoop (setLoop s 0 false) 1 false)
    if isHead s then setLooped s false else s
  else s.setB .stStat 0 0 7

/-- LOOPBACK_ENTRY (R292) at a boundary: the devices beside a break, and a head that missed its frame. The frames that wait at
an SB port that is down leave on SA. -/
def loopEntry (s : State) : State :=
  if isSolo s then s
  else if isHead s then
    if fell s 0 || fell s 1 || s.str.awaitRet then
      let s := (setLooped (setLoop (setLoop s 0 true) 1 true) true).when (fell s 1) (moveQueue · 1 0)
      if s.rdF .stAttn 0 0 7 0 = 4 then s else s.attn 4 (ringFunc s)
    else s
  else
    let s := s.when (fell s 1 && s.bit .stLink 0 0 0 && !looping s 0) (fun s => (moveQueue (setLoop s 0 true) 1 0).msixSig 3)
    s.when (fell s 0 && s.bit .stLink 1 0 0 && !looping s 1) (fun s => (setLoop s 1 true).msixSig 3)

/-- SWITCH_VOTE and the missing results of R264 and R265, at the start of cycle `c`. -/
def switchBoundary (s : State) (c : Word) : State :=
  match s.cask.sw with
  | none => { s with str := { s.str with vote := false } }
  | some (v, cs, _) =>
    let st := s.rdF .ckSwstat 0 0 2 0
    if st = 1 ∧ c = cs - 2 ∧ !s.inRst 68 then
      let r := voteReasons s v
      let s := s.wrF .ckSwstat 0 0 16 8 (s.rdF .ckSwstat 0 0 16 8 ||| r)
      { s with str := { s.str with vote := r == 0 } }
    else
      let s : State := { s with str := { s.str with vote := false } }
      if st = 1 ∧ cycReached c cs then declineSwitch s 32
      else if st = 2 ∧ !s.cask.tsValid ∧ cycReached c (cs + 1) then declineSwitch s 32
      else s

/-- The SA port of a device not in loopback goes down after two boundaries without a valid CYC frame (R277). -/
def saWatch (s : State) : State :=
  if looping s 0 || looping s 1 || !s.bit .stLink 0 0 0 then s
  else
    let s : State := { s with str := { s.str with saMiss := s.str.saMiss + 1 } }
    if s.str.saMiss < 2 then s else portDown s 0

/-- STRING_CYCLE_BOUNDARY (R13, R281), once in each String cycle, from its first tick on: the events of the boundary (R46, R53, R99), the cycle number, a missing frame (R293),
loopback (R292, R294), the watch on SA (R277), the vote (R264), row triggers (R180). -/
def execStringCycleBoundary (s : State) : Host.Outcome State Fault Refusal :=
  let c := cycleNow s
  if !s.timeOk || s.fm.reset != .none || s.str.passThru || s.str.placed == some c then .next s
  else
    let s := s.event .cycle
    let n := s.str.noFrame + 1
    let s : State := { s with str := { s.str with cycle := c, placed := some c, noFrame := n } }
    let s := s.when (decide (2 ≤ n)) (fun s => (s.setB .stStat 0 0 1).msixSig 3)
    let s := if s.str.heal = some c then loopHeal s else loopEntry s
    let s := switchBoundary (saWatch s) c
    .next (dumpEvent (triggers s 4 (fun _ _ => true)) 4 0)

/-- The latch for the next cycle is due (R282): the boundary is at most 400 ticks ahead, and it has not been made. -/
def latchDue (s : State) : Bool :=
  decide (cyct s ≤ s.now.toNat % cyct s + 400) && s.str.latched != some (cycleNow s + 1)

/-- HEAD_PAGE_LATCH (R282, R284): 400 ticks before the boundary. -/
def execHeadPageLatch (s : State) : Host.Outcome State Fault Refusal :=
  if !isHead s || !s.timeOk || passing s 1 || !latchDue s then .next s
  else
    let s : State := { s with str := { s.str with latched := some (cycleNow s + 1) } }
    match s.str.posted with
    | some p =>
      let ws := (List.range (12 + 16 * ndev s)).map (fun i => s.buf (0x8000 + 0x1000 * p + 4 * i))
      .next { s with str := { s.str with page := ws, fresh := true, posted := none } }
    | none =>
      let ws := (s.str.page.zipIdx).map (fun x => if 5 ≤ x.2 ∧ x.2 ≤ 8 then x.1 else 0)
      .next { s with str := { s.str with page := ws, fresh := false } }

/-- The response the device puts into its slot (R295, R296). -/
def slotResponse (s : State) : List Word :=
  let r := s.str.slotResp
  let (seq, status) := match s.str.slotCmd with
    | [] => (r.seq.toNat, r.status)
    | w :: _ => (fld w 15 0, 1)
  let pay := (List.range 14).map (fun i => r.words.getD i 0)
  let w1 := Nat.min r.len 255 + 2 ^ 8 * s.rdF .stAttn 0 0 7 0 + 2 ^ 16 * s.rdF .stAttn 0 0 14 8 +
    2 ^ 24 * fld (readTbStat s) 3 3 + 2 ^ 25 * b2n (s.bit .stDsc 0 0 0) + 2 ^ 26 * b2n (s.bit .stStat 0 0 0)
  wd (seq + 2 ^ 16 * status + 2 ^ 24 * stAddr s) :: wd w1 :: (if s.str.slotCmd = [] then pay else List.replicate 14 0)

/-- The words `ws` with those from index `i` on replaced. -/
def putAt (ws : List Word) (i : Nat) (xs : List Word) : List Word :=
  ws.take i ++ xs ++ ws.drop (i + xs.length)

/-- The device has an address with a slot in the frame; 0xFF reads no slot (R288). -/
def hasSlot (s : State) (n : Nat) : Bool := decide (1 ≤ stAddr s) && decide (stAddr s ≤ n) && stAddr s != 0xFF

/-- A frame body with this device's response in its slot. -/
def fillSlot (s : State) (n : Nat) (body : List Word) : List Word :=
  if hasSlot s n then putAt body (12 + 16 * (stAddr s - 1)) (slotResponse s) else body

/-- A 64-bit value from two words, low first. -/
def pair64 (lo hi : Word) : BitVec 64 := hi ++ lo

/-- SWITCH_RESULT (R264): the ring-wide result for a switch at the cycle after `c`. -/
def switchResult (s : State) (c : Word) (ready : Bool) : State :=
  match s.cask.sw with
  | none => s
  | some (_, cs, _) =>
    if c ≠ cs - 1 then s
    else
      let s : State := { s with cask := { s.cask with result := true } }
      match s.rdF .ckSwstat 0 0 2 0, ready with
      | 1, true => s.wrF .ckSwstat 0 0 2 0 2
      | 1, false => declineSwitch s 16
      | 4, false => s.wrF .ckSwstat 0 0 16 8 (s.rdF .ckSwstat 0 0 16 8 ||| 16)
      | _, _ => s

/-- SWITCH_INSTANT_COMPUTE (R265): t_S from M, V and t_M of the frame of the switch's cycle. -/
def switchInstant (s : State) (c m v : Word) (tm : BitVec 64) : State :=
  match s.cask.sw with
  | none => s
  | some (_, cs, a) =>
    if s.rdF .ckSwstat 0 0 2 0 ≠ 2 ∨ c ≠ cs then s
    else if v.toInt ≤ 0 then declineSwitch s 64
    else
      let d := ((a - m).toNat * 65536 + v.toInt.toNat - 1) / v.toInt.toNat
      let ts := tm + BitVec.ofNat 64 d
      let s := (s.wr .ckSwtl 0 0 (ts.truncate 32)).wr .ckSwth 0 0 ((ts >>> 32).truncate 32)
      if 2 * cyct s < d then declineSwitch s 64 else { s with cask := { s.cask with tsValid := true } }

/-- A correct CYC frame is taken (R283): NDEV, master values, the vote's result, the switch instant, HEAL, the slot
command. -/
def takeFrame (s : State) (ws : List Word) : State :=
  let w (i : Nat) : Word := ws.getD i 0
  let n := fld (w 0) 15 8
  let s : State := { s with str := { s.str with noFrame := 0 } }
  let s := (s.wrF .stAddr 0 0 15 8 n)
  let s := setLooped s (bitOf (w 0) 17)
  let same := fld (w 10) 18 0 == s.rdF .stCyct 0 0 18 0
  let tm := pair64 (w 7) (w 8)
  let s := if same then
      if bitOf (w 0) 16 then { s with str := { s.str with m := w 5, v := w 6, tm := tm, mValid := true } } else s
    else s.setB .stStat 0 0 2
  let s := if bitOf (w 9) 1 then switchResult s (w 1) (bitOf (w 9) 2) else s
  let s := if same then switchInstant s (w 1) (w 5) (w 6) tm else s
  let s : State := if fld (w 11) 7 0 = 1 then
      let h := s.str.cycle + wd ((fld (w 11) 31 8 + 2 ^ 24 - s.str.cycle.toNat % 2 ^ 24) % 2 ^ 24)
      { s with str := { s.str with heal := some h } }
    else s
  let slot := (ws.drop (12 + 16 * (stAddr s - 1))).take 16
  if hasSlot s n && fld (slot.getD 0 0) 31 24 == stAddr s then { s with str := { s.str with slotCmd := slot } } else s

/-- The head sends a frame on SB, and on both ports in loopback (R292). -/
def headSend (s : State) (ws : List Word) : List QFrame :=
  { port := 1, words := ws } :: (if looping s 0 then [{ port := 0, words := ws }] else [])

/-- The merge of two returned copies of a frame (R292): a slot comes from the copy in which it differs from what the head
sent, since the device there has processed it; the vote is the AND of both. -/
def mergeCopies (sent a b : List Word) : List Word :=
  let pick (i : Nat) : Word :=
    let lo := 12 + 16 * ((i - 12) / 16)
    let changed := decide ((a.drop lo).take 16 ≠ (sent.drop lo).take 16)
    if i < 12 ∨ changed then a.getD i 0 else b.getD i 0
  let body := (List.range (a.length - 1)).map pick
  let w9 := a.getD 9 0
  let body := putAt body 9 [setBit w9 0 (bitOf w9 0 && bitOf (b.getD 9 0) 0)]
  body ++ [if crcOk a && crcOk b then frameCrc body else ~~~(frameCrc body)]

/-- Two copies of a frame go round: the ring is in loopback and both ports of the head send (R292). -/
def twoCopies (s : State) : Bool := looping s 0 && portSends s 0 && portSends s 1

/-- The frame returned on port `p` reaches the RX page, with its vote result (R264, R285, R302). In loopback the second copy
of a cycle, on the other port, is merged with the first, in the first one's page, and the vote's result is the AND of both
(R292). RTL and SLOW go by the SA receiver (R285). A copy with a bad CRC counts at the port on which it came (R283). -/
def headReturn (s : State) (p : Nat) (ws : List Word) (rtl : Nat) : State :=
  let own := crcOk ws
  let s := if own then
      { s with str := { s.str with noFrame := 0, saMiss := if p = 0 then 0 else s.str.saMiss } }
    else s.incF .stLink p 0 15 8
  let two := s.str.firstRet.isSome
  let ws := match s.str.firstRet with | some a => mergeCopies s.str.sentBody a.2 ws | none => ws
  let first := twoCopies s && !two
  let s : State := { s with str := { s.str with firstRet := if first then some (p, ws) else none } }
  let good := crcOk ws
  let page := if two then s.rdF .stHost 0 0 4 4 else 1 - s.rdF .stHost 0 0 4 4
  let s := putBuf s (0xA000 + 0x1000 * page) ws
  let s := ((s.wrF .stHost 0 0 4 4 page).wrB .stHost 0 0 5 (!good)).msixSig 0
  let late := decide (cyct s < rtl + 480)
  let s := s.when (p == 0) (·.wrF .stStat 0 0 31 16 (Nat.min rtl 65535))
  let s := s.when (p == 0 && late) (·.setB .stStat 0 0 6)
  let s : State := { s with str := { s.str with awaitRet := false, rvalid := good && !late && !first,
                                                rready := bitOf (ws.getD 9 0) 0 } }
  s

/-- The TUNE frame that waits leaves after the CYC frame; in loopback tuning fails (R288). -/
def sendTune (s : State) : State :=
  if !s.str.tuneDue then s
  else if looping s 0 then { s with str := { s.str with tuneDue := false } }.setB .stStat 0 0 5
  else
    let s := s.wrF .stAddr 0 0 7 0 1
    { s with str := { s.str with tuneDue := false, tuning := true,
                                 sent := s.str.sent ++ (if portSends s 1 then [{ port := 1, words := [3, 1, 0] }] else []) } }

/-- The frame of this cycle is due (R282): its boundary has been placed and lies 80 ticks back, and it has not left. -/
def sendDue (s : State) : Bool :=
  decide (80 ≤ s.now.toNat % cyct s) && s.str.placed == some (cycleNow s) && s.str.cycle == cycleNow s &&
    s.str.sentIn != some (cycleNow s)

/-- The head's part of CYC_FRAME_SEND (R282, R284): the head builds the frame of this cycle and takes its own part of it. -/
def cycFrameSend (s : State) : State :=
  if !isHead s || !s.timeOk || passing s 1 || !sendDue s then s
  else
    let n := ndev s
    let pg (i : Nat) : Word := s.str.page.getD i 0
    let w0 := wd (1 + 2 ^ 8 * n + 2 ^ 16 * b2n s.str.fresh + 2 ^ 17 * b2n (looping s 0))
    let w9 := wd (b2n s.str.vote + 2 * b2n s.str.rvalid + 4 * b2n (s.str.rvalid && s.str.rready))
    let head := [w0, s.str.cycle, s.now.truncate 32, (s.now >>> 32).truncate 32, 0, pg 5, pg 6, pg 7, pg 8, w9,
      wd (s.rdF .stCyct 0 0 18 0), pg 11]
    let raw := head ++ (List.range (16 * n)).map (fun i => pg (12 + i))
    let body := fillSlot s n raw
    let ws := body ++ [frameCrc body]
    let s := takeFrame s raw
    let s : State := { s with str := { s.str with rvalid := false, sentBody := body, sentIn := some (cycleNow s), firstRet := none } }
    if isSolo s then headReturn s 0 ws 94
    else sendTune (sendOut { s with str := { s.str with awaitRet := true } } (headSend s ws))

/-- The frame as it leaves this device: CORR, vote, own slot and CRC (R279, R283, R290). -/
def passFrame (s : State) (p : Nat) (own good : Bool) (ws : List Word) : List Word :=
  let corr := ws.getD 4 0 + wd (s.rdF .stLink p 0 31 16 + 1024)
  let body := putAt ws.dropLast 4 [corr]
  let w9 := ws.getD 9 0
  let body := if own then
      fillSlot s (fld (ws.getD 0 0) 15 8) (putAt body 9 [setBit w9 0 (bitOf w9 0 && s.str.vote)])
    else body
  body ++ [if good then frameCrc body else ~~~(frameCrc body)]

/-- What CYC_FRAME_RECEIVE does (R283, R290): judged at its EOF; `ta` is the arrival of its SOF in fine steps. -/
def cycFrameReceive (p : Fin 2) (ws : List Word) (ta : Nat) (s : State) : State :=
  if passIn s p then (transmit s [{ port := 1 - p, words := ws }])
  else if isHead s then s
  else
    let good := crcOk ws && ws.length == 13 + 16 * fld (ws.getD 0 0) 15 8
    if p.val = 1 && !looping s 1 then (sendOut s [{ port := 0, words := passFrame s p false good ws }])
    else
      let good := good && ws.getD 1 0 == s.str.cycle && fld (ws.getD 0 0) 7 0 == 1
      let s1 := sendOut s [{ port := outPort s, words := passFrame s p true good ws }]
      if good then
        let s1 : State := if p.val = 0 then { s1 with str := { s1.str with saMiss := 0 } } else s1
        let txts := (pair64 (ws.getD 2 0) (ws.getD 3 0)).toNat
        let ofs : Int := ta - (64 * txts + (ws.getD 4 0).toInt + s.rdF .stLink p 0 31 16)
        (takeOffset (takeFrame s1 ws) ofs)
      else (s1.incF .stLink p 0 15 8)

/-- CYC_FRAME_RETURN (R285, R302): the frame is back at the head's port `p`, `rtl` ticks after it left; in pass-through it
leaves again (R280). A copy on SB comes in loopback only, and one copy on each port (R292). -/
def execCycFrameReturn (ws : List Word) (rtl : Nat) (s : State) (p : Fin 2 := 0) : Host.Outcome State Fault Refusal :=
  if passing s p then .next (transmit s [{ port := 1 - p, words := ws }])
  else if !isHead s || isSolo s || (p.val == 1 && !looping s 1) || s.str.firstRet.any (·.1 == p.val) then .next s
  else .next (headReturn s p ws rtl)

/-! ### Other frames -/

/-- A frame from upstream is forwarded on port `p`: at once, unless the port's own frames have their turn (R279, R287). A port
that does not send loses it (log entry 47). -/
def forwardFrame (s : State) (p : Nat) (ws : List Word) : State :=
  let q : QFrame := { port := p, words := ws }
  let last := tget (fun _ => false) s.str.fwdLast p
  if (last && !(queued s p).isEmpty) || s.str.fwd.any (·.port == p) then { s with str := { s.str with fwd := s.str.fwd ++ [q] } }
  else sendOut { s with str := { s.str with fwdLast := tput (fun _ => false) s.str.fwdLast p true } } [q]

/-- A BULK frame that the device takes as a command (R286, R295): one whose word 3 names another address is ignored. -/
def takeBulk (s : State) (body : List Word) : State :=
  if fld (body.getD 3 0) 7 0 = stAddr s then { s with str := { s.str with bulkCmd := body } } else s

/-- BULK_FRAME_RECEIVE (R286): taken off the ring by its destination, else forwarded; back at the head it is dropped. A frame
with a bad CRC is counted, and executes nothing (log entry 48). -/
def execBulkFrameReceive (p : Fin 2) (ws : List Word) (s : State) : Host.Outcome State Fault Refusal :=
  if passIn s p then .next (transmit s [{ port := 1 - p, words := ws }])
  else if isSolo s then .next s
  else if p.val = 1 && !looping s 1 then .next (forwardFrame s 0 ws)
  else
    let dest := fld (ws.getD 0 0) 15 8
    let good := crcOk ws
    let s := if good then s else s.incF .stLink p 0 15 8
    if dest = stAddr s ∧ dest ≠ 0xFF then
      if !good then .next s
      else if isHead s then .next (takeRx s ws.dropLast)
      else .next (takeBulk s ws.dropLast)
    else if isHead s then .next (s.incF .stHost 0 0 31 24)
    else .next (forwardFrame s (outPort s) ws)

/-- Payload bytes of a host's BULK frame by its CMD and LEN (R296, log entry 97): the address of a READ or WRITE comes ahead of
the LEN bytes, and a READ carries no data. -/
def bulkBytes (cmd len : Nat) : Nat := Nat.min 992 (if cmd = 1 then 4 else if cmd = 2 then 4 + len else len)

/-- Words of the BULK TX entry at BQHEAD: 8 header words and the payload (R286, R302). -/
def txEntry (s : State) : List Word :=
  let o := 0xC000 + 0x400 * s.rdF .stHost 0 0 14 12
  let len := bulkBytes (fld (s.buf (o + 4)) 23 16) (fld (s.buf (o + 8)) 15 0)
  (List.range (8 + (len + 3) / 4)).map (fun i => s.buf (o + 4 * i))

/-- The BULK TX entry at BQHEAD leaves the head's queue (R302): onto the ring, or on a solo head to the head itself. -/
def sendBulkTx (s : State) : State :=
  let body := txEntry s
  let s := s.wrF .stHost 0 0 14 12 ((s.rdF .stHost 0 0 14 12 + 1) % 8)
  let s : State := { s with str := { s.str with bqWait := s.str.bqWait - 1 } }
  if isSolo s then
    if fld (body.getD 0 0) 15 8 = stAddr s then takeBulk s body else s.incF .stHost 0 0 31 24
  else sendOut s (headSend s (body ++ [frameCrc body]))

/-- The first own frame of a port leaves, the head's in loopback on both ports, and a frame that waits for a place takes it
(R287, R292). -/
def sendOwn (s : State) (p : Nat) (q : QFrame) : State :=
  let st := s.str
  let next := st.qwait.find? (·.port == p)
  sendOut { s with str := { st with queue := st.queue.erase q ++ next.toList,
                                     qwait := match next with | some w => st.qwait.erase w | none => st.qwait,
                                     fwdLast := tput (fun _ => false) st.fwdLast p false } } (if isHead s then headSend s q.words else [q])

/-- A forwarded frame that waited leaves (R287). -/
def sendForwarded (s : State) (p : Nat) (q : QFrame) : State :=
  sendOut { s with str := { s.str with fwd := s.str.fwd.erase q,
                                        fwdLast := tput (fun _ => false) s.str.fwdLast p true } } [q]

/-- What QUEUED_FRAME_SEND does (R287): the port's forwarded frames and its own take turns; on the head's SB, in loopback on
either port, then the BULK TX queue. A port that is down or idle sends nothing (R277), and a solo head transmits nothing
(R278). -/
def queuedFrameSend (p : Fin 2) (s : State) : State :=
  let bulk := if isHead s && (p.val = 1 || looping s 0) && 0 < s.str.bqWait then sendBulkTx s else s
  if passing s p then s
  else if isSolo s then bulk
  else if !portSends s p then s
  else match (queued s p).head?, s.str.fwd.find? (·.port == p.val) with
    | some q, none => sendOwn s p q
    | none, some f => sendForwarded s p f
    | some q, some f => if tget (fun _ => false) s.str.fwdLast p then sendOwn s p q else sendForwarded s p f
    | none, none => bulk

/-- The ECHO request of port `p` is due (R289): half the cycle has passed, and none has left in it. -/
def echoDue (s : State) (p : Nat) : Bool :=
  s.timeOk && decide (cyct s / 2 ≤ s.now.toNat % cyct s) && tget (fun _ => none) s.str.echoIn p != some (cycleNow s)

/-- ECHO_SEND (R289): port `p` sends an ECHO request that left at `t1`, in fine steps. No instant is placed without ticks (R13,
R379). -/
def execEchoSend (p : Fin 2) (t1 : Nat) (s : State) : Host.Outcome State Fault Refusal :=
  if passing s p || !portSends s p || !echoDue s p then .next s
  else
    .next (transmit { s with str := { s.str with echoT1 := tput (fun _ => 0) s.str.echoT1 p t1,
                                                 echoIn := tput (fun _ => none) s.str.echoIn p (some (cycleNow s)) } }
      [{ port := p, words := [4, wd t1] }])

/-- ECHO_RECEIVE (R289): a request that left at `t1` arrived at `t2`; the reply leaves at `t3`. In pass-through the request
passes on (R280). -/
def execEchoReceive (p : Fin 2) (t1 t2 t3 : Nat) (s : State) : Host.Outcome State Fault Refusal :=
  if passing s p then .next (transmit s [{ port := 1 - p, words := [4, wd t1] }])
  else if isSolo s then .next s
  else .next (sendOut s [{ port := p, words := [4, wd t1, wd t2, wd t3] }])

/-- ECHO_REPLY_RECEIVE (R289, R291): the hop delay, averaged over the last 16 values. In pass-through the reply, with the
`t1` it carries, passes on (R280). -/
def execEchoReplyReceive (p : Fin 2) (t2 t3 t4 : Nat) (s : State) (t1 : Nat := 0) : Host.Outcome State Fault Refusal :=
  if passing s p then .next (transmit s [{ port := 1 - p, words := [4, wd t1, wd t2, wd t3] }])
  else if isSolo s then .next s
  else
    let t1 := tget (fun _ => 0) s.str.echoT1 p
    let d := ((t4 - t1) - (t3 - t2)) / 2
    let hs := (d :: tget (fun _ => []) s.str.hops p).take 16
    let s : State := { s with str := { s.str with hops := tput (fun _ => []) s.str.hops p hs } }
    let avg := hs.sum / hs.length
    if 64000 < avg then .next ((s.wrF .stLink p 0 31 16 65535).setB .stLink p 0 2)
    else .next (s.wrF .stLink p 0 31 16 avg)

/-! ### Tuning (R288) -/

/-- A lane or a row is enabled. -/
def anyEnabled (s : State) : Bool := anyN 192 (fun n => s.bit .lnCtl n 0 0) || anyN 64 (fun k => s.bit .rwCtl k 0 0)

/-- A write of 1 to ST_CTL.TUNE (R278, R288). -/
def tune (s : State) : State :=
  if !isHead s then s
  else if isSolo s then s.setB .stStat 0 0 11
  else if looping s 0 || s.bit .stStat 0 0 0 then s.setB .stStat 0 0 5
  else
    { s with str := { s.str with tuneDue := true } }

/-- A write to ST_CTL: HEAD and SOLO only through PCIe (R278), then TUNE and SWAKE (R280); a solo head sends no wake sequence
(R278). -/
def wrStCtl (s : State) (pcie : Bool) (v : Word) : State :=
  s.gate .stCtl 0 fun s =>
    let s := s.when pcie (·.wrCodes .stCtl 0 0 v)
    let s := s.when (pcie && isSolo s) (fun s =>
      ((s.wrF .stAddr 0 0 7 0 1).wrF .stAddr 0 0 15 8 1).wrF .stStat 0 0 31 16 94)
    let s := s.when (bitOf v 2) tune
    if bitOf v 3 && !isSolo s then { s with str := { s.str with wakeSent := true } } else s

/-- ST_HEAD_WRITE: a write of HEAD to ST_CTL (R278). -/
def execStHeadWrite (who : Requester) (v : Word) (s : State) : Host.Outcome State Fault Refusal :=
  .next (wrStCtl s (who == .host) v)

/-- ST_SWAKE: a write to ST_CTL with SWAKE at 1 (R280). -/
def execStSwake (v : Word) (s : State) : Host.Outcome State Fault Refusal := .next (wrStCtl s false (setBit v 3 true))

/-- TUNE_START: a write to ST_CTL with TUNE at 1 (R278, R288). -/
def execTuneStart (v : Word) (s : State) : Host.Outcome State Fault Refusal := .next (wrStCtl s false (setBit v 2 true))

/-- TUNE_FRAME_RECEIVE (R288) on a device that is not the head; in pass-through the frame passes on unchanged (R280).
On its way on it takes turns with the port's own frames (R287). -/
def execTuneFrameReceive (counter : BitVec 8) (keep toomany : Bool) (s : State) : Host.Outcome State Fault Refusal :=
  if passIn s 0 then
    .next (transmit s [{ port := 1, words := [3, wd counter.toNat, wd (b2n keep + 2 * b2n toomany)] }])
  else if isHead s then .next s
  else
    let c := counter.toNat + 1
    let fwd (s : State) (k t : Bool) : State :=
      forwardFrame s (outPort s) [3, wd (Nat.min c 255), wd (b2n k + 2 * b2n t)]
    if anyEnabled s then
      if stAddr s = c then .next (fwd s keep toomany) else .next (fwd (s.setB .stStat 0 0 3) true toomany)
    else if c ≤ 32 then .next (fwd (s.wrF .stAddr 0 0 7 0 c) keep toomany)
    else .next (fwd ((s.wrF .stAddr 0 0 7 0 0xFF).setB .stStat 0 0 4) keep true)

/-- Tuning fails (R288). -/
def tuneFails (s : State) : State := ({ s with str := { s.str with tuning := false } }).setB .stStat 0 0 5

/-- TUNE_RETURN (R288): the TUNE frame is back at the head's SA; in pass-through it leaves again (R280), and in loopback tuning has
failed. -/
def execTuneReturn (counter : BitVec 8) (keep toomany : Bool) (s : State) : Host.Outcome State Fault Refusal :=
  if passing s 0 then
    .next (transmit s [{ port := 1, words := [3, wd counter.toNat, wd (b2n keep + 2 * b2n toomany)] }])
  else if !isHead s || !s.str.tuning then .next s
  else if looping s 0 || s.bit .stStat 0 0 0 then .next (tuneFails s)
  else
    let s := (s.wrF .stAddr 0 0 15 8 counter.toNat).setB .stStat 0 0 11
    let s := (s.when keep (·.setB .stStat 0 0 3)).when toomany (·.setB .stStat 0 0 4)
    .next { s with str := { s.str with tuning := false } }

/-- TUNE_TIMEOUT (R288): the frame has not returned within 2 cycles. -/
def execTuneTimeout (s : State) : Host.Outcome State Fault Refusal :=
  if s.str.tuning then .next (tuneFails s) else .next s

/-! ### Host registers -/

/-- A write to ST_HOST (R284, R302): POST, and the entries that BQTAIL posts and BRHEAD frees. -/
def wrStHost (s : State) (v : Word) : State :=
  s.gate .stHost 0 fun s =>
    let dq := (fld v 10 8 + 8 - s.rdF .stHost 0 0 10 8) % 8
    let dr := (fld v 22 20 + 8 - s.rdF .stHost 0 0 22 20) % 8
    let s := s.wrCodes .stHost 0 0 v
    let st := s.str
    { s with str := { st with bqWait := Nat.min 8 (st.bqWait + dq), brUsed := st.brUsed - dr,
                              posted := if bitOf v 1 then some (fld v 0 0) else st.posted } }

/-- ST_HOST_POST: a write to ST_HOST with POST at 1 (R284). -/
def execStHostPost (v : Word) (s : State) : Host.Outcome State Fault Refusal := .next (wrStHost s (setBit v 1 true))

/-- ST_BQTAIL_WRITE: a write of BQTAIL to ST_HOST (R302). -/
def execStBqtailWrite (v : Word) (s : State) : Host.Outcome State Fault Refusal := .next (wrStHost s v)

/-- ST_BRHEAD_WRITE: a write of BRHEAD to ST_HOST (R302). -/
def execStBrheadWrite (v : Word) (s : State) : Host.Outcome State Fault Refusal := .next (wrStHost s v)

/-- ST_HOST as read. -/
def readStHost (s : State) : Word := setBit (s.rd .stHost 0 0) 15 (8 ≤ s.str.bqWait)

/-- A write to ST_ATTN: CLR (R303). -/
def wrStAttn (s : State) (v : Word) : State := s.gate .stAttn 0 (·.when (bitOf v 16) attnClear)

/-- ST_ATTN_CLR: a write to ST_ATTN with CLR at 1 (R303). -/
def execStAttnClr (v : Word) (s : State) : Host.Outcome State Fault Refusal := .next (wrStAttn s (setBit v 16 true))

/-- A write to ST_CYCT (R281), ignored while a trio runs. The cycle that is under way by the new length has had its boundary. -/
def wrStCyct (s : State) (v : Word) : State :=
  s.gate .stCyct 0 fun s => if anyN 64 s.running then s else passBoundary (s.wrCodes .stCyct 0 0 v)

/-- ST_CYCT_WRITE (R281). -/
def execStCyctWrite (v : Word) (s : State) : Host.Outcome State Fault Refusal := .next (wrStCyct s v)

/-- A write to ST_MBO[w] (R295): word 0 makes the response of the MBOX command ready. -/
def wrStMbo (s : State) (w : Nat) (v : Word) : State :=
  s.gate .stMbo w fun s =>
    let s := s.wrCodes .stMbo w 0 v
    if w = 0 then
      match s.str.mboxSeq with
      | none => s
      | some (path, seq) =>
        let ws := (List.range 14).map (fun i => s.rd .stMbo (i + 2) 0)
        let s : State := { s with str := { s.str with mboxSeq := none } }
        respond s path { seq := seq, valid := true, cmd := 9, status := fld v 23 16,
                         len := s.rdF .stMbo 1 0 7 0, words := ws }
    else s

/-- ST_MBO_READY: a write to ST_MBO[0]. -/
def execStMboReady (v : Word) (s : State) : Host.Outcome State Fault Refusal := .next (wrStMbo s 0 v)

/-! ### The PCIe endpoint -/

/-- The PCIe link leaves L0 (R301, ST_STAT.PCIEF). -/
def pcieDown (s : State) : State :=
  if s.str.pcieUp then ({ s with str := { s.str with pcieUp := false } }).setB .stStat 0 0 9 else s

/-- PCIE_LINK_DOWN. -/
def execPcieLinkDown (s : State) : Host.Outcome State Fault Refusal := .next (pcieDown s)

/-- PCIE_LINK_UP (R301, R322, R387): the link has trained. -/
def execPcieLinkUp (s : State) : Host.Outcome State Fault Refusal :=
  if s.inRst 71 || !s.str.perstn || tget (fun _ => false) s.fm.down 6 || s.fm.power == .hold || s.fm.reset != .none then
    .next s
  else .next { s with str := { s.str with pcieUp := true } }

end Sys2Proof.Machine
end

