-- ==== Sys2Proof/Machine/Security.lean ====
section
/-! DEFINITION. Security (R328–R337): key store, secure boot, rollback, boot banks, supervisor release, opening. -/

namespace Sys2Proof.Machine

/-- SEC_STATE: 0 Blank, 1 Sealed, 2 Opening, 3 Open. -/
def secState (s : State) : Nat := s.rdF .secState 0 0 1 0

/-- Class of key slot `i` (R329): slot 0 is class 5. -/
def keyClass (s : State) (i : Nat) : Nat := if i = 0 then 5 else tget (fun _ => 0) s.sec.cls i

/-- Key slot `i` takes a class and content; a recipe secret is stored under the wrapping key (R329, R331). -/
def setKey (s : State) (i c : Nat) (k : BitVec 256) : State :=
  let w := if c = 4 then Config.wrapKey (tget (fun _ => 0) s.sec.keys 0) s.sec.nonce k else 0
  { s with sec := { s.sec with
      cls := tput (fun _ => 0) s.sec.cls i c, keys := tput (fun _ => 0) s.sec.keys i k,
      stored := tput (fun _ => 0) s.sec.stored i w } }

/-- A 256-bit free value. -/
def freeKey (s : State) : BitVec 256 := words256 ((List.range 8).map (fun i => Config.freeWord (s.free + i)))

/-- The recipe secrets of slots `m` are erased (R331): the nonce is overwritten, then the working copies are zeroed; the
stored copies stay until they are overwritten in the background. What the nonce becomes is a free value (log entry 4). -/
def eraseSecrets (s : State) (m : List Nat) : State :=
  let s : State := { s with free := s.free + 8, sec := { s.sec with nonce := freeKey s } }
  m.foldl (fun s i => { s with sec := { s.sec with
    cls := tput (fun _ => 0) s.sec.cls i 0, keys := tput (fun _ => 0) s.sec.keys i 0 } }) s

/-- The stored copies of the erased secrets have been overwritten, with free values (R331, log entry 4). -/
def overwriteStored (s : State) : State :=
  s.forN 32 (fun s i =>
    if s.sec.eraMask.testBit i && keyClass s i != 4 then
      { s with free := s.free + 8, sec := { s.sec with stored := tput (fun _ => 0) s.sec.stored i (freeKey s) } }
    else s)

/-- SEC_DBG.STATE takes a value; CHG at each change (R341). -/
def setDbg (s : State) (st : Nat) : State :=
  if s.rdF .secDbg 0 0 1 0 = st then s else (s.wrF .secDbg 0 0 1 0 st).setB .secDbg 0 0 6

/-- A write to SEC_KCMD (R330): it clears SEC_KW, accepted or not. -/
def wrSecKcmd (s : State) (v : Word) : State :=
  s.gate .secKcmd 0 fun s =>
    let op := fld v 1 0
    let i := fld v 6 2
    let c := fld v 9 7
    let key := words256 ((List.range 8).map (tget (fun _ => 0) s.sec.kw))
    let s : State := { s with sec := { s.sec with kw := [] } }
    if op = 0 ∨ op = 3 then s
    else if secState s = 1 ∨ secState s = 2 ∨ i = 0 ∨ (op = 1 ∧ (keyClass s i ≠ 0 ∨ c = 0 ∨ 4 < c)) then
      s.setB .secStat 0 0 3
    else if op = 1 then setKey s i c key
    else setKey s i 0 0

/-- SEC_KEY_WRITE: a write to SEC_KCMD with OP 1 (R330). -/
def execSecKeyWrite (v : Word) (s : State) : Host.Outcome State Fault Refusal := .next (wrSecKcmd s (setFld v 1 0 1))

/-- SEC_KEY_ERASE: a write to SEC_KCMD with OP 2 (R330). -/
def execSecKeyErase (v : Word) (s : State) : Host.Outcome State Fault Refusal := .next (wrSecKcmd s (setFld v 1 0 2))

/-! ### Boot banks and boot (R332–R334) -/

/-- Byte `i` of bank `b`, and `n` bytes from offset `o` on. -/
def bankByte (s : State) (b i : Nat) : Byte := tget (fun _ => 0) s.sec.banks (b * 0x100000 + i)
def bankBytes (s : State) (b o n : Nat) : List Byte := (List.range n).map (fun i => bankByte s b (o + i))

/-- Little-endian number of some bytes (R7). -/
def leNat (bs : List Byte) : Nat := bs.foldr (fun b n => b.toNat + 256 * n) 0

/-- Bytes as words, little-endian. -/
def bytesWords : List Byte → List Word
  | a :: b :: c :: d :: t => wd (leNat [a, b, c, d]) :: bytesWords t
  | _ => []

/-- The header of an image is well formed (R332): magic, body length, load address, the whole image in range, bytes
148–255 zero. -/
def headerOk (h : List Byte) : Bool :=
  let w (o : Nat) : Nat := leNat ((h.drop o).take 4)
  w 0 == 0x544B4254 && w 4 % 8 == 0 && decide (w 4 ≤ 1048320) && w 8 % 8 == 0 && decide (0x20001000 ≤ w 8) &&
    decide (w 8 + 256 + w 4 ≤ 0x20400000) && ((h.drop 148).take 108).all (· == 0)

/-- The image verifies (R332): its key matches a class 1 slot, the signature holds, the version is not below SEC_ROLL. -/
def imageOk (s : State) (h body : List Byte) : Bool :=
  let ks := bytesWords ((h.drop 20).take 128)
  (keySlot s 1 (ks.take 16)).isSome && sigOk ks (h.take 84 ++ body) &&
    decide ((s.rd .secRoll 0 0).toNat ≤ leNat ((h.drop 16).take 4))

/-- The values that the Boot ROM leaves in G1–G31 when it starts an image: the manual does not give them (log
entry 4). -/
def romRegs (s : State) (n : Nat) : State :=
  let s := s.setCore n { s.core n with base := (List.range 31).foldl (fun t r =>
    tput (fun _ => (0, false)) t (r + 1) (Config.freeWord (s.free + r), false)) [], infl := [] }
  { s with free := s.free + 31 }

/-- The image at its load address runs on SV0 (R332, R334). -/
def runImage (s : State) (entry : Nat) : State :=
  let s := romRegs s 512
  s.setCore 512 { s.core 512 with pc := entry, pcs := [], slot := none }

/-- Bank `b` is tried (R332): its image is copied to the load address and, where it may run, starts. -/
def tryBank (s : State) (b : Nat) : State × Bool :=
  let h := bankBytes s b 0 256
  if !headerOk h then (s, false)
  else
    let w (o : Nat) : Nat := leNat ((h.drop o).take 4)
    let body := bankBytes s b 256 (w 4)
    let copy (s : State) (bs : List Byte) (a : Nat) : State :=
      (List.range (bs.length / 8)).foldl (fun s i =>
        writeMem s 512 (a + 8 * i) (((bs.drop (8 * i)).take 8).map (fun x => (x, false)))) s
    let s := copy s (h ++ body) (w 8)
    let ver := imageOk s h body
    if !ver && (secState s = 1 || secState s = 2) then (s, false)
    else
      let s := (s.wrB .secStat 0 0 0 ver).wrB .secStat 0 0 1 (b == 1)
      let s : State := { s with sec := { s.sec with digest := some (Config.sha256 (h ++ body)), imgLoad := w 8,
                                                    imgLen := w 4, imgVer := ver } }
      (runImage s (w 12), true)

/-- The SRAM banks that hold the image were kept in Hold and it still has the recorded digest (R334). -/
def keptImage (s : State) : Option Nat × State :=
  match s.sec.digest with
  | none => (none, s)
  | some d =>
    let a := s.sec.imgLoad
    let n := 256 + s.sec.imgLen
    let lost := anyN 4 (fun b => !s.bit .fmPwr 0 0 (2 + b) && decide (a < 0x20000000 + 0x100000 * (b + 1)) &&
      decide (0x20000000 + 0x100000 * b < a + n))
    if s.rdF .fmRstat 0 0 2 0 = 6 && !lost then
      let (rs, s) := readLong s a n
      let bs := rs.map (·.1)
      (if Config.sha256 bs == d then some (leNat ((bs.drop 12).take 4)) else none, s)
    else (none, s)

/-- SECURE_BOOT (R332, R334): the Boot ROM on SV0 starts an image, or sets BOOTF, with REASON 0x01 asserted; with
BOOTF set SV0 stays there until it is started again. -/
def execSecureBoot (s : State) : Host.Outcome State Fault Refusal :=
  let c := s.core 512
  if s.fm.reset != .none || s.fm.power != .run || c.mode != .active || c.halted || 0x40000 ≤ c.pc || s.bit .secStat 0 0 2 then .next s
  else match keptImage s with
    | (some entry, s) => .next (runImage (s.wrB .secStat 0 0 0 s.sec.imgVer) entry)
    | (none, s) =>
      let p := s.rdF .secBoot 0 0 0 0
      match tryBank s p with
      | (s, true) => .next s
      | (s, false) =>
        match tryBank s (1 - p) with
        | (s, true) => .next s
        | (s, false) =>
          let s := ((s.clrB .secStat 0 0 0).setB .secStat 0 0 2).when (s.bit .stDsc 0 0 0) (·.attn 1 0)
          .next (s.record 0x0602 0x53 (wd p) (s.rd .secRoll 0 0) 0 0)

/-- A write to SEC_BANKW (R333): ignored while a write runs; GO is refused for the running bank and for a source outside
supervisor SRAM. -/
def wrSecBankw (s : State) (v : Word) : State :=
  s.gate .secBankw 0 fun s =>
    if s.bit .secBankw 0 0 2 then s
    else
      let s := s.wrCodes .secBankw 0 0 v
      if !bitOf v 0 then s
      else
        let b := fld v 1 1
        let a := v.toNat / 8 * 8
        if b = s.rdF .secStat 0 0 1 1 ∨ a < 0x20000000 ∨ 0x20400000 < a + 256 then s.setB .secStat 0 0 3
        else { s.setB .secBankw 0 0 2 with sec := { s.sec with bankBusy := some (b, a) } }

/-- SEC_BANK_WRITE: a write to SEC_BANKW with GO at 1 (R333). -/
def execSecBankWrite (v : Word) (s : State) : Host.Outcome State Fault Refusal := .next (wrSecBankw s (setBit v 0 true))

/-- SEC_BANK_WRITE_DONE (R333): the bank holds the header and body, as read from the SRAM (R239, R240); it waits while Cask writes
pause (R254), and none is made in Hold (R309). -/
def execSecBankWriteDone (s : State) : Host.Outcome State Fault Refusal :=
  match s.sec.bankBusy with
  | none => .next s
  | some (b, a) =>
    if s.bit .ckStat 0 0 6 || s.dark then .next s
    else
      let len := leNat ((s.bytesAt (a + 4) 4).map (·.1))
      let n := Nat.min (256 + Nat.min len 1048320) (0x20400000 - a)
      let (rs, s) := readLong s a n
      let t := ((rs.map (·.1)).zipIdx).foldl (fun t p => tput (fun _ => 0) t (b * 0x100000 + p.2) p.1) s.sec.banks
      .next { s.clrB .secBankw 0 0 2 with sec := { s.sec with banks := t, bankBusy := none } }

/-- A write to SEC_ROLL (R333): a lower value is ignored. -/
def wrSecRoll (s : State) (v : Word) : State :=
  s.gate .secRoll 0 fun s => if (s.rd .secRoll 0 0).toNat ≤ v.toNat then s.wrCodes .secRoll 0 0 v else s

/-- With BOOTF set the Boot ROM on SV0 serves only writes to SEC_BOOT, SEC_BANKW and SEC_KCMD, with the SEC_KW words of a
key: a write by SV0 to another register of the block has no effect (R332, log entry 98). -/
def bootServes (s : State) (r : Reg) (who : Nat) : Bool :=
  who != 512 || !s.bit .secStat 0 0 2 || r == .secBoot || r == .secBankw || r == .secKcmd || r == .secKw

/-- SEC_ROLL_WRITE by requester `who` (R333). -/
def execSecRollWrite (v : Word) (s : State) (who : Requester := .core (.sv 0)) : Host.Outcome State Fault Refusal :=
  .next (s.when (bootServes s .secRoll (reqNum who)) (wrSecRoll · v))

/-- A write to SEC_SVREL by requester `who` (R334): only SV0 releases SV1–SV3. -/
def wrSecSvrel (s : State) (who : Nat) (v : Word) : State :=
  s.gate .secSvrel 0 fun s =>
    if who ≠ 512 then s
    else
      let s := s.wrCodes .secSvrel 0 0 v
      s.forN 3 (fun s i =>
        let n := 513 + i
        if bitOf v (i + 1) ∧ (s.core n).mode = .unreleased ∧ !s.inRst (77 + i) then
          s.setCore n { s.core n with mode := .active, pc := (s.rd .secSvpc 0 0).toNat }
        else s)

/-- SEC_SVREL (R334). -/
def execSecSvrel (who : Requester) (v : Word) (s : State) : Host.Outcome State Fault Refusal :=
  .next (s.when (bootServes s .secSvrel (reqNum who)) (wrSecSvrel · (reqNum who) v))

/-- A write to SEC_RESEAL: ARM in Blank and Open (R328). -/
def wrSecReseal (s : State) (v : Word) : State :=
  s.gate .secReseal 0 fun s => if secState s = 0 ∨ secState s = 3 then s.wrCodes .secReseal 0 0 v else s

/-! ### Opening (R336, R337) -/

/-- A new challenge is made in Sealed: 24 random bytes, then the serial (R336). -/
def challenge (s : State) (random : BitVec 192) : State :=
  if secState s = 1 then
    { s.setB .secOpen 0 0 2 with sec := { s.sec with chal := Config.serial ++ random, chv := true } }
  else s

/-- The challenge is no longer valid. -/
def dropChallenge (s : State) : State :=
  { s.clrB .secOpen 0 0 2 with sec := { s.sec with chal := 0, chv := false } }

/-- An opening is refused with ORSN `r`; every outcome clears CHV and writes a record (R336). -/
def refuseOpen (s : State) (r : Nat) : State :=
  let s := dropChallenge s
  let s := (s.setB .secStat 0 0 4).wrF .secStat 0 0 7 5 r
  s.record 0x0603 0x53 (wd r) (wd (s.rdF .secStat 0 0 12 9)) 0 0

/-- The words of the challenge. -/
def chalWords (c : BitVec 256) : List Word := (List.range 8).map (fun i => (c >>> (32 * i)).truncate 32)

/-- A write of 1 to SEC_OPEN.GO (R336): refused at once for the first four reasons, else the response goes to
verification. -/
def openGo (s : State) : State :=
  let sw := s.rdF .ckSwstat 0 0 2 0
  if secState s ≠ 1 ∨ !s.sec.chv then refuseOpen s 1
  else if anyEnabled s then refuseOpen s 2
  else if sw = 1 ∨ sw = 2 then refuseOpen s 3
  else if 8 ≤ s.rdF .secStat 0 0 12 9 then refuseOpen s 4
  else
    let ws := (List.range 32).map (tget (fun _ => 0) s.sec.resp) ++ chalWords s.sec.chal
    dropChallenge { s with sec := { s.sec with opening := some ws } }

/-- A write to SEC_OPEN: CHREQ, then GO. The hardware random source gives `random`. -/
def openWrite (s : State) (v : Word) (random : BitVec 192) : State :=
  (s.when (bitOf v 0) (challenge · random)).when (bitOf v 1) openGo

/-- A write to SEC_OPEN by a requester that reaches it only outside reset and Hold. -/
def wrSecOpen (s : State) (v : Word) (random : BitVec 192) : State := s.gate .secOpen 0 (openWrite · v random)

/-- A word of SEC_RESP is written. -/
def respWrite (s : State) (i : Nat) (v : Word) : State :=
  { s with sec := { s.sec with resp := tput (fun _ => 0) s.sec.resp i v } }

/-- SEC_OPEN_CHREQ (R336). -/
def execSecOpenChreq (random : BitVec 192) (s : State) : Host.Outcome State Fault Refusal :=
  .next (wrSecOpen s 1 random)

/-- CHALLENGE_EXPIRY (R336): 10 s after it was made. -/
def execChallengeExpiry (s : State) : Host.Outcome State Fault Refusal :=
  if s.sec.chv then .next (dropChallenge s) else .next s

/-- SEC_OPEN_GO (R336). -/
def execSecOpenGo (s : State) : Host.Outcome State Fault Refusal := .next (wrSecOpen s 2 0)

/-- Step 3 of R337: every confidential slot goes to Erasing, unless it is on its way there. -/
def eraseConf (s : State) : State :=
  let dv := (List.range 8).filter (fun v => s.bit .ckDir v 0 3)
  let s := dv.foldl (fun s v => if dirState s v = 6 then s else dirGo s v 6 0) s
  { s with sec := { s.sec with dirMask := s.sec.dirMask ||| (dv.map (2 ^ ·)).sum } }

/-- A reset in Opening resumes at step 3 (R337; for a device reset log entry 99). -/
def resumeOpening (s : State) : State := if secState s = 2 then eraseConf s else s

/-- The erasure of an accepted opening (R337, R331): class 4 slots are erased, the load engine stops, confidential slots
go to Erasing. -/
def openingErase (s : State) : State :=
  let m4 := (List.range 32).filter (fun i => keyClass s i == 4)
  let s := stopLoad (eraseSecrets s m4)
  eraseConf { s with sec := { s.sec with eraMask := (m4.map (2 ^ ·)).sum, dirMask := 0 } }

/-- OPENING_VERIFIED (R336, R337). -/
def execOpeningVerified (s : State) : Host.Outcome State Fault Refusal :=
  match s.sec.opening with
  | none => .next s
  | some ws =>
    let s : State := { s with sec := { s.sec with opening := none } }
    if (keySlot s 2 (ws.take 16)).isSome && sigOk ws (wordsBytes (ws.drop 32)) then
      let s := s.record 0x0603 0x53 0 (wd (s.rdF .secStat 0 0 12 9)) 0 0
      .next (openingErase ((dropChallenge s).wrF .secState 0 0 1 0 2))
    else .next (refuseOpen (s.incF .secStat 0 0 12 9) 5)

/-- OPEN_ENTERED (R337): every confidential slot has been erased; the background overwriting of R331 is done by then. An
opening that a reset interrupts goes on when the reset ends, at step 3. -/
def execOpenEntered (s : State) : Host.Outcome State Fault Refusal :=
  if secState s ≠ 2 ∨ s.dark ∨ anyN 8 (fun v => (dirState s v == 6 || dirShown s v == 6) && s.sec.dirMask.testBit v) then .next s
  else
    let s := s.record 0x0604 0x53 (wd s.sec.eraMask) (wd s.sec.dirMask) 0 0
    .next (overwriteStored ((s.wrF .secState 0 0 1 0 3).setB .secStat 0 0 8))

/-- A power-on reset (R328): ARM at 1 seals a Blank or Open device with a class 1 slot; without one ARM clears and a
record is written. -/
def resealAtPor (s : State) : State :=
  let st := secState s
  if s.bit .secReseal 0 0 0 && (st == 0 || st == 3) then
    if (List.range 32).any (fun i => keyClass s i == 1) then s.wrF .secState 0 0 1 0 1
    else (s.clrB .secReseal 0 0 0).record 0x0601 0x53 (wd st) 0 0 0
  else s

/-- SEC_CHAL[w] as read: the challenge while CHV is 1. -/
def readSecChal (s : State) (w : Nat) : Word := if s.sec.chv then (chalWords s.sec.chal).getD w 0 else 0

/-- A write to a register of the block (R344); SEC_OPEN's random source is a free value (log entry 4). -/
def wrSec (s : State) (r : Reg) (who i : Nat) (v : Word) : State :=
  if !bootServes s r who then s
  else match r with
  | .secKcmd => wrSecKcmd s v
  | .secKw => s.gate r i fun s => { s with sec := { s.sec with kw := tput (fun _ => 0) s.sec.kw i v } }
  | .secResp => s.gate r i (respWrite · i v)
  | .secBankw => wrSecBankw s v
  | .secRoll => wrSecRoll s v
  | .secSvrel => wrSecSvrel s who v
  | .secReseal => wrSecReseal s v
  | .secOpen =>
    let f (i : Nat) : Word := Config.freeWord (s.free + i)
    { wrSecOpen s v (f 5 ++ f 4 ++ f 3 ++ f 2 ++ f 1 ++ f 0) with free := s.free + 6 }
  | r => s.gate r i (·.wrCodes r i 0 v)

end Sys2Proof.Machine
end

