-- ==== Sys2Proof/Machine/Fm.lean ====
section
/-! DEFINITION. The fault manager (R306–R325): resets, supply episodes, power states, per-function resets, heartbeat,
non-maskable events, and REFCLK, RESETn and PERSTn. -/

namespace Sys2Proof.Machine

/-- Registers in `[lo, hi)` take their after-reset values. -/
def dropRegs (s : State) (lo hi : Nat) : State :=
  { s with regs := s.regs.filter (fun e => !(decide (lo ≤ e.1) && decide (e.1 < hi))) }

/-! ### Power-on and device reset (R317, R318) -/

/-- A register whose value a reset leaves: what the security region, the directory and the Cellar Book keep. -/
def keptReg (a : Nat) : Bool :=
  a == 0x68000000 || a == 0x68000100 || a == 0x68000104 || a == 0x680001E4 ||
    (decide (0x6B000100 ≤ a) && decide (a < 0x6B000200)) || a == 0x69000000 || a == 0x69000004 || a == 0x69000038

/-- A boot-bank write that a reset, or the entry to Hold, cuts short has copied some of its bytes, how many the manual leaves
open (log entries 4 and 130). -/
def cutBank (s : State) : State :=
  match s.sec.bankBusy with
  | none => s
  | some (b, a) =>
    let n := s.freeWord.toNat % 0x100000
    let (bs, s) := readLong s a n
    let t := ((bs.map (·.1)).zipIdx).foldl (fun t p => tput (fun _ => 0) t (b * 0x100000 + p.2) p.1) s.sec.banks
    { s.useFree.clrB .secBankw 0 0 2 with sec := { s.sec with banks := t, bankBusy := none } }

/-- FM_RSTAT after a reset: LAST, RAIL, the RS flag `flag`, DEVCNT (R317, FM_RSTAT). -/
def rstat (old : Word) (last : Nat) (rail : Option Nat) (flag : Nat) : Word :=
  if last = 0 then 0x38
  else
    let w := setFld old 2 0 last
    let w := match rail with | some r => setFld w 5 3 r | none => w
    setFld (setBit w flag true) 31 16 (Nat.min (fld old 31 16 + 1) 65535)

/-- The state in which a reset leaves the device until it ends: after-reset values, the lanes released, the Cask, the
directory, the Cellar Book and the security region unchanged. -/
def resetCore (s : State) (phase : ResetPhase) (por cold : Bool) (rs : Word) : State :=
  let s := cutBank s
  let s := if por || phase == .off then cutRecord s else s
  let b := s.book
  let book : BookS :=
    { perm := b.perm, circ := b.circ, err := b.err, opTime := if por then b.opStored else b.opTime, opStored := b.opStored,
      cycles := if por then (if b.cycles = 0xFFFFFF then b.cycles else b.cycles + 1) else b.cycles,
      clear := if b.erasing then b.clear.map (fun x => (none, x.2)) else none, erasing := b.erasing, clrSlot := b.clrSlot }
  let sec : SecS :=
    { cls := s.sec.cls, keys := s.sec.keys, banks := s.sec.banks, eraMask := s.sec.eraMask, dirMask := s.sec.dirMask,
      nonce := s.sec.nonce, stored := s.sec.stored, digest := if cold then none else s.sec.digest, imgLoad := s.sec.imgLoad, imgLen := s.sec.imgLen,
      imgVer := s.sec.imgVer }
  let cask : CaskS :=
    { data := s.cask.data, err := s.cask.err, check := s.cask.check, checks := s.cask.checks, checkNext := s.cask.checkNext,
      erase := s.cask.erase }
  let fm : FmS :=
    { reset := phase, down := s.fm.down, inrst := if s.str.perstn then [] else [71], vrefUv := s.fm.vrefUv,
      stoA := s.fm.stoA, stoB := s.fm.stoB, trip := s.fm.trip, coreMv := s.fm.coreMv }
  let fails := if por then 0 else s.rdF .secStat 0 0 12 9
  let dbg := if por || s.rdF .secDbg 0 0 1 0 = 0 then 0 else 1
  let s' : State := { State.reset with
    pending := s.pending, free := s.free, mem := s.mem, chk := s.chk, vld := s.vld,
    gcs := tmap (fun x => { uv := x.uv }) {} s.gcs, encs := tmap (·.fresh 0) {} s.encs,
    regs := s.regs.filter (fun e => keptReg e.1), book := book, sec := sec, cask := cask, fm := fm,
    str := { perstn := s.str.perstn }, tap := if por then {} else s.tap }
  let s' := s'.wr .cbStat 0 0 (s'.rd .cbStat 0 0 &&& 0x1FFFFFF)
  let s' := (s'.wr .fmRstat 0 0 rs).wrF .rackPos 0 0 23 0 s.cask.check
  let s' := (s'.wrF .secStat 0 0 12 9 fails).wrF .secDbg 0 0 1 0 dbg
  if por then findHead s' else s'

/-- A power-on reset (R317, R328): cold when VDD_LF is below its reset level or the supplies rise. -/
def powerOn (s : State) (cause : PorCause) : State :=
  match cause with
  | .supplies => resealAtPor (resetCore s .powerOn true true (rstat 0 0 none 0))
  | .rail r =>
    let s : State := { s with fm := { s.fm with down := tput (fun _ => false) s.fm.down r true } }
    if tget (fun _ => false) s.fm.down 3 then resealAtPor (resetCore s .powerOn true true (rstat 0 0 none 0))
    else resealAtPor (resetCore s .powerOn true false (rstat (s.rd .fmRstat 0 0) 1 (some r) 12))

/-- POWER_ON_RESET (R317). In Off only rising supplies bring one. -/
def execPowerOnReset (cause : PorCause) (s : State) : Host.Outcome State Fault Refusal :=
  if s.fm.reset == .off && cause != .supplies then .next s else .next (powerOn s cause)

/-- SUPPLIES_REMOVED (R306): Off. -/
def execSuppliesRemoved (s : State) : Host.Outcome State Fault Refusal :=
  .next (resetCore s .off false true (rstat 0 0 none 0))

/-- A device reset with its LAST code and RS flag (R317). -/
def deviceReset (s : State) (last flag : Nat) : State :=
  if s.fm.reset == .off || s.fm.reset == .powerOn then s
  else resetCore s .device false false (rstat (s.rd .fmRstat 0 0) last none flag)

/-- RESETN_ASSERT: RESETn has been low for 100 ns (R317). -/
def execResetnAssert (s : State) : Host.Outcome State Fault Refusal := .next (deviceReset s 2 8)

/-- A write to FM_CTL (R9, R317): LOCK, and the device reset with KEY 0xA5. -/
def wrFmCtl (s : State) (v : Word) : State :=
  s.gate .fmCtl 0 fun s =>
    let s := s.wrCodes .fmCtl 0 0 v
    if bitOf v 0 && fld v 15 8 == 0xA5 then deviceReset s 4 10 else s

/-- FM_CTL_DEVRST: a write to FM_CTL with DEVRST at 1 (R317). -/
def execFmCtlDevrst (_who : Requester) (v : Word) (s : State) : Host.Outcome State Fault Refusal :=
  .next (wrFmCtl s (setBit v 0 true))

/-- FM_LOCK: a write to FM_CTL with LOCK at 1 (R9). -/
def execFmLock (v : Word) (s : State) : Host.Outcome State Fault Refusal := .next (wrFmCtl s (setBit v 31 true))

/-- The STO inputs as they stand set the latch when low (R116). A latch that a pulse had set before a reset, or before or in
Hold, is not formed again (R118 keeps no latch state; log entry 112). -/
def stoFresh (s : State) : State :=
  let s := stoBits s
  if s.fm.stoA && s.fm.stoB then s else (s.setB .muSto 0 0 2).fault 4

/-- RESET_END (R318): valid bits cleared (R238), the directory restored (R256), VREFEN sampled after a power-on reset
(R369), SV0 starts, ATTENDn carries REASON 0x01, and a warm power-on reset is recorded. -/
def execResetEnd (vrefen : Bool) (extVrefUv : Nat) (s : State) : Host.Outcome State Fault Refusal :=
  if s.fm.reset != .device && s.fm.reset != .powerOn then .next s
  else
    let por := s.fm.reset == .powerOn
    let down := s.fm.down.filter (fun e => decide (4 ≤ e.1))
    let fm := { s.fm with reset := .none, down := down, devEnd := if por then none else some s.steady,
                          vrefUv := if por then (if vrefen then 2500000 else extVrefUv) else s.fm.vrefUv }
    let s := resumeOpening (restoreDirectory (clearAllValid { s with fm := fm }))
    let s := if s.fm.haltSv0 then
        let s := s.setCore 512 { s.core 512 with halted := true }
        setDbg (s.wrF .secDbg 0 0 5 2 1) 2
      else s
    let s := (stoFresh s).forN 16 tripFollow
    let s := if s.rdF .fmRstat 0 0 2 0 = 1 then s.record 0x0101 0x50 (wd (s.rdF .fmRstat 0 0 5 3)) 0 0 0 else s
    .next (settleAll (attnHeld s))

/-! ### Supply episodes (R313–R316) -/

/-- NMI_DELIVERY (R204): kind `k` becomes pending on every supervisor that is neither halted nor locked out, but
`except`. A core not yet released or in reset takes none. -/
def nmiAll (s : State) (k except : Nat) : State :=
  s.forN 4 (fun s n =>
    let c := s.core (512 + n)
    if n = except ∨ c.halted ∨ c.mode = .lockedOut ∨ c.mode = .unreleased ∨ s.inRst (76 + n) then s
    else s.setCore (512 + n) { c with nmi := c.nmi ||| 2 ^ k })

/-- An episode runs on rail `r`. -/
def inEpisode (s : State) (r : Nat) : Bool := (tget (fun _ => none) s.fm.eps r).isSome

/-- Cask writes pause while a rail 0–2 is in an episode, Racking while rail 2 is (R254, R270); in Hold the controller is stopped, and
follows after it (R307). -/
def pauses (s : State) : State :=
  if s.fm.power == .hold then s else setPause s (inEpisode s 0 || inEpisode s 1 || inEpisode s 2) (inEpisode s 2)

/-- The rows whose BELOW reads 1. -/
def belowRows (s : State) : BitVec 64 :=
  BitVec.ofNat 64 (((List.range 64).filter (fun k => s.bit .spmBound k 0 29)).map (2 ^ ·)).sum

/-- The warning level of rail `r` in mV (R313); FM_SUP[0].WARN counts 10 mV steps from 0.64 V, and 9–15 act as 8. -/
def warnMv (s : State) (r : Nat) : Nat :=
  match r with
  | 0 => 640 + 10 * Nat.min 8 (s.rdF .fmSup 0 0 3 0)
  | 1 => 3000
  | 2 => 1020
  | 3 => 1650
  | 4 => 3000
  | 5 => 1650
  | _ => 800

/-- The level of VDD_CORE as reported with rail `r`. -/
def railMv (s : State) (r mv : Nat) : State := s.when (r == 0) (·.atMv mv)

/-- SUPPLY_WARNING_START (R314, R315): the rail has been below its warning level for 200 ns, and stands at `mv`. -/
def execSupplyWarningStart (rail : Fin 7) (mv : Nat) (s : State) : Host.Outcome State Fault Refusal :=
  if inEpisode s rail || s.fm.reset != .none || decide (warnMv s rail ≤ mv) then .next s
  else
    let s := railMv s rail mv
    let e : Episode := { start := s.steady, low := mv, misses := 0, rows := belowRows s }
    let s : State := { s with fm := { s.fm with eps := tput (fun _ => none) s.fm.eps rail (some e) } }
    let s := (((s.setB .fmSstat rail 0 0).setB .fmSstat rail 0 1).wrF .fmSstat rail 0 31 16 mv).fault 3
    if 2 < rail.val then .next s
    else
      let s := pauses (nmiAll s (rail.val + 1) 4)
      .next (if rail.val = 0 then s.forN 64 (fun s k => warnStep s k mv) else s)

/-- SUPPLY_SAMPLE (R314): a 1 µs sample during an episode; MINMV keeps the lowest (DEDUCED, log entry 30). -/
def execSupplySample (rail : Fin 7) (mv : Nat) (s : State) : Host.Outcome State Fault Refusal :=
  match tget (fun _ => none) s.fm.eps rail with
  | none => .next s
  | some e =>
    let s := railMv s rail mv
    let low := Nat.min e.low mv
    let s : State := { s with fm := { s.fm with eps := tput (fun _ => none) s.fm.eps rail (some { e with low := low }) } }
    .next (s.wrF .fmSstat rail 0 31 16 low)

/-- Number of ones in a 64-bit set. -/
def ones64 (x : BitVec 64) : Nat := (List.range 64).countP (fun i => x.getLsbD i)

/-- SUPPLY_EPISODE_END (R314, R316): the rail has been above its warning level plus 10 mV for 200 ns and stands at `mv`;
the record, and Cask writes resume (R254). -/
def execSupplyEpisodeEnd (rail : Fin 7) (s : State) (mv : Nat := 4000) : Host.Outcome State Fault Refusal :=
  match tget (fun _ => none) s.fm.eps rail, decide (mv ≤ warnMv s rail + 10) with
  | none, _ | some _, true => .next s
  | some e, false =>
    let s := railMv s rail mv
    let us := (s.steady - e.start).toNat / 400
    let s : State := { s with fm := { s.fm with eps := tput (fun _ => none) s.fm.eps rail none } }
    let s := ((s.clrB .fmSstat rail 0 0).setB .fmSstat rail 0 2).wrF .fmSstat rail 0 31 16 e.low
    let s := s.wr .fmSdur rail 0 (wd us)
    let z := rail.val = 0
    .next (pauses (s.record 0x0102 0x50 (wd (rail.val + 65536 * (e.low % 65536))) (wd us)
      (if z then wd (Nat.min e.misses 0xFFFFFFFF) else 0) (if z then wd (ones64 e.rows) else 0)))

/-- FM_SUP_WARN_WRITE (R314): a write to FM_SUP[0], whose WARN acts at once. -/
def execFmSupWarnWrite (v : Word) (s : State) : Host.Outcome State Fault Refusal :=
  .next (s.gate .fmSup 0 (·.wrCodes .fmSup 0 0 v))

/-- Every guard comparator enabled now holds its source asserted (R105, R313). -/
def holdGc (s : State) : State :=
  s.forN 64 (fun s n =>
    let h := s.bit .gcMode n 0 0
    let l := s.bit .gcMode n 0 1
    let s := s.setGc n { s.gc n with hold := true }
    (s.when h (setSource · (2 * n) true)).when l (setSource · (2 * n + 1) true))

/-- A reset of the guard comparators begins (R105). -/
def resetGc (s : State) : State := dropRegs (holdGc s) 0x62000000 0x62000400

/-- It ends: the after-reset HEN and LEN deassert the sources (R105). -/
def resetGcEnd (s : State) : State :=
  s.forN 64 (fun s n =>
    setSource (setSource (s.setGc n { uv := (s.gc n).uv }) (2 * n) false) (2 * n + 1) false)

/-- SUPPLY_BELOW_RESET_LEVEL (R313). -/
def execSupplyBelowResetLevel (rail : Fin 7) (s : State) : Host.Outcome State Fault Refusal :=
  if s.fm.reset == .off then .next s
  else if h : rail.val < 4 then .next (powerOn s (.rail ⟨rail.val, h⟩))
  else
    let s : State := { s with fm := { s.fm with down := tput (fun _ => false) s.fm.down rail true } }
    match rail.val with
    | 4 => .next ((({ s with ads := [] }).forN 16 (fun s k => s.wrF .adStat k 0 1 0 0)).when (!s.dark) holdGc)
    | 5 => .next (portDown (portDown s 0) 1)
    | _ => .next ((pcieDown s).setB .stStat 0 0 9)

/-- SUPPLY_RESTORED (R313): each affected function restarts as after its own per-function reset. While function 67 is held in
reset its comparators keep their sources asserted; in Hold and in a reset comparators and converters are off (R105, R307). -/
def execSupplyRestored (rail : Fin 7) (s : State) : Host.Outcome State Fault Refusal :=
  let was := tget (fun _ => false) s.fm.down rail
  let s : State := { s with fm := { s.fm with down := tput (fun _ => false) s.fm.down rail false } }
  match rail.val, was with
  | 4, true =>
    if s.dark then .next s
    else if s.inRst 67 then .next (resetAd s)
    else .next (resetGcEnd (resetGc (resetAd s)))
  | 5, true => .next ((s.wr .stLink 0 0 0).wr .stLink 1 0 0)
  | _, _ => .next s

/-! ### Power states (R306–R312)

The end of the entry to Hold stands beside the loads that it waits for (`execHoldEntryComplete`). -/

/-- A request is refused (R306, R309, R342). -/
def powerRefuse (s : State) (rsn : Nat) : State := (s.setB .fmPstat 0 0 6).wrF .fmPstat 0 0 10 8 rsn

/-- The device moves to a power phase whose STATE code is `st`. -/
def powerGo (s : State) (p : PowerPhase) (st : Nat) : State :=
  ({ s with fm := { s.fm with power := p } }).wrF .fmPstat 0 0 1 0 st

/-- Run again from Idle. -/
def leaveIdle (s : State) : State := startWaiting ((powerGo s .run 0).setB .fmPstat 0 0 5)

/-- A wake source is enabled (R310). -/
def wakeEnabled (s : State) : Bool := s.bit .fmPwr 0 0 6 || s.bit .fmPwr 0 0 8 || s.bit .tbCtl 0 0 4

/-- A power-state request (R306, R308, R309, R337, R342). -/
def powerRequest (s : State) (req : Nat) : State :=
  let dbg := s.rdF .secDbg 0 0 1 0
  if req = 3 ∨ s.fm.power = .hold then s
  else if s.fm.power = .enteringIdle ∨ s.fm.power = .enteringHold then powerRefuse s 1
  else if req = 0 then (if s.fm.power = .idle then leaveIdle s else s)
  else if secState s = 2 then powerRefuse s 1
  else if dbg = 3 ∨ (req = 2 ∧ dbg ≠ 0) then powerRefuse s 3
  else if req = 1 then (if s.fm.power = .run then powerGo s .enteringIdle 2 else s)
  else if !wakeEnabled s then powerRefuse s 2
  else
    let s := s.forN 64 endRisk
    settleAll (stopLoad (powerGo s .enteringHold 3))

/-- A write to FM_PWR (R306): the fields, and a request when a privileged supervisor writes it. -/
def wrFmPwr (s : State) (who : Nat) (v : Word) : State :=
  s.gate .fmPwr 0 fun s =>
    let s := s.wrCodes .fmPwr 0 0 v
    if 512 ≤ who ∧ who < 516 ∧ svPriv s (who - 512) then powerRequest s (fld v 1 0) else s

/-- FM_PWR_RUN: a write to FM_PWR with REQ 0. -/
def execFmPwrRun (who : Requester) (v : Word) (s : State) : Host.Outcome State Fault Refusal :=
  .next (wrFmPwr s (reqNum who) (setFld v 1 0 0))

/-- FM_PWR_IDLE: a write to FM_PWR with REQ 1 (R308). -/
def execFmPwrIdle (who : Requester) (v : Word) (s : State) : Host.Outcome State Fault Refusal :=
  .next (wrFmPwr s (reqNum who) (setFld v 1 0 1))

/-- FM_PWR_HOLD: a write to FM_PWR with REQ 2 (R309). -/
def execFmPwrHold (who : Requester) (v : Word) (s : State) : Host.Outcome State Fault Refusal :=
  .next (wrFmPwr s (reqNum who) (setFld v 1 0 2))

/-- Every supervisor that runs is in WFI and every engine is Idle or Stopped (R306). -/
def allQuiet (s : State) : Bool :=
  !anyN 4 (fun n => (s.core (512 + n)).mode == .active && !(s.core (512 + n)).halted && !s.inRst (76 + n)) &&
    !s.cores.any (fun e => decide (e.1 < 512) && e.2.mode == .active)

/-- IDLE_ENTERED (R308). -/
def execIdleEntered (s : State) : Host.Outcome State Fault Refusal :=
  if s.fm.power == .enteringIdle && allQuiet s then .next ((powerGo s .idle 1).setB .fmPstat 0 0 5) else .next s

/-- IDLE_EXIT (R306). -/
def execIdleExit (cause : IdleCause) (s : State) : Host.Outcome State Fault Refusal :=
  let go := match cause with
    | .irq n => signalled s n
    | .wakePin => s.bit .fmPwr 0 0 6
    | .stringWake => s.bit .fmPwr 0 0 8
    | .power => true
  if s.fm.power == .idle && go then .next (leaveIdle s) else .next s

/-- WAKE_PIN (R310): the pin has been at its active level for 100 ns. -/
def execWakePin (s : State) : Host.Outcome State Fault Refusal :=
  if s.bit .fmPwr 0 0 6 then .next (noteWake s 1) else .next s

/-- STRING_WAKE_SEQUENCE (R280, R310): it passes on through ports in pass-through, and wakes the device. -/
def execStringWakeSequence (s : State) : Host.Outcome State Fault Refusal :=
  let s : State := if passing s 0 || passing s 1 then { s with str := { s.str with wakeSent := true } } else s
  if s.bit .fmPwr 0 0 8 then .next (noteWake s 2) else .next s

/-- A register of a block that Hold does not keep (R307, R360); MU_CTL.LOCK is cleared only by a reset (R118). -/
def lostInHold (a : Nat) : Bool :=
  let b := a / 0x1000000
  a != 0x6E000000 &&
  (b == 0x00 || b == 0x60 || b == 0x61 || b == 0x62 || b == 0x63 || b == 0x6A || b == 0x6D || b == 0x6E || b == 0x6F ||
    (decide (0x67001000 ≤ a) && decide (a < 0x67001200)) || decide (0x100000000 ≤ a))

/-- The scrubbers start again at word 0 (R241). -/
def scrubFresh (a : Nat) : Bool := decide (0x6C001000 ≤ a) && a % 0x20 == 0x18

/-- The Boot ROM starts on SV0 again: BOOTF of the boot before is 0, and its request ends (R332, R334; log entry 117). -/
def bootAgain (s : State) : State := if s.bit .secStat 0 0 2 then attnDrop (s.clrB .secStat 0 0 2) 1 else s

/-- HOLD_WAKE (R311): the core domain is powered, memories not kept have no valid word, the interrupt controller is
restored (R231), SV0 restarts with LAST 6, re-application of an accepted descriptor begins (R312). -/
def execHoldWake (s : State) : Host.Outcome State Fault Refusal :=
  if s.fm.power != .hold || s.fm.wake == 0 then .next s
  else
    let src := s.fm.wake
    let kept (a : Nat) : Bool := anyN 4 (fun b => s.bit .fmPwr 0 0 (2 + b) &&
      decide (0x20000000 + 0x100000 * b ≤ a) && decide (a < 0x20000000 + 0x100000 * (b + 1)))
    let acc := s.bit .stDsc 0 0 0
    let s := resetPmu s
    let s : State := { s with
      regs := s.regs.filter (fun e => !lostInHold e.1 && !scrubFresh e.1), vld := s.vld.filter (fun e => kept (8 * e.1)),
      crPend := [], cores := [], trios := [], lanes := [], commits := [], sds := [], sdgs := [], ads := [], srcs := [],
      slots := [], rows := [], eacts := [],
      gcs := tmap (fun x => { uv := x.uv }) {} s.gcs, encs := tmap (·.fresh s.tb.ticks) {} s.encs,
      mems := tmap (fun x => { owner := x.owner }) {} s.mems,
      fm := { s.fm with scrubAt := s.steady, tripOn := [], pinsKept := none, wake := 0, inrst := if s.str.perstn then [] else [71], stoClearing := false, stoRearm := false },
      str := { s.str with reapply := acc } }
    let s := restoreIrq s
    let s := (powerGo s .run 0).setB .fmPstat 0 0 5
    let s := (s.wrF .fmPstat 0 0 4 2 src).wrF .fmRstat 0 0 2 0 6
    let s := (bootAgain s).when acc (·.setB .stDsc 0 0 1)
    .next (pauses (settleAll ((stoFresh s).forN 16 tripFollow)))

/-! ### Per-function reset (R321, R322) -/

/-- A supervisor is held in reset (R212, R215, R229): its registers, in-flight work and stack are gone. -/
def resetSv (s : State) (n : Nat) : State :=
  let s := dropOwner s n
  let s := dropRegs s (0x100000000 + 256 * n) (0x100000000 + 256 * (n + 1))
  let s : State := { s with crPend := s.crPend.filter (fun e => !(e.1 / 64 == 512 + n)) }
  (s.clrB .secDbg 0 0 (2 + n)).setCore (512 + n) { mode := .unreleased }

/-- Function `f` is held in reset. -/
def fresetBegin (s : State) (f : Nat) : State :=
  let s := s.incF .fmStat f 0 15 8
  let s : State := { s with fm := { s.fm with inrst := f :: s.fm.inrst, probes := s.fm.probes.filter (· != f) } }
  if f < 64 then rowReset s f
  else match f with
    | 64 => resetSensing s
    | 65 => resetAd s
    | 66 => resetEnc s
    | 67 => resetGc s
    | 68 => resetCask s
    | 69 | 70 => (portDown s (f - 69)).wr .stLink (f - 69) 0 0
    | 71 => pcieDown s
    | 72 => resetIrq s
    | 73 => resetPmu s
    | 74 => resetBook s
    | _ => resetSv s (f - 76)

/-- A reset of function `f` is asked for (R321): refused for an ID without a function or one in reset. -/
def freset (s : State) (f : Nat) : State :=
  if f = 75 ∨ 79 < f ∨ s.inRst f then s.setB .fmFreset 0 0 9 else fresetBegin s f

/-- Requester `who` can write FM_FRESET (R321): a privileged supervisor or the debug port. The host has FRESET for it. -/
def mayFreset (s : State) (who : Nat) : Bool :=
  who == 517 || (decide (512 ≤ who) && decide (who < 516) && svPriv s (who - 512))

/-- FM_FRESET takes a word; with GO at 1 the function ID is reset. -/
def fresetWrite (s : State) (v : Word) : State :=
  s.gate .fmFreset 0 fun s =>
    let s := s.wrCodes .fmFreset 0 0 v
    if bitOf v 31 then freset s (fld v 6 0) else s

/-- A write to FM_FRESET by requester `who` (R321). -/
def wrFmFreset (s : State) (who : Nat) (v : Word) : State := if mayFreset s who then fresetWrite s v else s

/-- FM_FRESET: a write to FM_FRESET with GO at 1 (R321). -/
def execFmFreset (who : Requester) (v : Word) (s : State) : Host.Outcome State Fault Refusal :=
  .next (wrFmFreset s (reqNum who) (setBit v 31 true))

/-- FRESET_END (R322): the function restarts. Function 71 stays held while PERSTn is low (R387). -/
def execFresetEnd (f : Fin 80) (s : State) : Host.Outcome State Fault Refusal :=
  if !s.inRst f || (f.val = 71 && !s.str.perstn) then .next s
  else
    let s : State := { s with fm := { s.fm with inrst := s.fm.inrst.filter (· != f.val),
                                                frEnd := tput (fun _ => none) s.fm.frEnd f (some s.steady) } }
    if f.val < 64 then .next (rowResetEnd s f)
    else match f.val with
      | 64 => .next (resetSensingEnd s)
      | 67 => .next (resetGcEnd s)
      | 76 => .next ((bootAgain s).setCore 512 { s.core 512 with mode := .active, pc := 0 })
      | _ => .next s

/-- PERSTN_ASSERT (R387): PERSTn moves to `level`; while it is low function 71 is held in reset. -/
def execPerstnAssert (level : Bool) (s : State) : Host.Outcome State Fault Refusal :=
  let s : State := { s with str := { s.str with perstn := level } }
  if level then .next { s with fm := { s.fm with inrst := s.fm.inrst.filter (· != 71) } }
  else if s.inRst 71 then .next s
  else .next (pcieDown { s with fm := { s.fm with inrst := 71 :: s.fm.inrst } })

/-! ### Heartbeat (R323, R324) -/

/-- Function `f` is stopped by a rail below its reset level (R313). -/
def railStopped (s : State) (f : Nat) : Bool :=
  let d (r : Nat) : Bool := tget (fun _ => false) s.fm.down r
  ((f == 65 || f == 67) && d 4) || ((f == 69 || f == 70) && d 5) || (f == 71 && d 6)

/-- A probe goes to function `f` (R323). A supervisor that has not been released gets none. -/
def probed (s : State) (f : Nat) : Bool :=
  let sv := s.core (512 + (f - 76))
  f != 75 && !s.inRst f && !railStopped s f && !(decide (76 ≤ f) && (sv.halted || sv.mode == .unreleased))

/-- HEARTBEAT_PROBE (R323): every function is probed; those in `silent`, and a locked-out core, do not answer. -/
def execHeartbeatProbe (silent : List (Fin 80)) (s : State) : Host.Outcome State Fault Refusal :=
  if !s.timeOk || s.fm.reset != .none || s.fm.power == .hold then .next s
  else
    .next (s.forN 80 (fun s f =>
      if !probed s f then s
      else if silent.any (fun x => x.val == f) || (decide (76 ≤ f) && (s.core (512 + (f - 76))).mode == .lockedOut) then
        { s with fm := { s.fm with probes := if f ∈ s.fm.probes then s.fm.probes else f :: s.fm.probes } }
      else (s.wrF .fmStat f 0 3 0 ((s.rdF .fmStat f 0 3 0 + 1) % 16)).setB .fmStat f 0 4))

/-- A moment lies at most 100 ms back. -/
def within100ms (s : State) (t : Option (BitVec 64)) : Bool :=
  match t with
  | some t => decide ((s.steady - t).toNat ≤ 40000000)
  | none => false

/-- PROBE_TIMEOUT (R323, R324): the probe of `f` has stayed unanswered for LIMIT µs; WEDGE is set and the attention
requests made. A function wedges again when it has wedged before since the last power-on or device reset (log entry 92). -/
def execProbeTimeout (f : Fin 80) (s : State) : Host.Outcome State Fault Refusal :=
  if f.val ∉ s.fm.probes then .next s
  else
    let again := s.fm.wedged.contains f.val
    let s : State := { s with fm := { s.fm with probes := s.fm.probes.filter (· != f.val),
                                                wedged := if again then s.fm.wedged else f.val :: s.fm.wedged } }
    let s := ((s.clrB .fmStat f 0 4).setB .fmStat f 0 5).fault 1
    let s := s.when (s.bit .fmStat f 0 7) (·.attn 2 f)
    let s := s.when (again && within100ms s (tget (fun _ => none) s.fm.frEnd f)) (·.attn 3 0)
    .next (s.when (within100ms s s.fm.devEnd) (·.attn 0x0F 0))

/-- RESET_BOUND_EXCEEDED (R324): a per-function reset exceeds ten times its bound, or a device reset (none) 10 ms. -/
def execResetBoundExceeded (f : Option (Fin 80)) (s : State) : Host.Outcome State Fault Refusal :=
  match f with
  | some f => if s.inRst f then .next (s.attn 3 0) else .next s
  | none => if s.fm.reset == .device then .next (s.attn 0x0F 0) else .next s

/-- FM_INRST[w] as read: the functions in reset (R321). -/
def readFmInrst (s : State) (w : Nat) : Word :=
  wd (((List.range 32).filter (fun b => s.inRst (32 * w + b))).map (2 ^ ·)).sum

/-- FM_FRESET as read: BUSY for the function last written. -/
def readFmFreset (s : State) : Word := setBit (s.rd .fmFreset 0 0) 8 (s.inRst (s.rdF .fmFreset 0 0 6 0))

/-- FM_STAT[f] as read; f = 75 reads 0. -/
def readFmStat (s : State) (f : Nat) : Word := if f = 75 then 0 else setBit (s.rd .fmStat f 0) 6 (s.inRst f)

end Sys2Proof.Machine
end

