-- ==== Sys2Proof/Machine/Bus.lean ====
section
/-! DEFINITION. The address space (R390, R391) and its accesses: what a register read returns, what a register write
does, and which accesses of which requester are judged a bus error, a misaligned fault or a protection exception
(R8–R10, R135, R141, R145, R197–R201, R216, R297, R343, R358). -/

namespace Sys2Proof.Machine

/-! ### Registers -/

/-- The host over the String, whose writes do not reach what only PCIe may write (R278); its latches are the host's. -/
def strHost : Nat := 519

/-- The requester whose latches and banks an access uses. -/
def latchOf (who : Nat) : Nat := if who = strHost then 516 else who

/-- Requester `who` is a supervisor. -/
def isSv (who : Nat) : Bool := decide (512 ≤ who) && decide (who < 516)

/-- A word of CB_READ or CB_RDATA as the requester's bank shows it (R351). -/
def readBank (s : State) (who : Nat) (w : Option Nat) : Word :=
  let b := s.bank (bankOf who)
  match w with
  | none => setBit b.sel 31 b.ready
  | some w => if b.ready then (b.words.getD w (0, false)).1 else 0

/-- A word of CB_RDATA that an uncorrectable entry gave is poisoned (R351). -/
def bankPoison (s : State) (who a : Nat) : Bool :=
  match regAt (a / 4 * 4) with
  | some (.cbRdata, i, _) => let b := s.bank (bankOf (latchOf who)); b.ready && (b.words.getD i (0, false)).2
  | _ => false

/-- A lane register of the Heritage window as read (R217, R219). -/
def readHw (s : State) (r : Reg) (n : Nat) : Word :=
  if !s.bit .hwCtl 0 0 0 then 0
  else match r with
    | .hwPerl => wd (s.rdF .lnPer (first n) 0 15 0)
    | .hwPerh => wd (s.rdF .lnPer (first n) 0 23 16)
    | .hwStat => wd (s.rdF .lnStat n 0 6 0)
    | r => s.rd r n 0

/-- The after-reset value of `r` comes from the Cask: from the Cellar Book's region, the directory or a checkpoint (R256,
R270, R347). -/
def fromCask (r : Reg) : Bool :=
  match r with
  | .cbStat | .cbHead | .cbCcnt | .cbSer | .ckDir | .ckDirr | .ckDirh | .ckDirnl | .ckDirnh | .ckDirseq | .rackPos => true
  | _ => false

/-- A read of register `r` at `i`, `j` by requester `who`: the word, and the state after what the read itself does
(R9, R38, R54, R99, R225, R232); the trio-wide registers and fields read as R57 says; a register of a function held in
reset reads its after-reset value (R322). -/
def readReg (s : State) (who : Nat) (r : Reg) (i j : Nat) : Word × State :=
  let who := latchOf who
  if s.funcHeld r i && !fromCask r then (r.rstAt i j &&& r.readMask i j, s)
  else match r with
  | .tbNowl => readTbNowl s who
  | .tbNowh => (readTbNowh s who, s)
  | .tbStat => (readTbStat s, s)
  | .tbTrim => (readTbTrim s, s)
  | .gtStat => (readGtStat s i, s)
  | .gtCapl => readGtCapl s who i j
  | .gtCaph => readGtCaph s who i j
  | .irqPrio => (readIrqPrio s i, s)
  | .irqTgt => (if noSource i then 0 else s.rd .irqTgt i 0 &&& Reg.irqTgt.readMask i 0, s)
  | .irqSdep => (readIrqSdep s i, s)
  | .irqStack => (readIrqStack s i j, s)
  | .irqClaim => if isSv who then (fun x => (wd x.1, x.2)) (irqClaim s (who - 512)) else (0, s)
  | .stCycno => (cycleNow s, s)
  | .stHost => (readStHost s, s)
  | .fmInrst => (readFmInrst s i, s)
  | .fmFreset => (readFmFreset s, s)
  | .fmStat => (readFmStat s i, s)
  | .secKey => (wd (keyClass s i), s)
  | .secChal => (readSecChal s i, s)
  | .cbRead => (readBank s who none, s)
  | .cbRdata => (readBank s who (some i), s)
  | .cbSer => (serialWords.getD i 0, s)
  | .pmuFixl => readPmuFixl s who i
  | .pmuFixh => (readPmuFixh s who i, s)
  | .adRes => readAdRes s i j
  | .mpNext => (readMpNext s i, s)
  | .hwPerl | .hwPerh | .hwDutyl | .hwDutyh | .hwStat => (readHw s r i, s)
  | .lnPer | .lnPsc | .lnCnt => (s.rd r (first i) 0, s)
  | .lnCtl => (if i % 3 = 0 then s.rd .lnCtl i 0 else s.rd .lnCtl i 0 &&& 0xFF, s)
  | r => (s.rd r i j &&& r.readMask i j, s)

/-- A write of `v` to register `r` at `i`, `j` by requester `who` (R9, R10 and each block's own rules). -/
def writeReg (s : State) (who : Nat) (r : Reg) (i j : Nat) (v : Word) : State :=
  match r with
  | .lnCtl | .lnPer | .lnPsc | .lnDuty | .lnEdgea | .lnEdgeb | .lnDtr | .lnDtf | .lnMinp | .lnEvt | .lnOvr | .lnCommit
  | .lnStat | .lnOwed | .lnRefn | .lnRefw | .lnRefloss | .lnCnt => wrLane s r i v
  | .sdFlt => wrSdFlt s i v
  | .sdCflt => wrSdCflt s i v
  | .sdWin => wrSdWin s i v
  | .sdClk => wrSdClk s i v
  | .gcDac => wrGc s i false v
  | .gcMode => wrGc s i true v
  | .epCfg => wrEpCfg s i v
  | .epPos => wrEpPos s i v
  | .epLat => wrEpLat s i v
  | .epSsi => wrEpSsi s i v
  | .tbCtl => wrTbCtl s v
  | .tbWakeh => wrTbWakeh s v
  | .gtCtl => wrGtCtl s i v
  | .gtPer => wrGtPer s i v
  | .gtCnt => wrGtCnt s i v
  | .gtCmp => wrGtCmp s i j v
  | .gtCst => wrGtCst s i j v
  | .irqDone => if isSv who then irqDone s (who - 512) (fld v 9 0) else s
  | .irqPrio | .irqTgt => if noSource i then s else s.gate r i (·.wrCodes r i j v)
  | .irqSwset => swSet s v
  | .irqSdep => s.gate .irqSdep i (·.when (bitOf v 18) (emptyStack · i))
  | .irqAexr => wrIrqAexr s i v
  | .stCtl => wrStCtl s (who == 516) v
  | .stCyct => wrStCyct s v
  | .stAttn => wrStAttn s v
  | .stHost => wrStHost s v
  | .stMbo => wrStMbo s i v
  | .fmCtl => wrFmCtl s v
  | .fmPwr => wrFmPwr s who v
  | .fmFreset => wrFmFreset s who v
  | .secState | .secStat | .secKcmd | .secBoot | .secRoll | .secSvrel | .secSvpc | .secBankw | .secOpen | .secReseal
  | .secDbg | .secKw | .secKey | .secChal | .secResp => wrSec s r who i v
  | .cbRead => wrCbRead s (latchOf who) v
  | .cbClear => wrCbClear s v
  | .cbCsig => wrCbCsig s i v
  | .pmuCtl | .pmuUen | .pmuOvf | .pmuSkid | .pmuFixl | .pmuFixh | .pmuArl | .pmuArh | .pmuCnt | .pmuEvt | .pmuRctl
  | .pmuTag | .pmuRcnt | .pmuRevt | .pmuTrec | .pmuDctl | .pmuDbase | .pmuDstat => wrPmu s r i j v
  | .ckCtl => wrCkCtl s v
  | .ckLdcnt => wrCkLdcnt s v
  | .ckLdsrc | .ckLddst => wrCkLoadAddr s r v
  | .ckFlipl | .ckFliph | .ckFlipc => wrCkFlip s r v
  | .ckSwitch => wrCkSwitch s v
  | .ckDir => wrCkDir s i v
  | .ckDirr => wrCkDirr s i v
  | .memCfg => wrMemCfg s i v
  | .memFlip => wrMemFlip s (latchOf who) i v
  | .adCtl => wrAdCtl s i v
  | .adTrig | .adDst | .adSeq => wrAdCfg s r i j v
  | .adStat => wrAdStat s i v
  | .muSwtrip => wrMuSwtrip s v
  | .muSto => wrMuSto s v
  | .muTripcfg => wrMuTripcfg s i v
  | .muLine => wrMuLine s i v
  | .muRoute => wrMuRoute s i j v
  | .muMask => wrMuMask s i j v
  | .muSafe => s.gate .muSafe i fun s => settle (s.wrCodes .muSafe i 0 v) i
  | .rwCtl => wrRwCtl s i v
  | .rwTrios => wrRwTrios s i v
  | .rwFloor => wrRwFloor s i v
  | .rwBind => wrRwBind s i j v
  | .rwTrig | .rwWait | .rwDl => wrRwSlot s r i j v
  | .rwSstat => wrRwSstat s i j v
  | .ceCr => if isSv who || who = 516 || who = 517 || who = strHost then wrCeCr s i j v else s
  | .hwCtl => wrHwCtl s (v.truncate 16)
  | .hwPerh => wrHwPerh s i (v.truncate 16)
  | .hwDutyh => wrHwDutyh s i (v.truncate 16)
  | .hwPerl => if s.bit .hwCtl 0 0 0 && i % 3 == 0 then s.gate .lnPer i (·.wrCodes .hwPerl i 0 v) else s
  | .hwDutyl => if s.bit .hwCtl 0 0 0 then s.gate .lnPer i (·.wrCodes .hwDutyl i 0 v) else s
  | r => s.gate r i (·.wrCodes r i j v)

/-- The word buffers of the String block (R302). -/
def isBuf (a : Nat) : Bool := decide (0x66008000 ≤ a) && decide (a < 0x66010000)

/-- A word read in peripheral space: a buffer, a register, or 0 at an unlisted offset. -/
def readWord (s : State) (who a : Nat) : Word × State :=
  if isBuf a then (s.buf (a - 0x66000000), s)
  else match regAt a with
    | some (r, i, j) => readReg s who r i j
    | none => (0, s)

/-- A word written in peripheral space. -/
def writeWordAt (s : State) (who a : Nat) (v : Word) : State :=
  if isBuf a then s.gate .stCtl 0 (putBuf · (a - 0x66000000) [v])
  else match regAt a with
    | some (r, i, j) => writeReg s who r i j v
    | none => s

/-! ### Judging an access -/

/-- What an access does at its target. -/
inductive AccOp where
  | fetch
  | load
  | store
  | atomic
  deriving DecidableEq, Repr

/-- Peripheral space, and the Heritage window. -/
def periph (a : Nat) : Bool := decide (0x60000000 ≤ a) && decide (a < 0x70000000)
def hwWindow (a : Nat) : Bool := decide (0x80000 ≤ a) && decide (a < 0x81000)

/-- The accesses of `sz` bytes at `a`: one, or one on each side of the 4-byte boundary it crosses (R141). -/
def halves (a sz : Nat) : List (Nat × Nat) :=
  let n := 4 - a % 4
  if sz ≤ n then [(a, sz)] else [(a, n), ((a + n) % 2 ^ 32, sz - n)]

/-- The access crosses a 4-byte boundary. -/
def isSplit (a sz : Nat) : Bool := decide (4 < a % 4 + sz)

/-- A supervisor may write the byte of engine instruction memory at `a`: the engine is Idle or Stopped, and not Halted (R145). -/
def insnWritable (s : State) (a : Nat) : Bool :=
  let k := s.core ((a - 0x11000000) / 0x8000)
  (k.mode == .idle || k.mode == .stopped) && !k.halted

/-- The table of R197 for `n` bytes at `a`, which cross no 4-byte boundary, with the widths of the peripheral blocks,
the spans of R391, R145 and R251. -/
def busOk (s : State) (op : AccOp) (a n : Nat) : Bool :=
  if a < 0x40000 then op == .fetch || op == .load
  else if hwWindow a then op == .load || op == .store
  else if 0x10000000 ≤ a ∧ a < 0x11000000 then op != .fetch
  else if 0x11000000 ≤ a ∧ a < 0x12000000 then
    op == .load || (if a % 0x8000 < 0x4000 then op == .store && insnWritable s a else op != .fetch)
  else if 0x20000000 ≤ a ∧ a < 0x20400000 then true
  else if 0x40000000 ≤ a ∧ a < 0x48000000 then op == .load && !confEntry s ((a - 0x40000000) / 8)
  else periph a && inBlock a && n == 4 && (op == .load || op == .store)

/-- Address bound of MPU region `r` of supervisor `n`: START or END (R201). -/
def mpuAddr (s : State) (n cr : Nat) : Nat := 64 * s.rdF .svCr n cr 31 6

/-- The region that decides an access of supervisor `n` at byte `a` (R201). -/
def mpuRegion (s : State) (n a : Nat) : Option Nat :=
  (List.range 16).find? (fun r => s.bit .svCr n (32 + r) 0 && decide (mpuAddr s n (32 + r) ≤ a) &&
    decide (a < mpuAddr s n (48 + r)))

/-- The table of R201. -/
def mpuOk (s : State) (n : Nat) (priv : Bool) (op : AccOp) (a : Nat) : Bool :=
  let right (r b : Nat) : Bool := s.bit .svCr n (32 + r) b
  match mpuRegion s n a with
  | none => priv
  | some r =>
    if priv then
      !s.bit .svCr n 2 2 || (match op with | .fetch => right r 2 | .load => true | _ => right r 1)
    else match op with
      | .fetch => right r 5
      | .load => right r 3
      | .store => right r 4
      | .atomic => right r 3 && right r 4

/-- A user-level access of supervisor `n` within a word of the PMU that R358 permits: its own counters with their UEN bit. -/
def pmuUserOk (s : State) (n : Nat) (op : AccOp) (a : Nat) : Bool :=
  op == .load && match regAt (a / 4 * 4) with
    | some (.pmuFixl, i, _) | some (.pmuFixh, i, _) => i == n && s.bit .pmuUen n 0 8
    | some (.pmuCnt, i, j) => i == n && s.bit .pmuUen n 0 j
    | _ => false

/-- A protection exception for supervisor `n` on one half of an access (R198, R201, R351, R358). -/
def protects (s : State) (n : Nat) (op : AccOp) (a sz : Nat) : Bool :=
  let priv := svPriv s n
  !mpuOk s n priv op a ||
    (!priv && ((decide (0x20000000 < a + sz) && decide (a < 0x20001000)) || (a / 0x1000000 == 0x69 && inBlock a) ||
      (a / 0x1000000 == 0x6A && inBlock a && !pmuUserOk s n op a)))

/-- The one exception of an access of supervisor `n` (R199): 0 none, 4 misaligned, 5 bus error, 6 protection. The
Heritage window refuses every supervisor but SV0 (R216); a fetch there is none of its access widths. -/
def svJudge (s : State) (n : Nat) (op : AccOp) (a sz : Nat) : Nat :=
  let hs := halves a sz
  let hw := hs.any (fun h => hwWindow h.1 || hwWindow (h.1 + h.2 - 1))
  if hw && n != 0 then 5
  else if (a % sz != 0 && (op == .atomic || hs.any (fun h => periph h.1))) || (hw && op != .fetch && !(sz == 2 && a % 2 == 0 && op != .atomic))
  then 4
  else if hs.any (fun h => protects s n op h.1 h.2) then 6
  else if hs.all (fun h => busOk s op h.1 h.2) then 0
  else 5

/-- The one exception of a long instruction's access of `sz` bytes at `a`, at most 8 from a multiple of 8 (R175, R201). -/
def stepJudge (s : State) (n : Nat) (op : AccOp) (a sz : Nat) : Nat :=
  if hwWindow a then (if n = 0 then 4 else 5)
  else if protects s n op a sz then 6
  else if !periph a && (List.range sz).all (fun i => busOk s op (a + i) 1) then 0
  else 5

/-- Word at `a` of peripheral space is one a control engine may load (R135, R358). -/
def ceLoadable (s : State) (n a : Nat) : Bool :=
  let b := a / 0x1000000
  inBlock a && (b ∈ [0x60, 0x61, 0x62, 0x63, 0x64, 0x67, 0x6D, 0x6E, 0x6F] ||
    (b == 0x6A && match regAt a with
      | some (.pmuRcnt, k, c) => k == n / 8 && s.bit .pmuRctl k 0 (14 + c)
      | _ => false))

/-- A lane of a trio bound to the row of engine `n` holds address `a` (R135). -/
def ceLane (s : State) (n a : Nat) : Bool :=
  decide (0x60000000 ≤ a) && decide (a < 0x6000C000) && ((a - 0x60000000) / 0x100) ∈ rowLanes s (n / 8)

/-- The staging list of engine `n` has room for one more lane store (R187): 32 before the first COMMIT of the
activation, those in the store buffer included. -/
def stageRoom (s : State) (n : Nat) : Bool :=
  let e := s.eact n
  let sb := (s.core n).sb
  e.committed || sb.any (·.commit) ||
    decide (e.staged.length + (sb.filter (fun x => decide (0x60000000 ≤ x.addr))).length < 32)

/-- One half of a control engine's access is permitted (R135, R168, R187). -/
def ceOk (s : State) (n : Nat) (op : AccOp) (a sz : Nat) : Bool :=
  if a < 0x4000 then op == .fetch
  else if a < 0x8000 then op != .fetch
  else if 0x10000000 ≤ a ∧ a < 0x11000000 then op != .fetch
  else periph a && sz == 4 &&
    ((op == .load && ceLoadable s n a) || (op == .store && ceLane s n a && stageRoom s n))

/-- The fault of an access of control engine `n` (R135, R141, R216): 0 none, 4 misaligned, 5 bus error, which comes first in the
Heritage window. -/
def ceJudge (s : State) (n : Nat) (op : AccOp) (a sz : Nat) : Nat :=
  let hs := halves a sz
  if hs.any (fun h => hwWindow h.1 || hwWindow (h.1 + h.2 - 1)) then 5
  else if a % sz != 0 && (op == .atomic || hs.any (fun h => periph h.1)) then 4
  else if hs.all (fun h => ceOk s n op h.1 h.2) then 0
  else 5

/-- The fault of an access of core `c`, engines 0–511 and supervisors 512–515. -/
def judge1 (s : State) (c : Nat) (op : AccOp) (a sz : Nat) : Nat :=
  if c < 512 then ceJudge s c op a sz else svJudge s (c - 512) op a sz

/-- The host or debug requester reaches the `n` bytes at `a` (R297): as a privileged supervisor without an MPU, with
peripheral space taken word by word and the Heritage window refused (R216). -/
def hostReach (s : State) (op : AccOp) (a n : Nat) : Bool :=
  if periph a then
    a % 4 == 0 && n % 4 == 0 && (List.range (n / 4)).all (fun i => busOk s op (a + 4 * i) 4)
  else (List.range n).all (fun i => !hwWindow (a + i) && !periph (a + i) && busOk s op (a + i) 1)

/-- A byte that the security state denies the host (R343). -/
def secDenies (s : State) (a : Nat) : Bool :=
  (secState s = 1 || secState s = 2) &&
    (decide (a < 0x40000) || (decide (0x11000000 ≤ a) && decide (a < 0x12000000)) ||
      (decide (0x20000000 ≤ a) && decide (a < 0x20100000)) ||
      (decide (0x68000000 ≤ a) && decide (a < 0x68000200) && !(match regAt (a / 4 * 4) with
        | some (.secState, _) | some (.secStat, _) | some (.secChal, _) | some (.secResp, _) | some (.secOpen, _) => true
        | _ => false)))

/-- STATUS of a host access of `n` bytes at `a` before it is performed (R297): 0, 6 denied, 4 bus error or misaligned. -/
def hostJudge (s : State) (op : AccOp) (a n : Nat) : Nat :=
  if (List.range n).any (fun i => secDenies s (a + i)) then 6
  else if hostReach s op a n then 0
  else 4

/-! ### Performing an access -/

/-- A range of bytes cut at the multiples of `w`. -/
def pieces (w : Nat) : Nat → Nat → Nat → List (Nat × Nat)
  | 0, _, _ => []
  | f + 1, a, n => if n = 0 then [] else
    let k := Nat.min n (w - a % w)
    (a, k) :: pieces w f (a + k) (n - k)

/-- A read of `n` bytes at supervisor-view address `a` that cross no 8-byte boundary, nor a word's in peripheral space. A read of
the Cask window is served also while function 68 is in reset (DESIGN CHOICE, log entry 121). -/
def readPiece (s : State) (who a n : Nat) : List (Byte × Bool) × State :=
  if a < 0x40000 then ((List.range n).map (fun i => (Config.bootRom (a + i), false)), s)
  else if 0x40000000 ≤ a ∧ a < 0x48000000 then
    let (x, s) := ckRead s ((a - 0x40000000) / 8)
    (((entryBytes x.1 x.2).drop (a % 8)).take n, s)
  else if periph a || hwWindow a then
    let p := bankPoison s who a
    let (w, s) := readWord s who a
    ((wordBytes w p).take n, s)
  else
    let s := match memOf a with | some m => countRowMem s m who | none => s
    readMem s a n

/-- A read of `n` bytes at `a`, piece by piece. -/
def busRead (s : State) (who a n : Nat) : List (Byte × Bool) × State :=
  (pieces (if periph a then 4 else 8) n a n).foldl (fun acc p =>
    let (bs, s) := readPiece acc.2 who p.1 p.2
    (acc.1 ++ bs, s)) ([], s)

/-- Bytes as a word, little-endian (R7). -/
def bytesWord (bs : List (Byte × Bool)) : Word := wd (leNat (bs.map (·.1)))

/-- A write of bytes that cross no 8-byte boundary, nor a word's in peripheral space. -/
def writePiece (s : State) (who a : Nat) (bs : List (Byte × Bool)) : State :=
  if periph a || hwWindow a then writeWordAt s who a (bytesWord bs)
  else if (memOf a).isSome then writeWord s who a bs
  else s

/-- A write of bytes at `a`, piece by piece. -/
def busWrite (s : State) (who a : Nat) (bs : List (Byte × Bool)) : State :=
  ((pieces (if periph a then 4 else 8) bs.length a bs.length).foldl (fun acc p =>
    (writePiece acc.1 who p.1 (acc.2.take p.2), acc.2.drop p.2)) (s, bs)).1

/-- A requester's last answer. -/
def State.respond (s : State) (who : Nat) (r : Resp) : State :=
  { s with resp := tput (fun _ => {}) s.resp (latchOf who) r }

/-- The fault of a 32-bit store by a requester to a supervisor-view address. -/
def storeFault (s : State) (who : Requester) (a : Nat) : Nat :=
  match who with
  | .core (.ce n) => ceJudge s n .store a 4
  | .core (.sv n) => svJudge s n .store a 4
  | .host => if hostJudge s .store a 4 = 0 then 0 else 5
  | .debug => if hostReach s .store a 4 && secState s != 1 && secState s != 2 then 0 else 5

/-- The fault of a 32-bit load by a requester from a supervisor-view address. -/
def loadFault (s : State) (who : Requester) (a : Nat) : Nat :=
  match who with
  | .core (.ce n) => ceJudge s n .load a 4
  | .core (.sv n) => svJudge s n .load a 4
  | .host => if hostJudge s .load a 4 = 0 then 0 else 5
  | .debug => if hostReach s .load a 4 && secState s != 1 && secState s != 2 then 0 else 5

/-- PMU_FIXL_READ (R357, R358): the requester receives the low word and its latch the high word; a requester that R358
refuses receives the fault, and nothing is latched. -/
def execPmuFixlRead (who : Requester) (n : Fin 4) (s : State) : Host.Outcome State Fault Refusal :=
  let f := loadFault s who (Reg.pmuFixl.addr n 0)
  if s.dark then .next s
  else if f ≠ 0 then .next (s.respond (reqNum who) { fault := f })
  else
    let (w, s) := readReg s (reqNum who) .pmuFixl n 0
    .next (s.answer (reqNum who) w)

/-- CB_READ_WRITE (R351): a store to CB_READ, judged for its requester: a user-level access is a protection exception, and an
engine does not reach the block. -/
def execCbReadWrite (who : Requester) (v : Word) (s : State) : Host.Outcome State Fault Refusal :=
  let f := storeFault s who (Reg.cbRead.addr 0 0)
  if s.dark then .next s
  else if f ≠ 0 then .next (s.respond (reqNum who) { fault := f })
  else .next (wrCbRead (s.respond (reqNum who) {}) (latchOf (reqNum who)) v)

/-- CB_CLEAR_GO: a store to CB_CLEAR with GO at 1 (R352), judged for its requester as one to CB_READ is (R351). -/
def execCbClearGo (who : Requester) (v : Word) (s : State) : Host.Outcome State Fault Refusal :=
  let f := storeFault s who (Reg.cbClear.addr 0 0)
  if s.dark then .next s
  else if f ≠ 0 then .next (s.respond (reqNum who) { fault := f })
  else .next (wrCbClear (s.respond (reqNum who) {}) (setBit v 0 true))

/-- REGISTER_WRITE (R9, R10): a 32-bit store to a register, judged for its requester; an engine's lane store goes to the
agreement checker (R135, R187). -/
def execRegisterWrite (who : Requester) (addr : Word) (v : Word) (s : State) : Host.Outcome State Fault Refusal :=
  let a := addr.toNat
  let n := reqNum who
  if s.dark then .next s
  else
    let f := storeFault s who a
    if f ≠ 0 then .next (s.respond n { fault := f })
    else
      let s := s.respond n {}
      if n < 512 && periph a then .next (checkerStore s n a v)
      else if n < 512 then
        .next (writeMem s n (if a < 0x8000 then ceData n a else a) (wordBytes v false))
      else .next (busWrite s n a (wordBytes v false))

end Sys2Proof.Machine
end

