-- ==== Sys2Proof/Machine/Host.lean ====
section
/-! DEFINITION. Host commands (R295–R297), the site descriptor (R298–R300, R312) and requests through the PCIe endpoint
(R301). -/

namespace Sys2Proof.Machine

/-! ### Commands and their responses -/

/-- The response a path keeps. -/
def storedResp (s : State) (path : Path) : HostResp :=
  match path with
  | .slot => s.str.slotResp
  | .bulk => s.str.bulkResp

/-- The parts of a host command (R286, R295). -/
structure HostWords where
  seq : BitVec 16
  code : Nat
  len : Nat
  first : Bool
  last : Bool
  arg : BitVec 16
  pay : List Word
  deriving DecidableEq, Repr

/-- A command as its slot's words give it (R295). -/
def slotWords (ws : List Word) : HostWords :=
  let w0 := ws.getD 0 0
  let w1 := ws.getD 1 0
  { seq := w0.truncate 16, code := fld w0 23 16, len := fld w1 7 0, first := bitOf w1 8, last := bitOf w1 9,
    arg := (w1 >>> 16).truncate 16, pay := ws.drop 2 }

/-- A command as a BULK frame's words give it (R286, R295); FIRST, LAST and ARG stand in word 4 as in word 1 of a slot (log
entry 97). -/
def bulkWords (ws : List Word) : HostWords :=
  let w1 := ws.getD 1 0
  let w4 := ws.getD 4 0
  { seq := w1.truncate 16, code := fld w1 23 16, len := fld (ws.getD 2 0) 15 0, first := bitOf w4 8, last := bitOf w4 9,
    arg := (w4 >>> 16).truncate 16, pay := ws.drop 8 }

/-- The host commands of R296, with what their words give them. -/
inductive HostCmd where
  | nop
  | read (addr : Word) (len : Nat)
  | write (addr : Word) (bytes : List Byte)
  | dsc (first last : Bool) (bytes : List Byte)
  | arm (slot cyc ang : Word)
  | disarm
  | freset (arg : BitVec 16)
  | devreset
  | attnclr
  | mbox (ws : List Word)
  | power (arg : BitVec 16)
  | cbclear (ws : List Word)
  | unknown (code : BitVec 8)
  deriving DecidableEq, Repr

/-- The command that CMD and the other parts name (R296): 0x0C and above name none. -/
def hostCmd (h : HostWords) : HostCmd :=
  let p (i : Nat) : Word := h.pay.getD i 0
  let bytes (i : Nat) : List Byte := (wordsBytes (h.pay.drop i) ++ List.replicate h.len 0).take h.len
  match h.code with
  | 0x00 => .nop
  | 0x01 => .read (p 0) h.len
  | 0x02 => .write (p 0) (bytes 1)
  | 0x03 => .dsc h.first h.last (bytes 0)
  | 0x04 => .arm (p 0) (p 1) (p 2)
  | 0x05 => .disarm
  | 0x06 => .freset h.arg
  | 0x07 => .devreset
  | 0x08 => .attnclr
  | 0x09 => .mbox h.pay
  | 0x0A => .power h.arg
  | 0x0B => .cbclear h.pay
  | c => .unknown (BitVec.ofNat 8 c)

/-- The command that stands on a path: the slot of the last correct frame (R283), or the BULK frame taken off the ring. -/
def standing (s : State) (path : Path) : Option HostWords :=
  match path with
  | .slot => if s.str.slotCmd = [] then none else some (slotWords s.str.slotCmd)
  | .bulk => if s.str.bulkCmd = [] then none else some (bulkWords s.str.bulkCmd)

/-- Command `c` with SEQ `seq` is what stands on the path, so the device executes it (R283, R295). -/
def asked (s : State) (path : Path) (seq : BitVec 16) (c : HostCmd) : Bool :=
  (standing s path).any (fun h => h.seq == seq && hostCmd h == c)

/-- A host command with SEQ `seq` on a path (R296): the stored response answers a repeated SEQ; else `f` executes it and
gives STATUS, LEN and the response's payload. The core domain answers nothing while the device is in reset or in Hold, so
a command that resets the device is not answered. The command `c` is executed if it stands on the path. -/
def command (s : State) (c : HostCmd) (path : Path) (seq : BitVec 16) (cmd : Nat)
    (f : State → State × Nat × Nat × List Word) : State :=
  if s.dark || !asked s path seq c then s
  else
    let r := storedResp s path
    if r.valid && r.seq == seq then respond s path r
    else
      let (s1, status, len, ws) := f s
      if s1.dark then s1
      else respond s1 path { seq := seq, valid := true, cmd := cmd, status := status, len := len, words := ws }

/-- Largest LEN of a command on a path: `a` in a slot, `b` in BULK (R296). -/
def lenMax (path : Path) (a b : Nat) : Nat :=
  match path with | .slot => a | .bulk => b

/-- NOP (R296): the response carries status. -/
def execNop (path : Path) (seq : BitVec 16) (s : State) : Host.Outcome State Fault Refusal :=
  .next (command s .nop path seq 0 fun s => (s, 0, 0, []))

/-- A code that names no command: STATUS 0x02 (R296). -/
def execUnknownCommand (path : Path) (seq : BitVec 16) (code : BitVec 8) (s : State) : Host.Outcome State Fault Refusal :=
  .next (command s (.unknown code) path seq code.toNat fun s => (s, 2, 0, []))

/-- The poison mask of a read: bit i of `n` words marks byte i (R297). -/
def poisonMask (n : Nat) (bs : List (Byte × Bool)) : List Word :=
  (List.range n).map (fun w => wd (((List.range 32).filter (fun b => (bs.getD (32 * w + b) (0, false)).2)).map (2 ^ ·)).sum)

/-- A read for the host that delivered poison (R244): counted, flagged and recorded under the source `src`. -/
def hostPoison (s : State) (src : Nat) (a : Nat) (bs : List (Byte × Bool)) : State :=
  let s := (s.incF .mpHpc 0 0 15 0).setB .mpStat 0 0 0
  s.record 0x0302 src (wd a) ((poisonMask 1 bs).getD 0 0) 0 0

/-- The source of a slot command's record (R244, log entry 31): PCIe on the head, whose slots the host fills; else the
String port over which the device hears the host, SA, or SB behind a break at SA. -/
def hostPort (s : State) : Nat := if isHead s then 71 else if fell s 0 then 70 else 69

/-- READ (R296, R297, R244). -/
def execRead (path : Path) (seq : BitVec 16) (addr : Word) (len : Nat) (s : State) : Host.Outcome State Fault Refusal :=
  .next (command s (.read addr len) path seq 1 fun s =>
    let a := addr.toNat
    if lenMax path 48 864 < len then (s, 2, 0, [])
    else
      let f := hostJudge s .load a len
      if f ≠ 0 then (s, f, 0, [])
      else
        let (bs, s) := busRead s strHost a len
        let ws := poisonMask (lenMax path 2 28) bs ++ bytesWords (bs.map (·.1) ++ [0, 0, 0])
        if bs.any (·.2) then (hostPoison s (hostPort s) a bs, 3, len, ws) else (s, 0, len, ws))

/-- WRITE (R296, R297). -/
def execWrite (path : Path) (seq : BitVec 16) (addr : Word) (bytes : List Byte) (s : State) :
    Host.Outcome State Fault Refusal :=
  .next (command s (.write addr bytes) path seq 2 fun s =>
    let a := addr.toNat
    if lenMax path 52 988 < bytes.length then (s, 2, 0, [])
    else
      let f := hostJudge s .store a bytes.length
      if f ≠ 0 then (s, f, 0, [])
      else (busWrite s strHost a (bytes.map (fun b => (b, false))), 0, 0, []))

/-- ARM (R296, R263): the writes to CK_SWITCH.SLOT, CK_SWCYC and CK_SWANG, then 1 to ARM. -/
def execArm (path : Path) (seq : BitVec 16) (slot cyc ang : Word) (s : State) : Host.Outcome State Fault Refusal :=
  .next (command s (.arm slot cyc ang) path seq 4 fun s =>
    let s := wrCkSwitch s (wd (fld slot 2 0))
    let s := writeReg (writeReg s strHost .ckSwcyc 0 0 cyc) strHost .ckSwang 0 0 ang
    (wrCkSwitch s (wd (fld slot 2 0 + 256)), 0, 0, []))

/-- DISARM (R296, R267): writes 1 to CK_SWITCH.DISARM. -/
def execDisarm (path : Path) (seq : BitVec 16) (s : State) : Host.Outcome State Fault Refusal :=
  .next (command s .disarm path seq 5 fun s => (wrCkSwitch s (wd (s.rdF .ckSwitch 0 0 2 0 + 512)), 0, 0, []))

/-- FRESET (R296, R321): the function ID in ARG goes to FM_FRESET with GO. -/
def execFreset (path : Path) (seq : BitVec 16) (arg : BitVec 16) (s : State) : Host.Outcome State Fault Refusal :=
  .next (command s (.freset arg) path seq 6 fun s => (fresetWrite s (wd (arg.toNat % 128 + 2 ^ 31)), 0, 0, []))

/-- The response of a DEVRESET on `path` has been sent, so the device reset begins (R296, R317). The frames that left in
this step stand in `sent`. -/
def resetSent (s : State) (path : Path) : State :=
  if s.str.resetDue ≠ some path then s
  else
    let s2 := deviceReset s 3 9
    { s2 with str := { s2.str with sent := s.str.sent } }

/-- DEVRESET (R296, R317): the device reset begins once the response has been sent; a solo head's BULK response is with
the host at once. -/
def execDevreset (path : Path) (seq : BitVec 16) (s : State) : Host.Outcome State Fault Refusal :=
  let r := storedResp s path
  let s1 := command s .devreset path seq 7 fun s => ({ s with str := { s.str with resetDue := some path } }, 0, 0, [])
  if (r.valid && r.seq == seq) || !asked s path seq .devreset || s.dark then .next s1
  else if path = .bulk ∧ isSolo s then .next (resetSent s1 path)
  else .next s1

/-- CYC_FRAME_SEND (R282, R284, R296). -/
def execCycFrameSend (s : State) : Host.Outcome State Fault Refusal :=
  let s1 := cycFrameSend s
  .next (if !isHead s || !s.timeOk || passing s 1 || !sendDue s then s1 else resetSent s1 .slot)

/-- CYC_FRAME_RECEIVE (R283, R290, R296): judged at its EOF; `ta` is the arrival of its SOF in fine steps. -/
def execCycFrameReceive (p : Fin 2) (ws : List Word) (ta : Nat) (s : State) : Host.Outcome State Fault Refusal :=
  let s1 := cycFrameReceive p ws ta s
  .next (if isHead s || passing s p || (p.val == 1 && !looping s 1) then s1 else resetSent s1 .slot)

/-- QUEUED_FRAME_SEND (R287, R296). -/
def execQueuedFrameSend (p : Fin 2) (s : State) : Host.Outcome State Fault Refusal :=
  let s1 := queuedFrameSend p s
  .next (if s1.str.queue.isEmpty && s1.str.qwait.isEmpty && !passing s p then resetSent s1 .bulk else s1)

/-- ATTNCLR (R296, R303): writes 1 to ST_ATTN.CLR. -/
def execAttnclr (path : Path) (seq : BitVec 16) (s : State) : Host.Outcome State Fault Refusal :=
  .next (command s .attnclr path seq 8 fun s => (wrStAttn s (setBit 0 16 true), 0, 0, []))

/-- MBOX (R296, ST_MBI): the message stands for software, which answers through ST_MBO. -/
def execMbox (path : Path) (seq : BitVec 16) (ws : List Word) (s : State) : Host.Outcome State Fault Refusal :=
  .next (command s (.mbox ws) path seq 9 fun s =>
    let len := match standing s path with | some h => h.len | none => 0
    let s := (s.wr .stMbi 0 0 (wd (seq.toNat + 2 ^ 16 * 9 + 2 ^ 24 * stAddr s))).wr .stMbi 1 0 (wd len)
    let s := s.forN 14 (fun s i => s.wr .stMbi (i + 2) 0 (ws.getD i 0))
    let s := s.setB .stStat 0 0 10
    ({ s with str := { s.str with mboxSeq := some (path, seq) } }, 1, 0, []))

/-- POWER (R296, R306): a power-state request with the code in ARG; refused, the payload carries PRSN. -/
def execPower (path : Path) (seq : BitVec 16) (arg : BitVec 16) (s : State) : Host.Outcome State Fault Refusal :=
  .next (command s (.power arg) path seq 10 fun s =>
    let was := s.bit .fmPstat 0 0 6
    let s1 := powerRequest (s.clrB .fmPstat 0 0 6) (arg.toNat % 4)
    if s1.bit .fmPstat 0 0 6 then (s1, 5, 4, [wd (s1.rdF .fmPstat 0 0 10 8)])
    else (s1.wrB .fmPstat 0 0 6 was, 0, 0, []))

/-- CBCLEAR (R296, R352): in a slot the signed words do not fit and LEN is out of range; over BULK the clear is requested
and answered when it is judged. -/
def execCbclear (path : Path) (seq : BitVec 16) (ws : List Word) (s : State) : Host.Outcome State Fault Refusal :=
  match path with
  | .slot => .next (command s (.cbclear ws) .slot seq 11 fun s => (s, 2, 0, []))
  | .bulk =>
    let r := s.str.bulkResp
    if s.dark || !asked s .bulk seq (.cbclear ws) then .next s
    else if r.valid && r.seq == seq then .next (respond s .bulk r)
    else if s.inRst 74 then .next (command s (.cbclear ws) .bulk seq 11 fun s => (s, 5, 0, []))
    else
      let s1 := respond s .bulk { seq := seq, valid := true, cmd := 11, status := 1 }
      .next (requestClear s1 (some seq) ((List.range 32).map (fun i => ws.getD i 0)))

/-! ### The site descriptor -/

/-- One entry of a record: its TYPE, byte offset and words (R299). -/
structure DEntry where
  ty : Nat
  ofs : Nat
  w0 : Word
  w1 : Word
  deriving DecidableEq, Repr

/-- Word at byte offset `o`; bytes beyond the end read 0. -/
def dword (bs : List Byte) (o : Nat) : Word := wd (leNat ((List.range 4).map (fun i => bs.getD (o + i) 0)))

/-- Size of an entry in bytes; 0 for an unknown TYPE. -/
def entrySize (ty : Nat) : Nat := if ty = 3 then 8 else if 1 ≤ ty ∧ ty ≤ 6 then 4 else 0

/-- The records from offset `o` of the `n` bytes: their entries, or the offset of the record of an unknown TYPE or beyond
the length (R300, RSN 2). -/
def records (bs : List Byte) (n : Nat) : Nat → Nat → Except Nat (List DEntry)
  | 0, _ => .ok []
  | f + 1, o =>
    if o = n then .ok []
    else if n < o + 4 then .error o
    else
      let h := dword bs o
      let ty := fld h 7 0
      let c := fld h 31 16
      let z := entrySize ty
      if z = 0 ∨ n < o + 4 + c * z then .error o
      else
        let es := (List.range c).map (fun i =>
          let e := o + 4 + z * i
          (⟨ty, e, dword bs e, dword bs (e + 4)⟩ : DEntry))
        match records bs n f (o + 4 + c * z) with
        | .ok rest => .ok (es ++ rest)
        | .error e => .error e

/-- A field lies outside its range (R300, RSN 4). -/
def entryRange (e : DEntry) : Bool :=
  match e.ty with
  | 1 => decide (191 < fld e.w0 7 0) || fld e.w0 9 8 == 3 || fld e.w0 23 22 == 3
  | 2 => decide (23 < fld e.w0 4 0)
  | 3 => decide (191 < fld e.w0 7 0)
  | 5 => decide (191 < fld e.w0 13 6)
  | 6 => decide (8 < fld e.w0 15 12) || decide (64 < fld e.w0 11 6 + fld e.w0 15 12)
  | _ => false

/-- What an entry names: lane, group, input, port or zone. -/
def entryKey (e : DEntry) : Nat :=
  match e.ty with
  | 1 | 3 => fld e.w0 7 0
  | 2 => fld e.w0 4 0
  | _ => fld e.w0 5 0

/-- A LANE entry and a ZONE entry that R300 forbids together. -/
def zoneClash (l z : DEntry) : Bool :=
  l.ty == 1 && z.ty == 5 && fld z.w0 13 6 == fld l.w0 7 0 && fld l.w0 9 8 == 2 && bitOf l.w0 10

/-- Two entries that may not stand together (R300, RSN 5); a BIND with N 0 binds no trio (R177). -/
def entryClash (a b : DEntry) : Bool :=
  let trios (e : DEntry) : Nat × Nat := (fld e.w0 11 6, fld e.w0 11 6 + fld e.w0 15 12)
  (a.ty == b.ty && a.ty != 6 && entryKey a == entryKey b) ||
    (a.ty == 6 && b.ty == 6 && fld a.w0 5 0 != fld b.w0 5 0 && fld a.w0 15 12 != 0 && fld b.w0 15 12 != 0 &&
      decide ((trios a).1 < (trios b).2) && decide ((trios b).1 < (trios a).2)) ||
    (a.ty == 1 && b.ty == 1 && fld a.w0 9 8 == 1 && fld b.w0 9 8 == 1 && fld a.w0 21 16 == fld b.w0 21 16 &&
      fld a.w0 7 0 / 3 != fld b.w0 7 0 / 3) || zoneClash a b || zoneClash b a

/-- The first entry that clashes with one before it. -/
def firstClash : List DEntry → List DEntry → Option DEntry
  | _, [] => none
  | seen, e :: es => if seen.any (entryClash · e) then some e else firstClash (e :: seen) es

/-- An enable gated by R2, or an RW_CTL.EN, is 1 (R300, RSN 6). -/
def gatedEnable (s : State) : Bool :=
  anyEnabled s || anyN 24 (fun g => s.bit .sdClk g 0 0) || anyN 192 (fun i => s.bit .sdFlt i 0 0 || s.bit .sdCflt i 0 0) ||
    anyN 16 (fun k => s.bit .adCtl k 0 0) || anyN 64 (fun n => s.bit .gcMode n 0 0 || s.bit .gcMode n 0 1 || s.bit .epCfg n 0 0)

/-- The checks of R300 in order: RSN and the offset of the failing item, or the entries to apply. -/
def judgeDescriptor (s : State) (bs : List Byte) : Except (Nat × Nat) (List DEntry) :=
  if dword bs 12 ≠ ~~~((bs.drop 16).foldl crcByte 0xFFFFFFFF) then .error (1, 12)
  else if dword bs 0 ≠ 0x44535A54 then .error (2, 0)
  else if fld (dword bs 4) 15 0 ≠ 1 then .error (2, 4)
  else if (dword bs 8).toNat ≠ bs.length ∨ bs.length < 16 then .error (2, 8)
  else match records bs bs.length (bs.length + 1) 16 with
    | .error o => .error (2, o)
    | .ok es =>
      if fld (dword bs 4) 23 16 ≠ stAddr s then .error (3, 6)
      else match es.find? entryRange with
        | some e => .error (4, e.ofs)
        | none => match firstClash [] es with
          | some e => .error (5, e.ofs)
          | none => if gatedEnable s then .error (6, 0) else if s.bit .muCtl 0 0 0 then .error (7, 0) else .ok es

/-- Bits `[hi:lo]` of a register return to their after-reset value. -/
def defF (s : State) (r : Reg) (i hi lo : Nat) : State := s.wrF r i 0 hi lo (fld (regDef (r.addr i 0)) hi lo)

/-- Every field the descriptor governs returns to its after-reset value (R298). -/
def clearGoverned (s : State) : State :=
  let s := s.forN 192 (fun s n =>
    defF (defF (defF (defF s .lnCtl n 3 1) .muSafe n 1 0) .sdFlt n 18 1) .sdFs n 31 0)
  let s := s.forN 24 (fun s g => defF s .sdClk g 20 1)
  s.forN 64 (fun s p => defF (defF (defF s .epCfg p 9 1) .epSsi p 15 0) .rwTrios p 9 0)

/-- The fields of one entry are set (R299). -/
def applyEntry (s : State) (e : DEntry) : State :=
  let w := e.w0
  match e.ty with
  | 1 => (s.wrF .lnCtl (fld w 7 0) 0 3 1 (fld w 12 10)).wrF .muSafe (fld w 7 0) 0 1 0 (fld w 14 13)
  | 2 => s.wrF .sdClk (fld w 4 0) 0 20 1 (fld w 24 5)
  | 3 => (s.wrF .sdFlt (fld w 7 0) 0 18 1 (fld w 25 8)).wr .sdFs (fld w 7 0) 0 e.w1
  | 4 =>
    let p := fld w 5 0
    let s := (s.wrF .epCfg p 0 2 1 (fld w 7 6)).wrF .epCfg p 0 7 4 (fld w 11 8)
    ((s.wrB .epCfg p 0 3 (bitOf w 12)).wrF .epCfg p 0 9 8 (fld w 14 13)).wrF .epSsi p 0 15 0 (fld w 30 15)
  | 6 => s.wrF .rwTrios (fld w 5 0) 0 9 0 (fld w 15 6)
  | _ => s

/-- The records of a descriptor are applied (R298, R312). -/
def applyDescriptor (s : State) (es : List DEntry) : State :=
  let s := es.foldl applyEntry (clearGoverned s)
  settleAll (s.forN 64 showHall)

/-- DSC (R298): a segment joins the buffer; LAST hands it to the descriptor engine. A segment out of order, beyond 32 KiB,
or sent while a descriptor is judged is refused. -/
def execDsc (path : Path) (seq : BitVec 16) (first last : Bool) (bytes : List Byte) (s : State) :
    Host.Outcome State Fault Refusal :=
  .next (command s (.dsc first last bytes) path seq 3 fun s =>
    let have0 := if first then [] else s.str.dbuf
    if lenMax path 56 992 < bytes.length ∨ s.bit .stDsc 0 0 1 ∨ (!first && !(s.str.dopen && s.str.dpath == path)) ∨
        32768 < have0.length + bytes.length then (s, 2, 0, [])
    else
      let s : State := { s with str := { s.str with dbuf := have0 ++ bytes, dopen := !last, dpath := path } }
      if last then (s.setB .stDsc 0 0 1, 1, 0, []) else (s, 0, 0, []))

/-- The outcome of a judged descriptor answers the segment that carried LAST. -/
def answerDescriptor (s : State) (status : Nat) (ws : List Word) : State :=
  let r := storedResp s s.str.dpath
  if r.cmd = 3 ∧ r.status = 1 then respond s s.str.dpath { r with status := status, len := 4 * ws.length, words := ws } else s

/-- DESCRIPTOR_JUDGED (R298–R300). -/
def execDescriptorJudged (s : State) : Host.Outcome State Fault Refusal :=
  if s.dark || !s.bit .stDsc 0 0 1 || s.str.reapply then .next s
  else match judgeDescriptor s s.str.dbuf with
    | .error (rsn, ofs) =>
      let s := (((s.clrB .stDsc 0 0 1).setB .stDsc 0 0 3).wrF .stDsc 0 0 7 4 rsn).wrF .stDsc 0 0 22 8 ofs
      .next (answerDescriptor (s.record 0x0501 0x55 (wd rsn) (wd ofs) 0 0) 5 [wd rsn, wd ofs])
    | .ok es =>
      let s := ((applyDescriptor s es).clrB .stDsc 0 0 1).setB .stDsc 0 0 0
      let s := s.setB .stDsc 0 0 2
      let s : State := { s with str := { s.str with dkeep := s.str.dbuf } }
      .next (answerDescriptor ((attnDrop s 1).record 0x0501 0x55 0 0 0 0) 0 [])

/-- DESCRIPTOR_REAPPLIED (R312): after Hold the retained descriptor sets its fields again; the gated writes act again. -/
def execDescriptorReapplied (s : State) : Host.Outcome State Fault Refusal :=
  if s.dark || !s.str.reapply then .next s
  else
    let s := match records s.str.dkeep s.str.dkeep.length (s.str.dkeep.length + 1) 16 with
      | .ok es => applyDescriptor s es
      | .error _ => s
    .next ({ s with str := { s.str with reapply := false } }.clrB .stDsc 0 0 1)

/-! ### Requests through PCIe (R301) -/

/-- The address a request reaches: BAR0 the String block, BAR1 the supervisor view; none outside the BAR. -/
def barAddr (bar1 : Bool) (off : Word) (n : Nat) : Option Nat :=
  let o := off.toNat
  if bar1 then (if o + n ≤ 0x80000000 then some o else none)
  else if o + n ≤ 0x10000 then some (0x66000000 + o) else none

/-- An Unsupported Request: counted, an uncorrectable error of the link (R301, ST_STAT.PCIEF). -/
def unsupported (s : State) : State :=
  ({ s with str := { s.str with ur := s.str.ur + 1 } }.setB .stStat 0 0 9).respond 516 { fault := 5 }

/-- The completions of a read at `a`, of 256 bytes each and a rest: those with poison are counted and recorded (R244, R301,
log entry 96). -/
def completions (s : State) (a : Nat) (bs : List (Byte × Bool)) : State :=
  (pieces 256 bs.length 0 bs.length).foldl (fun s p =>
    let part := (bs.drop p.1).take p.2
    if part.any (·.2) then hostPoison s 71 (a + p.1) part else s) s

/-- PCIE_READ_REQUEST (R301, R244, R343): the completions' bytes are the host's answer; poison sets EP of a completion and is counted. -/
def execPcieReadRequest (bar1 : Bool) (off : Word) (len : Nat) (s : State) : Host.Outcome State Fault Refusal :=
  if !s.str.pcieUp || s.dark then .next s
  else match barAddr bar1 off len with
    | none => .next (unsupported s)
    | some a =>
      if hostJudge s .load a len ≠ 0 || decide (512 < len) || (bar1 && periph a && decide (4 < len)) then .next (unsupported s)
      else
        let (bs, s) := busRead s 516 a len
        .next ((completions s a bs).respond 516 { data := bs })

/-- PCIE_WRITE_REQUEST (R301): discarded with EP set, or when wider than a word to peripheral space through BAR1; a write
the host may not make is an Unsupported Request. -/
def execPcieWriteRequest (bar1 : Bool) (off : Word) (bytes : List Byte) (ep : Bool) (s : State) :
    Host.Outcome State Fault Refusal :=
  if !s.str.pcieUp || s.dark || ep then .next s
  else match barAddr bar1 off bytes.length with
    | none => .next (unsupported s)
    | some a =>
      if bar1 && periph a && decide (4 < bytes.length) then .next s
      else if hostJudge s .store a bytes.length ≠ 0 || decide (256 < bytes.length) then .next (unsupported s)
      else .next (busWrite (s.respond 516 {}) 516 a (bytes.map (fun b => (b, false))))

end Sys2Proof.Machine
end

