-- ==== Sys2Proof/Machine/Operands.lean ====
section
/-! DEFINITION. Operands of the Soette set: general registers with result distances and poison (R129–R131, R146, R207),
immediates, effective and post-modified addresses (R165–R167), control registers with their pending and active copies
(R143, R202, R359). -/

namespace Sys2Proof.Machine

/-! ### General registers -/

/-- A value with its poison tag. -/
abbrev Tagged := Word × Bool

/-- Register `r` as the next instruction of the core reads it (R129, R130): the newest producer whose distance is reached,
else the value of old. -/
def seen (c : CoreS) (r : Nat) : Tagged :=
  if r = 0 then (0, false)
  else match c.infl.find? (fun p => p.reg == r && decide (p.idx + p.d ≤ c.seq)) with
    | some p => (p.val, p.poison)
    | none => tget (fun _ => (0, false)) c.base r

/-- Register `r` of core `c` as its next instruction reads it. -/
def reg (s : State) (c r : Nat) : Tagged := seen (s.core c) r

/-- A result with its register and distance (R131), which an instruction delivers. -/
structure Out where
  reg : Nat
  d : Nat
  val : Word
  poison : Bool := false
  deriving DecidableEq, Repr

/-- A producer joins those in flight, newest first; a result of an older instruction goes behind the newer ones. -/
def addInfl (p : Producer) : List Producer → List Producer
  | [] => [p]
  | q :: t => if p.idx < q.idx then q :: addInfl p t else p :: q :: t

/-- Results leave the flight oldest first, once their distance is reached and their instruction is past W, as every one
before the last three issued is: until then an imprecise fault abandons them (R153). The register holds them from then on. -/
def retire (c : CoreS) : CoreS :=
  let keep := (c.infl.reverse.dropWhile (fun p => decide (p.idx + Nat.max p.d 4 ≤ c.seq))).reverse
  { (c.infl.drop keep.length).foldr (fun p c => regPut c p.reg p.val p.poison) c with infl := keep }

/-- The results `os` of the instruction that issues now are in flight; G0 discards them (R129). -/
def produce (c : CoreS) (os : List Out) : CoreS :=
  { c with infl := os.foldl (fun l o =>
      if o.reg = 0 then l else { idx := c.seq, d := o.d, reg := o.reg, val := o.val, poison := o.poison } :: l) c.infl }

/-- A side unit's result is written: it stands at its instruction's place in program order (R133, R130). -/
def sideWrite (c : CoreS) (o : SideOp) : CoreS :=
  if o.dest = 0 then c
  else { c with infl := addInfl { idx := o.idx, d := 0, reg := o.dest, val := o.val, poison := o.poison } c.infl }

/-- A register is busy on the scoreboard (R133). -/
def busy (c : CoreS) (r : Nat) : Bool :=
  r != 0 && ((c.divU.any (·.dest == r)) || (c.corU.any (·.dest == r)))

/-- A side unit is busy. -/
def unitBusy (c : CoreS) (u : SideUnit) : Bool :=
  match u with
  | .divide => c.divU.isSome
  | .cordic => c.corU.isSome

/-! ### Immediates and addresses -/

/-- A sign-extended and a zero-extended immediate. -/
def sImm (i : BitVec 16) : Word := i.signExtend 32
def zImm (i : BitVec 16) : Word := i.zeroExtend 32

/-- Target of a B21 branch at `pc` (R169). -/
def branchTarget (pc : Nat) (off : BitVec 21) : Nat := (BitVec.ofNat 32 pc + 4 * off.signExtend 32).toNat

/-- The base address in register `ra` (R165): G0 stands for 0x4000 on an engine and 0 on a supervisor. -/
def baseAddr (s : State) (c ra : Nat) : Tagged :=
  if ra = 0 then (if c < 512 then 0x4000 else 0, false) else reg s c ra

/-- Register set of a core's control registers. -/
def crReg (c : Nat) : Reg := if c < 512 then .ceCr else .svCr
def crIdx (c : Nat) : Nat := if c < 512 then c else c - 512

/-- Active copy of control register `j` of core `c`. -/
def crAct (s : State) (c j : Nat) : Word :=
  if 512 ≤ c ∧ 24 ≤ j ∧ j < 32 then s.rd .pmuCnt (c - 512) (j - 24) else s.rd (crReg c) (crIdx c) j

/-- The active copy of a control register takes a value, status fields included. -/
def crSet (s : State) (c j : Nat) (v : Word) : State := s.wr (crReg c) (crIdx c) j v

/-- Pending copy of a control register. -/
def crPending (s : State) (c j : Nat) : Option Word := tget (fun _ => none) s.crPend (64 * c + j)

/-- An instruction of an engine is about to change pending copies and active copies of control registers: what they hold is
kept, for the case that the instruction is abandoned (R153). -/
def markCr (s : State) (c : Nat) (pend act : List Nat) : State :=
  if 512 ≤ c then s
  else
    let k := s.core c
    let u : CrUndo := { idx := k.seq, pend := pend.map (fun j => (j, crPending s c j)), act := act.map (fun j => (j, crAct s c j)) }
    s.setCore c { k with undo := u :: k.undo }

/-- Bits of control register `j` that an MTCR writes (R143, R202): CE_FSTAT and CE_PMUC take none from a kernel. -/
def crMask (c j : Nat) : Word :=
  if c < 512 then (if j = 24 then 0 else (ceCrInfo j).rw) else (svCrInfo j).rw

/-- The counters of the PMU, as control registers of a supervisor (R359). -/
def crCount (c j : Nat) : Bool := decide (512 ≤ c) && decide (24 ≤ j) && decide (j < 32)

/-- Bits that the pending copy of a register clears where it holds a 1: the W1C bits of a supervisor's AEX (R202). -/
def crClears (c j : Nat) : Word := if 512 ≤ c ∧ j = 1 then 0xF else 0

/-- The value that control register `j` has once its pending copy `v` is active. -/
def crNext (s : State) (c j : Nat) (v : Word) : Word :=
  ((crAct s c j &&& ~~~(crMask c j)) ||| (v &&& crMask c j)) &&& ~~~(v &&& crClears c j)

/-- What MFCR reads (R143, R202): the pending copy of written fields, the active copy otherwise; of a counter the present
count (R359). -/
def crRead (s : State) (c j : Nat) : Word :=
  match crPending s c j with
  | some v => if crCount c j then crAct s c j else crNext s c j v
  | none => crAct s c j

/-- MTCR: a pending copy; on an engine the W1C bits of AEX act at once, on a supervisor the clears of several writes add up
(R143, R202). -/
def crWrite (s : State) (c j : Nat) (v : Word) : State :=
  let s := if j = 1 ∧ c < 512 then crSet s c 1 (crAct s c 1 &&& ~~~(v &&& 0xF)) else s
  if crMask c j = 0 then s
  else
    let v := v ||| ((crPending s c j).getD 0 &&& crClears c j)
    { s with crPend := tput (fun _ => none) s.crPend (64 * c + j) (some v) }

/-- One pending copy becomes active. -/
def crCommit (s : State) (c j : Nat) : State :=
  match crPending s c j with
  | none => s
  | some v =>
    let s : State := { s with crPend := tput (fun _ => none) s.crPend (64 * c + j) none }
    if crCount c j then s.gate .pmuCnt (c - 512) (·.wr .pmuCnt (c - 512) (j - 24) v)
    else crSet s c j (crNext s c j v)

/-- Every pending copy of core `c` becomes active (R143, R172, R202). -/
def crSync (s : State) (c : Nat) : State := s.forN 64 (crCommit · c)

/-- MBn and MLn of a core. -/
def mb (s : State) (c n : Nat) : Word := crAct s c (16 + n)
def ml (s : State) (c n : Nat) : Word := crAct s c (20 + n)

/-- The reversed-carry sum of R167 on bits [k−1:sh]: from bit k−1 down, `n` bits to go, with a carry. -/
def revBits (off inc : Nat) (lowest : Nat) : Nat → Bool → Nat
  | 0, _ => 0
  | n + 1, cin =>
    let b := lowest + n
    let x := off.testBit b
    let y := inc.testBit b
    let sum := x ^^ y ^^ cin
    let cout := (x && y) || (x && cin) || (y && cin)
    b2n sum * 2 ^ b + revBits off inc lowest n cout

/-- revadd(off, inc, s, k) of R167: bits [s−1:0] of off are kept. -/
def revadd (off inc sh k : Nat) : Nat := revBits off inc sh (k - sh) false + off % 2 ^ sh

/-- The increment of a post-modify form: IMM[12:0], signed (R166). -/
def incOf (imm : BitVec 16) : Int := (imm.truncate 13).toInt

/-- The length is a power of two from 8 to 4,096 (R167). -/
def revLen (len : Nat) : Bool := 8 ≤ len && len ≤ 4096 && 2 ^ Nat.log2 len == len

/-- The new address of a post-modify form (R166, R167): `sh` is 1 for halfwords and 2 for words. -/
def postAddr (s : State) (c : Nat) (a : Word) (imm : BitVec 16) (sh : Nat) : Word :=
  let inc := incOf imm
  if !imm.getLsbD 15 then a + wdi inc
  else
    let n := (imm.toNat / 2 ^ 13) % 4
    let len := fld (ml s c n) 15 0
    let off := (a - mb s c n).toNat
    if len = 0 then a + wdi inc
    else if bitOf (ml s c n) 16 && revLen len then
      let k := Nat.log2 len
      mb s c n + wd (revadd (off % len) (wdi inc).toNat sh k)
    else mb s c n + wdi (((off : Int) + inc) % len)

/-! ### Bytes and words -/

/-- A word of loaded bytes, sign- or zero-extended, poisoned if any byte is (R146, R165). -/
def loadValue (bs : List (Byte × Bool)) (signed : Bool) : Tagged :=
  let n := bs.length
  let v := leNat (bs.map (·.1))
  let v : Word := if signed then
      (if n = 1 then (BitVec.ofNat 8 v).signExtend 32 else if n = 2 then (BitVec.ofNat 16 v).signExtend 32 else wd v)
    else wd v
  (v, bs.any (·.2))

/-- The low `n` bytes of a word, each with its tag. -/
def storeBytes (v : Tagged) (n : Nat) : List (Byte × Bool) := (wordBytes v.1 v.2).take n

end Sys2Proof.Machine
end

