-- ==== Sys2Proof/Machine/Pipe.lean ====
section
/-! DEFINITION. The pipe of a core (R128–R134, R138–R142, R150–R152, R157–R159) and exceptions of a supervisor (R196,
R204–R212): when an instruction issues, what holds it, how it completes, stops or enters a handler. -/

namespace Sys2Proof.Machine

/-! ### The store buffer (R138, R196) -/

/-- Entries a core's store buffer has. -/
def sbCap (c : Nat) : Nat := if c < 512 then 4 else 8

/-- One entry of core `c` reaches its target. -/
def drainEntry (s : State) (c : Nat) (e : SbEntry) : State :=
  if c < 512 then drainCe s c e else busWrite (countSv s (c - 512) 1 1 e.addr) c e.addr e.bytes

/-- Core `c` is off: the device answers nothing, idles, or holds the supervisor in reset. -/
def coreOff (s : State) (c : Nat) : Bool :=
  s.dark || s.fm.power == .idle || (decide (512 ≤ c) && s.inRst (76 + (c - 512)))

/-- Every entry drains in program order; a reset among them ends it. -/
def drainBuffer (s : State) (c : Nat) : State :=
  let sb := (s.core c).sb
  let s := s.setCore c { s.core c with sb := [] }
  sb.foldl (fun s e => if coreOff s c then s else drainEntry s c e) s

/-- Results in flight are written and side units finish (R152 step 2, R206 step 1, R207). -/
def finishAll (s : State) (c : Nat) : State :=
  let k := s.core c
  let s := s.setCore c { flushInfl k with divU := none, corU := none }
  let s := match k.divU with | some o => sideDone s c o | none => s
  match k.corU with | some o => sideDone s c o | none => s

/-! ### Supervisor exceptions -/

/-- Start of the emergency area of supervisor `n` (R198). -/
def emArea (n : Nat) : Nat := 0x20000000 + 0x400 * n

/-- The check of R210 for a frame at `sp`, with exact sums. -/
def stackOk (s : State) (n : Nat) (sp : Int) : Bool :=
  let c := 512 + n
  if bitOf (crAct s c 2) 4 then
    sp % 8 == 0 && decide ((emArea n : Int) ≤ sp) && decide (sp + 64 < emArea n + 0x400)
  else
    sp % 8 == 0 && decide (((crAct s c 8).toNat : Int) ≤ sp) && decide (sp + 64 < (crAct s c 9).toNat) &&
      decide (0x20001000 ≤ sp) && decide (sp + 64 ≤ 0x20400000)

/-- General register `r` as it stands when nothing is in flight. -/
def baseReg (s : State) (c r : Nat) : Tagged := tget (fun _ => (0, false)) (s.core c).base r

/-- The sixteen words of a frame (R206): EPC, EST, ECAUSE, EADDR, ETGT, G1–G10 and G31. -/
def frameWords (s : State) (n epc code : Nat) (eaddr : Word) : List Tagged :=
  let c := 512 + n
  let k := s.core c
  let est := setBit (crAct s c 2) 5 k.slot.isSome
  [(wd epc, false), (est, false), (wd code, false), (eaddr, false), (wd (k.slot.getD 0), false)] ++
    (List.range 10).map (fun i => baseReg s c (i + 1)) ++ [baseReg s c 31]

/-- A frame is written at `sp`, two words at a time. -/
def writeFrame (s : State) (c sp : Nat) (ws : List Tagged) : State :=
  (List.range 8).foldl (fun s i =>
    let w (j : Nat) : List (Byte × Bool) := let x := ws.getD j (0, false); wordBytes x.1 x.2
    writeMem s c (sp + 8 * i) (w (2 * i) ++ w (2 * i + 1))) s

/-- ST after an entry (R206 step 5): PRIV 1, IE, LI and BD 0, NMIA 1 for code 12, EMG 1 for a stack fault. -/
def entrySt (st : Word) (code : Nat) : Word :=
  let st := setBit (setBit (setBit (setBit st 0 true) 1 false) 3 false) 5 false
  let st := if code = 12 then setBit st 6 true else st
  if code = 11 then setBit st 4 true else st

/-- The frame is written at `sp` and the core continues at the vector of `code` (R204, R206 steps 3 to 6); a case that was
pending is so no longer. -/
def enterHandler (s : State) (n code epc : Nat) (eaddr : Word) (sp : Nat) (spPoison : Bool) : State :=
  let c := 512 + n
  let ws := frameWords s n epc code eaddr
  let s := drainBuffer s c
  if coreOff s c then s
  else
    let s := writeFrame s c sp ws
    let w (j : Nat) : Word := (ws.getD j (0, false)).1
    let s := crSet (crSet (crSet s c 4 (w 0)) c 5 (w 1)) c 6 (w 2)
    let s := crSet (crSet s c 7 (w 3)) c 11 (w 4)
    let s := crSet s c 2 (entrySt (crAct s c 2) code)
    let k := regPut (s.core c) 31 (wd (sp + 64)) spPoison
    let s := s.setCore c { k with pc := ((crAct s c 3) + wd (0x40 * code)).toNat, slot := none, long := none, far := none,
                                  held := false, atM := false, skid := none, wait := 0, waited := 0, mode := .active, stepOne := false,
                                  nmi := if code = 12 then k.nmi - 2 ^ eaddr.toNat else k.nmi,
                                  psf := k.psf && decide (code ≠ 10) }
    let s := countSv (s.clrB .pmuSkid n 0 7) n 3 0 0
    if code = 13 then countSv s n 3 1 0 else s

/-- LOCKOUT (R212). -/
def lockout (s : State) (n : Nat) (sp : Word) : State :=
  let c := 512 + n
  let s := drainBuffer (crSet s c 10 sp) c
  if coreOff s c then s
  else
    let s := s.setCore c { s.core c with mode := .lockedOut, held := false, atM := false, skid := none, long := none, stepOne := false }
    let s := nmiAll (s.fault 0) (4 + n) n
    (s.record 0x0104 (76 + n) (wd n) sp (crAct s c 4) 0).attn 2 (76 + n)

/-- A failed stack check (R211, R212): a stack fault of the interrupted program, or a lockout. -/
def stackFail (s : State) (n code resume : Nat) (sp : Word) : State :=
  let c := 512 + n
  if bitOf (crAct s c 2) 4 then lockout s n sp
  else enterHandler (crSet s c 10 sp) n 11 resume (wd code) (emArea n) false

/-- Supervisor `n` as an entry finds it: instructions past D have completed, and pending copies are active (R206). -/
def entryState (s : State) (n : Nat) : State := crSync (finishAll s (512 + n)) (512 + n)

/-- G31 as an entry checks it (R206, R210). -/
def entrySp (s : State) (n : Nat) : Tagged := baseReg (entryState s n) (512 + n) 31

/-- An entry waits: the memory of its frame clears its valid bits (R238). -/
def entryWaits (s : State) (n : Nat) : Bool :=
  clring (entryState s n) (entrySp s n).1.toNat || clring (entryState s n) (emArea n)

/-- An entry finds room for its frame (R210). -/
def entryFits (s : State) (n : Nat) : Bool := stackOk (entryState s n) n (entrySp s n).1.toNat

/-- Taking an exception of code `code` (R204–R211): `epc` is saved, or `resume` where the entry fails. While the memory of
the frame clears its valid bits the entry waits (R238). -/
def takeException (s : State) (n code epc : Nat) (eaddr : Word) (resume : Nat) : State :=
  let sp := entrySp s n
  if entryWaits s n then s
  else if entryFits s n then enterHandler (entryState s n) n code epc eaddr sp.1.toNat sp.2
  else stackFail (entryState s n) n code resume sp.1

/-- The case of R205 that the next boundary takes before an instruction: its code and EADDR. -/
def dueEntry (s : State) (n : Nat) : Option (Nat × Word) :=
  let c := 512 + n
  let k := s.core c
  let st := crAct s c 2
  if k.slot.isSome then none
  else if k.nmi ≠ 0 ∧ !bitOf st 6 then
    (List.range 8).find? (fun i => k.nmi.testBit i) |>.map (fun i => (12, wd i))
  else if k.psf then some (10, s.rd .irqSflt n 0 &&& 0x03FF03FF)
  else if bitOf st 1 && signalled s n then some (13, 0)
  else none

/-! ### Faults of an instruction -/

/-- A precise fault: an engine stops with a cause (R152), a supervisor takes the exception of a code at the instruction
(R204). -/
def raise (s : State) (c cause code : Nat) (ceAddr svAddr : Word) : State :=
  let pc := (s.core c).pc
  if c < 512 then faultStop s c cause ceAddr 0 else takeException s (c - 512) code pc svAddr pc

/-- Illegal opcode (R157). -/
def illegal (s : State) (c : Nat) : State := raise s c 1 1 0 0

/-- The fault `f` of an access at `a`: 4 misaligned, 5 bus error, 6 protection. -/
def accessFault (s : State) (c f : Nat) (a : Word) : State := raise s c (f - 2) f a a

/-- Poison is consumed (R147, R243). -/
def poisonFault (s : State) (c : Nat) (ceAddr svAddr : Word) : State := raise s c 4 7 ceAddr svAddr

/-- AEX.PRECISE acts (R150, R203). -/
def precise (s : State) (c : Nat) : Bool := bitOf (crAct s c 1) 16

/-- AEX bits set (R148). -/
def setAex (s : State) (c aex : Nat) : State :=
  if aex = 0 then s
  else
    let s := crSet s c 1 (crAct s c 1 ||| wd aex)
    if 512 ≤ c then countSv s (c - 512) 0 3 0 else s

/-- OVF, DZ or INV under PRECISE: an arithmetic trap, which sets its bit and writes nothing (R150, R203). -/
def arithTrap (s : State) (c aex : Nat) : State :=
  if c < 512 then faultStop s c 5 0 aex
  else
    let s := setAex s c aex
    let pc := (s.core c).pc
    takeException s (c - 512) 8 pc (crAct s c 1 &&& 0xF) pc

/-! ### Issue and completion -/

/-- Core `c` can issue: it is Active, not halted but for a step, has no far access, long instruction or YIELD under way, and
no case of R205 comes first, which none does before an instruction that waits at M (R206). -/
def ready (s : State) (c : Nat) : Bool :=
  let k := s.core c
  !coreOff s c && k.mode == .active && (!k.halted || k.stepOne) && k.far.isNone && k.long.isNone && !k.yielding &&
    (decide (c < 512) || k.halted || k.atM || (dueEntry s (c - 512)).isNone)

/-- An instruction waits. -/
def stall (s : State) (c : Nat) : State := s.setCore c { s.core c with held := true, wait := (s.core c).wait - 1 }

/-- An instruction waits in a case of R134: each command that finds it waiting is one step, which is counted (R361, R364, log
entry 95). -/
def hold (s : State) (c : Nat) : State :=
  let s := stall s c
  let t := countCore (s.setCore c { s.core c with waited := (s.core c).waited + 1 }) c 0 1 (some 1)
  if c < 512 then t else t.setCore c { t.core c with skid := ownSkid s t c (t.core c).skid }

/-- The instruction waits at M (R134, R138, R139). -/
def atMem (s : State) (c : Nat) : State := s.setCore c { s.core c with atM := true }

/-- The fetch at the pc (R135, R146, R197, R199, R201, R243): the state after it, and whether the instruction goes on. It waits
while the memory clears its valid bits (R238); an instruction that waits at M has been fetched. -/
def fetch (s : State) (c : Nat) : State × Bool :=
  let k := s.core c
  let a := k.pc
  let f := if a % 4 ≠ 0 ∧ ¬(512 < c ∧ hwWindow a = true) then 4 else judge1 s c .fetch a 4
  if k.atM then (s, true)
  else if f ≠ 0 then (accessFault s c f (wd a), false)
  else
    let m := if c < 512 then memBase (2 * c) + a else a
    if (memOf m).isNone then (s, true)
    else if clring s m then (stall s c, false)
    else
      let (bs, s1) := readMem s m 4
      let s1 := if k.held then s else s1
      if bs.any (·.2) then (poisonFault s1 c 0 (wd a), false) else (s1, true)

/-- What an instruction needs before it issues. -/
structure Need where
  /-- The registers it reads or writes. -/
  regs : List Nat := []
  /-- Illegal in a delay slot (R132, R157). -/
  noSlot : Bool := false
  ceOnly : Bool := false
  svOnly : Bool := false
  priv : Bool := false
  unit : Option SideUnit := none
  /-- Both side units must be idle (CHECK). -/
  quiet : Bool := false
  /-- The store buffer must be empty (FENCE, long instructions). -/
  drained : Bool := false
  deriving DecidableEq, Repr

/-- The instruction waits at D (R133, R150, R174, R175). -/
def hazard (s : State) (c : Nat) (q : Need) : Bool :=
  let k := s.core c
  let units := k.divU.isSome || k.corU.isSome
  q.regs.any (busy k) || (match q.unit with | some u => unitBusy k u | none => false) || (q.quiet && units) ||
    (precise s c && units) || k.wait != 0 || (q.drained && !k.sb.isEmpty)

/-- A step of debug ends when its instruction has been performed or has faulted (R339). -/
def endStep (s : State) (c : Nat) : State :=
  let k := s.core c
  if k.stepOne ∧ !k.held ∧ k.far.isNone ∧ k.long.isNone then s.setCore c { k with stepOne := false } else s

/-- A supervisor's completed instruction, which issued at `s0`, is counted (R361–R363). -/
def noteDone (s0 s : State) (c : Nat) : State :=
  if 512 ≤ c ∧ (s.core c).seq = (s0.core c).seq + 1 then
    countDone (ownSkid s0 s c (s0.core c).skid) (svPriv s0 (c - 512)) s (c - 512)
  else s

/-- One instruction of core `c` (R157): fetch, the judgement of its word, the waits, then `body`. -/
def issue (s : State) (c : Nat) (q : Need) (body : State → State) : State :=
  if !ready s c then s
  else
    let (s1, go) := fetch s c
    if !go then endStep s1 c
    else if (q.noSlot && (s1.core c).slot.isSome) || (q.ceOnly && decide (512 ≤ c)) || (q.svOnly && decide (c < 512)) then
      endStep (illegal s1 c) c
    else if q.priv && decide (512 ≤ c) && !svPriv s1 (c - 512) then endStep (raise s1 c 1 2 0 0) c
    else if hazard s1 c { q with drained := false } then hold s1 c
    else if hazard s1 c q then stall s1 c
    else endStep (noteDone s (body s1) c) c

/-- The pc after an instruction: the next word, or after a delay slot where the branch said (R132). -/
def advance (k : CoreS) : CoreS :=
  match k.slot with
  | some t => { k with pc := t, slot := none }
  | none => { k with pc := (k.pc + 4) % 2 ^ 32 }

/-- The instruction at the pc, which has issued, completes with its results; what the one now past W had changed stays
changed (R153). -/
def finish (s : State) (c : Nat) (outs : List Out) : State :=
  let k := s.core c
  let k1 := produce k outs
  let k2 := advance { k1 with seq := k.seq + 1, pcs := (k.pc :: k.pcs).take 3, held := false, atM := false, skid := none, waited := 0,
                              undo := k.undo.filter (fun u => decide (k.seq < u.idx + 3)) }
  s.setCore c (retire k2)

/-- The instruction at the pc issues: an engine's is counted and may be tagged (R361, R364). `done`: it completes at once. -/
def noteIssue (s : State) (c : Nat) (done : Bool := true) : State :=
  let k := s.core c
  if c < 512 then countIssue s c k.seq k.pc k.waited done else s

/-- The instruction at the pc issues and completes with its results. -/
def complete (s : State) (c : Nat) (outs : List Out) : State := finish (noteIssue s c) c outs

/-- Under PRECISE a producer of distance 3 holds the next instruction for two steps (R150). -/
def preciseWait (s : State) (c d : Nat) : State :=
  if precise s c && d == 3 then s.setCore c { s.core c with wait := 2 } else s

/-- A result with its AEX bits and the poison of its sources (R146, R148, R150). The AEX bits show from the issue on (DESIGN CHOICE,
log entry 127). -/
def deliver (s : State) (c rd d : Nat) (r : Res) (poison : Bool) : State :=
  let aex := if poison then 0 else r.aex
  if aex &&& 7 ≠ 0 && precise s c then arithTrap s c aex
  else preciseWait (complete (setAex (if aex = 0 then s else markCr s c [] [1]) c aex) c [{ reg := rd, d := d, val := r.val, poison := poison }]) c d

/-- An instruction goes to a side unit (R133). -/
def toUnit (s : State) (c rd : Nat) (u : SideUnit) (r : Res) (poison : Bool) : State :=
  let aex := if poison then 0 else r.aex
  if aex &&& 7 ≠ 0 && precise s c then arithTrap s c aex
  else
    let k := s.core c
    let o : SideOp := { dest := rd, val := r.val, poison := poison, aex := aex, pc := k.pc, idx := k.seq }
    let s := s.setCore c (match u with | .divide => { k with divU := some o } | .cordic => { k with corU := some o })
    let s := if 512 ≤ c then countSv s (c - 512) 0 2 0 else s
    complete s c []

/-- A branch or jump completes: the next instruction is the delay slot, and execution goes on at `target` after it
(R132). -/
def branchTo (s : State) (c target : Nat) (taken : Bool) (outs : List Out) : State :=
  let k := s.core c
  let t := if taken then target else (k.pc + 8) % 2 ^ 32
  let s := complete s c outs
  let s := s.setCore c { s.core c with slot := some t }
  if taken && decide (512 ≤ c) then countSv s (c - 512) 2 0 0 else s

/-! ### Shapes of instructions -/

/-- Two sources, one result of distance `d`. -/
def op2 (s : State) (c rd ra rb d : Nat) (f : Word → Word → Res) : State :=
  issue s c { regs := [rd, ra, rb] } fun s =>
    let a := reg s c ra
    let b := reg s c rb
    deliver s c rd d (f a.1 b.1) (a.2 || b.2)

/-- One source, one result. -/
def op1 (s : State) (c rd ra d : Nat) (f : Word → Res) : State :=
  issue s c { regs := [rd, ra] } fun s =>
    let a := reg s c ra
    deliver s c rd d (f a.1) a.2

/-- Two sources and the destination as a third. -/
def op3 (s : State) (c rd ra rb d : Nat) (f : Word → Word → Word → Res) : State :=
  issue s c { regs := [rd, ra, rb] } fun s =>
    let a := reg s c ra
    let b := reg s c rb
    let x := reg s c rd
    deliver s c rd d (f a.1 b.1 x.1) (a.2 || b.2 || x.2)

/-- A side-unit instruction of two sources; `rb` is `ra` where it has one. -/
def opSide (s : State) (c rd ra rb : Nat) (u : SideUnit) (f : Word → Word → Res) : State :=
  issue s c { regs := [rd, ra, rb], unit := some u } fun s =>
    let a := reg s c ra
    let b := reg s c rb
    toUnit s c rd u (f a.1 b.1) (a.2 || b.2)

end Sys2Proof.Machine
end

