-- ==== Sys2Proof/Machine/Compare.lean ====
section
/-! DEFINITION. Compares and selection (R161). -/

namespace Sys2Proof.Machine

/-- CEQ (R161). -/
def execCeq (c : Core) (rd ra rb : Fin 32) (s : State) : Host.Outcome State Fault Refusal :=
  .next (op2 s (coreNum c) rd ra rb 1 fun a b => { val := wd (b2n (a == b)) })

/-- CLT (R161). -/
def execClt (c : Core) (rd ra rb : Fin 32) (s : State) : Host.Outcome State Fault Refusal :=
  .next (op2 s (coreNum c) rd ra rb 1 fun a b => { val := wd (b2n (decide (sgn a < sgn b))) })

/-- CLTU (R161). -/
def execCltu (c : Core) (rd ra rb : Fin 32) (s : State) : Host.Outcome State Fault Refusal :=
  .next (op2 s (coreNum c) rd ra rb 1 fun a b => { val := wd (b2n (decide (a.toNat < b.toNat))) })

/-- CEQI (R161). -/
def execCeqi (c : Core) (rd ra : Fin 32) (imm : BitVec 16) (s : State) : Host.Outcome State Fault Refusal :=
  .next (op1 s (coreNum c) rd ra 1 fun a => { val := wd (b2n (a == sImm imm)) })

/-- CLTI (R161). -/
def execClti (c : Core) (rd ra : Fin 32) (imm : BitVec 16) (s : State) : Host.Outcome State Fault Refusal :=
  .next (op1 s (coreNum c) rd ra 1 fun a => { val := wd (b2n (decide (sgn a < sgn (sImm imm)))) })

/-- CLTUI (R161). -/
def execCltui (c : Core) (rd ra : Fin 32) (imm : BitVec 16) (s : State) : Host.Outcome State Fault Refusal :=
  .next (op1 s (coreNum c) rd ra 1 fun a => { val := wd (b2n (decide (a.toNat < (sImm imm).toNat))) })

/-- SEL (R161): the condition is the register named in AUX; any poisoned source poisons the result. -/
def execSel (c : Core) (rd ra rb rc : Fin 32) (s : State) : Host.Outcome State Fault Refusal :=
  let n := coreNum c
  .next (issue s n { regs := [rd, ra, rb, rc] } fun s =>
    let a := reg s n ra
    let b := reg s n rb
    let x := reg s n rc
    deliver s n rd 1 { val := if x.1 = 0 then b.1 else a.1 } (a.2 || b.2 || x.2))

end Sys2Proof.Machine
end

