-- ==== Sys2Proof/Machine/SideOps.lean ====
section
/-! DEFINITION. Side-unit instructions (R133, R164) and the end of an activation (R144, R149). -/

namespace Sys2Proof.Machine

/-- The arithmetic report of R149: the AEX bits that CE_AEXM selects. -/
def reportAex (s : State) (n : Nat) : State :=
  let a := crAct s n 1
  let bits := fld a 3 0 &&& fld (crAct s n 2) 3 0
  if bits = 0 then s else aexReport (crSet s n 1 (setFld (setFld a 11 8 bits) 3 0 (fld a 3 0 - bits))) n bits

/-- DIV (R133, R164). -/
def execDiv (c : Core) (rd ra rb : Fin 32) (s : State) : Host.Outcome State Fault Refusal :=
  .next (opSide s (coreNum c) rd ra rb .divide fun a b => sDiv a b)

/-- DIVU (R133, R164). -/
def execDivu (c : Core) (rd ra rb : Fin 32) (s : State) : Host.Outcome State Fault Refusal :=
  .next (opSide s (coreNum c) rd ra rb .divide fun a b => uDiv a b)

/-- SQRT (R133, R164). -/
def execSqrt (c : Core) (rd ra : Fin 32) (s : State) : Host.Outcome State Fault Refusal :=
  .next (opSide s (coreNum c) rd ra ra .divide fun a _ => { val := wd (isqrt 16 a.toNat) })

/-- FDIV (R133, R164). -/
def execFdiv (c : Core) (rd ra rb : Fin 32) (s : State) : Host.Outcome State Fault Refusal :=
  .next (opSide s (coreNum c) rd ra rb .divide fun a b => fDiv a b)

/-- FSQRT (R133, R164). -/
def execFsqrt (c : Core) (rd ra : Fin 32) (s : State) : Host.Outcome State Fault Refusal :=
  .next (opSide s (coreNum c) rd ra ra .divide fun a _ => fSqrt a)

/-- RECIP (R133, R164). -/
def execRecip (c : Core) (rd ra : Fin 32) (s : State) : Host.Outcome State Fault Refusal :=
  .next (opSide s (coreNum c) rd ra ra .divide fun a _ => fRecip a)

/-- SIN (R133, R164). -/
def execSin (c : Core) (rd ra : Fin 32) (s : State) : Host.Outcome State Fault Refusal :=
  .next (opSide s (coreNum c) rd ra ra .cordic fun a _ => sinRes a)

/-- COS (R133, R164). -/
def execCos (c : Core) (rd ra : Fin 32) (s : State) : Host.Outcome State Fault Refusal :=
  .next (opSide s (coreNum c) rd ra ra .cordic fun a _ => cosRes a)

/-- ATAN2 (R133, R164). -/
def execAtan2 (c : Core) (rd ra rb : Fin 32) (s : State) : Host.Outcome State Fault Refusal :=
  .next (opSide s (coreNum c) rd ra rb .cordic fun a b => atan2Res a b)

/-- The activation of an engine that has yielded ends once its buffer is empty and its units are idle (R144, R149, R143,
R170). -/
def endYield (s : State) (n : Nat) : State :=
  let k := s.core n
  if !k.yielding || !k.sb.isEmpty || k.divU.isSome || k.corU.isSome then s
  else
    let k := { flushInfl k with mode := .idle, yielding := false, held := false, atM := false, wait := 0, waited := 0, undo := [], pcs := [] }
    checkerYield (crSync (reportAex (s.setCore n k) n) n) n

/-- What an imprecise fault would restore in AEX for the instructions after number `idx` keeps the bits `aex` that its
side-unit result sets (R153). -/
def keepAex (c : CoreS) (idx aex : Nat) : CoreS :=
  { c with undo := c.undo.map (fun u =>
      if idx < u.idx then { u with act := u.act.map (fun e => if e.1 = 1 then (1, e.2 ||| wd aex) else e) } else u) }

/-- SIDE_UNIT_RESULT (R133): the unit's result and its AEX bits are written, and the unit is free. -/
def execSideUnitResult (c : Core) (u : SideUnit) (s : State) : Host.Outcome State Fault Refusal :=
  let n := coreNum c
  let k := s.core n
  if s.dark then .next s
  else match (match u with | .divide => k.divU | .cordic => k.corU) with
    | none => .next s
    | some o =>
      let k := match u with | .divide => { k with divU := none } | .cordic => { k with corU := none }
      .next (endYield (setAex (s.setCore n (keepAex (retire (sideWrite k o)) o.idx o.aex)) n o.aex) n)

end Sys2Proof.Machine
end

