-- ==== Sys2Proof/Machine/LoadStore.lean ====
section
/-! DEFINITION. Loads, stores and atomics (R135–R142, R146, R147, R165–R168, R209), far accesses and the draining of the
store buffer. -/

namespace Sys2Proof.Machine

/-! ### The store buffer seen by a load (R139) -/

/-- What the buffer does to a read of `n` bytes at `a`. -/
inductive Fwd where
  | none
  | bytes (bs : List (Byte × Bool))
  | wait
  deriving DecidableEq, Repr

/-- An entry and a range of bytes overlap. -/
def overlaps (e : SbEntry) (a n : Nat) : Bool :=
  !e.commit && decide (e.addr < a + n) && decide (a < e.addr + e.bytes.length)

/-- The table of R139: nothing overlaps; the youngest overlapping entry holds every byte; or the read waits. -/
def forward (sb : List SbEntry) (a n : Nat) : Fwd :=
  match sb.reverse.find? (overlaps · a n) with
  | none => .none
  | some e => if e.addr ≤ a ∧ a + n ≤ e.addr + e.bytes.length then .bytes ((e.bytes.drop (a - e.addr)).take n) else .wait

/-- Supervisor-view address of an access by core `c`: an engine's own data memory at its place (R135). -/
def busAddr (c a : Nat) : Nat := if c < 512 ∧ a < 0x8000 then ceData c a else a

/-- The access is on an engine's own data memory, in its M step alone (R136). -/
def near (c a : Nat) : Bool := decide (c < 512) && decide (a < 0x8000)

/-- The halves of a load that the buffer gives at once (R139, R141). -/
def takenHalves (s : State) (c a n : Nat) : List (Option (List (Byte × Bool))) :=
  (halves a n).map (fun h => match forward (s.core c).sb h.1 h.2 with | .bytes bs => some bs | _ => none)

/-- The bytes of a load: the halves that the buffer has given, and the others from their targets (R139, R141). -/
def loadBytes (s : State) (c a n : Nat) (taken : List (Option (List (Byte × Bool)))) : List (Byte × Bool) × State :=
  ((halves a n).zipIdx).foldl (fun acc h =>
    match taken.getD h.2 none with
    | some bs => (acc.1 ++ bs, acc.2)
    | none =>
      let (bs, s) := busRead acc.2 c (busAddr c h.1.1) h.1.2
      (acc.1 ++ bs, s)) ([], s)

/-- The base update of a post-modify form, with distance 1 (R165, R166). -/
def updOut (upd : Option (Nat × Word)) : List Out :=
  match upd with
  | some (r, w) => [{ reg := r, d := 1, val := w }]
  | none => []

/-- Address of IRQ_CLAIM, and whether an address lies in the IRQC block. -/
def claimAddr : Nat := Reg.irqClaim.addr 0 0
def inIrqc (a : Nat) : Bool := a / 0x1000000 == 0x65

/-- Core `c`'s store buffer holds an entry addressed to the IRQC block. -/
def irqcBuffered (s : State) (c : Nat) : Bool := (s.core c).sb.any (fun e => !e.commit && inIrqc e.addr)

/-- Entries drain in program order, at most `f` of them, until none is addressed to the IRQC block (R227); one whose memory
clears its valid bits waits (R238). -/
def drainIrqc (c : Nat) : Nat → State → State
  | 0, s => s
  | f + 1, s =>
    match (s.core c).sb with
    | [] => s
    | e :: rest =>
      if !irqcBuffered s c || coreOff s c || (!e.commit && clring s (busAddr c e.addr)) then s
      else drainIrqc c f (drainEntry (s.setCore c { s.core c with sb := rest }) c e)

/-- What comes before a read of IRQ_CLAIM by core `c` is performed (R227). -/
def beforeClaim (s : State) (c : Nat) : State := drainIrqc c (s.core c).sb.length s

/-- The outstanding read of IRQ_CLAIM of supervisor `m`. -/
def claimOut (s : State) (m : Nat) : Option FarOp := (s.core (512 + m)).far.filter (fun o => o.addr == claimAddr)

/-- The place in the order of arrival of a read of IRQ_CLAIM whose request goes out now (R226): that of the reads of the same tick
while ticks run, else behind every outstanding one. -/
def claimOrder (s : State) : Nat :=
  let os := (List.range 4).filterMap (claimOut s)
  match os.find? (fun o => s.timeOk && o.since == s.steady) with
  | some o => o.order
  | none => os.foldl (fun m o => Nat.max m o.order) 0 + 1

/-- Another core's outstanding read of IRQ_CLAIM is served before one of supervisor `n` whose place is `t`: its request came
earlier, or arrived together with it and its core comes first after the one served last (R226). -/
def claimBefore (s : State) (n t : Nat) : Bool :=
  let rank (m : Nat) : Nat := (m + 3 - s.irq.last) % 4
  anyN 4 (fun m => m != n && !coreOff s (512 + m) && match claimOut s m with
    | some p => decide (p.order < t) || (p.order == t && decide (rank m < rank n))
    | none => false)

/-- What a load reads: its results, with those of its base update, and the state after the read (R131, R146). -/
def loadOut (s : State) (c a n rd d : Nat) (signed : Bool) (upd : Option (Nat × Word))
    (taken : List (Option (List (Byte × Bool)))) : List Out × State :=
  let (bs, s) := loadBytes s c a n taken
  let v := loadValue bs signed
  (updOut upd ++ [{ reg := rd, d := d, val := v.1, poison := v.2 }], s)

/-- The instruction at the pc issues a far access, which is outstanding from now on (R136, R226); `s0` is the state before its
events were counted (R363). -/
def goFar (s0 s : State) (c : Nat) (o : FarOp) : State :=
  let s := noteIssue s c false
  s.setCore c { s.core c with held := false, atM := false, skid := none, waited := 0,
                              far := some { o with pc := (s.core c).pc, since := s.steady, order := claimOrder s,
                                                   skid := ownSkid s0 s c (s.core c).skid } }

/-- A load of `n` bytes at `a` by the instruction at the pc: judged, held behind the buffer (R139, R227) or a clearing memory
(R238), then performed, or outstanding as a far access (R136). -/
def loadAt (s : State) (c : Nat) (aw : Word) (n : Nat) (signed : Bool) (rd : Nat) (upd : Option (Nat × Word)) : State :=
  let a := aw.toNat
  let f := judge1 s c .load a n
  let claims := decide (512 ≤ c) && a == claimAddr && n == 4
  let s := if f = 0 ∧ claims then beforeClaim s c else s
  let sb := (s.core c).sb
  let hs := halves a n
  if f ≠ 0 then accessFault s c f aw
  else if coreOff s c then s
  else if hs.any (fun h => forward sb h.1 h.2 == .wait) then atMem (hold s c) c
  else if hs.any (fun h => clring s (busAddr c h.1)) || (claims && irqcBuffered s c) then atMem (stall s c) c
  else
    let s0 := s
    let split := isSplit a n
    let d := if split then 4 else 3
    let fwd := hs.all (fun h => forward sb h.1 h.2 != .none)
    let sv := decide (512 ≤ c)
    let s := s.when sv (fun s => countSv s (c - 512) 1 0 a)
    let s := s.when (sv && split) (fun s => countSv s (c - 512) 1 3 a)
    let s := s.when (sv && hs.any (fun h => forward sb h.1 h.2 != .none)) (fun s => countSv s (c - 512) 1 4 a)
    let taken := takenHalves s c a n
    if fwd || near c a then
      let (os, s) := loadOut s c a n rd d signed upd taken
      complete s c os
    else
      goFar s0 (s.when sv (fun s => countSv s (c - 512) 1 2 a)) c
        { kind := .load n signed, addr := a, rd := rd, d := d, pc := 0, upd := upd, taken := taken }

/-- What an atomic does: it reads its word and writes it if its condition holds, in one access (R168, R361). Its result is the
loaded word, poisoned with a loaded byte or, of a CAS, with the RD it compares (R146, log entry 60). -/
def atomicOut (s : State) (c a rd : Nat) (kind : FarKind) : List Out × State :=
  let (bs, s) := busRead s c (busAddr c a) 4
  let old := loadValue bs false
  let put (s : State) (v : Tagged) : State := putWord s c (busAddr c a) (storeBytes v 4)
  let s := match kind with
    | .swap b bp => put s (b, bp)
    | .cas b bp d _ => if old.1 = d then put s (b, bp) else s
    | .load _ _ => s
  let dp := match kind with | .cas _ _ _ dp => dp | _ => false
  ([{ reg := rd, d := 3, val := old.1, poison := old.2 || dp }], s)

/-- SWAP or CAS at `a`: it never forwards and waits for every overlapping entry (R139). -/
def atomicAt (s : State) (c : Nat) (aw : Word) (rd : Nat) (kind : FarKind) : State :=
  let a := aw.toNat
  let f := judge1 s c .atomic a 4
  if f ≠ 0 then accessFault s c f aw
  else if (s.core c).sb.any (overlaps · a 4) then atMem (hold s c) c
  else if clring s (busAddr c a) then atMem (stall s c) c
  else if near c a then
    let (os, s) := atomicOut s c a rd kind
    complete s c os
  else
    goFar s (s.when (decide (512 ≤ c)) (fun s => countSv s (c - 512) 1 2 a)) c
      { kind := kind, addr := a, rd := rd, d := 3, pc := 0, upd := none }

/-- Poisoned data may not be stored here (R147, R243): a lane register for an engine, any peripheral register or the
Heritage window for a supervisor. -/
def poisonBarred (c a : Nat) : Bool := periph a || (decide (512 ≤ c) && hwWindow a)

/-- A store of `n` bytes at `a`: judged, held while the buffer is full, then in the buffer as one entry or two (R138,
R141). A fault of the access comes before one of poisoned data (DESIGN CHOICE on an engine, log entry 128). -/
def storeAt (s : State) (c : Nat) (aw : Word) (n : Nat) (v : Tagged) (upd : Option (Nat × Word)) : State :=
  let a := aw.toNat
  let f := judge1 s c .store a n
  let k := s.core c
  let hs := halves a n
  if f ≠ 0 then accessFault s c f aw
  else if v.2 && poisonBarred c a then poisonFault s c 0 aw
  else if sbCap c < k.sb.length + hs.length then atMem (hold s c) c
  else
    let bs := storeBytes v n
    let es := hs.foldl (fun (acc : List SbEntry × List (Byte × Bool)) h =>
      (acc.1 ++ [{ idx := k.seq, commit := false, addr := h.1, bytes := acc.2.take h.2 }], acc.2.drop h.2)) ([], bs)
    let s := if 512 ≤ c ∧ isSplit a n then countSv s (c - 512) 1 3 a else s
    complete (s.setCore c { s.core c with sb := k.sb ++ es.1 }) c (updOut upd)

/-! ### Forms -/

/-- A load with a plain address (R165); poison on the base is consumed (R147, R243). -/
def loadForm (s : State) (c n : Nat) (signed : Bool) (rd ra : Nat) (imm : BitVec 16) : State :=
  issue s c { regs := [rd, ra] } fun s =>
    let b := baseAddr s c ra
    let a := b.1 + sImm imm
    if b.2 then poisonFault s c a b.1 else loadAt s c a n signed rd none

/-- A store with a plain address. -/
def storeForm (s : State) (c n : Nat) (rd ra : Nat) (imm : BitVec 16) : State :=
  issue s c { regs := [rd, ra] } fun s =>
    let b := baseAddr s c ra
    let a := b.1 + sImm imm
    if b.2 then poisonFault s c a b.1 else storeAt s c a n (reg s c rd) none

/-- A post-modify load (R166, R167); RD = RA is illegal. -/
def loadPost (s : State) (c n : Nat) (signed : Bool) (rd ra : Nat) (imm : BitVec 16) : State :=
  issue s c { regs := [rd, ra] } fun s =>
    let b := baseAddr s c ra
    if rd = ra then illegal s c
    else if b.2 then poisonFault s c b.1 b.1
    else loadAt s c b.1 n signed rd (some (ra, postAddr s c b.1 imm (n / 2)))

/-- A post-modify store (R166, R167). -/
def storePost (s : State) (c n : Nat) (rd ra : Nat) (imm : BitVec 16) : State :=
  issue s c { regs := [rd, ra] } fun s =>
    let b := baseAddr s c ra
    if b.2 then poisonFault s c b.1 b.1
    else storeAt s c b.1 n (reg s c rd) (some (ra, postAddr s c b.1 imm (n / 2)))

/-- LB (R165). -/
def execLb (c : Core) (rd ra : Fin 32) (imm : BitVec 16) (s : State) : Host.Outcome State Fault Refusal :=
  .next (loadForm s (coreNum c) 1 true rd ra imm)

/-- LBU (R165). -/
def execLbu (c : Core) (rd ra : Fin 32) (imm : BitVec 16) (s : State) : Host.Outcome State Fault Refusal :=
  .next (loadForm s (coreNum c) 1 false rd ra imm)

/-- LH (R165). -/
def execLh (c : Core) (rd ra : Fin 32) (imm : BitVec 16) (s : State) : Host.Outcome State Fault Refusal :=
  .next (loadForm s (coreNum c) 2 true rd ra imm)

/-- LHU (R165). -/
def execLhu (c : Core) (rd ra : Fin 32) (imm : BitVec 16) (s : State) : Host.Outcome State Fault Refusal :=
  .next (loadForm s (coreNum c) 2 false rd ra imm)

/-- LW (R165). -/
def execLw (c : Core) (rd ra : Fin 32) (imm : BitVec 16) (s : State) : Host.Outcome State Fault Refusal :=
  .next (loadForm s (coreNum c) 4 false rd ra imm)

/-- SB (R165). -/
def execSb (c : Core) (rd ra : Fin 32) (imm : BitVec 16) (s : State) : Host.Outcome State Fault Refusal :=
  .next (storeForm s (coreNum c) 1 rd ra imm)

/-- SH (R165). -/
def execSh (c : Core) (rd ra : Fin 32) (imm : BitVec 16) (s : State) : Host.Outcome State Fault Refusal :=
  .next (storeForm s (coreNum c) 2 rd ra imm)

/-- SW (R165). -/
def execSw (c : Core) (rd ra : Fin 32) (imm : BitVec 16) (s : State) : Host.Outcome State Fault Refusal :=
  .next (storeForm s (coreNum c) 4 rd ra imm)

/-- LHP (R166). -/
def execLhp (c : Core) (rd ra : Fin 32) (imm : BitVec 16) (s : State) : Host.Outcome State Fault Refusal :=
  .next (loadPost s (coreNum c) 2 true rd ra imm)

/-- LWP (R166). -/
def execLwp (c : Core) (rd ra : Fin 32) (imm : BitVec 16) (s : State) : Host.Outcome State Fault Refusal :=
  .next (loadPost s (coreNum c) 4 false rd ra imm)

/-- SHP (R166). -/
def execShp (c : Core) (rd ra : Fin 32) (imm : BitVec 16) (s : State) : Host.Outcome State Fault Refusal :=
  .next (storePost s (coreNum c) 2 rd ra imm)

/-- SWP (R166). -/
def execSwp (c : Core) (rd ra : Fin 32) (imm : BitVec 16) (s : State) : Host.Outcome State Fault Refusal :=
  .next (storePost s (coreNum c) 4 rd ra imm)

/-- SWAP (R168). -/
def execSwap (c : Core) (rd ra rb : Fin 32) (s : State) : Host.Outcome State Fault Refusal :=
  let n := coreNum c
  .next (issue s n { regs := [rd, ra, rb] } fun s =>
    let a := baseAddr s n ra
    let b := reg s n rb
    if a.2 then poisonFault s n a.1 a.1 else atomicAt s n a.1 rd (.swap b.1 b.2))

/-- CAS (R168). -/
def execCas (c : Core) (rd ra rb : Fin 32) (s : State) : Host.Outcome State Fault Refusal :=
  let n := coreNum c
  .next (issue s n { regs := [rd, ra, rb] } fun s =>
    let a := baseAddr s n ra
    let b := reg s n rb
    let d := reg s n rd
    if a.2 then poisonFault s n a.1 a.1 else atomicAt s n a.1 rd (.cas b.1 b.2 d.1 d.2))

/-- The outstanding far access of core `c` completes, if its target serves it (R136, R226, R238). -/
def farFinish (s : State) (c : Nat) : State :=
  let k := s.core c
  match k.far with
  | none => s
  | some o =>
    if coreOff s c || clring s (busAddr c o.addr) ||
        (decide (512 ≤ c) && o.addr == claimAddr && claimBefore s (c - 512) o.order) then s
    else
      let s1 := s.setCore c { k with far := none }
      let (os, s2) := match o.kind with
        | .load n signed => loadOut s1 c o.addr n o.rd o.d signed o.upd o.taken
        | kind => atomicOut s1 c o.addr o.rd kind
      let s2 := finish (if c < 512 then tagDone s2 c k.seq else s2) c os
      let s2 := if 512 ≤ c then countDone o.skid (svPriv s (c - 512)) s2 (c - 512) else s2
      endStep s2 c

/-- FAR_ACCESS_COMPLETE (R136). -/
def execFarAccessComplete (c : Core) (s : State) : Host.Outcome State Fault Refusal := .next (farFinish s (coreNum c))

/-- IRQ_CLAIM: a read of IRQ_CLAIM by core `n` (R225–R227): the core's earlier stores to the IRQC block drain, then it
claims, unless an earlier claim of another core is still to be served (R226), and the core receives the ID. -/
def execIrqClaim (n : Fin 4) (s : State) : Host.Outcome State Fault Refusal :=
  let c := 512 + n.val
  let s := beforeClaim s c
  if coreOff s c || irqcBuffered s c || claimBefore s n (claimOrder s) then .next s
  else
    let (id, s1) := irqClaim s n
    .next { s1 with resp := tput (fun _ => {}) s1.resp c { data := wordBytes (wd id) false } }

/-- The claims and completions in progress are performed: the supervisors' stores to the IRQC block up to the last drain, and
the outstanding reads of IRQ_CLAIM are served in the order of R226, four rounds at most. -/
def irqSettle (s : State) : State :=
  let s := s.forN 4 (fun s n => beforeClaim s (512 + n))
  s.forN 16 (fun s r =>
    let c := 512 + r % 4
    if (s.core c).far.any (fun o => o.addr == claimAddr) then farFinish s c else s)

/-- HOLD_ENTRY_COMPLETE (R309): the load engine has stopped (R273), and with it a boot-bank write (log entry 130), the interrupt controller's state is copied after the last
claim or completion in progress (R231), timers freeze, low-frequency time begins and the core domain switches off;
comparators off, their sources deasserted (R105); FAULTn and ATTENDn keep their levels (R307). -/
def execHoldEntryComplete (s : State) : Host.Outcome State Fault Refusal :=
  if s.fm.power != .enteringHold || s.fm.reset != .none then .next s
  else
    let s := enterLf (saveIrq (irqSettle (cutBank (stopLoad s))))
    let s := (powerGo s .hold 0).setB .fmPstat 0 0 5
    let s := s.forN 64 (fun s n => setSource (setSource (s.setGc n { uv := (s.gc n).uv }) (2 * n) false) (2 * n + 1) false)
    let s := pcieDown s
    .next { s with fm := { s.fm with probes := [], pinsKept := some (s.faultOwn, s.attnOwn) },
                   str := { s.str with passThru := true } }

/-- STORE_BUFFER_DRAIN (R138): the oldest entry reaches its target; it waits while the target clears its valid bits. -/
def execStoreBufferDrain (c : Core) (s : State) : Host.Outcome State Fault Refusal :=
  let n := coreNum c
  let k := s.core n
  match k.sb with
  | [] => .next s
  | e :: rest =>
    if coreOff s n || (!e.commit && clring s (busAddr n e.addr)) then .next s
    else .next (endYield (drainEntry (s.setCore n { k with sb := rest }) n e) n)

end Sys2Proof.Machine
end

