-- ==== Sys2Proof/Machine/Branch.lean ====
section
/-! DEFINITION. Branches and jumps (R132, R147, R169). -/

namespace Sys2Proof.Machine

/-- BEZ and BNZ: taken when the condition register is zero, or not. A poisoned condition is consumed. -/
def branchForm (s : State) (c ra : Nat) (off : BitVec 21) (onZero : Bool) : State :=
  issue s c { regs := [ra], noSlot := true } fun s =>
    let a := reg s c ra
    if a.2 then poisonFault s c 0 0 else branchTo s c (branchTarget (s.core c).pc off) ((a.1 == 0) == onZero) []

/-- JR and JALR: a target with bits [1:0] not zero is misaligned; the link register is `rd`. -/
def jumpForm (s : State) (c : Nat) (rd : Option Nat) (ra : Nat) : State :=
  issue s c { regs := ra :: rd.toList, noSlot := true } fun s =>
    let a := reg s c ra
    let link := wd ((s.core c).pc + 8)
    if a.2 then poisonFault s c 0 0
    else if a.1.toNat % 4 ≠ 0 then accessFault s c 4 a.1
    else branchTo s c a.1.toNat true (match rd with | some r => [{ reg := r, d := 1, val := link }] | none => [])

/-- JMP and CALL. -/
def directForm (s : State) (c : Nat) (rd : Option Nat) (off : BitVec 21) : State :=
  issue s c { regs := rd.toList, noSlot := true } fun s =>
    let link := wd ((s.core c).pc + 8)
    branchTo s c (branchTarget (s.core c).pc off) true
      (match rd with | some r => [{ reg := r, d := 1, val := link }] | none => [])

/-- BEZ (R169). -/
def execBez (c : Core) (ra : Fin 32) (off : BitVec 21) (s : State) : Host.Outcome State Fault Refusal :=
  .next (branchForm s (coreNum c) ra off true)

/-- BNZ (R169). -/
def execBnz (c : Core) (ra : Fin 32) (off : BitVec 21) (s : State) : Host.Outcome State Fault Refusal :=
  .next (branchForm s (coreNum c) ra off false)

/-- JMP (R169). -/
def execJmp (c : Core) (off : BitVec 21) (s : State) : Host.Outcome State Fault Refusal :=
  .next (directForm s (coreNum c) none off)

/-- CALL (R169): the link has distance 1. -/
def execCall (c : Core) (rd : Fin 32) (off : BitVec 21) (s : State) : Host.Outcome State Fault Refusal :=
  .next (directForm s (coreNum c) (some rd.val) off)

/-- JR (R169). -/
def execJr (c : Core) (ra : Fin 32) (s : State) : Host.Outcome State Fault Refusal :=
  .next (jumpForm s (coreNum c) none ra)

/-- JALR (R169): RA is read before RD is written. -/
def execJalr (c : Core) (rd ra : Fin 32) (s : State) : Host.Outcome State Fault Refusal :=
  .next (jumpForm s (coreNum c) (some rd.val) ra)

end Sys2Proof.Machine
end

