-- ==== Sys2Proof/Machine/Soette.lean ====
section
/-! DEFINITION. The words of the Soette set: the encoding of each instruction and the judgement of any word (R154–R158, R166).
The two parts of R157 that hang on more than the word, the delay slot and the privilege level, are judged at issue. -/

namespace Sys2Proof.Machine

/-- A word from its opcode and fields: `low` holds bits [15:0] (R154). -/
def packWord (op rd ra low : Nat) : Word := BitVec.ofNat 32 (op * 2 ^ 26 + rd * 2 ^ 21 + ra * 2 ^ 16 + low)

/-- The low half of an X word (R154). -/
def packX (rb aux sub : Nat) : Nat := rb * 2 ^ 11 + aux * 2 ^ 6 + sub

/-- A T3 word (R154): bits [10:0] unused. -/
def wordT3 (op : Nat) (rd ra rb : Fin 32) : Word := packWord op rd ra (packX rb 0 0)

/-- An I16 word. -/
def wordI (op : Nat) (rd ra : Fin 32) (imm : BitVec 16) : Word := packWord op rd ra imm.toNat

/-- An X word: groups INT 0x30, FP 0x31, Q 0x32, SIDE 0x33, SYS 0x3E, PRIV 0x3F (R156). -/
def wordX (op sub rd ra rb aux : Nat) : Word := packWord op rd ra (packX rb aux sub)

/-- A B21 word: the register in [25:21], the offset in [20:0]. -/
def wordB (op : Nat) (r : Nat) (off : BitVec 21) : Word := packWord op r 0 off.toNat

/-- The word of an instruction command; `none` for every other command (R156, R160–R176). -/
def soetteWord : Instr → Option Word
  | .add _ d a b => some (wordT3 0x01 d a b)
  | .sub _ d a b => some (wordT3 0x02 d a b)
  | .addo _ d a b => some (wordT3 0x03 d a b)
  | .subo _ d a b => some (wordT3 0x04 d a b)
  | .and _ d a b => some (wordT3 0x05 d a b)
  | .or _ d a b => some (wordT3 0x06 d a b)
  | .xor _ d a b => some (wordT3 0x07 d a b)
  | .sll _ d a b => some (wordT3 0x08 d a b)
  | .srl _ d a b => some (wordT3 0x09 d a b)
  | .sra _ d a b => some (wordT3 0x0A d a b)
  | .mul _ d a b => some (wordT3 0x0B d a b)
  | .mulh _ d a b => some (wordT3 0x0C d a b)
  | .mulhu _ d a b => some (wordT3 0x0D d a b)
  | .ceq _ d a b => some (wordT3 0x0E d a b)
  | .clt _ d a b => some (wordT3 0x0F d a b)
  | .cltu _ d a b => some (wordT3 0x10 d a b)
  | .addi _ d a i => some (wordI 0x11 d a i)
  | .andi _ d a i => some (wordI 0x12 d a i)
  | .ori _ d a i => some (wordI 0x13 d a i)
  | .xori _ d a i => some (wordI 0x14 d a i)
  | .lui _ d i => some (wordI 0x15 d 0 i)
  | .ceqi _ d a i => some (wordI 0x16 d a i)
  | .clti _ d a i => some (wordI 0x17 d a i)
  | .cltui _ d a i => some (wordI 0x18 d a i)
  | .lb _ d a i => some (wordI 0x19 d a i)
  | .lbu _ d a i => some (wordI 0x1A d a i)
  | .lh _ d a i => some (wordI 0x1B d a i)
  | .lhu _ d a i => some (wordI 0x1C d a i)
  | .lw _ d a i => some (wordI 0x1D d a i)
  | .sb _ d a i => some (wordI 0x1E d a i)
  | .sh _ d a i => some (wordI 0x1F d a i)
  | .sw _ d a i => some (wordI 0x20 d a i)
  | .lhp _ d a i => some (wordI 0x21 d a i)
  | .lwp _ d a i => some (wordI 0x22 d a i)
  | .shp _ d a i => some (wordI 0x23 d a i)
  | .swp _ d a i => some (wordI 0x24 d a i)
  | .bez _ a o => some (wordB 0x25 a o)
  | .bnz _ a o => some (wordB 0x26 a o)
  | .jmp _ o => some (wordB 0x27 0 o)
  | .call _ d o => some (wordB 0x28 d o)
  | .slli _ d a n => some (wordX 0x30 0x00 d a 0 n.toNat)
  | .srli _ d a n => some (wordX 0x30 0x01 d a 0 n.toNat)
  | .srai _ d a n => some (wordX 0x30 0x02 d a 0 n.toNat)
  | .min _ d a b => some (wordX 0x30 0x03 d a b 0)
  | .max _ d a b => some (wordX 0x30 0x04 d a b 0)
  | .clz _ d a => some (wordX 0x30 0x05 d a 0 0)
  | .sel _ d a b c => some (wordX 0x30 0x06 d a b c)
  | .adds _ d a b => some (wordX 0x30 0x07 d a b 0)
  | .subs _ d a b => some (wordX 0x30 0x08 d a b 0)
  | .jr _ a => some (wordX 0x30 0x09 0 a 0 0)
  | .jalr _ d a => some (wordX 0x30 0x0A d a 0 0)
  | .swap _ d a b => some (wordX 0x30 0x0B d a b 0)
  | .cas _ d a b => some (wordX 0x30 0x0C d a b 0)
  | .fadd _ d a b => some (wordX 0x31 0x00 d a b 0)
  | .fsub _ d a b => some (wordX 0x31 0x01 d a b 0)
  | .fmul _ d a b => some (wordX 0x31 0x02 d a b 0)
  | .fma _ d a b => some (wordX 0x31 0x03 d a b 0)
  | .fmin _ d a b => some (wordX 0x31 0x04 d a b 0)
  | .fmax _ d a b => some (wordX 0x31 0x05 d a b 0)
  | .fabs _ d a => some (wordX 0x31 0x06 d a 0 0)
  | .fneg _ d a => some (wordX 0x31 0x07 d a 0 0)
  | .fceq _ d a b => some (wordX 0x31 0x08 d a b 0)
  | .fclt _ d a b => some (wordX 0x31 0x09 d a b 0)
  | .fcle _ d a b => some (wordX 0x31 0x0A d a b 0)
  | .fitof _ d a => some (wordX 0x31 0x0B d a 0 0)
  | .fftoi _ d a => some (wordX 0x31 0x0C d a 0 0)
  | .ftoq _ d a => some (wordX 0x31 0x0D d a 0 0)
  | .qtof _ d a => some (wordX 0x31 0x0E d a 0 0)
  | .qmul _ d a b => some (wordX 0x32 0x00 d a b 0)
  | .qmuls _ d a b => some (wordX 0x32 0x01 d a b 0)
  | .qmac _ d a b => some (wordX 0x32 0x02 d a b 0)
  | .qmacs _ d a b => some (wordX 0x32 0x03 d a b 0)
  | .hmul _ d a b => some (wordX 0x32 0x04 d a b 0)
  | .hmuls _ d a b => some (wordX 0x32 0x05 d a b 0)
  | .hmac _ d a b => some (wordX 0x32 0x06 d a b 0)
  | .hmacs _ d a b => some (wordX 0x32 0x07 d a b 0)
  | .div _ d a b => some (wordX 0x33 0x00 d a b 0)
  | .divu _ d a b => some (wordX 0x33 0x01 d a b 0)
  | .sqrt _ d a => some (wordX 0x33 0x02 d a 0 0)
  | .fdiv _ d a b => some (wordX 0x33 0x03 d a b 0)
  | .fsqrt _ d a => some (wordX 0x33 0x04 d a 0 0)
  | .recip _ d a => some (wordX 0x33 0x05 d a 0 0)
  | .sin _ d a => some (wordX 0x33 0x06 d a 0 0)
  | .cos _ d a => some (wordX 0x33 0x07 d a 0 0)
  | .atan2 _ d a b => some (wordX 0x33 0x08 d a b 0)
  | .yield _ => some (wordX 0x3E 0x00 0 0 0 0)
  | .commit _ => some (wordX 0x3E 0x01 0 0 0 0)
  | .sync _ => some (wordX 0x3E 0x02 0 0 0 0)
  | .check _ => some (wordX 0x3E 0x03 0 0 0 0)
  | .eret _ => some (wordX 0x3E 0x04 0 0 0 0)
  | .mtcr _ n a => some (packWord 0x3E 0 a (n * 2 ^ 10 + 0x05))
  | .mfcr _ d n => some (packWord 0x3E d 0 (n * 2 ^ 10 + 0x06))
  | .svc _ n => some (packWord 0x3E 0 0 (n.toNat * 2 ^ 6 + 0x07))
  | .wfi _ => some (wordX 0x3F 0x00 0 0 0 0)
  | .fence _ => some (wordX 0x3F 0x01 0 0 0 0)
  | .bcpy _ d a b => some (wordX 0x3F 0x02 d a b 0)
  | .bset _ d a b => some (wordX 0x3F 0x03 d a b 0)
  | .bcrc _ d a b => some (wordX 0x3F 0x04 d a b 0)
  | .cload _ d a b => some (wordX 0x3F 0x05 d a b 0)
  | _ => none

/-- The judgement of a word apart from delay slot and privilege: `none` for an illegal word, else the instruction, a
reserved opcode as the command RESERVED_OPCODE. -/
abbrev Judged := Option Instr

/-- An instruction whose unused fields, added up in `z`, must be 0 (R155). -/
def used (z : Nat) (i : Instr) : Judged := if z = 0 then some i else none

/-- Available only on a control engine (R158). -/
def onCe (c : Core) (j : Judged) : Judged := match c with | .ce _ => j | .sv _ => none

/-- Available only on a supervisor (R158). -/
def onSv (c : Core) (j : Judged) : Judged := match c with | .ce _ => none | .sv _ => j

/-- A five-bit field as a register number. -/
def regNo (w : Word) (lo : Nat) : Fin 32 := Fin.ofNat 32 (w.toNat / 2 ^ lo)

/-- Groups INT, FP, Q and SIDE by group 0–3 and sub-opcode (R160–R164, R168, R169); a sub-opcode not listed is reserved. -/
def decodeX (c : Core) (w : Word) (g sub : Nat) : Judged :=
  let d := regNo w 21
  let a := regNo w 16
  let b := regNo w 11
  let x := regNo w 6
  let n := BitVec.ofNat 5 (w.toNat / 2 ^ 6)
  let res : Judged := some (.reservedOpcode c w)
  match g with
  | 0 =>
    match sub with
    | 0x00 => used b (.slli c d a n)
    | 0x01 => used b (.srli c d a n)
    | 0x02 => used b (.srai c d a n)
    | 0x03 => used x (.min c d a b)
    | 0x04 => used x (.max c d a b)
    | 0x05 => used (b + x) (.clz c d a)
    | 0x06 => some (.sel c d a b x)
    | 0x07 => used x (.adds c d a b)
    | 0x08 => used x (.subs c d a b)
    | 0x09 => used (d + b + x : Nat) (.jr c a)
    | 0x0A => used (b + x : Nat) (.jalr c d a)
    | 0x0B => used x (.swap c d a b)
    | 0x0C => used x (.cas c d a b)
    | _ => res
  | 1 =>
    match sub with
    | 0x00 => used x (.fadd c d a b)
    | 0x01 => used x (.fsub c d a b)
    | 0x02 => used x (.fmul c d a b)
    | 0x03 => used x (.fma c d a b)
    | 0x04 => used x (.fmin c d a b)
    | 0x05 => used x (.fmax c d a b)
    | 0x06 => used (b + x : Nat) (.fabs c d a)
    | 0x07 => used (b + x : Nat) (.fneg c d a)
    | 0x08 => used x (.fceq c d a b)
    | 0x09 => used x (.fclt c d a b)
    | 0x0A => used x (.fcle c d a b)
    | 0x0B => used (b + x : Nat) (.fitof c d a)
    | 0x0C => used (b + x : Nat) (.fftoi c d a)
    | 0x0D => used (b + x : Nat) (.ftoq c d a)
    | 0x0E => used (b + x : Nat) (.qtof c d a)
    | _ => res
  | 2 =>
    match sub with
    | 0x00 => used x (.qmul c d a b)
    | 0x01 => used x (.qmuls c d a b)
    | 0x02 => used x (.qmac c d a b)
    | 0x03 => used x (.qmacs c d a b)
    | 0x04 => used x (.hmul c d a b)
    | 0x05 => used x (.hmuls c d a b)
    | 0x06 => used x (.hmac c d a b)
    | 0x07 => used x (.hmacs c d a b)
    | _ => res
  | _ =>
    match sub with
    | 0x00 => used x (.div c d a b)
    | 0x01 => used x (.divu c d a b)
    | 0x02 => used (b + x : Nat) (.sqrt c d a)
    | 0x03 => used x (.fdiv c d a b)
    | 0x04 => used (b + x : Nat) (.fsqrt c d a)
    | 0x05 => used (b + x : Nat) (.recip c d a)
    | 0x06 => used (b + x : Nat) (.sin c d a)
    | 0x07 => used (b + x : Nat) (.cos c d a)
    | 0x08 => used x (.atan2 c d a b)
    | _ => res

/-- Groups SYS and PRIV (R170–R176). -/
def decodeSys (c : Core) (w : Word) (priv : Bool) (sub : Nat) : Judged :=
  let d := regNo w 21
  let a := regNo w 16
  let b := regNo w 11
  let x := regNo w 6
  let crn : Fin 64 := Fin.ofNat 64 (w.toNat / 2 ^ 10)
  let four := w.toNat / 2 ^ 6 % 16
  let all := w.toNat / 2 ^ 6 % 2 ^ 20
  let res : Judged := some (.reservedOpcode c w)
  if priv then
    match sub with
    | 0x00 => onSv c (used all (.wfi c))
    | 0x01 => onSv c (used all (.fence c))
    | 0x02 => onSv c (used x (.bcpy c d a b))
    | 0x03 => onSv c (used x (.bset c d a b))
    | 0x04 => onSv c (used x (.bcrc c d a b))
    | 0x05 => onSv c (used x (.cload c d a b))
    | _ => res
  else
    match sub with
    | 0x00 => onCe c (used all (.yield c))
    | 0x01 => onCe c (used all (.commit c))
    | 0x02 => used all (.sync c)
    | 0x03 => onCe c (used all (.check c))
    | 0x04 => used all (.eret c)
    | 0x05 => used (d + four) (.mtcr c crn a)
    | 0x06 => used (a + four) (.mfcr c d crn)
    | 0x07 => onSv c (some (.svc c (BitVec.ofNat 20 all)))
    | _ => res

/-- The primary opcode map below the X groups (R156); an LHP or LWP with RD = RA is illegal (R166). -/
def decodePrimary (c : Core) (w : Word) (op : Nat) : Judged :=
  let d := regNo w 21
  let a := regNo w 16
  let b := regNo w 11
  let z := w.toNat % 2 ^ 11
  let i := BitVec.ofNat 16 w.toNat
  let o := BitVec.ofNat 21 w.toNat
  match op with
  | 0x00 => none
  | 0x01 => used z (.add c d a b)
  | 0x02 => used z (.sub c d a b)
  | 0x03 => used z (.addo c d a b)
  | 0x04 => used z (.subo c d a b)
  | 0x05 => used z (.and c d a b)
  | 0x06 => used z (.or c d a b)
  | 0x07 => used z (.xor c d a b)
  | 0x08 => used z (.sll c d a b)
  | 0x09 => used z (.srl c d a b)
  | 0x0A => used z (.sra c d a b)
  | 0x0B => used z (.mul c d a b)
  | 0x0C => used z (.mulh c d a b)
  | 0x0D => used z (.mulhu c d a b)
  | 0x0E => used z (.ceq c d a b)
  | 0x0F => used z (.clt c d a b)
  | 0x10 => used z (.cltu c d a b)
  | 0x11 => some (.addi c d a i)
  | 0x12 => some (.andi c d a i)
  | 0x13 => some (.ori c d a i)
  | 0x14 => some (.xori c d a i)
  | 0x15 => used a (.lui c d i)
  | 0x16 => some (.ceqi c d a i)
  | 0x17 => some (.clti c d a i)
  | 0x18 => some (.cltui c d a i)
  | 0x19 => some (.lb c d a i)
  | 0x1A => some (.lbu c d a i)
  | 0x1B => some (.lh c d a i)
  | 0x1C => some (.lhu c d a i)
  | 0x1D => some (.lw c d a i)
  | 0x1E => some (.sb c d a i)
  | 0x1F => some (.sh c d a i)
  | 0x20 => some (.sw c d a i)
  | 0x21 => if d = a then none else some (.lhp c d a i)
  | 0x22 => if d = a then none else some (.lwp c d a i)
  | 0x23 => some (.shp c d a i)
  | 0x24 => some (.swp c d a i)
  | 0x25 => some (.bez c d o)
  | 0x26 => some (.bnz c d o)
  | 0x27 => used d (.jmp c o)
  | 0x28 => some (.call c d o)
  | _ => some (.reservedOpcode c w)

/-- The judgement of any word on core `c`: every word is an instruction, a reserved opcode, or illegal (R156–R158). -/
def judgeWord (c : Core) (w : Word) : Judged :=
  let op := w.toNat / 2 ^ 26
  let sub := w.toNat % 64
  if op < 0x30 ∨ 0x34 ≤ op ∧ op < 0x3E then decodePrimary c w op
  else if 32 ≤ sub then none
  else if op < 0x34 then decodeX c w (op - 0x30) sub
  else decodeSys c w (decide (op = 0x3F)) sub

/-- The command a core's word stands for: an illegal word is the command ILLEGAL_OPCODE. -/
def soetteDecode (c : Core) (w : Word) : Instr := (judgeWord c w).getD (.illegalOpcode c w)

/-- Whether an instruction is illegal in a delay slot (R157). -/
def barredInSlot : Instr → Bool
  | .bez .. | .bnz .. | .jmp .. | .call .. | .jr .. | .jalr .. | .yield _ | .commit _ | .sync _ | .eret _ | .wfi _
  | .svc .. | .bcpy .. | .bset .. | .bcrc .. | .cload .. | .reservedOpcode .. => true
  | _ => false

end Sys2Proof.Machine
end

