-- ==== Sys2Proof/Machine/System.lean ====
section
/-! DEFINITION. System instructions (R149, R151, R157, R170–R174), exception entry and return of a supervisor (R205–R212). -/

namespace Sys2Proof.Machine

/-- YIELD (R144, R170). -/
def execYield (c : Core) (s : State) : Host.Outcome State Fault Refusal :=
  let n := coreNum c
  .next (issue s n { noSlot := true, ceOnly := true } fun s =>
    let s := complete s n []
    endYield (s.setCore n { s.core n with yielding := true }) n)

/-- COMMIT (R138, R171): an entry of the store buffer. -/
def execCommit (c : Core) (s : State) : Host.Outcome State Fault Refusal :=
  let n := coreNum c
  .next (issue s n { noSlot := true, ceOnly := true } fun s =>
    let k := s.core n
    if sbCap n ≤ k.sb.length then atMem (hold s n) n
    else
      let e : SbEntry := { idx := k.seq, commit := true, addr := 0, bytes := [] }
      complete (s.setCore n { k with sb := k.sb ++ [e] }) n [])

/-- SYNC (R172): every pending copy becomes active. -/
def execSync (c : Core) (s : State) : Host.Outcome State Fault Refusal :=
  let n := coreNum c
  .next (issue s n { noSlot := true } fun s =>
    let js := (List.range 64).filter (fun j => (crPending s n j).isSome)
    complete (crSync (markCr s n js js) n) n [])

/-- CHECK (R149, R173): waits for the side units and reports. -/
def execCheck (c : Core) (s : State) : Host.Outcome State Fault Refusal :=
  let n := coreNum c
  .next (issue s n { ceOnly := true, quiet := true } fun s =>
    complete (reportAex (markCr s n [] [1]) n) n [])

/-- MTCR (R143, R172, R202); a poisoned source is consumed (R147). -/
def execMtcr (c : Core) (crn : Fin 64) (ra : Fin 32) (s : State) : Host.Outcome State Fault Refusal :=
  let n := coreNum c
  .next (issue s n { regs := [ra], priv := true } fun s =>
    let a := reg s n ra
    if a.2 then poisonFault s n 0 0
    else complete (crWrite (markCr s n [crn] (if crn.val = 1 then [1] else [])) n crn a.1) n [])

/-- MFCR (R143, R172, R202, R359): distance 1. -/
def execMfcr (c : Core) (rd : Fin 32) (crn : Fin 64) (s : State) : Host.Outcome State Fault Refusal :=
  let n := coreNum c
  .next (issue s n { regs := [rd], priv := true } fun s => complete s n [{ reg := rd, d := 1, val := crRead s n crn }])

/-- SVC (R173, R204): the system call completes, saves the next instruction's address and passes CODE. While its entry waits,
or where it finds no room for its frame, it has not completed (R206, R211). -/
def execSvc (c : Core) (code : BitVec 20) (s : State) : Host.Outcome State Fault Refusal :=
  let n := coreNum c
  .next (issue s n { noSlot := true, svOnly := true } fun s =>
    let pc := (s.core n).pc
    let m := n - 512
    let s := if entryWaits s m || !entryFits s m then s else countDone (s.core n).skid (svPriv s m) s m
    takeException s m 9 ((pc + 4) % 2 ^ 32) (code.zeroExtend 32) pc)

/-- A supervisor leaves WFI: an entry into Idle under way ends (R306). -/
def leaveWfi (s : State) (c : Nat) : State :=
  let s := s.setCore c { s.core c with mode := .active }
  if s.fm.power == .enteringIdle then powerGo s .run 0 else s

/-- WFI (R174): the core waits; the saved pc is the next instruction. -/
def execWfi (c : Core) (s : State) : Host.Outcome State Fault Refusal :=
  let n := coreNum c
  .next (issue s n { noSlot := true, svOnly := true, priv := true } fun s =>
    let s := complete s n []
    s.setCore n { s.core n with mode := .wfi })

/-- WFI_END (R174): the interrupt controller signals the core. -/
def execWfiEnd (n : Fin 4) (s : State) : Host.Outcome State Fault Refusal :=
  let c := 512 + n.val
  if coreOff s c || (s.core c).mode != .wfi || (s.core c).halted || !signalled s n then .next s
  else .next (leaveWfi s c)

/-- FENCE (R174): it waits until the store buffer has drained. -/
def execFence (c : Core) (s : State) : Host.Outcome State Fault Refusal :=
  let n := coreNum c
  .next (issue s n { svOnly := true, priv := true, drained := true } fun s => complete s n [])

/-- `w` is illegal at core `c` where it stands: by its bits, or for what it may not be in a delay slot (R157). -/
def illegalHere (s : State) (c : Core) (w : Word) : Bool :=
  match judgeWord c w with
  | none => true
  | some i => (s.core (coreNum c)).slot.isSome && barredInSlot i

/-- An illegal instruction word (R155–R158). -/
def execIllegalOpcode (c : Core) (w : Word) (s : State) : Host.Outcome State Fault Refusal :=
  let n := coreNum c
  if !illegalHere s c w then .next s else .next (issue s n {} fun s => illegal s n)

/-- A reserved opcode (R151, R157): an engine traps to CE_EMUV.VEC or faults; a supervisor takes the emulation exception. -/
def execReservedOpcode (c : Core) (w : Word) (s : State) : Host.Outcome State Fault Refusal :=
  let n := coreNum c
  if judgeWord c w ≠ some (.reservedOpcode c w) then .next s
  else .next (issue s n { noSlot := true } fun s =>
    if 512 ≤ n then raise s n 1 3 0 w
    else if !bitOf (crAct s n 3) 31 || bitOf (crAct s n 4) 31 then illegal s n
    else
      let pc := (s.core n).pc
      let s := markCr s n [] [4, 5]
      let s := crSet (crSet s n 4 (setBit (setFld (crAct s n 4) 13 2 (pc / 4)) 31 true)) n 5 w
      let vec := 4 * fld (crAct s n 3) 13 2
      let s := complete s n []
      s.setCore n { s.core n with pc := vec })

/-! ### Return from an exception -/

/-- A frame word whose poison stops an ERET (R206): EPC, EST, ETGT or the saved G31. -/
def badFrameWord (ws : List Tagged) : Option Nat :=
  [0, 1, 4, 15].find? (fun i => (ws.getD i (0, false)).2)

/-- ERET of supervisor `n` (R206–R208, R210–R212): pending copies become active, the frame below G31 is checked, read and
restored. -/
def svEret (s : State) (n : Nat) : State :=
  let c := 512 + n
  let pc := (s.core c).pc
  let s1 := crSync (finishAll s c) c
  let sp := (baseReg s1 c 31).1
  if !stackOk s1 n ((sp.toNat : Int) - 64) then
    if clring s1 (emArea n) then s else stackFail s1 n 0 pc sp
  else
    let a := sp.toNat - 64
    if clring s1 a then s
    else
      let s2 := drainBuffer s1 c
      if coreOff s2 c then s2
      else
        let (ws, s2) := (List.range 16).foldl (fun acc i =>
          let (bs, s) := readMem acc.2 (a + 4 * i) 4
          (acc.1 ++ [loadValue bs false], s)) (([] : List Tagged), s2)
        match badFrameWord ws with
        | some i => takeException s2 n 7 pc (wd (a + 4 * i)) pc
        | none =>
          let w (i : Nat) : Tagged := ws.getD i (0, false)
          let est := (w 1).1
          let s2 := crSet s2 c 2 (est &&& 0x5F)
          let k := s2.core c
          let k := (List.range 10).foldl (fun k i => regPut k (i + 1) (w (5 + i)).1 (w (5 + i)).2) k
          let k := regPut k 31 (w 15).1 false
          s2.setCore c { k with waited := 0, pc := (w 0).1.toNat, slot := if bitOf est 5 then some (w 4).1.toNat else none, held := false,
                                skid := none, seq := k.seq + 1 }

/-- ERET (R151, R173, R206): on an engine the return from an emulation trap. -/
def execEret (c : Core) (s : State) : Host.Outcome State Fault Refusal :=
  let n := coreNum c
  .next (issue s n { noSlot := true, priv := true } fun s =>
    if 512 ≤ n then svEret s (n - 512)
    else
      let epc := crAct s n 4
      if !bitOf epc 31 then illegal s n
      else
        let s := complete (crSet (markCr s n [] [4]) n 4 (setBit epc 31 false)) n []
        s.setCore n { s.core n with pc := 4 * fld epc 13 2 + 4 })

/-- EXCEPTION_ENTRY (R205, R206): at a boundary the supervisor takes the first case that is due. A far access under way
finishes first, and the entry waits for an instruction that waits at M. -/
def execExceptionEntry (n : Fin 4) (s : State) : Host.Outcome State Fault Refusal :=
  let c := 512 + n.val
  let k := s.core c
  if coreOff s c || k.halted || k.atM || !(k.mode == .active || k.mode == .wfi) then .next s
  else
    let s1 := farFinish s c
    if (s1.core c).far.isSome || coreOff s1 c then .next s
    else match dueEntry s1 n with
      | none => .next s
      | some (code, eaddr) =>
        let pc := (s1.core c).pc
        let s2 := takeException s1 n code pc eaddr pc
        .next (if k.mode = .wfi ∧ (s2.core c).mode = .active ∧ s2.fm.power = .enteringIdle then powerGo s2 .run 0 else s2)

end Sys2Proof.Machine
end

