-- ==== Sys2Proof/Machine/LongOps.lean ====
section
/-! DEFINITION. The long instructions of a supervisor (R175, R176, R213): BCPY, BSET, BCRC and CLOAD in steps. -/

namespace Sys2Proof.Machine

/-- ST.LI takes a value. -/
def setLi (s : State) (c : Nat) (b : Bool) : State := crSet s c 2 (setBit (crAct s c 2) 3 b)

/-- The destination is an address (not of BCRC). -/
def destAddr (k : LongKind) : Bool := k != .bcrc

/-- The source is an address, or an entry index (not of BSET). -/
def srcAddr (k : LongKind) : Bool := k != .bset

/-- A long instruction at the pc (R175): its registers are judged, a count of 0 completes it, else its steps follow. -/
def longForm (s : State) (c : Nat) (k : LongKind) (rd ra rb : Nat) : State :=
  issue s c { regs := [rd, ra, rb], noSlot := true, svOnly := true, priv := true, drained := true } fun s =>
    let d := reg s c rd
    let a := reg s c ra
    let b := reg s c rb
    if destAddr k && d.2 then poisonFault s c 0 d.1
    else if srcAddr k && a.2 then poisonFault s c 0 a.1
    else if b.2 then poisonFault s c 0 0
    else if destAddr k && d.1.toNat % 8 != 0 then accessFault s c 4 d.1
    else if (k == .bcpy || k == .bcrc) && a.1.toNat % 8 != 0 then accessFault s c 4 a.1
    else if b.1 = 0 then complete (setLi s c false) c []
    else s.setCore c { s.core c with held := false, skid := none, long := some { kind := k, rd := rd, ra := ra, rb := rb, skid := (s.core c).skid } }

/-- BCPY (R176). -/
def execBcpy (c : Core) (rd ra rb : Fin 32) (s : State) : Host.Outcome State Fault Refusal :=
  .next (longForm s (coreNum c) .bcpy rd ra rb)

/-- BSET (R176). -/
def execBset (c : Core) (rd ra rb : Fin 32) (s : State) : Host.Outcome State Fault Refusal :=
  .next (longForm s (coreNum c) .bset rd ra rb)

/-- BCRC (R176). -/
def execBcrc (c : Core) (rd ra rb : Fin 32) (s : State) : Host.Outcome State Fault Refusal :=
  .next (longForm s (coreNum c) .bcrc rd ra rb)

/-- CLOAD (R176). -/
def execCload (c : Core) (rd ra rb : Fin 32) (s : State) : Host.Outcome State Fault Refusal :=
  .next (longForm s (coreNum c) .cload rd ra rb)

/-- What one step does: the address it cannot reach with its fault, or the register values after it. -/
inductive LongRes where
  | fault (f : Nat) (a : Word)
  | wait
  | done (s : State) (d a : Tagged) (n : Nat)

/-- Address of Cask entry `i` in the read window; beyond the last entry none is reached (R176), and EADDR
shows this address modulo 2^32 (DESIGN CHOICE, log entry 129). -/
def entryAddr (i : Word) : Nat := 0x40000000 + 8 * i.toNat

/-- One step on the registers `d`, `a` with `n` items left (R176): the reads, then the writes. -/
def longWork (s : State) (c : Nat) (k : LongKind) (d a : Tagged) (left : Nat) : LongRes :=
  let sv := c - 512
  let n := Nat.min left 8
  let da := d.1.toNat
  let aa := a.1.toNat
  match k with
  | .bcpy =>
    let fr := stepJudge s sv .load aa n
    let fw := stepJudge s sv .store da n
    if fr ≠ 0 then .fault fr a.1
    else if fw ≠ 0 then .fault fw d.1
    else if clring s aa || clring s da then .wait
    else
      let (bs, s) := busRead s c aa n
      .done (busWrite s c da bs) (d.1 + wd n, d.2) (a.1 + wd n, a.2) n
  | .bset =>
    let fw := stepJudge s sv .store da n
    if fw ≠ 0 then .fault fw d.1
    else if clring s da then .wait
    else
      let w := storeBytes a 4
      .done (busWrite s c da ((w ++ w).take n)) (d.1 + wd n, d.2) a n
  | .bcrc =>
    let fr := stepJudge s sv .load aa n
    if fr ≠ 0 then .fault fr a.1
    else if clring s aa then .wait
    else
      let (bs, s) := busRead s c aa n
      .done s ((bs.map (·.1)).foldl crcByte d.1, d.2 || bs.any (·.2)) (a.1 + wd n, a.2) n
  | .cload =>
    let ea := entryAddr a.1
    let fr := if 16777215 < aa then 5 else stepJudge s sv .load ea 8
    let fw := stepJudge s sv .store da 8
    if fr ≠ 0 then .fault fr (wd ea)
    else if fw ≠ 0 then .fault fw d.1
    else if clring s da then .wait
    else
      let (x, s) := ckRead s aa
      .done (busWrite s c da (entryBytes x.1 x.2)) (d.1 + 8, d.2) (a.1 + 1, a.2) 1

/-- The results that the long instruction `o` gives its registers. -/
def longOuts (o : LongOp) (d a b : Tagged) (dist : Nat) : List Out :=
  [{ reg := o.rd, d := dist, val := d.1, poison := d.2 }] ++
    (if o.kind = .bset then [] else [{ reg := o.ra, d := dist, val := a.1, poison := a.2 }]) ++
    [{ reg := o.rb, d := dist, val := b.1, poison := b.2 }]

/-- The progress that earlier steps of the instruction at the pc left is replaced. -/
def dropProgress (k : CoreS) : CoreS := { k with infl := k.infl.filter (fun p => p.idx != k.seq) }

/-- LONG_STEP (R175): one step, unless a case of R205 is due at its boundary or the core is halted and does nothing (R360). -/
def execLongStep (n : Fin 4) (s : State) : Host.Outcome State Fault Refusal :=
  let c := 512 + n.val
  let k := s.core c
  match k.long with
  | none => .next s
  | some o =>
    if coreOff s c || k.mode != .active || (k.halted && !k.stepOne) || (!k.halted && (dueEntry s n).isSome) then .next s
    else
      let d := reg s c o.rd
      let a := reg s c o.ra
      let b := reg s c o.rb
      match longWork s c o.kind d a b.1.toNat with
      | .wait => .next s
      | .fault f x => .next (endStep (accessFault s c f x) c)
      | .done s1 d a m =>
        if coreOff s1 c then .next s1
        else
          let s1 := countSv s1 n 2 1 0
          let left := b.1 - wd m
          let k1 := dropProgress (s1.core c)
          if left = 0 then
            let s2 := setLi (s1.setCore c { k1 with long := none }) c false
            .next (endStep (countDone (ownSkid s s1 c o.skid) (svPriv s n) (complete s2 c (longOuts o d a (left, b.2) 1)) n) c)
          else
            .next (setLi (s1.setCore c { produce k1 (longOuts o d a (left, b.2) 0) with
              long := some { o with skid := ownSkid s s1 c o.skid } }) c true)

end Sys2Proof.Machine
end

