-- ==== Sys2Proof/Machine/Debug.lean ====
section
/-! DEFINITION. The JTAG port and the debug operations (R244, R338–R342). -/

namespace Sys2Proof.Machine

/-! ### TAP instructions (R338) -/

/-- The TAP takes an instruction; in Off it is unpowered (R342). -/
def tapTo (s : State) (ir : Nat) (f : TapS → TapS) : State :=
  if s.fm.reset == .off then s else { s with tap := f { s.tap with ir := ir, extest := false } }

/-- The security state limits the port (R338, R340). -/
def tapLimited (s : State) : Bool := secState s = 1 || secState s = 2

/-- JTAG_EXTEST (R338): the pins follow the boundary register (`State.atPin`, `lanePins`) while the security state does not
limit the port; while it does, the instruction acts as BYPASS. -/
def execJtagExtest (s : State) : Host.Outcome State Fault Refusal :=
  .next (tapTo s 0 fun t => { t with extest := true, dr := if tapLimited s then 0 else t.dr })

/-- JTAG_SAMPLE_PRELOAD (R338): the levels `pins` of every pin are sampled, and the boundary register is loaded with the bits
`load` that the scan shifts in. -/
def execJtagSamplePreload (pins : List Bool) (s : State) (load : List Bool := []) : Host.Outcome State Fault Refusal :=
  .next (tapTo s 1 fun t => { t with sample := pins, boundary := load })

/-- JTAG_IDCODE (R338). -/
def execJtagIdcode (s : State) : Host.Outcome State Fault Refusal :=
  .next (tapTo s 2 fun t => { t with dr := 0x16400A5F })

/-- JTAG_BYPASS (R338). -/
def execJtagBypass (s : State) : Host.Outcome State Fault Refusal := .next (tapTo s 15 fun t => { t with dr := 0 })

/-- TAP_RESET (R338): IDCODE is selected. -/
def execTapReset (s : State) : Host.Outcome State Fault Refusal := .next (tapTo s 2 fun t => { t with dr := 0x16400A5F })

/-! ### Debug operations (R339–R341) -/

/-- The result of an operation (R339). -/
def dbgDone (s : State) (status : Nat) (data : Word) (poison : Nat) : State :=
  { s with tap := { s.tap with status := status, data := data, poison := poison } }

/-- The 72 bits of an operation as the scan shifts them in (R339). -/
def scanIn (op : BitVec 4) (addr data : Word) (tgt : BitVec 4) : BitVec 72 := tgt ++ data ++ addr ++ op

/-- OP, ADDR, DATA and TGT of the 72 bits shifted in (R339). -/
def scanOp (x : BitVec 72) : Nat := (x.extractLsb' 0 4).toNat
def scanAddr (x : BitVec 72) : Word := x.extractLsb' 4 32
def scanData (x : BitVec 72) : Word := x.extractLsb' 36 32
def scanTgt (x : BitVec 72) : BitVec 4 := x.extractLsb' 68 4

/-- The 72 bits that a scan captures: STATUS, POISON, DATA and zeros (R339). -/
def scanOut (status poison : Nat) (data : Word) : BitVec 72 :=
  (0 : Word) ++ data ++ BitVec.ofNat 4 poison ++ BitVec.ofNat 4 status

/-- Address `a` lies in the security block. -/
def inSec (a : Nat) : Bool := a / 0x1000000 == 0x68

/-- The STATUS with which operation `op` is refused, 0 where it acts (R340): OP 0, 8, 10 and 11 always act, and OP 1 does on
the security block; in Hold OP 3 is refused with 4 before 3; the others with 3 where the security state limits the port, and
with 4 in Hold and in reset (log entry 100). -/
def dbgRefusal (s : State) (op : Nat) (sec : Bool) : Nat :=
  if op = 0 ∨ op = 8 ∨ op = 10 ∨ op = 11 ∨ (op = 1 ∧ sec) then 0
  else if op = 3 ∧ s.fm.power = .hold then 4
  else if tapLimited s then 3
  else if s.dark then 4
  else 0

/-- A scan said to arrive early finds the operation before it busy: that one began at most 2 µs, 800 ticks, ago (R339). -/
def dbgBusy (s : State) (early : Bool) : Bool :=
  early && (match s.tap.opAt with | some t => decide ((s.steady - t).toNat ≤ 800) | none => false)

/-- A scan through DBGACC that shifts in `x` (R339): it captures the result of the operation before it, or STATUS 1 while
that one is busy, and its update is then ignored; else the operation acts or is refused. In Off nothing answers. -/
def dbgOp (s : State) (early : Bool) (x : BitVec 72) (f : State → State) : State :=
  if s.fm.reset == .off then s
  else
    let busy := dbgBusy s early
    let s : State := { s with tap := { s.tap with
      ir := 8, extest := false, scan := x,
      capture := if busy then scanOut 1 0 0 else scanOut s.tap.status s.tap.poison s.tap.data,
      opAt := if busy then s.tap.opAt else some s.steady } }
    if busy then s
    else
      let r := dbgRefusal s (scanOp x) (inSec (scanAddr x).toNat)
      if r ≠ 0 then dbgDone s r 0 0 else f s

/-- Core `c` is halted, or resumes; SVH follows for a supervisor. The slot of an engine starts what the change lets it
start (R183). -/
def setHalt (s : State) (c : Nat) (b : Bool) : State :=
  let s := s.setCore c { s.core c with halted := b, stepOne := false }
  if 512 ≤ c then s.wrB .secDbg 0 0 (2 + (c - 512)) b
  else match slotOf s c with | some x => tryStart s (c / 8) x | none => s

/-- The cores that TGT and ADDR name (R339): a supervisor, every core, or one engine. -/
def dbgTargets (tgt : BitVec 4) (addr : Word) : Option (List Nat) :=
  let t := tgt.toNat
  if t < 4 then some [512 + t]
  else if t = 4 then some (List.range 516)
  else if t = 8 then some [fld addr 8 0]
  else none

/-- A core is halted by debug. -/
def anyHalted (s : State) : Bool := s.cores.any (fun e => e.2.halted)

/-- DBG_ATTACH (R339–R341). -/
def execDbgAttach (s : State) (early : Bool := false) : Host.Outcome State Fault Refusal :=
  .next (dbgOp s early (scanIn 3 0 0 0) fun s => dbgDone (if s.rdF .secDbg 0 0 1 0 = 0 then setDbg s 1 else s) 0 0 0)

/-- DBG_DETACH (R339, R341): every halted core resumes. -/
def execDbgDetach (s : State) (early : Bool := false) : Host.Outcome State Fault Refusal :=
  .next (dbgOp s early (scanIn 4 0 0 0) fun s =>
    let s := (List.range 516).foldl (fun s c => if (s.core c).halted then setHalt s c false else s) s
    dbgDone (setDbg s 0) 0 0 0)

/-- DBG_HALT (R339, R341, R41): live, or with TGT 4 quiet: every lane's EN clears and with QHLF the timebase goes over to
low-frequency time. -/
def execDbgHalt (tgt : BitVec 4) (addr : Word) (s : State) (early : Bool := false) : Host.Outcome State Fault Refusal :=
  .next (dbgOp s early (scanIn 5 addr 0 tgt) fun s =>
    match dbgTargets tgt addr with
    | none => dbgDone s 2 0 0
    | some cs =>
      let s := cs.foldl (fun s c => setHalt s c true) s
      if tgt = 4 then
        let s := setDbg (disableAll s) 3
        dbgDone (quietLf s) 0 0 0
      else dbgDone (if s.rdF .secDbg 0 0 1 0 = 3 then s else setDbg s 2) 0 0 0)

/-- DBG_RESUME (R339, R341): with the last halted core the debugger is Attached-Running. -/
def execDbgResume (tgt : BitVec 4) (addr : Word) (s : State) (early : Bool := false) : Host.Outcome State Fault Refusal :=
  .next (dbgOp s early (scanIn 6 addr 0 tgt) fun s =>
    match dbgTargets tgt addr with
    | none => dbgDone s 2 0 0
    | some cs =>
      let was := anyHalted s
      let s := cs.foldl (fun s c => if (s.core c).halted then setHalt s c false else s) s
      dbgDone (if was && !anyHalted s then setDbg s 1 else s) 0 0 0)

/-- DBG_STEP (R339): every halted core that TGT names executes one instruction; with none of them halted it is an error. -/
def execDbgStep (tgt : BitVec 4) (addr : Word) (s : State) (early : Bool := false) : Host.Outcome State Fault Refusal :=
  .next (dbgOp s early (scanIn 7 addr 0 tgt) fun s =>
    let cs := ((dbgTargets tgt addr).getD []).filter (fun c => (s.core c).halted)
    if cs = [] then dbgDone s 2 0 0
    else dbgDone (cs.foldl (fun s c => s.setCore c { s.core c with stepOne := true }) s) 0 0 0)

/-- DBG_STATUS (R339): DATA returns SEC_DBG. -/
def execDbgStatus (s : State) (early : Bool := false) : Host.Outcome State Fault Refusal :=
  .next (dbgOp s early (scanIn 8 0 0 0) fun s => dbgDone s 0 (s.rd .secDbg 0 0) 0)

/-- DBG_RESET (R317, R339): a device reset; with DATA[0] at 1 SV0 halts at 0x0000_0000. -/
def execDbgReset (data : Word) (s : State) (early : Bool := false) : Host.Outcome State Fault Refusal :=
  .next (dbgOp s early (scanIn 9 0 data 0) fun s =>
    let s := deviceReset (dbgDone s 0 0 0) 5 11
    { s with fm := { s.fm with haltSv0 := bitOf data 0 } })

/-- DBG_READ (R244, R339, R340): a word as stored, with a poison flag per byte. -/
def execDbgRead (addr : Word) (s : State) (early : Bool := false) : Host.Outcome State Fault Refusal :=
  let a := addr.toNat
  .next (dbgOp s early (scanIn 1 addr 0 0) fun s =>
    if !hostReach s .load a 4 then dbgDone s 2 0 0
    else
      let (bs, s) := busRead s 517 a 4
      dbgDone s 0 (bytesWord bs) (((List.range 4).filter (fun i => (bs.getD i (0, false)).2)).map (2 ^ ·)).sum)

/-- DBG_WRITE (R339, R340). -/
def execDbgWrite (addr data : Word) (s : State) (early : Bool := false) : Host.Outcome State Fault Refusal :=
  let a := addr.toNat
  .next (dbgOp s early (scanIn 2 addr data 0) fun s =>
    if !hostReach s .store a 4 then dbgDone s 2 0 0 else dbgDone (busWrite s 517 a (wordBytes data false)) 0 0 0)

/-- DBG_READ_CHALLENGE (R339): a word of SEC_CHAL. -/
def execDbgReadChallenge (addr : Word) (s : State) (early : Bool := false) : Host.Outcome State Fault Refusal :=
  .next (dbgOp s early (scanIn 10 addr 0 0) fun s => dbgDone s 0 (readSecChal s (fld addr 2 0)) 0)

/-- DBG_WRITE_RESPONSE (R339): a word of SEC_RESP, or SEC_OPEN, also in Hold (R340); a CHREQ among it draws `random`. In a
reset the registers keep their after-reset values. -/
def execDbgWriteResponse (addr data : Word) (random : BitVec 192) (s : State) (early : Bool := false) : Host.Outcome State Fault Refusal :=
  .next (dbgOp s early (scanIn 11 addr data 0) fun s =>
    if s.fm.reset != .none then dbgDone s 0 0 0
    else if bitOf addr 5 then dbgDone (openWrite s data random) 0 0 0
    else dbgDone (respWrite s (fld addr 4 0) data) 0 0 0)

/-- DBG_OP_ERROR (R339, R340): OP 12–15 are errors; OP 0 does nothing. -/
def execDbgOpError (op : BitVec 4) (s : State) (early : Bool := false) : Host.Outcome State Fault Refusal :=
  if op ≠ 0 ∧ op.toNat < 12 then .next s
  else .next (dbgOp s early (scanIn op 0 0 0) fun s => dbgDone s (if op = 0 then 0 else 2) 0 0)

end Sys2Proof.Machine
end

