-- ==== Sys2Proof/Machine/FloatOps.lean ====
section
/-! DEFINITION. binary32 instructions (R163). -/

namespace Sys2Proof.Machine

/-- FADD (R163). -/
def execFadd (c : Core) (rd ra rb : Fin 32) (s : State) : Host.Outcome State Fault Refusal :=
  .next (op2 s (coreNum c) rd ra rb 3 fun a b => fAdd a b)

/-- FSUB (R163). -/
def execFsub (c : Core) (rd ra rb : Fin 32) (s : State) : Host.Outcome State Fault Refusal :=
  .next (op2 s (coreNum c) rd ra rb 3 fun a b => fSub a b)

/-- FMUL (R163). -/
def execFmul (c : Core) (rd ra rb : Fin 32) (s : State) : Host.Outcome State Fault Refusal :=
  .next (op2 s (coreNum c) rd ra rb 3 fun a b => fMul a b)

/-- FMA (R163). -/
def execFma (c : Core) (rd ra rb : Fin 32) (s : State) : Host.Outcome State Fault Refusal :=
  .next (op3 s (coreNum c) rd ra rb 3 fun a b d => fMa a b d)

/-- FMIN (R163). -/
def execFmin (c : Core) (rd ra rb : Fin 32) (s : State) : Host.Outcome State Fault Refusal :=
  .next (op2 s (coreNum c) rd ra rb 3 fun a b => fMinMax false a b)

/-- FMAX (R163). -/
def execFmax (c : Core) (rd ra rb : Fin 32) (s : State) : Host.Outcome State Fault Refusal :=
  .next (op2 s (coreNum c) rd ra rb 3 fun a b => fMinMax true a b)

/-- FABS (R163). -/
def execFabs (c : Core) (rd ra : Fin 32) (s : State) : Host.Outcome State Fault Refusal :=
  .next (op1 s (coreNum c) rd ra 1 fun a => fAbs a)

/-- FNEG (R163). -/
def execFneg (c : Core) (rd ra : Fin 32) (s : State) : Host.Outcome State Fault Refusal :=
  .next (op1 s (coreNum c) rd ra 1 fun a => fNeg a)

/-- FCEQ (R163). -/
def execFceq (c : Core) (rd ra rb : Fin 32) (s : State) : Host.Outcome State Fault Refusal :=
  .next (op2 s (coreNum c) rd ra rb 3 fun a b => fCeq a b)

/-- FCLT (R163). -/
def execFclt (c : Core) (rd ra rb : Fin 32) (s : State) : Host.Outcome State Fault Refusal :=
  .next (op2 s (coreNum c) rd ra rb 3 fun a b => fClt a b)

/-- FCLE (R163). -/
def execFcle (c : Core) (rd ra rb : Fin 32) (s : State) : Host.Outcome State Fault Refusal :=
  .next (op2 s (coreNum c) rd ra rb 3 fun a b => fCle a b)

/-- FITOF (R163). -/
def execFitof (c : Core) (rd ra : Fin 32) (s : State) : Host.Outcome State Fault Refusal :=
  .next (op1 s (coreNum c) rd ra 3 fun a => fItof a)

/-- FFTOI (R163). -/
def execFftoi (c : Core) (rd ra : Fin 32) (s : State) : Host.Outcome State Fault Refusal :=
  .next (op1 s (coreNum c) rd ra 3 fun a => fFtoi a)

/-- FTOQ (R163). -/
def execFtoq (c : Core) (rd ra : Fin 32) (s : State) : Host.Outcome State Fault Refusal :=
  .next (op1 s (coreNum c) rd ra 3 fun a => fToq a)

/-- QTOF (R163). -/
def execQtof (c : Core) (rd ra : Fin 32) (s : State) : Host.Outcome State Fault Refusal :=
  .next (op1 s (coreNum c) rd ra 3 fun a => fQtof a)

end Sys2Proof.Machine
end

