-- ==== Sys2Proof/Machine/Integer.lean ====
section
/-! DEFINITION. Integer arithmetic and logic (R160). -/

namespace Sys2Proof.Machine

/-- ADD (R160). -/
def execAdd (c : Core) (rd ra rb : Fin 32) (s : State) : Host.Outcome State Fault Refusal :=
  .next (op2 s (coreNum c) rd ra rb 1 fun a b => { val := a + b })

/-- SUB (R160). -/
def execSub (c : Core) (rd ra rb : Fin 32) (s : State) : Host.Outcome State Fault Refusal :=
  .next (op2 s (coreNum c) rd ra rb 1 fun a b => { val := a - b })

/-- ADDO (R160). -/
def execAddo (c : Core) (rd ra rb : Fin 32) (s : State) : Host.Outcome State Fault Refusal :=
  .next (op2 s (coreNum c) rd ra rb 1 fun a b => satRes (sgn a + sgn b) aexOvf)

/-- SUBO (R160). -/
def execSubo (c : Core) (rd ra rb : Fin 32) (s : State) : Host.Outcome State Fault Refusal :=
  .next (op2 s (coreNum c) rd ra rb 1 fun a b => satRes (sgn a - sgn b) aexOvf)

/-- AND (R160). -/
def execAnd (c : Core) (rd ra rb : Fin 32) (s : State) : Host.Outcome State Fault Refusal :=
  .next (op2 s (coreNum c) rd ra rb 1 fun a b => { val := a &&& b })

/-- OR (R160). -/
def execOr (c : Core) (rd ra rb : Fin 32) (s : State) : Host.Outcome State Fault Refusal :=
  .next (op2 s (coreNum c) rd ra rb 1 fun a b => { val := a ||| b })

/-- XOR (R160). -/
def execXor (c : Core) (rd ra rb : Fin 32) (s : State) : Host.Outcome State Fault Refusal :=
  .next (op2 s (coreNum c) rd ra rb 1 fun a b => { val := a ^^^ b })

/-- SLL (R160). -/
def execSll (c : Core) (rd ra rb : Fin 32) (s : State) : Host.Outcome State Fault Refusal :=
  .next (op2 s (coreNum c) rd ra rb 1 fun a b => { val := a <<< shAmt b })

/-- SRL (R160). -/
def execSrl (c : Core) (rd ra rb : Fin 32) (s : State) : Host.Outcome State Fault Refusal :=
  .next (op2 s (coreNum c) rd ra rb 1 fun a b => { val := a >>> shAmt b })

/-- SRA (R160). -/
def execSra (c : Core) (rd ra rb : Fin 32) (s : State) : Host.Outcome State Fault Refusal :=
  .next (op2 s (coreNum c) rd ra rb 1 fun a b => { val := a.sshiftRight (shAmt b) })

/-- MUL (R160). -/
def execMul (c : Core) (rd ra rb : Fin 32) (s : State) : Host.Outcome State Fault Refusal :=
  .next (op2 s (coreNum c) rd ra rb 3 fun a b => { val := a * b })

/-- MULH (R160). -/
def execMulh (c : Core) (rd ra rb : Fin 32) (s : State) : Host.Outcome State Fault Refusal :=
  .next (op2 s (coreNum c) rd ra rb 3 fun a b => { val := wdi (sgn a * sgn b / 2 ^ 32) })

/-- MULHU (R160). -/
def execMulhu (c : Core) (rd ra rb : Fin 32) (s : State) : Host.Outcome State Fault Refusal :=
  .next (op2 s (coreNum c) rd ra rb 3 fun a b => { val := wd (a.toNat * b.toNat / 2 ^ 32) })

/-- ADDI (R160). -/
def execAddi (c : Core) (rd ra : Fin 32) (imm : BitVec 16) (s : State) : Host.Outcome State Fault Refusal :=
  .next (op1 s (coreNum c) rd ra 1 fun a => { val := a + sImm imm })

/-- ANDI (R160). -/
def execAndi (c : Core) (rd ra : Fin 32) (imm : BitVec 16) (s : State) : Host.Outcome State Fault Refusal :=
  .next (op1 s (coreNum c) rd ra 1 fun a => { val := a &&& zImm imm })

/-- ORI (R160). -/
def execOri (c : Core) (rd ra : Fin 32) (imm : BitVec 16) (s : State) : Host.Outcome State Fault Refusal :=
  .next (op1 s (coreNum c) rd ra 1 fun a => { val := a ||| zImm imm })

/-- XORI (R160). -/
def execXori (c : Core) (rd ra : Fin 32) (imm : BitVec 16) (s : State) : Host.Outcome State Fault Refusal :=
  .next (op1 s (coreNum c) rd ra 1 fun a => { val := a ^^^ zImm imm })

/-- LUI (R160; RA is unused). -/
def execLui (c : Core) (rd : Fin 32) (imm : BitVec 16) (s : State) : Host.Outcome State Fault Refusal :=
  .next (op1 s (coreNum c) rd 0 1 fun _ => { val := zImm imm <<< 16 })

/-- SLLI (R160). -/
def execSlli (c : Core) (rd ra : Fin 32) (aux : BitVec 5) (s : State) : Host.Outcome State Fault Refusal :=
  .next (op1 s (coreNum c) rd ra 1 fun a => { val := a <<< aux.toNat })

/-- SRLI (R160). -/
def execSrli (c : Core) (rd ra : Fin 32) (aux : BitVec 5) (s : State) : Host.Outcome State Fault Refusal :=
  .next (op1 s (coreNum c) rd ra 1 fun a => { val := a >>> aux.toNat })

/-- SRAI (R160). -/
def execSrai (c : Core) (rd ra : Fin 32) (aux : BitVec 5) (s : State) : Host.Outcome State Fault Refusal :=
  .next (op1 s (coreNum c) rd ra 1 fun a => { val := a.sshiftRight aux.toNat })

/-- MIN (R160). -/
def execMin (c : Core) (rd ra rb : Fin 32) (s : State) : Host.Outcome State Fault Refusal :=
  .next (op2 s (coreNum c) rd ra rb 1 fun a b => { val := if sgn b < sgn a then b else a })

/-- MAX (R160). -/
def execMax (c : Core) (rd ra rb : Fin 32) (s : State) : Host.Outcome State Fault Refusal :=
  .next (op2 s (coreNum c) rd ra rb 1 fun a b => { val := if sgn a < sgn b then b else a })

/-- CLZ (R160). -/
def execClz (c : Core) (rd ra : Fin 32) (s : State) : Host.Outcome State Fault Refusal :=
  .next (op1 s (coreNum c) rd ra 1 fun a => { val := wd (clz32 a) })

/-- ADDS (R160). -/
def execAdds (c : Core) (rd ra rb : Fin 32) (s : State) : Host.Outcome State Fault Refusal :=
  .next (op2 s (coreNum c) rd ra rb 1 fun a b => satRes (sgn a + sgn b) aexQsat)

/-- SUBS (R160). -/
def execSubs (c : Core) (rd ra rb : Fin 32) (s : State) : Host.Outcome State Fault Refusal :=
  .next (op2 s (coreNum c) rd ra rb 1 fun a b => satRes (sgn a - sgn b) aexQsat)

end Sys2Proof.Machine
end

