-- ==== Sys2Proof/Machine/QFormat.lean ====
section
/-! DEFINITION. Q-format multiply and accumulate (R162). -/

namespace Sys2Proof.Machine

/-- QMUL (R162). -/
def execQmul (c : Core) (rd ra rb : Fin 32) (s : State) : Host.Outcome State Fault Refusal :=
  .next (op2 s (coreNum c) rd ra rb 3 fun a b => qMul a b aexOvf)

/-- QMULS (R162). -/
def execQmuls (c : Core) (rd ra rb : Fin 32) (s : State) : Host.Outcome State Fault Refusal :=
  .next (op2 s (coreNum c) rd ra rb 3 fun a b => qMul a b aexQsat)

/-- QMAC (R162). -/
def execQmac (c : Core) (rd ra rb : Fin 32) (s : State) : Host.Outcome State Fault Refusal :=
  .next (op3 s (coreNum c) rd ra rb 3 fun a b d => qMac a b d aexOvf)

/-- QMACS (R162). -/
def execQmacs (c : Core) (rd ra rb : Fin 32) (s : State) : Host.Outcome State Fault Refusal :=
  .next (op3 s (coreNum c) rd ra rb 3 fun a b d => qMac a b d aexQsat)

/-- HMUL (R162). -/
def execHmul (c : Core) (rd ra rb : Fin 32) (s : State) : Host.Outcome State Fault Refusal :=
  .next (op2 s (coreNum c) rd ra rb 3 fun a b => hMul a b aexOvf)

/-- HMULS (R162). -/
def execHmuls (c : Core) (rd ra rb : Fin 32) (s : State) : Host.Outcome State Fault Refusal :=
  .next (op2 s (coreNum c) rd ra rb 3 fun a b => hMul a b aexQsat)

/-- HMAC (R162). -/
def execHmac (c : Core) (rd ra rb : Fin 32) (s : State) : Host.Outcome State Fault Refusal :=
  .next (op3 s (coreNum c) rd ra rb 3 fun a b d => hMac a b d aexOvf)

/-- HMACS (R162). -/
def execHmacs (c : Core) (rd ra rb : Fin 32) (s : State) : Host.Outcome State Fault Refusal :=
  .next (op3 s (coreNum c) rd ra rb 3 fun a b d => hMac a b d aexQsat)

end Sys2Proof.Machine
end

