-- ==== Sys2Proof/Machine/Dispatch.lean ====
section
/-! DEFINITION. The dispatch: one arm for each command, each a direct call of the command's meaning. -/

namespace Sys2Proof.Machine

/-- The effect of command `i` on `s` (everything but the queue of waiting commands). -/
def exec (i : Instr) (s : State) : Host.Outcome State Fault Refusal :=
  match i with
  | .powerOnReset cause => Sys2Proof.Machine.execPowerOnReset cause s
  | .suppliesRemoved => Sys2Proof.Machine.execSuppliesRemoved s
  | .resetnAssert => Sys2Proof.Machine.execResetnAssert s
  | .fmCtlDevrst who v => Sys2Proof.Machine.execFmCtlDevrst who v s
  | .resetEnd vrefen extVrefUv => Sys2Proof.Machine.execResetEnd vrefen extVrefUv s
  | .secureBoot => Sys2Proof.Machine.execSecureBoot s
  | .supplyWarningStart rail mv => Sys2Proof.Machine.execSupplyWarningStart rail mv s
  | .supplySample rail mv => Sys2Proof.Machine.execSupplySample rail mv s
  | .supplyEpisodeEnd rail mv => Sys2Proof.Machine.execSupplyEpisodeEnd rail s mv
  | .fmSupWarnWrite v => Sys2Proof.Machine.execFmSupWarnWrite v s
  | .supplyBelowResetLevel rail => Sys2Proof.Machine.execSupplyBelowResetLevel rail s
  | .supplyRestored rail => Sys2Proof.Machine.execSupplyRestored rail s
  | .fmPwrRun who v => Sys2Proof.Machine.execFmPwrRun who v s
  | .fmPwrIdle who v => Sys2Proof.Machine.execFmPwrIdle who v s
  | .idleEntered => Sys2Proof.Machine.execIdleEntered s
  | .idleExit cause => Sys2Proof.Machine.execIdleExit cause s
  | .fmPwrHold who v => Sys2Proof.Machine.execFmPwrHold who v s
  | .holdEntryComplete => Sys2Proof.Machine.execHoldEntryComplete s
  | .wakePin => Sys2Proof.Machine.execWakePin s
  | .stringWakeSequence => Sys2Proof.Machine.execStringWakeSequence s
  | .tbWakeCompare => Sys2Proof.Machine.execTbWakeCompare s
  | .holdWake => Sys2Proof.Machine.execHoldWake s
  | .descriptorReapplied => Sys2Proof.Machine.execDescriptorReapplied s
  | .pllLock mv => Sys2Proof.Machine.execPllLock mv s
  | .lfTimeExit => Sys2Proof.Machine.execLfTimeExit s
  | .refclkLoss => Sys2Proof.Machine.execRefclkLoss s
  | .lfcntRunEnd count => Sys2Proof.Machine.execLfcntRunEnd count s
  | .lfCrystalFail => Sys2Proof.Machine.execLfCrystalFail s
  | .tbNowlRead who => Sys2Proof.Machine.execTbNowlRead who s
  | .tbWakehWrite v => Sys2Proof.Machine.execTbWakehWrite v s
  | .tbLock v => Sys2Proof.Machine.execTbLock v s
  | .alignmentLoad ring => Sys2Proof.Machine.execAlignmentLoad ring s
  | .speedWindowEnd row rate mv => Sys2Proof.Machine.execSpeedWindowEnd row rate mv s
  | .vddCoreFall20mv row mv => Sys2Proof.Machine.execVddCoreFall20mv row mv s
  | .rwFloorWrite row v => Sys2Proof.Machine.execRwFloorWrite row v s
  | .gtWrap t => Sys2Proof.Machine.execGtWrap t s
  | .gtCompareMatch t c => Sys2Proof.Machine.execGtCompareMatch t c s
  | .gtPerWrite t v => Sys2Proof.Machine.execGtPerWrite t v s
  | .gtCmpWrite t c v => Sys2Proof.Machine.execGtCmpWrite t c v s
  | .gtSwrst t v => Sys2Proof.Machine.execGtSwrst t v s
  | .gtCapture t c rising => Sys2Proof.Machine.execGtCapture t c s rising
  | .gtSwcap t c v => Sys2Proof.Machine.execGtSwcap t c v s
  | .gtClrovr t c v => Sys2Proof.Machine.execGtClrovr t c v s
  | .gtCaplRead who t c => Sys2Proof.Machine.execGtCaplRead who t c s
  | .gtCaphRead who t c => Sys2Proof.Machine.execGtCaphRead who t c s
  | .gtReadTimeout who t c => Sys2Proof.Machine.execGtReadTimeout who t c s
  | .laneEvent n kind => Sys2Proof.Machine.execLaneEvent n kind s
  | .periodBoundary t => Sys2Proof.Machine.execPeriodBoundary t s
  | .laneRisingEdge n => Sys2Proof.Machine.execLaneRisingEdge n s
  | .laneFallingEdge n => Sys2Proof.Machine.execLaneFallingEdge n s
  | .stretchCheck n => Sys2Proof.Machine.execStretchCheck n s
  | .deadTimeEnd n => Sys2Proof.Machine.execDeadTimeEnd n s
  | .refreshPulseEnd n => Sys2Proof.Machine.execRefreshPulseEnd n s
  | .lnCommitLane n => Sys2Proof.Machine.execLnCommitLane n s
  | .lnCommitTrio n => Sys2Proof.Machine.execLnCommitTrio n s
  | .commitRegister => Sys2Proof.Machine.execCommitRegister s
  | .trioRunStart t v => Sys2Proof.Machine.execTrioRunStart t v s
  | .trioSyncStart t => Sys2Proof.Machine.execTrioSyncStart t s
  | .trioRunStop t v => Sys2Proof.Machine.execTrioRunStop t v s
  | .laneEnable n v => Sys2Proof.Machine.execLaneEnable n v s
  | .laneDisable n v => Sys2Proof.Machine.execLaneDisable n v s
  | .lnEvtWrite n v => Sys2Proof.Machine.execLnEvtWrite n v s
  | .lnOvrWrite n v => Sys2Proof.Machine.execLnOvrWrite n v s
  | .sdWordReady inp bits merged => Sys2Proof.Machine.execSdWordReady inp bits merged s
  | .sdCoarseWord inp bits => Sys2Proof.Machine.execSdCoarseWord inp bits s
  | .sdStuck inp => Sys2Proof.Machine.execSdStuck inp s
  | .sdClockLoss g => Sys2Proof.Machine.execSdClockLoss g s
  | .sdPeriodMeasured g period => Sys2Proof.Machine.execSdPeriodMeasured g period s
  | .sdClockRecover g => Sys2Proof.Machine.execSdClockRecover g s
  | .sdClkWrite g v => Sys2Proof.Machine.execSdClkWrite g v s
  | .sdFltWrite inp v => Sys2Proof.Machine.execSdFltWrite inp v s
  | .sdWinWrite inp v => Sys2Proof.Machine.execSdWinWrite inp v s
  | .sdCfltWrite inp v => Sys2Proof.Machine.execSdCfltWrite inp v s
  | .adTrigger k => Sys2Proof.Machine.execAdTrigger k s
  | .adSwtrig k v => Sys2Proof.Machine.execAdSwtrig k v s
  | .adStepEnd k uv => Sys2Proof.Machine.execAdStepEnd k uv s
  | .adCtlWrite k v => Sys2Proof.Machine.execAdCtlWrite k v s
  | .adClrovr k v => Sys2Proof.Machine.execAdClrovr k v s
  | .adResRead who k st => Sys2Proof.Machine.execAdResRead who k st s
  | .guardThresholdCrossing n uv => Sys2Proof.Machine.execGuardThresholdCrossing n uv s
  | .gcConfigWrite n mode v => Sys2Proof.Machine.execGcConfigWrite n mode v s
  | .gcSettleEnd n part => Sys2Proof.Machine.execGcSettleEnd n part s
  | .muteSourceAssert src => Sys2Proof.Machine.execMuteSourceAssert src s
  | .muteSourceDeassert src => Sys2Proof.Machine.execMuteSourceDeassert src s
  | .muRouteWrite src w v => Sys2Proof.Machine.execMuRouteWrite src w v s
  | .muMaskWrite n w v => Sys2Proof.Machine.execMuMaskWrite n w v s
  | .muLineModeWrite l v => Sys2Proof.Machine.execMuLineModeWrite l v s
  | .muLineRelease l v => Sys2Proof.Machine.execMuLineRelease l v s
  | .muSwtripWrite v => Sys2Proof.Machine.execMuSwtripWrite v s
  | .muLock v => Sys2Proof.Machine.execMuLock v s
  | .tripPinEdge j level => Sys2Proof.Machine.execTripPinEdge j level s
  | .tripFilterExpiry j => Sys2Proof.Machine.execTripFilterExpiry j s
  | .stoAssert pin => Sys2Proof.Machine.execStoAssert pin s
  | .stoEnClearDone => Sys2Proof.Machine.execStoEnClearDone s
  | .stoRearm v => Sys2Proof.Machine.execStoRearm v s
  | .stoDiscrepancy => Sys2Proof.Machine.execStoDiscrepancy s
  | .encFilteredEdge p a b z => Sys2Proof.Machine.execEncFilteredEdge p a b z s
  | .encReceiverOpen p rx fault => Sys2Proof.Machine.execEncReceiverOpen p rx s fault
  | .epSwlat p v => Sys2Proof.Machine.execEpSwlat p v s
  | .ssiFrameComplete p data parity => Sys2Proof.Machine.execSsiFrameComplete p data parity s
  | .ssiDataReturn p => Sys2Proof.Machine.execSsiDataReturn p s
  | .ssiTimeout p => Sys2Proof.Machine.execSsiTimeout p s
  | .epPosWrite p v => Sys2Proof.Machine.execEpPosWrite p v s
  | .epCfgWrite p v => Sys2Proof.Machine.execEpCfgWrite p v s
  | .camSetpointReady k sl => Sys2Proof.Machine.execCamSetpointReady k sl s
  | .activationPoint k sl => Sys2Proof.Machine.execActivationPoint k sl s
  | .deadlineExpiry k sl => Sys2Proof.Machine.execDeadlineExpiry k sl s
  | .rowRejoin k sl v => Sys2Proof.Machine.execRowRejoin k sl v s
  | .rowEnable k v => Sys2Proof.Machine.execRowEnable k v s
  | .rowDisable k v => Sys2Proof.Machine.execRowDisable k v s
  | .rwTriosWrite k v => Sys2Proof.Machine.execRwTriosWrite k v s
  | .rwBindWrite k sl v => Sys2Proof.Machine.execRwBindWrite k sl v s
  | .add c rd ra rb => Sys2Proof.Machine.execAdd c rd ra rb s
  | .sub c rd ra rb => Sys2Proof.Machine.execSub c rd ra rb s
  | .addo c rd ra rb => Sys2Proof.Machine.execAddo c rd ra rb s
  | .subo c rd ra rb => Sys2Proof.Machine.execSubo c rd ra rb s
  | .and c rd ra rb => Sys2Proof.Machine.execAnd c rd ra rb s
  | .or c rd ra rb => Sys2Proof.Machine.execOr c rd ra rb s
  | .xor c rd ra rb => Sys2Proof.Machine.execXor c rd ra rb s
  | .sll c rd ra rb => Sys2Proof.Machine.execSll c rd ra rb s
  | .srl c rd ra rb => Sys2Proof.Machine.execSrl c rd ra rb s
  | .sra c rd ra rb => Sys2Proof.Machine.execSra c rd ra rb s
  | .mul c rd ra rb => Sys2Proof.Machine.execMul c rd ra rb s
  | .mulh c rd ra rb => Sys2Proof.Machine.execMulh c rd ra rb s
  | .mulhu c rd ra rb => Sys2Proof.Machine.execMulhu c rd ra rb s
  | .addi c rd ra imm => Sys2Proof.Machine.execAddi c rd ra imm s
  | .andi c rd ra imm => Sys2Proof.Machine.execAndi c rd ra imm s
  | .ori c rd ra imm => Sys2Proof.Machine.execOri c rd ra imm s
  | .xori c rd ra imm => Sys2Proof.Machine.execXori c rd ra imm s
  | .lui c rd imm => Sys2Proof.Machine.execLui c rd imm s
  | .slli c rd ra aux => Sys2Proof.Machine.execSlli c rd ra aux s
  | .srli c rd ra aux => Sys2Proof.Machine.execSrli c rd ra aux s
  | .srai c rd ra aux => Sys2Proof.Machine.execSrai c rd ra aux s
  | .min c rd ra rb => Sys2Proof.Machine.execMin c rd ra rb s
  | .max c rd ra rb => Sys2Proof.Machine.execMax c rd ra rb s
  | .clz c rd ra => Sys2Proof.Machine.execClz c rd ra s
  | .adds c rd ra rb => Sys2Proof.Machine.execAdds c rd ra rb s
  | .subs c rd ra rb => Sys2Proof.Machine.execSubs c rd ra rb s
  | .ceq c rd ra rb => Sys2Proof.Machine.execCeq c rd ra rb s
  | .clt c rd ra rb => Sys2Proof.Machine.execClt c rd ra rb s
  | .cltu c rd ra rb => Sys2Proof.Machine.execCltu c rd ra rb s
  | .ceqi c rd ra imm => Sys2Proof.Machine.execCeqi c rd ra imm s
  | .clti c rd ra imm => Sys2Proof.Machine.execClti c rd ra imm s
  | .cltui c rd ra imm => Sys2Proof.Machine.execCltui c rd ra imm s
  | .sel c rd ra rb rc => Sys2Proof.Machine.execSel c rd ra rb rc s
  | .qmul c rd ra rb => Sys2Proof.Machine.execQmul c rd ra rb s
  | .qmuls c rd ra rb => Sys2Proof.Machine.execQmuls c rd ra rb s
  | .qmac c rd ra rb => Sys2Proof.Machine.execQmac c rd ra rb s
  | .qmacs c rd ra rb => Sys2Proof.Machine.execQmacs c rd ra rb s
  | .hmul c rd ra rb => Sys2Proof.Machine.execHmul c rd ra rb s
  | .hmuls c rd ra rb => Sys2Proof.Machine.execHmuls c rd ra rb s
  | .hmac c rd ra rb => Sys2Proof.Machine.execHmac c rd ra rb s
  | .hmacs c rd ra rb => Sys2Proof.Machine.execHmacs c rd ra rb s
  | .fadd c rd ra rb => Sys2Proof.Machine.execFadd c rd ra rb s
  | .fsub c rd ra rb => Sys2Proof.Machine.execFsub c rd ra rb s
  | .fmul c rd ra rb => Sys2Proof.Machine.execFmul c rd ra rb s
  | .fma c rd ra rb => Sys2Proof.Machine.execFma c rd ra rb s
  | .fmin c rd ra rb => Sys2Proof.Machine.execFmin c rd ra rb s
  | .fmax c rd ra rb => Sys2Proof.Machine.execFmax c rd ra rb s
  | .fabs c rd ra => Sys2Proof.Machine.execFabs c rd ra s
  | .fneg c rd ra => Sys2Proof.Machine.execFneg c rd ra s
  | .fceq c rd ra rb => Sys2Proof.Machine.execFceq c rd ra rb s
  | .fclt c rd ra rb => Sys2Proof.Machine.execFclt c rd ra rb s
  | .fcle c rd ra rb => Sys2Proof.Machine.execFcle c rd ra rb s
  | .fitof c rd ra => Sys2Proof.Machine.execFitof c rd ra s
  | .fftoi c rd ra => Sys2Proof.Machine.execFftoi c rd ra s
  | .ftoq c rd ra => Sys2Proof.Machine.execFtoq c rd ra s
  | .qtof c rd ra => Sys2Proof.Machine.execQtof c rd ra s
  | .div c rd ra rb => Sys2Proof.Machine.execDiv c rd ra rb s
  | .divu c rd ra rb => Sys2Proof.Machine.execDivu c rd ra rb s
  | .sqrt c rd ra => Sys2Proof.Machine.execSqrt c rd ra s
  | .fdiv c rd ra rb => Sys2Proof.Machine.execFdiv c rd ra rb s
  | .fsqrt c rd ra => Sys2Proof.Machine.execFsqrt c rd ra s
  | .recip c rd ra => Sys2Proof.Machine.execRecip c rd ra s
  | .sin c rd ra => Sys2Proof.Machine.execSin c rd ra s
  | .cos c rd ra => Sys2Proof.Machine.execCos c rd ra s
  | .atan2 c rd ra rb => Sys2Proof.Machine.execAtan2 c rd ra rb s
  | .sideUnitResult c u => Sys2Proof.Machine.execSideUnitResult c u s
  | .lb c rd ra imm => Sys2Proof.Machine.execLb c rd ra imm s
  | .lbu c rd ra imm => Sys2Proof.Machine.execLbu c rd ra imm s
  | .lh c rd ra imm => Sys2Proof.Machine.execLh c rd ra imm s
  | .lhu c rd ra imm => Sys2Proof.Machine.execLhu c rd ra imm s
  | .lw c rd ra imm => Sys2Proof.Machine.execLw c rd ra imm s
  | .sb c rd ra imm => Sys2Proof.Machine.execSb c rd ra imm s
  | .sh c rd ra imm => Sys2Proof.Machine.execSh c rd ra imm s
  | .sw c rd ra imm => Sys2Proof.Machine.execSw c rd ra imm s
  | .lhp c rd ra imm => Sys2Proof.Machine.execLhp c rd ra imm s
  | .lwp c rd ra imm => Sys2Proof.Machine.execLwp c rd ra imm s
  | .shp c rd ra imm => Sys2Proof.Machine.execShp c rd ra imm s
  | .swp c rd ra imm => Sys2Proof.Machine.execSwp c rd ra imm s
  | .swap c rd ra rb => Sys2Proof.Machine.execSwap c rd ra rb s
  | .cas c rd ra rb => Sys2Proof.Machine.execCas c rd ra rb s
  | .farAccessComplete c => Sys2Proof.Machine.execFarAccessComplete c s
  | .storeBufferDrain c => Sys2Proof.Machine.execStoreBufferDrain c s
  | .bez c ra off => Sys2Proof.Machine.execBez c ra off s
  | .bnz c ra off => Sys2Proof.Machine.execBnz c ra off s
  | .jmp c off => Sys2Proof.Machine.execJmp c off s
  | .call c rd off => Sys2Proof.Machine.execCall c rd off s
  | .jr c ra => Sys2Proof.Machine.execJr c ra s
  | .jalr c rd ra => Sys2Proof.Machine.execJalr c rd ra s
  | .yield c => Sys2Proof.Machine.execYield c s
  | .commit c => Sys2Proof.Machine.execCommit c s
  | .sync c => Sys2Proof.Machine.execSync c s
  | .check c => Sys2Proof.Machine.execCheck c s
  | .eret c => Sys2Proof.Machine.execEret c s
  | .mtcr c crn ra => Sys2Proof.Machine.execMtcr c crn ra s
  | .mfcr c rd crn => Sys2Proof.Machine.execMfcr c rd crn s
  | .svc c code => Sys2Proof.Machine.execSvc c code s
  | .wfi c => Sys2Proof.Machine.execWfi c s
  | .wfiEnd n => Sys2Proof.Machine.execWfiEnd n s
  | .fence c => Sys2Proof.Machine.execFence c s
  | .bcpy c rd ra rb => Sys2Proof.Machine.execBcpy c rd ra rb s
  | .bset c rd ra rb => Sys2Proof.Machine.execBset c rd ra rb s
  | .bcrc c rd ra rb => Sys2Proof.Machine.execBcrc c rd ra rb s
  | .cload c rd ra rb => Sys2Proof.Machine.execCload c rd ra rb s
  | .longStep n => Sys2Proof.Machine.execLongStep n s
  | .reservedOpcode c w => Sys2Proof.Machine.execReservedOpcode c w s
  | .illegalOpcode c w => Sys2Proof.Machine.execIllegalOpcode c w s
  | .ceSelfCheck n => Sys2Proof.Machine.execCeSelfCheck n s
  | .ceWatchdog n => Sys2Proof.Machine.execCeWatchdog n s
  | .ceStopClear n => Sys2Proof.Machine.execCeStopClear n s
  | .exceptionEntry n => Sys2Proof.Machine.execExceptionEntry n s
  | .hwCtlWrite v => Sys2Proof.Machine.execHwCtlWrite v s
  | .hwPerhWrite n v => Sys2Proof.Machine.execHwPerhWrite n v s
  | .hwDutyhWrite n v => Sys2Proof.Machine.execHwDutyhWrite n v s
  | .irqClaim n => Sys2Proof.Machine.execIrqClaim n s
  | .irqDone n v => Sys2Proof.Machine.execIrqDone n v s
  | .irqSwset v => Sys2Proof.Machine.execIrqSwset v s
  | .irqSclr n => Sys2Proof.Machine.execIrqSclr n s
  | .irqAexrClr k v => Sys2Proof.Machine.execIrqAexrClr k v s
  | .scrubStep m => Sys2Proof.Machine.execScrubStep m s
  | .scrubLapLimit m => Sys2Proof.Machine.execScrubLapLimit m s
  | .memVclr m v => Sys2Proof.Machine.execMemVclr m v s
  | .memVclrDone m => Sys2Proof.Machine.execMemVclrDone m s
  | .memClrw m v => Sys2Proof.Machine.execMemClrw m v s
  | .memClrc m v => Sys2Proof.Machine.execMemClrc m v s
  | .memFlipWrite who m v => Sys2Proof.Machine.execMemFlipWrite who m v s
  | .mpLock v => Sys2Proof.Machine.execMpLock v s
  | .ckDirBegin v w => Sys2Proof.Machine.execCkDirBegin v w s
  | .ckDirSeal v w => Sys2Proof.Machine.execCkDirSeal v w s
  | .sealComplete v => Sys2Proof.Machine.execSealComplete v s
  | .ckDirErase v w => Sys2Proof.Machine.execCkDirErase v w s
  | .eraseBlockDone v => Sys2Proof.Machine.execEraseBlockDone v s
  | .ckLoadGo w => Sys2Proof.Machine.execCkLoadGo w s
  | .loadEntryWrite => Sys2Proof.Machine.execLoadEntryWrite s
  | .ckSwitchArm w => Sys2Proof.Machine.execCkSwitchArm w s
  | .prefetchComplete => Sys2Proof.Machine.execPrefetchComplete s
  | .ckSwitchDisarm w => Sys2Proof.Machine.execCkSwitchDisarm w s
  | .switchInstant => Sys2Proof.Machine.execSwitchInstant s
  | .ckClrc w => Sys2Proof.Machine.execCkClrc w s
  | .ckFlipArm w => Sys2Proof.Machine.execCkFlipArm w s
  | .ckLock w => Sys2Proof.Machine.execCkLock w s
  | .rackingStep => Sys2Proof.Machine.execRackingStep s
  | .stringPortUp p => Sys2Proof.Machine.execStringPortUp p s
  | .stringPortDown p => Sys2Proof.Machine.execStringPortDown p s
  | .stringIdleEnd p => Sys2Proof.Machine.execStringIdleEnd p s
  | .stringCycleBoundary => Sys2Proof.Machine.execStringCycleBoundary s
  | .headPageLatch => Sys2Proof.Machine.execHeadPageLatch s
  | .cycFrameSend => Sys2Proof.Machine.execCycFrameSend s
  | .cycFrameReceive p ws ta => Sys2Proof.Machine.execCycFrameReceive p ws ta s
  | .cycFrameReturn ws rtl p => Sys2Proof.Machine.execCycFrameReturn ws rtl s p
  | .bulkFrameReceive p ws => Sys2Proof.Machine.execBulkFrameReceive p ws s
  | .queuedFrameSend p => Sys2Proof.Machine.execQueuedFrameSend p s
  | .echoSend p t1 => Sys2Proof.Machine.execEchoSend p t1 s
  | .echoReceive p t1 t2 t3 => Sys2Proof.Machine.execEchoReceive p t1 t2 t3 s
  | .echoReplyReceive p t2 t3 t4 t1 => Sys2Proof.Machine.execEchoReplyReceive p t2 t3 t4 s t1
  | .tuneStart v => Sys2Proof.Machine.execTuneStart v s
  | .tuneFrameReceive counter keep toomany => Sys2Proof.Machine.execTuneFrameReceive counter keep toomany s
  | .tuneReturn counter keep toomany => Sys2Proof.Machine.execTuneReturn counter keep toomany s
  | .tuneTimeout => Sys2Proof.Machine.execTuneTimeout s
  | .nop path seq => Sys2Proof.Machine.execNop path seq s
  | .read path seq addr len => Sys2Proof.Machine.execRead path seq addr len s
  | .write path seq addr bytes => Sys2Proof.Machine.execWrite path seq addr bytes s
  | .dsc path seq first last bytes => Sys2Proof.Machine.execDsc path seq first last bytes s
  | .descriptorJudged => Sys2Proof.Machine.execDescriptorJudged s
  | .arm path seq slot cyc ang => Sys2Proof.Machine.execArm path seq slot cyc ang s
  | .disarm path seq => Sys2Proof.Machine.execDisarm path seq s
  | .freset path seq arg => Sys2Proof.Machine.execFreset path seq arg s
  | .devreset path seq => Sys2Proof.Machine.execDevreset path seq s
  | .attnclr path seq => Sys2Proof.Machine.execAttnclr path seq s
  | .mbox path seq ws => Sys2Proof.Machine.execMbox path seq ws s
  | .power path seq arg => Sys2Proof.Machine.execPower path seq arg s
  | .cbclear path seq ws => Sys2Proof.Machine.execCbclear path seq ws s
  | .unknownCommand path seq code => Sys2Proof.Machine.execUnknownCommand path seq code s
  | .stHeadWrite who v => Sys2Proof.Machine.execStHeadWrite who v s
  | .stSwake v => Sys2Proof.Machine.execStSwake v s
  | .stHostPost v => Sys2Proof.Machine.execStHostPost v s
  | .stBqtailWrite v => Sys2Proof.Machine.execStBqtailWrite v s
  | .stBrheadWrite v => Sys2Proof.Machine.execStBrheadWrite v s
  | .stAttnClr v => Sys2Proof.Machine.execStAttnClr v s
  | .stMboReady v => Sys2Proof.Machine.execStMboReady v s
  | .stCyctWrite v => Sys2Proof.Machine.execStCyctWrite v s
  | .perstnAssert level => Sys2Proof.Machine.execPerstnAssert level s
  | .pcieLinkDown => Sys2Proof.Machine.execPcieLinkDown s
  | .fmFreset who v => Sys2Proof.Machine.execFmFreset who v s
  | .fresetEnd f => Sys2Proof.Machine.execFresetEnd f s
  | .heartbeatProbe silent => Sys2Proof.Machine.execHeartbeatProbe silent s
  | .probeTimeout f => Sys2Proof.Machine.execProbeTimeout f s
  | .fmLock v => Sys2Proof.Machine.execFmLock v s
  | .secKeyWrite v => Sys2Proof.Machine.execSecKeyWrite v s
  | .secKeyErase v => Sys2Proof.Machine.execSecKeyErase v s
  | .secBankWrite v => Sys2Proof.Machine.execSecBankWrite v s
  | .secBankWriteDone => Sys2Proof.Machine.execSecBankWriteDone s
  | .secRollWrite v who => Sys2Proof.Machine.execSecRollWrite v s who
  | .secSvrel who v => Sys2Proof.Machine.execSecSvrel who v s
  | .secOpenChreq random => Sys2Proof.Machine.execSecOpenChreq random s
  | .challengeExpiry => Sys2Proof.Machine.execChallengeExpiry s
  | .secOpenGo => Sys2Proof.Machine.execSecOpenGo s
  | .openingVerified => Sys2Proof.Machine.execOpeningVerified s
  | .openEntered => Sys2Proof.Machine.execOpenEntered s
  | .jtagExtest => Sys2Proof.Machine.execJtagExtest s
  | .jtagSamplePreload pins load => Sys2Proof.Machine.execJtagSamplePreload pins s load
  | .jtagIdcode => Sys2Proof.Machine.execJtagIdcode s
  | .jtagBypass => Sys2Proof.Machine.execJtagBypass s
  | .dbgRead addr early => Sys2Proof.Machine.execDbgRead addr s early
  | .dbgWrite addr data early => Sys2Proof.Machine.execDbgWrite addr data s early
  | .dbgAttach early => Sys2Proof.Machine.execDbgAttach s early
  | .dbgDetach early => Sys2Proof.Machine.execDbgDetach s early
  | .dbgHalt tgt addr early => Sys2Proof.Machine.execDbgHalt tgt addr s early
  | .dbgResume tgt addr early => Sys2Proof.Machine.execDbgResume tgt addr s early
  | .dbgStep tgt addr early => Sys2Proof.Machine.execDbgStep tgt addr s early
  | .dbgStatus early => Sys2Proof.Machine.execDbgStatus s early
  | .dbgReset data early => Sys2Proof.Machine.execDbgReset data s early
  | .dbgReadChallenge addr early => Sys2Proof.Machine.execDbgReadChallenge addr s early
  | .dbgWriteResponse addr data random early => Sys2Proof.Machine.execDbgWriteResponse addr data random s early
  | .dbgOpError op early => Sys2Proof.Machine.execDbgOpError op s early
  | .cbRecordWrite => Sys2Proof.Machine.execCbRecordWrite s
  | .cbRepeatRewrite => Sys2Proof.Machine.execCbRepeatRewrite s
  | .cbOperatingSecond => Sys2Proof.Machine.execCbOperatingSecond s
  | .cbReadWrite who v => Sys2Proof.Machine.execCbReadWrite who v s
  | .cbReadReady who => Sys2Proof.Machine.execCbReadReady who s
  | .cbClearGo who v => Sys2Proof.Machine.execCbClearGo who v s
  | .cbClearVerified => Sys2Proof.Machine.execCbClearVerified s
  | .cbClearDone => Sys2Proof.Machine.execCbClearDone s
  | .pmuFixlRead who n => Sys2Proof.Machine.execPmuFixlRead who n s
  | .pmuCounterOverflow row idx c => Sys2Proof.Machine.execPmuCounterOverflow row idx c s
  | .pmuTagEnWrite k v => Sys2Proof.Machine.execPmuTagEnWrite k v s
  | .pmuTagRecord k rec => Sys2Proof.Machine.execPmuTagRecord k rec s
  | .pmuDctlEnable v => Sys2Proof.Machine.execPmuDctlEnable v s
  | .pmuDumpTrigger => Sys2Proof.Machine.execPmuDumpTrigger s
  | .pmuDumpWriteDone => Sys2Proof.Machine.execPmuDumpWriteDone s
  | .registerWrite who addr v => Sys2Proof.Machine.execRegisterWrite who addr v s
  | .lowFrequencyEdge => Sys2Proof.Machine.execLowFrequencyEdge s
  | .stoInputRelease pin => Sys2Proof.Machine.execStoInputRelease pin s
  | .pcieReadRequest bar1 off len => Sys2Proof.Machine.execPcieReadRequest bar1 off len s
  | .pcieWriteRequest bar1 off bytes ep => Sys2Proof.Machine.execPcieWriteRequest bar1 off bytes ep s
  | .pcieLinkUp => Sys2Proof.Machine.execPcieLinkUp s
  | .tapReset => Sys2Proof.Machine.execTapReset s
  | .resetBoundExceeded f => Sys2Proof.Machine.execResetBoundExceeded f s

end Sys2Proof.Machine
end

