-- ==== Sys2Proof/Machine/Tick.lean ====
section
/-! DEFINITION. One tick of the timebase, taken when no command waits (log entry 12): TB_NOW, the fixed counters, the trio
counters and the general timers count (R36, R47, R57–R59, R357), the TRIP pins are sampled (R112), and the clock groups
sample their bits (R87, R88). What happens at a count is a command of its own; until it comes, a counter holds its last
count. -/

namespace Sys2Proof.Machine

/-- Count and direction of a trio `e` ticks into its period (R59). -/
def countAt (s : State) (t e : Nat) : Nat × Bool :=
  let u := e / 2 ^ trioK s t
  let per := trioPer s t
  if upDown s t && decide (per ≤ u) then (2 * per - u, true) else (u, false)

/-- The counter of a running trio advances by one tick, up to the last of its period (R57–R60); the next tick is that of
the period boundary, which PERIOD_BOUNDARY performs. A count at or above the period is held (R60, R72). -/
def tickTrio (s : State) (t : Nat) : State :=
  let x := s.trio t
  if !s.counts t || boundaryTicks s t ≤ x.elapsed then s
  else
    let e := x.elapsed + 1
    let c := countAt s t (Nat.min e (periodFine s t / 64 - 1))
    let s := s.setTrio t { x with elapsed := e, phase := (x.phase + 1) % 2 ^ trioK s t }
    if x.extra = 0 then setCount s t c.1 c.2 else s

/-- A general timer that counts advances its prescaler, and at a count unit its counter; with the counter at or above its period
the wrap is then due (R47, R48), which GT_WRAP performs. -/
def tickGt (s : State) (t : Nat) : State :=
  let x := s.timer t
  if !gtCounting s t then s
  else if x.phase + 1 < 2 ^ s.rdF .gtCtl t 0 5 2 then s.setTimer t { x with phase := x.phase + 1 }
  else if gtCnt s t < gtPer s t then gtSetCnt (s.setTimer t { x with phase := 0 }) t (gtCnt s t + 1)
  else s.setTimer t { x with phase := 0, wrapDue := true }

/-- The fixed counter of a supervisor counts a tick (R357). -/
def tickFix (s : State) (n : Nat) : State := if fixRuns s n then s.setFix n (s.fix n + 1) else s

/-- One tick of the locked loop (R36). While low-frequency time still runs nothing counts it but the speed monitor (R34, R40,
R42). -/
def tick (s : State) : State :=
  if !s.bit .tbStat 0 0 0 || s.dark then s
  else
    let s : State := { s with tb := { s.tb with locked := s.tb.locked + 1 } }
    if s.bit .tbStat 0 0 1 then s
    else
    let s := ((({ s with now := s.now + 1, tb := { s.tb with ticks := s.tb.ticks + 1 } }).forN 16 tripSample).forN 24 sdBit).forN 4 tickFix
    tickCam ((s.forN 64 tickTrio).forN 16 tickGt)

end Sys2Proof.Machine
end

