-- ==== Sys2Proof/WellFormed.lean ====
section
/-! DEFINITION. Which commands are well formed: the operand ranges that the types of `Instr` do not fix. Execution is
total and asks for none of this; statements that need it name it. -/

namespace Sys2Proof

/-- A control engine. -/
def Core.isCe : Core → Bool
  | .ce _ => true
  | .sv _ => false

/-- Available on this core (R158), and with two registers where a post-modify load needs them (R166). -/
def Instr.available : Instr → Bool
  | .yield c | .commit c | .check c => c.isCe
  | .svc c _ | .wfi c | .fence c | .bcpy c .. | .bset c .. | .bcrc c .. | .cload c .. => !c.isCe
  | .lhp _ d a _ | .lwp _ d a _ => d != a
  | _ => true

/-- The core of an instruction command, a word command included. -/
def Instr.core? : Instr → Option Core
  | .add c .. | .sub c .. | .addo c .. | .subo c .. | .and c .. | .or c .. | .xor c .. | .sll c .. | .srl c ..
  | .sra c .. | .mul c .. | .mulh c .. | .mulhu c .. | .ceq c .. | .clt c .. | .cltu c .. | .addi c ..
  | .andi c .. | .ori c .. | .xori c .. | .lui c .. | .ceqi c .. | .clti c .. | .cltui c .. | .lb c ..
  | .lbu c .. | .lh c .. | .lhu c .. | .lw c .. | .sb c .. | .sh c .. | .sw c .. | .lhp c .. | .lwp c ..
  | .shp c .. | .swp c .. | .bez c .. | .bnz c .. | .jmp c .. | .call c .. | .slli c .. | .srli c ..
  | .srai c .. | .min c .. | .max c .. | .clz c .. | .sel c .. | .adds c .. | .subs c .. | .jr c ..
  | .jalr c .. | .swap c .. | .cas c .. | .fadd c .. | .fsub c .. | .fmul c .. | .fma c .. | .fmin c ..
  | .fmax c .. | .fabs c .. | .fneg c .. | .fceq c .. | .fclt c .. | .fcle c .. | .fitof c .. | .fftoi c ..
  | .ftoq c .. | .qtof c .. | .qmul c .. | .qmuls c .. | .qmac c .. | .qmacs c .. | .hmul c .. | .hmuls c ..
  | .hmac c .. | .hmacs c .. | .div c .. | .divu c .. | .sqrt c .. | .fdiv c .. | .fsqrt c .. | .recip c ..
  | .sin c .. | .cos c .. | .atan2 c .. | .yield c | .commit c | .sync c | .check c | .eret c | .mtcr c ..
  | .mfcr c .. | .svc c .. | .wfi c | .fence c | .bcpy c .. | .bset c .. | .bcrc c .. | .cload c ..
  | .reservedOpcode c .. | .illegalOpcode c .. => some c
  | _ => none

/-- A word operand that must be of the judged kind (R156, R157). -/
def Instr.wordFits : Instr → Bool
  | .reservedOpcode c w => Machine.judgeWord c w == some (.reservedOpcode c w)
  | _ => true

/-- A measured voltage fits the 16-bit field that records it (R315, R316). -/
def Instr.voltageFits : Instr → Bool
  | .supplyWarningStart _ mv | .supplySample _ mv | .pllLock mv | .speedWindowEnd _ _ mv | .vddCoreFall20mv _ mv =>
    decide (mv < 2 ^ 16)
  | _ => true

/-- Frame and record lengths (R281, R284, R286, R296, R364), and operation codes of the row (R339). -/
def Instr.lengthFits : Instr → Bool
  | .cycFrameReceive _ ws _ | .cycFrameReturn ws _ _ => decide (ws.length ≤ 13 + 16 * 255)
  | .pmuTagRecord _ ws => ws.length == 5
  | .mbox _ _ ws => decide (ws.length ≤ 14)
  | .cbclear _ _ ws => ws.length == 32
  | .read _ _ _ len => decide (len < 2 ^ 16)
  | .write _ _ _ bs => decide (bs.length < 2 ^ 16)
  | .dsc _ _ _ _ bs => decide (bs.length < 2 ^ 16)
  | .dbgOpError _ op => op == 0 || decide (12 ≤ op.toNat)
  | _ => true

/-- A set of functions lists none twice (R324). -/
def Instr.setFits : Instr → Bool
  | .heartbeatProbe fs => decide fs.Nodup
  | _ => true

/-- All checks. -/
def Instr.wellFormed (i : Instr) : Bool :=
  i.available && i.wordFits && i.voltageFits && i.lengthFits && i.setFits

end Sys2Proof
end

