-- ==== Sys2Proof/Safety.lean ====
section
/-! DEFINITION. The terms claims use: states whose tables are in canonical form, and instruction commands that agree
with what the core's own memory holds. -/

namespace Sys2Proof.Safety

open Sys2Proof.Machine

/-- The memories in canonical form: data bytes, deviations of check bits, valid bits (R234–R237). -/
def memCanonical (s : State) : Bool :=
  Memory.wf s.mem && Tbl.wf (fun _ => (0 : BitVec 5)) 0 s.chk && Tbl.wf (fun _ => (0 : BitVec 3)) 0 s.vld

/-- The registers in canonical form. -/
def regsCanonical (s : State) : Bool := Tbl.wf regDef 0 s.regs

/-- The registers whose writes follow the access codes of R9 alone; a write to any other has a rule of its own besides. -/
def byCodes (r : Reg) : Bool :=
  [.sdChi, .sdClo, .sdOfs, .sdFs, .sdData, .sdCdata, .sdStat, .sdGstat, .gcStat, .epIdx, .epLatp, .epStat, .tbNowl, .tbNowh,
    .tbStat, .tbLfcnt, .tbTrim, .tbWakel, .gtLink, .gtStat, .gtCcfg, .gtCapl, .gtCaph, .irqClaim, .irqThr, .irqSflt,
    .irqStack, .stAddr, .stCycno, .stStat, .stDsc, .stLink, .stMbi, .fmRstat, .fmPstat, .fmFcfg, .fmFlt, .fmWdt, .fmInrst,
    .fmSup, .fmSstat, .fmSdur, .fmStat, .spmRate, .spmBound].contains r ||
  [.cbStat, .cbHead, .cbCcnt, .cbRdata, .cbSer, .ckStat, .ckEcnt, .ckUeaddr, .ckSwcyc, .ckSwang, .ckSwstat, .ckSwtl, .ckSwth,
    .rackRate, .rackPos, .rackCnt, .rackUeaddr, .rackLapt, .ckDirh, .ckDirnl, .ckDirnh, .ckDirseq, .mpCtl, .mpStat, .mpHpc,
    .mpNext, .memStat, .memEcnt, .memUeaddr, .memLapt, .memPos, .memCeaddr, .adRes, .muCtl, .muLstat, .rwStat, .rwCam,
    .rwMiss, .rwDis, .hwStat].contains r

/-- The word at the pc of core `n`, least significant byte first (R7, R135, R197). -/
def wordAtPc (s : State) (n : Nat) : Word :=
  let a := if n < 512 then memBase (2 * n) + (s.core n).pc else (s.core n).pc
  bytesWord (s.bytesAt a 4)

/-- An instruction command is the instruction its core would fetch; any other command passes. -/
def agrees (s : State) (i : Instr) : Bool :=
  match i.core?, i with
  | some c, .reservedOpcode _ w | some c, .illegalOpcode _ w => wordAtPc s (coreNum c) == w
  | some c, i => soetteWord i == some (wordAtPc s (coreNum c))
  | none, _ => true

/-- The device runs: the tick comes from the locked loop, the power state is Run, nothing is in reset. -/
def up (s : State) : Bool := s.timeOk && s.fm.reset == .none && s.fm.power == .run && s.fm.inrst.isEmpty

/-- The four bytes at supervisor-view address `m` can be fetched now: outside the protected memories, or clean in one that
does not clear its valid bits (R236–R238). -/
def cleanWord (s : State) (m : Nat) : Bool :=
  (memOf m).isNone || (!clring s m && (List.range 4).all (fun i => s.classAt (m + i) == .clean))

/-- Core `c` is at an instruction: it is Active, not halted, nothing of an earlier instruction but a side unit holds it, and no
exception or interrupt is due. -/
def atIssue (s : State) (c : Nat) : Bool :=
  let k := s.core c
  up s && k.mode == .active && !k.halted && k.far.isNone && k.long.isNone && !k.yielding && k.wait == 0 &&
    (decide (c < 512) || (dueEntry s (c - 512)).isNone)

/-- The word at the pc may be fetched and reads clean. -/
def fetchesClean (s : State) (c : Nat) : Bool :=
  let k := s.core c
  k.pc % 4 == 0 && judge1 s c .fetch k.pc 4 == 0 && cleanWord s (if c < 512 then memBase (2 * c) + k.pc else k.pc)

/-- Core `c` issues the instruction at its pc unless it waits for a side unit. -/
def issuesBeside (s : State) (c : Nat) : Bool := atIssue s c && fetchesClean s c

/-- Core `c` issues the instruction at its pc in this state: its side units are idle. -/
def issues (s : State) (c : Nat) : Bool := issuesBeside s c && (s.core c).divU.isNone && (s.core c).corU.isNone

/-- AEX.PRECISE of the core is 0, so an arithmetic condition sets its bit and traps nothing (R148, R150). -/
def imprecise (s : State) (c : Nat) : Bool := !precise s c

/-- Every register outside the PMU, but those at the keys `xs`, holds the word it held. -/
def regsKept (s t : State) (xs : List Nat) : Prop :=
  ∀ a, ¬ (0x6A000000 ≤ a ∧ a < 0x6B000000) → a ∉ xs → tget regDef t.regs a = tget regDef s.regs a

/-- The key of the active copy of control register `j` of core `n`. -/
def crKey (n j : Nat) : Nat := (crReg n).addr (crIdx n) j

/-- Nothing but core `n`, the counting of the PMU and the registers at `xs` differs: every other core, every byte of every
memory and everything behind the registers of every other block is as it was. -/
def onlyCore (s t : State) (n : Nat) (xs : List Nat) : Prop :=
  { t with cores := s.cores, regs := s.regs, pmu := s.pmu } = s ∧ (∀ m, m ≠ n → t.core m = s.core m) ∧ regsKept s t xs

/-- The pc after an instruction that is no branch: the next word, or after a delay slot where its branch said (R132). -/
def nextPc (k : CoreS) : Nat := k.slot.getD ((k.pc + 4) % 2 ^ 32)

/-- Core `l` is core `k` one instruction further, register results and what an imprecise fault would undo aside. -/
def stepped (k l : CoreS) : Prop :=
  { l with base := k.base, infl := k.infl, undo := k.undo } =
    { k with seq := k.seq + 1, pc := nextPc k, pcs := (k.pc :: k.pcs).take 3, slot := none, held := false, waited := 0,
             stepOne := false, atM := false, skid := none }

/-- The general registers that the next instruction of core `n` reads are those that it would have read without the last
one, but `rd`, which holds `v`; G0 is 0 (R129, R130). -/
def regsSet (s t : State) (n rd : Nat) (v : Tagged) : Prop :=
  ∀ r, reg t n r = if r = 0 then (0, false) else if r = rd then v else seen { s.core n with seq := (s.core n).seq + 1 } r

/-- As `regsSet`, with a result of distance `d`: with more than 1 it is in flight, and the register still reads as
before (R130, R131). -/
def delivers (s t : State) (n rd d : Nat) (v : Tagged) : Prop :=
  (d = 1 → regsSet s t n rd v) ∧
    (d ≠ 1 → regsSet s t n 0 (0, false) ∧
      (rd ≠ 0 → (t.core n).infl.head? =
        some { idx := (s.core n).seq, d := d, reg := rd, val := v.1, poison := v.2 }))

/-- An arithmetic instruction of core `n` has completed: its result, the AEX bits it sets unless a source was poisoned, the
core one instruction further, where PRECISE holds the next instruction two steps for a result of distance 3, and nothing else
(R129–R132, R146, R148, R150). -/
def arith (s t : State) (n rd d : Nat) (v : Word) (aex : Nat) (poison : Bool) : Prop :=
  delivers s t n rd d (v, poison) ∧ crAct t n 1 = crAct s n 1 ||| (if poison then 0 else wd aex) ∧
    stepped { s.core n with wait := if d = 3 ∧ precise s n = true then 2 else (s.core n).wait } (t.core n) ∧
    onlyCore s t n [crKey n 1]

/-- A core after a branch at `k.pc` that goes on at `x` behind its delay slot (R132). -/
def branched (k l : CoreS) (x : Nat) : Prop :=
  { l with base := k.base, infl := k.infl, undo := k.undo } =
    { k with seq := k.seq + 1, pc := (k.pc + 4) % 2 ^ 32, pcs := (k.pc :: k.pcs).take 3, slot := some x, held := false,
             waited := 0, stepOne := false, atM := false, skid := none }

/-- Nothing of earlier instructions of core `c` is under way: no result in flight, no pending control register, an empty
store buffer. -/
def settled (s : State) (c : Nat) : Bool :=
  (s.core c).infl.isEmpty && (s.core c).sb.isEmpty && (List.range 64).all (fun j => (crPending s c j).isNone)

/-- The memories of supervisor SRAM serve accesses and no test flip is armed in them (R238, R245). -/
def sramQuiet (s : State) : Bool :=
  [1088, 1089, 1090, 1091].all (fun m => !s.bit .memStat m 0 7 && s.rdF .memFlip m 0 12 0 == 0)

/-- Supervisor `n` has entered the handler of `code` with its frame at `sp` (R204, R206): the saved registers, the level and
the masks of ST, the pc at the vector, G31 past the frame, the frame in memory, and no other byte of memory changed. -/
def entered (s t : State) (n code epc : Nat) (eaddr : Word) (sp : Nat) : Prop :=
  let c := 512 + n
  let k := s.core c
  let st := crAct s c 2
  let est := setBit st 5 k.slot.isSome
  (t.core c).pc = (crAct s c 3 + wd (0x40 * code)).toNat ∧ (t.core c).mode = .active ∧ (t.core c).slot = none ∧
    crAct t c 4 = wd epc ∧ crAct t c 5 = est ∧ crAct t c 6 = wd code ∧ crAct t c 7 = eaddr ∧
    crAct t c 11 = wd (k.slot.getD 0) ∧
    (∀ b < 32, bitOf (crAct t c 2) b = if b = 0 then true else if b = 1 ∨ b = 3 ∨ b = 5 then false
      else if b = 6 ∧ code = 12 ∨ b = 4 ∧ code = 11 then true else bitOf st b) ∧
    (reg t c 31).1 = wd (sp + 64) ∧ (∀ r < 31, reg t c r = reg s c r) ∧
    (∀ i < 16, loadValue (t.bytesAt (sp + 4 * i) 4) false =
      ([(wd epc, false), (est, false), (wd code, false), (eaddr, false), (wd (k.slot.getD 0), false)] ++
        (List.range 10).map (fun r => reg s c (r + 1)) ++ [reg s c 31]).getD i (0, false)) ∧
    (∀ x, x < sp ∨ sp + 64 ≤ x → t.byteAt x = s.byteAt x) ∧ ∀ m, m ≠ c → t.core m = s.core m

/-- The number that a binary32 word stands for, an infinity as 2^128 (IEEE 754; R163). -/
def numOf (w : Word) : ℚ :=
  (if bitOf w 31 then -1 else 1) *
    (if fld w 30 23 = 0 then (fld w 22 0 : ℚ) / 2 ^ 149 else ((2 ^ 23 + fld w 22 0 : ℕ) : ℚ) * 2 ^ ((fld w 30 23 : ℤ) - 150))

/-- A NaN, a signalling NaN, an infinity, and a finite number. -/
def isNanWord (w : Word) : Bool := fld w 30 23 == 255 && fld w 22 0 != 0
def signals (w : Word) : Bool := isNanWord w && !bitOf w 22
def isInfWord (w : Word) : Bool := fld w 30 23 == 255 && fld w 22 0 == 0
def finiteWord (w : Word) : Bool := fld w 30 23 != 255

/-- `w` is `v` rounded to nearest with ties to even, in full range: ±∞ from half a step above the largest finite value on, and
subnormals and zeros of the sign of `v` (R163). -/
def nearest (v : ℝ) (w : Word) : Prop :=
  isNanWord w = false ∧ (v < 0 → bitOf w 31 = true) ∧ (0 < v → bitOf w 31 = false) ∧
    ∀ u : Word, isNanWord u = false → |v - (numOf w : ℝ)| < |v - (numOf u : ℝ)| ∨
      (|v - (numOf w : ℝ)| = |v - (numOf u : ℝ)| ∧ (numOf u = numOf w ∨ bitOf w 0 = false))

/-- An arithmetic instruction of core `n` that would set these AEX bits, with a poisoned source or not, does not trap: QSAT never does,
nor does anything with PRECISE at 0 (R148, R150). -/
def noTrap (s : State) (n aex : Nat) (poison : Bool) : Bool := imprecise s n || poison || aex &&& 7 == 0

/-- What one tick makes of trio `k` (R57–R60): a running counter advances, in its up or up-down course, to the last count of its
period, and waits there for the boundary; a count that is held until the boundary keeps what LN_CNT shows. -/
def trioTicked (s t : State) (k : Nat) : Prop :=
  let x := s.trio k
  let d := 2 ^ trioK s k
  let len := trioPer s k * (if upDown s k then 2 else 1) * d
  let u := Nat.min (x.elapsed + 1) (len - 1) / d
  (s.counts k = true → x.elapsed < len + x.extra →
    t.trio k = { x with elapsed := x.elapsed + 1, phase := (x.phase + 1) % d } ∧
    t.rd .lnCnt (3 * k) 0 = (if x.extra ≠ 0 then s.rd .lnCnt (3 * k) 0
      else if upDown s k = true ∧ trioPer s k ≤ u then wd (2 * trioPer s k - u + 2 ^ 24) else wd u)) ∧
  (s.counts k = false ∨ len + x.extra ≤ x.elapsed → t.trio k = x ∧ t.rd .lnCnt (3 * k) 0 = s.rd .lnCnt (3 * k) 0)

/-- What one tick makes of general timer `n` (R47, R48): the prescaler counts, at its end the counter, and at the period the
wrap is due. -/
def timerTicked (s t : State) (n : Nat) : Prop :=
  let x := s.timer n
  let last := x.phase + 1 = 2 ^ s.rdF .gtCtl n 0 5 2 ∨ 2 ^ s.rdF .gtCtl n 0 5 2 ≤ x.phase
  (gtCounting s n = true → last → gtCnt s n < gtPer s n →
    t.rd .gtCnt n 0 = s.rd .gtCnt n 0 + 1 ∧ t.timer n = { x with phase := 0, wrapDue := false } ∧
      ∀ c < 4, t.chan n c = { s.chan n c with fired := false }) ∧
  (gtCounting s n = true → last → gtPer s n ≤ gtCnt s n →
    t.rd .gtCnt n 0 = s.rd .gtCnt n 0 ∧ t.timer n = { x with phase := 0, wrapDue := true } ∧ ∀ c < 4, t.chan n c = s.chan n c) ∧
  (gtCounting s n = true → ¬ last →
    t.rd .gtCnt n 0 = s.rd .gtCnt n 0 ∧ t.timer n = { x with phase := x.phase + 1 } ∧ ∀ c < 4, t.chan n c = s.chan n c) ∧
  (gtCounting s n = false → t.rd .gtCnt n 0 = s.rd .gtCnt n 0 ∧ t.timer n = x ∧ ∀ c < 4, t.chan n c = s.chan n c)

/-- Group `g` samples one bit in the tick that makes `t` of `s`: of time `x` in fine steps, the first of an input that fills
(R87, R94). -/
def bitTaken (s t : State) (g : Nat) (x : Int) : Prop :=
  (t.sdg g).bits = (s.sdg g).bits + 1 ∧ ∀ j < 8, t.sd (8 * g + j) =
    if s.bit .sdFlt (8 * g + j) 0 0 = true ∧ (s.sd (8 * g + j)).first = none then { s.sd (8 * g + j) with first := some x }
    else s.sd (8 * g + j)

/-- What one tick makes of clock group `g` (R87, R88): an output clock samples at its instant, `DLY` ticks after its edge; an
input clock samples the bit of its last known edge; without either nothing changes. -/
def groupTicked (s t : State) (g : Nat) : Prop :=
  let on := s.bit .sdClk g 0 0 = true ∧ s.inRst 64 = false
  let now := (s.now + 1).toNat
  let out := s.bit .sdClk g 0 1 = false ∧ now % sdDiv s g = sampleOfs s g
  (on → out → bitTaken s t g (64 * now) ∧ t.sdg g = { s.sdg g with bits := (s.sdg g).bits + 1 }) ∧
  (∀ d, on → s.bit .sdClk g 0 1 = true → (s.sdg g).due = some d → d ≤ s.tb.ticks + 1 →
    bitTaken s t g (64 * ((now : Int) - (s.tb.ticks + 1 : Nat) + d - (s.rdF .sdClk g 0 13 10 + 3 : Nat))) ∧
      (t.sdg g).due = none) ∧
  (¬ on ∨ s.bit .sdClk g 0 1 = false ∧ ¬ out ∨ s.bit .sdClk g 0 1 = true ∧ (∀ d ∈ (s.sdg g).due, s.tb.ticks + 1 < d) →
    t.sdg g = s.sdg g ∧ ∀ j < 8, t.sd (8 * g + j) = s.sd (8 * g + j))

/-- Pin TRIP`j` is filtered and inactive, so that a tick deasserts its source (R112). -/
def tripFalls (s : State) (j : Nat) : Bool := !tripActive s j && s.rdF .muTripcfg j 0 2 1 != 0

/-- Row `k` waits for cam reads, whose ticks counter `c` counts if it selects them (R361). -/
def countsCam (s : State) (k c : Nat) : Bool :=
  anyN 4 (fun x => (s.slot k x).acts.any (camWaits s k)) && s.bit .pmuRctl k 0 c && evtSel (s.rd .pmuRevt k c) 1 3

/-- What a start of trio `k` from LN_CNT does to its counter, in the style `ud` (R59–R61, R71): a start at 0 is a period boundary,
at which a committed period becomes active; from another count the period stays, an up-down count at or above it counts down from it,
and the event prescalers restart. -/
def counterStarts (s t : State) (k : Nat) (ud : Bool) : Prop :=
  let c := s.rdF .lnCnt (3 * k) 0 23 0
  let per := trioPer s k
  (t.trio k).armed = false ∧ (t.trio k).waits = false ∧ (t.trio k).phase = 0 ∧
    (c = 0 → (t.trio k).per = (s.trio k).perPend.getD (s.trio k).per ∧ (t.trio k).perPend = none ∧ t.rd .lnCnt (3 * k) 0 = 0) ∧
    (c ≠ 0 → (t.trio k).per = (s.trio k).per ∧ (t.trio k).perPend = (s.trio k).perPend ∧
      t.rdF .lnCnt (3 * k) 0 23 0 = (if ud = true ∧ per < c then per else c) ∧
      t.bit .lnCnt (3 * k) 0 24 = (ud && (decide (per ≤ c) || s.bit .lnCnt (3 * k) 0 24))) ∧
    ∀ j < 3, (t.lane (3 * k + j)).evCnt = 0

/-- A fault of core `c` can be taken without delay: an engine has no stores to drain, a supervisor nothing under way and room for
the frame (R152, R206, R210). -/
abbrev faultable (s : State) (c : Nat) : Prop :=
  (c < 512 → (s.core c).sb = []) ∧
    (512 ≤ c → settled s c = true ∧ sramQuiet s = true ∧ stackOk s (c - 512) (reg s c 31).1.toNat = true)

/-- A precise fault of core `c`: an engine is Stopped with the cause, the pc and the address, and no register or memory of a program
has changed; a supervisor has entered the handler of the code with its address (R152, R204). -/
def faulted (s t : State) (c cause code : Nat) (ceAddr svAddr : Word) : Prop :=
  let k := s.core c
  (c < 512 → (t.core c).mode = .stopped ∧ fld (t.rd .ceCr c 6) 5 0 = 1 + 2 * cause + 32 ∧ t.rd .ceCr c 8 = ceAddr ∧
    t.rd .ceCr c 7 = wd (k.pc % 0x4000) ∧ (k.infl = [] → ∀ r, reg t c r = reg s c r) ∧
    (slotOf s c = none → t.mem = s.mem)) ∧
  (512 ≤ c → entered s t (c - 512) code k.pc svAddr (reg s c 31).1.toNat)

/-- The instruction at the pc of core `c` waits: nothing of it has happened (R134). -/
def waits (s t : State) (c : Nat) : Prop :=
  let k := s.core c
  let l := t.core c
  l.held = true ∧ l.pc = k.pc ∧ l.seq = k.seq ∧ l.sb = k.sb ∧ l.divU = k.divU ∧ l.corU = k.corU ∧
    (∀ r, reg t c r = reg s c r) ∧ onlyCore s t c []

/-- What a read of `k` bytes at `a`, in one 8-byte word of a protected memory, leaves in the error counts, addresses and flags, and in
the repair slot (R239, R240). -/
def wordRead (s t : State) (a k : Nat) : Prop :=
  let w := a / 8 * 8
  let has (x : ByteClass) : Bool := (List.range k).any (fun i => s.classAt (a + i) == x)
  let ce := has .corrected
  let ue := has .uncorrectable
  ∀ m, memOf a = some m →
    t.rdF .memEcnt m 0 15 0 = (if ce then Nat.min (s.rdF .memEcnt m 0 15 0 + 1) 65535 else s.rdF .memEcnt m 0 15 0) ∧
    t.rdF .memEcnt m 0 23 16 = (if ue then Nat.min (s.rdF .memEcnt m 0 23 16 + 1) 255 else s.rdF .memEcnt m 0 23 16) ∧
    t.rdF .memEcnt m 0 31 24 = (if has .poison then Nat.min (s.rdF .memEcnt m 0 31 24 + 1) 255 else s.rdF .memEcnt m 0 31 24) ∧
    t.rd .memCeaddr m 0 = (if ce then wd w else s.rd .memCeaddr m 0) ∧
    t.rd .memUeaddr m 0 = (if ue && !s.bit .memStat m 0 8 then wd w else s.rd .memUeaddr m 0) ∧
    t.bit .memStat m 0 0 = (s.bit .memStat m 0 0 || ce) ∧ t.bit .memStat m 0 1 = (s.bit .memStat m 0 1 || ue) ∧
    t.bit .memStat m 0 2 = (s.bit .memStat m 0 2 || has .poison) ∧ t.bit .memStat m 0 8 = (s.bit .memStat m 0 8 || ue) ∧
    (t.memS m).repair = (if ce || ue then some ((s.memS m).repair.getD w) else (s.memS m).repair) ∧
    t.bit .fmFlt 0 0 2 = (s.bit .fmFlt 0 0 2 || ue) ∧ (ue = false → t.book = s.book) ∧
    ∀ x, t.dataAt x = s.dataAt x ∧ t.devAt x = s.devAt x

/-- How many of the events `evs` (class, event, first byte) counter `c` of supervisor `n` counts, at privileged level or not (R361,
R362). -/
def svTally (s : State) (n c : Nat) (priv : Bool) (evs : List (Nat × Nat × Nat)) : Nat :=
  let w := s.rd .pmuEvt n c
  if s.bit .pmuCtl n 0 c then
    (evs.filter (fun e => fld w 5 4 == e.1 && (bitOf w 6 || fld w 3 0 == e.2.1) && !(fld w 8 7 == 1 && !priv) && !(fld w 8 7 == 2 && priv) &&
      !(e.1 == 1 && bitOf w 9 &&
        (decide (e.2.2 < (s.rd .pmuArl n 0).toNat) || decide ((s.rd .pmuArh n 0).toNat < e.2.2))))).length
  else 0

/-- The counters of supervisor `n` have counted the events `evs`, and one that wrapped has its flag (R357, R361–R363). -/
def svTallied (s t : State) (n : Nat) (evs : List (Nat × Nat × Nat)) : Prop :=
  ∀ c < 8, let x := svTally s n c (svPriv s n) evs
    t.rd .pmuCnt n c = s.rd .pmuCnt n c + wd x ∧
      t.bit .pmuOvf n 0 c = (s.bit .pmuOvf n 0 c || decide (2 ^ 32 ≤ (s.rd .pmuCnt n c).toNat + x))

/-- The counters of row `k` have counted the events `evs` (class, event, the engine that REQ filters by), and one that wrapped has its
flag (R357, R361, R362). -/
def rowTallied (s t : State) (k : Nat) (evs : List (Nat × Nat × Option Nat)) : Prop :=
  ∀ c < 4, let w := s.rd .pmuRevt k c
    let x := if s.bit .pmuRctl k 0 c then
        (evs.filter (fun e => fld w 5 4 == e.1 && (bitOf w 6 || fld w 3 0 == e.2.1) &&
          (match e.2.2 with | some g => bitOf w (8 + g % 8) | none => true))).length
      else 0
    t.rd .pmuRcnt k c = s.rd .pmuRcnt k c + wd x ∧
      t.bit .pmuRctl k 0 (10 + c) = (s.bit .pmuRctl k 0 (10 + c) || decide (2 ^ 32 ≤ (s.rd .pmuRcnt k c).toNat + x))

/-- The host's command SEQ `seq` on a path is new to this device, which answers it (R296). -/
def asksAnew (s : State) (path : Path) (seq : BitVec 16) : Bool :=
  !s.dark && !((storedResp s path).valid && (storedResp s path).seq == seq)

/-- The path keeps this answer to SEQ `seq` (R296). -/
def answered (t : State) (path : Path) (seq : BitVec 16) (cmd status len : Nat) (ws : List Word) : Prop :=
  storedResp t path = { seq := seq, valid := true, cmd := cmd, status := status, len := len, words := ws }

/-- The fields that a descriptor governs, once the entries `es` are applied (R298, R299): each holds what the last entry that
names its item gives it, and its value after reset where no entry does. -/
def governed (t : State) (es : List DEntry) : Prop :=
  let holds (r : Reg) (i hi lo ty top bot : Nat) : Prop :=
    t.rdF r i 0 hi lo =
      (((es.filter (fun e => e.ty == ty && entryKey e == i)).getLast?).map (fun e => fld e.w0 top bot)).getD
        (fld (r.rstAt i 0) hi lo)
  (∀ n < 192, holds .lnCtl n 3 1 1 12 10 ∧ holds .muSafe n 1 0 1 14 13) ∧ (∀ g < 24, holds .sdClk g 20 1 2 24 5) ∧
    (∀ n < 192, holds .sdFlt n 18 1 3 25 8 ∧
      t.rd .sdFs n 0 = (((es.filter (fun e => e.ty == 3 && entryKey e == n)).getLast?).map (·.w1)).getD (Reg.sdFs.rstAt n 0)) ∧
    (∀ p < 64, holds .epCfg p 2 1 4 7 6 ∧ holds .epCfg p 7 4 4 11 8 ∧ holds .epCfg p 3 3 4 12 12 ∧ holds .epCfg p 9 8 4 14 13 ∧
      holds .epSsi p 15 0 4 30 15 ∧ holds .rwTrios p 9 0 6 15 6)

end Sys2Proof.Safety
end

