-- ==== Sys2Proof/Certificates/Slice0/Obligations.lean ====
section
/-! DEFINITION. The statements about the model. -/

open Sys2Proof Sys2Proof.Machine Sys2Proof.Safety

/-! ### The step, reset, invariants, words -/

/-- The command at the front of the queue is performed on the state with the queue's rest (the model's queue, log entry 1). -/
def Obligations.front_command_runs : Prop :=
  ∀ (i : Instr) (rest : List Instr) (s : State), s.pending = i :: rest → step s = exec i { s with pending := rest }

/-- With no command waiting a step is one tick while the locked loop gives ticks, and nothing otherwise (the model's choice,
log entry 12). A tick counts TB_NOW, each running trio counter (R57–R60), each counting general timer (R47, R48), the fixed
PMU counters (R357) and the cam-wait counters (R361); it samples the TRIP pins (R112) and the bits of the clock groups (R87, R88,
R94); nothing else changes, but that an inactive sample of a filtered TRIP pin deasserts its source. A tick of the locked loop before
low-frequency time ends counts for the speed monitor alone (log entry 115). What falls on a count is a command of its own. -/
def Obligations.empty_queue_ticks : Prop :=
  ∀ s : State, s.pending = [] →
    (s.bit .tbStat 0 0 0 = false ∨ s.dark = true → step s = .next s) ∧
    (s.bit .tbStat 0 0 0 = true → s.bit .tbStat 0 0 1 = true → s.dark = false →
      step s = .next { s with tb := { s.tb with locked := s.tb.locked + 1 } }) ∧
    (s.timeOk = true → s.dark = false → ∃ t, step s = .next t ∧ t.now = s.now + 1 ∧
      t.tb = { s.tb with ticks := s.tb.ticks + 1, locked := s.tb.locked + 1 } ∧
      (∀ k < 64, trioTicked s t k) ∧ (∀ n < 16, timerTicked s t n) ∧ (∀ g < 24, groupTicked s t g) ∧
      (∀ n < 4, t.fix n = if fixRuns s n = true then s.fix n + 1 else s.fix n) ∧
      (∀ k < 64, ∀ c < 4, t.rd .pmuRcnt k c = (if countsCam s k c = true then s.rd .pmuRcnt k c + 1 else s.rd .pmuRcnt k c) ∧
        t.bit .pmuRctl k 0 (10 + c) = (s.bit .pmuRctl k 0 (10 + c) || countsCam s k c && s.rd .pmuRcnt k c == 0xFFFFFFFF)) ∧
      (∀ j < 16, tget (fun _ => 0) t.fm.tripOn j =
        if tripActive s j = true then Nat.min 40 (tget (fun _ => 0) s.fm.tripOn j + 1) else 0) ∧
      (∀ m, t.src m = (s.src m && !(decide (320 ≤ m) && decide (m < 336) && tripFalls s (m - 320)))) ∧
      ((∀ j < 16, tripFalls s j = true → s.src (320 + j) = false) → t.lanes = s.lanes ∧
        ∀ a, (∀ k < 64, a ≠ Reg.lnCnt.addr (3 * k) 0 ∧ a ≠ Reg.pmuRctl.addr k 0 ∧ ∀ c < 4, a ≠ Reg.pmuRcnt.addr k c) →
          (∀ n < 16, a ≠ Reg.gtCnt.addr n 0) → tget regDef t.regs a = tget regDef s.regs a) ∧
      { t.pmu with fix := s.pmu.fix } = s.pmu ∧ { t.fm with tripOn := s.fm.tripOn } = s.fm ∧
      { t with now := s.now, tb := s.tb, fm := s.fm, regs := s.regs, trios := s.trios, lanes := s.lanes, srcs := s.srcs,
               timers := s.timers, chans := s.chans, sds := s.sds, sdgs := s.sdgs, pmu := s.pmu } = s)

/-- After reset: TB_NOW is 0, SV0 runs at 0 at privileged level, SV1–SV3 wait for their release, engines are Idle, memory
and registers are canonical, no word is valid, and every register of the index but ST_ATTN reads its after-reset value (R11, R36, R144,
R215, R238, R334; the instant is log entry 15). The first contents of the security region, which SEC_ROLL, SEC_BOOT and
SEC_RESEAL show, are the model's choice (log entry 86). -/
def Obligations.reset_state : Prop :=
  State.reset.now = 0 ∧ (State.reset.core 512).mode = .active ∧ (State.reset.core 512).pc = 0 ∧
    State.reset.bit .svCr 0 2 0 = true ∧ (∀ n, 513 ≤ n → (State.reset.core n).mode = .unreleased) ∧
    (∀ n < 512, (State.reset.core n).mode = .idle) ∧ memCanonical State.reset = true ∧ regsCanonical State.reset = true ∧
    (∀ a, majority (State.reset.vldAt a) = false) ∧
    (∀ (r : Reg) (i j : Nat), r ≠ .ceCr → r ≠ .svCr → r ≠ .stAttn → i < r.info.ni → j < r.info.nj →
      State.reset.rd r i j = r.rstAt i j)

/-- The registers of the index have addresses of their own: the register found at an address is the one that has it (R390,
R391). -/
def Obligations.register_addresses_decode : Prop :=
  (∀ (r : Reg) (i j : Nat), r ≠ .ceCr → r ≠ .svCr → i < r.info.ni → j < r.info.nj → regAt (r.addr i j) = some (r, i, j)) ∧
    (∀ i j, i < 512 → j < 64 → regAt (Reg.ceCr.addr i j) = some (.ceCr, i, j))

/-- Every step keeps the memories canonical. -/
def Obligations.memory_stays_canonical : Prop :=
  ∀ s t : State, memCanonical s = true → step s = .next t → memCanonical t = true

/-- Every step keeps the register table canonical: each address listed once, in rising order, and none at the value that
an unlisted register reads as. -/
def Obligations.registers_stay_canonical : Prop :=
  ∀ s t : State, regsCanonical s = true → step s = .next t → regsCanonical t = true

/-- The word of an instruction that is available on its core is judged to be that instruction, with every operand at every
value; words written out from the encoding tables; and words that are illegal on their core: an instruction of the other kind of core,
and a post-modify load whose registers are one (R154–R158, R166). -/
def Obligations.soette_words_decode : Prop :=
  (∀ (i : Instr) (c : Core) (w : Word), i.core? = some c → i.available = true → i.wordFits = true → soetteWord i = some w →
    judgeWord c w = some i) ∧
  (judgeWord (.ce 0) 0b00000100001000100001100000000000 = some (.add (.ce 0) 1 2 3) ∧
      judgeWord (.ce 0) 0b01000100101001101111111111111100 = some (.addi (.ce 0) 5 6 0xFFFC) ∧
      judgeWord (.sv 1) 0b01110100100111110000000000001000 = some (.lw (.sv 1) 4 31 8) ∧
      judgeWord (.sv 1) 0b10000000100111110000000000001000 = some (.sw (.sv 1) 4 31 8)) ∧
  ((∀ (n : Fin 512) (w : Word), soetteWord (.svc (.sv 0) 0) = some w → judgeWord (.ce n) w = none) ∧
      (∀ (n : Fin 4) (w : Word), soetteWord (.yield (.ce 0)) = some w → judgeWord (.sv n) w = none) ∧
      (∀ (c : Core) (d : Fin 32) (imm : BitVec 16) (w : Word), soetteWord (.lwp c d d imm) = some w → judgeWord c w = none))

/-! ### Timebase, speed monitor, general timers -/

/-- The timebase. Events: locking the loop, which a quiet halt with QHLF at 1 keeps in low-frequency time, leaving
low-frequency time, losing the reference clock, the runs of 32 low-frequency periods and their count, the crystal.
Accesses: the latch of a TB_NOWL read, both halves of the wake comparator, the lock of TB_CTL, the alignment load at a cycle after
the measurement, which waits while a lane is enabled (R9, R34, R36, R38, R40–R44, R46, R341, R379). The model's choices: the full
windows opened at a relock (log entry 82); a run of 32 periods dropped while no tick is given, measured in Idle too, a wrong count
ignored, the internal oscillator kept (log entry 84); what a quiet halt does at a lock (log entry 44). -/
def Obligations.timebase_complete : Prop :=
  ((∀ (mv : Nat) (s : State), s.fm.reset = .none → s.fm.power ≠ .hold → s.bit .tbStat 0 0 0 = false →
        (s.rdF .secDbg 0 0 1 0 == 3 && s.bit .tbCtl 0 0 2) = false →
        ∃ t, exec (.pllLock mv) s = .next t ∧ t.bit .tbStat 0 0 0 = true ∧ t.tb.leaving = s.bit .tbStat 0 0 1 ∧
          t.now = s.now ∧ t.fm.coreMv = mv ∧ ∀ k < 64, (t.row k).startMv = mv ∧ (t.row k).short = false ∧
            (t.row k).lastFall = ((s.row k).lastFall.map (fun x => (x.1, true))) ∧
            (t.row k).lastWarn = ((s.row k).lastWarn.map (fun x => (x.1, true)))) ∧
      (∀ (mv : Nat) (s : State), s.fm.reset = .none → s.fm.power ≠ .hold → s.bit .tbStat 0 0 0 = false →
        s.rdF .secDbg 0 0 1 0 = 3 → s.bit .tbCtl 0 0 2 = true →
        ∃ t, exec (.pllLock mv) s = .next t ∧ t.bit .tbStat 0 0 0 = false ∧ t.bit .tbStat 0 0 1 = true ∧ t.now = s.now ∧
          (s.bit .tbStat 0 0 1 = true → t = s)) ∧
      (∀ s : State, s.bit .tbStat 0 0 1 = true → s.tb.leaving = true →
        ∃ t, exec .lfTimeExit s = .next t ∧ t.bit .tbStat 0 0 1 = false ∧ t.tb.leaving = false ∧ t.mem = s.mem) ∧
      (∀ s : State, s.bit .tbStat 0 0 0 = true →
        ∃ t, exec .refclkLoss s = .next t ∧ t.bit .tbStat 0 0 0 = false ∧ t.now = s.now ∧ t.tb.run = none ∧
          ∀ n < 192, t.bit .lnCtl n 0 0 = false) ∧
      (∀ (t0 : BitVec 64) (m : Nat) (count : BitVec 24) (s : State), s.timeOk = true → s.dark = false →
        (s.tb.run = none → exec (.lfcntRunEnd count) s = .next s ∧
          exec .lowFrequencyEdge s = .next { s with tb := { s.tb with run := some (s.now, 0) } }) ∧
        (s.tb.run = some (t0, m) → m < 31 → exec (.lfcntRunEnd count) s = .next s ∧
          exec .lowFrequencyEdge s = .next { s with tb := { s.tb with run := some (t0, m + 1) } }) ∧
        (s.tb.run = some (t0, 31) → count.toNat ≠ (s.now - t0).toNat % 2 ^ 24 → exec (.lfcntRunEnd count) s = .next s) ∧
        (s.tb.run = some (t0, 31) → count.toNat = (s.now - t0).toNat % 2 ^ 24 →
          ∃ t, exec (.lfcntRunEnd count) s = .next t ∧ exec .lowFrequencyEdge s = .next t ∧ t.rdF .tbLfcnt 0 0 23 0 = count.toNat ∧
            t.bit .tbStat 0 0 2 = true ∧ t.tb.run = some (s.now, 0) ∧ { t with regs := s.regs, tb := s.tb } = s)) ∧
      (∀ s : State, s.bit .tbCtl 0 0 0 = false → s.tb.internal = false → s.fm.reset = .none →
        ∃ t, exec .lfCrystalFail s = .next t ∧ t.bit .tbStat 0 0 2 = false ∧ t.bit .tbStat 0 0 5 = true ∧
          t.tb.internal = true ∧ t.tb.run = none)) ∧
  ((∀ (who : Requester) (s : State), ∃ t, exec (.tbNowlRead who) s = .next t ∧
        tget (fun _ => {}) t.resp (reqNum who) = { data := wordBytes (s.now.truncate 32) false } ∧
        readTbNowh t (reqNum who) = (s.now >>> 32).truncate 32 ∧ { t with tb := s.tb, resp := s.resp } = s) ∧
      (∀ (v : Word) (s : State), up s = true → ∃ t, exec (.tbWakehWrite v) s = .next t ∧
        t.tb.wake = v ++ s.rd .tbWakel 0 0 ∧ t.rd .tbWakeh 0 0 = v ∧ { t with tb := s.tb, regs := s.regs } = s) ∧
      (∀ (v : Word) (s : State), up s = true → ∃ t, exec (.tbLock v) s = .next t ∧ t.bit .tbCtl 0 0 31 = true ∧
        t.rdF .tbCtl 0 0 1 0 = (if s.bit .tbCtl 0 0 31 then s.rdF .tbCtl 0 0 1 0 else fld v 1 0) ∧
        t.rdF .tbCtl 0 0 4 2 = fld v 4 2) ∧
      (∀ (ring : BitVec 64) (s : State), s.timeOk = true → isHead s = false → s.bit .tbCtl 0 0 3 = true →
        4096 < s.tb.ofs.natAbs →
        (s.tb.ofsIn = some (cycleNow s) → exec (.alignmentLoad ring) s = .next s) ∧
        (s.tb.ofsIn ≠ some (cycleNow s) → ∃ t, exec (.alignmentLoad ring) s = .next t ∧
          ((∀ n < 192, s.bit .lnCtl n 0 0 = false) → t.now = ring ∧ t.bit .tbStat 0 0 4 = true) ∧
          ((∃ n < 192, s.bit .lnCtl n 0 0 = true) → t.now = s.now ∧ t.bit .tbStat 0 0 6 = true))))

/-- The speed monitor publishes rate and bound; a fall of 20 mV or more since the window began takes 7/8 of the bound, unless a warning
crossing within 300 ns has (the truncation and the pairing of two are log entry 80); a smaller one only moves VDD_CORE; a floor is
compared with the bound at once (R30, R31, R33). Ticks of the locked loop count; whether two detections between which the loop lost its lock lie within 300 ns is a free value
(log entry 115). -/
def Obligations.speed_monitor_complete : Prop :=
  (∀ (k : Fin 64) (rate : BitVec 20) (mv : Nat) (s : State), monitorOn s k = true →
      ∃ t, exec (.speedWindowEnd k rate mv) s = .next t ∧ t.rdF .spmRate k 0 19 0 = rate.toNat ∧
        t.rdF .spmBound k 0 19 0 = rate.toNat * 15 / 16 ∧ t.bit .spmBound k 0 30 = false ∧ (t.row k).first = true ∧
        (t.row k).startMv = mv ∧ t.fm.coreMv = mv) ∧
    (∀ (k : Fin 64) (mv : Nat) (s : State), monitorOn s k = true → (s.row k).startMv < mv + 20 →
      exec (.vddCoreFall20mv k mv) s = .next { s with fm := { s.fm with coreMv := mv } }) ∧
    (∀ (k : Fin 64) (mv w : Nat) (lost : Bool) (s : State), monitorOn s k = true → (s.row k).lastWarn = some (w, lost) →
      s.tb.locked ≤ w + 120 → (lost = true → Config.freeNear s.free = true) → mv + 20 ≤ (s.row k).startMv →
      ∃ t, exec (.vddCoreFall20mv k mv) s = .next t ∧ (t.row k).short = true ∧ (t.row k).lastWarn = none ∧ t.regs = s.regs) ∧
    (∀ (k : Fin 64) (mv : Nat) (s : State), monitorOn s k = true → (s.row k).first = true →
      (∀ w ∈ (s.row k).lastWarn, w.1 + 120 < s.tb.locked) →
      mv + 20 ≤ (s.row k).startMv →
      ∃ t, exec (.vddCoreFall20mv k mv) s = .next t ∧ t.rdF .spmBound k 0 19 0 = s.rdF .spmBound k 0 19 0 * 7 / 8 ∧
        t.bit .spmBound k 0 30 = true ∧ (t.row k).short = true ∧ (t.row k).lastFall = some (s.tb.locked, false)) ∧
    (∀ (k : Fin 64) (v : Word) (s : State), up s = true →
      (fld v 19 0 ≠ 0 → ∃ t, exec (.rwFloorWrite k v) s = .next t ∧ t.rdF .rwFloor k 0 19 0 = fld v 19 0 ∧
        t.bit .spmBound k 0 29 = ((s.row k).first && decide (s.rdF .spmBound k 0 19 0 < fld v 19 0))) ∧
      (fld v 19 0 = 0 → (∃ x < 4, s.bit .rwBind k x 31 = true) → exec (.rwFloorWrite k v) s = .next s))

/-- Wrap, compare, period, compare register and restart of a general timer; captures and their reads: a selected event is noted with its
tick, a pin's less 3 ticks, and captured once ticks run, or counted as an overrun while the pending slot is full; a read of GT_CAPL
captures what is noted first, latches the high word for its requester and stays open until GT_CAPH is read or the read times out
(R41, R47–R50, R53–R56). The model's choices: that a channel notes its events and GT_CAPTURE brings the oldest, with WAKE's edge
being the command itself (log entry 42), and that a write of GT_CMP fires with EN at 0 too (log entry 41). -/
def Obligations.timers_complete : Prop :=
  ((∀ (n : Fin 16) (s : State), gtCounting s n = true → (s.timer n).wrapDue = true → gtPer s n ≤ gtCnt s n →
        ∃ t, exec (.gtWrap n) s = .next t ∧ t.rd .gtCnt n 0 = 0 ∧ t.bit .gtStat n 0 0 = true ∧
          (t.timer n).per = s.rd .gtPer n 0 ∧ ∀ c < 4, (t.chan n c).level = false ∧ (t.chan n c).passed = false) ∧
      (∀ (n : Fin 16) (s : State), gtEn s n = false ∨ gtClocked s n = true ∨ gtCnt s n < gtPer s n ∨ (s.timer n).wrapDue = false →
        exec (.gtWrap n) s = .next s) ∧
      (∀ (n : Fin 16) (c : Fin 4) (s : State), gtDue s n c = true →
        ∃ t, exec (.gtCompareMatch n c) s = .next t ∧ t.bit .gtCst n c 10 = true ∧ (t.chan n c).level = true ∧
          (s.rdF .gtCcfg n c 1 0 = 3 → (t.chan n c).armed = false)) ∧
      (∀ (n : Fin 16) (v : Word) (s : State), up s = true → ∃ t, exec (.gtPerWrite n v) s = .next t ∧
        t.rd .gtPer n 0 = v ∧ (t.timer n).per = (if s.bit .gtCtl n 0 6 then (s.timer n).per else v) ∧
        t.rd .gtCnt n 0 = s.rd .gtCnt n 0) ∧
      (∀ (n : Fin 16) (c : Fin 4) (v : Word) (s : State), up s = true → ∃ t, exec (.gtCmpWrite n c v) s = .next t ∧
        t.rd .gtCmp n c = v ∧
        (s.rdF .gtCcfg n c 1 0 = 1 → v.toNat ≤ gtCnt s n → v.toNat ≤ gtPer s n → t.bit .gtCst n c 10 = true) ∧
        (s.rdF .gtCcfg n c 1 0 = 3 → gtCnt s n < v.toNat → (t.chan n c).armed = true) ∧
        (s.rdF .gtCcfg n c 1 0 = 3 → v.toNat ≤ gtCnt s n → v.toNat ≤ gtPer s n → t.bit .gtCst n c 10 = true ∧
          (t.chan n c).armed = false)) ∧
      (∀ (n : Fin 16) (v : Word) (s : State), up s = true → ∃ t, exec (.gtSwrst n v) s = .next t ∧
        t.rd .gtCnt n 0 = 0 ∧ (t.timer n).phase = 0 ∧ t.rdF .gtCtl n 0 6 0 = fld v 6 0)) ∧
  ((∀ (n : Fin 16) (c : Fin 4) (e : Event) (s : State), s.timeOk = true →
        ((s.event e).chan n c).due = (s.chan n c).due ++ (if capSelects s n c e then
          [match e with | .trip _ _ => s.now - 3 | .wake _ => s.now - 3 | _ => s.now] else [])) ∧
      (∀ (n : Fin 16) (c : Fin 4) (rising : Bool) (s : State), s.timeOk = true → s.rdF .gtCcfg n c 7 0 = 4 * 4 + 2 →
        edgeSel s n c rising = true → (s.chan n c).pend = none → (s.chan n c).opens = [] →
        ∃ t, exec (.gtCapture n c rising) s = .next t ∧ t.bit .gtCst n c 0 = true ∧ t.now = s.now ∧
          t.rd .gtCaph n c ++ t.rd .gtCapl n c = s.now - 3) ∧
      (∀ (n : Fin 16) (c : Fin 4) (rising : Bool) (x : BitVec 64) (xs : List (BitVec 64)) (s : State),
        s.timeOk = true → s.rdF .gtCcfg n c 7 2 ≠ 4 →
        ((s.chan n c).due = [] → exec (.gtCapture n c rising) s = .next s) ∧
        ((s.chan n c).due = x :: xs → (s.chan n c).pend = none → (s.chan n c).opens = [] →
          ∃ t, exec (.gtCapture n c rising) s = .next t ∧ t.bit .gtCst n c 0 = true ∧ (t.chan n c).due = xs ∧
            t.rd .gtCaph n c ++ t.rd .gtCapl n c = x) ∧
        ((s.chan n c).due = x :: xs → (s.chan n c).pend = none → (s.chan n c).opens ≠ [] →
          ∃ t, exec (.gtCapture n c rising) s = .next t ∧ t.bit .gtCst n c 1 = true ∧ (t.chan n c).pend = some x ∧
            t.rd .gtCaph n c = s.rd .gtCaph n c ∧ t.rd .gtCapl n c = s.rd .gtCapl n c) ∧
        ((s.chan n c).due = x :: xs → (s.chan n c).pend.isSome = true →
          ∃ t, exec (.gtCapture n c rising) s = .next t ∧ (t.chan n c).pend = (s.chan n c).pend ∧
            t.rdF .gtCst n c 9 2 = Nat.min (s.rdF .gtCst n c 9 2 + 1) 255 ∧
            (s.inRst 72 = false → s.irqKeep = none → s.bit .gtCcfg n c 18 = true →
              t.edge (906 + 4 * n + c) = true))) ∧
      (∀ (n : Fin 16) (c : Fin 4) (rising : Bool) (s : State), s.timeOk = false →
        exec (.gtCapture n c rising) s = .next s) ∧
      (∀ (n : Fin 16) (c : Fin 4) (v : Word) (s : State), up s = true → s.rdF .gtCcfg n c 7 0 = 2 →
        (s.chan n c).pend = none → (s.chan n c).opens = [] →
        ∃ t, exec (.gtSwcap n c v) s = .next t ∧ t.rd .gtCaph n c ++ t.rd .gtCapl n c = s.now ∧ t.bit .gtCst n c 0 = true) ∧
      (∀ (n : Fin 16) (c : Fin 4) (v : Word) (s : State), up s = true → bitOf v 17 = false →
        ∃ t, exec (.gtClrovr n c v) s = .next t ∧ t.rdF .gtCst n c 9 2 = 0 ∧ { t with regs := s.regs } = s) ∧
      (∀ (who : Requester) (n : Fin 16) (c : Fin 4) (s : State), who ≠ .debug → (s.chan n c).pend = none → (s.chan n c).due = [] →
        ∃ t, exec (.gtCaplRead who n c) s = .next t ∧ t.bit .gtCst n c 0 = false ∧
          tget (fun _ => {}) t.resp (reqNum who) = { data := wordBytes (s.rd .gtCapl n c) false } ∧
          (reqNum who, s.tb.ticks) ∈ (t.chan n c).opens ∧ tget (fun _ => 0) (t.chan n c).latch (reqNum who) = s.rd .gtCaph n c) ∧
      (∀ (who : Requester) (n : Fin 16) (c : Fin 4) (x : BitVec 64) (s : State), s.timeOk = true → who ≠ .debug →
        (s.chan n c).pend = none → (s.chan n c).opens = [] → (s.chan n c).due = [x] →
        ∃ t, exec (.gtCaplRead who n c) s = .next t ∧
          tget (fun _ => {}) t.resp (reqNum who) = { data := wordBytes (x.truncate 32) false } ∧
          tget (fun _ => 0) (t.chan n c).latch (reqNum who) = (x >>> 32).truncate 32 ∧ (t.chan n c).due = []) ∧
      (∀ (who : Requester) (n : Fin 16) (c : Fin 4) (s : State), who ≠ .debug →
        ∃ t, exec (.gtCaphRead who n c) s = .next t ∧ reqNum who ∉ (t.chan n c).opens.map (·.1) ∧
          tget (fun _ => {}) t.resp (reqNum who) =
            { data := wordBytes (tget (fun _ => 0) (s.chan n c).latch (reqNum who)) false }) ∧
      (∀ (who : Requester) (n : Fin 16) (c : Fin 4) (s : State),
        (gtOpenLong s (reqNum who) n c = true →
          ∃ t, exec (.gtReadTimeout who n c) s = .next t ∧ reqNum who ∉ (t.chan n c).opens.map (·.1) ∧
            { t with chans := s.chans } = s) ∧
        (gtOpenLong s (reqNum who) n c = false → exec (.gtReadTimeout who n c) s = .next s)))

/-! ### The Soette set: arithmetic -/

/-- Integer arithmetic, logic, shifts, immediates, compares and selection: the result of each, its distance, no AEX bit, a poisoned
source poisons it, nothing else changed; with PRECISE a product holds the next instruction two steps (R131, R146, R150, R160, R161). -/
def Obligations.integer_instructions_complete : Prop :=
  (∀ (c : Core) (rd ra rb : Fin 32) (imm : BitVec 16) (aux : BitVec 5) (s : State), issues s (coreNum c) = true →
      let n := coreNum c
      let a := (reg s n ra).1
      let b := (reg s n rb).1
      let pa := (reg s n ra).2
      let pb := (reg s n rb).2
      (∀ x ∈ [(Instr.add c rd ra rb, 1, a + b), (.sub c rd ra rb, 1, a - b), (.and c rd ra rb, 1, a &&& b),
          (.or c rd ra rb, 1, a ||| b), (.xor c rd ra rb, 1, a ^^^ b), (.sll c rd ra rb, 1, a <<< (b.toNat % 32)),
          (.srl c rd ra rb, 1, a >>> (b.toNat % 32)), (.sra c rd ra rb, 1, a.sshiftRight (b.toNat % 32)),
          (.min c rd ra rb, 1, if a.slt b then a else b), (.max c rd ra rb, 1, if a.slt b then b else a),
          (.mul c rd ra rb, 3, a * b),
          (.mulh c rd ra rb, 3, ((a.signExtend 64 * b.signExtend 64) >>> 32).truncate 32),
          (.mulhu c rd ra rb, 3, ((a.zeroExtend 64 * b.zeroExtend 64) >>> 32).truncate 32)],
        ∃ t, exec x.1 s = .next t ∧ arith s t n rd x.2.1 x.2.2 0 (pa || pb)) ∧
      (∀ x ∈ [(Instr.addi c rd ra imm, a + imm.signExtend 32), (.andi c rd ra imm, a &&& imm.zeroExtend 32),
          (.ori c rd ra imm, a ||| imm.zeroExtend 32), (.xori c rd ra imm, a ^^^ imm.zeroExtend 32),
          (.slli c rd ra aux, a <<< aux.toNat), (.srli c rd ra aux, a >>> aux.toNat),
          (.srai c rd ra aux, a.sshiftRight aux.toNat), (.clz c rd ra, wd (32 - a.toNat.size))],
        ∃ t, exec x.1 s = .next t ∧ arith s t n rd 1 x.2 0 pa) ∧
      (∃ t, exec (.lui c rd imm) s = .next t ∧ arith s t n rd 1 (imm ++ (0 : BitVec 16)) 0 false)) ∧
  (∀ (c : Core) (rd ra rb rc : Fin 32) (imm : BitVec 16) (s : State), issues s (coreNum c) = true →
      let n := coreNum c
      let a := (reg s n ra).1
      let b := (reg s n rb).1
      let x := (reg s n rc).1
      let pa := (reg s n ra).2
      let pb := (reg s n rb).2
      (∀ x ∈ [(Instr.ceq c rd ra rb, a == b), (.clt c rd ra rb, a.slt b), (.cltu c rd ra rb, a.ult b)],
        ∃ t, exec x.1 s = .next t ∧ arith s t n rd 1 (if x.2 then 1 else 0) 0 (pa || pb)) ∧
      (∀ x ∈ [(Instr.ceqi c rd ra imm, a == imm.signExtend 32), (.clti c rd ra imm, a.slt (imm.signExtend 32)),
          (.cltui c rd ra imm, a.ult (imm.signExtend 32))],
        ∃ t, exec x.1 s = .next t ∧ arith s t n rd 1 (if x.2 then 1 else 0) 0 pa) ∧
      (∃ t, exec (.sel c rd ra rb rc) s = .next t ∧
        arith s t n rd 1 (if x = 0 then b else a) 0 (pa || pb || (reg s n rc).2)))

/-- Saturating integer arithmetic and Q-format multiplies that do not trap: the exact value, for products rounded to nearest with
halves upwards, limited to the format, with OVF or QSAT when that changes it (R148, R150, R160, R162). -/
def Obligations.saturating_instructions_complete : Prop :=
  (∀ (c : Core) (rd ra rb : Fin 32) (s : State), issues s (coreNum c) = true →
      let n := coreNum c
      let a := (reg s n ra).1.toInt
      let b := (reg s n rb).1.toInt
      let p := (reg s n ra).2 || (reg s n rb).2
      ∀ x ∈ [(Instr.addo c rd ra rb, a + b, 4), (.subo c rd ra rb, a - b, 4), (.adds c rd ra rb, a + b, 8),
          (.subs c rd ra rb, a - b, 8)],
        let bits := if -2 ^ 31 ≤ x.2.1 ∧ x.2.1 < 2 ^ 31 then 0 else x.2.2
        noTrap s n bits p = true →
        ∃ t, exec x.1 s = .next t ∧ arith s t n rd 1 (wdi (max (-2 ^ 31) (min (2 ^ 31 - 1) x.2.1))) bits p) ∧
  (∀ (c : Core) (rd ra rb : Fin 32) (s : State), issues s (coreNum c) = true →
      let n := coreNum c
      let q := ((reg s n ra).1.toInt * (reg s n rb).1.toInt + 2 ^ 30) / 2 ^ 31
      let h := (((reg s n ra).1.truncate 16).toInt * ((reg s n rb).1.truncate 16).toInt + 2 ^ 14) / 2 ^ 15
      let d := (reg s n rd).1.toInt
      let e := ((reg s n rd).1.truncate 16).toInt
      let p := (reg s n ra).2 || (reg s n rb).2
      let p3 := p || (reg s n rd).2
      (∀ x ∈ [(Instr.qmul c rd ra rb, q, 4, p), (.qmuls c rd ra rb, q, 8, p), (.qmac c rd ra rb, d + q, 4, p3),
          (.qmacs c rd ra rb, d + q, 8, p3)],
        let bits := if -2 ^ 31 ≤ x.2.1 ∧ x.2.1 < 2 ^ 31 then 0 else x.2.2.1
        noTrap s n bits x.2.2.2 = true →
        ∃ t, exec x.1 s = .next t ∧ arith s t n rd 3 (wdi (max (-2 ^ 31) (min (2 ^ 31 - 1) x.2.1))) bits x.2.2.2) ∧
      (∀ x ∈ [(Instr.hmul c rd ra rb, h, 4, p), (.hmuls c rd ra rb, h, 8, p), (.hmac c rd ra rb, e + h, 4, p3),
          (.hmacs c rd ra rb, e + h, 8, p3)],
        let bits := if -2 ^ 15 ≤ x.2.1 ∧ x.2.1 < 2 ^ 15 then 0 else x.2.2.1
        noTrap s n bits x.2.2.2 = true →
        ∃ t, exec x.1 s = .next t ∧ arith s t n rd 3 (wdi (max (-2 ^ 15) (min (2 ^ 15 - 1) x.2.1))) bits x.2.2.2))

/-- The binary32 instructions that do not trap deliver their results and AEX bits, which the next two statements give; FABS and FNEG act on
bit 31 and have distance 1 (R131, R148, R150, R163). -/
def Obligations.float_instructions_complete : Prop :=
  ∀ (c : Core) (rd ra rb : Fin 32) (s : State), issues s (coreNum c) = true →
    let n := coreNum c
    let a := (reg s n ra).1
    let b := (reg s n rb).1
    let pa := (reg s n ra).2
    let pb := (reg s n rb).2
    (∀ x ∈ [(Instr.fadd c rd ra rb, fAdd a b), (.fsub c rd ra rb, fAdd a (b ^^^ 0x80000000)), (.fmul c rd ra rb, fMul a b),
        (.fmin c rd ra rb, fMinMax false a b), (.fmax c rd ra rb, fMinMax true a b), (.fceq c rd ra rb, fCeq a b),
        (.fclt c rd ra rb, fClt a b), (.fcle c rd ra rb, fCle a b)],
      noTrap s n x.2.aex (pa || pb) = true →
      ∃ t, exec x.1 s = .next t ∧ arith s t n rd 3 x.2.val x.2.aex (pa || pb)) ∧
    (let r := fMa a b (reg s n rd).1;
      let p := pa || pb || (reg s n rd).2;
      noTrap s n r.aex p = true → ∃ t, exec (.fma c rd ra rb) s = .next t ∧ arith s t n rd 3 r.val r.aex p) ∧
    (∀ x ∈ [(Instr.fitof c rd ra, fItof a), (.fftoi c rd ra, fFtoi a), (.ftoq c rd ra, fToq a), (.qtof c rd ra, fQtof a)],
      noTrap s n x.2.aex pa = true → ∃ t, exec x.1 s = .next t ∧ arith s t n rd 3 x.2.val x.2.aex pa) ∧
    (∃ t, exec (.fabs c rd ra) s = .next t ∧ arith s t n rd 1 (a &&& 0x7FFFFFFF) 0 pa) ∧
    (∃ t, exec (.fneg c rd ra) s = .next t ∧ arith s t n rd 1 (a ^^^ 0x80000000) 0 pa)

/-- The results of binary32 and of the divisions that are not roundings: NaN operands, infinities, division by 0, invalid cases, compares,
FMIN and FMAX, conversions to integers and Q31, signed and unsigned division (R148, R163, R164). -/
def Obligations.arithmetic_results : Prop :=
  (∀ a b d : Word,
    let inv (xs : List Word) : Nat := if xs.any signals then 2 else 0
    let sign := (a ^^^ b) &&& 0x80000000
    ((isNanWord a || isNanWord b) = true → ∀ x ∈ [fAdd a b, fMul a b, fDiv a b], x = { val := 0x7FC00000, aex := inv [a, b] }) ∧
    ((isNanWord a || isNanWord b || isNanWord d) = true → fMa a b d =
      { val := 0x7FC00000, aex := if isInfWord a && numOf b == 0 || numOf a == 0 && isInfWord b then 2 else inv [a, b, d] }) ∧
    (isNanWord a = true → fSqrt a = { val := 0x7FC00000, aex := inv [a] }) ∧
    (fAdd a b = fAdd b a ∧ fMul a b = fMul b a ∧ fMa a b d = fMa b a d) ∧
    (isInfWord a = true → isNanWord b = false →
      fAdd a b = (if isInfWord b = true ∧ a ≠ b then { val := 0x7FC00000, aex := 2 } else { val := a }) ∧
      fMul a b = (if numOf b = 0 then { val := 0x7FC00000, aex := 2 } else { val := 0x7F800000 ||| sign }) ∧
      fDiv a b = (if isInfWord b = true then { val := 0x7FC00000, aex := 2 } else { val := 0x7F800000 ||| sign }) ∧
      fDiv b a = (if isInfWord b = true then { val := 0x7FC00000, aex := 2 } else { val := sign }) ∧
      fSqrt a = (if a = 0x7F800000 then { val := a } else { val := 0x7FC00000, aex := 2 }) ∧
      (isNanWord d = false → (numOf b = 0 → fMa a b d = { val := 0x7FC00000, aex := 2 }) ∧
        (numOf b ≠ 0 → fMa a b d = fAdd (0x7F800000 ||| sign) d)) ∧
      (finiteWord b = true → finiteWord d = true → fMa b d a = { val := a })) ∧
    (finiteWord a = true → numOf b = 0 →
      fDiv a b = (if numOf a = 0 then { val := 0x7FC00000, aex := 2 }
        else { val := (a &&& 0x80000000) ||| 0x7F7FFFFF, aex := 1 })) ∧
    (numOf a = 0 → fSqrt a = { val := a }) ∧
    (isNanWord a = false → numOf a < 0 → fSqrt a = { val := 0x7FC00000, aex := 2 }) ∧
    (let num := !isNanWord a && !isNanWord b;
      fCeq a b = { val := if num && numOf a == numOf b then 1 else 0, aex := inv [a, b] } ∧
      fClt a b = { val := if num && decide (numOf a < numOf b) then 1 else 0, aex := inv [a, b] } ∧
      fCle a b = { val := if num && decide (numOf a ≤ numOf b) then 1 else 0, aex := inv [a, b] } ∧
      (num = true → numOf a < numOf b ∨ (numOf a = numOf b ∧ bitOf a 31 = true) →
        ∀ big, fMinMax big a b = { val := if big then b else a } ∧ fMinMax big b a = { val := if big then b else a })) ∧
    (isNanWord a = true → ∀ big,
      fMinMax big a b = { val := if isNanWord b then 0x7FC00000 else b, aex := inv [a, b] } ∧
      fMinMax big b a = { val := if isNanWord b then 0x7FC00000 else b, aex := inv [a, b] }) ∧
    (isNanWord a = true → fFtoi a = { val := 0, aex := 2 } ∧ fToq a = { val := 0, aex := 2 }) ∧
    (isNanWord a = false →
      let v : Int := if numOf a < 0 then ⌈numOf a⌉ else ⌊numOf a⌋
      fFtoi a = { val := wdi (max (-2 ^ 31) (min (2 ^ 31 - 1) v)), aex := if -2 ^ 31 ≤ v ∧ v < 2 ^ 31 then 0 else 2 }) ∧
    (∀ v : Int, isNanWord a = false → |numOf a * 2 ^ 31 - v| ≤ 1 / 2 → (|numOf a * 2 ^ 31 - v| = 1 / 2 → v % 2 = 0) →
      fToq a = { val := wdi (max (-2 ^ 31) (min (2 ^ 31 - 1) v)), aex := if -2 ^ 31 ≤ v ∧ v < 2 ^ 31 then 0 else 8 })) ∧
  (∀ a b : Word,
      (b ≠ 0 → ¬ (a = 0x80000000 ∧ b = 0xFFFFFFFF) → sDiv a b = { val := a.sdiv b, aex := 0 }) ∧
      (b ≠ 0 → uDiv a b = { val := a / b, aex := 0 }) ∧
      sDiv a 0 = { val := 0x7FFFFFFF, aex := 1 } ∧ uDiv a 0 = { val := 0xFFFFFFFF, aex := 1 } ∧
      sDiv 0x80000000 0xFFFFFFFF = { val := 0x7FFFFFFF, aex := 4 })

/-- Finite sums, products, fused multiply-adds, quotients, roots and conversions to binary32 are the exact value rounded once to nearest
with ties to even and set no AEX bit; the sign of an exact zero (R163, R164). -/
def Obligations.float_rounding : Prop :=
  (∀ a b d : Word, finiteWord a = true → finiteWord b = true →
    let zero (neg : Bool) : Word := if neg then 0x80000000 else 0
    let x := bitOf a 31 != bitOf b 31
    ((fAdd a b).aex = 0 ∧ nearest ((numOf a + numOf b : ℚ) : ℝ) (fAdd a b).val ∧
      (numOf a + numOf b = 0 → (fAdd a b).val = zero (bitOf a 31 && bitOf b 31))) ∧
    ((fMul a b).aex = 0 ∧ nearest ((numOf a * numOf b : ℚ) : ℝ) (fMul a b).val ∧
      (numOf a * numOf b = 0 → (fMul a b).val = zero x)) ∧
    (finiteWord d = true → (fMa a b d).aex = 0 ∧ nearest ((numOf d + numOf a * numOf b : ℚ) : ℝ) (fMa a b d).val ∧
      (numOf d + numOf a * numOf b = 0 → (fMa a b d).val = zero (bitOf d 31 && x))) ∧
    (numOf b ≠ 0 → (fDiv a b).aex = 0 ∧ nearest ((numOf a / numOf b : ℚ) : ℝ) (fDiv a b).val ∧
      (numOf a = 0 → (fDiv a b).val = zero x)) ∧
    (0 < numOf a → (fSqrt a).aex = 0 ∧ nearest (Real.sqrt (numOf a : ℝ)) (fSqrt a).val)) ∧
  (∀ a : Word, (fItof a).aex = 0 ∧ nearest (a.toInt : ℝ) (fItof a).val ∧ (fQtof a).aex = 0 ∧
    nearest ((a.toInt : ℝ) / 2 ^ 31) (fQtof a).val ∧ (a = 0 → (fItof a).val = 0 ∧ (fQtof a).val = 0))

/-- SIN and COS are 0x7FFFFFFF at a true value of +1.0 and ATAN2 of the origin and of a negative x on the axis is as stated; every
result lies within 8 units of the true value, an angle by the turn (R164; a millionth of a unit is allowed for here beside the 8, and
the deviation within them is log entry 6). -/
def Obligations.trigonometric_results : Prop :=
  (sinRes 0x40000000 = { val := 0x7FFFFFFF, aex := 0 } ∧ cosRes 0 = { val := 0x7FFFFFFF, aex := 0 }) ∧
  (∀ a : Word, (sinRes a).aex = 0 ∧ (cosRes a).aex = 0 ∧
    |((sinRes a).val.toInt : ℝ) - 2 ^ 31 * Real.sin (2 * Real.pi * a.toNat / 2 ^ 32)| ≤ 8 + 1 / 10 ^ 6 ∧
    |((cosRes a).val.toInt : ℝ) - 2 ^ 31 * Real.cos (2 * Real.pi * a.toNat / 2 ^ 32)| ≤ 8 + 1 / 10 ^ 6) ∧
  (∀ y x : Word, (atan2Res y x).aex = 0 ∧ ∃ v : Int, (atan2Res y x).val = wdi v ∧
    |(v : ℝ) - 2 ^ 32 * Complex.arg (⟨x.toInt, y.toInt⟩ : ℂ) / (2 * Real.pi)| ≤ 8 + 1 / 10 ^ 6) ∧
  (∀ x : Word, atan2Res 0 0 = { val := 0, aex := 0 } ∧ (x.toInt < 0 → atan2Res 0 x = { val := 0x80000000, aex := 0 }))

/-- A side-unit instruction that does not trap occupies its unit with its result and completes at once; the unit's result reaches the register
and AEX at the instruction's place in program order, and the unit is free (R133, R148, R150, R164). That the AEX bits are set when the
result is delivered, and not at issue, is the model's choice (log entry 58). An instruction that reads or writes the
register of a unit under way waits, and so does one for a busy unit, and CHECK; with PRECISE at 0 another issues beside it (R134). -/
def Obligations.side_unit_instructions_complete : Prop :=
  (∀ (c : Core) (rd ra rb : Fin 32) (s : State), issues s (coreNum c) = true →
    let n := coreNum c
    let k := s.core n
    let a := (reg s n ra).1
    let b := (reg s n rb).1
    let pa := (reg s n ra).2
    let pb := (reg s n rb).2
    let op (r : Res) (p : Bool) : SideOp :=
      { dest := rd, val := r.val, poison := p, aex := if p then 0 else r.aex, pc := k.pc, idx := k.seq }
    (∀ x ∈ [(Instr.div c rd ra rb, sDiv a b, pa || pb), (.divu c rd ra rb, uDiv a b, pa || pb),
        (.sqrt c rd ra, { val := wd (Nat.sqrt a.toNat), aex := 0 }, pa), (.fdiv c rd ra rb, fDiv a b, pa || pb),
        (.fsqrt c rd ra, fSqrt a, pa), (.recip c rd ra, fDiv 0x3F800000 a, pa)],
      noTrap s n x.2.1.aex x.2.2 = true →
      ∃ t, exec x.1 s = .next t ∧ stepped { k with divU := some (op x.2.1 x.2.2) } (t.core n) ∧
        regsSet s t n 0 (0, false) ∧ onlyCore s t n []) ∧
    (∀ x ∈ [(Instr.sin c rd ra, sinRes a, pa), (.cos c rd ra, cosRes a, pa), (.atan2 c rd ra rb, atan2Res a b, pa || pb)],
      ∃ t, exec x.1 s = .next t ∧ stepped { k with corU := some (op x.2.1 x.2.2) } (t.core n) ∧
        regsSet s t n 0 (0, false) ∧ onlyCore s t n [])) ∧
  (∀ (c : Core) (u : SideUnit) (o : SideOp) (s : State), s.dark = false →
    let n := coreNum c
    let k := s.core n
    (match u with | .divide => k.divU | .cordic => k.corU) = some o → k.yielding = false → o.idx ≤ k.seq →
    (∀ p ∈ k.infl, p.reg ≠ o.dest) →
    ∃ t, exec (.sideUnitResult c u) s = .next t ∧
      (match u with | .divide => (t.core n).divU | .cordic => (t.core n).corU) = none ∧
      (∀ r, reg t n r = if r = 0 then (0, false) else if r = o.dest then (o.val, o.poison) else reg s n r) ∧
      crAct t n 1 = crAct s n 1 ||| wd o.aex ∧ (t.core n).pc = k.pc ∧ (t.core n).seq = k.seq ∧
      onlyCore s t n [crKey n 1]) ∧
  (∀ (c : Core) (u : SideUnit) (o : SideOp) (rd ra rb : Fin 32) (imm : BitVec 16) (s : State),
    issuesBeside s (coreNum c) = true →
    let n := coreNum c
    let k := s.core n
    (match u with | .divide => k.divU | .cordic => k.corU) = some o →
    (∀ x ∈ [(Instr.add c rd ra rb, [rd, ra, rb]), (.addi c rd ra imm, [rd, ra]), (.mul c rd ra rb, [rd, ra, rb]),
        (.fadd c rd ra rb, [rd, ra, rb]), (.qmac c rd ra rb, [rd, ra, rb]), (.lw c rd ra imm, [rd, ra]),
        (.sw c rd ra imm, [rd, ra]), (.swap c rd ra rb, [rd, ra, rb]), (.lui c rd imm, [rd])],
      o.dest ≠ 0 → o.dest ∈ x.2.map (·.val) → ∃ t, exec x.1 s = .next t ∧ waits s t n) ∧
    (∀ i ∈ (match u with
        | .divide => [Instr.div c rd ra rb, .divu c rd ra rb, .sqrt c rd ra, .fdiv c rd ra rb, .fsqrt c rd ra, .recip c rd ra]
        | .cordic => [.sin c rd ra, .cos c rd ra, .atan2 c rd ra rb]),
      ∃ t, exec i s = .next t ∧ waits s t n) ∧
    (n < 512 → ∃ t, exec (.check c) s = .next t ∧ waits s t n) ∧
    (imprecise s n = true → (∀ r ∈ [rd, ra, rb], busy k r = false) →
      ∃ t, exec (.add c rd ra rb) s = .next t ∧
        arith s t n rd 1 ((reg s n ra).1 + (reg s n rb).1) 0 ((reg s n ra).2 || (reg s n rb).2)))

/-! ### The Soette set: loads, stores, atomics -/

/-- A load of an engine's own data memory delivers the bytes that stand there, extended as its mnemonic says, at distance 3, or 4
when it crosses a 4-byte boundary; a post-modify load reads at the base itself and gives the base its new address at distance 1;
nothing else changes. Bytes that are corrected, poisoned or uncorrectable give their values and tags, and the read is counted. A load that lies in one entry of the store buffer takes its bytes, with their poison, on either kind of core (R131, R136, R139, R141, R146,
R165, R166, R239, R240). -/
def Obligations.near_loads_complete : Prop :=
  (∀ (n : Fin 512) (rd ra : Fin 32) (imm : BitVec 16) (s : State), issues s n = true → (baseAddr s n ra).2 = false →
      let b := (baseAddr s n ra).1
      let a := (b + imm.signExtend 32).toNat
      let byte (i : Nat) : Byte := (s.byteAt (ceData n a + i)).1
      ∀ x ∈ [(Instr.lb (.ce n) rd ra imm, 1, (byte 0).signExtend 32), (.lbu (.ce n) rd ra imm, 1, (byte 0).zeroExtend 32),
          (.lh (.ce n) rd ra imm, 2, (byte 1 ++ byte 0).signExtend 32), (.lhu (.ce n) rd ra imm, 2, (byte 1 ++ byte 0).zeroExtend 32),
          (.lw (.ce n) rd ra imm, 4, byte 3 ++ byte 2 ++ byte 1 ++ byte 0)],
        0x4000 ≤ a → a + x.2.1 ≤ 0x8000 → (∀ e ∈ (s.core n).sb, overlaps e a x.2.1 = false) →
        clring s (ceData n a) = false → (∀ i < x.2.1, s.classAt (ceData n a + i) = .clean) →
        ∃ t, exec x.1 s = .next t ∧ delivers s t n rd (if a % 4 + x.2.1 ≤ 4 then 3 else 4) (x.2.2, false) ∧
          stepped (s.core n) (t.core n) ∧ onlyCore s t n []) ∧
  (∀ (n : Fin 512) (rd ra : Fin 32) (imm : BitVec 16) (s : State), issues s n = true → (baseAddr s n ra).2 = false →
      rd ≠ ra →
      let b := (baseAddr s n ra).1
      let a := b.toNat
      let byte (i : Nat) : Byte := (s.byteAt (ceData n a + i)).1
      ∀ x ∈ [(Instr.lhp (.ce n) rd ra imm, 2, (byte 1 ++ byte 0).signExtend 32, 1),
          (.lwp (.ce n) rd ra imm, 4, byte 3 ++ byte 2 ++ byte 1 ++ byte 0, 2)],
        0x4000 ≤ a → a + x.2.1 ≤ 0x8000 → (∀ e ∈ (s.core n).sb, overlaps e a x.2.1 = false) →
        clring s (ceData n a) = false → (∀ i < x.2.1, s.classAt (ceData n a + i) = .clean) →
        ∃ t, exec x.1 s = .next t ∧ regsSet s t n ra (postAddr s n b imm x.2.2.2, false) ∧
          (rd ≠ 0 → (t.core n).infl.head? = some { idx := (s.core n).seq, d := (if a % 4 + x.2.1 ≤ 4 then 3 else 4), reg := rd,
                                                   val := x.2.2.1, poison := false }) ∧
          stepped (s.core n) (t.core n) ∧ onlyCore s t n []) ∧
  (∀ (c : Core) (rd ra : Fin 32) (imm : BitVec 16) (bs : List (Byte × Bool)) (s : State), issues s (coreNum c) = true →
    let n := coreNum c
    let b := (baseAddr s n ra).1
    let aw := b + imm.signExtend 32
    (baseAddr s n ra).2 = false →
    ∀ x ∈ [(Instr.lb c rd ra imm, 1, true), (.lbu c rd ra imm, 1, false), (.lh c rd ra imm, 2, true),
        (.lhu c rd ra imm, 2, false), (.lw c rd ra imm, 4, false)],
      judge1 s n .load aw.toNat x.2.1 = 0 → aw.toNat % 4 + x.2.1 ≤ 4 →
      clring s (busAddr n aw.toNat) = false → forward (s.core n).sb aw.toNat x.2.1 = .bytes bs →
      ∃ t, exec x.1 s = .next t ∧ delivers s t n rd 3 (loadValue bs x.2.2) ∧ stepped (s.core n) (t.core n) ∧
        onlyCore s t n []) ∧
  (∀ (n : Fin 512) (rd ra : Fin 32) (imm : BitVec 16) (s : State), issues s n = true → (baseAddr s n ra).2 = false →
    let a := ((baseAddr s n ra).1 + imm.signExtend 32).toNat
    let m := ceData n a
    ∀ x ∈ [(Instr.lb (.ce n) rd ra imm, 1, true), (.lbu (.ce n) rd ra imm, 1, false), (.lh (.ce n) rd ra imm, 2, true),
        (.lhu (.ce n) rd ra imm, 2, false), (.lw (.ce n) rd ra imm, 4, false)],
      0x4000 ≤ a → a < 0x8000 → a % 4 + x.2.1 ≤ 4 → (∀ e ∈ (s.core n).sb, overlaps e a x.2.1 = false) → clring s m = false →
      ∃ t, exec x.1 s = .next t ∧ delivers s t n rd 3 (loadValue (s.bytesAt m x.2.1) x.2.2) ∧ wordRead s t m x.2.1 ∧
        stepped (s.core n) (t.core n) ∧ ∀ j, j ≠ n.val → t.core j = s.core j)

/-- The new address of a post-modify form (R166, R167): the linear sum, the place in the buffer at MBn of length LEN, or the sum
with the carries from the top bit downwards, which is the sum of the reversed offsets reversed. -/
def Obligations.post_modify_addresses : Prop :=
  (∀ (s : State) (c : Nat) (a : Word) (imm : BitVec 16) (sh : Nat),
    let n := fld (imm.zeroExtend 32) 14 13
    let inc := (imm.truncate 13).toInt
    let len := fld (ml s c n) 15 0
    let off := (a - mb s c n).toNat
    (imm.getLsbD 15 = false ∨ len = 0 → postAddr s c a imm sh = a + (imm.truncate 13).signExtend 32) ∧
    (imm.getLsbD 15 = true → len ≠ 0 → ¬ (bitOf (ml s c n) 16 = true ∧ ∃ k, 3 ≤ k ∧ k ≤ 12 ∧ len = 2 ^ k) →
      (((postAddr s c a imm sh - mb s c n).toNat : Int) = ((off : Int) + inc) % len)) ∧
    (∀ k, imm.getLsbD 15 = true → bitOf (ml s c n) 16 = true → 3 ≤ k → k ≤ 12 → len = 2 ^ k →
      postAddr s c a imm sh = mb s c n + wd (revadd (off % len) (wdi inc).toNat sh k))) ∧
    (∀ (off inc sh w : Nat),
      BitVec.ofNat w (revadd off inc sh (sh + w) / 2 ^ sh) =
        ((BitVec.ofNat w (off / 2 ^ sh)).reverse + (BitVec.ofNat w (inc / 2 ^ sh)).reverse).reverse ∧
      revadd off inc sh (sh + w) % 2 ^ sh = off % 2 ^ sh)

/-- A load outside an engine's own data memory, with no store to the interrupt controller before it, goes out as a far access, and the pc
stays, and takes with it the half of a split load that one entry of the store buffer holds; when its target answers, the load
delivers those bytes and the bytes of the memory, or the word of a peripheral register, and the core goes on; bytes that are corrected, poisoned or uncorrectable give their values
and tags, and the read is counted (R131, R136, R139, R141, R146, R226, R239, R240). -/
def Obligations.far_loads_complete : Prop :=
  (∀ (c : Core) (rd ra : Fin 32) (imm : BitVec 16) (s : State), issues s (coreNum c) = true →
    let n := coreNum c
    let b := (baseAddr s n ra).1
    (baseAddr s n ra).2 = false →
    ∀ x ∈ [(Instr.lb c rd ra imm, 1, true, b + imm.signExtend 32, none), (.lbu c rd ra imm, 1, false, b + imm.signExtend 32, none),
        (.lh c rd ra imm, 2, true, b + imm.signExtend 32, none), (.lhu c rd ra imm, 2, false, b + imm.signExtend 32, none),
        (.lw c rd ra imm, 4, false, b + imm.signExtend 32, none),
        (.lhp c rd ra imm, 2, true, b, some (ra.val, postAddr s n b imm 1)),
        (.lwp c rd ra imm, 4, false, b, some (ra.val, postAddr s n b imm 2))],
      let a := x.2.2.2.1.toNat
      (x.2.2.2.2 ≠ none → rd ≠ ra) → judge1 s n .load a x.2.1 = 0 → near n a = false →
      (∀ h ∈ halves a x.2.1, forward (s.core n).sb h.1 h.2 ≠ .wait) → (∃ h ∈ halves a x.2.1, forward (s.core n).sb h.1 h.2 = .none) →
      (∀ h ∈ halves a x.2.1, clring s (busAddr n h.1) = false) → irqcBuffered s n = false →
      ∃ t, exec x.1 s = .next t ∧ onlyCore s t n [] ∧
        ∃ q, t.core n = { s.core n with
          held := false, atM := false, skid := none, waited := 0,
          far := some { kind := .load x.2.1 x.2.2.1, addr := a, rd := rd, d := if a % 4 + x.2.1 ≤ 4 then 3 else 4, pc := (s.core n).pc,
                        upd := x.2.2.2.2, since := s.steady, order := claimOrder s, skid := q,
                        taken := (halves a x.2.1).map (fun h =>
                          match forward (s.core n).sb h.1 h.2 with | .bytes bs => some bs | _ => none) } }) ∧
  (∀ (c : Core) (o : FarOp) (k : Nat) (signed : Bool) (s : State),
    let n := coreNum c
    coreOff s n = false → (s.core n).far = some o → (s.core n).stepOne = false → o.kind = .load k signed → 1 < o.d →
    (∀ u ∈ o.upd, u.1 ≠ o.rd) → (k = 1 ∨ k = 2 ∨ k = 4) → 0x10000000 ≤ o.addr → o.addr + k ≤ 0x40000000 →
    (∀ i < k, (memOf (o.addr + i)).isSome = true) → clring s o.addr = false → clring s (o.addr + (k - 1)) = false →
    (∀ i < k, s.classAt (o.addr + i) = .clean) →
    let v := loadValue (((halves o.addr k).zipIdx).flatMap (fun h => (o.taken.getD h.2 none).getD (s.bytesAt h.1.1 h.1.2))) signed
    ∃ t, exec (.farAccessComplete c) s = .next t ∧ onlyCore s t n [] ∧
      stepped { s.core n with far := none } (t.core n) ∧
      regsSet s t n (match o.upd with | some (r, _) => r | none => 0) (match o.upd with | some (_, w) => (w, false) | none => (0, false)) ∧
      (o.rd ≠ 0 → (t.core n).infl.head? =
        some { idx := (s.core n).seq, d := o.d, reg := o.rd, val := v.1, poison := v.2 })) ∧
  (∀ (c : Core) (o : FarOp) (k : Nat) (signed : Bool) (s : State),
    let n := coreNum c
    coreOff s n = false → (s.core n).far = some o → (s.core n).stepOne = false → o.kind = .load k signed → 1 < o.d →
    o.upd = none → (k = 1 ∨ k = 2 ∨ k = 4) → o.addr % 4 + k ≤ 4 → (∀ h ∈ o.taken, h = none) → 0x10000000 ≤ o.addr →
    (memOf o.addr).isSome = true → clring s o.addr = false →
    let v := loadValue (s.bytesAt o.addr k) signed
    ∃ t, exec (.farAccessComplete c) s = .next t ∧ wordRead s t o.addr k ∧ stepped { s.core n with far := none } (t.core n) ∧
      (o.rd ≠ 0 → (t.core n).infl.head? =
        some { idx := (s.core n).seq, d := o.d, reg := o.rd, val := v.1, poison := v.2 }) ∧
      ∀ j, j ≠ n → t.core j = s.core j) ∧
  (∀ (c : Core) (o : FarOp) (s : State),
    let n := coreNum c
    let s1 := s.setCore n { s.core n with far := none }
    let x := readWord s1 n o.addr
    coreOff s n = false → (s.core n).far = some o → (s.core n).stepOne = false → o.kind = .load 4 false → 1 < o.d →
    o.upd = none → (∀ h ∈ o.taken, h = none) → periph o.addr = true → o.addr % 4 = 0 →
    (o.addr = claimAddr → 512 ≤ n → claimBefore s (n - 512) o.order = false) → x.2.cores = s1.cores →
    ∃ t, exec (.farAccessComplete c) s = .next t ∧ onlyCore x.2 t n [] ∧ stepped (s1.core n) (t.core n) ∧
      (o.rd ≠ 0 → (t.core n).infl.head? =
        some { idx := (s.core n).seq, d := o.d, reg := o.rd, val := x.1, poison := bankPoison s1 n o.addr }))

/-- A store puts its bytes, with the poison of its register, at the end of the store buffer, as two entries when it crosses a
4-byte boundary; the post-modify forms give the base its new address; no memory changes yet. With no room in the buffer the
instruction waits (R134, R138, R141, R165, R166). -/
def Obligations.stores_complete : Prop :=
  ∀ (c : Core) (rd ra : Fin 32) (imm : BitVec 16) (s : State), issues s (coreNum c) = true →
    let n := coreNum c
    let b := (baseAddr s n ra).1
    let v := reg s n rd
    let k := s.core n
    (baseAddr s n ra).2 = false →
    ∀ x ∈ [(Instr.sb c rd ra imm, 1, b + imm.signExtend 32, 0, (0 : Word)), (.sh c rd ra imm, 2, b + imm.signExtend 32, 0, 0),
        (.sw c rd ra imm, 4, b + imm.signExtend 32, 0, 0), (.shp c rd ra imm, 2, b, ra.val, postAddr s n b imm 1),
        (.swp c rd ra imm, 4, b, ra.val, postAddr s n b imm 2)],
      let a := x.2.2.1.toNat
      let entry (a i m : Nat) : SbEntry :=
        { idx := k.seq, commit := false, addr := a,
          bytes := (List.range m).map (fun j => (BitVec.ofNat 8 (v.1.toNat / 2 ^ (8 * (i + j))), v.2)) }
      let es := if a % 4 + x.2.1 ≤ 4 then [entry a 0 x.2.1]
        else [entry a 0 (4 - a % 4), entry ((a + (4 - a % 4)) % 2 ^ 32) (4 - a % 4) (x.2.1 - (4 - a % 4))]
      judge1 s n .store a x.2.1 = 0 → (v.2 = true → periph a = false ∧ (512 ≤ n → hwWindow a = false)) →
      (k.sb.length + es.length ≤ (if n < 512 then 4 else 8) →
        ∃ t, exec x.1 s = .next t ∧ regsSet s t n x.2.2.2.1 (x.2.2.2.2, false) ∧
          stepped { k with sb := k.sb ++ es } (t.core n) ∧ onlyCore s t n []) ∧
      ((if n < 512 then 4 else 8) < k.sb.length + es.length → ∃ t, exec x.1 s = .next t ∧ waits s t n)

/-- The oldest store-buffer entry reaches memory: its bytes stand there, poisoned ones as poison, every other byte of every
memory reads as before, and the buffer has one entry less (R138, R146, R235, R237). -/
def Obligations.store_buffer_drains : Prop :=
  ∀ (c : Core) (e : SbEntry) (rest : List SbEntry) (m : Nat) (s : State),
    let n := coreNum c
    let a := busAddr n e.addr
    (s.core n).sb = e :: rest → coreOff s n = false → (s.core n).yielding = false → e.commit = false →
    0x4000 ≤ e.addr → (∀ i < e.bytes.length, memOf (a + i) = some m) → (a / 8 = (a + e.bytes.length - 1) / 8) →
    (n < 512 → e.addr + e.bytes.length ≤ 0x8000 ∨ (0x10000000 ≤ e.addr ∧ e.addr < 0x11000000)) →
    e.bytes ≠ [] → (512 ≤ n → 0x10000000 ≤ e.addr) →
    s.bit .memStat m 0 7 = false → s.rdF .memFlip m 0 12 0 = 0 →
    ∃ t, exec (.storeBufferDrain c) s = .next t ∧ t.core n = { s.core n with sb := rest } ∧
      (∀ j, j ≠ n → t.core j = s.core j) ∧
      (∀ i < e.bytes.length, e.bytes[i]? = some (t.byteAt (a + i))) ∧
      (∀ x, x < a ∨ a + e.bytes.length ≤ x → t.byteAt x = s.byteAt x) ∧
      { t with mem := s.mem, chk := s.chk, vld := s.vld, cores := s.cores, regs := s.regs, pmu := s.pmu } = s ∧ regsKept s t []

/-- SWAP and CAS: the old word comes back at distance 3; SWAP stores its operand, CAS stores it only where the old word is the one
expected; every other byte is as before. On an engine's own data memory they complete at once; anywhere else, a row's memory or
supervisor SRAM, they go out as a far access, and do so when their target answers (R131, R136, R146, R168). The result of a CAS
is poisoned with the expected value too (log entry 60). -/
def Obligations.atomics_complete : Prop :=
  (∀ (n : Fin 512) (rd ra rb : Fin 32) (s : State), issues s n = true → (baseAddr s n ra).2 = false →
    let a := (baseAddr s n ra).1.toNat
    let m := ceData n a
    let old := (loadValue (s.bytesAt m 4) false).1
    let b := reg s n rb
    let d := reg s n rd
    0x4000 ≤ a → a < 0x8000 → a % 4 = 0 → (∀ e ∈ (s.core n).sb, overlaps e a 4 = false) → clring s m = false →
    (∀ i < 4, s.classAt (m + i) = .clean) → s.rdF .memFlip (2 * n + 1) 0 12 0 = 0 →
    ∀ x ∈ [(Instr.swap (.ce n) rd ra rb, true, false), (.cas (.ce n) rd ra rb, old == d.1, d.2)],
      ∃ t, exec x.1 s = .next t ∧ delivers s t n rd 3 (old, x.2.2) ∧ stepped (s.core n) (t.core n) ∧
        (∀ i < 4, t.byteAt (m + i) = if x.2.1 then (BitVec.ofNat 8 (b.1.toNat / 2 ^ (8 * i)), b.2) else s.byteAt (m + i)) ∧
        (∀ y, y < m ∨ m + 4 ≤ y → t.byteAt y = s.byteAt y) ∧
        onlyCore { s with mem := t.mem, chk := t.chk, vld := t.vld } t n []) ∧
  (∀ (c : Core) (rd ra rb : Fin 32) (s : State), issues s (coreNum c) = true →
    let n := coreNum c
    (baseAddr s n ra).2 = false →
    let a := (baseAddr s n ra).1.toNat
    let b := reg s n rb
    let d := reg s n rd
    judge1 s n .atomic a 4 = 0 → near n a = false → (∀ e ∈ (s.core n).sb, overlaps e a 4 = false) →
    clring s (busAddr n a) = false →
    ∀ x ∈ [(Instr.swap c rd ra rb, FarKind.swap b.1 b.2), (.cas c rd ra rb, .cas b.1 b.2 d.1 d.2)],
      ∃ t, exec x.1 s = .next t ∧ onlyCore s t n [] ∧ ∃ q,
        t.core n = { s.core n with held := false, atM := false, skid := none, waited := 0,
                                   far := some { kind := x.2, addr := a, rd := rd, d := 3, pc := (s.core n).pc, upd := none,
                                                 since := s.steady, order := claimOrder s, skid := q } }) ∧
  (∀ (c : Core) (o : FarOp) (b d : Word) (bp dp : Bool) (m : Nat) (s : State),
    let n := coreNum c
    let old := (loadValue (s.bytesAt o.addr 4) false).1
    coreOff s n = false → (s.core n).far = some o → (s.core n).stepOne = false →
    0x10000000 ≤ o.addr → o.addr < 0x40000000 → o.addr % 4 = 0 → memOf o.addr = some m → clring s o.addr = false →
    (∀ i < 4, s.classAt (o.addr + i) = .clean) → s.rdF .memFlip m 0 12 0 = 0 →
    ∀ x ∈ [(FarKind.swap b bp, true, false), (.cas b bp d dp, old == d, dp)], o.kind = x.1 →
      ∃ t, exec (.farAccessComplete c) s = .next t ∧ delivers s t n o.rd 3 (old, x.2.2) ∧
        stepped { s.core n with far := none } (t.core n) ∧
        (∀ i < 4, t.byteAt (o.addr + i) = if x.2.1 then (BitVec.ofNat 8 (b.toNat / 2 ^ (8 * i)), bp) else s.byteAt (o.addr + i)) ∧
        (∀ y, y < o.addr ∨ o.addr + 4 ≤ y → t.byteAt y = s.byteAt y) ∧
        onlyCore { s with mem := t.mem, chk := t.chk, vld := t.vld } t n [])

/-- Accesses that are refused, and poison that is consumed. A load, store or atomic that its core may not make, a poisoned base, poisoned
data of a store to a peripheral register, a poisoned branch condition, jump target or MTCR source, and a fetch that is refused
or finds a poisoned byte, stop an engine with their cause, and on a supervisor enter the handler of codes 4 to 7, with the address; the
order of the faults of one access, the table of targets, and the regions of the MPU (R135, R141, R147, R152, R197–R199,
R201, R204, R216, R243). -/
def Obligations.access_faults_and_poison : Prop :=
  (∀ (c : Core) (rd ra rb : Fin 32) (imm : BitVec 16) (off : BitVec 21) (j : Fin 64) (s : State),
    issues s (coreNum c) = true → faultable s (coreNum c) →
    let n := coreNum c
    let b := baseAddr s n ra
    let a := b.1 + imm.signExtend 32
    let v := reg s n rd
    (∀ x ∈ [(Instr.lb c rd ra imm, AccOp.load, 1, a), (.lbu c rd ra imm, .load, 1, a), (.lh c rd ra imm, .load, 2, a),
        (.lhu c rd ra imm, .load, 2, a), (.lw c rd ra imm, .load, 4, a), (.sb c rd ra imm, .store, 1, a),
        (.sh c rd ra imm, .store, 2, a), (.sw c rd ra imm, .store, 4, a), (.shp c rd ra imm, .store, 2, b.1),
        (.swp c rd ra imm, .store, 4, b.1), (.swap c rd ra rb, .atomic, 4, b.1), (.cas c rd ra rb, .atomic, 4, b.1),
        (.lhp c rd ra imm, .load, 2, b.1), (.lwp c rd ra imm, .load, 4, b.1)],
      x.1 ≠ .lhp c ra ra imm → x.1 ≠ .lwp c ra ra imm →
      (b.2 = true → ∃ t, exec x.1 s = .next t ∧ faulted s t n 4 7 x.2.2.2 b.1) ∧
      (let f := judge1 s n x.2.1 x.2.2.2.toNat x.2.2.1
       b.2 = false → f ≠ 0 → ∃ t, exec x.1 s = .next t ∧ faulted s t n (f - 2) f x.2.2.2 x.2.2.2) ∧
      (b.2 = false → x.2.1 = .store → judge1 s n .store x.2.2.2.toNat x.2.2.1 = 0 → v.2 = true →
        (periph x.2.2.2.toNat = true ∨ 512 ≤ n ∧ hwWindow x.2.2.2.toNat = true) →
        ∃ t, exec x.1 s = .next t ∧ faulted s t n 4 7 0 x.2.2.2)) ∧
    ((reg s n ra).2 = true → (s.core n).slot = none → ∀ i ∈ [Instr.bez c ra off, .bnz c ra off, .jr c ra, .jalr c rd ra],
      ∃ t, exec i s = .next t ∧ faulted s t n 4 7 0 0) ∧
    ((reg s n ra).2 = true → (512 ≤ n → svPriv s (n - 512) = true) →
      ∃ t, exec (.mtcr c j ra) s = .next t ∧ faulted s t n 4 7 0 0)) ∧
  (∀ (c : Core) (i : Instr) (s : State), i.core? = some c → atIssue s (coreNum c) = true → faultable s (coreNum c) →
    let n := coreNum c
    let k := s.core n
    let m := if n < 512 then memBase (2 * n) + k.pc else k.pc
    let f := if k.pc % 4 ≠ 0 ∧ ¬ (512 < n ∧ hwWindow k.pc = true) then 4 else judge1 s n .fetch k.pc 4
    k.divU = none → k.corU = none → k.atM = false → k.held = false →
    (f ≠ 0 → ∃ t, exec i s = .next t ∧ faulted s t n (f - 2) f (wd k.pc) (wd k.pc)) ∧
    (f = 0 → clring s m = false → (memOf m).isSome = true → (∃ x < 4, (s.byteAt (m + x)).2 = true) →
      ∃ t, exec i s = .next t ∧ faulted s t n 4 7 0 (wd k.pc))) ∧
  (∀ (n sz a : Nat) (op : AccOp) (s : State), (sz = 1 ∨ sz = 2 ∨ sz = 4) → a < 2 ^ 32 →
    let hs := halves a sz
    let hw := hs.any (fun h => hwWindow h.1 || hwWindow (h.1 + h.2 - 1))
    let mis := (a % sz != 0 && (op == .atomic || hs.any (fun h => periph h.1))) ||
      (hw && op != .fetch && (sz != 2 || a % 2 != 0 || op == .atomic))
    let user (h : Nat × Nat) : Prop := svPriv s n = false ∧ 0x20000000 < h.1 + h.2 ∧ h.1 < 0x20001000
    (n < 512 → (hw = true → ceJudge s n op a sz = 5) ∧
      (hw = false → op = .atomic → a % 4 ≠ 0 → sz = 4 → ceJudge s n op a sz = 4) ∧
      (hw = false → 0x8000 ≤ a → a + sz ≤ 0x10000000 → a % 4 + sz ≤ 4 → op ≠ .atomic → ceJudge s n op a sz = 5) ∧
      (op ≠ .fetch → a + sz ≤ 0x4000 → a % sz = 0 → ceJudge s n op a sz = 5) ∧
      (op ≠ .fetch → 0x4000 ≤ a → a + sz ≤ 0x8000 → a % sz = 0 → ceJudge s n op a sz = 0)) ∧
    (hw = true → n ≠ 0 → svJudge s n op a sz = 5) ∧
    ((hw = false ∨ n = 0) → mis = true → svJudge s n op a sz = 4) ∧
    ((hw = false ∨ n = 0) → mis = false → (∃ h ∈ hs, mpuOk s n (svPriv s n) op h.1 = false ∨ user h) →
      svJudge s n op a sz = 6) ∧
    ((hw = false ∨ n = 0) → mis = false → svPriv s n = true → (∀ h ∈ hs, mpuOk s n true op h.1 = true) →
      svJudge s n op a sz = if ∀ h ∈ hs, busOk s op h.1 h.2 = true then 0 else 5)) ∧
  (∀ (n a : Nat) (op : AccOp) (s : State),
    let holds (r : Nat) : Prop := s.bit .svCr n (32 + r) 0 = true ∧ 64 * s.rdF .svCr n (32 + r) 31 6 ≤ a ∧
      a < 64 * s.rdF .svCr n (48 + r) 31 6
    ((∀ r < 16, ¬ holds r) → ∀ priv, mpuOk s n priv op a = priv) ∧
    (∀ r < 16, holds r → (∀ q < r, ¬ holds q) →
      let right (b : Nat) : Bool := s.bit .svCr n (32 + r) b
      (mpuOk s n false op a = match op with
        | .fetch => right 5 | .load => right 3 | .store => right 4 | .atomic => right 3 && right 4) ∧
      (s.bit .svCr n 2 2 = false → mpuOk s n true op a = true) ∧
      (s.bit .svCr n 2 2 = true → mpuOk s n true op a = match op with
        | .fetch => right 2 | .load => true | .store => right 1 | .atomic => right 1))) ∧
  (∀ (a sz : Nat) (op : AccOp) (s : State), (sz = 1 ∨ sz = 2 ∨ sz = 4) → a % 4 + sz ≤ 4 →
    let k := s.core ((a - 0x11000000) / 0x8000)
    (a < 0x40000 → busOk s op a sz = (op == .fetch || op == .load)) ∧
    (0x40000 ≤ a → a < 0x80000 ∨ 0x81000 ≤ a → a < 0x10000000 → busOk s op a sz = false) ∧
    (0x10000000 ≤ a → a < 0x11000000 → busOk s op a sz = (op != .fetch)) ∧
    (0x11000000 ≤ a → a < 0x12000000 → a % 0x8000 < 0x4000 → busOk s op a sz =
      (op == .load || op == .store && (k.mode == .idle || k.mode == .stopped) && !k.halted)) ∧
    (0x11000000 ≤ a → a < 0x12000000 → 0x4000 ≤ a % 0x8000 → busOk s op a sz = (op != .fetch)) ∧
    (0x12000000 ≤ a → a < 0x20000000 ∨ 0x20400000 ≤ a → a < 0x40000000 → busOk s op a sz = false) ∧
    (0x20000000 ≤ a → a < 0x20400000 → busOk s op a sz = true) ∧
    (0x40000000 ≤ a → a < 0x48000000 → op ≠ .load → busOk s op a sz = false) ∧
    (periph a = true → sz ≠ 4 ∨ op = .fetch ∨ op = .atomic → busOk s op a sz = false))

/-! ### The Soette set: branches, system instructions, exceptions -/

/-- Branches, jumps and calls: the next instruction is the delay slot, and execution goes on at the target after it, or past the
slot where a conditional branch is not taken; the link is the address past the slot (R131, R132, R169). -/
def Obligations.branches_complete : Prop :=
  ∀ (c : Core) (rd ra : Fin 32) (off : BitVec 21) (s : State), issues s (coreNum c) = true →
    let n := coreNum c
    let k := s.core n
    let a := (reg s n ra).1
    let dest := (wd k.pc + (off.signExtend 32 <<< 2)).toNat
    let past := (k.pc + 8) % 2 ^ 32
    k.slot = none →
    ((reg s n ra).2 = false → ∀ x ∈ [(Instr.bez c ra off, a == 0), (.bnz c ra off, a != 0)],
      ∃ t, exec x.1 s = .next t ∧ branched k (t.core n) (if x.2 then dest else past) ∧ regsSet s t n 0 (0, false) ∧
        onlyCore s t n []) ∧
    (∃ t, exec (.jmp c off) s = .next t ∧ branched k (t.core n) dest ∧ regsSet s t n 0 (0, false) ∧ onlyCore s t n []) ∧
    (∃ t, exec (.call c rd off) s = .next t ∧ branched k (t.core n) dest ∧ regsSet s t n rd (wd (k.pc + 8), false) ∧
      onlyCore s t n []) ∧
    ((reg s n ra).2 = false → a.toNat % 4 = 0 →
      (∃ t, exec (.jr c ra) s = .next t ∧ branched k (t.core n) a.toNat ∧ regsSet s t n 0 (0, false) ∧ onlyCore s t n []) ∧
      (∃ t, exec (.jalr c rd ra) s = .next t ∧ branched k (t.core n) a.toNat ∧ regsSet s t n rd (wd (k.pc + 8), false) ∧
        onlyCore s t n []))

/-- YIELD with an empty buffer ends the activation, COMMIT is an entry of the store buffer, CHECK reports the AEX bits that
CE_AEXM selects, FENCE with an empty buffer completes, WFI makes a privileged supervisor wait behind it until the interrupt
controller signals it (R138, R144, R149, R170, R171, R173, R174). WFI_END while nothing is signalled changes nothing, which is the model's
choice (log entry 2). -/
def Obligations.ordering_instructions_complete : Prop :=
  (∀ (n : Fin 512) (s : State), issues s n = true → (s.core n).slot = none → (s.core n).sb = [] →
    (∀ x < 4, (s.slot (n / 8) x).acts = []) →
    ∃ t, exec (.yield (.ce n)) s = .next t ∧ (t.core n).mode = .idle ∧ (t.core n).yielding = false ∧ (t.core n).infl = [] ∧
      (∀ j < 64, crPending t n j = none) ∧ ∀ r, r ≠ 0 → (∀ p ∈ (s.core n).infl, p.reg ≠ r) → reg t n r = reg s n r) ∧
  (∀ (n : Fin 512) (s : State), issues s n = true → (s.core n).slot = none → (s.core n).sb.length < 4 →
    ∃ t, exec (.commit (.ce n)) s = .next t ∧ regsSet s t n 0 (0, false) ∧ onlyCore s t n [] ∧
      stepped { s.core n with sb := (s.core n).sb ++ [{ idx := (s.core n).seq, commit := true, addr := 0, bytes := [] }] }
        (t.core n)) ∧
  (∀ (n : Fin 512) (s : State), issues s n = true →
    ∃ t, exec (.check (.ce n)) s = .next t ∧ stepped (s.core n) (t.core n) ∧ regsSet s t n 0 (0, false) ∧
      (let bits := fld (crAct s n 1) 3 0 &&& fld (crAct s n 2) 3 0
       fld (crAct t n 1) 3 0 + bits = fld (crAct s n 1) 3 0 ∧
       (bits = 0 → onlyCore s t n []) ∧
       (bits ≠ 0 → fld (crAct t n 1) 11 8 = bits ∧ t.bit .irqAexr (n / 8) 0 (n % 8) = true ∧
         (s.irqKeep = none → t.irq.edge = tput (fun _ => false) s.irq.edge (193 + n / 8) true)))) ∧
  (∀ (v : Fin 4) (s : State), issues s (512 + v) = true → svPriv s v = true → (s.core (512 + v)).sb = [] →
    ∃ t, exec (.fence (.sv v)) s = .next t ∧ stepped (s.core (512 + v)) (t.core (512 + v)) ∧
      regsSet s t (512 + v) 0 (0, false) ∧ onlyCore s t (512 + v) []) ∧
  (∀ (v : Fin 4) (s : State),
    let c := 512 + v.val
    (issues s c = true → svPriv s v = true → (s.core c).slot = none →
      ∃ t, exec (.wfi (.sv v)) s = .next t ∧ stepped { s.core c with mode := .wfi } (t.core c) ∧
        regsSet s t c 0 (0, false) ∧ onlyCore s t c []) ∧
    (up s = true → (s.core c).mode = .wfi → (s.core c).halted = false → signalled s v = true →
      ∃ t, exec (.wfiEnd v) s = .next t ∧ t.core c = { s.core c with mode := .active } ∧ onlyCore s t c []) ∧
    (signalled s v = false → exec (.wfiEnd v) s = .next s))

/-- MTCR writes a pending copy, which MFCR reads at once and SYNC makes active; the W1C bits of AEX act at once on an engine and with
the pending copy on a supervisor; MFCR delivers at distance 1, and of a supervisor's counter the present count (R143, R172, R202,
R359). A supervisor needs the privileged level. -/
def Obligations.control_registers_complete : Prop :=
  ∀ (c : Core) (rd ra : Fin 32) (j : Fin 64) (s : State), issues s (coreNum c) = true →
    let n := coreNum c
    let a := (reg s n ra).1
    let counter := 512 ≤ n ∧ 24 ≤ j.val ∧ j.val < 32
    (512 ≤ n → svPriv s (n - 512) = true) →
    ((reg s n ra).2 = false → ∃ t, exec (.mtcr c j ra) s = .next t ∧ stepped (s.core n) (t.core n) ∧
      regsSet s t n 0 (0, false) ∧ (crMask n j ≠ 0 → crPending t n j = some a) ∧ (crMask n j = 0 → t.crPend = s.crPend) ∧
      (¬ counter → crAct t n j = if j = 1 ∧ n < 512 then crAct s n j &&& ~~~(a &&& 0xF) else crAct s n j) ∧
      onlyCore { s with crPend := t.crPend } t n [crKey n 1] ∧ ∀ x, x ≠ 64 * n + j.val →
        tget (fun _ => none) t.crPend x = tget (fun _ => none) s.crPend x) ∧
    (∃ t, exec (.mfcr c rd j) s = .next t ∧ stepped (s.core n) (t.core n) ∧
      regsSet s t n rd ((match crPending s n j with
        | some v => if counter then crAct s n j
          else ((crAct s n j &&& ~~~(crMask n j)) ||| (v &&& crMask n j)) &&& ~~~(if 512 ≤ n ∧ j = 1 then v &&& 0xF else 0)
        | none => crAct s n j), false) ∧ onlyCore s t n []) ∧
    ((s.core n).slot = none → ∃ t, exec (.sync c) s = .next t ∧ stepped (s.core n) (t.core n) ∧
      regsSet s t n 0 (0, false) ∧ crPending t n j = none ∧ (¬ counter → crAct t n j = crRead s n j))

/-- SVC, a reserved opcode and an illegal word on a supervisor take their exceptions: code 9 with the address of the next instruction and
CODE, code 3 with the word, code 1; a privileged instruction at user level is a privilege violation, code 2, and has no effect of its
own (R157, R173, R200, R204, R206). -/
def Obligations.supervisor_traps_enter_handlers : Prop :=
  (∀ (v : Fin 4) (code : BitVec 20) (w : Word) (s : State), issues s (512 + v) = true → settled s (512 + v) = true →
      let k := s.core (512 + v)
      let sp := (reg s (512 + v) 31).1.toNat
      sramQuiet s = true → stackOk s v sp = true →
      (k.slot = none → ∃ t, exec (.svc (.sv v) code) s = .next t ∧
        entered s t v 9 ((k.pc + 4) % 2 ^ 32) (code.zeroExtend 32) sp) ∧
      (k.slot = none → judgeWord (.sv v) w = some (.reservedOpcode (.sv v) w) →
        ∃ t, exec (.reservedOpcode (.sv v) w) s = .next t ∧ entered s t v 3 k.pc w sp) ∧
      (judgeWord (.sv v) w = none → ∃ t, exec (.illegalOpcode (.sv v) w) s = .next t ∧ entered s t v 1 k.pc 0 sp)) ∧
  (∀ (v : Fin 4) (rd ra rb : Fin 32) (j : Fin 64) (s : State), issues s (512 + v) = true → settled s (512 + v) = true →
      let c := 512 + v.val
      let sp := (reg s c 31).1.toNat
      svPriv s v = false → (s.core c).slot = none → sramQuiet s = true → stackOk s v sp = true →
      ∀ i ∈ [Instr.mtcr (.sv v) j ra, .mfcr (.sv v) rd j, .eret (.sv v), .wfi (.sv v), .fence (.sv v), .bcpy (.sv v) rd ra rb,
          .bset (.sv v) rd ra rb, .bcrc (.sv v) rd ra rb, .cload (.sv v) rd ra rb],
        ∃ t, exec i s = .next t ∧ entered s t v 2 (s.core c).pc 0 sp)

/-- At a boundary a supervisor takes the first case that is due: a non-maskable kind while NMIA is 0, then a priority-stack
fault, then a signalled interrupt while IE is 1; an access that waits at M completes before any of them (R205, R206). EXCEPTION_ENTRY with no case
due changes nothing, which is the model's choice (log entry 2). -/
def Obligations.exception_entry_completes : Prop :=
  (∀ (v : Fin 4) (s : State),
    let c := 512 + v.val
    let k := s.core c
    let sp := (reg s c 31).1.toNat
    up s = true → k.halted = false → k.atM = false → (k.mode = .active ∨ k.mode = .wfi) → k.far = none → k.slot = none → k.divU = none →
    k.corU = none → settled s c = true → sramQuiet s = true → stackOk s v sp = true →
    (∀ i < 8, k.nmi.testBit i = true → (∀ j < i, k.nmi.testBit j = false) → k.nmi < 256 → s.bit .svCr v 2 6 = false →
      ∃ t, exec (.exceptionEntry v) s = .next t ∧ entered s t v 12 k.pc (wd i) sp ∧ (t.core c).nmi = k.nmi - 2 ^ i) ∧
    (k.nmi = 0 → k.psf = true → ∃ t, exec (.exceptionEntry v) s = .next t ∧
      entered s t v 10 k.pc (s.rd .irqSflt v 0 &&& 0x03FF03FF) sp ∧ (t.core c).psf = false) ∧
    (k.nmi = 0 → k.psf = false → s.bit .svCr v 2 1 = true → signalled s v = true →
      ∃ t, exec (.exceptionEntry v) s = .next t ∧ entered s t v 13 k.pc 0 sp) ∧
    (k.nmi = 0 → k.psf = false → (s.bit .svCr v 2 1 && signalled s v) = false → exec (.exceptionEntry v) s = .next s)) ∧
  (∀ (v : Fin 4) (u : State), (u.core (512 + v)).atM = true → exec (.exceptionEntry v) u = .next u)

/-- A frame that does not pass the stack check of R210 is a stack fault: the fault's frame stands in the emergency area, code 11
has the failed code in EADDR and the stack pointer in its own register; with EMG at 1 the supervisor is locked out (R210–R212). -/
def Obligations.stack_faults : Prop :=
  ∀ (v : Fin 4) (w : Word) (s : State), issues s (512 + v) = true → settled s (512 + v) = true →
    let c := 512 + v.val
    let sp := (reg s c 31).1
    sramQuiet s = true → judgeWord (.sv v) w = none → stackOk s v sp.toNat = false →
    (s.bit .svCr v 2 4 = false → ∃ t, exec (.illegalOpcode (.sv v) w) s = .next t ∧ crAct t c 10 = sp ∧
      entered (s.wr .svCr v 10 sp) t v 11 (s.core c).pc 1 (0x20000000 + 0x400 * v)) ∧
    (s.bit .svCr v 2 4 = true → ∃ t, exec (.illegalOpcode (.sv v) w) s = .next t ∧ (t.core c).mode = .lockedOut ∧
      crAct t c 10 = sp ∧ t.mem = s.mem ∧ t.bit .fmFlt 0 0 0 = true)

/-- ERET of a supervisor restores pc, ST, G1–G10, G31 and the delay slot from the frame below G31; on an engine it returns behind the
emulated instruction. After SVC and ERET the supervisor stands behind the SVC with its ST, its general registers and every byte
outside the frame as they were (R151, R206, R208). -/
def Obligations.eret_completes : Prop :=
  (∀ (v : Fin 4) (s : State), issues s (512 + v) = true → settled s (512 + v) = true →
    let c := 512 + v.val
    let k := s.core c
    let a := (reg s c 31).1.toNat - 64
    let w (i : Nat) : Tagged := loadValue (s.bytesAt (a + 4 * i) 4) false
    svPriv s v = true → k.slot = none → sramQuiet s = true → 64 ≤ (reg s c 31).1.toNat → stackOk s v a = true →
    (∀ i < 64, s.classAt (a + i) = .clean) →
    ∃ t, exec (.eret (.sv v)) s = .next t ∧ (t.core c).pc = (w 0).1.toNat ∧ crAct t c 2 = (w 1).1 &&& 0x5F ∧
      (t.core c).slot = (if bitOf (w 1).1 5 then some (w 4).1.toNat else none) ∧
      (∀ r, reg t c r = if r = 0 then (0, false) else if r ≤ 10 then w (4 + r) else if r = 31 then w 15 else reg s c r) ∧
      onlyCore s t c [crKey c 2]) ∧
  (∀ (n : Fin 512) (s : State), issues s n = true → (s.core n).slot = none → bitOf (crAct s n 4) 31 = true →
    ∃ t, exec (.eret (.ce n)) s = .next t ∧ (t.core n).pc = 4 * fld (crAct s n 4) 13 2 + 4 ∧
      bitOf (crAct t n 4) 31 = false ∧ (t.core n).seq = (s.core n).seq + 1 ∧ regsSet s t n 0 (0, false) ∧
      onlyCore s t n [crKey n 4]) ∧
  (∀ (v : Fin 4) (code : BitVec 20) (s t : State), issues s (512 + v) = true → settled s (512 + v) = true →
    let c := 512 + v.val
    let sp := (reg s c 31).1.toNat
    (s.core c).slot = none → sramQuiet s = true → stackOk s v sp = true → (reg s c 31).2 = false → (∀ r ≤ 10, (reg s c r).2 = false) →
    exec (.svc (.sv v) code) s = .next t → issues t c = true →
    ∃ u, exec (.eret (.sv v)) t = .next u ∧ (u.core c).pc = ((s.core c).pc + 4) % 2 ^ 32 ∧
      (∀ r, reg u c r = reg s c r) ∧ crAct u c 2 = crAct s c 2 &&& 0x5F ∧ (u.core c).slot = none ∧
      ∀ x, x < sp ∨ sp + 64 ≤ x → u.byteAt x = s.byteAt x)

/-- An engine and the words that are no instruction of it: a reserved opcode goes to the emulation vector when one is given and none is
under way, and otherwise stops it like an illegal word; the imprecise faults stop it with causes 6 and 7 and PREC at 0, and what its
instructions not yet past W and its side units would have written does not come (log entry 38); a supervisor's
clear of STOP makes it Idle (R144, R151–R153, R157). -/
def Obligations.engine_traps_and_stops : Prop :=
  (∀ (n : Fin 512) (w : Word) (s : State), issues s n = true → (s.core n).sb = [] →
      let k := s.core n
      (k.slot = none → judgeWord (.ce n) w = some (.reservedOpcode (.ce n) w) → bitOf (crAct s n 3) 31 = true →
        bitOf (crAct s n 4) 31 = false →
        ∃ t, exec (.reservedOpcode (.ce n) w) s = .next t ∧ (t.core n).pc = 4 * fld (crAct s n 3) 13 2 ∧
          bitOf (crAct t n 4) 31 = true ∧ fld (crAct t n 4) 13 2 = k.pc / 4 % 2 ^ 12 ∧ crAct t n 5 = w ∧
          (t.core n).mode = .active ∧ regsSet s t n 0 (0, false) ∧ onlyCore s t n [crKey n 4, crKey n 5]) ∧
      (judgeWord (.ce n) w = none →
        ∃ t, exec (.illegalOpcode (.ce n) w) s = .next t ∧ (t.core n).mode = .stopped ∧
          fld (t.rd .ceCr n 6) 5 0 = 1 + 2 * 1 + 32 ∧ t.rd .ceCr n 7 = wd (k.pc % 0x4000)) ∧
      (judgeWord (.ce n) w = some (.reservedOpcode (.ce n) w) →
        (bitOf (crAct s n 3) 31 = false ∨ bitOf (crAct s n 4) 31 = true) →
        ∃ t, exec (.reservedOpcode (.ce n) w) s = .next t ∧ (t.core n).mode = .stopped ∧
          fld (t.rd .ceCr n 6) 5 0 = 1 + 2 * 1 + 32 ∧ t.rd .ceCr n 7 = wd (k.pc % 0x4000))) ∧
  (∀ (n : Fin 512) (s : State),
      (let k := s.core n
       k.mode = .active → k.halted = false → s.dark = false →
        ∀ x ∈ [(Instr.ceSelfCheck n, 6), (.ceWatchdog n, 7)],
          let cut := k.seq - (if k.far.isSome || k.atM then 0 else 3 - k.waited)
          ∃ t, exec x.1 s = .next t ∧ (t.core n).mode = .stopped ∧ fld (t.rd .ceCr n 6) 5 0 = 1 + 2 * x.2 ∧ t.rd .ceCr n 8 = 0 ∧
            (t.core n).divU = none ∧ (t.core n).corU = none ∧ (t.core n).far = none ∧
            (slotOf s n = none → t.mem = s.mem ∧ (t.core n).sb = k.sb.filter (fun e => decide (e.idx < cut))) ∧
            ∀ r, r ≠ 0 → (t.core n).infl = [] ∧ tget (fun _ => (0, false)) (t.core n).base r =
              (match k.infl.find? (fun p => p.reg == r && decide (p.idx < cut)) with
                | some p => (p.val, p.poison)
                | none => tget (fun _ => (0, false)) k.base r)) ∧
      (∀ x ∈ [Instr.ceSelfCheck n, .ceWatchdog n], (s.core n).mode ≠ .active ∨ s.dark = true → exec x s = .next s) ∧
      ((s.core n).halted = true → (s.core n).stepOne = false → exec (.ceWatchdog n) s = .next s) ∧
      (up s = true → (s.core n).mode = .stopped →
        ∃ t, exec (.ceStopClear n) s = .next t ∧ (t.core n).mode = .idle ∧ t.bit .ceCr n 6 0 = false ∧
          t.rdF .ceCr n 6 31 1 = s.rdF .ceCr n 6 31 1 ∧ onlyCore s t n [crKey n 6]))

/-- With PRECISE at 1 an instruction that sets OVF, DZ or INV stops an engine with cause 5 and its AEX bits, and a supervisor takes the
exception of code 8 with its AEX bits in EADDR; the destination keeps its value (R148, R150, R152, R203, R204). -/
def Obligations.precise_arithmetic_traps : Prop :=
  ∀ (c : Core) (rd ra rb : Fin 32) (s : State), issues s (coreNum c) = true → precise s (coreNum c) = true →
    let n := coreNum c
    let a := (reg s n ra).1
    let b := (reg s n rb).1
    let d := (reg s n rd).1
    let half (w : Word) : Int := (w.truncate 16).toInt
    let q := (a.toInt * b.toInt + 2 ^ 30) / 2 ^ 31
    let h := (half a * half b + 2 ^ 14) / 2 ^ 15
    let out (v : Int) (m : Nat) : Nat := if -2 ^ m ≤ v ∧ v < 2 ^ m then 0 else 4
    ((reg s n ra).2 || (reg s n rb).2 || (reg s n rd).2) = false →
    ∀ x ∈ [(Instr.addo c rd ra rb, out (a.toInt + b.toInt) 31), (.subo c rd ra rb, out (a.toInt - b.toInt) 31),
        (.qmul c rd ra rb, out q 31), (.qmac c rd ra rb, out (d.toInt + q) 31), (.hmul c rd ra rb, out h 15),
        (.hmac c rd ra rb, out (half d + h) 15),
        (.div c rd ra rb, if b = 0 then 1 else if a = 0x80000000 ∧ b = 0xFFFFFFFF then 4 else 0),
        (.divu c rd ra rb, if b = 0 then 1 else 0), (.fdiv c rd ra rb, (fDiv a b).aex), (.fsqrt c rd ra, (fSqrt a).aex),
        (.recip c rd ra, (fDiv 0x3F800000 a).aex), (.fadd c rd ra rb, (fAdd a b).aex),
        (.fsub c rd ra rb, (fAdd a (b ^^^ 0x80000000)).aex), (.fmul c rd ra rb, (fMul a b).aex),
        (.fma c rd ra rb, (fMa a b d).aex), (.fmin c rd ra rb, (fMinMax false a b).aex),
        (.fmax c rd ra rb, (fMinMax true a b).aex), (.fceq c rd ra rb, (fCeq a b).aex), (.fclt c rd ra rb, (fClt a b).aex),
        (.fcle c rd ra rb, (fCle a b).aex), (.fftoi c rd ra, (fFtoi a).aex),
        (.ftoq c rd ra, if (fToq a).aex = 2 then 2 else 0)],
      x.2 ≠ 0 →
      (n < 512 → (s.core n).sb = [] →
        ∃ t, exec x.1 s = .next t ∧ (t.core n).mode = .stopped ∧ fld (t.rd .ceCr n 6) 5 0 = 1 + 2 * 5 + 32 ∧
          t.rd .ceCr n 1 = s.rd .ceCr n 1 ||| wd x.2 ∧ ((s.core n).infl = [] → reg t n rd = reg s n rd)) ∧
      (512 ≤ n → settled s n = true → sramQuiet s = true → stackOk s (n - 512) (reg s n 31).1.toNat = true →
        ∃ t, exec x.1 s = .next t ∧ crAct t n 1 = crAct s n 1 ||| wd x.2 ∧
          entered s t (n - 512) 8 (s.core n).pc (wd (fld (crAct s n 1 ||| wd x.2) 3 0)) (reg s n 31).1.toNat)

/-- The long instructions of a privileged supervisor: a count of 0 completes at once with ST.LI at 0, any other begins the steps; a step
of BCPY or BSET moves or fills up to 8 bytes with their poison, one of BCRC takes up to 8 bytes into the accumulator, one of CLOAD
loads one Cask entry; each counts its registers on and ends the instruction when nothing is left, and no other byte changes; the check
value of the CRC (R175, R176). -/
def Obligations.long_instructions_complete : Prop :=
  (∀ (v : Fin 4) (rd ra rb : Fin 32) (s : State), issues s (512 + v) = true →
      let c := 512 + v.val
      let k := s.core c
      let d := reg s c rd
      let a := reg s c ra
      let b := reg s c rb
      svPriv s v = true → k.slot = none → k.sb = [] → b.2 = false →
      ∀ x ∈ [(Instr.bcpy (.sv v) rd ra rb, LongKind.bcpy), (.bset (.sv v) rd ra rb, .bset), (.bcrc (.sv v) rd ra rb, .bcrc),
          (.cload (.sv v) rd ra rb, .cload)],
        (x.2 ≠ .bcrc → d.2 = false ∧ d.1.toNat % 8 = 0) → (x.2 ≠ .bset → a.2 = false) →
        (x.2 = .bcpy ∨ x.2 = .bcrc → a.1.toNat % 8 = 0) →
        (b.1 = 0 → ∃ t, exec x.1 s = .next t ∧ stepped k (t.core c) ∧ regsSet s t c 0 (0, false) ∧
          bitOf (crAct t c 2) 3 = false ∧ onlyCore s t c [crKey c 2]) ∧
        (b.1 ≠ 0 → ∃ t, exec x.1 s = .next t ∧ onlyCore s t c [] ∧
          t.core c = { k with held := false, skid := none,
                              long := some { kind := x.2, rd := rd, ra := ra, rb := rb, skid := k.skid } })) ∧
  (∀ (v : Fin 4) (o : LongOp) (s : State),
      let c := 512 + v.val
      let k := s.core c
      let d := (reg s c o.rd).1
      let a := (reg s c o.ra).1
      let b := (reg s c o.rb).1
      let m := Nat.min b.toNat 8
      let p (r : Nat) : Bool := (reg s c r).2
      let sram (x n : Nat) : Prop := x % 8 = 0 ∧ 0x20000000 ≤ x ∧ x + n ≤ 0x20400000
      let counted (t : State) (n : Nat) : Prop :=
        reg t c o.rb = (b - wd n, p o.rb) ∧ bitOf (crAct t c 2) 3 = decide (b.toNat ≠ n) ∧
          (b.toNat = n → (t.core c).long = none ∧ (t.core c).pc = (k.pc + 4) % 2 ^ 32) ∧
          (b.toNat ≠ n → (∃ q, (t.core c).long = some { o with skid := q }) ∧ (t.core c).pc = k.pc)
      up s = true → k.mode = .active → k.halted = false → k.long = some o → dueEntry s v = none → k.slot = none → b ≠ 0 →
      k.infl = [] → o.rd ≠ 0 → o.ra ≠ 0 → o.rb ≠ 0 → o.rd ≠ o.ra → o.rd ≠ o.rb → o.ra ≠ o.rb → sramQuiet s = true →
      (sram d.toNat m → stepJudge s v .store d.toNat m = 0 →
        (o.kind = .bset ∨ (o.kind = .bcpy ∧ sram a.toNat m ∧ stepJudge s v .load a.toNat m = 0 ∧
          ∀ i < m, s.classAt (a.toNat + i) = .clean)) →
        ∃ t, exec (.longStep v) s = .next t ∧
          (∀ i < m, t.byteAt (d.toNat + i) =
            if o.kind = .bset then (BitVec.ofNat 8 (a.toNat / 2 ^ (8 * (i % 4))), p o.ra)
            else s.byteAt (a.toNat + i)) ∧
          (∀ x, x < d.toNat ∨ d.toNat + m ≤ x → t.byteAt x = s.byteAt x) ∧
          reg t c o.rd = (d + wd m, p o.rd) ∧ reg t c o.ra = (if o.kind = .bset then a else a + wd m, p o.ra) ∧
          counted t m ∧ ∀ j, j ≠ c → t.core j = s.core j) ∧
      (o.kind = .bcrc → sram a.toNat m → stepJudge s v .load a.toNat m = 0 →
        (∀ i < m, s.classAt (a.toNat + i) = .clean ∨ s.classAt (a.toNat + i) = .poison) →
        ∃ t, exec (.longStep v) s = .next t ∧
          reg t c o.rd = (((s.bytesAt a.toNat m).map (·.1)).foldl crcByte d,
            p o.rd || (s.bytesAt a.toNat m).any (·.2)) ∧
          reg t c o.ra = (a + wd m, p o.ra) ∧ counted t m ∧ (∀ x, t.byteAt x = s.byteAt x) ∧
          ((∀ i < m, s.classAt (a.toNat + i) = .clean) → onlyCore s t c [crKey c 2])) ∧
      (∀ x, o.kind = .cload → a.toNat ≤ 16777215 → sram d.toNat 8 → stepJudge s v .load (entryAddr a) 8 = 0 →
        stepJudge s v .store d.toNat 8 = 0 → decodeEntry (s.ckData a.toNat) (s.ckErr a.toNat) = (.clean, x) →
        ∃ t, exec (.longStep v) s = .next t ∧
          (∀ i < 8, t.byteAt (d.toNat + i) = (BitVec.ofNat 8 (x.toNat / 2 ^ (8 * i)), false)) ∧
          (∀ y, y < d.toNat ∨ d.toNat + 8 ≤ y → t.byteAt y = s.byteAt y) ∧
          reg t c o.rd = (d + 8, p o.rd) ∧ reg t c o.ra = (a + 1, p o.ra) ∧ counted t 1 ∧
          ∀ j, j ≠ c → t.core j = s.core j)) ∧
  ~~~([0x31, 0x32, 0x33, 0x34, 0x35, 0x36, 0x37, 0x38, 0x39].foldl crcByte 0xFFFFFFFF) = 0xCBF43926

/-! ### General registers, arithmetic reports, interrupts -/

/-- G0 reads 0, carries no poison and discards every write; G1–G31 each hold 32 bits and one poison tag (R129). -/
def Obligations.general_registers : Prop :=
  (∀ (s : State) (n : Nat), reg s n 0 = (0, false)) ∧
    (∀ (c : Core) (ra rb rc : Fin 32) (s : State), issues s (coreNum c) = true →
      ∃ t, exec (.sel c 0 ra rb rc) s = .next t ∧ regsSet s t (coreNum c) 0 (0, false)) ∧
    (∀ (c : Core) (rd ra : Fin 32) (s : State), issues s (coreNum c) = true → rd ≠ 0 →
      ∃ t, exec (.or c rd ra ra) s = .next t ∧ reg t (coreNum c) rd = reg s (coreNum c) ra)

/-- An arithmetic report of engine n, which CHECK and YIELD make of the AEX bits that CE_AEXM selects, sets its bit of
IRQ_AEXR[n/8].CEMASK, ORs the reported bits into BITS, increases COUNT up to 255 and sets the edge latch of source 193 + n/8; what
earlier reports left stays (R233, R149; with no copy of the controller held for Hold, R231). -/
def Obligations.arithmetic_reports : Prop :=
  ∀ (n : Fin 512) (s : State), issues s n = true → s.irqKeep = none →
    let k := n.val / 8
    let bits := fld (crAct s n 1) 3 0 &&& fld (crAct s n 2) 3 0
    bits ≠ 0 → ∀ i ∈ [Instr.check (.ce n), .yield (.ce n)],
    (i = .yield (.ce n) → (s.core n).slot = none ∧ (s.core n).sb = []) →
    ∃ t, exec i s = .next t ∧ t.edge (193 + k) = true ∧
      (∀ e < 8, t.bit .irqAexr k 0 e = (s.bit .irqAexr k 0 e || e == n.val % 8)) ∧
      t.rdF .irqAexr k 0 11 8 = s.rdF .irqAexr k 0 11 8 ||| bits ∧
      t.rdF .irqAexr k 0 19 12 = Nat.min (s.rdF .irqAexr k 0 19 12 + 1) 255

/-- Claims, completions, software sources and the clears of the interrupt controller: a claim takes the signalling source of the highest
priority, then of the lowest ID, and pushes it; none leaves everything and reads 0; a claim behind a buffered IRQ_DONE is the claim after
that completion, and one behind another core's earlier claim waits, in the order of arrival also while no tick is given; a completion of the top pops it, any other value is a priority-stack fault (R220, R222, R225–R228, R231, R233). -/
def Obligations.interrupt_commands_complete : Prop :=
  (∀ (n m : Fin 4) (o p : FarOp) (s : State), n ≠ m → (s.core (512 + m)).far = some p → p.addr = claimAddr →
    coreOff s (512 + m) = false →
    ((s.core (512 + n)).far = some o → o.addr = claimAddr → p.order < o.order →
      exec (.farAccessComplete (.sv n)) s = .next s) ∧
    ((s.core (512 + n)).far = none → irqcBuffered s (512 + n) = false →
      (s.timeOk = false ∨ ∀ j < 4, ∀ q ∈ (s.core (512 + j)).far, q.since ≠ s.steady) →
      p.order < claimOrder s ∧ exec (.irqClaim n) s = .next s)) ∧
  (∀ (n : Fin 4) (id : Nat) (s : State), coreOff s (512 + n) = false → irqcBuffered s (512 + n) = false →
    claimBefore s n (claimOrder s) = false → signals s n id = true →
    (∀ j < 1024, signals s n j = true → s.rdF .irqPrio j 0 3 0 < s.rdF .irqPrio id 0 3 0 ∨
      (s.rdF .irqPrio j 0 3 0 = s.rdF .irqPrio id 0 3 0 ∧ id ≤ j)) →
    ∃ t, exec (.irqClaim n) s = .next t ∧ t.serv id = n + 1 ∧ t.edge id = false ∧
      t.stack n = (id, s.rdF .irqPrio id 0 3 0) :: s.stack n ∧ s.runPrio n < s.rdF .irqPrio id 0 3 0 ∧
      bytesWord (tget (fun _ => {}) t.resp (512 + n)).data = wd id ∧ { t with irq := s.irq, resp := s.resp } = s) ∧
  (∀ (n : Fin 4) (s : State), coreOff s (512 + n) = false → irqcBuffered s (512 + n) = false →
    (claimBefore s n (claimOrder s) = true → exec (.irqClaim n) s = .next s) ∧
    (claimBefore s n (claimOrder s) = false → (∀ j < 1024, signals s n j = false) →
    ∃ t, exec (.irqClaim n) s = .next t ∧ bytesWord (tget (fun _ => {}) t.resp (512 + n)).data = 0 ∧
      { t with regs := s.regs, resp := s.resp } = s ∧ regsKept s t [])) ∧
  (∀ (n : Fin 4) (v : Word) (idx : Nat) (s : State), coreOff s (512 + n) = false → (s.core (512 + n)).yielding = false →
    (s.core (512 + n)).sb = [{ idx := idx, commit := false, addr := Reg.irqDone.addr 0 0, bytes := wordBytes v false }] →
    ∃ t, exec (.storeBufferDrain (.sv n)) s = .next t ∧ (t.core (512 + n)).sb = [] ∧
      exec (.irqClaim n) s = exec (.irqClaim n) t) ∧
  (∀ (n : Fin 4) (v : Word) (id p : Nat) (rest : List (Nat × Nat)) (s : State), up s = true →
    s.stack n = (id, p) :: rest →
    (fld v 9 0 = id → ∃ t, exec (.irqDone n v) s = .next t ∧ t.serv id = 0 ∧ t.stack n = rest ∧ t.irq.edge = s.irq.edge ∧
      { t with irq := s.irq } = s) ∧
    (fld v 9 0 ≠ id → id < 1024 → ∃ t, exec (.irqDone n v) s = .next t ∧ t.irq = s.irq ∧ (t.core (512 + n)).psf = true ∧
      t.rdF .irqSflt n 0 9 0 = fld v 9 0 ∧ t.rdF .irqSflt n 0 25 16 = id)) ∧
  (∀ (n : Fin 4) (v : Word) (s : State), up s = true → s.stack n = [] →
    (fld v 9 0 = 0 → exec (.irqDone n v) s = .next s) ∧
    (fld v 9 0 ≠ 0 → ∃ t, exec (.irqDone n v) s = .next t ∧ t.irq = s.irq ∧ (t.core (512 + n)).psf = true ∧
      t.rdF .irqSflt n 0 9 0 = fld v 9 0 ∧ t.rdF .irqSflt n 0 25 16 = 0)) ∧
  (∀ (v : Word) (s : State), up s = true → s.irqKeep = none →
    ∃ t, exec (.irqSwset v) s = .next t ∧ (∀ b < 16, t.edge (1008 + b) = (s.edge (1008 + b) || bitOf v b)) ∧
      { t with irq := s.irq } = s ∧ t.irq.serv = s.irq.serv ∧ t.irq.stack = s.irq.stack) ∧
  (∀ (n : Fin 4) (s : State), ∃ t, exec (.irqSclr n) s = .next t ∧ t.stack n = [] ∧ (∀ e ∈ s.stack n, t.serv e.1 = 0) ∧
    t.irq.edge = s.irq.edge ∧ { t with irq := s.irq } = s) ∧
  (∀ (k : Fin 64) (v : Word) (s : State), up s = true →
    ∃ t, exec (.irqAexrClr k v) s = .next t ∧ t.rdF .irqAexr k 0 19 12 = 0 ∧
      (∀ b < 12, t.bit .irqAexr k 0 b = (s.bit .irqAexr k 0 b && !bitOf v b)) ∧ { t with regs := s.regs } = s)

/-- Accesses and inputs of the device as a whole: a register write that is judged a fault only answers it; one to a
register with no rule of its own leaves in each bit what its access code says (RW and an unlocked RWL take the written bit, a 1 clears
W1C and sets W1S, every other bit keeps its value) and in every other register what it held, and nothing while the register's function
is held in reset; the
host over PCIe reads and writes supervisor SRAM, an access it may not make counts as unsupported; a low-frequency edge advances TB_NOW;
a released STO input shows in MU_STO; the Heritage window combines its halves and commits one lane (R9, R10, R40, R116, R217, R218, R301,
R343). -/
def Obligations.device_accesses_complete : Prop :=
  (∀ (who : Requester) (addr v : Word) (s : State), s.dark = false → storeFault s who addr.toNat ≠ 0 →
    ∃ t, exec (.registerWrite who addr v) s = .next t ∧ { t with resp := s.resp } = s ∧
      tget (fun _ => {}) t.resp (reqNum who) = { fault := storeFault s who addr.toNat }) ∧
  (∀ (n : Fin 4) (r : Reg) (i j : Nat) (v : Word) (s : State), s.dark = false → byCodes r = true → i < r.info.ni →
    j < r.info.nj → storeFault s (.core (.sv n)) (r.addr i j) = 0 →
    ∃ t, exec (.registerWrite (.core (.sv n)) (wd (r.addr i j)) v) s = .next t ∧
      tget (fun _ => {}) t.resp (512 + n) = {} ∧ { t with regs := s.regs, resp := s.resp } = s ∧
      (s.regHeld r i = true → t.regs = s.regs) ∧
      (s.regHeld r i = false → (∀ a, a ≠ r.addr i j → tget regDef t.regs a = tget regDef s.regs a) ∧
        ∀ b < 32, (t.rd r i j).getLsbD b =
          if (r.masks i j).w1c.getLsbD b && !(r.masks i j).w1s.getLsbD b && v.getLsbD b then false
          else if (r.masks i j).w1s.getLsbD b && v.getLsbD b then true
          else if (r.masks i j).rw.getLsbD b || ((r.masks i j).rwl.getLsbD b && !s.locked r) then v.getLsbD b
          else (s.rd r i j).getLsbD b)) ∧
  (∀ (off : Word) (len : Nat) (s : State), s.str.pcieUp = true → s.dark = false → hostJudge s .load off.toNat len = 0 →
    len ≤ 512 → 0x20000000 ≤ off.toNat → off.toNat + len ≤ 0x20400000 →
    (∀ i < len, s.classAt (off.toNat + i) = .clean) →
    ∃ t, exec (.pcieReadRequest true off len) s = .next t ∧ { t with resp := s.resp } = s ∧
      tget (fun _ => {}) t.resp 516 = { data := s.bytesAt off.toNat len }) ∧
  (∀ (off : Word) (len : Nat) (s : State), s.str.pcieUp = true → s.dark = false →
    (hostJudge s .load off.toNat len ≠ 0 ∨ 512 < len) →
    ∃ t, exec (.pcieReadRequest true off len) s = .next t ∧ { t with resp := s.resp, str := s.str, regs := s.regs } = s ∧
      t.str.ur = s.str.ur + 1 ∧ t.bit .stStat 0 0 9 = true) ∧
  (∀ (off : Word) (bytes : List Byte) (s : State), s.str.pcieUp = true → s.dark = false → sramQuiet s = true →
    hostJudge s .store off.toNat bytes.length = 0 → bytes.length ≤ 8 → off.toNat % 8 + bytes.length ≤ 8 → bytes ≠ [] →
    0x20000000 ≤ off.toNat → off.toNat < 0x20400000 →
    (∃ t, exec (.pcieWriteRequest true off bytes false) s = .next t ∧
      (∀ i < bytes.length, bytes[i]?.map (·, false) = some (t.byteAt (off.toNat + i))) ∧
      (∀ x, x < off.toNat ∨ off.toNat + bytes.length ≤ x → t.byteAt x = s.byteAt x)) ∧
    exec (.pcieWriteRequest true off bytes true) s = .next s) ∧
  (∀ s : State, s.bit .tbStat 0 0 1 = true → s.fm.power ≠ .hold → s.tb.leaving = false → s.bit .tbCtl 0 0 1 = false →
    ∃ t, exec .lowFrequencyEdge s = .next t ∧ t.tb.edges = s.tb.edges + 1 ∧
      t.now = s.now + (if s.tb.edges % 32 = 31 then 12208 else 12207) ∧ t.regs = s.regs ∧ t.mem = s.mem) ∧
  (∀ s : State, ∃ t, exec (.stoInputRelease .both) s = .next t ∧ t.bit .muSto 0 0 0 = false ∧ t.bit .muSto 0 0 1 = false ∧
    t.bit .muSto 0 0 2 = s.bit .muSto 0 0 2 ∧ { t with regs := s.regs, fm := s.fm } = s) ∧
  (∀ (v : BitVec 16) (s : State), s.fm.reset = .none →
    ((∀ t < 8, s.bit .lnCtl (3 * t) 0 18 = false ∧ trioRow s t = none) →
      ∃ t, exec (.hwCtlWrite v) s = .next t ∧ t.bit .hwCtl 0 0 0 = v.getLsbD 0 ∧ { t with regs := s.regs } = s) ∧
    ((∃ t < 8, s.bit .lnCtl (3 * t) 0 18 = true) → exec (.hwCtlWrite v) s = .next s)) ∧
  (∀ (n : Fin 24) (v : BitVec 16) (s : State), up s = true → s.bit .hwCtl 0 0 0 = true →
    (n.val % 3 = 0 → ∃ t, exec (.hwPerhWrite n v) s = .next t ∧
      t.rdF .lnPer n 0 23 0 = s.rdF .hwPerl n 0 15 0 + 65536 * (v.toNat % 256) ∧
      t.commits = s.commits ++ [{ lanes := [n.val], stores := [] }] ∧ { t with regs := s.regs, commits := s.commits } = s) ∧
    (n.val % 3 ≠ 0 → exec (.hwPerhWrite n v) s = .next s) ∧
    (∃ t, exec (.hwDutyhWrite n v) s = .next t ∧ t.commits = s.commits ++ [{ lanes := [n.val], stores := [] }] ∧
      { t with regs := s.regs, commits := s.commits } = s ∧
      (let h := s.rdF .hwDutyl n 0 15 0 + 65536 * (v.toNat % 256)
       let per := s.rdF .lnPer (n / 3 * 3) 0 23 0
       let ud := s.bit .lnCtl (n / 3 * 3) 0 16
       t.rd .lnEdgea n 0 = wd (64 * (if ud then per - h / 2 else 0)) ∧
         t.rd .lnEdgeb n 0 = wd (64 * (if ud then per - h / 2 else h)))))

/-! ### Memory protection, performance monitoring -/

/-- The memory-protection commands: a scrub action corrects a corrected byte and marks an uncorrectable one, and the walk goes on; the
lap limit raises its flag once; VCLR starts, or is refused while the memory's engine is Active, and when it is done no word of the memory
is valid; CLRW and CLRC clear; MEM_FLIP arms while the test is enabled and flips bits of the next write to its byte; LOCK holds MP_CTL. The walk counts what it
finds, the word of the repair slot comes first, and copies of a valid bit that differ are made equal. A byte with one bit changed is
corrected, with two is uncorrectable, and stored poison is neither; a byte of an invalid word reads 0 (R235–R242, R245, R247). -/
def Obligations.memory_protection_commands_complete : Prop :=
  ((∀ (d : Byte) (i k : Fin 8) (j l : Fin 5),
      let put (d' : Byte) : BitVec 5 := checkBits d ^^^ checkBits d'
      let b (i : Fin 8) : Byte := 1#8 <<< i.val
      let x (j : Fin 5) : BitVec 5 := 1#5 <<< j.val
      decodeByte d 0 = (.clean, d) ∧ decodeByte d 0x1F = (.poison, d) ∧ decodeByte d (x j) = (.corrected, d) ∧
      decodeByte (d ^^^ b i) (put (d ^^^ b i)) = (.corrected, d) ∧
      (decodeByte (d ^^^ b i) (put (d ^^^ b i) ^^^ x j)).1 = .uncorrectable ∧
      (i ≠ k → (decodeByte (d ^^^ b i ^^^ b k) (put (d ^^^ b i ^^^ b k))).1 = .uncorrectable) ∧
      (j ≠ l → (decodeByte d (x j ^^^ x l)).1 = .uncorrectable)) ∧
    (∀ (a : Nat) (s : State),
      let c := decodeByte (s.dataAt a) (s.devAt a)
      (majority (s.vldAt a) = false → s.byteAt a = (0, false) ∧ s.classAt a = .clean) ∧
      (majority (s.vldAt a) = true → s.byteAt a = (c.2, c.1 == .poison || c.1 == .uncorrectable) ∧ s.classAt a = c.1))) ∧
  (∀ (m : Fin 1092) (w : Nat) (s : State), scrubOk s m = true → memOf w = some m.val → w % 8 = 0 →
    ((s.memS m).repair = some w ∨ (s.memS m).repair = none ∧ s.rdF .memPos m 0 31 0 = w ∧ w + 8 < memBase m + memSize m) →
    let walk := (s.memS m).repair.isNone
    let v := s.vldAt w
    let has (c : ByteClass) : Bool := walk && (List.range 8).any (fun i => s.classAt (w + i) == c)
    ∃ t, exec (.scrubStep m) s = .next t ∧ (t.memS m).repair = none ∧ t.rd .memPos m 0 = (if walk then wd (w + 8) else s.rd .memPos m 0) ∧
      t.vldAt w = (if majority v then 7 else 0) ∧ t.bit .memStat m 0 5 = (s.bit .memStat m 0 5 || (v != 0 && v != 7)) ∧
      (∀ x, x / 8 ≠ w / 8 → t.vldAt x = s.vldAt x) ∧ (∀ x, t.byteAt x = s.byteAt x) ∧
      t.rdF .memEcnt m 0 15 0 = (if has .corrected then Nat.min (s.rdF .memEcnt m 0 15 0 + 1) 65535 else s.rdF .memEcnt m 0 15 0) ∧
      t.rdF .memEcnt m 0 23 16 =
        (if has .uncorrectable then Nat.min (s.rdF .memEcnt m 0 23 16 + 1) 255 else s.rdF .memEcnt m 0 23 16) ∧
      t.rdF .memEcnt m 0 31 24 = s.rdF .memEcnt m 0 31 24 ∧
      t.rd .memCeaddr m 0 = (if has .corrected then wd w else s.rd .memCeaddr m 0) ∧
      t.rd .memUeaddr m 0 = (if has .uncorrectable && !s.bit .memStat m 0 8 then wd w else s.rd .memUeaddr m 0) ∧
      t.bit .memStat m 0 0 = (s.bit .memStat m 0 0 || has .corrected) ∧
      t.bit .memStat m 0 1 = (s.bit .memStat m 0 1 || has .uncorrectable)) ∧
  (∀ (c : Core) (e : SbEntry) (rest : List SbEntry) (m j : Nat) (s : State),
    let n := coreNum c
    let a := busAddr n e.addr
    let mask := s.rdF .memFlip m 0 12 0
    (s.core n).sb = e :: rest → coreOff s n = false → (s.core n).yielding = false → e.commit = false → 0x4000 ≤ e.addr →
    (n < 512 → e.addr + e.bytes.length ≤ 0x8000 ∨ (0x10000000 ≤ e.addr ∧ e.addr < 0x11000000)) → (512 ≤ n → 0x10000000 ≤ e.addr) →
    (∀ i < e.bytes.length, memOf (a + i) = some m) → a / 8 = (a + e.bytes.length - 1) / 8 → s.bit .memStat m 0 7 = false →
    mask ≠ 0 → (s.bit .memFlip m 0 30 = true → (s.memS m).owner = n) → j < e.bytes.length →
    a + j = a / 8 * 8 + s.rdF .memFlip m 0 18 16 →
    let d := (e.bytes.getD j (0, false)).1
    ∃ t, exec (.storeBufferDrain c) s = .next t ∧ t.dataAt (a + j) = d ^^^ BitVec.ofNat 8 mask ∧
      checkBits (t.dataAt (a + j)) ^^^ t.devAt (a + j) =
        checkBits d ^^^ (if (e.bytes.getD j (0, false)).2 then 0x1F else 0) ^^^ BitVec.ofNat 5 (mask / 256) ∧
      t.rdF .memFlip m 0 12 0 = 0 ∧ t.bit .memFlip m 0 31 = false ∧ t.bit .memStat m 0 4 = true) ∧
  (∀ (m : Fin 1092) (s : State), scrubOk s m = true → (s.memS m).repair = none →
    let w := s.rdF .memPos m 0 31 0
    memOf w = some m.val → w % 8 = 0 → s.vldAt w = 7 →
    ∃ t, exec (.scrubStep m) s = .next t ∧ t.vld = s.vld ∧
      (∀ i < 8, t.byteAt (w + i) = s.byteAt (w + i) ∧ t.classAt (w + i) = (match s.classAt (w + i) with
        | .corrected => .clean | .uncorrectable => .poison | c => c)) ∧
      (∀ x, x < w ∨ w + 8 ≤ x → t.byteAt x = s.byteAt x) ∧
      t.rd .memPos m 0 = wd (if w + 8 < memBase m + memSize m then w + 8 else memBase m)) ∧
  (∀ (m : Fin 1092) (s : State), s.rdF .memCfg m 0 10 5 ≠ 0 →
    ((s.memS m).lapFlagged = false → s.dark = false → 400000 * s.rdF .memCfg m 0 10 5 ≤ lapTicks s m → ∃ t, exec (.scrubLapLimit m) s = .next t ∧ t.bit .memStat m 0 3 = true ∧
      (t.memS m).lapFlagged = true ∧ { t with regs := s.regs, mems := s.mems } = s) ∧
    ((s.memS m).lapFlagged = true ∨ lapTicks s m < 400000 * s.rdF .memCfg m 0 10 5 → exec (.scrubLapLimit m) s = .next s)) ∧
  (∀ (m : Fin 1092) (v : Word) (s : State), up s = true →
    ∃ t, exec (.memVclr m v) s = .next t ∧ { t with regs := s.regs } = s ∧
      (let no := ceActive s m ||
         (1024 ≤ m.val && m.val < 1088 && s.bit .rwCtl (m - 1024) 0 0)
       t.bit .memStat m 0 7 = (s.bit .memStat m 0 7 || !no) ∧ t.bit .memStat m 0 6 = (s.bit .memStat m 0 6 || no))) ∧
  (∀ (m : Fin 1092) (s : State), s.bit .memStat m 0 7 = true →
    ∃ t, exec (.memVclrDone m) s = .next t ∧ t.bit .memStat m 0 7 = false ∧
      (∀ a, memOf a = some m.val → majority (t.vldAt a) = false ∧ t.byteAt a = (0, false)) ∧
      (∀ a, memOf a ≠ some m.val → t.byteAt a = s.byteAt a) ∧ { t with regs := s.regs, vld := s.vld } = s) ∧
  (∀ (m : Fin 1092) (v : Word) (s : State), up s = true → bitOf v 13 = false →
    (bitOf v 12 = false → ∃ t, exec (.memClrw m v) s = .next t ∧ t.rdF .memLapt m 0 31 16 = 0 ∧
      t.rdF .memLapt m 0 15 0 = s.rdF .memLapt m 0 15 0 ∧ t.rd .memEcnt m 0 = s.rd .memEcnt m 0 ∧
      { t with regs := s.regs } = s) ∧
    (∃ t, exec (.memClrc m v) s = .next t ∧ t.rd .memEcnt m 0 = 0 ∧ t.bit .memStat m 0 8 = false ∧
      { t with regs := s.regs } = s)) ∧
  (∀ (who : Requester) (m : Fin 1092) (v : Word) (s : State), up s = true →
    (s.bit .mpCtl 0 0 0 = true → ∃ t, exec (.memFlipWrite who m v) s = .next t ∧ t.rdF .memFlip m 0 12 0 = fld v 12 0 ∧
      t.bit .memFlip m 0 31 = (fld v 12 0 != 0) ∧ (t.memS m).owner = reqNum who ∧
      { t with regs := s.regs, mems := s.mems } = s) ∧
    (s.bit .mpCtl 0 0 0 = false → exec (.memFlipWrite who m v) s = .next s)) ∧
  (∀ (v : Word) (s : State), up s = true → ∃ t, exec (.mpLock v) s = .next t ∧ t.bit .mpCtl 0 0 31 = true ∧
    t.bit .mpCtl 0 0 0 = (if s.bit .mpCtl 0 0 31 then s.bit .mpCtl 0 0 0 else bitOf v 0) ∧ { t with regs := s.regs } = s)

/-- The performance monitor: the latch of a fixed counter, an overflow that wraps its counter and starts the skid record, tags drawn
within their interval, records of tagged instructions, in the order in which they complete, or their drop, and dumps of every counter, whose record stands in memory at
PMU_DBASE + 1216 × WIDX; which events the counters count, and their filters (R357, R360–R365). The model's
choices: the tag register's polynomial (log entry 9); an enable restarts the event count, a refused one changes nothing else (log entry
45). -/
def Obligations.pmu_commands_complete : Prop :=
  ((∀ (v : Fin 4) (rd ra rb : Fin 32) (imm : BitVec 16) (off : BitVec 21) (s : State), issues s (512 + v) = true →
      let c := 512 + v.val
      let a := reg s c ra
      let b := reg s c rb
      let p := a.2 || b.2
      let m := ((baseAddr s c ra).1 + imm.signExtend 32).toNat
      (∃ t, exec (.add (.sv v) rd ra rb) s = .next t ∧ svTallied s t v [(0, 0, 0)]) ∧
      ((s.core c).slot = none → ∃ t, exec (.jmp (.sv v) off) s = .next t ∧ svTallied s t v [(2, 0, 0), (0, 0, 0)]) ∧
      (p = false → imprecise s c = true → 2 ^ 31 ≤ a.1.toInt + b.1.toInt →
        ∃ t, exec (.addo (.sv v) rd ra rb) s = .next t ∧ svTallied s t v [(0, 3, 0), (0, 0, 0)]) ∧
      (∃ t, exec (.sin (.sv v) rd ra) s = .next t ∧ svTallied s t v [(0, 2, 0), (0, 0, 0)]) ∧
      ((baseAddr s c ra).2 = false → judge1 s c .load m 4 = 0 → m % 4 = 0 → irqcBuffered s c = false → clring s m = false →
        (∀ bs, forward (s.core c).sb m 4 = .bytes bs →
          ∃ t, exec (.lw (.sv v) rd ra imm) s = .next t ∧ svTallied s t v [(1, 0, m), (1, 4, m), (0, 0, 0)]) ∧
        (forward (s.core c).sb m 4 = .none →
          ∃ t, exec (.lw (.sv v) rd ra imm) s = .next t ∧ svTallied s t v [(1, 0, m), (1, 2, m)])) ∧
      ((baseAddr s c ra).2 = false → (reg s c rd).2 = false → judge1 s c .store m 4 = 0 → m % 4 ≠ 0 → (s.core c).sb.length < 7 →
        ∃ t, exec (.sw (.sv v) rd ra imm) s = .next t ∧ svTallied s t v [(1, 3, m), (0, 0, 0)])) ∧
    (∀ (v : Fin 4) (e : SbEntry) (rest : List SbEntry) (s : State), (s.core (512 + v)).sb = e :: rest → coreOff s (512 + v) = false →
      (s.core (512 + v)).yielding = false → (s.core (512 + v)).halted = false → e.commit = false → 0x20000000 ≤ e.addr → e.addr + e.bytes.length ≤ 0x20400000 →
      clring s e.addr = false → ∃ t, exec (.storeBufferDrain (.sv v)) s = .next t ∧ svTallied s t v [(1, 1, e.addr)]) ∧
    (∀ (v : Fin 4) (s : State), coreOff s (512 + v) = false → (s.core (512 + v)).halted = false → (s.core (512 + v)).sb = [] →
      claimBefore s v (claimOrder s) = false → (∀ j < 1024, signals s v j = false) →
      ∃ t, exec (.irqClaim v) s = .next t ∧ svTallied s t v [(3, 2, 0)]) ∧
    (∀ (n : Fin 512) (rd ra rb : Fin 32) (s : State), issues s n = true → s.bit .pmuTag (n / 8) 0 0 = false →
      ∃ t, exec (.add (.ce n) rd ra rb) s = .next t ∧ rowTallied s t (n / 8) [(0, 0, some n.val)]) ∧
    (∀ (n : Fin 512) (o : SideOp) (ra rb : Fin 32) (s : State), issuesBeside s n = true → (s.core n).divU = some o →
      ∃ t, exec (.div (.ce n) 0 ra rb) s = .next t ∧ rowTallied s t (n / 8) [(0, 1, some n.val)]) ∧
    (∀ (n : Fin 512) (e : SbEntry) (rest : List SbEntry) (s : State), (s.core n).sb = e :: rest → coreOff s n = false →
      (s.core n).yielding = false → e.commit = false → 0x10000000 ≤ e.addr → e.addr < 0x11000000 → clring s e.addr = false →
      e.addr / 8 = (e.addr + e.bytes.length - 1) / 8 →
      let k := (e.addr - 0x10000000) / 0x40000
      ∃ t, exec (.storeBufferDrain (.ce n)) s = .next t ∧
        rowTallied s t k [if n.val / 8 = k then (1, 0, some n.val) else (1, 1, none)])) ∧
  (∀ (who : Requester) (n : Fin 4) (s : State), s.dark = false →
    (loadFault s who (Reg.pmuFixl.addr n 0) = 0 → s.funcHeld .pmuFixl n = false → ∃ t, exec (.pmuFixlRead who n) s = .next t ∧
      tget (fun _ => {}) t.resp (reqNum who) = { data := wordBytes ((s.fix n).truncate 32) false } ∧
      readPmuFixh t (reqNum who) n = ((s.fix n) >>> 32).truncate 32 ∧ { t with pmu := s.pmu, resp := s.resp } = s) ∧
    (loadFault s who (Reg.pmuFixl.addr n 0) ≠ 0 → ∃ t, exec (.pmuFixlRead who n) s = .next t ∧
      tget (fun _ => {}) t.resp (reqNum who) = { fault := loadFault s who (Reg.pmuFixl.addr n 0) } ∧
      { t with resp := s.resp } = s)) ∧
  (∀ (i : Fin 64) (c : Fin 8) (s : State), s.inRst 73 = false →
    (i.val < 4 → svCounts s i = false → exec (.pmuCounterOverflow false i c) s = .next s) ∧
    (let w := s.rd .pmuEvt i c
     i.val < 4 → bitOf w 6 = false → [4, 5, 2, 3].getD (fld w 5 4) 0 ≤ fld w 3 0 → exec (.pmuCounterOverflow false i c) s = .next s) ∧
    (let w := s.rd .pmuRevt i c
     fld w 5 4 = 3 ∨ bitOf w 6 = false ∧ 4 ≤ fld w 3 0 → exec (.pmuCounterOverflow true i c) s = .next s) ∧
    (i.val < 4 → svCounts s i = true → s.bit .pmuCtl i 0 c = true → s.rd .pmuCnt i c = 0xFFFFFFFF →
      (bitOf (s.rd .pmuEvt i c) 6 = true ∨ fld (s.rd .pmuEvt i c) 3 0 < [4, 5, 2, 3].getD (fld (s.rd .pmuEvt i c) 5 4) 0) →
      ∃ t, exec (.pmuCounterOverflow false i c) s = .next t ∧ t.rd .pmuCnt i c = 0 ∧ t.bit .pmuOvf i 0 c = true ∧
        t.rd .pmuSkid i 0 = wd (16 * c + 128) ∧ { t with regs := s.regs } = s) ∧
    (c.val < 4 → s.bit .pmuRctl i 0 c = true → s.rd .pmuRcnt i c = 0xFFFFFFFF → fld (s.rd .pmuRevt i c) 5 4 < 3 →
      (bitOf (s.rd .pmuRevt i c) 6 = true ∨ fld (s.rd .pmuRevt i c) 3 0 < 4) →
      ∃ t, exec (.pmuCounterOverflow true i c) s = .next t ∧ t.rd .pmuRcnt i c = 0 ∧ t.bit .pmuRctl i 0 (10 + c) = true ∧
        { t with regs := s.regs } = s)) ∧
  (∀ (k : Fin 64) (v : Word) (s : State), up s = true → s.bit .pmuTag k 0 0 = false → fld v 31 16 ≠ 0 →
    ∃ t, exec (.pmuTagEnWrite k v) s = .next t ∧ t.bit .pmuTag k 0 0 = true ∧ t.rdF .pmuTag k 0 31 16 = fld v 31 16 ∧
      t.rdF .pmuTag k 0 15 8 = 0 ∧ 1 ≤ tget (fun _ => 0) t.pmu.left k ∧
      tget (fun _ => 0) t.pmu.left k ≤ 2 * fld v 31 16 - 1 ∧ { t with regs := s.regs, pmu := s.pmu } = s) ∧
  (∀ (k : Fin 64) (x : TagRun) (rest : List TagRun) (rec : List Word) (s : State), tags s k = x :: rest →
    let n := x.eng
    let pc := x.pc
    let point := x.point
    let steps := x.waited
    (x.done = false → exec (.pmuTagRecord k rec) s = .next s) ∧
    (x.done = true →
    (s.bit .pmuTrec k 0 21 = true → ∃ t, exec (.pmuTagRecord k rec) s = .next t ∧
      t.rdF .pmuTag k 0 15 8 = Nat.min (s.rdF .pmuTag k 0 15 8 + 1) 255 ∧ tags t k = rest) ∧
    (s.bit .pmuTrec k 0 21 = false → n < 512 → ∃ t, exec (.pmuTagRecord k rec) s = .next t ∧ t.rdF .pmuTrec k 0 8 0 = n ∧
      t.rdF .pmuTrec k 0 20 9 = pc / 4 % 4096 ∧ t.bit .pmuTrec k 0 21 = true ∧
      t.bit .pmuTrec k 0 22 = (steps != 0) ∧ t.rd .pmuTrec k 1 = point.truncate 32 ∧
      ∀ i < 3, t.rd .pmuTrec k (2 + i) =
        wd (Nat.min 65535 (rec.getD (2 * i) 0).toNat +
        65536 * Nat.min 65535 (if i = 2 then steps else (rec.getD (2 * i + 1) 0).toNat))))) ∧
  (∀ (ts : List TagRun) (x : TagRun), x.done = true → ∃ a b, joinTags ts x = a ++ x :: b ∧ ts = a ++ b ∧
    (∀ y ∈ a, y.done = true) ∧ ∀ y ∈ b.head?, y.done = false) ∧
  (∀ (v : Word) (s : State), up s = true → s.bit .pmuDctl 0 0 0 = false →
    (ringOk s (setBit v 0 true) = true → ∃ t, exec (.pmuDctlEnable v) s = .next t ∧ t.bit .pmuDctl 0 0 0 = true ∧
      t.pmu.events = 0) ∧
    (ringOk s (setBit v 0 true) = false → ∃ t, exec (.pmuDctlEnable v) s = .next t ∧ t.bit .pmuDstat 0 0 11 = true ∧
      t.bit .pmuDctl 0 0 0 = false ∧ t.pmu = s.pmu)) ∧
  (∀ s : State, s.bit .pmuDctl 0 0 0 = true → s.rdF .pmuDctl 0 0 30 20 + 1 ≤ s.pmu.events →
    (s.bit .pmuDstat 0 0 8 = false → ∃ t, exec .pmuDumpTrigger s = .next t ∧ t.bit .pmuDstat 0 0 8 = true ∧
      t.pmu.copy.length = 304 ∧ t.pmu.copy.take 2 = [(s.now + 1).truncate 32, ((s.now + 1) >>> 32).truncate 32] ∧
      t.pmu.copy.getD 2 0 = s.pmu.dumpSeq ∧ t.pmu.copy.getD 3 0 = wd (Nat.min 255 s.pmu.skipped) ∧
      (∀ n < 4, let x := s.fix n + (if fixRuns s n then 1 else 0)
        t.pmu.copy.getD (4 + 2 * n) 0 = x.truncate 32 ∧ t.pmu.copy.getD (5 + 2 * n) 0 = (x >>> 32).truncate 32) ∧
      (∀ i < 32, t.pmu.copy.getD (12 + i) 0 = s.rd .pmuCnt (i / 8) (i % 8)) ∧
      (∀ i < 256, t.pmu.copy.getD (44 + i) 0 =
        s.rd .pmuRcnt (i / 4) (i % 4) + (if countsCam s (i / 4) (i % 4) then 1 else 0)) ∧
      t.pmu.dumpSeq = s.pmu.dumpSeq + 1) ∧
    (s.bit .pmuDstat 0 0 8 = true → ∃ t, exec .pmuDumpTrigger s = .next t ∧ t.pmu.skipped = s.pmu.skipped + 1 ∧
      t.pmu.copy = s.pmu.copy)) ∧
  (∀ s : State, s.bit .pmuDstat 0 0 8 = true → ∃ t, exec .pmuDumpWriteDone s = .next t ∧ t.bit .pmuDstat 0 0 8 = false ∧
    (let x := (s.rdF .pmuDstat 0 0 7 0 + 1) % (s.rdF .pmuDctl 0 0 19 12 + 1)
     t.rdF .pmuDstat 0 0 7 0 = x ∧ t.bit .pmuDstat 0 0 9 = (s.bit .pmuDstat 0 0 9 || x == 0) ∧
      t.bit .pmuDstat 0 0 10 = (s.bit .pmuDstat 0 0 10 || x == (s.rdF .pmuDctl 0 0 19 12 + 1) / 2)) ∧ t.pmu.copy = [] ∧
    (let a := (s.rd .pmuDbase 0 0).toNat + 1216 * s.rdF .pmuDstat 0 0 7 0
     s.pmu.copy.length = 304 → a % 8 = 0 → 0x20001000 ≤ a → a + 1216 ≤ 0x20400000 → sramQuiet s = true →
      (∀ i < 304, loadValue (t.bytesAt (a + 4 * i) 4) false = (s.pmu.copy.getD i 0, false)) ∧
      ∀ x, x < a ∨ a + 1216 ≤ x → t.byteAt x = s.byteAt x))

/-! ### The Cask -/

/-- The commands of the Vintage Directory and the load engine: BEGIN opens an Empty slot whose range is good, SEAL starts a Loading
one, ERASE a Loading, Ready or Failed one, and any other is rejected with CMDREJ; a pause holds the change; the end of sealing gives
Ready with the header mirrored, or Failed with its cause; a block erased reads zero, and after the last the slot is Empty; a load
starts or names its LCAUSE; the engine writes one entry and passes on, or stops at a poisoned byte; in Hold and in a reset all of it
stands (R253–R258, R260, R272, R307). The order of the LCAUSE values, 2 before 1, is the model's choice (log entry 32), and so is the
state that a waiting command is judged by (log entry 33). -/
def Obligations.directory_and_load_commands_complete : Prop :=
  (∀ (v : Fin 8) (w : Word) (s : State), up s = true → s.bit .ckStat 0 0 6 = false → s.cask.waiting = [] →
    let st := s.rdF .ckDir v 0 2 0
    let busy := s.bit .ckStat 0 0 0
    (∃ t, exec (.ckDirBegin v w) s = .next t ∧
      (st = 0 ∧ rangeOk s v = true → t.rdF .ckDir v 0 2 0 = 1 ∧ t.bit .ckDir v 0 3 = bitOf w 3 ∧
        t.bit .ckStat 0 0 5 = s.bit .ckStat 0 0 5) ∧
      (¬ (st = 0 ∧ rangeOk s v = true) → t.rdF .ckDir v 0 2 0 = st ∧ t.bit .ckStat 0 0 5 = true) ∧
      { t with regs := s.regs } = s) ∧
    (∃ t, exec (.ckDirSeal v w) s = .next t ∧
      (st = 1 ∧ busy = false → t.rdF .ckDir v 0 2 0 = 2) ∧
      (¬ (st = 1 ∧ busy = false) → t.rdF .ckDir v 0 2 0 = st ∧ t.bit .ckStat 0 0 5 = true) ∧
      { t with regs := s.regs } = s) ∧
    (∃ t, exec (.ckDirErase v w) s = .next t ∧
      (st = 1 ∧ busy = false ∨ st = 3 ∧ armedFor s v = false ∨ st = 5 → t.rdF .ckDir v 0 2 0 = 6 ∧
        tget (fun _ => []) t.cask.erase v = (List.range (s.rdF .ckDirr v 0 23 12)).map (s.rdF .ckDirr v 0 11 0 + ·)) ∧
      (¬ (st = 1 ∧ busy = false ∨ st = 3 ∧ armedFor s v = false ∨ st = 5) →
        t.rdF .ckDir v 0 2 0 = st ∧ t.bit .ckStat 0 0 5 = true) ∧
      { t with regs := s.regs, cask := s.cask } = s)) ∧
  (∀ (v : Fin 8) (w : Word) (s : State), up s = true → s.bit .ckStat 0 0 6 = true → dirState s v = 0 →
    s.rdF .ckDir v 0 2 0 = 0 → rangeOk s v = true →
    ∃ t, exec (.ckDirBegin v w) s = .next t ∧ t.cask.waiting = s.cask.waiting ++ [(v.val, 1, 0)] ∧
      t.rdF .ckDir v 0 2 0 = s.rdF .ckDir v 0 2 0) ∧
  (∀ (v : Fin 8) (s : State), dirState s v = 2 → s.bit .ckStat 0 0 6 = false → s.cask.waiting = [] → s.inRst 68 = false →
    s.dark = false →
    let b := slotLo s v
    let fc := sealCause s b (slotHi s v - b)
    ∃ t, exec (.sealComplete v) s = .next t ∧ t.rdF .ckDir v 0 2 0 = (if fc = 0 then 3 else 5) ∧
      t.rdF .ckDir v 0 18 16 = fc ∧ (fc = 0 → t.rd .ckDirh v 0 = wd (efld (ckPeek s b) 31 0) ∧
        t.rd .ckDirseq v 0 = wd (efld (ckPeek s (b + 2)) 63 32)) ∧ t.cask.data = s.cask.data) ∧
  (∀ (v : Fin 8) (b : Nat) (s : State), s.rdF .ckDir v 0 2 0 = 6 → s.bit .ckStat 0 0 6 = false → s.cask.waiting = [] →
    (tget (fun _ => []) s.cask.erase v).head? = some b → b ≠ 0 → s.dark = false →
    ∃ t, exec (.eraseBlockDone v) s = .next t ∧ (∀ e, e / 4096 = b → t.ckData e = 0 ∧ t.ckErr e = 0) ∧
      (∀ e, e / 4096 ≠ b → (4096 ≤ e → t.ckData e = s.ckData e) ∧ t.ckErr e = s.ckErr e) ∧
      (tget (fun _ => []) s.cask.erase v = [b] → t.rdF .ckDir v 0 2 0 = 0 ∧ t.bit .ckDir v 0 3 = false ∧ t.rd .ckDirr v 0 = 0)) ∧
  (∀ (w : Word) (s : State), up s = true → s.bit .ckStat 0 0 0 = false → bitOf w 30 = false → fld w 24 0 ≠ 0 →
    let a := s.rdF .ckLdsrc 0 0 31 0
    let n := fld w 24 0
    let c := if a % 8 ≠ 0 ∨ loadSrcOk a (8 * n) = false then 2
      else if loadSlot s (s.rdF .ckLddst 0 0 23 0) n = none then 1 else 0
    ∃ t, exec (.ckLoadGo w) s = .next t ∧ t.bit .ckStat 0 0 0 = decide (c = 0) ∧ t.rdF .ckLdcnt 0 0 24 0 = n ∧
      (c ≠ 0 → t.bit .ckStat 0 0 2 = true ∧ t.rdF .ckStat 0 0 4 3 = c) ∧ t.cask.data = s.cask.data) ∧
  (∀ s : State, s.bit .ckStat 0 0 0 = true → s.rdF .ckLdcnt 0 0 24 0 ≠ 0 → loadStopped s = false → s.cask.gcm = none →
    s.dark = false →
    let a := s.rdF .ckLdsrc 0 0 31 0
    let d := s.rdF .ckLddst 0 0 23 0
    let n := s.rdF .ckLdcnt 0 0 24 0
    let x := bytesEntry (readMem s a 8).1
    ∃ t, exec .loadEntryWrite s = .next t ∧
      (x.2 = true → t.bit .ckStat 0 0 0 = false ∧ t.bit .ckStat 0 0 2 = true ∧ t.rdF .ckStat 0 0 4 3 = 3 ∧
        t.cask.data = s.cask.data) ∧
      (x.2 = false → (4096 ≤ d → t.ckData d = x.1) ∧ t.rdF .ckLddst 0 0 23 0 = (d + 1) % 2 ^ 24 ∧
        t.rdF .ckLdsrc 0 0 31 0 = (a + 8) % 2 ^ 32 ∧ t.rdF .ckLdcnt 0 0 24 0 = n - 1 ∧
        (s.bit .ckFlipc 0 0 31 = false → t.ckErr d = 0) ∧ (∀ e, e ≠ d → t.ckData e = s.ckData e) ∧
        t.bit .ckStat 0 0 0 = decide (n ≠ 1) ∧ (n = 1 → t.bit .ckStat 0 0 1 = true))) ∧
  (∀ (v : Fin 8) (s : State), s.dark = true → ∀ i ∈ [Instr.sealComplete v, .eraseBlockDone v, .loadEntryWrite],
    exec i s = .next s)

/-- The commands of a switch, of the flip test and of Racking: an arming is taken, refused while another stands, or declined when its
vote has begun; disarming declines an Armed switch and is rejected once it is Voted; prefetching marks each row with PBEN; a voted
switch takes effect once TB_NOW has reached t_S; CLRC clears the counts, LOCK is kept, a flip is armed while TEN is 1 and its masks are not 0; a step of
Racking repairs, counts and passes on (R9, R250, R263, R266–R269, R272, R186). -/
def Obligations.switch_and_racking_commands_complete : Prop :=
  (∀ (w : Word) (s : State), up s = true → bitOf w 9 = false →
    let st := s.rdF .ckSwstat 0 0 2 0
    let c := s.rd .ckSwcyc 0 0
    let late := decide ((s.str.cycle - (c - 2)).toNat < 2 ^ 31)
    ∃ t, exec (.ckSwitchArm w) s = .next t ∧
      (st = 1 ∨ st = 2 → t.rdF .ckSwstat 0 0 2 0 = st ∧ t.bit .ckStat 0 0 5 = true ∧ t.cask.sw = s.cask.sw) ∧
      (st ≠ 1 → st ≠ 2 → t.cask.sw = some (fld w 2 0, c, s.rd .ckSwang 0 0) ∧
        t.rdF .ckSwstat 0 0 2 0 = (if late then 4 else 1) ∧ t.rdF .ckSwstat 0 0 16 8 = (if late then 1 else 0))) ∧
  (∀ (w : Word) (s : State), up s = true → bitOf w 8 = false →
    let st := s.rdF .ckSwstat 0 0 2 0
    ∃ t, exec (.ckSwitchDisarm w) s = .next t ∧ t.rdF .ckSwstat 0 0 2 0 = (if st = 1 then 4 else st) ∧
      (st = 1 → t.rdF .ckSwstat 0 0 16 8 = s.rdF .ckSwstat 0 0 16 8 ||| 128 ∧ t.bit .ckSwstat 0 0 18 = true) ∧
      (st = 2 → t.bit .ckStat 0 0 5 = true)) ∧
  (∀ (v : Nat) (c a : Word) (s : State), s.cask.sw = some (v, c, a) →
    (s.dark = false → s.rdF .ckSwstat 0 0 2 0 = 1 ∨ s.rdF .ckSwstat 0 0 2 0 = 2 →
      ∃ t, exec .prefetchComplete s = .next t ∧ (∀ k < 64, t.bit .rwStat k 0 2 = (s.bit .rwStat k 0 2 || s.bit .rwCam k 0 9)) ∧
        ∀ k < 64, s.bit .rwCam k 0 9 = true → (t.row k).nblock.length = 16) ∧
    (switchDue s = false → exec .switchInstant s = .next s) ∧
    (switchDue s = true → s.bit .ckStat 0 0 6 = false → v < 8 →
      ∃ t, exec .switchInstant s = .next t ∧ t.rdF .ckSwstat 0 0 2 0 = 3 ∧ t.bit .ckSwstat 0 0 17 = true ∧ t.cask.sw = none ∧
        (∀ k < 64, (t.row k).newv = true ∧ (t.row k).pblock = (s.row k).nblock) ∧
        (activeSlot s = none → t.rdF .ckDir v 0 2 0 = 4) ∧
        (∀ u < 8, activeSlot s = some u → u ≠ v → t.rdF .ckDir u 0 2 0 = 3 ∧ t.rdF .ckDir v 0 2 0 = 4))) ∧
  (∀ (w : Word) (s : State), up s = true →
    (∃ t, exec (.ckClrc w) s = .next t ∧ t.rd .ckEcnt 0 0 = 0 ∧ t.rd .rackCnt 0 0 = 0 ∧ t.bit .ckUeaddr 0 0 31 = false ∧
      t.bit .rackUeaddr 0 0 31 = false ∧ { t with regs := s.regs } = s) ∧
    (∃ t, exec (.ckLock w) s = .next t ∧ t.bit .ckCtl 0 0 31 = true ∧
      t.bit .ckCtl 0 0 4 = (if s.bit .ckCtl 0 0 31 then s.bit .ckCtl 0 0 4 else bitOf w 4) ∧ { t with regs := s.regs } = s) ∧
    (s.bit .ckCtl 0 0 4 = true → ∃ t, exec (.ckFlipArm w) s = .next t ∧ t.rdF .ckFlipc 0 0 15 0 = fld w 15 0 ∧
      t.bit .ckFlipc 0 0 31 = (s.rd .ckFlipl 0 0 != 0 || s.rd .ckFliph 0 0 != 0 || fld w 15 0 != 0) ∧
      { t with regs := s.regs } = s) ∧
    (s.bit .ckCtl 0 0 4 = false → exec (.ckFlipArm w) s = .next s)) ∧
  (∀ s : State, rackOk s = true → s.bit .ckStat 0 0 6 = false →
    (∀ e, s.cask.repair = some e → 4096 ≤ e → (decodeEntry (s.ckData e) (s.ckErr e)).1 = .single →
      ∃ t, exec .rackingStep s = .next t ∧ t.cask.repair = none ∧ t.ckErr e = 0 ∧
        t.ckData e = (decodeEntry (s.ckData e) (s.ckErr e)).2 ∧ t.rd .rackPos 0 0 = s.rd .rackPos 0 0) ∧
    (let e := s.rdF .rackPos 0 0 23 0
     s.cask.repair = none → e + 1 < 2 ^ 24 → (∀ v < 8, dirState s v ≠ 6) →
      ∃ t, exec .rackingStep s = .next t ∧ t.rdF .rackPos 0 0 23 0 = e + 1 ∧
        ((decodeEntry (s.ckData e) (s.ckErr e)).1 = .clean → (4096 ≤ e → t.ckData e = s.ckData e) ∧ t.rd .rackCnt 0 0 = s.rd .rackCnt 0 0) ∧
        ((decodeEntry (s.ckData e) (s.ckErr e)).1 = .double → t.ckErr e = 0 ∧
          t.rdF .rackCnt 0 0 23 16 = Nat.min (s.rdF .rackCnt 0 0 23 16 + 1) 255) ∧
        ((decodeEntry (s.ckData e) (s.ckErr e)).1 = .uncorrectable → t.bit .ckStat 0 0 8 = true ∧
          t.rd .rackUeaddr 0 0 = wd (e + 2 ^ 31) ∧ t.bit .fmFlt 0 0 2 = true)))

/-! ### The String link -/

/-- Ports, the cycle boundary and the head's page: a port that comes up, in Hold too, or goes down sets its flags and asks for attention, the
boundary takes the cycle number, counts a missing frame and casts the vote, the head latches the posted page or sends the old one not
fresh (R264, R277, R281, R282, R284, R293, R303). A boundary is made once in its cycle and a latch once before it; the rest of a page
sent as not fresh is zero, which is the model's choice (log entry 46), and so are the functions that a port's request names (log entry
47). -/
def Obligations.string_cycle_commands_complete : Prop :=
  (∀ (p : Fin 2) (s : State),
    (isSolo s = false → s.inRst (69 + p) = false → s.fm.reset = .none → tget (fun _ => false) s.fm.down 5 = false →
      ∃ t, exec (.stringPortUp p) s = .next t ∧ t.bit .stLink p 0 0 = true ∧ fell t p = false ∧
        tget (fun _ => false) t.str.idleTx p = false ∧ { t with regs := s.regs, str := s.str } = s) ∧
    (isSolo s = true ∨ s.inRst (69 + p) = true ∨ s.fm.reset ≠ .none ∨ tget (fun _ => false) s.fm.down 5 = true →
      exec (.stringPortUp p) s = .next s) ∧
    (s.bit .stLink p 0 0 = true → isSolo s = false → ∃ t, exec (.stringPortDown p) s = .next t ∧ t.bit .stLink p 0 0 = false ∧
      t.bit .stLink p 0 2 = true ∧ fell t p = true ∧ tget (fun _ => false) t.str.idleTx p = true ∧
      (s.rdF .stAttn 0 0 7 0 < 4 → t.rdF .stAttn 0 0 7 0 = 4 ∧ t.rdF .stAttn 0 0 14 8 = 69 + p) ∧
      (4 ≤ s.rdF .stAttn 0 0 7 0 → t.bit .stAttn 0 0 15 = true ∧ t.rdF .stAttn 0 0 7 0 = s.rdF .stAttn 0 0 7 0)) ∧
    (s.bit .stLink p 0 0 = false ∨ isSolo s = true → exec (.stringPortDown p) s = .next s) ∧
    (∃ t, exec (.stringIdleEnd p) s = .next t ∧ tget (fun _ => false) t.str.idleTx p = false ∧
      { t with str := { t.str with idleTx := s.str.idleTx } } = s)) ∧
  (∀ s : State, s.timeOk = true → s.fm.reset = .none → s.str.passThru = false → s.str.placed ≠ some (cycleNow s) →
    let c := wd (s.now.toNat / cyct s)
    ∃ t, exec .stringCycleBoundary s = .next t ∧ t.str.cycle = c ∧ t.str.placed = some c ∧ t.str.noFrame = s.str.noFrame + 1 ∧
      t.bit .stStat 0 0 1 = (s.bit .stStat 0 0 1 || decide (1 ≤ s.str.noFrame)) ∧
      (s.inRst 68 = false → ∀ x ∈ s.cask.sw, s.rdF .ckSwstat 0 0 2 0 = 1 → c = x.2.1 - 2 →
        t.str.vote = decide (voteReasons s x.1 = 0)) ∧
      (s.cask.sw = none → t.str.vote = false)) ∧
  (∀ s : State, s.timeOk = false ∨ s.str.passThru = true ∨ s.str.placed = some (cycleNow s) →
    exec .stringCycleBoundary s = .next s) ∧
  (∀ s : State, latchDue s = false → exec .headPageLatch s = .next s) ∧
  (∀ s : State, isHead s = true → s.timeOk = true → passing s 1 = false → latchDue s = true →
    ∃ t, exec .headPageLatch s = .next t ∧ t.str.latched = some (cycleNow s + 1) ∧ t.str.posted = none ∧ t.str.fresh = s.str.posted.isSome ∧
      { t with str := s.str } = s ∧
      (∀ p ∈ s.str.posted, ∀ i < 12 + 16 * ndev s, t.str.page.getD i 0 = s.buf (0x8000 + 0x1000 * p + 4 * i)) ∧
      (s.str.posted = none → ∀ i, t.str.page.getD i 0 = if 5 ≤ i ∧ i ≤ 8 then s.str.page.getD i 0 else 0))

/-- CYC frames: the head sends the frame of its cycle, with its CRC; a device takes a correct frame of this cycle, updates CORR and
passes it on, counts a wrong one and passes it on marked, and in pass-through, of the port or of the one the frame is bound for, hands every frame on unchanged; the returned frame
fills the other RX page, and in loopback its second copy, on the other port, is merged into that page, and the vote is that of both; the round-trip time goes by SA alone. A
TUNE frame that waits leaves behind it; a port that is down or idle sends none of them (R277, R279, R280, R282–R285, R288, R290, R292,
R302). The model's choices: the first copy fills the page and the second is merged into the same one (log entry 47); what the head sends
when no page is posted (log entry 46). -/
def Obligations.cycle_frames_complete : Prop :=
  (∀ s : State, isHead s = true → isSolo s = false → s.timeOk = true → passing s 1 = false → s.str.resetDue = none →
    sendDue s = true →
    ∃ t, exec .cycFrameSend s = .next t ∧ t.str.awaitRet = true ∧ t.str.sentIn = some (cycleNow s) ∧
      let q : QFrame := { port := 1, words := t.str.sentBody ++ [frameCrc t.str.sentBody] }
      let qs := ([q] ++ (if looping s 0 then [{ q with port := 0 }] else [])).filter (fun q => portSends s q.port)
      q.words.length = 13 + 16 * ndev s ∧ q.words.getD 1 0 = s.str.cycle ∧
        q.words.getD 2 0 = s.now.truncate 32 ∧ fld (q.words.getD 0 0) 7 0 = 1 ∧
        (∀ i, 5 ≤ i → i ≤ 8 → q.words.getD i 0 = s.str.page.getD i 0) ∧
        bitOf (q.words.getD 0 0) 16 = s.str.fresh ∧ bitOf (q.words.getD 9 0) 0 = s.str.vote ∧ t.str.tuneDue = false ∧
        (s.str.tuneDue = false → t.str.sent = qs) ∧
        (s.str.tuneDue = true → looping s 0 = false → t.str.tuning = true ∧ stAddr t = 1 ∧
          t.str.sent = qs ++ (if portSends s 1 then [{ port := 1, words := [3, 1, 0] }] else [])) ∧
        (s.str.tuneDue = true → looping s 0 = true → t.str.sent = qs ∧ t.bit .stStat 0 0 5 = true ∧
          t.str.tuning = s.str.tuning)) ∧
  (∀ s : State, isHead s = false ∨ sendDue s = false → exec .cycFrameSend s = .next s) ∧
  (∀ (p : Fin 2) (ws : List Word) (ta : Nat) (s : State),
    (passing s p = true ∨ (p = 1 ∧ looping s 1 = false ∧ s.inRst 69 = true) ∨
        (p = 0 ∧ isHead s = false ∧ s.inRst (69 + outPort s) = true) →
      ∃ t, exec (.cycFrameReceive p ws ta) s = .next t ∧ t.str.sent = [{ port := 1 - p, words := ws }] ∧
      { t with str := { t.str with sent := s.str.sent } } = s) ∧
    (isHead s = false → s.str.resetDue = none → p = 0 → passIn s p = false → 13 ≤ ws.length →
      let n := fld (ws.getD 0 0) 15 8
      let good := crcOk ws && ws.length == 13 + 16 * n && ws.getD 1 0 == s.str.cycle && fld (ws.getD 0 0) 7 0 == 1
      ∃ t, exec (.cycFrameReceive p ws ta) s = .next t ∧
        (portSends s (outPort s) = false → t.str.sent = []) ∧
        (portSends s (outPort s) = true →
         let q := t.str.sent.headD { port := 7, words := [] }
         t.str.sent.length = 1 ∧ q.port = (if looping s 0 then 0 else 1) ∧ crcOk q.words = good ∧
           q.words.getD 4 0 = ws.getD 4 0 + wd (s.rdF .stLink 0 0 31 16 + 1024) ∧
           bitOf (q.words.getD 9 0) 0 = (bitOf (ws.getD 9 0) 0 && s.str.vote)) ∧
        (good = true → t.str.noFrame = 0 ∧ t.rdF .stAddr 0 0 15 8 = n ∧ t.bit .stStat 0 0 0 = bitOf (ws.getD 0 0) 17 ∧
          (fld (ws.getD 10 0) 18 0 = s.rdF .stCyct 0 0 18 0 → bitOf (ws.getD 0 0) 16 = true →
            t.str.m = ws.getD 5 0 ∧ t.str.v = ws.getD 6 0) ∧
          (fld (ws.getD 10 0) 18 0 ≠ s.rdF .stCyct 0 0 18 0 → t.bit .stStat 0 0 2 = true ∧ t.str.m = s.str.m)) ∧
        (good = false → t.rdF .stLink 0 0 15 8 = Nat.min (s.rdF .stLink 0 0 15 8 + 1) 255 ∧ t.str.m = s.str.m ∧
          t.str.noFrame = s.str.noFrame))) ∧
  (∀ (ws : List Word) (rtl : Nat) (p : Fin 2) (s : State), isHead s = true → isSolo s = false → passing s p = false →
    (p = 0 ∨ looping s 1 = true) → s.str.firstRet = none →
    ∃ t, exec (.cycFrameReturn ws rtl p) s = .next t ∧ t.str.awaitRet = false ∧
      (crcOk ws = true → t.str.noFrame = 0 ∧ (p = 0 → t.str.saMiss = 0) ∧ (p = 1 → t.str.saMiss = s.str.saMiss)) ∧
      (crcOk ws = false → t.rdF .stLink p 0 15 8 = Nat.min (s.rdF .stLink p 0 15 8 + 1) 255 ∧ t.str.noFrame = s.str.noFrame) ∧
      t.rdF .stHost 0 0 4 4 = 1 - s.rdF .stHost 0 0 4 4 ∧ t.bit .stHost 0 0 5 = !crcOk ws ∧
      t.rdF .stStat 0 0 31 16 = (if p = 0 then Nat.min rtl 65535 else s.rdF .stStat 0 0 31 16) ∧
      t.bit .stStat 0 0 6 = (s.bit .stStat 0 0 6 || p == 0 && decide (cyct s < rtl + 480)) ∧
      (∀ i < ws.length, t.buf (0xA000 + 0x1000 * (1 - s.rdF .stHost 0 0 4 4) + 4 * i) = ws.getD i 0) ∧
      t.str.rready = bitOf (ws.getD 9 0) 0 ∧ 
      t.str.rvalid = (crcOk ws && decide (rtl + 480 ≤ cyct s) && !twoCopies s) ∧
      t.str.firstRet = (if twoCopies s then some (p.val, ws) else none)) ∧
  (∀ (a ws : List Word) (rtl : Nat) (p : Fin 2) (s : State), isHead s = true → isSolo s = false → passing s p = false →
    (p = 0 ∨ looping s 1 = true) → s.str.firstRet = some (1 - p.val, a) → 13 ≤ a.length →
    ∃ t, exec (.cycFrameReturn ws rtl p) s = .next t ∧ t.str.firstRet = none ∧
      t.str.rvalid = (crcOk a && crcOk ws && decide (rtl + 480 ≤ cyct s)) ∧ t.rdF .stHost 0 0 4 4 = s.rdF .stHost 0 0 4 4 ∧
      t.bit .stHost 0 0 5 = !(crcOk a && crcOk ws) ∧ t.str.rready = (bitOf (a.getD 9 0) 0 && bitOf (ws.getD 9 0) 0) ∧
      ∀ d i, i < 16 → 12 + 16 * d + i + 1 < a.length →
        let slot (x : List Word) : List Word := (x.drop (12 + 16 * d)).take 16
        t.buf (0xA000 + 0x1000 * s.rdF .stHost 0 0 4 4 + 4 * (12 + 16 * d + i)) =
          if slot a = slot s.str.sentBody then ws.getD (12 + 16 * d + i) 0 else a.getD (12 + 16 * d + i) 0) ∧
  (∀ (ws : List Word) (rtl : Nat) (p : Fin 2) (s : State),
    (passing s p = true → ∃ t, exec (.cycFrameReturn ws rtl p) s = .next t ∧ t.str.sent = [{ port := 1 - p, words := ws }] ∧
      { t with str := { t.str with sent := s.str.sent } } = s) ∧
    (passing s p = false →
      isHead s = false ∨ isSolo s = true ∨ (p = 1 ∧ looping s 1 = false) ∨ (s.str.firstRet.any (·.1 == p.val)) = true →
      exec (.cycFrameReturn ws rtl p) s = .next s))

/-- BULK, ECHO and TUNE frames: a BULK frame is taken by its destination, else passed on or dropped at the head; a port's own and
forwarded frames take turns; an echo leaves once half a cycle has passed, and is answered and averaged; a tuning waits for the head's next CYC frame, gives each device its
address, or keeps it while something is enabled, and ends at its return, which in loopback fails, or its time-out; a port that is down or idle sends nothing, and
in pass-through a frame goes on unchanged (R277, R280, R286–R289, R291). The model's choices (log entry 48): the turns of forwarded
frames, the average over the values so far and at most 16, a BULK frame with a bad CRC; a frame that a port cannot send is lost if it
passes through and waits if it is the port's own (log entry 47). -/
def Obligations.other_frames_complete : Prop :=
  (∀ (p : Fin 2) (ws : List Word) (s : State),
    let forwards (t : State) (q : QFrame) : Prop :=
      if (tget (fun _ => false) s.str.fwdLast q.port && !(queued s q.port).isEmpty) || s.str.fwd.any (·.port == q.port) then
        t.str.fwd = s.str.fwd ++ [q] ∧ t.str.sent = s.str.sent
      else t.str.sent = (if portSends s q.port then [q] else []) ∧ t.str.fwd = s.str.fwd
    (passing s p = true ∨ (p = 1 ∧ looping s 1 = false ∧ s.inRst 69 = true) ∨
        (p = 0 ∧ isHead s = false ∧ s.inRst (69 + outPort s) = true) →
      ∃ t, exec (.bulkFrameReceive p ws) s = .next t ∧
      t.str.sent = [{ port := 1 - p, words := ws }] ∧ { t with str := { t.str with sent := s.str.sent } } = s) ∧
    (isSolo s = true → passIn s p = false → exec (.bulkFrameReceive p ws) s = .next s) ∧
    (isHead s = false → isSolo s = false → passIn s p = false → p = 0 → crcOk ws = true →
      (fld (ws.getD 0 0) 15 8 = stAddr s → stAddr s ≠ 0xFF → ∃ t, exec (.bulkFrameReceive p ws) s = .next t ∧
        t.str.bulkCmd = (if fld (ws.dropLast.getD 3 0) 7 0 = stAddr s then ws.dropLast else s.str.bulkCmd) ∧ { t with str := { t.str with bulkCmd := s.str.bulkCmd } } = s) ∧
      (fld (ws.getD 0 0) 15 8 ≠ stAddr s → ∃ t, exec (.bulkFrameReceive p ws) s = .next t ∧ t.str.bulkCmd = s.str.bulkCmd ∧
        forwards t { port := outPort s, words := ws })) ∧
    (isSolo s = false → passIn s p = false → p = 1 → looping s 1 = false →
      ∃ t, exec (.bulkFrameReceive p ws) s = .next t ∧ forwards t { port := 0, words := ws } ∧ { t with str := s.str } = s) ∧
    (isHead s = false → isSolo s = false → passIn s p = false → p = 0 → crcOk ws = false →
      ∃ t, exec (.bulkFrameReceive p ws) s = .next t ∧ t.str.bulkCmd = s.str.bulkCmd ∧
        t.rdF .stLink p 0 15 8 = Nat.min (s.rdF .stLink p 0 15 8 + 1) 255) ∧
    (isHead s = true → isSolo s = false → passIn s p = false → p = 0 →
      fld (ws.getD 0 0) 15 8 ≠ stAddr s → ∃ t, exec (.bulkFrameReceive p ws) s = .next t ∧
        t.rdF .stHost 0 0 31 24 = Nat.min (s.rdF .stHost 0 0 31 24 + 1) 255 ∧ t.str = s.str)) ∧
  (∀ (p : Fin 2) (s : State),
    (passing s p = true ∨ isSolo s = false ∧ portSends s p = false ∧ s.str.resetDue = none →
      exec (.queuedFrameSend p) s = .next s) ∧
    (passing s p = false → portSends s p = true → s.str.resetDue = none →
      let last := tget (fun _ => false) s.str.fwdLast p
      (∀ q ∈ (queued s p).head?, last = true ∨ s.str.fwd.find? (·.port == p.val) = none →
        ∃ t, exec (.queuedFrameSend p) s = .next t ∧
          t.str.sent = (if isHead s then (headSend s q.words).filter (fun f => portSends s f.port) else [q]) ∧
          t.str.queue = s.str.queue.erase q ++ (s.str.qwait.find? (·.port == p.val)).toList ∧ t.str.fwd = s.str.fwd ∧
          tget (fun _ => false) t.str.fwdLast p = false ∧ { t with str := s.str } = s) ∧
      (∀ f ∈ s.str.fwd.find? (·.port == p.val), last = false ∨ (queued s p).head? = none →
        ∃ t, exec (.queuedFrameSend p) s = .next t ∧ t.str.sent = [f] ∧ t.str.queue = s.str.queue ∧
          t.str.fwd = s.str.fwd.erase f ∧ tget (fun _ => false) t.str.fwdLast p = true ∧ { t with str := s.str } = s))) ∧
  (∀ (p : Fin 2) (t1 t2 t3 t4 : Nat) (s : State),
    (passing s p = true ∨ portSends s p = false ∨ s.timeOk = false ∨ s.now.toNat % cyct s < cyct s / 2 ∨
        tget (fun _ => none) s.str.echoIn p = some (cycleNow s) → exec (.echoSend p t1) s = .next s) ∧
    (passing s p = true →
      (∃ t, exec (.echoReceive p t1 t2 t3) s = .next t ∧ t.str.sent = [{ port := 1 - p, words := [4, wd t1] }] ∧
        { t with str := { t.str with sent := s.str.sent } } = s) ∧
      (∃ t, exec (.echoReplyReceive p t2 t3 t4 t1) s = .next t ∧
        t.str.sent = [{ port := 1 - p, words := [4, wd t1, wd t2, wd t3] }] ∧
        { t with str := { t.str with sent := s.str.sent } } = s)) ∧
    (passing s p = false → isSolo s = true → exec (.echoReceive p t1 t2 t3) s = .next s ∧
      exec (.echoReplyReceive p t2 t3 t4 t1) s = .next s) ∧
    (passing s p = false → isSolo s = false →
      (portSends s p = true → s.timeOk = true → cyct s / 2 ≤ s.now.toNat % cyct s →
        tget (fun _ => none) s.str.echoIn p ≠ some (cycleNow s) →
        ∃ t, exec (.echoSend p t1) s = .next t ∧ tget (fun _ => 0) t.str.echoT1 p = t1 ∧
        tget (fun _ => none) t.str.echoIn p = some (cycleNow s) ∧
        t.str.sent = [{ port := p, words := [4, wd t1] }]) ∧
      (∃ t, exec (.echoReceive p t1 t2 t3) s = .next t ∧ 
        t.str.sent = if portSends s p then [{ port := p, words := [4, wd t1, wd t2, wd t3] }] else []) ∧
      (let d := ((t4 - tget (fun _ => 0) s.str.echoT1 p) - (t3 - t2)) / 2
       let hs := (d :: tget (fun _ => []) s.str.hops p).take 16
       ∃ t, exec (.echoReplyReceive p t2 t3 t4 t1) s = .next t ∧ tget (fun _ => []) t.str.hops p = hs ∧
         t.rdF .stLink p 0 31 16 = (if 64000 < hs.sum / hs.length then 65535 else hs.sum / hs.length) ∧
         (64000 < hs.sum / hs.length → t.bit .stLink p 0 2 = true)))) ∧
  (∀ (v : Word) (s : State), up s = true →
    (isHead s = false → bitOf v 3 = false → exec (.tuneStart v) s = .next s) ∧
    (isHead s = true → isSolo s = true → ∃ t, exec (.tuneStart v) s = .next t ∧ t.bit .stStat 0 0 11 = true) ∧
    (isHead s = true → isSolo s = false → looping s 0 = true ∨ s.bit .stStat 0 0 0 = true →
      ∃ t, exec (.tuneStart v) s = .next t ∧ t.bit .stStat 0 0 5 = true ∧ t.str.sent = s.str.sent) ∧
    (isHead s = true → isSolo s = false → looping s 0 = false → s.bit .stStat 0 0 0 = false →
      ∃ t, exec (.tuneStart v) s = .next t ∧ t.str.tuneDue = true ∧ t.str.sent = s.str.sent ∧ t.regs = s.regs)) ∧
  (∀ (c : BitVec 8) (keep toomany : Bool) (s : State),
    (passing s 0 = true ∨ isHead s = false ∧ s.inRst (69 + outPort s) = true →
      ∃ t, exec (.tuneFrameReceive c keep toomany) s = .next t ∧
      t.str.sent = [{ port := 1, words := [3, wd c.toNat, wd (b2n keep + 2 * b2n toomany)] }] ∧
      { t with str := { t.str with sent := s.str.sent } } = s) ∧
    (isHead s = true → passIn s 0 = false → exec (.tuneFrameReceive c keep toomany) s = .next s) ∧
    (isHead s = false → passIn s 0 = false → ∃ t, exec (.tuneFrameReceive c keep toomany) s = .next t ∧
      stAddr t = (if anyEnabled s then stAddr s else if c.toNat + 1 ≤ 32 then c.toNat + 1 else 0xFF) ∧
      t.bit .stStat 0 0 3 = (s.bit .stStat 0 0 3 || anyEnabled s && stAddr s != c.toNat + 1) ∧
      t.bit .stStat 0 0 4 = (s.bit .stStat 0 0 4 || !anyEnabled s && decide (32 ≤ c.toNat)) ∧
      (let keep := keep || (anyEnabled s && stAddr s != c.toNat + 1)
       let toomany := toomany || (!anyEnabled s && decide (32 ≤ c.toNat))
       let q : QFrame := { port := outPort s, words := [3, wd (Nat.min (c.toNat + 1) 255), wd (b2n keep + 2 * b2n toomany)] }
       if (tget (fun _ => false) s.str.fwdLast q.port && !(queued s q.port).isEmpty) || s.str.fwd.any (·.port == q.port) then
         t.str.fwd = s.str.fwd ++ [q] ∧ t.str.sent = s.str.sent
       else t.str.sent = (if portSends s q.port then [q] else []) ∧ t.str.fwd = s.str.fwd)) ∧
    (passing s 0 = true → ∃ t, exec (.tuneReturn c keep toomany) s = .next t ∧
      t.str.sent = [{ port := 1, words := [3, wd c.toNat, wd (b2n keep + 2 * b2n toomany)] }] ∧
      { t with str := { t.str with sent := s.str.sent } } = s) ∧
    (isHead s = true → passing s 0 = false → s.str.tuning = true → looping s 0 = true ∨ s.bit .stStat 0 0 0 = true →
      ∃ t, exec (.tuneReturn c keep toomany) s = .next t ∧ t.str.tuning = false ∧ t.bit .stStat 0 0 5 = true ∧ ndev t = ndev s ∧
        t.bit .stStat 0 0 11 = s.bit .stStat 0 0 11) ∧
    (isHead s = true → passing s 0 = false → s.str.tuning = true → looping s 0 = false → s.bit .stStat 0 0 0 = false →
      ∃ t, exec (.tuneReturn c keep toomany) s = .next t ∧ ndev t = c.toNat ∧
      t.bit .stStat 0 0 11 = true ∧ t.bit .stStat 0 0 3 = (s.bit .stStat 0 0 3 || keep) ∧
      t.bit .stStat 0 0 4 = (s.bit .stStat 0 0 4 || toomany) ∧ t.str.tuning = false) ∧
    (passing s 0 = false → isHead s = false ∨ s.str.tuning = false → exec (.tuneReturn c keep toomany) s = .next s) ∧
    (s.str.tuning = true → ∃ t, exec .tuneTimeout s = .next t ∧ t.str.tuning = false ∧ t.bit .stStat 0 0 5 = true) ∧
    (s.str.tuning = false → exec .tuneTimeout s = .next s))

/-! ### Host commands, the descriptor and the String registers -/

/-- Host commands: the device executes the command whose words stand on the path, and no other; a repeated SEQ is answered from the
stored response; a new command is executed and answered with its STATUS, LEN and payload: NOP, an unknown code, READ, WRITE, DSC segments,
ARM, DISARM, FRESET, DEVRESET (executed once answered), ATTNCLR, MBOX, POWER, CBCLEAR (R263, R267, R283, R286, R295–R298, R303, R306, R321,
R352). The model's choices: STATUS and LEN in the corners (log entry 56); which words of a BULK frame make up a command, so what counts
as asked (log entry 97). -/
def Obligations.host_commands_complete : Prop :=
  (∀ (path : Path) (seq : BitVec 16) (s : State), s.dark = false → asksAnew s path seq = false →
    let o (c : HostCmd) : Host.Outcome State Fault Refusal :=
      .next (if asked s path seq c then respond s path (storedResp s path) else s)
    (∀ code, exec (.unknownCommand path seq code) s = o (.unknown code)) ∧
    (∀ (a : Word) (n : Nat), exec (.read path seq a n) s = o (.read a n)) ∧
    (∀ (a : Word) (bs : List Byte), exec (.write path seq a bs) s = o (.write a bs)) ∧
    (∀ (f l : Bool) (bs : List Byte), exec (.dsc path seq f l bs) s = o (.dsc f l bs)) ∧
    (∀ a b c, exec (.arm path seq a b c) s = o (.arm a b c)) ∧
    (∀ arg, exec (.freset path seq arg) s = o (.freset arg) ∧ exec (.power path seq arg) s = o (.power arg)) ∧
    (∀ ws, exec (.mbox path seq ws) s = o (.mbox ws) ∧ exec (.cbclear path seq ws) s = o (.cbclear ws)) ∧
    exec (.nop path seq) s = o .nop ∧ exec (.disarm path seq) s = o .disarm ∧
    exec (.devreset path seq) s = o .devreset ∧ exec (.attnclr path seq) s = o .attnclr) ∧
  (∀ (path : Path) (seq : BitVec 16) (s : State), asksAnew s path seq = true →
    (asked s path seq .nop = true → ∃ t, exec (.nop path seq) s = .next t ∧ answered t path seq 0 0 0 []) ∧
    (∀ code, asked s path seq (.unknown code) = true →
      ∃ t, exec (.unknownCommand path seq code) s = .next t ∧ answered t path seq code.toNat 2 0 []) ∧
    (∀ (a : Word) (n : Nat), asked s path seq (.read a n) = true → ∃ t, exec (.read path seq a n) s = .next t ∧
      ((match path with | .slot => 48 | .bulk => 864) < n → answered t path seq 1 2 0 []) ∧
      (n ≤ (match path with | .slot => 48 | .bulk => 864) →
        (hostJudge s .load a.toNat n ≠ 0 → answered t path seq 1 (hostJudge s .load a.toNat n) 0 []) ∧
        (hostJudge s .load a.toNat n = 0 → let r := storedResp t path
          r.seq = seq ∧ r.len = n ∧ r.status = (if (busRead s strHost a.toNat n).1.any (·.2) then 3 else 0) ∧
            (r.words.drop (match path with | .slot => 2 | .bulk => 28)).length = (n + 3) / 4 ∧
            (∀ i < n, (r.words.getD ((match path with | .slot => 2 | .bulk => 28) + i / 4) 0 >>> (8 * (i % 4))).truncate 8 =
              ((busRead s strHost a.toNat n).1.getD i (0, false)).1)))) ∧
    (∀ (a : Word) (bs : List Byte), asked s path seq (.write a bs) = true → ∃ t, exec (.write path seq a bs) s = .next t ∧
      ((match path with | .slot => 52 | .bulk => 988) < bs.length → answered t path seq 2 2 0 []) ∧
      (bs.length ≤ (match path with | .slot => 52 | .bulk => 988) →
        (hostJudge s .store a.toNat bs.length ≠ 0 → answered t path seq 2 (hostJudge s .store a.toNat bs.length) 0 []) ∧
        (hostJudge s .store a.toNat bs.length = 0 → 0x20000000 ≤ a.toNat → a.toNat < 0x20400000 → sramQuiet s = true →
          answered t path seq 2 0 0 [] ∧ ∀ i < bs.length, t.byteAt (a.toNat + i) = (bs.getD i 0, false)))) ∧
    (∀ (f l : Bool) (bs : List Byte), asked s path seq (.dsc f l bs) = true →
      let have0 := if f then [] else s.str.dbuf
      let bad := (match path with | .slot => 56 | .bulk => 992) < bs.length ∨ s.bit .stDsc 0 0 1 = true ∨
        f = false ∧ ¬ (s.str.dopen = true ∧ s.str.dpath = path) ∨ 32768 < have0.length + bs.length
      ∃ t, exec (.dsc path seq f l bs) s = .next t ∧
        (bad → answered t path seq 3 2 0 [] ∧ t.str.dbuf = s.str.dbuf) ∧
        (¬ bad → answered t path seq 3 (if l then 1 else 0) 0 [] ∧ t.str.dbuf = have0 ++ bs ∧ t.str.dopen = !l ∧
          t.bit .stDsc 0 0 1 = l)) ∧
    (s.inRst 68 = false →
      (∀ a b c, asked s path seq (.arm a b c) = true →
        ∃ t, exec (.arm path seq a b c) s = .next t ∧ answered t path seq 4 0 0 [] ∧
          (s.rdF .ckSwstat 0 0 2 0 ≠ 1 → s.rdF .ckSwstat 0 0 2 0 ≠ 2 → t.cask.sw = some (fld a 2 0, b, c))) ∧
      (asked s path seq .disarm = true → ∃ t, exec (.disarm path seq) s = .next t ∧ answered t path seq 5 0 0 [] ∧
        t.rdF .ckSwstat 0 0 2 0 = if s.rdF .ckSwstat 0 0 2 0 = 1 then 4 else s.rdF .ckSwstat 0 0 2 0)) ∧
    (∀ arg : BitVec 16, asked s path seq (.freset arg) = true →
      ∃ t, exec (.freset path seq arg) s = .next t ∧ answered t path seq 6 0 0 [] ∧
        (let f := arg.toNat % 128
         (f = 75 ∨ 79 < f ∨ s.inRst f = true → t.bit .fmFreset 0 0 9 = true) ∧
         (¬ (f = 75 ∨ 79 < f ∨ s.inRst f = true) → t.fm.inrst = f :: s.fm.inrst))) ∧
    (asked s path seq .attnclr = true → ∃ t, exec (.attnclr path seq) s = .next t ∧ answered t path seq 8 0 0 [] ∧
      (ringCond s = false → s.bit .stDsc 0 0 0 = true → s.bit .secStat 0 0 2 = false →
        t.rdF .stAttn 0 0 7 0 = 0 ∧ t.bit .stAttn 0 0 15 = false)) ∧
    (∀ ws, asked s path seq (.mbox ws) = true →
      ∃ t, exec (.mbox path seq ws) s = .next t ∧ answered t path seq 9 1 0 [] ∧ t.str.mboxSeq = some (path, seq) ∧
        t.bit .stStat 0 0 10 = true ∧ ∀ i < 14, t.rd .stMbi (i + 2) 0 = ws.getD i 0) ∧
    (∀ arg : BitVec 16, asked s path seq (.power arg) = true → ∃ t, exec (.power path seq arg) s = .next t ∧
      (let q := powerRequest (s.clrB .fmPstat 0 0 6) (arg.toNat % 4)
       (q.bit .fmPstat 0 0 6 = true → answered t path seq 10 5 4 [wd (q.rdF .fmPstat 0 0 10 8)]) ∧
       (q.bit .fmPstat 0 0 6 = false → answered t path seq 10 0 0 [] ∧ t.fm.power = q.fm.power))) ∧
    (∀ ws, asked s path seq (.cbclear ws) = true → ∃ t, exec (.cbclear path seq ws) s = .next t ∧
      (path = .slot → answered t path seq 11 2 0 []) ∧
      (path = .bulk → s.inRst 74 = true → answered t path seq 11 5 0 []) ∧
      (path = .bulk → s.inRst 74 = false → s.book.clear = none → answered t path seq 11 1 0 [] ∧
        t.book.clear = some (some seq, (List.range 32).map (fun i => ws.getD i 0)) ∧ t.bit .cbStat 0 0 25 = true)) ∧
    (s.str.resetDue = none → asked s path seq .devreset = true → ∃ t, exec (.devreset path seq) s = .next t ∧
      (path = .slot ∨ isSolo s = false → answered t path seq 7 0 0 [] ∧ t.str.resetDue = some path) ∧
      (path = .bulk → isSolo s = true → t.fm.reset = .device ∧ t.rdF .fmRstat 0 0 2 0 = 3)))

/-- The descriptor's judgement and re-application, and the registers of the String block: HEAD only through PCIe, SWAKE, POST, BQTAIL,
BRHEAD, CLR, the cycle time while no trio runs, the mailbox's answer, PERSTn and the PCIe link: every field that an accepted or
re-applied descriptor governs takes what its records give or returns to its reset value (R278, R280, R281, R284, R295, R298–R303, R312,
R332, R387). The model's choices: BQTAIL counts at most 8 entries, the layout of the mailbox's answer (log entry 48); a re-application
applies the records without the checks (log entry 74). -/
def Obligations.descriptor_and_string_registers_complete : Prop :=
  (∀ s : State, s.dark = false → s.bit .stDsc 0 0 1 = true → s.str.reapply = false →
    (∀ rsn ofs, judgeDescriptor s s.str.dbuf = .error (rsn, ofs) → rsn < 16 → ofs < 32768 →
      ∃ t, exec .descriptorJudged s = .next t ∧ t.bit .stDsc 0 0 1 = false ∧ t.bit .stDsc 0 0 3 = true ∧
        t.rdF .stDsc 0 0 7 4 = rsn ∧ t.rdF .stDsc 0 0 22 8 = ofs ∧ t.bit .stDsc 0 0 0 = s.bit .stDsc 0 0 0 ∧
        t.str.dkeep = s.str.dkeep) ∧
    (∀ es, judgeDescriptor s s.str.dbuf = .ok es → ∃ t, exec .descriptorJudged s = .next t ∧ t.bit .stDsc 0 0 1 = false ∧
      t.bit .stDsc 0 0 0 = true ∧ t.bit .stDsc 0 0 2 = true ∧ t.str.dkeep = s.str.dbuf ∧ governed t es ∧ t.mem = s.mem ∧
      t.cores = s.cores)) ∧
  (∀ s : State, s.dark = true ∨ s.bit .stDsc 0 0 1 = false → exec .descriptorJudged s = .next s) ∧
  (∀ s : State, s.dark = false → s.str.reapply = true → ∃ t, exec .descriptorReapplied s = .next t ∧ t.str.reapply = false ∧
    t.bit .stDsc 0 0 1 = false ∧ t.mem = s.mem ∧ t.cores = s.cores ∧
    ∀ es, records s.str.dkeep s.str.dkeep.length (s.str.dkeep.length + 1) 16 = .ok es → (∀ e ∈ es, entryRange e = false) →
      governed t es) ∧
  (∀ s : State, s.dark = true ∨ s.str.reapply = false → exec .descriptorReapplied s = .next s) ∧
  (∀ (who : Requester) (v : Word) (s : State), up s = true → bitOf v 2 = false →
    (∃ t, exec (.stHeadWrite who v) s = .next t ∧
      t.bit .stCtl 0 0 0 = (if who = .host then bitOf v 0 else s.bit .stCtl 0 0 0) ∧
      t.bit .stCtl 0 0 1 = (if who = .host then bitOf v 1 else s.bit .stCtl 0 0 1) ∧
      (who = .host → fld v 1 0 = 3 → stAddr t = 1 ∧ ndev t = 1 ∧ t.rdF .stStat 0 0 31 16 = 94)) ∧
    (∃ t, exec (.stSwake v) s = .next t ∧ t.str.wakeSent = (s.str.wakeSent || !isSolo s) ∧ t.regs = s.regs)) ∧
  (∀ (v : Word) (s : State), up s = true →
    (∃ t, exec (.stHostPost v) s = .next t ∧ t.str.posted = some (fld v 0 0) ∧ t.rdF .stHost 0 0 10 8 = fld v 10 8) ∧
    (∃ t, exec (.stBqtailWrite v) s = .next t ∧ t.rdF .stHost 0 0 10 8 = fld v 10 8 ∧
      t.str.bqWait = Nat.min 8 (s.str.bqWait + (fld v 10 8 + 8 - s.rdF .stHost 0 0 10 8) % 8)) ∧
    (∃ t, exec (.stBrheadWrite v) s = .next t ∧ t.rdF .stHost 0 0 22 20 = fld v 22 20 ∧
      t.str.brUsed = s.str.brUsed - (fld v 22 20 + 8 - s.rdF .stHost 0 0 22 20) % 8) ∧
    (ringCond s = false → s.bit .stDsc 0 0 0 = true → s.bit .secStat 0 0 2 = false → ∃ t, exec (.stAttnClr v) s = .next t ∧ t.rdF .stAttn 0 0 7 0 = 0 ∧
      t.bit .stAttn 0 0 15 = false ∧ { t with regs := s.regs } = s) ∧
    (ringCond s = false → s.bit .stDsc 0 0 0 = false ∨ s.bit .secStat 0 0 2 = true → ∃ t, exec (.stAttnClr v) s = .next t ∧ t.rdF .stAttn 0 0 7 0 = 1) ∧
    (ringCond s = true → ∃ t, exec (.stAttnClr v) s = .next t ∧ t.rdF .stAttn 0 0 7 0 = 4) ∧
    ((∀ k < 64, s.running k = false) → ∃ t, exec (.stCyctWrite v) s = .next t ∧ t.rdF .stCyct 0 0 18 0 = fld v 18 0 ∧
      { t with regs := s.regs, str := { t.str with placed := s.str.placed } } = s) ∧
    (∀ k < 64, s.running k = true → exec (.stCyctWrite v) s = .next s) ∧
    (∃ t, exec (.stMboReady v) s = .next t ∧ t.rd .stMbo 0 0 = v ∧ t.str.mboxSeq = none ∧
      ∀ x ∈ s.str.mboxSeq, answered t x.1 x.2 9 (fld v 23 16) (s.rdF .stMbo 1 0 7 0)
        ((List.range 14).map (fun i => s.rd .stMbo (i + 2) 0)))) ∧
  (∀ s : State,
    (∃ t, exec (.perstnAssert false) s = .next t ∧ t.str.perstn = false ∧ t.inRst 71 = true ∧
      (s.inRst 71 = false → t.str.pcieUp = false)) ∧
    (∃ t, exec (.perstnAssert true) s = .next t ∧ t.str.perstn = true ∧ t.inRst 71 = false ∧ t.regs = s.regs) ∧
    (s.str.pcieUp = true → ∃ t, exec .pcieLinkDown s = .next t ∧ t.str.pcieUp = false ∧ t.bit .stStat 0 0 9 = true ∧
      { t with regs := s.regs, str := s.str } = s) ∧
    (s.str.pcieUp = false → exec .pcieLinkDown s = .next s) ∧
    (s.dark = false → s.inRst 71 = false → s.str.perstn = true → tget (fun _ => false) s.fm.down 6 = false →
      ∃ t, exec .pcieLinkUp s = .next t ∧ t.str.pcieUp = true ∧
        { t with str := { t.str with pcieUp := s.str.pcieUp } } = s) ∧
    (s.dark = true ∨ s.inRst 71 = true ∨ s.str.perstn = false → exec .pcieLinkUp s = .next s))

/-! ### The fault manager -/

/-- Resets: a power-on or device reset starts every core and register afresh and keeps memory, the Cask, the book's records and the
keys, and FM_RSTAT tells its cause; removed supplies leave Off; at its end the memories hold no valid word and attention is asked for;
the Boot ROM starts the kept image after Hold, else the preferred one that may run, with VER where it is verified, else the other, else
sets BOOTF, and in Sealed none runs unverified; a per-function reset begins or is refused, and ends;
an exceeded bound asks for attention (R238, R303, R317, R318, R321, R322, R324, R328, R332, R349, R387). The model's choices: the waiting
commands stay (log entry 16); a power-on reset leaves the bytes of the memories as they are, without valid words (log entry 116). -/
def Obligations.reset_commands_complete : Prop :=
  (∀ (cause : PorCause) (s : State),
    (s.fm.reset ≠ .off ∨ cause = .supplies →
      let cold := decide (cause = .supplies ∨ cause = .rail 3) || tget (fun _ => false) s.fm.down 3
      ∃ t, exec (.powerOnReset cause) s = .next t ∧ t.fm.reset = .powerOn ∧ t.cores = [] ∧ t.mem = s.mem ∧
        t.cask.data = s.cask.data ∧ (s.book.queue = [] → s.book.erasing = false → t.book.circ = s.book.circ ∧ t.book.perm = s.book.perm) ∧
        t.sec.keys = s.sec.keys ∧ t.pending = s.pending ∧
        t.book.cycles.toNat = Nat.min (s.book.cycles.toNat + 1) 0xFFFFFF ∧
        t.rdF .fmRstat 0 0 2 0 = (if cold then 0 else 1) ∧
        (∀ r : Fin 4, cause = .rail r → cold = false → t.rdF .fmRstat 0 0 5 3 = r ∧ t.bit .fmRstat 0 0 12 = true ∧
          t.rdF .fmRstat 0 0 31 16 = Nat.min (s.rdF .fmRstat 0 0 31 16 + 1) 65535) ∧
        secState t = (if s.bit .secReseal 0 0 0 && (secState s == 0 || secState s == 3) &&
            (List.range 32).any (fun i => keyClass s i == 1) then 1 else secState s)) ∧
    (s.fm.reset = .off → cause ≠ .supplies → exec (.powerOnReset cause) s = .next s) ∧
    (∃ t, exec .suppliesRemoved s = .next t ∧ t.fm.reset = .off ∧ t.cores = [] ∧ t.cask.data = s.cask.data ∧
      (s.book.queue = [] → s.book.erasing = false → t.book.perm = s.book.perm) ∧ t.sec.cls = s.sec.cls)) ∧
  (∀ s : State,
    (s.fm.reset ≠ .off → s.fm.reset ≠ .powerOn → ∃ t, exec .resetnAssert s = .next t ∧ t.fm.reset = .device ∧ t.cores = [] ∧
      t.mem = s.mem ∧ t.book.circ = s.book.circ ∧ t.book.cycles = s.book.cycles ∧ t.rdF .fmRstat 0 0 2 0 = 2 ∧
      t.bit .fmRstat 0 0 8 = true ∧ t.rdF .fmRstat 0 0 31 16 = Nat.min (s.rdF .fmRstat 0 0 31 16 + 1) 65535 ∧
      ∀ a, keptReg a = false → a ∉ [0x67000004, 0x6B000084, 0x68000004, 0x680001E8] → tget regDef t.regs a = regDef a) ∧
    (s.fm.reset = .off ∨ s.fm.reset = .powerOn → exec .resetnAssert s = .next s)) ∧
  (∀ (who : Requester) (v : Word) (s : State), up s = true →
    (fld v 15 8 = 0xA5 → ∃ t, exec (.fmCtlDevrst who v) s = .next t ∧ t.fm.reset = .device ∧ t.rdF .fmRstat 0 0 2 0 = 4 ∧
      t.bit .fmRstat 0 0 10 = true) ∧
    (fld v 15 8 ≠ 0xA5 → ∃ t, exec (.fmCtlDevrst who v) s = .next t ∧ { t with regs := s.regs } = s)) ∧
  (∀ (vrefen : Bool) (uv : Nat) (s : State),
    (s.fm.reset = .device ∨ s.fm.reset = .powerOn → ∃ t, exec (.resetEnd vrefen uv) s = .next t ∧ t.fm.reset = .none ∧ t.vld = [] ∧
      t.mem = s.mem ∧ t.core 513 = s.core 513 ∧ (t.core 512).pc = (s.core 512).pc ∧
      (s.fm.haltSv0 = true → (t.core 512).halted = true ∧ t.rdF .secDbg 0 0 1 0 = 2) ∧
      (s.bit .stDsc 0 0 0 = false → 1 ≤ t.rdF .stAttn 0 0 7 0) ∧
      (s.fm.reset = .powerOn → t.fm.vrefUv = if vrefen then 2500000 else uv)) ∧
    (s.fm.reset = .none ∨ s.fm.reset = .off → exec (.resetEnd vrefen uv) s = .next s)) ∧
  (∀ s : State, s.fm.reset = .none → s.fm.power = .run → (s.core 512).mode = .active → (s.core 512).halted = false →
    (s.core 512).pc < 0x40000 → s.bit .secStat 0 0 2 = false →
    (∀ entry, (keptImage s).1 = some entry → ∃ t, exec .secureBoot s = .next t ∧ (t.core 512).pc = entry ∧
      t.bit .secStat 0 0 0 = s.sec.imgVer ∧ t.bit .secStat 0 0 2 = false) ∧
    ((keptImage s).1 = none →
      let w (h : List Byte) (o : Nat) : Nat := leNat ((h.drop o).take 4)
      let head (b : Nat) : List Byte := bankBytes s b 0 256
      let body (b : Nat) : List Byte := bankBytes s b 256 (w (head b) 4)
      let verified (b : Nat) : Bool := let ks := bytesWords (((head b).drop 20).take 128)
        (keySlot s 1 (ks.take 16)).isSome && sigOk ks ((head b).take 84 ++ body b) &&
          decide ((s.rd .secRoll 0 0).toNat ≤ w (head b) 16)
      let may (b : Nat) : Prop := headerOk (head b) = true ∧ (verified b = true ∨ secState s ≠ 1 ∧ secState s ≠ 2)
      let p := s.rdF .secBoot 0 0 0 0
      let runs (b : Nat) : Prop := ∃ t, exec .secureBoot s = .next t ∧ (t.core 512).pc = w (head b) 12 ∧
        t.bit .secStat 0 0 0 = verified b ∧ t.bit .secStat 0 0 1 = decide (b = 1) ∧ t.bit .secStat 0 0 2 = false ∧
        t.sec.imgLoad = w (head b) 8 ∧ t.sec.digest = some (Config.sha256 (head b ++ body b)) ∧
        (sramQuiet s = true → ∀ i < 256 + w (head b) 4,
          t.byteAt (w (head b) 8 + i) = ((head b ++ body b).getD i 0, false))
      (may p → runs p) ∧ (¬ may p → may (1 - p) → runs (1 - p)) ∧
      (¬ may p → ¬ may (1 - p) → ∃ t, exec .secureBoot s = .next t ∧ t.bit .secStat 0 0 2 = true ∧
        t.bit .secStat 0 0 0 = false ∧ t.core 512 = s.core 512 ∧
        (s.bit .stDsc 0 0 0 = true → 1 ≤ t.rdF .stAttn 0 0 7 0)))) ∧
  (∀ (who : Requester) (v : Word) (s : State), up s = true →
    let f := fld v 6 0
    (¬ (who = .debug ∨ ∃ n : Fin 4, who = .core (.sv n) ∧ svPriv s n = true) → exec (.fmFreset who v) s = .next s) ∧
    (who = .debug ∨ (∃ n : Fin 4, who = .core (.sv n) ∧ svPriv s n = true) → ∃ t, exec (.fmFreset who v) s = .next t ∧
      (f = 75 ∨ 79 < f → t.bit .fmFreset 0 0 9 = true ∧ t.fm = s.fm) ∧
      (f ≠ 75 → f ≤ 79 → t.fm.inrst = [f] ∧ t.rdF .fmStat f 0 15 8 = Nat.min (s.rdF .fmStat f 0 15 8 + 1) 255))) ∧
  (∀ (f : Fin 80) (s : State),
    (s.inRst f = true → f.val ≠ 71 ∨ s.str.perstn = true → ∃ t, exec (.fresetEnd f) s = .next t ∧ t.inRst f = false ∧
      tget (fun _ => none) t.fm.frEnd f = some s.steady ∧ (∀ g, g ≠ f.val → t.inRst g = s.inRst g)) ∧
    (s.inRst f = false → exec (.fresetEnd f) s = .next s) ∧
    (s.inRst f = true → s.rdF .stAttn 0 0 7 0 < 3 → ∃ t, exec (.resetBoundExceeded (some f)) s = .next t ∧
      t.rdF .stAttn 0 0 7 0 = 3) ∧
    (s.fm.reset = .device → s.rdF .stAttn 0 0 7 0 < 15 → ∃ t, exec (.resetBoundExceeded none) s = .next t ∧
      t.rdF .stAttn 0 0 7 0 = 15))

/-- Supplies, heartbeat and LOCK: an episode starts with its flags, the pause of Cask writes and the non-maskable event, keeps the
lowest sample and ends with its duration; a rail below its reset level resets the device or stops what it feeds, until it is
restored; a probe is answered or waits, and its time-out sets WEDGE and asks for attention (R9, R105, R204, R254, R313–R316, R323–R325). The model's choices:
when a function wedges again (log entry 92), MINMV shows the lowest sample so far (log entry 30), the first sample of an episode is the
voltage at its start (log entry 51). -/
def Obligations.supply_and_heartbeat_commands_complete : Prop :=
  (∀ (rail : Fin 7) (mv : Nat) (s : State),
    (inEpisode s rail = false → s.fm.reset = .none → mv < warnMv s rail → ∃ t, exec (.supplyWarningStart rail mv) s = .next t ∧
      inEpisode t rail = true ∧ t.bit .fmSstat rail 0 0 = true ∧ t.bit .fmSstat rail 0 1 = true ∧
      t.rdF .fmSstat rail 0 31 16 = mv ∧ t.bit .fmFlt 0 0 3 = true ∧
      (rail.val ≤ 2 → t.bit .ckStat 0 0 6 = true ∧
        ∀ n < 4, (s.core (512 + n)).mode = .active → (s.core (512 + n)).halted = false → s.inRst (76 + n) = false →
          (t.core (512 + n)).nmi = (s.core (512 + n)).nmi ||| 2 ^ (rail.val + 1))) ∧
    (inEpisode s rail = true ∨ warnMv s rail ≤ mv → exec (.supplyWarningStart rail mv) s = .next s) ∧
    (∀ e ∈ tget (fun _ => none) s.fm.eps rail, e.low < 65536 →
      (∃ t, exec (.supplySample rail mv) s = .next t ∧ t.rdF .fmSstat rail 0 31 16 = Nat.min e.low mv ∧
        tget (fun _ => none) t.fm.eps rail = some { e with low := Nat.min e.low mv }) ∧
      (mv ≤ warnMv s rail + 10 → exec (.supplyEpisodeEnd rail mv) s = .next s) ∧
      (warnMv s rail + 10 < mv → ∃ t, exec (.supplyEpisodeEnd rail mv) s = .next t ∧ inEpisode t rail = false ∧ t.bit .fmSstat rail 0 0 = false ∧
        t.bit .fmSstat rail 0 2 = true ∧ t.rdF .fmSstat rail 0 31 16 = e.low ∧
        t.rd .fmSdur rail 0 = wd ((s.steady - e.start).toNat / 400))) ∧
    (inEpisode s rail = false → exec (.supplySample rail mv) s = .next s ∧ exec (.supplyEpisodeEnd rail mv) s = .next s)) ∧
  (∀ (v : Word) (s : State), up s = true →
    (∃ t, exec (.fmSupWarnWrite v) s = .next t ∧ t.bit .fmSup 0 0 4 = bitOf v 4 ∧
      t.rdF .fmSup 0 0 3 0 = (if s.bit .fmCtl 0 0 31 then s.rdF .fmSup 0 0 3 0 else fld v 3 0) ∧ { t with regs := s.regs } = s) ∧
    (bitOf v 0 = false → ∃ t, exec (.fmLock v) s = .next t ∧ t.bit .fmCtl 0 0 31 = true ∧ { t with regs := s.regs } = s)) ∧
  (∀ (rail : Fin 7) (s : State),
    (s.fm.reset = .off → exec (.supplyBelowResetLevel rail) s = .next s) ∧
    (s.fm.reset ≠ .off → ∃ t, exec (.supplyBelowResetLevel rail) s = .next t ∧ tget (fun _ => false) t.fm.down rail = true ∧
      (rail.val < 4 → t.fm.reset = .powerOn) ∧ (rail.val = 4 → t.ads = [] ∧ (s.dark = false → ∀ n < 64, (t.gc n).hold = true) ∧
        (s.dark = true → t.gcs = s.gcs)) ∧
      (rail.val = 5 → isSolo s = false → t.bit .stLink 0 0 0 = false ∧ t.bit .stLink 1 0 0 = false) ∧
      (rail.val = 6 → t.str.pcieUp = false ∧ t.bit .stStat 0 0 9 = true)) ∧
    (∃ t, exec (.supplyRestored rail) s = .next t ∧ tget (fun _ => false) t.fm.down rail = false)) ∧
  (∀ (silent : List (Fin 80)) (f : Fin 80) (s : State), s.timeOk = true → s.fm.reset = .none → s.fm.power ≠ .hold →
    ∃ t, exec (.heartbeatProbe silent) s = .next t ∧
      (probed s f = false → t.rd .fmStat f 0 = s.rd .fmStat f 0) ∧
      (probed s f = true → f ∈ silent → f.val ∈ t.fm.probes ∧ t.rd .fmStat f 0 = s.rd .fmStat f 0) ∧
      (probed s f = true → f ∉ silent → f.val < 76 → t.bit .fmStat f 0 4 = true ∧
        t.rdF .fmStat f 0 3 0 = (s.rdF .fmStat f 0 3 0 + 1) % 16)) ∧
  (∀ (f : Fin 80) (s : State),
    (f.val ∉ s.fm.probes → exec (.probeTimeout f) s = .next s) ∧
    (f.val ∈ s.fm.probes → ∃ t, exec (.probeTimeout f) s = .next t ∧ f.val ∉ t.fm.probes ∧ t.bit .fmStat f 0 4 = false ∧
      t.bit .fmStat f 0 5 = true ∧ t.bit .fmFlt 0 0 1 = true ∧
      (s.bit .fmStat f 0 7 = true → s.rdF .stAttn 0 0 7 0 < 2 → within100ms s (tget (fun _ => none) s.fm.frEnd f) = false →
        within100ms s s.fm.devEnd = false → t.rdF .stAttn 0 0 7 0 = 2 ∧ t.rdF .stAttn 0 0 14 8 = f) ∧
      (s.bit .fmStat f 0 7 = false → within100ms s s.fm.devEnd = false →
        s.fm.wedged.contains f.val = false ∨ within100ms s (tget (fun _ => none) s.fm.frEnd f) = false →
        t.rd .stAttn 0 0 = s.rd .stAttn 0 0) ∧
      (s.fm.wedged.contains f.val = true → within100ms s (tget (fun _ => none) s.fm.frEnd f) = true →
        3 ≤ t.rdF .stAttn 0 0 7 0) ∧
      (within100ms s s.fm.devEnd = true → 15 ≤ t.rdF .stAttn 0 0 7 0) ∧ t.fm.wedged.contains f.val = true))

/-- Power states: a request of a privileged supervisor enters Idle or Hold, is refused with its reason or does nothing; Idle is
reached once all is quiet and left by its causes; Hold begins with low-frequency time; wakes are noted, and a wake starts SV0 again
with LAST 6 and the memories that were kept; BOOTF of the boot before is then 0, which is the model's choice (log entry 117) (R40, R44,
R280, R306–R312, R337, R342). -/
def Obligations.power_state_commands_complete : Prop :=
  (∀ (n : Fin 4) (v : Word) (s : State), up s = true → svPriv s n = true →
    (∃ t, exec (.fmPwrRun (.core (.sv n)) v) s = .next t ∧ t.fm.power = .run ∧ { t with regs := s.regs } = s) ∧
    (∃ t, exec (.fmPwrIdle (.core (.sv n)) v) s = .next t ∧
      (secState s = 2 → t.bit .fmPstat 0 0 6 = true ∧ t.rdF .fmPstat 0 0 10 8 = 1 ∧ t.fm.power = .run) ∧
      (secState s ≠ 2 → s.rdF .secDbg 0 0 1 0 = 3 → t.bit .fmPstat 0 0 6 = true ∧ t.rdF .fmPstat 0 0 10 8 = 3) ∧
      (secState s ≠ 2 → s.rdF .secDbg 0 0 1 0 ≠ 3 → t.fm.power = .enteringIdle ∧ t.rdF .fmPstat 0 0 1 0 = 2)) ∧
    (∃ t, exec (.fmPwrHold (.core (.sv n)) v) s = .next t ∧
      (let wake := bitOf v 6 || bitOf v 8 || s.bit .tbCtl 0 0 4
       (secState s = 2 → t.bit .fmPstat 0 0 6 = true ∧ t.rdF .fmPstat 0 0 10 8 = 1 ∧ t.fm.power = .run) ∧
       (secState s ≠ 2 → s.rdF .secDbg 0 0 1 0 ≠ 0 → t.bit .fmPstat 0 0 6 = true ∧ t.rdF .fmPstat 0 0 10 8 = 3) ∧
       (secState s ≠ 2 → s.rdF .secDbg 0 0 1 0 = 0 → wake = false → t.bit .fmPstat 0 0 6 = true ∧ t.rdF .fmPstat 0 0 10 8 = 2) ∧
       (secState s ≠ 2 → s.rdF .secDbg 0 0 1 0 = 0 → wake = true → t.fm.power = .enteringHold ∧ t.bit .ckStat 0 0 0 = false ∧
         ∀ l < 192, released t l = true)))) ∧
  (∀ s : State,
    (s.fm.power = .enteringIdle → allQuiet s = true → ∃ t, exec .idleEntered s = .next t ∧ t.fm.power = .idle ∧
      t.rdF .fmPstat 0 0 1 0 = 1 ∧ t.bit .fmPstat 0 0 5 = true ∧ { t with regs := s.regs, fm := s.fm } = s) ∧
    (s.fm.power ≠ .enteringIdle ∨ allQuiet s = false → exec .idleEntered s = .next s) ∧
    (s.fm.power = .idle → ∃ t, exec (.idleExit .power) s = .next t ∧ t.fm.power = .run ∧ t.rdF .fmPstat 0 0 1 0 = 0 ∧
      t.bit .fmPstat 0 0 5 = true) ∧
    (s.fm.power = .idle → exec (.idleExit .wakePin) s = (if s.bit .fmPwr 0 0 6 then exec (.idleExit .power) s else .next s)) ∧
    (s.fm.power = .idle → exec (.idleExit .stringWake) s = (if s.bit .fmPwr 0 0 8 then exec (.idleExit .power) s else .next s)) ∧
    (∀ n : Fin 4, s.fm.power = .idle → exec (.idleExit (.irq n)) s =
      (if signalled s n then exec (.idleExit .power) s else .next s)) ∧
    (∀ c : IdleCause, s.fm.power ≠ .idle → exec (.idleExit c) s = .next s) ∧
    (s.fm.power = .enteringHold → s.fm.reset = .none → ∃ t, exec .holdEntryComplete s = .next t ∧ t.fm.power = .hold ∧ t.bit .tbStat 0 0 1 = true ∧
      t.bit .tbStat 0 0 0 = false ∧ t.bit .fmPstat 0 0 5 = true ∧ t.str.passThru = true ∧ t.str.pcieUp = false ∧
      t.irqKeep.isSome = true ∧ ∀ k < 128, t.src k = false) ∧
    (s.fm.power ≠ .enteringHold ∨ s.fm.reset ≠ .none → exec .holdEntryComplete s = .next s) ∧
    (s.fm.power = .hold → s.fm.wake = 0 →
      (∃ t, exec .wakePin s = .next t ∧ t.fm.wake = (if s.bit .fmPwr 0 0 6 then 1 else 0) ∧ { t with fm := s.fm } = s) ∧
      (∃ t, exec .stringWakeSequence s = .next t ∧ t.fm.wake = (if s.bit .fmPwr 0 0 8 then 2 else 0) ∧ t.str.wakeSent = true ∧
        { t with fm := s.fm, str := { t.str with wakeSent := s.str.wakeSent } } = s) ∧
      (s.bit .tbStat 0 0 1 = true → wakeReached (lfAdvance s) = true →
        ∃ t, exec .tbWakeCompare s = .next t ∧ t.fm.wake = 3 ∧ t.now = (lfAdvance s).now)) ∧
    (s.fm.power = .hold → s.fm.wake ≠ 0 → s.fm.wake < 8 → s.bit .pmuDstat 0 0 8 = false → ∃ t, exec .holdWake s = .next t ∧ t.fm.power = .run ∧ t.fm.wake = 0 ∧
      t.rdF .fmRstat 0 0 2 0 = 6 ∧ t.bit .secStat 0 0 2 = false ∧ t.rdF .fmPstat 0 0 4 2 = s.fm.wake ∧ t.cores = [] ∧ t.str.reapply = s.bit .stDsc 0 0 0 ∧
      t.mem = s.mem ∧ t.vldAt 0x10000000 = 0 ∧
      ∀ b < 4, t.vldAt (0x20000000 + 0x100000 * b) =
        if s.bit .fmPwr 0 0 (2 + b) then s.vldAt (0x20000000 + 0x100000 * b) else 0) ∧
    (s.fm.power ≠ .hold ∨ s.fm.wake = 0 → exec .holdWake s = .next s))

/-! ### Security, debug, the Cellar Book -/

/-- The key store, boot banks, rollback, release and opening: a key is written to an empty slot or erased, or KEYR is set; a bank write
runs or is refused, and copies the image as it is read from SRAM, with its errors counted, except in Hold and while Cask writes pause;
SEC_ROLL never falls; SV0 releases the others; a challenge is made in Sealed, expires, and an
opening is refused with its reason or verified; it ends once every confidential slot is erased; with BOOTF set SV0 writes none but the
registers that the Boot ROM serves (R239, R254, R309, R328–R337). The model's choices (log entry 49): a class outside 1–4 and a source outside SRAM are
refused, and a bank write is ignored while one runs. -/
def Obligations.security_commands_complete : Prop :=
  (∀ (v : Word) (s : State), up s = true →
    let i := fld v 6 2
    let c := fld v 9 7
    let lim := decide (secState s = 1 ∨ secState s = 2 ∨ i = 0)
    let key := words256 ((List.range 8).map (tget (fun _ => 0) s.sec.kw))
    let bad := lim || decide (keyClass s i ≠ 0 ∨ c = 0 ∨ 4 < c)
    (∃ t, exec (.secKeyWrite v) s = .next t ∧ t.sec.kw = [] ∧ t.bit .secStat 0 0 3 = (s.bit .secStat 0 0 3 || bad) ∧
      (bad = false → keyClass t i = c ∧ tget (fun _ => 0) t.sec.keys i = key) ∧
      (∀ j < 32, bad = true ∨ j ≠ i → keyClass t j = keyClass s j ∧ tget (fun _ => 0) t.sec.keys j = tget (fun _ => 0) s.sec.keys j)) ∧
    (∃ t, exec (.secKeyErase v) s = .next t ∧ t.sec.kw = [] ∧ t.bit .secStat 0 0 3 = (s.bit .secStat 0 0 3 || lim) ∧
      (lim = false → keyClass t i = 0 ∧ tget (fun _ => 0) t.sec.keys i = 0) ∧
      (∀ j < 32, lim = true ∨ j ≠ i → keyClass t j = keyClass s j ∧ tget (fun _ => 0) t.sec.keys j = tget (fun _ => 0) s.sec.keys j))) ∧
  (∀ (v : Word) (s : State), up s = true → s.bit .secBankw 0 0 2 = false →
    let a := v.toNat / 8 * 8
    let no := decide (fld v 1 1 = s.rdF .secStat 0 0 1 1 ∨ a < 0x20000000 ∨ 0x20400000 < a + 256)
    ∃ t, exec (.secBankWrite v) s = .next t ∧ t.bit .secBankw 0 0 2 = !no ∧
      t.sec.bankBusy = (if no then s.sec.bankBusy else some (fld v 1 1, a)) ∧
      t.bit .secStat 0 0 3 = (s.bit .secStat 0 0 3 || no) ∧ t.sec.banks = s.sec.banks) ∧
  (∀ (v : Word) (s : State), s.bit .secBankw 0 0 2 = true → exec (.secBankWrite v) s = .next s) ∧
  (∀ (b a : Nat) (s : State), s.sec.bankBusy = some (b, a) →
    let len := leNat ((s.bytesAt (a + 4) 4).map (·.1))
    let n := Nat.min (256 + Nat.min len 1048320) (0x20400000 - a)
    let r := readLong s a n
    (s.bit .ckStat 0 0 6 = true ∨ s.dark = true → exec .secBankWriteDone s = .next s) ∧
    (s.bit .ckStat 0 0 6 = false → s.dark = false → ∃ t, exec .secBankWriteDone s = .next t ∧ t.sec.bankBusy = none ∧
      t.bit .secBankw 0 0 2 = false ∧ (∀ i < n, bankByte t b i = (r.1.getD i (0, false)).1) ∧
      (sramQuiet s = true → ∀ i < n, bankByte t b i = (s.byteAt (a + i)).1) ∧
      (∀ i, i < 0x100000 → n ≤ i → bankByte t b i = bankByte s b i) ∧
      (∀ m < 1100, t.rd .memEcnt m 0 = r.2.rd .memEcnt m 0 ∧ t.rd .memUeaddr m 0 = r.2.rd .memUeaddr m 0) ∧ t.book = r.2.book)) ∧
  (∀ (who : Requester) (v : Word) (s : State), up s = true →
    (who = .core (.sv 0) → s.bit .secStat 0 0 2 = true → exec (.secRollWrite v who) s = .next s ∧
      exec (.secSvrel who v) s = .next s) ∧
    (who ≠ .core (.sv 0) ∨ s.bit .secStat 0 0 2 = false →
      ∃ t, exec (.secRollWrite v who) s = .next t ∧ (t.rd .secRoll 0 0).toNat = Nat.max (s.rd .secRoll 0 0).toNat v.toNat ∧
      { t with regs := s.regs } = s) ∧
    (who ≠ .core (.sv 0) → exec (.secSvrel who v) s = .next s) ∧
    (s.bit .secStat 0 0 2 = false → ∃ t, exec (.secSvrel (.core (.sv 0)) v) s = .next t ∧
      (∀ n, 513 ≤ n → n < 516 → (s.core n).mode = .unreleased → bitOf v (n - 512) = true → (t.core n).mode = .active ∧
        (t.core n).pc = (s.rd .secSvpc 0 0).toNat) ∧
      (∀ n < 516, n < 513 ∨ (s.core n).mode ≠ .unreleased ∨ bitOf v (n - 512) = false → t.core n = s.core n))) ∧
  (∀ (random : BitVec 192) (s : State), up s = true →
    (secState s = 1 → ∃ t, exec (.secOpenChreq random) s = .next t ∧ t.sec.chv = true ∧ t.bit .secOpen 0 0 2 = true ∧
      t.sec.chal = Config.serial ++ random) ∧
    (secState s ≠ 1 → exec (.secOpenChreq random) s = .next s) ∧
    (s.sec.chv = true → ∃ t, exec .challengeExpiry s = .next t ∧ t.sec.chv = false ∧ t.bit .secOpen 0 0 2 = false) ∧
    (s.sec.chv = false → exec .challengeExpiry s = .next s) ∧
    (let r := if secState s ≠ 1 ∨ s.sec.chv = false then 1 else if anyEnabled s then 2
       else if s.rdF .ckSwstat 0 0 2 0 = 1 ∨ s.rdF .ckSwstat 0 0 2 0 = 2 then 3 else if 8 ≤ s.rdF .secStat 0 0 12 9 then 4 else 0
     ∃ t, exec .secOpenGo s = .next t ∧ t.sec.chv = false ∧
       (r ≠ 0 → t.bit .secStat 0 0 4 = true ∧ t.rdF .secStat 0 0 7 5 = r ∧ t.sec.opening = s.sec.opening) ∧
       (r = 0 → t.sec.opening.isSome = true ∧ t.rd .secStat 0 0 = s.rd .secStat 0 0))) ∧
  (∀ (ws : List Word) (s : State), s.sec.opening = some ws →
    let ok := (keySlot s 2 (ws.take 16)).isSome && sigOk ws (wordsBytes (ws.drop 32))
    ∃ t, exec .openingVerified s = .next t ∧ t.sec.opening = none ∧
      (ok = true → secState t = 2 ∧ t.sec.chv = false ∧ ∀ i < 32, keyClass s i = 4 → keyClass t i = 0) ∧
      (ok = false → secState t = secState s ∧ t.bit .secStat 0 0 4 = true ∧ t.rdF .secStat 0 0 7 5 = 5 ∧
        t.rdF .secStat 0 0 12 9 = Nat.min (s.rdF .secStat 0 0 12 9 + 1) 15)) ∧
  (∀ s : State, let done := !anyN 8 (fun v => (dirState s v == 6 || dirShown s v == 6) && s.sec.dirMask.testBit v)
    (secState s = 2 → done = true → s.dark = false → ∃ t, exec .openEntered s = .next t ∧ secState t = 3 ∧ t.bit .secStat 0 0 8 = true) ∧
    (secState s ≠ 2 ∨ done = false ∨ s.dark = true → exec .openEntered s = .next s))

/-- JTAG and the debug operations: each instruction selects its register; a scan shifts in OP, ADDR, DATA and TGT and captures STATUS,
POISON and DATA of the operation before it, or STATUS 1 while that one is busy, and then its own operation is ignored; an operation is refused with STATUS 3 where the security state denies it and
4 while the core domain is off or in reset; else it reads, writes, attaches, detaches, halts, resumes, steps, reports, resets, reads the
challenge or writes the response (R41, R338–R342). The model's choices: the order of the two refusals in Hold (log entry 100), the early
scan (log entry 101); operations act also while Detached, and a TGT outside the list and a step of no halted core answer STATUS 2 (log
entry 67). -/
def Obligations.debug_commands_complete : Prop :=
  (∀ (pins load : List Bool) (s : State), s.fm.reset ≠ .off →
    (∃ t, exec .jtagExtest s = .next t ∧ t.tap.ir = 0 ∧ (tapLimited s = true → t.tap.dr = 0) ∧ { t with tap := s.tap } = s ∧
      (∀ n own, t.atPin n own = if s.fm.reset = .none ∧ tapLimited s = false then Config.bsPin s.tap.boundary n else own)) ∧
    (∃ t, exec (.jtagSamplePreload pins load) s = .next t ∧ t.tap.ir = 1 ∧ t.tap.sample = pins ∧ t.tap.boundary = load ∧
      t.tap.extest = false ∧
      { t with tap := s.tap } = s) ∧
    (∃ t, exec .jtagIdcode s = .next t ∧ t.tap.ir = 2 ∧ t.tap.dr = 0x16400A5F ∧ { t with tap := s.tap } = s) ∧
    (∃ t, exec .jtagBypass s = .next t ∧ t.tap.ir = 15 ∧ t.tap.dr = 0 ∧ { t with tap := s.tap } = s) ∧
    (∃ t, exec .tapReset s = .next t ∧ t.tap.ir = 2 ∧ t.tap.dr = 0x16400A5F ∧ { t with tap := s.tap } = s)) ∧
  (∀ (op : BitVec 4) (addr data : Word) (tgt : BitVec 4) (status poison : Nat), status < 16 → poison < 16 →
    (let x := scanIn op addr data tgt
     scanOp x = op.toNat ∧ scanAddr x = addr ∧ scanData x = data ∧ scanTgt x = tgt) ∧
    (let y := scanOut status poison data
     (y.extractLsb' 0 4).toNat = status ∧ (y.extractLsb' 4 4).toNat = poison ∧ y.extractLsb' 8 32 = data ∧
       y.extractLsb' 40 32 = 0)) ∧
  (∀ (early : Bool) (addr data : Word) (tgt op : BitVec 4) (random : BitVec 192) (s : State), s.fm.reset ≠ .off →
    let denied := s.dark || tapLimited s
    let scan (x : BitVec 72) : TapS := { s.tap with
      ir := 8, extest := false, scan := x, capture := scanOut s.tap.status s.tap.poison s.tap.data, opAt := some s.steady }
    let b (x : BitVec 72) : State := { s with tap := { s.tap with ir := 8, extest := false, scan := x, capture := scanOut 1 0 0 } }
    let d (x : BitVec 72) (st : Nat) : State := { s with tap := { scan x with status := st, data := 0, poison := 0 } }
    let st := if tapLimited s then 3 else 4
    let w (op : BitVec 4) : BitVec 72 := scanIn op addr 0 0
    let g (op : BitVec 4) : BitVec 72 := scanIn op addr 0 tgt
    (dbgBusy s early = true → exec (.dbgRead addr early) s = .next (b (w 1)) ∧
      exec (.dbgWrite addr data early) s = .next (b (scanIn 2 addr data 0)) ∧
      exec (.dbgAttach early) s = .next (b (scanIn 3 0 0 0)) ∧ exec (.dbgDetach early) s = .next (b (scanIn 4 0 0 0)) ∧
      exec (.dbgHalt tgt addr early) s = .next (b (g 5)) ∧ exec (.dbgResume tgt addr early) s = .next (b (g 6)) ∧
      exec (.dbgStep tgt addr early) s = .next (b (g 7)) ∧ exec (.dbgStatus early) s = .next (b (scanIn 8 0 0 0)) ∧
      exec (.dbgReset data early) s = .next (b (scanIn 9 0 data 0)) ∧
      exec (.dbgReadChallenge addr early) s = .next (b (w 10)) ∧
      exec (.dbgWriteResponse addr data random early) s = .next (b (scanIn 11 addr data 0)) ∧
      (op = 0 ∨ 12 ≤ op.toNat → exec (.dbgOpError op early) s = .next (b (scanIn op 0 0 0)))) ∧
    (dbgBusy s early = false → denied = true →
      exec (.dbgAttach early) s = .next (d (scanIn 3 0 0 0) (if s.fm.power = .hold then 4 else st)) ∧
      exec (.dbgDetach early) s = .next (d (scanIn 4 0 0 0) st) ∧ exec (.dbgHalt tgt addr early) s = .next (d (g 5) st) ∧
      exec (.dbgResume tgt addr early) s = .next (d (g 6) st) ∧ exec (.dbgStep tgt addr early) s = .next (d (g 7) st) ∧
      exec (.dbgReset data early) s = .next (d (scanIn 9 0 data 0) st) ∧
      exec (.dbgWrite addr data early) s = .next (d (scanIn 2 addr data 0) st) ∧
      (addr.toNat / 0x1000000 ≠ 0x68 → exec (.dbgRead addr early) s = .next (d (w 1) st)) ∧
      (12 ≤ op.toNat → exec (.dbgOpError op early) s = .next (d (scanIn op 0 0 0) st))) ∧
    (dbgBusy s early = false →
      exec (.dbgStatus early) s =
        .next { s with tap := { scan (scanIn 8 0 0 0) with status := 0, data := s.rd .secDbg 0 0, poison := 0 } } ∧
      exec (.dbgReadChallenge addr early) s =
        .next { s with tap := { scan (w 10) with status := 0, data := readSecChal s (fld addr 2 0), poison := 0 } } ∧
      exec (.dbgOpError 0 early) s = .next (d (scanIn 0 0 0 0) 0) ∧
      (∃ t, exec (.dbgWriteResponse addr data random early) s = .next t ∧
        t.tap = (d (scanIn 11 addr data 0) 0).tap ∧
        (s.fm.reset = .none → bitOf addr 5 = false → tget (fun _ => 0) t.sec.resp (fld addr 4 0) = data) ∧
        (s.fm.reset = .none → bitOf addr 5 = true → data = 1 → secState s = 1 →
          t.sec.chal = Config.serial ++ random ∧ t.sec.chv = true))) ∧
    (dbgBusy s early = false → denied = false →
      (hostReach s .load addr.toNat 4 = false → exec (.dbgRead addr early) s = .next (d (w 1) 2)) ∧
      (hostReach s .load addr.toNat 4 = true → ∃ t, exec (.dbgRead addr early) s = .next t ∧
        (let bs := (busRead s 517 addr.toNat 4).1
         t.tap = { scan (w 1) with status := 0, data := bytesWord bs, poison := t.tap.poison } ∧
           ∀ i < 4, t.tap.poison.testBit i = (bs.getD i (0, false)).2)) ∧
      (hostReach s .store addr.toNat 4 = false → exec (.dbgWrite addr data early) s = .next (d (scanIn 2 addr data 0) 2)) ∧
      (hostReach s .store addr.toNat 4 = true → 0x20000000 ≤ addr.toNat → addr.toNat < 0x20400000 → sramQuiet s = true →
        ∃ t, exec (.dbgWrite addr data early) s = .next t ∧ t.tap = (d (scanIn 2 addr data 0) 0).tap ∧
          loadValue (t.bytesAt addr.toNat 4) false = (data, false)) ∧
      (∃ t, exec (.dbgAttach early) s = .next t ∧ t.tap = (d (scanIn 3 0 0 0) 0).tap ∧
        t.rdF .secDbg 0 0 1 0 = if s.rdF .secDbg 0 0 1 0 = 0 then 1 else s.rdF .secDbg 0 0 1 0) ∧
      (∃ t, exec (.dbgDetach early) s = .next t ∧ t.tap = (d (scanIn 4 0 0 0) 0).tap ∧ t.rdF .secDbg 0 0 1 0 = 0 ∧
        ∀ c < 516, (t.core c).halted = false) ∧
      (tgt.toNat < 4 → (∃ t, exec (.dbgHalt tgt addr early) s = .next t ∧ t.tap = (d (g 5) 0).tap ∧
          (t.core (512 + tgt.toNat)).halted = true ∧ t.bit .secDbg 0 0 (2 + tgt.toNat) = true) ∧
        (∃ t, exec (.dbgResume tgt addr early) s = .next t ∧ t.tap = (d (g 6) 0).tap ∧
          (t.core (512 + tgt.toNat)).halted = false) ∧
        (∃ t, exec (.dbgStep tgt addr early) s = .next t ∧
          t.tap = (d (g 7) (if (s.core (512 + tgt.toNat)).halted then 0 else 2)).tap ∧
          (t.core (512 + tgt.toNat)).stepOne = ((s.core (512 + tgt.toNat)).halted || (s.core (512 + tgt.toNat)).stepOne))) ∧
      (tgt = 4 → (∃ t, exec (.dbgHalt tgt addr early) s = .next t ∧ t.tap = (d (g 5) 0).tap ∧ t.rdF .secDbg 0 0 1 0 = 3 ∧
          (∀ c < 516, (t.core c).halted = true) ∧ (∀ n < 192, t.bit .lnCtl n 0 0 = false) ∧
          (s.bit .tbStat 0 0 0 = true → s.bit .tbCtl 0 0 2 = true → t.bit .tbStat 0 0 1 = true ∧ t.bit .tbStat 0 0 0 = false)) ∧
        (∃ t, exec (.dbgStep tgt addr early) s = .next t ∧
          t.tap = (d (g 7) (if anyN 516 (fun c => (s.core c).halted) then 0 else 2)).tap ∧
          ∀ c < 516, (t.core c).stepOne = ((s.core c).halted || (s.core c).stepOne))) ∧
      (tgt ≠ 8 → 4 < tgt.toNat → exec (.dbgHalt tgt addr early) s = .next (d (g 5) 2) ∧
        exec (.dbgResume tgt addr early) s = .next (d (g 6) 2) ∧ exec (.dbgStep tgt addr early) s = .next (d (g 7) 2)) ∧
      (∃ t, exec (.dbgReset data early) s = .next t ∧ t.fm.reset = .device ∧ t.rdF .fmRstat 0 0 2 0 = 5 ∧
        t.fm.haltSv0 = bitOf data 0) ∧
      (12 ≤ op.toNat → exec (.dbgOpError op early) s = .next (d (scanIn op 0 0 0) 2))))

/-- The Cellar Book: a queued record is written at CHEAD with its number, or counts as a repeat of the newest; repeats are rewritten;
operating seconds count; a read selects a place and later shows its record to its requester alone, the words of an uncorrectable entry
poisoned; a clear is requested, verified or refused, and done, and the host that asked is answered (R307, R345–R353). The model's
choices: CBUSY is 1 from the request on (log entry 35); repeats wait for each place until they are rewritten (log entry 40). -/
def Obligations.book_commands_complete : Prop :=
  (∀ s : State, bookOk s = true →
    (∀ r rest, s.book.queue = r :: rest → rest ≠ [] →
      let n := newestPlace s
      let same := decide (s.ccount ≠ 0) && sameEvent r (s.circ n)
      (same = true → ∃ t, exec .cbRecordWrite s = .next t ∧ t.book.queue = rest ∧ t.book.circ = s.book.circ ∧
        tget (fun _ => 0) t.book.rptPend n = tget (fun _ => 0) s.book.rptPend n + 1) ∧
      (same = false → ∃ t, exec .cbRecordWrite s = .next t ∧ t.book.queue = rest ∧ t.chead = (s.chead + 1) % 4096 ∧
        t.lastSeq = (s.lastSeq + 1) % 65536 ∧ t.ccount = Nat.min (s.ccount + 1) 4096 ∧
        sameEvent (t.circ s.chead) r = true ∧ (t.circ s.chead).seq.toNat = (s.lastSeq + 1) % 65536 ∧
        (t.circ s.chead).rpt = 1 ∧ ∀ p, p ≠ s.chead → t.circ p = s.circ p)) ∧
    (∃ t, exec .cbRepeatRewrite s = .next t ∧ t.book.rptPend = [] ∧
      (∀ p k, s.book.rptPend = [(p, k)] → t.circ p = { s.circ p with rpt := Nat.min ((s.circ p).rpt + k) 65535 } ∧
        ∀ e, tget (fun _ => 0) t.book.err e = if e = bookEntry false p 1 then 0 else tget (fun _ => 0) s.book.err e) ∧
      { t with book := s.book } = s)) ∧
  (∀ s : State, bookOk s = false → exec .cbRecordWrite s = .next s ∧ exec .cbRepeatRewrite s = .next s) ∧
  (∀ s : State, s.fm.reset ≠ .off → ∃ t, exec .cbOperatingSecond s = .next t ∧ t.book.opTime = s.book.opTime + 1 ∧
    t.book.opStored = (if s.book.opStored + 64 ≤ s.book.opTime + 1 ∧ s.bit .ckStat 0 0 6 = false then s.book.opTime + 1
      else s.book.opStored) ∧ { t with book := s.book } = s) ∧
  (∀ (who : Requester) (v : Word) (s : State), up s = true →
    let b := bankOf (reqNum who)
    let f := storeFault s who (Reg.cbRead.addr 0 0)
    (f ≠ 0 → ∃ t, exec (.cbReadWrite who v) s = .next t ∧ { t with resp := s.resp } = s ∧
      tget (fun _ => {}) t.resp (reqNum who) = { fault := f }) ∧
    (f = 0 → 512 ≤ reqNum who → ∃ t, exec (.cbReadWrite who v) s = .next t ∧ (t.bank b).sel = v &&& 0x3FFF ∧ (t.bank b).ready = false ∧
      (∀ c, c ≠ b → t.bank c = s.bank c)) ∧
    (reqNum who < 512 ∨ (s.bank b).started = false → exec (.cbReadReady who) s = .next s) ∧
    (512 ≤ reqNum who → (s.bank b).started = true → ∃ t, exec (.cbReadReady who) s = .next t ∧ (t.bank b).ready = true ∧
      (t.bank b).started = false ∧ (∀ c, c ≠ b → t.bank c = s.bank c) ∧
      (selected s (s.bank b).sel = none → (t.bank b).words = List.replicate 8 (0, false)) ∧
      (∀ perm p, selected s (s.bank b).sel = some (perm, p) →
        let r := if perm then s.perm p else s.circ p
        let e (j : Nat) : BitVec 80 := tget (fun _ => 0) s.book.err (bookEntry perm p j)
        (r.code = 0 → (t.bank b).words = List.replicate 8 (0, false)) ∧
        (r.code ≠ 0 → (∀ j < 4, e j = 0) → (t.bank b).words = (recWords r).map (·, false)) ∧
        (r.code ≠ 0 → ∀ j < 4, (decodeEntry (entryData r j) (e j)).1 = .uncorrectable →
          ∀ i < 2, ((t.bank b).words.getD (2 * j + i) (0, false)).2 = true))) ∧
    (let g := storeFault s who (Reg.cbClear.addr 0 0)
     (g ≠ 0 → ∃ t, exec (.cbClearGo who v) s = .next t ∧ { t with resp := s.resp } = s ∧
       tget (fun _ => {}) t.resp (reqNum who) = { fault := g }) ∧
     (∀ n : Fin 512, who = .core (.ce n) → g = 5) ∧
     (∀ n : Fin 4, who = .core (.sv n) → svPriv s n = false → g = 6) ∧
     (g = 0 → s.book.clear = none → ∃ t, exec (.cbClearGo who v) s = .next t ∧ t.bit .cbStat 0 0 25 = true ∧ t.book.csig = [] ∧
       t.book.clear = some (none, (List.range 32).map (tget (fun _ => 0) s.book.csig))) ∧
     (g = 0 → s.book.clear.isSome = true → ∃ t, exec (.cbClearGo who v) s = .next t ∧ t.bit .cbStat 0 0 27 = true ∧
       t.rdF .cbStat 0 0 29 28 = 2 ∧ t.book.clear = s.book.clear))) ∧
  (∀ (asker : Option (BitVec 16)) (ws : List Word) (s : State), s.book.clear = some (asker, ws) →
    let k := keySlot s 3 (ws.take 16)
    let ok := k.isSome && sigOk ws (wordsBytes ([0x4C434243] ++ serialWords ++ [s.rd .cbCcnt 0 0]))
    (s.book.erasing = false → ∃ t, exec .cbClearVerified s = .next t ∧ t.book.circ = s.book.circ ∧
      (ok = true → t.book.erasing = true ∧ some t.book.clrSlot = k) ∧
      (ok = false → t.book.clear = none ∧ t.bit .cbStat 0 0 25 = false ∧ t.bit .cbStat 0 0 27 = true ∧
        t.rdF .cbStat 0 0 29 28 = 1)) ∧
    (s.book.erasing = true → s.bit .ckStat 0 0 6 = true ∨ s.inRst 74 = true ∨ s.dark = true → exec .cbClearDone s = .next s) ∧
    (s.book.erasing = true → s.bit .ckStat 0 0 6 = false → s.inRst 74 = false → s.dark = false → ∃ t, exec .cbClearDone s = .next t ∧ t.book.clear = none ∧
      t.book.erasing = false ∧ t.ccount = 1 ∧ t.rd .cbCcnt 0 0 = s.rd .cbCcnt 0 0 + 1 ∧ (t.circ 0).code = 1 ∧
      (t.circ 0).p0 = s.rd .cbCcnt 0 0 + 1 ∧ (t.circ 0).p1 = wd s.ccount ∧ t.bit .cbStat 0 0 26 = true ∧
      t.bit .cbStat 0 0 25 = false ∧ (∀ q, asker = some q → s.str.bulkResp.seq = q → s.str.bulkResp.cmd = 11 → answered t .bulk q 11 0 0 [])))

/-! ### The lanes -/

/-- No lane shows both its pins on: every step keeps it (R81, R113). -/
def Obligations.pins_never_both_on : Prop :=
  ∀ s t : State, (∀ n, ¬ ((s.lane n).outH = .on ∧ (s.lane n).outL = .on)) → step s = .next t →
    ∀ n, ¬ ((t.lane n).outH = .on ∧ (t.lane n).outL = .on)

/-- Enables, starts and stops of a trio, overrides, event configuration and commits: EN needs an accepted descriptor and a clear STO latch and
keeps its fields while 1; a lane disabled releases its pins; a trio starts, arms, waits for the first tick or stops; a commit is taken or
rejected, and when it registers the active copies take the shadows, the lane is primed, its edges still to come move to their new times
or to A, a placed edge that has a new time sets LATE, an edge beyond the period SPLIT_UPD, and an immediate period below the count
produces its boundary or turn-point with SHORT_PER and its event; the counter's candidate of an enabled kind is counted by the lane's
prescaler, and a CMPV written below the count of an up-counter fires at once (R36, R57–R65, R68–R73, R76, R82, R84, R177, R217). The
model's choices: a start at count 0 is a boundary and one from another count is none, and a RUN with no tick waits (log entry 23);
commits register in the order they were made (log entry 28), an up-down turn-point starts its count unit anew (log entry 103). -/
def Obligations.lane_configuration_commands_complete : Prop :=
  (∀ (n : Fin 192) (v : Word) (s : State), up s = true → (n.val % 3 = 0 → bitOf v 18 = s.running (n / 3)) →
    let en := s.bit .lnCtl n 0 0
    let may := s.acc && !s.bit .muSto 0 0 2
    (∃ t, exec (.laneEnable n v) s = .next t ∧ t.bit .lnCtl n 0 0 = (en || may) ∧
      t.rdF .lnCtl n 0 6 1 = (if en then s.rdF .lnCtl n 0 6 1 else fld v 6 1) ∧
      (en = false → may = true → t.rd .lnOwed n 0 = 0 ∧ (t.lane n).driving = false) ∧
      (∀ m, m ≠ n.val → t.lane m = s.lane m) ∧ { t with regs := s.regs, lanes := s.lanes } = s) ∧
    (∃ t, exec (.laneDisable n v) s = .next t ∧ t.bit .lnCtl n 0 0 = false ∧
      (en = true → (t.lane n).outH = .z ∧ (t.lane n).outL = .z ∧ t.rd .lnOwed n 0 = 0) ∧
      (∀ m, m ≠ n.val → t.lane m = s.lane m) ∧ { t with regs := s.regs, lanes := s.lanes } = s)) ∧
  (∀ (k : Fin 64) (v : Word) (s : State), up s = true →
    (s.running k = false → bitOf v 19 = true → ∃ t, exec (.trioRunStart k v) s = .next t ∧ t.running k = true ∧
      (t.trio k).armed = true ∧ (t.trio k).elapsed = (s.trio k).elapsed ∧ t.rd .lnCnt (3 * k) 0 = s.rd .lnCnt (3 * k) 0 ∧
      ∀ m, m / 3 ≠ k.val → t.lane m = s.lane m) ∧
    (s.running k = false → bitOf v 19 = false → ∃ t, exec (.trioRunStart k v) s = .next t ∧ t.running k = true ∧
      counterStarts s t k (bitOf v 16) ∧ ∀ m, m / 3 ≠ k.val → t.lane m = s.lane m) ∧
    (s.running k = true → ∃ t, exec (.trioRunStop k v) s = .next t ∧ t.running k = false ∧ (t.trio k).armed = false ∧
      t.rd .lnCnt (3 * k) 0 = s.rd .lnCnt (3 * k) 0 ∧ (∀ m, m / 3 ≠ k.val → t.lane m = s.lane m) ∧
      ∀ j < 3, (t.lane (3 * k + j)).hOn = false ∧ (t.lane (3 * k + j)).lOn = false)) ∧
  (∀ (k : Fin 64) (v : Word) (s : State), s.timeOk = false → s.fm.reset = .none → s.fm.power = .run → s.fm.inrst = [] →
    s.running k = false → bitOf v 19 = false → ∃ t, exec (.trioRunStart k v) s = .next t ∧ t.running k = true ∧
      (t.trio k).waits = true ∧ t.rd .lnCnt (3 * k) 0 = s.rd .lnCnt (3 * k) 0 ∧ t.commits = s.commits) ∧
  (∀ (k : Fin 64) (s : State),
    let starts := decide (s.timeOk = true ∧ (s.trio k).armed = true ∧
      s.now.toNat % Nat.max 5000 (Nat.min 400000 (s.rdF .stCyct 0 0 18 0)) = 0)
    (starts = true → ∃ t, exec (.trioSyncStart k) s = .next t ∧ t.running k = s.running k ∧
      counterStarts s t k (upDown s k) ∧ ∀ m, m / 3 ≠ k.val → t.lane m = s.lane m) ∧
    (starts = false → exec (.trioSyncStart k) s = .next s)) ∧
  (∀ (n : Fin 192) (v : Word) (s : State), up s = true →
    (∃ t, exec (.lnEvtWrite n v) s = .next t ∧ t.rd .lnEvt n 0 = v ∧
      (s.counts (n / 3) = false → (t.lane n).evCnt = 0 ∧ (∀ m, m ≠ n.val → t.lane m = s.lane m) ∧
        { t with regs := s.regs, lanes := s.lanes } = s) ∧
      (s.counts (n / 3) = true → upDown s (n / 3) = false → atBoundary s (n / 3) = false → bitOf v 26 = true →
        fld v 31 28 ≠ 0 → fld v 23 0 + 1 ≤ trioPer s (n / 3) → (∀ m, m ≠ n.val → t.lane m = s.lane m) ∧
        (t.lane n).evCnt = (if fld v 23 0 < s.rdF .lnCnt (n / 3 * 3) 0 23 0 ∨
            fld v 23 0 = s.rdF .lnCnt (n / 3 * 3) 0 23 0 ∧ evFired s n .cmp = false then 1 else 0))) ∧
    (∃ t, exec (.lnOvrWrite n v) s = .next t ∧ t.rdF .lnOvr n 0 7 4 = fld v 7 4 ∧ t.rdF .lnOvr n 0 1 0 = fld v 1 0 ∧
      t.bit .lnStat n 0 4 = (s.bit .lnStat n 0 4 || decide (fld v 7 4 = 10) && s.bit .lnCtl n 0 1) ∧
      (t.lane n).swap = (if s.running (n / 3) then (s.lane n).swap else bitOf v 0) ∧
      (t.lane n).inv = (if s.running (n / 3) then (s.lane n).inv else bitOf v 1) ∧
      (∀ m, m ≠ n.val → t.lane m = s.lane m) ∧ { t with regs := s.regs, lanes := s.lanes } = s)) ∧
  (∀ (n : Fin 192) (s : State), up s = true →
    let own := (trioRow s (n / 3)).isSome || heritage s n
    (own = true → (∃ t, exec (.lnCommitLane n) s = .next t ∧ t.bit .lnStat n 0 5 = true ∧ { t with regs := s.regs } = s) ∧
      (∃ t, exec (.lnCommitTrio n) s = .next t ∧ t.bit .lnStat n 0 5 = true ∧ { t with regs := s.regs } = s)) ∧
    (own = false → (∃ t, exec (.lnCommitLane n) s = .next t ∧ t.commits = s.commits ++ [{ lanes := [n.val], stores := [] }] ∧
        { t with commits := s.commits } = s) ∧
      (∃ t, exec (.lnCommitTrio n) s = .next t ∧ { t with commits := s.commits } = s ∧
        t.commits = s.commits ++ [{ lanes := [n.val / 3 * 3, n.val / 3 * 3 + 1, n.val / 3 * 3 + 2], stores := [] }]))) ∧
  (∀ s : State, s.timeOk = false ∨ s.commits = [] → exec .commitRegister s = .next s) ∧
  (∀ (x : CommitX) (rest : List CommitX) (s : State), s.timeOk = true → s.commits = x :: rest → x.stores = [] →
    (∀ n ∈ x.lanes, n < 192) →
    ∃ t, exec .commitRegister s = .next t ∧ t.commits = rest ∧
      (∀ n ∈ x.lanes, (t.lane n).duty = s.rd .lnDuty n 0 ∧ (t.lane n).edgeA = s.rd .lnEdgea n 0 ∧
        (t.lane n).edgeB = s.rd .lnEdgeb n 0 ∧ (t.lane n).dtr = s.rd .lnDtr n 0 ∧ (t.lane n).dtf = s.rd .lnDtf n 0 ∧
        (t.lane n).minp = s.rd .lnMinp n 0) ∧
      (∀ n ∈ x.lanes, (t.lane n).primed = ((s.lane n).primed || s.bit .lnCtl n 0 0)) ∧
      (∀ n ∈ x.lanes, n % 3 = 0 → s.bit .lnCtl n 0 17 = false → (t.trio (n / 3)).perPend = some (s.rdF .lnPer n 0 23 0) ∧
        (t.trio (n / 3)).kPend = some (s.rdF .lnPsc n 0 3 0))) ∧
  (∀ (n : Nat) (rest : List CommitX) (s : State), n < 192 → s.timeOk = true → s.commits = { lanes := [n], stores := [] } :: rest →
    n % 3 ≠ 0 ∨ s.bit .lnCtl n 0 17 = false → s.counts (n / 3) = true → atBoundary s (n / 3) = false →
    ∃ t, exec .commitRegister s = .next t ∧
      (let a := 64 * (s.trio (n / 3)).elapsed
       let l := s.lane n
       let e := laneEdges t n
       let rose := decide (l.riseDone = true ∨ l.rise < a)
       let fell := decide (l.fallDone = true ∨ l.fall < a)
       let gone (placed : Nat) (old new : Int) : Bool := decide (placed < a ∧ old < a ∧ new ≠ old)
       (t.lane n).nomR = e.rise ∧ (t.lane n).nomF = e.fall ∧
       (rose = true → (t.lane n).rise = l.rise) ∧ (fell = true → (t.lane n).fall = l.fall) ∧
       (rose = false → l.lowStart = none → (t.lane n).rise = if a ≤ e.rise then e.rise else a) ∧
       (fell = false → l.highStart = none → rose = false ∨ stretchNow t n a e = false →
         (t.lane n).fall = if a ≤ e.fall then e.fall else a) ∧
       t.bit .lnStat n 0 6 = (s.bit .lnStat n 0 6 || gone l.rise l.nomR e.rise || gone l.fall l.nomF e.fall) ∧
       (let p := trioPer s (n / 3) * unitFine s (n / 3)
        let k := trioK s (n / 3)
        let ab := s.bit .lnCtl n 0 6 || heritage s n
        let split := ab && (decide (p < edgePos (s.rd .lnEdgea n 0) k) || decide (p < edgePos (s.rd .lnEdgeb n 0) k))
        t.bit .lnStat n 0 1 = (s.bit .lnStat n 0 1 || split) ∧
        (split = true → l.inv = false → l.carry = 0 → e.w = periodFine s (n / 3)) ∧
        (split = false → ab = true → l.inv = false → l.carry = 0 → upDown s (n / 3) = true →
          e.rise = edgePos (s.rd .lnEdgea n 0) k ∧ e.fall + edgePos (s.rd .lnEdgeb n 0) k = 2 * p) ∧
        (ab = false → l.inv = false → l.carry = 0 → k = 0 → let d := Nat.min (s.rdF .lnDuty n 0 24 0) (2 ^ 24)
          (upDown s (n / 3) = false → e.rise = 0 ∧ e.fall = (2 * p * d + 2 ^ 24) / 2 ^ 25) ∧
          (upDown s (n / 3) = true → e.rise = (2 * p * (2 ^ 24 - d) + 2 ^ 24) / 2 ^ 25 ∧ e.fall + e.rise = 2 * p))))) ∧
  (∀ (k : Fin 64) (rest : List CommitX) (s : State), s.timeOk = true → s.commits = { lanes := [3 * k.val], stores := [] } :: rest →
    s.bit .lnCtl (3 * k) 0 17 = true → s.counts k = true → atBoundary s k = false →
    let raw := s.rdF .lnPer (3 * k) 0 23 0
    let per := Nat.max 2 raw
    let cnt := s.rdF .lnCnt (3 * k) 0 23 0
    let down := s.bit .lnCnt (3 * k) 0 24
    let u := 2 ^ trioK s k
    let x := s.trio k
    let goesOn := if upDown s k then decide (cnt < per) else decide (cnt ≤ per)
    let counted (t : State) (kind : LaneEv) : Prop := ∀ j < 3, (s.lane (3 * k + j)).evCnt < s.rdF .lnEvt (3 * k + j) 0 31 28 →
      (t.lane (3 * k + j)).evCnt = (s.lane (3 * k + j)).evCnt + (if s.bit .lnEvt (3 * k + j) 0 (evBit kind) then 1 else 0)
    ∃ t, exec .commitRegister s = .next t ∧ (t.trio k).per = raw ∧ (t.trio k).perPend = none ∧
      (goesOn = true → (t.trio k).k = x.k ∧ (t.trio k).kPend = some (s.rdF .lnPsc (3 * k) 0 3 0) ∧
        t.bit .lnStat (3 * k) 0 2 = s.bit .lnStat (3 * k) 0 2 ∧ t.rd .lnCnt (3 * k) 0 = s.rd .lnCnt (3 * k) 0 ∧
        (t.trio k).elapsed = (if upDown s k = false then cnt * u + x.phase else if down then (2 * per - cnt) * u + x.phase
          else x.elapsed) ∧ (upDown s k = false → (t.trio k).extra = if cnt = per then u else 0)) ∧
      (goesOn = false → t.bit .lnStat (3 * k) 0 2 = true) ∧
      (goesOn = false → upDown s k = false → t.rd .lnCnt (3 * k) 0 = 0 ∧ (t.trio k).elapsed = 0 ∧
        (t.trio k).k = s.rdF .lnPsc (3 * k) 0 3 0 ∧ (t.trio k).kPend = none ∧ counted t .zero) ∧
      (goesOn = false → upDown s k = true → t.rd .lnCnt (3 * k) 0 = wd (per + 2 ^ 24) ∧ (t.trio k).elapsed = per * u ∧
        (t.trio k).k = x.k ∧ (t.trio k).kPend = some (s.rdF .lnPsc (3 * k) 0 3 0) ∧ (down = false → counted t .top) ∧
        (down = true → (∀ j < 3, (t.lane (3 * k + j)).evCnt = (s.lane (3 * k + j)).evCnt) ∧
          ∀ j : Fin 3, ∀ n : Fin 192, n.val = 3 * k + j → exec (.laneEvent n .top) t = .next t) ∧
        ∀ j < 3, (let n := 3 * k.val + j
          (s.lane n).omitH = false → (s.lane n).omitL = false → (t.lane n).minp = 0 → (t.lane n).dtr = 0 → (t.lane n).dtf = 0 →
          (s.lane n).highStart = none → (s.lane n).lowStart = none →
          (t.lane n).high = highAt (laneEdges t n) (periodFine t k) (64 * (per * u))))) ∧
  (∀ (n : Fin 192) (kind : LaneEv) (s : State),
    let k := n.val / 3
    let cnt := s.rdF .lnCnt (3 * k) 0 23 0
    let down := s.bit .lnCnt (3 * k) 0 24
    let cmpv := s.rdF .lnEvt n 0 23 0
    let top := if upDown s k then trioPer s k else trioPer s k - 1
    let here := match kind with
      | .zero => cnt == 0 && !down
      | .top => cnt == top
      | .cmp => cnt == cmpv && decide (cmpv ≤ top) && (!upDown s k || !down || cmpv == top || s.bit .lnEvt n 0 27)
    let fired := (s.lane n).evTick == s.tb.ticks && (s.lane n).evHad.contains kind
    let emits := !fired && !atBoundary s k && s.counts k && (s.trio k).phase == 0 && s.bit .lnEvt n 0 (evBit kind) && here
    (emits = true → ∃ t, exec (.laneEvent n kind) s = .next t ∧
      (t.lane n).evCnt = (if s.rdF .lnEvt n 0 31 28 ≤ (s.lane n).evCnt then 0 else (s.lane n).evCnt + 1) ∧
      (t.lane n).evTick = s.tb.ticks ∧ kind ∈ (t.lane n).evHad ∧
      ((s.lane n).evCnt < s.rdF .lnEvt n 0 31 28 → (∀ m, m ≠ n.val → t.lane m = s.lane m) ∧ { t with lanes := s.lanes } = s)) ∧
    (emits = false → exec (.laneEvent n kind) s = .next s))

/-- The edges of a lane: a boundary makes the committed values active, takes the carry-in and places the nominal edges; a pulse is turned
on at its rising edge if it is long enough, else dropped, carried or stretched, and so its low side at the falling edge; the end of a dead
time turns the waiting switch on, a pin that an override or a released trip asks for turns on once the other has been off for its dead
time, and a refresh ends with its flag and its loss, once the high side has returned; each of them acts once
its moment is reached and does nothing before (R13, R41, R63, R67, R71, R73–R79, R81–R83). The model's choices: the dead time after a trip or
a row reset (log entries 25 and 136) and under SWAP (log entry 26), pulses held to MINP and omitted pulses (log entry 27), when REFRESH and
LN_REFLOSS are written (log entry 89). -/
def Obligations.lane_edges_complete : Prop :=
  (∀ (k : Fin 64) (s : State), s.counts k = true → atBoundary s k = true →
    ∃ t, exec (.periodBoundary k) s = .next t ∧ (t.trio k).per = (s.trio k).perPend.getD (s.trio k).per ∧
      (t.trio k).k = (s.trio k).kPend.getD (s.trio k).k ∧ (t.trio k).elapsed = 0 ∧ t.rd .lnCnt (3 * k) 0 = 0 ∧
      ∀ j < 3, let n := 3 * k.val + j
        (t.lane n).riseDone = false ∧ (t.lane n).fallDone = false ∧ (t.lane n).swap = s.bit .lnOvr n 0 0 ∧
          (t.lane n).inv = s.bit .lnOvr n 0 1 ∧ (t.lane n).nomR = (laneEdges t n).rise ∧ (t.lane n).nomF = (laneEdges t n).fall ∧
          (t.lane n).w = (laneEdges t n).w ∧
          (policy s n ≠ 1 → (t.lane n).carry = 0) ∧
          (policy s n = 1 → (t.lane n).carry = max (-(periodFine t k : Int)) (min (periodFine t k) (s.rd .lnOwed n 0).toInt) ∧
            t.rd .lnOwed n 0 = 0) ∧
          (t.lane n).driving = ((s.lane n).driving || (s.lane n).primed && s.bit .lnCtl n 0 0) ∧
          t.bit .lnStat n 0 1 = (s.bit .lnStat n 0 1 || (reqEdges t n).beyond)) ∧
  (∀ (k : Fin 64) (s : State), s.counts k = false ∨ atBoundary s k = false → exec (.periodBoundary k) s = .next s) ∧
  (∀ (n : Fin 192) (s : State), s.counts (n / 3) = false →
    exec (.laneRisingEdge n) s = .next s ∧ exec (.laneFallingEdge n) s = .next s ∧ exec (.stretchCheck n) s = .next s) ∧
  (∀ (n : Fin 192) (s : State), s.counts (n / 3) = true → (s.lane n).riseDone = false →
    (s.lane n).refresh = .none → (s.lane n).inv = s.bit .lnOvr n 0 1 →
    let l := s.lane n
    let per := periodFine s (n / 3)
    let fits := decide (per ≤ l.w ∨ minp s n + dtr s n ≤ l.w)
    let least (t : State) : Nat := match (t.lane n).highStart with | some h => (h + minp s n).toNat | none => 0
    (reached s n l.rise = false → exec (.laneRisingEdge n) s = .next s) ∧
    (reached s n l.rise = true →
    (l.w = 0 → ∃ t, exec (.laneRisingEdge n) s = .next t ∧ (t.lane n).riseDone = true ∧ (t.lane n).high = l.high ∧
      t.rdF .lnStat n 0 6 0 = s.rdF .lnStat n 0 6 0) ∧
    (l.w ≠ 0 → fits = true → ∃ t, exec (.laneRisingEdge n) s = .next t ∧ (t.lane n).riseDone = true ∧ (t.lane n).high = true ∧
      (l.hOn = false → ¬ (l.high = true ∧ l.dt ≠ .none) → if dtr s n = 0 then (t.lane n).hOn = true else (t.lane n).dt = .toHigh) ∧
      (if l.w < per ∧ l.fallDone = false ∧ l.fall < least t then (t.lane n).fall = least t ∧ t.bit .lnStat n 0 0 = true
       else (t.lane n).fall = l.fall ∧ t.rdF .lnStat n 0 6 0 = s.rdF .lnStat n 0 6 0)) ∧
    (l.w ≠ 0 → fits = false → ¬ (policy s n = 2 ∧ canStretch s n = true) → ∃ t, exec (.laneRisingEdge n) s = .next t ∧
      t.bit .lnStat n 0 0 = true ∧ (t.lane n).riseDone = true ∧ (t.lane n).fallDone = true ∧
      (l.high = false ∨ l.offAt = none ∧ pulseEnd s n ≤ l.rise → (t.lane n).high = false) ∧
      (l.high = true → l.offAt = none → l.rise < pulseEnd s n → (t.lane n).high = true ∧ (t.lane n).offAt = some (pulseEnd s n)) ∧
      (t.lane n).w = 0 ∧ (t.lane n).omitH = true ∧ (policy s n ≠ 1 → t.rd .lnOwed n 0 = s.rd .lnOwed n 0) ∧
      (policy s n = 1 → (t.rd .lnOwed n 0).toInt =
        (wdi (max (-(per : Int)) (min per ((s.rd .lnOwed n 0).toInt + l.w)))).toInt)) ∧
    (l.w ≠ 0 → fits = false → policy s n = 2 → canStretch s n = true → ∃ t, exec (.laneRisingEdge n) s = .next t ∧
      t.bit .lnStat n 0 0 = true ∧ (t.lane n).high = true ∧ (t.lane n).w = minp s n + dtr s n ∧
      (let f := l.rise + (minp s n + dtr s n)
       (t.lane n).fall = if l.fallDone = true ∨ per ≤ minp s n + dtr s n then f else Nat.max f (least t))))) ∧
  (∀ (n : Fin 192) (x : Nat) (s : State), s.counts (n / 3) = true → (s.lane n).offAt = some x →
    let l := s.lane n
    let due := reached s n x && (l.riseDone || l.w == 0 || decide (x < l.rise))
    (due = false → exec (.laneFallingEdge n) s = .next s) ∧
    (due = true → ∃ t, exec (.laneFallingEdge n) s = .next t ∧ (t.lane n).high = false ∧ (t.lane n).offAt = none ∧
      (t.lane n).fallDone = (s.lane n).fallDone)) ∧
  (∀ (n : Fin 192) (s : State), s.counts (n / 3) = true → (s.lane n).fallDone = false → (s.lane n).offAt = none →
    reached s n (s.lane n).fall = false → exec (.laneFallingEdge n) s = .next s) ∧
  (∀ (n : Fin 192) (s : State), s.counts (n / 3) = true → (s.lane n).fallDone = false → (s.lane n).offAt = none →
    reached s n (s.lane n).fall = true → (s.lane n).refresh = .none → (s.lane n).inv = s.bit .lnOvr n 0 1 →
    let l := s.lane n
    let per := periodFine s (n / 3)
    let fits := !s.bit .lnCtl n 0 1 || decide (minp s n + dtf s n ≤ per - l.w)
    (per ≤ l.w → l.w ≠ 0 → ∃ t, exec (.laneFallingEdge n) s = .next t ∧ (t.lane n).fallDone = true ∧ (t.lane n).high = l.high) ∧
    (l.w < per → l.w = 0 ∨ fits = true → ∃ t, exec (.laneFallingEdge n) s = .next t ∧ (t.lane n).fallDone = true ∧
      (t.lane n).high = false ∧ (l.high = true → l.lOn = false → (t.lane n).hOn = false)) ∧
    (l.w ≠ 0 → l.w < per → fits = false → ¬ (policy s n = 2 ∧ canStretch s n = true) →
      ∃ t, exec (.laneFallingEdge n) s = .next t ∧ t.bit .lnStat n 0 0 = true ∧ (t.lane n).fallDone = true ∧
        (t.lane n).w = per ∧ (t.lane n).high = l.high ∧ (policy s n ≠ 1 → t.rd .lnOwed n 0 = s.rd .lnOwed n 0) ∧
        (policy s n = 1 → (t.rd .lnOwed n 0).toInt =
          (wdi (max (-(per : Int)) (min per ((s.rd .lnOwed n 0).toInt - (per - l.w : Nat))))).toInt)) ∧
    (l.w ≠ 0 → l.w < per → fits = false → policy s n = 2 → canStretch s n = true → ∃ t, exec (.laneFallingEdge n) s = .next t ∧
      t.bit .lnStat n 0 0 = true ∧ (t.lane n).high = false ∧ (t.lane n).w = per - minp s n - dtf s n)) ∧
  (∀ (n : Fin 192) (s : State), s.counts (n / 3) = true → s.bit .lnCtl n 0 1 = true → policy s n = 2 →
    canStretch s n = true → (s.lane n).riseDone = true → (s.lane n).fallDone = false → 0 < (s.lane n).w →
    (s.lane n).w < periodFine s (n / 3) →
    let m := (s.lane n).rise + (periodFine s (n / 3) - minp s n - dtf s n)
    (m < (s.lane n).fall → reached s n m = true → ∃ t, exec (.stretchCheck n) s = .next t ∧ t.bit .lnStat n 0 0 = true ∧ (t.lane n).fallDone = true ∧
      (t.lane n).fall = m ∧ (t.lane n).high = false) ∧
    ((s.lane n).fall ≤ m ∨ reached s n m = false → exec (.stretchCheck n) s = .next s)) ∧
  (∀ (n : Fin 192) (s : State), s.timeOk = false → exec (.deadTimeEnd n) s = .next s) ∧
  (∀ (n : Fin 192) (s : State), s.timeOk = true → endDue s n = false → ∃ t, exec (.deadTimeEnd n) s = .next t ∧
    (t.lane n).hOn = (s.lane n).hOn ∧ (t.lane n).lOn = (s.lane n).lOn ∧ (t.lane n).dt = (s.lane n).dt ∧
    (t.lane n).ends = (s.lane n).ends ∧ (∀ m, m ≠ n.val → t.lane m = s.lane m) ∧ { t with regs := s.regs, lanes := s.lanes } = s) ∧
  (∀ (n : Fin 192) (s : State), s.timeOk = true → (s.lane n).dt = .none → ∃ t, exec (.deadTimeEnd n) s = .next t ∧
    (let l := s.lane n
     let now : Int := 64 * (s.tb.ticks + 1)
     (released s n = false → safed s n = false → s.bit .lnCtl n 0 1 = true →
       (s.rdF .lnOvr n 0 5 4 = 2 → s.rdF .lnOvr n 0 7 6 ≤ 1 → demand s n = (.on, .off)) ∧
       (s.rdF .lnOvr n 0 5 4 ≤ 1 → s.rdF .lnOvr n 0 7 6 = 2 → demand s n = (.off, .on))) ∧
     (demand s n = (.on, .off) → (t.lane n).outL = .off ∧ (l.outH ≠ .on → l.outL ≠ .on →
       ((∀ x ∈ l.offL, x + dtr s n < now) → (t.lane n).outH = .on) ∧
       (∀ x ∈ l.offL, now ≤ x + dtr s n → (t.lane n).outH = .off))) ∧
     (demand s n = (.off, .on) → (t.lane n).outH = .off ∧ (l.outH ≠ .on → l.outL ≠ .on →
       ((∀ x ∈ l.offH, x + dtf s n < now) → (t.lane n).outL = .on) ∧
       (∀ x ∈ l.offH, now ≤ x + dtf s n → (t.lane n).outL = .off))))) ∧
  (∀ (n : Fin 192) (s : State), (s.lane n).swap = false → s.timeOk = true → (s.lane n).dt = .none ∨ endDue s n = true →
    ∃ t, exec (.deadTimeEnd n) s = .next t ∧ ((s.lane n).dt = .toHigh → (t.lane n).hOn = true ∧ (t.lane n).dt = .none) ∧
      ((s.lane n).dt = .toLow → (t.lane n).lOn = true ∧ (t.lane n).dt = .none) ∧
      ((s.lane n).dt = .none → (t.lane n).hOn = (s.lane n).hOn ∧ (t.lane n).lOn = (s.lane n).lOn) ∧
      ((s.lane n).dt = .toHigh → (s.lane n).refresh = .waitHigh → (t.lane n).refresh = .none ∧ t.bit .lnStat n 0 3 = true ∧
        t.rd .lnRefloss n 0 = wd ((dtf s n + (s.lane n).refw + dtr s n) % 2 ^ 20)) ∧
      (∀ m, m ≠ n.val → t.lane m = s.lane m) ∧ { t with regs := s.regs, lanes := s.lanes } = s) ∧
  (∀ (n : Fin 192) (s : State),
    ((s.lane n).refresh ≠ .lowOn ∨ endDue s n = false → exec (.refreshPulseEnd n) s = .next s) ∧
    ((s.lane n).refresh = .lowOn → endDue s n = true → ∃ t, exec (.refreshPulseEnd n) s = .next t ∧
      ((s.lane n).high = true → dtr s n ≠ 0 → (t.lane n).lOn = false ∧ (t.lane n).dt = .toHigh ∧ (t.lane n).refresh = .waitHigh ∧
        t.rd .lnRefloss n 0 = s.rd .lnRefloss n 0 ∧ t.rdF .lnStat n 0 6 0 = s.rdF .lnStat n 0 6 0) ∧
      ((s.lane n).high = false ∨ dtr s n = 0 → t.bit .lnStat n 0 3 = true ∧ (t.lane n).refresh = .none ∧
        t.rd .lnRefloss n 0 = wd ((dtf s n + (s.lane n).refw + dtr s n) % 2 ^ 20)) ∧
      ((s.lane n).high = true → dtr s n = 0 → (t.lane n).lOn = false ∧ (t.lane n).hOn = true) ∧
      ((s.lane n).high = false → (t.lane n).lOn = (s.lane n).lOn)))

/-! ### Sensing, guard comparators, Mute and safe torque off, encoders -/

/-- Sigma-delta inputs and converters: an event opens a window, merged with one of the same modulator period; a word comes after every
OSR bits, or with the oldest window that began after the first bit, once it is ready; it is filtered, shifted, offset and saturated, and
FILL ends; a word shows where the present run of identical bits begins; a coarse word comes
after every COSR bits, is judged and, after enough, moves its source; 256 identical bits set STUCK once; clocks are lost after 400 ticks without an edge, measured (out of
range, an error) and recovered after 8 periods in range; configuration keeps its fields while enabled and starts filling; a trigger of
the selected source starts, waits or is counted, once a tick; a step ends after its acquisition and conversion: its result, its copy in row memory with
DSTEN, the next step or the end; CLROVR; a read clears NEW (R85–R95, R98–R101). The model's choices: an input clock's windows merge when less than a
measured period apart (log entry 87), the coarse counts restart (log entry 88), MERGE is set with the word and the flags of a clock error
at once (log entry 68), the bits of an input clock within a run (log entry 110), the rounding of a half (log entry 108), which count
AD_RES.SEQ carries (log entry 109). -/
def Obligations.sensing_and_converter_commands_complete : Prop :=
  (∀ (n : Fin 192) (i : Fin 192) (s : State),
    let sel := s.bit .sdWin i 0 20 && decide (s.rdF .sdWin i 0 7 0 = n) && !s.inRst 64 && !s.dark
    let te : Int := s.now.toNat
    let tc := te + (BitVec.ofNat 12 (s.rdF .sdWin i 0 19 8)).toInt
    let x := s.sd i
    let span : Int := (mainOrder s i * mainOsr s i * s.rdF .sdGstat (i / 8) 0 12 0 : Nat)
    let lag : Int := if s.bit .sdClk (i / 8) 0 1 then s.rdF .sdClk (i / 8) 0 13 10 + 3 else 0
    let waits (ws : List SdWin) : State := s.setSd i { x with
      wins := if s.bit .sdFlt i 0 0 && bitsFlow s i then ws else ws.filter (fun w => decide (128 * (te - lag) ≤ 128 * w.tc - span)) }
    (sel = false → openWin s n i = s) ∧
    (sel = true → x.wins = [] → openWin s n i = waits [⟨te, tc, false⟩]) ∧
    (sel = true → ∀ (w : SdWin) (ws : List SdWin), x.wins = ws ++ [w] →
      openWin s n i = waits (if samePeriod s i w.tc tc then ws ++ [⟨te, tc, true⟩] else ws ++ [w, ⟨te, tc, false⟩]))) ∧
  (∀ (i : Fin 192) (bits : List Bool) (m : Bool) (s : State), bitsFlow s i = true → s.bit .sdFlt i 0 0 = true →
    bits.length = mainOrder s i * mainOsr s i →
    let x := shiftInt (sincSum (mainOrder s i) (mainOsr s i) bits) (mainShift s i) - (s.rd .sdOfs i 0).toInt
    let run := (bits.reverse.takeWhile (some · == bits.reverse.head?)).length
    let word : State → Bool := fun t => decide (t.rd .sdData i 0 = wdi (max (-2147483648) (min 2147483647 x)) ∧
      t.rdF .sdStat i 0 7 0 = (s.rdF .sdStat i 0 7 0 + 1) % 256 ∧ t.bit .sdStat i 0 8 = false ∧
      t.bit .sdStat i 0 10 = (s.bit .sdStat i 0 10 || decide (x < -2147483648 ∨ 2147483647 < x)) ∧
      t.bit .sdStat i 0 9 = (s.bit .sdStat i 0 9 || m))
    (s.bit .sdWin i 0 20 = false →
      (m = false → (s.sd i).next ≤ bitsMay s (i / 8) → ∃ t, exec (.sdWordReady i bits m) s = .next t ∧ word t = true ∧
        (t.sd i).next = (s.sd i).next + mainOsr s i ∧
        (run < bits.length → (t.sd i).same = (s.sd i).same.map (fun c => Nat.max c ((s.sd i).next - run)) ∧
          ((∃ c ∈ (s.sd i).same, c < (s.sd i).next - run) → (t.sd i).told = false))) ∧
      (m = true ∨ bitsMay s (i / 8) < (s.sd i).next → exec (.sdWordReady i bits m) s = .next s)) ∧
    (s.bit .sdWin i 0 20 = true → (∀ w ∈ (s.sd i).wins, winEarly s i w = true) → exec (.sdWordReady i bits m) s = .next s) ∧
    (s.bit .sdWin i 0 20 = true → ∀ (early : List SdWin) (w : SdWin) (ws : List SdWin), (s.sd i).wins = early ++ w :: ws →
      (∀ v ∈ early, winEarly s i v = true) → winEarly s i w = false →
      (w.merged ≠ m ∨ (s.now.toNat : Int) < readyTick s i w → exec (.sdWordReady i bits m) s = .next s) ∧
      (w.merged = m → readyTick s i w ≤ s.now.toNat →
        ∃ t, exec (.sdWordReady i bits m) s = .next t ∧ word t = true ∧ (t.sd i).wins = ws ∧
          (run < bits.length → (t.sd i).same = (s.sd i).same.map (fun c => Nat.max c (winEnd s i w - run)))))) ∧
  (∀ (i : Fin 192) (w : SdWin) (f : Int) (s : State), (s.sd i).first = some f →
    winEarly s i w = decide (128 * w.tc - (mainOrder s i * mainOsr s i * s.rdF .sdGstat (i / 8) 0 12 0 : Nat) < 2 * f)) ∧
  (∀ (i : Fin 192) (bits : List Bool) (s : State), bitsFlow s i = true → s.bit .sdCflt i 0 0 = true →
    (s.sd i).cnext ≤ bitsMay s (i / 8) → bits.length = coarseOrder s i * coarseOsr s i →
    let w := sincSum (coarseOrder s i) (coarseOsr s i) bits
    let out := decide (thr s .sdChi i < w) || decide (w < thr s .sdClo i)
    let c := s.rdF .sdCflt i 0 13 10 + 1
    ∃ t, exec (.sdCoarseWord i bits) s = .next t ∧ t.rd .sdCdata i 0 = wdi w ∧
      (t.sd i).cnext = (s.sd i).cnext + coarseOsr s i ∧
      t.bit .sdStat i 0 12 = (s.bit .sdStat i 0 12 || decide (thr s .sdChi i < w)) ∧
      t.bit .sdStat i 0 13 = (s.bit .sdStat i 0 13 || decide (w < thr s .sdClo i)) ∧
      t.src (128 + i) = (if out then s.src (128 + i) || decide (c ≤ (s.sd i).beyond + 1)
        else s.src (128 + i) && decide ((s.sd i).within + 1 < c)) ∧
      (t.sd i).beyond = (if out then Nat.min 16 ((s.sd i).beyond + 1) else 0) ∧
      (t.sd i).within = (if out then 0 else Nat.min 16 ((s.sd i).within + 1))) ∧
  (∀ (i : Fin 192) (s : State),
    (s.bit .sdClk (i / 8) 0 1 = false → bitsMay s (i / 8) = (s.sdg (i / 8)).bits) ∧
    (∀ bits, bitsMay s (i / 8) < (s.sd i).cnext → exec (.sdCoarseWord i bits) s = .next s) ∧
    (∀ c, (s.sd i).same = some c →
      (c + 256 ≤ bitsMay s (i / 8) → (s.sd i).told = false → bitsFlow s i = true →
        s.bit .sdFlt i 0 0 = true ∨ s.bit .sdCflt i 0 0 = true →
        ∃ t, exec (.sdStuck i) s = .next t ∧ t.bit .sdStat i 0 11 = true ∧ t.sd i = { s.sd i with told := true } ∧
          { t with regs := s.regs, sds := s.sds } = s) ∧
      (bitsMay s (i / 8) < c + 256 ∨ (s.sd i).told = true → exec (.sdStuck i) s = .next s)) ∧
    ((s.sd i).same = none → exec (.sdStuck i) s = .next s) ∧
    (bitsFlow s i = false → (∀ bits m, exec (.sdWordReady i bits m) s = .next s ∧
      exec (.sdCoarseWord i bits) s = .next s) ∧ exec (.sdStuck i) s = .next s)) ∧
  (∀ (g : Fin 24) (period : BitVec 13) (s : State), s.timeOk = true → clkIn s g = true →
    let x := s.sdg g
    let ended := decide (8 * period.toNat ≤ 64 * (s.tb.ticks - x.mark + 1))
    let within := decide (992 ≤ period.toNat ∧ period.toNat ≤ 5248)
    let first := if s.rdF .sdClk g 0 13 10 = 0 then 1 else 0
    let errs (t : State) : Prop := t.bit .sdGstat g 0 14 = true ∧ t.sdg g = { x with
        mark := s.tb.ticks, known := (t.sdg g).known, due := none, ok := false } ∧
      (s.bit .sdGstat g 0 14 = false → t.bit .sdGstat g 0 15 = true ∧ t.bit .sdGstat g 0 13 = false ∧
        ∀ j < 8, t.bit .sdStat (8 * g + j) 0 15 = true ∧ (t.sd (8 * g + j)).beyond = 0 ∧ (t.sd (8 * g + j)).within = 0 ∧
          t.src (128 + (8 * g + j)) = (s.src (128 + (8 * g + j)) ||
            s.bit .sdCflt (8 * g + j) 0 14 && s.bit .sdCflt (8 * g + j) 0 0)) ∧
      (s.bit .sdGstat g 0 14 = true → { t with regs := s.regs, sdgs := s.sdgs } = s)
    (s.tb.ticks < x.mark + 400 → exec (.sdClockLoss g) s = .next s) ∧
    (x.mark + 400 ≤ s.tb.ticks → ∃ t, exec (.sdClockLoss g) s = .next t ∧ errs t ∧ (t.sdg g).known = false ∧
      t.rdF .sdGstat g 0 12 0 = s.rdF .sdGstat g 0 12 0) ∧
    (ended = false → exec (.sdPeriodMeasured g period) s = .next s) ∧
    (ended = true → within = true →
      ∃ t, exec (.sdPeriodMeasured g period) s = .next t ∧ t.rdF .sdGstat g 0 12 0 = period.toNat ∧
        t.bit .sdGstat g 0 13 = (!s.bit .sdGstat g 0 14) ∧
        t.sdg g = { x with bits := x.bits + (if x.known then 7 else 8) + first, mark := s.tb.ticks, known := true,
                           due := if first = 1 then none else some (s.tb.ticks + s.rdF .sdClk g 0 13 10),
                           ok := s.bit .sdGstat g 0 14 } ∧
        { t with regs := s.regs, sds := s.sds, sdgs := s.sdgs } = s) ∧
    (ended = true → within = false → ∃ t, exec (.sdPeriodMeasured g period) s = .next t ∧ errs t ∧ (t.sdg g).known = true ∧
      t.rdF .sdGstat g 0 12 0 = period.toNat) ∧
    (s.bit .sdGstat g 0 14 = false ∨ x.ok = false → exec (.sdClockRecover g) s = .next s) ∧
    (s.bit .sdGstat g 0 14 = true → x.ok = true → ∃ t, exec (.sdClockRecover g) s = .next t ∧ t.bit .sdGstat g 0 14 = false ∧
      t.bit .sdGstat g 0 13 = true ∧ ∀ j < 8, let i := 8 * g.val + j
        t.bit .sdStat i 0 15 = false ∧ t.bit .sdStat i 0 8 = s.bit .sdFlt i 0 0 ∧
        t.sd i = { s.sd i with
          wins := (s.sd i).wins.filter (fun w => decide (128 * ((s.now.toNat : Int) - (s.rdF .sdClk g 0 13 10 + 3 : Nat)) ≤
            128 * w.tc - (mainOrder s i * mainOsr s i * s.rdF .sdGstat g 0 12 0 : Nat))),
          begun := s.tb.ticks, first := none, next := x.bits + mainOrder s i * mainOsr s i, nextAt := some s.tb.ticks,
          cnext := x.bits + coarseOrder s i * coarseOsr s i, cnextAt := some s.tb.ticks, beyond := 0, within := 0 })) ∧
  (∀ (g : Fin 24) (period : BitVec 13) (s : State), s.timeOk = false ∨ clkIn s g = false →
    exec (.sdClockLoss g) s = .next s ∧ exec (.sdPeriodMeasured g period) s = .next s ∧ exec (.sdClockRecover g) s = .next s) ∧
  (∀ (g : Fin 24) (v : Word) (s : State), up s = true →
    let en := s.bit .sdClk g 0 0
    let new := if s.acc then bitOf v 0 else en
    ∃ t, exec (.sdClkWrite g v) s = .next t ∧ t.bit .sdClk g 0 0 = new ∧ t.bit .sdClk g 0 21 = bitOf v 21 ∧
      t.rdF .sdClk g 0 20 1 = (if en then s.rdF .sdClk g 0 20 1 else fld v 20 1) ∧
      (en = true → new = false → t.rdF .sdGstat g 0 14 0 = 0) ∧
      (en = false → new = true → (t.sdg g).mark = s.tb.ticks ∧ (t.sdg g).known = false ∧ (t.sdg g).due = none ∧
        (bitOf v 1 = false → t.rdF .sdGstat g 0 12 0 = 64 * Nat.max 16 (Nat.min 80 (fld v 8 2)) ∧ t.bit .sdGstat g 0 13 = true) ∧
        ∀ j < 8, t.bit .sdStat (8 * g + j) 0 8 = s.bit .sdFlt (8 * g + j) 0 0 ∧ (t.sd (8 * g + j)).first = none ∧
          (t.sd (8 * g + j)).begun = s.tb.ticks)) ∧
  (∀ (i : Fin 192) (v : Word) (s : State), up s = true →
    (let en := s.bit .sdFlt i 0 0
     let new := if s.acc then bitOf v 0 else en
     ∃ t, exec (.sdFltWrite i v) s = .next t ∧ t.bit .sdFlt i 0 0 = new ∧
      t.rdF .sdFlt i 0 18 1 = (if en then s.rdF .sdFlt i 0 18 1 else fld v 18 1) ∧
      t.bit .sdStat i 0 8 = (if new = en then s.bit .sdStat i 0 8 else new) ∧ { t with regs := s.regs, sds := s.sds } = s ∧
      (new ≠ en → (t.sd i).begun = s.tb.ticks ∧ ∀ w ∈ (t.sd i).wins, w ∈ (s.sd i).wins) ∧ (new = en → (t.sd i).wins = (s.sd i).wins ∧ (t.sd i).next = (s.sd i).next) ∧
      (new = true → en = true → t.sds = s.sds) ∧
      (new = true → en = false → (t.sd i).first = none ∧
        (t.sd i).next = (s.sdg (i / 8)).bits + mainOrder t i * mainOsr t i ∧
        (s.bit .sdCflt i 0 0 = false → (t.sd i).same = some (s.sdg (i / 8)).bits))) ∧
    (∃ t, exec (.sdWinWrite i v) s = .next t ∧ t.rdF .sdWin i 0 20 0 = fld v 20 0 ∧
      t.bit .sdStat i 0 8 = (if fld v 7 0 = s.rdF .sdWin i 0 7 0 ∧ bitOf v 20 = s.bit .sdWin i 0 20 then s.bit .sdStat i 0 8
        else s.bit .sdFlt i 0 0) ∧ { t with regs := s.regs, sds := s.sds } = s ∧
      (fld v 7 0 ≠ s.rdF .sdWin i 0 7 0 → (t.sd i).wins = [])) ∧
    (let en := s.bit .sdCflt i 0 0
     let new := if s.acc then bitOf v 0 else en
     ∃ t, exec (.sdCfltWrite i v) s = .next t ∧ t.bit .sdCflt i 0 0 = new ∧
      t.rdF .sdCflt i 0 9 1 = (if en then s.rdF .sdCflt i 0 9 1 else fld v 9 1) ∧
      (new = false → t.src (128 + i) = false) ∧
      (en = false → new = true → (t.sd i).beyond = 0 ∧ (t.sd i).within = 0 ∧
        (t.sd i).cnext = (s.sdg (i / 8)).bits + coarseOrder t i * coarseOsr t i))) ∧
  (∀ (k : Fin 16) (v : Word) (t0 : Nat) (ts : List Nat) (s : State),
    let ends (st at' : Nat) : Nat := at' + Nat.max 24 (s.rdF .adSeq k st 9 2) + 56
    ((s.ad k).due = [] → exec (.adTrigger k) s = .next s) ∧
    ((s.ad k).due = t0 :: ts → adOn s k = false ∨ (s.ad k).last = some t0 →
      exec (.adTrigger k) s = .next (s.setAd k { s.ad k with due := ts })) ∧
    ((s.ad k).due = t0 :: ts → adOn s k = true → (s.ad k).last ≠ some t0 →
      ∃ t, exec (.adTrigger k) s = .next t ∧ t.bit .adStat k 0 0 = true ∧ (t.ad k).due = ts ∧ (t.ad k).last = some t0 ∧
      (s.bit .adStat k 0 0 = false → (t.ad k).step = 0 ∧ (t.ad k).endAt = ends 0 (t0 + 2) ∧ t.bit .adStat k 0 1 = s.bit .adStat k 0 1) ∧
      (s.bit .adStat k 0 0 = true → s.bit .adCtl k 0 4 = false → t.bit .adStat k 0 1 = true ∧
        t.rdF .adStat k 0 9 2 = if s.bit .adStat k 0 1 then Nat.min (s.rdF .adStat k 0 9 2 + 1) 255 else s.rdF .adStat k 0 9 2) ∧
      (s.bit .adStat k 0 0 = true → s.bit .adCtl k 0 4 = true → { t with ads := s.ads } = s)) ∧
    (up s = true →
      (let en := s.bit .adCtl k 0 0
       let new := if s.acc then bitOf v 0 else en
       (∃ t, exec (.adSwtrig k v) s = .next t ∧ t.bit .adCtl k 0 0 = new ∧ (new = true → tget (fun _ => false) s.fm.down 4 = false →
          (s.ad k).last ≠ some s.tb.ticks → t.bit .adStat k 0 0 = true ∧ (t.ad k).last = some s.tb.ticks)) ∧
       (bitOf v 7 = false → ∃ t, exec (.adCtlWrite k v) s = .next t ∧ t.bit .adCtl k 0 0 = new ∧
          t.rdF .adCtl k 0 4 1 = (if en then s.rdF .adCtl k 0 4 1 else fld v 4 1) ∧
          t.bit .adStat k 0 1 = (s.bit .adStat k 0 1 && new) ∧ { t with regs := s.regs, ads := s.ads } = s ∧
          (new = true → t.ads = s.ads) ∧
          (new = false → t.ad k = { s.ad k with due := [], stop := (s.ad k).stop || s.bit .adStat k 0 0 }))) ∧
      (∃ t, exec (.adClrovr k v) s = .next t ∧ t.rdF .adStat k 0 9 2 = 0 ∧ { t with regs := s.regs } = s)) ∧
    (∀ (who : Requester) (j : Fin 8), ∃ t, exec (.adResRead who k j) s = .next t ∧ t.bit .adRes k j 31 = false ∧
      tget (fun _ => {}) t.resp (reqNum who) = { data := wordBytes (s.rd .adRes k j) false } ∧
      { t with regs := s.regs, resp := s.resp } = s)) ∧
  (∀ (k : Fin 16) (uv : Nat) (s : State), s.bit .adStat k 0 0 = false ∨ s.tb.ticks < (s.ad k).endAt →
    exec (.adStepEnd k uv) s = .next s) ∧
  (∀ (k : Fin 16) (uv : Nat) (s : State), (s.ad k).endAt ≤ s.tb.ticks → s.bit .adStat k 0 0 = true → s.inRst 65 = false → s.timeOk = true → s.dark = false →
    tget (fun _ => false) s.fm.down 4 = false → (s.ad k).step < 8 → 0 < s.fm.vrefUv →
    let x := s.ad k
    let ends (st at' : Nat) : Nat := at' + Nat.max 24 (s.rdF .adSeq k st 9 2) + 56
    ∃ t, exec (.adStepEnd k uv) s = .next t ∧ t.bit .adRes k x.step 31 = true ∧ t.rdF .adRes k x.step 23 16 = x.seqs.toNat ∧
      (let row := s.rdF .adDst k 0 5 0
       let a := 0x10000000 + 0x40000 * row + 4 * (s.rdF .adDst k 0 21 6 + x.step) % 0x40000
       (s.bit .adCtl k 0 6 = true → s.bit .memStat (1024 + row) 0 7 = false → s.rdF .memFlip (1024 + row) 0 12 0 = 0 →
         loadValue (t.bytesAt a 4) false = (t.rd .adRes k x.step, false) ∧
         ∀ b, b < a ∨ a + 4 ≤ b → t.byteAt b = s.byteAt b) ∧
       (s.bit .adCtl k 0 6 = false → t.mem = s.mem)) ∧
      t.rdF .adRes k x.step 11 0 = Nat.min 4095 ((8192 * uv + s.fm.vrefUv) / (2 * s.fm.vrefUv)) ∧
      (x.stop = true → t.ad k = { x with step := 0, stop := false, endAt := if s.bit .adStat k 0 1 then ends 0 (x.endAt + 2) else x.endAt } ∧
        t.bit .adStat k 0 10 = s.bit .adStat k 0 10 ∧
        t.bit .adStat k 0 0 = s.bit .adStat k 0 1 ∧ t.bit .adStat k 0 1 = false) ∧
      (x.stop = false → x.step < s.rdF .adCtl k 0 3 1 → t.ad k = { x with step := x.step + 1, endAt := ends (x.step + 1) x.endAt } ∧
        t.bit .adStat k 0 0 = true) ∧
      (x.stop = false → s.rdF .adCtl k 0 3 1 ≤ x.step → (t.ad k).step = 0 ∧ (t.ad k).seqs = x.seqs + 1 ∧ t.bit .adStat k 0 10 = true ∧
        t.bit .adStat k 0 0 = (s.bit .adCtl k 0 4 || s.bit .adStat k 0 1) ∧
        (s.bit .adCtl k 0 4 = true → (t.ad k).endAt = ends 0 x.endAt) ∧
        (s.bit .adCtl k 0 4 = false → s.bit .adStat k 0 1 = true → (t.ad k).endAt = ends 0 (x.endAt + 2)) ∧
        t.bit .adStat k 0 1 = (s.bit .adCtl k 0 4 && s.bit .adStat k 0 1)))

/-- Mute, TRIP pins, guard comparators and safe torque off: a source that asserts makes its lines active, latches the latching ones
and trips and makes safe every lane that subscribes; one that deasserts leaves what is latched; routes, masks, modes, releases (which
end what an earlier release keeps to a boundary), software trips and the lock; the pins with and without filter; the comparators with
their settling, held asserted while VDD_ANA is low and off in Hold; the STO latch releases every pin, and clears only by a rearm with
both inputs high; each pin's level follows its polarity bit, and EXTEST drives it only while nothing of rank 1 releases it (R22, R80, R84,
R102–R105, R107–R113, R116–R118, R313, R325, R338). That a low comparator that settles counts in the window as its source stands (log entry
69), that a line changed from cycle-by-cycle to latching keeps its trip (log entry 29), what a change of FLT keeps (log entry 114), that a
REARM is held in the clearing also with an input low, and the order of DISC and REARM in one store (log entry 111) are the model's choices. -/
def Obligations.mute_and_sto_commands_complete : Prop :=
  (∀ (k : Fin 416) (s : State), s.dark = true → exec (.muteSourceAssert k) s = .next s ∧ exec (.muteSourceDeassert k) s = .next s) ∧
  (∀ (k : Fin 416) (s : State), s.dark = false →
    (s.src k = true → exec (.muteSourceAssert k) s = .next s) ∧
    (s.src k = false → exec (.muteSourceDeassert k) s = .next s ∧
      ∃ t, exec (.muteSourceAssert k) s = .next t ∧ t.src k = true ∧ (∀ j, j ≠ k.val → t.src j = s.src j) ∧
        (∀ l < 96, t.bit .muLstat l 0 0 = (s.bit .muLstat l 0 0 || routed s k l) ∧
          t.bit .muLstat l 0 1 = (s.bit .muLstat l 0 1 || routed s k l && decide (2 ≤ s.rdF .muLine l 0 1 0)) ∧
          (routed s k l = true → s.bit .muLstat l 0 0 = false → s.bit .muLstat l 0 1 = false →
            t.bit .muLstat l 0 2 = true ∧ t.rdF .muLstat l 0 12 4 = k ∧ t.bit .muLstat l 0 13 = true)) ∧
        ∀ n < 192, ∀ l < 96, routed s k l = true → (subs s n).getLsbD l = true → (t.lane n).trips.getLsbD l = true ∧
          ((s.lane n).trips = 0 → released s n = false → s.rdF .muSafe n 0 1 0 ≤ 1 → (t.lane n).outH = .off) ∧
          ((s.lane n).trips = 0 → released s n = false → s.rdF .muSafe n 0 1 0 = 2 → (t.lane n).outH = .z ∧ (t.lane n).outL = .z)) ∧
    (s.src k = true → ∃ t, exec (.muteSourceDeassert k) s = .next t ∧ t.src k = false ∧ (∀ j, j ≠ k.val → t.src j = s.src j) ∧
      ∀ l < 96, t.bit .muLstat l 0 1 = s.bit .muLstat l 0 1 ∧
        t.bit .muLstat l 0 0 = (if routed s k l then lineActive t l else s.bit .muLstat l 0 0))) ∧
  (∀ (k : Fin 416) (w : Fin 3) (v : Word) (s : State), up s = true →
    (s.bit .muCtl 0 0 0 = true → ∃ t, exec (.muRouteWrite k w v) s = .next t ∧ t.rd .muRoute k w = s.rd .muRoute k w) ∧
    (s.bit .muCtl 0 0 0 = false → ∃ t, exec (.muRouteWrite k w v) s = .next t ∧ t.rd .muRoute k w = v ∧
      (s.src k = false → { t with regs := s.regs } = s) ∧
      (∀ b < 32, s.src k = true → bitOf v b = true → s.bit .muRoute k w b = false → t.bit .muLstat (32 * w + b) 0 0 = true))) ∧
  (∀ (n : Fin 192) (w : Fin 3) (v : Word) (s : State), up s = true →
    ∃ t, exec (.muMaskWrite n w v) s = .next t ∧ t.rd .muMask n w = (if s.bit .muCtl 0 0 0 then s.rd .muMask n w else v) ∧
      (t.lane n).trips &&& ~~~ subs t n = 0 ∧ (∀ l < 96, (subs t n).getLsbD l = true → t.rdF .muLine l 0 1 0 < 2 →
        t.bit .muLstat l 0 0 = true → (t.lane n).trips.getLsbD l = true) ∧ ∀ m, m ≠ n.val → t.lane m = s.lane m) ∧
  (∀ (l : Fin 96) (v : Word) (s : State), up s = true →
    let old := s.rdF .muLine l 0 1 0
    let new := if s.bit .muCtl 0 0 0 then old else fld v 1 0
    (bitOf v 4 = false → ∃ t, exec (.muLineModeWrite l v) s = .next t ∧ t.rdF .muLine l 0 1 0 = new ∧
      t.bit .muLstat l 0 0 = s.bit .muLstat l 0 0 ∧
      t.bit .muLstat l 0 1 = (if old < 2 ∧ 2 ≤ new then s.bit .muLstat l 0 1 || s.bit .muLstat l 0 0
        else if 2 ≤ old ∧ new < 2 then false else s.bit .muLstat l 0 1)) ∧
    (2 ≤ old → 2 ≤ new → ∃ t, exec (.muLineRelease l v) s = .next t ∧
      (s.bit .muLstat l 0 0 = true → t.bit .muLstat l 0 3 = true ∧ t.bit .muLstat l 0 1 = s.bit .muLstat l 0 1) ∧
      (s.bit .muLstat l 0 0 = false → t.bit .muLstat l 0 1 = false ∧
        (t.bit .muLine l 0 2 = false → ∀ n < 192, (t.lane n).trips.getLsbD l = false)))) ∧
  (∀ (v : Word) (s : State), up s = true →
    (∃ t, exec (.muSwtripWrite v) s = .next t ∧ (∀ b < 16, t.src (400 + b) = bitOf v b) ∧
      ∀ k, k < 400 ∨ 416 ≤ k → t.src k = s.src k) ∧
    (∃ t, exec (.muLock v) s = .next t ∧ t.bit .muCtl 0 0 0 = true ∧ { t with regs := s.regs } = s)) ∧
  (∀ (j : Fin 16) (level : Bool) (s : State),
    (s.dark = true → ∃ t, exec (.tripPinEdge j level) s = .next t ∧ t.fm.trip.getLsbD j = level ∧
      { t with fm := s.fm } = s) ∧
    (s.dark = false → ∃ t, exec (.tripPinEdge j level) s = .next t ∧ t.fm.trip.getLsbD j = level ∧
      (∀ m < 16, ∀ c < 4, (t.chan m c).due = (s.chan m c).due ++
        (if s.timeOk && capSelects s m c (.trip j level) && s.fm.trip.getLsbD j != level then [s.now - 3] else [])) ∧
      t.src (320 + j) = (if s.rdF .muTripcfg j 0 2 1 = 0 then level == s.bit .muTripcfg j 0 0 else s.src (320 + j))) ∧
    let flt := s.rdF .muTripcfg j 0 2 1
    let n := tget (fun _ => 0) s.fm.tripOn j
    let due := s.timeOk = true ∧ flt ≠ 0 ∧ (if flt = 1 then 10 else 40) ≤ n ∧ tripActive s j = true ∧ s.dark = false
    (tget (fun _ => 0) (tripSample s j).fm.tripOn j = (if tripActive s j then Nat.min 40 (n + 1) else 0) ∧
      (tripSample s j).src (320 + j) = (s.src (320 + j) && (tripActive s j || flt == 0))) ∧
    (due → ∃ t, exec (.tripFilterExpiry j) s = .next t ∧ t.src (320 + j) = true) ∧
    (¬ due → exec (.tripFilterExpiry j) s = .next s)) ∧
  (∀ (n : Fin 64) (uv : Nat) (s : State),
    let g := s.gc n
    let hl := compare s n uv g.hi g.lo
    (s.dark = true → exec (.guardThresholdCrossing n uv) s = .next (s.setGc n { g with uv := uv })) ∧
    (s.dark = false → ∃ t, exec (.guardThresholdCrossing n uv) s = .next t ∧ t.gc n = { g with uv := uv, hi := hl.1, lo := hl.2 } ∧
      (s.inRst 67 = true → t.srcs = s.srcs) ∧
      (s.inRst 67 = false → anaLow s = true → t.src (2 * n) = s.bit .gcMode n 0 0 ∧ t.src (2 * n + 1) = s.bit .gcMode n 0 1) ∧
      (s.inRst 67 = false → anaLow s = false → g.hold = true → t.srcs = s.srcs) ∧
      (s.inRst 67 = false → anaLow s = false → g.hold = false →
        let lo := if g.setL then s.src (2 * n + 1) else hl.2
        t.src (2 * n + 1) = lo ∧ t.src (2 * n) = (if g.setH || g.setW then s.src (2 * n) else window s n hl.1 lo)) ∧
      (∀ l < 96, routed s (2 * n) l = true → s.bit .muLstat l 0 0 = false → s.bit .muLstat l 0 1 = false → s.src (2 * n) = false →
        t.src (2 * n) = true → t.rdF .muLstat l 0 12 4 = 2 * n))) ∧
  (∀ (n : Fin 64) (v : Word) (s : State), up s = true →
    (∃ t, exec (.gcConfigWrite n false v) s = .next t ∧ t.rdF .gcDac n 0 9 0 = fld v 9 0 ∧ t.rdF .gcDac n 0 25 16 = fld v 25 16 ∧
      (s.bit .gcMode n 0 0 = true → fld v 9 0 ≠ s.rdF .gcDac n 0 9 0 → (t.gc n).setH = true ∧ t.bit .gcStat n 0 4 = true) ∧
      (s.bit .gcMode n 0 1 = true → fld v 25 16 ≠ s.rdF .gcDac n 0 25 16 → (t.gc n).setL = true ∧ t.bit .gcStat n 0 4 = true)) ∧
    (s.acc = true → ∃ t, exec (.gcConfigWrite n true v) s = .next t ∧ t.rdF .gcMode n 0 10 0 = fld v 10 0) ∧
    (s.acc = false → ∃ t, exec (.gcConfigWrite n true v) s = .next t ∧ t.rdF .gcMode n 0 10 2 = fld v 10 2 ∧
      t.rdF .gcMode n 0 1 0 = s.rdF .gcMode n 0 1 0)) ∧
  (∀ (n : Fin 64) (part : GcPart) (s : State), s.dark = true → exec (.gcSettleEnd n part) s = .next s) ∧
  (∀ (n : Fin 64) (s : State), s.dark = false →
    (∃ t, exec (.gcSettleEnd n .high) s = .next t ∧ (t.gc n).setH = false ∧ (t.gc n).setL = (s.gc n).setL ∧
      t.bit .gcStat n 0 4 = ((s.gc n).setL || (s.gc n).setW)) ∧
    (∃ t, exec (.gcSettleEnd n .low) s = .next t ∧ (t.gc n).setL = false ∧ (t.gc n).setW = (s.gc n).setW) ∧
    (∃ t, exec (.gcSettleEnd n .window) s = .next t ∧ (t.gc n).setW = false ∧ (t.gc n).setH = (s.gc n).setH)) ∧
  (∀ (pin : StoPin) (s : State), ∃ t, exec (.stoAssert pin) s = .next t ∧ t.bit .muSto 0 0 2 = true ∧ t.bit .fmFlt 0 0 4 = true ∧
    t.fm.stoClearing = (if s.bit .muSto 0 0 2 then s.fm.stoClearing else true) ∧ (t.fm.stoA && t.fm.stoB) = false ∧
    ∀ n < 192, (t.lane n).outH = .z ∧ (t.lane n).outL = .z ∧ lanePins t n = (none, none)) ∧
  (∀ (n : Fin 192) (s : State), s.extestOn = true → s.fm.stoA = true → s.fm.stoB = true → rankOne s = false →
    lanePins s n = (Config.bsPin s.tap.boundary (2 * n), Config.bsPin s.tap.boundary (2 * n + 1))) ∧
  (∀ (n : Fin 192) (s : State), s.extestOn = false ∨ (s.fm.stoA && s.fm.stoB) = false ∨ rankOne s = true →
    lanePins s n = (match (s.lane n).outH with | .z => none | .on => some (!s.bit .lnCtl n 0 2) | .off => some (s.bit .lnCtl n 0 2),
      match (s.lane n).outL with | .z => none | .on => some (!s.bit .lnCtl n 0 3) | .off => some (s.bit .lnCtl n 0 3))) ∧
  (∀ (v : Word) (s : State),
    (s.fm.stoClearing = false → exec .stoEnClearDone s = .next s) ∧
    (s.fm.stoClearing = true → ∃ t, exec .stoEnClearDone s = .next t ∧ (∀ n < 192, t.bit .lnCtl n 0 0 = false) ∧
      t.fm.stoClearing = false ∧ t.fm.stoRearm = false ∧
      t.bit .muSto 0 0 2 = (s.bit .muSto 0 0 2 && !(s.fm.stoRearm && canRearm s))) ∧
    (up s = true →
      let disc := s.bit .muSto 0 0 3 && !(bitOf v 3 && (s.fm.stoA == s.fm.stoB))
      ∃ t, exec (.stoRearm v) s = .next t ∧ t.bit .muSto 0 0 3 = disc ∧
        (s.fm.stoClearing = true → t.fm.stoRearm = true ∧ t.bit .muSto 0 0 2 = s.bit .muSto 0 0 2) ∧
        (s.fm.stoClearing = false → t.bit .muSto 0 0 2 = (s.bit .muSto 0 0 2 && !(s.fm.stoA && s.fm.stoB && !disc)))) ∧
    (s.fm.stoA ≠ s.fm.stoB → s.rdF .muSto 0 0 31 16 ≠ 0 → ∃ t, exec .stoDiscrepancy s = .next t ∧ t.bit .muSto 0 0 3 = true) ∧
    (s.fm.stoA = s.fm.stoB ∨ s.rdF .muSto 0 0 31 16 = 0 → exec .stoDiscrepancy s = .next s))

/-- Encoder ports: FILT + 1 samples that agree settle a level, which is filtered once it has come through the input delay, and an open
receiver's level from before its fault is held; filtered edges count by the port's protocol and mark what
cannot be, an index copies and clears the position and is an event, an open receiver is noted, a latch takes the position or starts an SSI
frame, which driver C clocks and whose data, return and time-out follow; EP_POS is not written in SSI mode, and MODE and FILT keep while EN
is 1 (R119–R127). That a sample's level stands for every tick before it, and the shape of a clock cycle, are the model's choices (log entry
85); so are the levels tracked while EN is 0, an open receiver where the port is disabled, and what an SSI frame reads while D is open (log
entry 39), that a return to the held level counts (log entry 131), and that a frame runs on when EN is cleared (log entry 126). -/
def Obligations.encoder_commands_complete : Prop :=
  (∀ (p : Fin 64) (a b z : Bool) (s : State),
    (encOn s = false → exec (.encFilteredEdge p a b z) s = .next s) ∧
    (encOn s = true →
      let x := s.enc p
      let y := sampleRx s p a b z
      let k := s.tb.ticks
      let first := Nat.min (x.seen + 1) k
      let since (rx : Nat) : Nat := match rx with
        | 0 => if x.pins.1 = a then x.since.1 else first
        | 1 => if x.pins.2.1 = b then x.since.2.1 else first
        | _ => if x.pins.2.2 = z then x.since.2.2 else first
      let pin (rx : Nat) : Bool := match rx with | 0 => a | 1 => b | _ => z
      let last (rx : Nat) : Bool := (((x.edges.filter (·.2.1 == rx)).getLast?).map (·.2.2)).getD (filtOf x rx)
      y = { x with pins := (a, b, z), since := (since 0, since 1, since 2), seen := k, edges := y.edges } ∧
      (∀ e, e ∈ y.edges ↔ e ∈ x.edges ∨ ∃ rx < 3, x.openRx.getLsbD rx = false ∧ since rx + s.rdF .epCfg p 0 7 4 ≤ k ∧
        pin rx ≠ last rx ∧ e = (since rx + s.rdF .epCfg p 0 7 4 + 4, rx, pin rx)) ∧
      ∃ t, exec (.encFilteredEdge p a b z) s = .next t ∧ t.enc p = (ripen (s.setEnc p y) p).enc p ∧
        t.rd .epPos p 0 = (ripen (s.setEnc p y) p).rd .epPos p 0 ∧ (∀ q, q ≠ p.val → t.enc q = s.enc q) ∧
        t.rdF .epStat p 0 13 11 = (if epMode s p = 2 then hallOf (t.enc p).a (t.enc p).b (t.enc p).z else 0) ∧
        (let h := hallOf (t.enc p).a (t.enc p).b (t.enc p).z
         epEn s p = true → s.timeOk = true → epMode s p = 2 → h = 0 ∨ h = 7 → t.bit .epStat p 0 3 = true))) ∧
  (∀ (p : Fin 64) (s : State), s.timeOk = false ∨ (∀ e ∈ (s.enc p).edges, s.tb.ticks < e.1) → ripen s p = s) ∧
  (∀ (p : Fin 64) (τ : Nat) (g rest : List (Nat × Nat × Bool)) (s : State), s.timeOk = true → τ ≤ s.tb.ticks → g ≠ [] →
    (s.enc p).edges = g ++ rest → (∀ e ∈ g, e.1 = τ) → (∀ e ∈ rest, τ < e.1) → rest.Pairwise (fun e f => e.1 ≤ f.1) →
    let x := s.enc p
    let lv (rx : Nat) (l : Bool) : Bool := (((g.filter (·.2.1 == rx)).getLast?).map (·.2.2)).getD l
    let y : EncS := { x with a := lv 0 x.a, b := lv 1 x.b, z := lv 2 x.z }
    let t := takeEdges s p g
    let sgn (d : Int) : Int := if s.bit .epCfg p 0 3 then -d else d
    ripen s p = ripen t p ∧ t.enc p = { y with edges := rest, hist := (t.enc p).hist } ∧
      (∀ e ∈ (t.enc p).hist, e ∈ x.hist ∨ e.1 = τ) ∧ (∀ q, q ≠ p.val → t.enc q = s.enc q) ∧
      (epEn s p = false ∨ epMode s p = 1 → t.rd .epPos p 0 = s.rd .epPos p 0) ∧
      (epEn s p = true → epMode s p = 0 → x.z = y.z →
        t.rd .epPos p 0 = s.rd .epPos p 0 + wdi (sgn (quadStep x.a x.b y.a y.b).1) ∧
        t.bit .epStat p 0 2 = (s.bit .epStat p 0 2 || x.a != y.a && x.b != y.b) ∧
        ((quadStep x.a x.b y.a y.b).1 ≠ 0 → t.bit .epStat p 0 10 = decide (0 < sgn (quadStep x.a x.b y.a y.b).1))) ∧
      (epEn s p = true → epMode s p = 2 →
        t.rd .epPos p 0 = s.rd .epPos p 0 + wdi (sgn (hallStep (hallOf x.a x.b x.z) (hallOf y.a y.b y.z)).1) ∧
        t.bit .epStat p 0 3 = (s.bit .epStat p 0 3 || (hallStep (hallOf x.a x.b x.z) (hallOf y.a y.b y.z)).2)) ∧
      (epEn s p = true → epMode s p = 3 → x.z = y.z →
        t.rd .epPos p 0 = s.rd .epPos p 0 + wdi (sgn (if x.a = false ∧ y.a = true then if x.b then 1 else -1 else 0)) ∧
        t.bit .epStat p 0 4 = (s.bit .epStat p 0 4 || !x.a && y.a && x.b != y.b)) ∧
      (epEn s p = true → epMode s p = 0 → x.z = false → y.z = true → s.rdF .epCfg p 0 9 8 = 1 → s.bit .epStat p 0 14 = false →
        let pos := s.rd .epPos p 0 + wdi (sgn (quadStep x.a x.b y.a y.b).1)
        t.rd .epIdx p 0 = pos ∧ t.rd .epPos p 0 = (if s.bit .epCfg p 0 10 then 0 else pos) ∧
          t.bit .epStat p 0 0 = true ∧ t.bit .epStat p 0 1 = (s.bit .epStat p 0 1 || s.bit .epStat p 0 0) ∧
          ∀ m < 16, ∀ c < 4, (t.chan m c).due = (s.chan m c).due ++ (if capSelects s m c (.index p) then [s.now] else []))) ∧
  (∀ (p : Fin 64) (rx : Fin 4) (s : State), encOn s = true →
    let x := s.enc p
    (epEn s p = true → rxUsed s p rx = true → s.timeOk = true → ∃ t, exec (.encReceiverOpen p rx true) s = .next t ∧
      t.bit .epStat p 0 5 = true ∧ (t.enc p).openRx.getLsbD rx = true ∧
      (∀ r < 4, r ≠ rx.val → (t.enc p).openRx.getLsbD r = x.openRx.getLsbD r) ∧
      (x.openRx.getLsbD rx = true → t.enc p = x ∧ t.rd .epPos p 0 = s.rd .epPos p 0) ∧
      (x.openRx.getLsbD rx = false → (∀ e ∈ x.edges, s.tb.ticks < e.1) →
        let kept (r : Nat) : Bool := if r = rx.val then
            ((x.hist.find? (fun e => e.2.1 == r && decide (s.tb.ticks < e.1 + 400))).map (·.2.2)).getD (filtOf x r)
          else filtOf x r
        (t.enc p).a = kept 0 ∧ (t.enc p).b = kept 1 ∧ (t.enc p).z = kept 2 ∧ (t.enc p).d = x.d ∧
          (t.enc p).edges = x.edges.filter (·.2.1 != rx.val) ∧ (rx.val = 3 → (t.enc p).dFrom = s.tb.ticks - 400) ∧
          ((∀ r < 3, kept r = filtOf x r) → t.rd .epPos p 0 = s.rd .epPos p 0))) ∧
    (epEn s p = false ∨ rxUsed s p rx = false ∨ s.timeOk = false → exec (.encReceiverOpen p rx true) s = .next s) ∧
    (∃ t, exec (.encReceiverOpen p rx false) s = .next t ∧ (t.enc p).openRx.getLsbD rx = false ∧
      (∀ r < 4, r ≠ rx.val → (t.enc p).openRx.getLsbD r = x.openRx.getLsbD r) ∧
      (t.enc p).a = x.a ∧ (t.enc p).b = x.b ∧ (t.enc p).z = x.z ∧ (t.enc p).d = x.d ∧ (t.enc p).pins = x.pins ∧
      (x.openRx.getLsbD rx = true →
        (rx.val = 0 → (t.enc p).since.1 = s.tb.ticks) ∧ (rx.val = 1 → (t.enc p).since.2.1 = s.tb.ticks) ∧
        (rx.val = 2 → (t.enc p).since.2.2 = s.tb.ticks) ∧ (rx.val = 3 → (t.enc p).dSince = s.tb.ticks)) ∧
      { t with encs := s.encs } = s)) ∧
  (∀ (p : Fin 64) (rx : Fin 4) (fault : Bool) (s : State), encOn s = false → exec (.encReceiverOpen p rx fault) s = .next s) ∧
  (∀ (p : Fin 64) (v : Word) (s : State), up s = true →
    (∃ t, exec (.epSwlat p v) s = .next t ∧ t.rdF .epLat p 0 7 0 = fld v 7 0 ∧
      (epEn s p = false ∨ s.timeOk = false → { t with regs := s.regs } = s ∧ t.rd .epStat p 0 = s.rd .epStat p 0) ∧
      (epEn s p = true → s.timeOk = true → epMode s p ≠ 1 → t.rd .epLatp p 0 = s.rd .epPos p 0 ∧ t.bit .epStat p 0 8 = true) ∧
      (epEn s p = true → s.timeOk = true → epMode s p = 1 → s.bit .epStat p 0 9 = true → t.bit .epStat p 0 7 = true ∧ t.enc p = s.enc p) ∧
      (epEn s p = true → s.timeOk = true → epMode s p = 1 → s.bit .epStat p 0 9 = false → t.bit .epStat p 0 9 = true ∧
        t.enc p = { s.enc p with frame := true, t0 := s.tb.ticks, dPast := [] } ∧ (s.extestOn = false → ssiClock t p = some false))) ∧
    (epMode s p = 1 → exec (.epPosWrite p v) s = .next s) ∧
    (epMode s p ≠ 1 → ∃ t, exec (.epPosWrite p v) s = .next t ∧ t.rd .epPos p 0 = v ∧ { t with regs := s.regs } = s) ∧
    (∃ t, exec (.epCfgWrite p v) s = .next t ∧ epEn t p = (if s.acc then bitOf v 0 else epEn s p) ∧
      epMode t p = (if epEn s p then epMode s p else fld v 2 1) ∧
      t.rdF .epCfg p 0 7 4 = (if epEn s p then s.rdF .epCfg p 0 7 4 else fld v 7 4) ∧ t.bit .epStat p 0 14 = false ∧
      { t with regs := s.regs } = s)) ∧
  (∀ (p : Fin 64) (data : Word) (par : Bool) (s : State),
    let x := s.enc p
    let div := Nat.max 40 (s.rdF .epSsi p 0 12 5)
    let bits := s.rdF .epSsi p 0 4 0
    let len := (bits + 2 + (if s.rdF .epSsi p 0 15 14 = 1 ∨ s.rdF .epSsi p 0 15 14 = 2 then 1 else 0)) * div
    let n := s.tb.ticks - x.t0
    let held (j : Nat) : Bool := dHeld x (x.t0 + (j + 1) * div + div / 2)
    let live := encOn s && s.timeOk
    (s.extestOn = true → ssiClock s p = Config.bsPin s.tap.boundary (410 + p)) ∧
    (s.extestOn = false → epEn s p = false ∨ epMode s p ≠ 1 ∨ encOn s = false → ssiClock s p = none) ∧
    (s.extestOn = false → epEn s p = true → epMode s p = 1 → encOn s = true →
      ssiClock s p = some (decide (x.frame = true → n < len → div / 2 ≤ n % div))) ∧
    ((s.enc p).frame = false ∨ live = false ∨ n < len → exec (.ssiFrameComplete p data par) s = .next s) ∧
    ((s.enc p).frame = true → live = true → len ≤ n →
      ∃ t raw, exec (.ssiFrameComplete p data par) s = .next t ∧ (t.enc p).frame = false ∧ t.bit .epStat p 0 8 = true ∧
        raw < 2 ^ (bits + 1) ∧ (∀ i ≤ bits, raw.testBit (bits - i) = (if held i = false then bitOf data (bits - i)
          else if i = 0 then x.d else raw.testBit (bits - (i - 1)))) ∧
        t.rd .epLatp p 0 = t.rd .epPos p 0 ∧ (s.bit .epSsi p 0 13 = false → t.rd .epPos p 0 = wd raw) ∧
        (s.bit .epSsi p 0 13 = true → t.rd .epPos p 0 = wd (grayToBin 5 raw)) ∧
        let pb := if held (bits + 1) then raw.testBit 0 else par
        (s.rdF .epSsi p 0 15 14 = 1 → t.bit .epStat p 0 6 = (s.bit .epStat p 0 6 || decide ((ones (wd raw) + b2n pb) % 2 = 1))) ∧
        (s.rdF .epSsi p 0 15 14 = 2 → t.bit .epStat p 0 6 = (s.bit .epStat p 0 6 || decide ((ones (wd raw) + b2n pb) % 2 = 0))) ∧
        (s.rdF .epSsi p 0 15 14 = 0 ∨ s.rdF .epSsi p 0 15 14 = 3 → t.bit .epStat p 0 6 = s.bit .epStat p 0 6)) ∧
    (s.bit .epStat p 0 9 = true → (s.enc p).frame = false → live = true →
      let high := x.d || (!x.openRx.getLsbD 3 && decide (s.rdF .epCfg p 0 7 4 + 4 ≤ s.tb.ticks - x.dSince))
      (high = true → ∃ t, exec (.ssiDataReturn p) s = .next t ∧ t.bit .epStat p 0 9 = false ∧
        t.bit .epStat p 0 6 = s.bit .epStat p 0 6 ∧ t.enc p = { x with d := true } ∧ { t with regs := s.regs, encs := s.encs } = s) ∧
      (high = false → exec (.ssiDataReturn p) s = .next s) ∧
      (len + 10000 ≤ n → ∃ t, exec (.ssiTimeout p) s = .next t ∧ t.bit .epStat p 0 9 = false ∧ t.bit .epStat p 0 6 = true ∧
        { t with regs := s.regs } = s) ∧
      (n < len + 10000 → exec (.ssiTimeout p) s = .next s)) ∧
    (s.bit .epStat p 0 9 = false ∨ (s.enc p).frame = true ∨ live = false →
      exec (.ssiDataReturn p) s = .next s ∧ exec (.ssiTimeout p) s = .next s))

/-! ### Rows -/

/-- Rows: binding and trios are taken or refused with BERR, EN is accepted under its conditions and its clear drops the open triggers; the
follower's setpoint, interpolated between two points of the table and rounded, reaches its activation, or CAMERR where there is no table;
a trigger opens an activation or is counted as an overrun; the agreement checker stages the stores of each engine, accepts or holds its
first commit, compares the two lists and, at a fault, fails over to the standby, loses the standby or leaves the slot without an acting
engine, which asserts the row's source, as enough misses do; at the activation point the able engine starts at its entry with the next count and its input
block, a Halted one's partner for it, and with none able the activation stays open; a deadline counts a miss, an incomplete activation, a
failover or a lost standby, and no role changes for a Halted engine; a REJOIN is noted; the commit held for an earlier activation keeps its own deadline (R18, R19, R177–R189, R191–R193, R261, R262). That NEWV
is given back (log entry 35), that an activation with no able engine stays open and is a miss at its deadline (log entry 36), and what a
Halted engine leaves to its partner (log entry 94) are the model's choices. -/
def Obligations.row_commands_complete : Prop :=
  (∀ (k : Fin 64) (v : Word) (s : State), up s = true →
    let en := s.bit .rwCtl k 0 0
    let ok := s.acc && s.rdF .rwFloor k 0 19 0 != 0 && anyN 4 (slotValid s k)
    let f := fld v 5 0
    let n := fld v 9 6
    let taken := anyN n (fun i => match trioRow s (f + i) with | some j => j != k | none => false)
    let bad := en || decide (8 < n) || decide (64 < f + n) || taken || (s.bit .hwCtl 0 0 0 && n != 0 && decide (f < 8))
    (∃ t, exec (.rowEnable k v) s = .next t ∧ t.bit .rwCtl k 0 0 = (en || ok) ∧ t.rdF .rwCtl k 0 4 1 = fld v 4 1 ∧
      t.bit .rwStat k 0 0 = (s.bit .rwStat k 0 0 || !en && !ok)) ∧
    (∃ t, exec (.rowDisable k v) s = .next t ∧ t.bit .rwCtl k 0 0 = false ∧ t.rdF .rwCtl k 0 4 1 = fld v 4 1 ∧
      (t.row k).newv = ((s.row k).newv || anyN 4 (fun x => (s.slot k x).acts.any (·.newv))) ∧
      ∀ x < 4, (t.slot k x).acts = [] ∧ (t.slot k x).run = (s.slot k x).run) ∧
    (∃ t, exec (.rwTriosWrite k v) s = .next t ∧ t.rdF .rwTrios k 0 9 0 = (if bad then s.rdF .rwTrios k 0 9 0 else fld v 9 0) ∧
      t.bit .rwStat k 0 0 = (s.bit .rwStat k 0 0 || bad) ∧ { t with regs := s.regs } = s)) ∧
  (∀ (k : Fin 64) (x : Fin 4) (v : Word) (s : State), up s = true →
    let clash := anyN 4 (fun y => y != x && (namedEngines (s.rd .rwBind k y)).any (fun e => e ∈ namedEngines v))
    let twin := bitOf v 31 && bitOf v 15 && fld v 14 12 == fld v 18 16
    let bad := s.bit .rwCtl k 0 0 || clash || twin
    (bad = true → ∃ t, exec (.rwBindWrite k x v) s = .next t ∧ t.bit .rwStat k 0 0 = true ∧ t.rd .rwBind k x = s.rd .rwBind k x ∧
      { t with regs := s.regs } = s) ∧
    (bad = false → ∃ t, exec (.rwBindWrite k x v) s = .next t ∧ t.slot k x = {} ∧ t.bit .rwBind k x 31 = bitOf v 31 ∧
      t.rdF .rwBind k x 18 0 = fld v 18 0 ∧ t.bit .rwSstat k x 0 = false ∧ t.bit .rwSstat k x 1 = (bitOf v 31 && bitOf v 15)) ∧
    (slotValid s k x = true → acting s k x = none → able s (pce s k x) = true →
      ∃ t, exec (.rowRejoin k x v) s = .next t ∧ (t.slot k x).rejoin = some (false, false)) ∧
    (slotValid s k x = true → acting s k x = some (pce s k x) → s.bit .rwBind k x 15 = true → s.bit .rwSstat k x 1 = false →
      able s (sce s k x) = true → ∃ t, exec (.rowRejoin k x v) s = .next t ∧ (t.slot k x).rejoin = some (true, true)) ∧
    (slotValid s k x = false → ∃ t, exec (.rowRejoin k x v) s = .next t ∧ { t with regs := s.regs } = s)) ∧
  (∀ (k : Fin 64) (x : Fin 4) (a : OpenAct) (rest : List OpenAct) (s : State), (s.slot k x).acts = a :: rest → a.cam = false →
    (s.bit .rwCam k 0 0 = true → s.inRst 68 = false → s.dark = false →
      let c := (camRead s a.vint (s.rdF .rwCam k 0 8 1) a.mpos a.vel).1
      ∃ t, exec (.camSetpointReady k x) s = .next t ∧ (t.slot k x).acts =
        { a with cam := true, setp := c.setp, setv := c.setv, camErr := c.err, camPoison := c.poison } :: rest) ∧
    (s.bit .rwCam k 0 0 = false ∨ s.inRst 68 = true ∨ s.dark = true → exec (.camSetpointReady k x) s = .next s) ∧
    (let c := (camRead s a.vint (s.rdF .rwCam k 0 8 1) a.mpos a.vel).1
     let j := s.rdF .rwCam k 0 8 1
     (a.vint = none → c = { setp := 0, setv := 0, err := true, poison := false }) ∧
     (∀ slot, a.vint = some slot → s.rdF .ckDirh slot 0 15 0 ≤ j → c = { setp := 0, setv := 0, err := true, poison := false }) ∧
     (∀ slot, a.vint = some slot → j < s.rdF .ckDirh slot 0 15 0 →
       let h := ckPeek s (slotLo s slot + 1028 + j)
       let lg := efld h 27 24
       let at' := slotLo s slot + efld h 23 0
       let i := a.mpos.toNat / 2 ^ (32 - lg)
       let r0 := ckRead s (at' + i)
       let r1 := ckRead r0.2 (at' + (i + 1) % 2 ^ lg)
       let u : ℚ := (a.mpos.toNat % 2 ^ (32 - lg) : ℕ) / 2 ^ (32 - lg)
       let p0 : ℚ := sfld r0.1.1 0
       let s0 : ℚ := sfld r0.1.1 32 / 65536
       let p1 : ℚ := sfld r1.1.1 0 + (if i = 2 ^ lg - 1 then sfld h 32 else 0)
       let s1 : ℚ := sfld r1.1.1 32 / 65536
       let pos := (2 * u ^ 3 - 3 * u ^ 2 + 1) * p0 + (u ^ 3 - 2 * u ^ 2 + u) * s0 + (-2 * u ^ 3 + 3 * u ^ 2) * p1 + (u ^ 3 - u ^ 2) * s1
       let der := (6 * u ^ 2 - 6 * u) * p0 + (3 * u ^ 2 - 4 * u + 1) * s0 + (-6 * u ^ 2 + 6 * u) * p1 + (3 * u ^ 2 - 2 * u) * s1
       c.setp = wdi ⌊(pos + 1 / 2 : ℚ)⌋ ∧
       c.setv = wdi (max (-2147483648) (min 2147483647 ⌊(der * a.vel.toInt / 2 ^ (32 - lg) + 1 / 2 : ℚ)⌋)) ∧
       c.poison = (r0.1.2 || r1.1.2)))) ∧
  (∀ (k : Fin 64) (x : Fin 4) (s : State),
    let opens := s.bit .rwCtl k 0 0 && slotValid s k x && (s.row k).first && !s.inRst k && s.fm.power != .idle && s.fm.reset == .none
    let acts := (s.slot k x).acts
    let t := trigger s k x
    (opens = false → t = s) ∧
    (opens = true → 2 ≤ acts.length → t.bit .rwSstat k x 7 = true ∧ (t.slot k x).acts = acts ∧
      t.rdF .rwMiss k x 27 20 = Nat.min (s.rdF .rwMiss k x 27 20 + 1) 255 ∧
      t.rdF .rwSstat k x 19 16 = Nat.min (s.rdF .rwSstat k x 19 16 + 1) 15) ∧
    (opens = true → acts.length < 2 → ∃ a, (t.slot k x).acts = (s.slot k x).acts ++ [a] ∧ a.trig = s.now ∧ a.since = s.steady ∧
      a.mpos = s.str.m + wdi (s.str.v.toInt * (s.now - s.str.tm).toInt / 65536) ∧ a.vel = s.str.v ∧
      a.vint = activeSlot (takeSwitch s) ∧ a.newv = ((takeSwitch s).row k).newv ∧ (t.row k).newv = false ∧
      a.sd = 0 ∧ a.ep = false ∧ a.ad = false ∧ a.cam = false ∧ a.block = none) ∧
    (∀ (src : Nat) (p : Nat → Nat → Bool),
      let selects (j y : Nat) : Prop := s.rdF .rwTrig j y 2 0 = src ∧ p j (s.rdF .rwTrig j y 15 8) = true
      ((∀ j < 64, ∀ y < 4, selects j y ↔ j = k ∧ y = x) → triggers s src p = t) ∧
      ((∀ j < 64, ∀ y < 4, ¬ selects j y) → triggers s src p = s)) ∧
    (∀ n : Nat, laneTrigger s n = triggers s 1 (fun j i => i == n && n ∈ rowLanes s j)) ∧
    ((rowSrc s k).src (336 + k) = true ↔ s.inRst k = true ∨ ∃ y < 4, (slotValid s k y = true ∧ acting s k y = none) ∨
      (s.rdF .rwCtl k 0 4 1 ≠ 0 ∧ s.rdF .rwCtl k 0 4 1 ≤ s.rdF .rwSstat k y 19 16))) ∧
  (∀ (n : Fin 512) (addr : Nat) (v : Word) (x : Nat) (s : State), slotOf s n = some x →
    let k := n.val / 8
    let e := s.eact n
    let dead := match (s.slot k x).run with | some (_, d) => d | none => false
    let late (t : State) : Prop := if dead then t.bit .rwSstat k x 9 = true else t.rdF .rwSstat k x 19 16 = 0
    let taken (t : State) : Prop := t.commits = s.commits ++ [{ lanes := rowLanes s k, stores := e.staged }] ∧
      (t.eact n).committed = true ∧ (t.eact n).applied = true ∧ late t
    let ended (m : Nat) : Bool := ((s.eact m).committed || (s.eact m).yielded) && (s.core m).mode != .stopped
    let differ (t : State) (u v : List (Nat × Word) × Bool) : Prop := t.bit .rwSstat k x 4 = true ∧
      t.rdF .rwDis k x 23 16 = Nat.min (s.rdF .rwDis k x 23 16 + 1) 255 ∧
      t.rdF .rwDis k x 15 0 = (firstDiff u.1 v.1).1 % 65536 ∧ t.bit .rwDis k x 24 = (firstDiff u.1 v.1).2
    (checkerStore s n addr v = if e.committed then s.setB .rwSstat k x 8
      else s.setEact n { e with staged := e.staged ++ [(addr, v)] }) ∧
    (e.inAct = false → checkerCommit s n = s) ∧
    (e.inAct = true → e.committed = true → checkerCommit s n = s.setB .rwSstat k x 8) ∧
    (e.inAct = true → e.committed = false → e.past = false → acting s k x = some n.val → s.bit .rwSstat k x 1 = false →
      taken (checkerCommit s n)) ∧
    (∀ q < 512, e.inAct = true → e.committed = false → e.past = false → acting s k x = some n.val → s.bit .rwSstat k x 1 = true →
      (s.slot k x).began = some (n.val, q) → q ≠ n.val → (e.missed && (s.eact q).missed) = false → (s.eact q).applied = false →
      let t := checkerCommit s n
      taken t ∧ ((s.slot k x).judged = false → ended q = true → (s.core n).mode ≠ .stopped →
        ((s.eact q).committed = true → (s.eact q).staged = e.staged → t.rd .rwDis k x = s.rd .rwDis k x ∧
          t.bit .rwSstat k x 4 = s.bit .rwSstat k x 4) ∧
        ((s.eact q).committed = false ∨ (s.eact q).staged ≠ e.staged →
          differ t (e.staged, true) ((s.eact q).staged, (s.eact q).committed)))) ∧
    (∀ p < 512, e.inAct = true → e.committed = false → e.past = false → acting s k x = some p → standby s k x = some n.val → p ≠ n.val →
      (s.slot k x).began = some (p, n.val) → (e.missed && (s.eact p).missed) = false →
      let t := checkerCommit s n
      t.commits = s.commits ∧ (t.eact n).committed = true ∧ (t.eact n).applied = e.applied ∧ (t.eact n).staged = e.staged ∧
        ((s.slot k x).judged = false → ended p = true → (s.core n).mode ≠ .stopped →
          ((s.eact p).committed = true → (s.eact p).staged = e.staged → t.rd .rwDis k x = s.rd .rwDis k x) ∧
          ((s.eact p).committed = false ∨ (s.eact p).staged ≠ e.staged →
            differ t ((s.eact p).staged, (s.eact p).committed) (e.staged, true)))) ∧
    (∀ q < 512, e.inAct = true → e.committed = false → e.past = false → s.bit .rwSstat k x 1 = true → q ≠ n.val →
      acting s k x = some n.val ∨ standby s k x = some n.val →
      (s.slot k x).began = some (n.val, q) ∨ (s.slot k x).began = some (q, n.val) → e.missed = true → (s.eact q).missed = true →
      if (s.slot k x).lateDone then (checkerCommit s n).commits = s.commits else taken (checkerCommit s n)) ∧
    (∀ q < 512, acting s k x = some n.val → standby s k x = some q → q ≠ n.val → (s.slot k x).prev = none →
      (s.slot k x).run.isSome = true →
      let t := checkerFault s n
      let f := s.eact q
      t.bit .rwSstat k x 2 = true ∧ t.bit .rwSstat k x 1 = false ∧ t.bit .rwSstat k x 0 = (!s.bit .rwSstat k x 0) ∧
        acting t k x = some q ∧ (t.eact n).inAct = false ∧
        t.rdF .rwMiss k x 31 28 = Nat.min (s.rdF .rwMiss k x 31 28 + 1) 15 ∧
        (s.book.queue.length < 16 → ∃ r ∈ t.book.queue, r.code = 0x0204 ∧ r.src = k ∧ r.p2 = wd n) ∧
        (f.past = false → f.committed = true → f.applied = false →
          t.commits = s.commits ++ [{ lanes := rowLanes s k, stores := f.staged }] ∧ (t.eact q).applied = true ∧
          (if f.onTime then t.rdF .rwSstat k x 19 16 = 0 else t.bit .rwSstat k x 9 = true)) ∧
        (f.past = true ∨ f.committed = false ∨ f.applied = true → t.commits = s.commits)) ∧
    (∀ p < 512, acting s k x = some p → standby s k x = some n.val → p ≠ n.val →
      let t := checkerFault s n
      t.bit .rwSstat k x 3 = true ∧ t.bit .rwSstat k x 1 = false ∧ t.bit .rwSstat k x 0 = s.bit .rwSstat k x 0 ∧
        acting t k x = some p ∧ t.commits = s.commits ∧
        (s.book.queue.length < 16 → ∃ r ∈ t.book.queue, r.code = 0x0205 ∧ r.src = k ∧ r.p2 = wd n)) ∧
    (acting s k x = some n.val → standby s k x = none → x < 4 →
      let t := checkerFault s n
      acting t k x = none ∧ t.commits = s.commits ∧ t.src (336 + k) = true) ∧
    (e.inAct = true → e.committed = false → e.past = false →
      (answers s k x n = true → dead = false → (checkerYield s n).rdF .rwSstat k x 19 16 = 0) ∧
      (answers s k x n = false ∨ dead = true →
        (checkerYield s n).rdF .rwSstat k x 19 16 = s.rdF .rwSstat k x 19 16))) ∧
  (∀ (l u v : List (Nat × Word)) (a b : Nat × Word), (a ≠ b → firstDiff (l ++ a :: u) (l ++ b :: v) = (a.1, false)) ∧
    firstDiff l (l ++ b :: v) = (b.1, true) ∧ firstDiff (l ++ a :: u) l = (a.1, true)) ∧
  (∀ (n : Fin 512) (en : SbEntry) (s : State), (en.commit = true → drainCe s n en = checkerCommit s n) ∧
    (en.commit = false → 0x60000000 ≤ en.addr →
      drainCe s n en = checkerStore s n en.addr (wd (en.bytes.foldr (fun b m => b.1.toNat + 256 * m) 0)))) ∧
  (∀ (k : Fin 64) (x : Fin 4) (a : OpenAct) (rest : List OpenAct) (s : State), (s.slot k x).acts = a :: rest → a.block = none →
    let a' : OpenAct := { a with block := some (inputBlock s k x a), point := s.now }
    let can := s.fm.power != .idle && !s.dark && (s.slot k x).rejoin.isNone
    (allIn s k x a = false → exec (.activationPoint k x) s = .next s) ∧
    (allIn s k x a = true → (roles s k x).any (able s) = false → (s.slot k x).rejoin = none →
      exec (.activationPoint k x) s = .next (s.setSlot k x { s.slot k x with acts := a' :: rest })) ∧
    (∀ p < 512, ∀ q < 512, allIn s k x a = true → acting s k x = some p → standby s k x = some q → can = true →
      (s.core p).halted = true → able s q = true →
      ∃ t, exec (.activationPoint k x) s = .next t ∧ (t.core q).mode = .active ∧ (t.core q).pc = 4 * s.rdF .rwBind k x 11 0 ∧
        (t.eact q).inAct = true ∧ (t.eact q).point = s.now ∧ (t.slot k x).acts = rest ∧ (t.slot k x).began = none ∧
        (∀ tr, (s.slot k x).run = some (tr, false) → (s.slot k x).began = some (p, q) → lateEngine s p = true →
          (s.eact q).committed = true → (s.eact q).applied = false →
          (t.slot k x).prev = some { since := tr, p := p, q := q, stores := (s.eact q).staged }) ∧
        (p ≠ q → t.core p = s.core p ∧ (t.eact p).past = true)) ∧
    (∀ e < 512, can = true → allIn s k x a = true → acting s k x = some e → standby s k x = none →
      able s e = true → s.bit .memStat (2 * e + 1) 0 7 = false → s.rdF .memFlip (2 * e + 1) 0 12 0 = 0 → a.newv = false →
      ∃ t, exec (.activationPoint k x) s = .next t ∧ (t.core e).mode = .active ∧ (t.core e).pc = 4 * s.rdF .rwBind k x 11 0 ∧
        (t.eact e).inAct = true ∧ (t.eact e).point = s.now ∧ (t.slot k x).acts = rest ∧ (t.slot k x).run = some (a.since, false) ∧
        (t.slot k x).count = (s.slot k x).count + 1 ∧
        loadValue (t.bytesAt (memBase (2 * e + 1) + 0x3FC0) 4) false = (a.trig.truncate 32, false) ∧
        loadValue (t.bytesAt (memBase (2 * e + 1) + 0x3FDC) 4) false = (a.mpos, false) ∧
        (∀ c, c ≠ e → t.core c = s.core c))) ∧
  (∀ (k : Fin 64) (x : Fin 4) (s : State),
    let b := s.slot k x
    let dl := s.rdF .rwDl k x 12 0
    (∀ tr, deadlineCome s k x tr = decide ((if dl = 0 ∨ 4784 < dl then 4784 else dl) ≤ (s.steady - tr).toNat)) ∧
    (s.dark = true → exec (.deadlineExpiry k x) s = .next s) ∧
    (∀ h, b.prev = some h → deadlineCome s k x h.since = true → s.dark = false → ∃ t, exec (.deadlineExpiry k x) s = .next t ∧
      (t.slot k x).prev = none ∧
      ((s.core h.p).halted = true → t.commits = s.commits ++ [{ lanes := rowLanes s k, stores := h.stores }] ∧
        (t.slot k x).run = b.run ∧ (t.slot k x).acts = b.acts ∧ t.rd .rwSstat k x = s.rd .rwSstat k x) ∧
      ((s.core h.p).halted = false → t.bit .rwSstat k x 2 = true ∧ t.bit .rwSstat k x 1 = false ∧
        t.bit .rwSstat k x 0 = (!s.bit .rwSstat k x 0) ∧
        { lanes := rowLanes s k, stores := h.stores } ∈ t.commits)) ∧
    let free := b.prev.all (fun h => !deadlineCome s k x h.since)
    (∀ tr, b.run = some (tr, false) → free = true → deadlineCome s k x tr = false → exec (.deadlineExpiry k x) s = .next s) ∧
    (b.run.all (·.2) = true → free = true → s.dark = false →
      (b.acts = [] → exec (.deadlineExpiry k x) s = .next s) ∧
      (∀ a rest, b.acts = a :: rest → deadlineCome s k x a.since = false → exec (.deadlineExpiry k x) s = .next s) ∧
      (∀ a rest, b.acts = a :: rest → deadlineCome s k x a.since = true → ∃ t, exec (.deadlineExpiry k x) s = .next t ∧
        (rest.all (·.block.isNone) = true → (t.slot k x).acts = rest ∧ ((t.row k).newv = ((s.row k).newv || a.newv))) ∧
        (allIn s k x a = true → t.bit .rwSstat k x 5 = true ∧
          t.rdF .rwMiss k x 11 0 = Nat.min (s.rdF .rwMiss k x 11 0 + 1) 4095) ∧
        (allIn s k x a = false → t.bit .rwSstat k x 6 = true ∧
          t.rdF .rwMiss k x 19 12 = Nat.min (s.rdF .rwMiss k x 19 12 + 1) 255))) ∧
    (∀ tr p, b.run = some (tr, false) → free = true → deadlineCome s k x tr = true → s.dark = false → acting s k x = some p →
      (standby s k x = none → lateEngine s p = true → ∃ t, exec (.deadlineExpiry k x) s = .next t ∧
        t.bit .rwSstat k x 5 = true ∧ (t.eact p).missed = true ∧ (t.slot k x).run = some (tr, true)) ∧
      (standby s k x = none → lateEngine s p = false → ∃ t, exec (.deadlineExpiry k x) s = .next t ∧
        (t.slot k x).run = some (tr, true) ∧ { t with slots := s.slots } = s) ∧
      (∀ q, standby s k x = some q → p ≠ q → b.began = some (p, q) →
        (lateEngine s p = true → lateEngine s q = true → ∃ t, exec (.deadlineExpiry k x) s = .next t ∧
          t.bit .rwSstat k x 5 = true ∧ (t.eact p).missed = true ∧ (t.eact q).missed = true ∧ t.bit .rwSstat k x 1 = true) ∧
        (lateEngine s p = true → (s.eact q).committed = true → (s.core p).halted = false →
          ∃ t, exec (.deadlineExpiry k x) s = .next t ∧ t.bit .rwSstat k x 2 = true ∧ t.bit .rwSstat k x 1 = false ∧
            t.bit .rwSstat k x 0 = (!s.bit .rwSstat k x 0) ∧ (t.eact q).applied = true ∧ t.rdF .rwMiss k x 31 28 = Nat.min (s.rdF .rwMiss k x 31 28 + 1) 15) ∧
        (lateEngine s p = true → (s.eact q).committed = true → (s.core p).halted = true →
          ∃ t, exec (.deadlineExpiry k x) s = .next t ∧ t.bit .rwSstat k x 2 = s.bit .rwSstat k x 2 ∧
            t.bit .rwSstat k x 1 = true ∧ t.bit .rwSstat k x 0 = s.bit .rwSstat k x 0 ∧ (t.eact q).applied = true) ∧
        (lateEngine s p = false → lateEngine s q = true →
          ∃ t, exec (.deadlineExpiry k x) s = .next t ∧ (t.slot k x).run = some (tr, true) ∧ (t.eact q).missed = true ∧
            t.bit .rwSstat k x 0 = s.bit .rwSstat k x 0 ∧ t.bit .rwSstat k x 1 = (s.core q).halted ∧
            t.bit .rwSstat k x 3 = (s.bit .rwSstat k x 3 || !(s.core q).halted)))))
end

