-- ==== Sys2Proof/Laws/Table.lean ====
section
/-! SUPPORT. Sparse tables: what a read gives after an update, and that an update keeps the canonical form. -/

namespace Sys2Proof.Laws

open Sys2Proof.Machine

variable {α : Type}

theorem tget_tdel_ne (d : Nat → α) (t : Tbl α) (k j : Nat) (h : j ≠ k) : tget d (tdel t k) j = tget d t j := by
  induction t with
  | nil => rfl
  | cons e t ih =>
    obtain ⟨k', v⟩ := e
    simp only [tdel, List.filter_cons] at ih ⊢
    by_cases hk : k' = k
    · subst hk; simp [tget, ih, Ne.symm h]
    · simp [hk, tget, ih]

theorem tget_tdel_same (d : Nat → α) (t : Tbl α) (k : Nat) : tget d (tdel t k) k = d k := by
  induction t with
  | nil => rfl
  | cons e t ih =>
    obtain ⟨k', v⟩ := e
    simp only [tdel, List.filter_cons] at ih ⊢
    by_cases hk : k' = k
    · subst hk; simpa using ih
    · simp [hk, tget, ih]

theorem tget_tins_ne (d : Nat → α) (t : Tbl α) (k j : Nat) (v : α) (h : j ≠ k) :
    tget d (tins t k v) j = tget d t j := by
  induction t with
  | nil => simp [tins, tget, Ne.symm h]
  | cons e t ih =>
    obtain ⟨k', v'⟩ := e
    simp only [tins]
    split
    · simp [tget, Ne.symm h]
    · simp [tget, ih]

theorem tget_tins_tdel (d : Nat → α) (t : Tbl α) (k : Nat) (v : α) : tget d (tins (tdel t k) k v) k = v := by
  induction t with
  | nil => simp [tdel, tins, tget]
  | cons e t ih =>
    obtain ⟨k', v'⟩ := e
    simp only [tdel, List.filter_cons] at ih ⊢
    by_cases hk : k' = k
    · subst hk; simpa using ih
    · simp only [hk, bne_iff_ne, ne_eq, not_false_iff, if_true, tins]
      split
      · simp [tget]
      · simp [tget, hk, ih]

/-- What a read gives after an update, of any table. -/
theorem tget_tput [DecidableEq α] (d : Nat → α) (t : Tbl α) (k j : Nat) (v : α) :
    tget d (tput d t k v) j = if j = k then v else tget d t j := by
  unfold tput
  by_cases hj : j = k
  · subst hj
    split
    · next h => simp [tget_tdel_same, h]
    · simp [tget_tins_tdel]
  · split
    · simp [tget_tdel_ne _ _ _ _ hj]
    · simp [tget_tins_ne _ _ _ _ _ hj, tget_tdel_ne _ _ _ _ hj]

@[simp] theorem tget_tput_same [DecidableEq α] (d : Nat → α) (t : Tbl α) (k : Nat) (v : α) :
    tget d (tput d t k v) k = v := by simp [tget_tput]

theorem tget_tput_ne [DecidableEq α] (d : Nat → α) (t : Tbl α) (k j : Nat) (v : α) (h : j ≠ k) :
    tget d (tput d t k v) j = tget d t j := by simp [tget_tput, h]

theorem wf_weaken [DecidableEq α] (d : Nat → α) (lo lo' : Nat) (t : Tbl α) (hl : lo' ≤ lo) (h : Tbl.wf d lo t = true) :
    Tbl.wf d lo' t = true := by
  cases t with
  | nil => rfl
  | cons e t =>
    obtain ⟨k, v⟩ := e
    simp only [Tbl.wf, Bool.and_eq_true, decide_eq_true_eq] at h ⊢
    exact ⟨⟨by omega, h.1.2⟩, h.2⟩

/-- A filtered table is canonical. -/
theorem wf_filter [DecidableEq α] (d : Nat → α) (p : Nat × α → Bool) (t : Tbl α) :
    ∀ lo, Tbl.wf d lo t = true → Tbl.wf d lo (t.filter p) = true := by
  induction t with
  | nil => intro lo _; rfl
  | cons e t ih =>
    obtain ⟨k, v⟩ := e
    intro lo h
    simp only [Tbl.wf, Bool.and_eq_true, decide_eq_true_eq] at h
    simp only [List.filter_cons]
    split
    · simp only [Tbl.wf, Bool.and_eq_true, decide_eq_true_eq]
      exact ⟨h.1, ih _ h.2⟩
    · exact wf_weaken d _ _ _ (by omega) (ih _ h.2)

theorem wf_tins [DecidableEq α] (d : Nat → α) (k : Nat) (v : α) (hv : v ≠ d k) (t : Tbl α)
    (hk : ∀ e ∈ t, e.1 ≠ k) : ∀ lo, lo ≤ k → Tbl.wf d lo t = true → Tbl.wf d lo (tins t k v) = true := by
  induction t with
  | nil => intro lo hl _; simp [tins, Tbl.wf, hl, hv]
  | cons e t ih =>
    obtain ⟨k', v'⟩ := e
    intro lo hl h
    have hne : k' ≠ k := hk (k', v') (by simp)
    simp only [Tbl.wf, Bool.and_eq_true, decide_eq_true_eq] at h
    simp only [tins]
    split
    · next hlt =>
      simp only [Tbl.wf, Bool.and_eq_true, decide_eq_true_eq]
      exact ⟨⟨hl, hv⟩, ⟨⟨by omega, h.1.2⟩, h.2⟩⟩
    · next hlt =>
      simp only [Tbl.wf, Bool.and_eq_true, decide_eq_true_eq]
      exact ⟨h.1, ih (fun e he => hk e (by simp [he])) _ (by omega) h.2⟩

/-- An update of a canonical table is canonical. -/
theorem wf_tput [DecidableEq α] (d : Nat → α) (t : Tbl α) (k : Nat) (v : α) (h : Tbl.wf d 0 t = true) :
    Tbl.wf d 0 (tput d t k v) = true := by
  have hd : Tbl.wf d 0 (tdel t k) = true := wf_filter d _ t 0 h
  unfold tput
  split
  · exact hd
  · next hv =>
    refine wf_tins d k v hv _ ?_ 0 (Nat.zero_le _) hd
    intro e he
    simp only [tdel, List.mem_filter, bne_iff_ne] at he
    exact he.2

end Sys2Proof.Laws
end

