-- ==== Sys2Proof/Laws/State.lean ====
section
/-! SUPPORT. Each named update of the state: every field it leaves, and what a read gives after it. -/

namespace Sys2Proof.Laws

open Sys2Proof.Machine

@[simp] theorem setCore_pending (s : State) (n : Nat) (x : CoreS) : (s.setCore n x).pending = s.pending := rfl
@[simp] theorem setCore_now (s : State) (n : Nat) (x : CoreS) : (s.setCore n x).now = s.now := rfl
@[simp] theorem setCore_free (s : State) (n : Nat) (x : CoreS) : (s.setCore n x).free = s.free := rfl
@[simp] theorem setCore_regs (s : State) (n : Nat) (x : CoreS) : (s.setCore n x).regs = s.regs := rfl
@[simp] theorem setCore_crPend (s : State) (n : Nat) (x : CoreS) : (s.setCore n x).crPend = s.crPend := rfl
@[simp] theorem setCore_mem (s : State) (n : Nat) (x : CoreS) : (s.setCore n x).mem = s.mem := rfl
@[simp] theorem setCore_chk (s : State) (n : Nat) (x : CoreS) : (s.setCore n x).chk = s.chk := rfl
@[simp] theorem setCore_vld (s : State) (n : Nat) (x : CoreS) : (s.setCore n x).vld = s.vld := rfl
@[simp] theorem setCore_trios (s : State) (n : Nat) (x : CoreS) : (s.setCore n x).trios = s.trios := rfl
@[simp] theorem setCore_lanes (s : State) (n : Nat) (x : CoreS) : (s.setCore n x).lanes = s.lanes := rfl
@[simp] theorem setCore_commits (s : State) (n : Nat) (x : CoreS) : (s.setCore n x).commits = s.commits := rfl
@[simp] theorem setCore_tb (s : State) (n : Nat) (x : CoreS) : (s.setCore n x).tb = s.tb := rfl
@[simp] theorem setCore_timers (s : State) (n : Nat) (x : CoreS) : (s.setCore n x).timers = s.timers := rfl
@[simp] theorem setCore_chans (s : State) (n : Nat) (x : CoreS) : (s.setCore n x).chans = s.chans := rfl
@[simp] theorem setCore_sds (s : State) (n : Nat) (x : CoreS) : (s.setCore n x).sds = s.sds := rfl
@[simp] theorem setCore_sdgs (s : State) (n : Nat) (x : CoreS) : (s.setCore n x).sdgs = s.sdgs := rfl
@[simp] theorem setCore_ads (s : State) (n : Nat) (x : CoreS) : (s.setCore n x).ads = s.ads := rfl
@[simp] theorem setCore_gcs (s : State) (n : Nat) (x : CoreS) : (s.setCore n x).gcs = s.gcs := rfl
@[simp] theorem setCore_srcs (s : State) (n : Nat) (x : CoreS) : (s.setCore n x).srcs = s.srcs := rfl
@[simp] theorem setCore_encs (s : State) (n : Nat) (x : CoreS) : (s.setCore n x).encs = s.encs := rfl
@[simp] theorem setCore_slots (s : State) (n : Nat) (x : CoreS) : (s.setCore n x).slots = s.slots := rfl
@[simp] theorem setCore_rows (s : State) (n : Nat) (x : CoreS) : (s.setCore n x).rows = s.rows := rfl
@[simp] theorem setCore_eacts (s : State) (n : Nat) (x : CoreS) : (s.setCore n x).eacts = s.eacts := rfl
@[simp] theorem setCore_irq (s : State) (n : Nat) (x : CoreS) : (s.setCore n x).irq = s.irq := rfl
@[simp] theorem setCore_irqKeep (s : State) (n : Nat) (x : CoreS) : (s.setCore n x).irqKeep = s.irqKeep := rfl
@[simp] theorem setCore_mems (s : State) (n : Nat) (x : CoreS) : (s.setCore n x).mems = s.mems := rfl
@[simp] theorem setCore_cask (s : State) (n : Nat) (x : CoreS) : (s.setCore n x).cask = s.cask := rfl
@[simp] theorem setCore_book (s : State) (n : Nat) (x : CoreS) : (s.setCore n x).book = s.book := rfl
@[simp] theorem setCore_fm (s : State) (n : Nat) (x : CoreS) : (s.setCore n x).fm = s.fm := rfl
@[simp] theorem setCore_str (s : State) (n : Nat) (x : CoreS) : (s.setCore n x).str = s.str := rfl
@[simp] theorem setCore_sec (s : State) (n : Nat) (x : CoreS) : (s.setCore n x).sec = s.sec := rfl
@[simp] theorem setCore_pmu (s : State) (n : Nat) (x : CoreS) : (s.setCore n x).pmu = s.pmu := rfl
@[simp] theorem setCore_tap (s : State) (n : Nat) (x : CoreS) : (s.setCore n x).tap = s.tap := rfl
@[simp] theorem setCore_resp (s : State) (n : Nat) (x : CoreS) : (s.setCore n x).resp = s.resp := rfl
theorem core_setCore (s : State) (n j : Nat) (x : CoreS) :
    (s.setCore n x).core j = if j = n then x else s.core j := tget_tput _ _ _ _ _
@[simp] theorem core_setCore_same (s : State) (n : Nat) (x : CoreS) : (s.setCore n x).core n = x := tget_tput_same _ _ _ _
@[simp] theorem trio_setCore (s : State) (n : Nat) (x : CoreS) (j : Nat) : (s.setCore n x).trio j = s.trio j := rfl
@[simp] theorem lane_setCore (s : State) (n : Nat) (x : CoreS) (j : Nat) : (s.setCore n x).lane j = s.lane j := rfl
@[simp] theorem timer_setCore (s : State) (n : Nat) (x : CoreS) (j : Nat) : (s.setCore n x).timer j = s.timer j := rfl
@[simp] theorem sd_setCore (s : State) (n : Nat) (x : CoreS) (j : Nat) : (s.setCore n x).sd j = s.sd j := rfl
@[simp] theorem sdg_setCore (s : State) (n : Nat) (x : CoreS) (j : Nat) : (s.setCore n x).sdg j = s.sdg j := rfl
@[simp] theorem ad_setCore (s : State) (n : Nat) (x : CoreS) (j : Nat) : (s.setCore n x).ad j = s.ad j := rfl
@[simp] theorem gc_setCore (s : State) (n : Nat) (x : CoreS) (j : Nat) : (s.setCore n x).gc j = s.gc j := rfl
@[simp] theorem src_setCore (s : State) (n : Nat) (x : CoreS) (j : Nat) : (s.setCore n x).src j = s.src j := rfl
@[simp] theorem enc_setCore (s : State) (n : Nat) (x : CoreS) (j : Nat) : (s.setCore n x).enc j = s.enc j := rfl
@[simp] theorem row_setCore (s : State) (n : Nat) (x : CoreS) (j : Nat) : (s.setCore n x).row j = s.row j := rfl
@[simp] theorem eact_setCore (s : State) (n : Nat) (x : CoreS) (j : Nat) : (s.setCore n x).eact j = s.eact j := rfl
@[simp] theorem memS_setCore (s : State) (n : Nat) (x : CoreS) (j : Nat) : (s.setCore n x).memS j = s.memS j := rfl
@[simp] theorem chan_setCore (s : State) (n : Nat) (x : CoreS) (i j : Nat) : (s.setCore n x).chan i j = s.chan i j := rfl
@[simp] theorem slot_setCore (s : State) (n : Nat) (x : CoreS) (i j : Nat) : (s.setCore n x).slot i j = s.slot i j := rfl
@[simp] theorem rd_setCore (s : State) (n : Nat) (x : CoreS) (r : Reg) (i j : Nat) : (s.setCore n x).rd r i j = s.rd r i j := rfl

@[simp] theorem setTrio_pending (s : State) (n : Nat) (x : TrioS) : (s.setTrio n x).pending = s.pending := rfl
@[simp] theorem setTrio_now (s : State) (n : Nat) (x : TrioS) : (s.setTrio n x).now = s.now := rfl
@[simp] theorem setTrio_free (s : State) (n : Nat) (x : TrioS) : (s.setTrio n x).free = s.free := rfl
@[simp] theorem setTrio_regs (s : State) (n : Nat) (x : TrioS) : (s.setTrio n x).regs = s.regs := rfl
@[simp] theorem setTrio_crPend (s : State) (n : Nat) (x : TrioS) : (s.setTrio n x).crPend = s.crPend := rfl
@[simp] theorem setTrio_mem (s : State) (n : Nat) (x : TrioS) : (s.setTrio n x).mem = s.mem := rfl
@[simp] theorem setTrio_chk (s : State) (n : Nat) (x : TrioS) : (s.setTrio n x).chk = s.chk := rfl
@[simp] theorem setTrio_vld (s : State) (n : Nat) (x : TrioS) : (s.setTrio n x).vld = s.vld := rfl
@[simp] theorem setTrio_cores (s : State) (n : Nat) (x : TrioS) : (s.setTrio n x).cores = s.cores := rfl
@[simp] theorem setTrio_lanes (s : State) (n : Nat) (x : TrioS) : (s.setTrio n x).lanes = s.lanes := rfl
@[simp] theorem setTrio_commits (s : State) (n : Nat) (x : TrioS) : (s.setTrio n x).commits = s.commits := rfl
@[simp] theorem setTrio_tb (s : State) (n : Nat) (x : TrioS) : (s.setTrio n x).tb = s.tb := rfl
@[simp] theorem setTrio_timers (s : State) (n : Nat) (x : TrioS) : (s.setTrio n x).timers = s.timers := rfl
@[simp] theorem setTrio_chans (s : State) (n : Nat) (x : TrioS) : (s.setTrio n x).chans = s.chans := rfl
@[simp] theorem setTrio_sds (s : State) (n : Nat) (x : TrioS) : (s.setTrio n x).sds = s.sds := rfl
@[simp] theorem setTrio_sdgs (s : State) (n : Nat) (x : TrioS) : (s.setTrio n x).sdgs = s.sdgs := rfl
@[simp] theorem setTrio_ads (s : State) (n : Nat) (x : TrioS) : (s.setTrio n x).ads = s.ads := rfl
@[simp] theorem setTrio_gcs (s : State) (n : Nat) (x : TrioS) : (s.setTrio n x).gcs = s.gcs := rfl
@[simp] theorem setTrio_srcs (s : State) (n : Nat) (x : TrioS) : (s.setTrio n x).srcs = s.srcs := rfl
@[simp] theorem setTrio_encs (s : State) (n : Nat) (x : TrioS) : (s.setTrio n x).encs = s.encs := rfl
@[simp] theorem setTrio_slots (s : State) (n : Nat) (x : TrioS) : (s.setTrio n x).slots = s.slots := rfl
@[simp] theorem setTrio_rows (s : State) (n : Nat) (x : TrioS) : (s.setTrio n x).rows = s.rows := rfl
@[simp] theorem setTrio_eacts (s : State) (n : Nat) (x : TrioS) : (s.setTrio n x).eacts = s.eacts := rfl
@[simp] theorem setTrio_irq (s : State) (n : Nat) (x : TrioS) : (s.setTrio n x).irq = s.irq := rfl
@[simp] theorem setTrio_irqKeep (s : State) (n : Nat) (x : TrioS) : (s.setTrio n x).irqKeep = s.irqKeep := rfl
@[simp] theorem setTrio_mems (s : State) (n : Nat) (x : TrioS) : (s.setTrio n x).mems = s.mems := rfl
@[simp] theorem setTrio_cask (s : State) (n : Nat) (x : TrioS) : (s.setTrio n x).cask = s.cask := rfl
@[simp] theorem setTrio_book (s : State) (n : Nat) (x : TrioS) : (s.setTrio n x).book = s.book := rfl
@[simp] theorem setTrio_fm (s : State) (n : Nat) (x : TrioS) : (s.setTrio n x).fm = s.fm := rfl
@[simp] theorem setTrio_str (s : State) (n : Nat) (x : TrioS) : (s.setTrio n x).str = s.str := rfl
@[simp] theorem setTrio_sec (s : State) (n : Nat) (x : TrioS) : (s.setTrio n x).sec = s.sec := rfl
@[simp] theorem setTrio_pmu (s : State) (n : Nat) (x : TrioS) : (s.setTrio n x).pmu = s.pmu := rfl
@[simp] theorem setTrio_tap (s : State) (n : Nat) (x : TrioS) : (s.setTrio n x).tap = s.tap := rfl
@[simp] theorem setTrio_resp (s : State) (n : Nat) (x : TrioS) : (s.setTrio n x).resp = s.resp := rfl
theorem trio_setTrio (s : State) (n j : Nat) (x : TrioS) :
    (s.setTrio n x).trio j = if j = n then x else s.trio j := tget_tput _ _ _ _ _
@[simp] theorem trio_setTrio_same (s : State) (n : Nat) (x : TrioS) : (s.setTrio n x).trio n = x := tget_tput_same _ _ _ _
@[simp] theorem core_setTrio (s : State) (n : Nat) (x : TrioS) (j : Nat) : (s.setTrio n x).core j = s.core j := rfl
@[simp] theorem lane_setTrio (s : State) (n : Nat) (x : TrioS) (j : Nat) : (s.setTrio n x).lane j = s.lane j := rfl
@[simp] theorem timer_setTrio (s : State) (n : Nat) (x : TrioS) (j : Nat) : (s.setTrio n x).timer j = s.timer j := rfl
@[simp] theorem sd_setTrio (s : State) (n : Nat) (x : TrioS) (j : Nat) : (s.setTrio n x).sd j = s.sd j := rfl
@[simp] theorem sdg_setTrio (s : State) (n : Nat) (x : TrioS) (j : Nat) : (s.setTrio n x).sdg j = s.sdg j := rfl
@[simp] theorem ad_setTrio (s : State) (n : Nat) (x : TrioS) (j : Nat) : (s.setTrio n x).ad j = s.ad j := rfl
@[simp] theorem gc_setTrio (s : State) (n : Nat) (x : TrioS) (j : Nat) : (s.setTrio n x).gc j = s.gc j := rfl
@[simp] theorem src_setTrio (s : State) (n : Nat) (x : TrioS) (j : Nat) : (s.setTrio n x).src j = s.src j := rfl
@[simp] theorem enc_setTrio (s : State) (n : Nat) (x : TrioS) (j : Nat) : (s.setTrio n x).enc j = s.enc j := rfl
@[simp] theorem row_setTrio (s : State) (n : Nat) (x : TrioS) (j : Nat) : (s.setTrio n x).row j = s.row j := rfl
@[simp] theorem eact_setTrio (s : State) (n : Nat) (x : TrioS) (j : Nat) : (s.setTrio n x).eact j = s.eact j := rfl
@[simp] theorem memS_setTrio (s : State) (n : Nat) (x : TrioS) (j : Nat) : (s.setTrio n x).memS j = s.memS j := rfl
@[simp] theorem chan_setTrio (s : State) (n : Nat) (x : TrioS) (i j : Nat) : (s.setTrio n x).chan i j = s.chan i j := rfl
@[simp] theorem slot_setTrio (s : State) (n : Nat) (x : TrioS) (i j : Nat) : (s.setTrio n x).slot i j = s.slot i j := rfl
@[simp] theorem rd_setTrio (s : State) (n : Nat) (x : TrioS) (r : Reg) (i j : Nat) : (s.setTrio n x).rd r i j = s.rd r i j := rfl

@[simp] theorem setLane_pending (s : State) (n : Nat) (x : LaneS) : (s.setLane n x).pending = s.pending := rfl
@[simp] theorem setLane_now (s : State) (n : Nat) (x : LaneS) : (s.setLane n x).now = s.now := rfl
@[simp] theorem setLane_free (s : State) (n : Nat) (x : LaneS) : (s.setLane n x).free = s.free := rfl
@[simp] theorem setLane_regs (s : State) (n : Nat) (x : LaneS) : (s.setLane n x).regs = s.regs := rfl
@[simp] theorem setLane_crPend (s : State) (n : Nat) (x : LaneS) : (s.setLane n x).crPend = s.crPend := rfl
@[simp] theorem setLane_mem (s : State) (n : Nat) (x : LaneS) : (s.setLane n x).mem = s.mem := rfl
@[simp] theorem setLane_chk (s : State) (n : Nat) (x : LaneS) : (s.setLane n x).chk = s.chk := rfl
@[simp] theorem setLane_vld (s : State) (n : Nat) (x : LaneS) : (s.setLane n x).vld = s.vld := rfl
@[simp] theorem setLane_cores (s : State) (n : Nat) (x : LaneS) : (s.setLane n x).cores = s.cores := rfl
@[simp] theorem setLane_trios (s : State) (n : Nat) (x : LaneS) : (s.setLane n x).trios = s.trios := rfl
@[simp] theorem setLane_commits (s : State) (n : Nat) (x : LaneS) : (s.setLane n x).commits = s.commits := rfl
@[simp] theorem setLane_tb (s : State) (n : Nat) (x : LaneS) : (s.setLane n x).tb = s.tb := rfl
@[simp] theorem setLane_timers (s : State) (n : Nat) (x : LaneS) : (s.setLane n x).timers = s.timers := rfl
@[simp] theorem setLane_chans (s : State) (n : Nat) (x : LaneS) : (s.setLane n x).chans = s.chans := rfl
@[simp] theorem setLane_sds (s : State) (n : Nat) (x : LaneS) : (s.setLane n x).sds = s.sds := rfl
@[simp] theorem setLane_sdgs (s : State) (n : Nat) (x : LaneS) : (s.setLane n x).sdgs = s.sdgs := rfl
@[simp] theorem setLane_ads (s : State) (n : Nat) (x : LaneS) : (s.setLane n x).ads = s.ads := rfl
@[simp] theorem setLane_gcs (s : State) (n : Nat) (x : LaneS) : (s.setLane n x).gcs = s.gcs := rfl
@[simp] theorem setLane_srcs (s : State) (n : Nat) (x : LaneS) : (s.setLane n x).srcs = s.srcs := rfl
@[simp] theorem setLane_encs (s : State) (n : Nat) (x : LaneS) : (s.setLane n x).encs = s.encs := rfl
@[simp] theorem setLane_slots (s : State) (n : Nat) (x : LaneS) : (s.setLane n x).slots = s.slots := rfl
@[simp] theorem setLane_rows (s : State) (n : Nat) (x : LaneS) : (s.setLane n x).rows = s.rows := rfl
@[simp] theorem setLane_eacts (s : State) (n : Nat) (x : LaneS) : (s.setLane n x).eacts = s.eacts := rfl
@[simp] theorem setLane_irq (s : State) (n : Nat) (x : LaneS) : (s.setLane n x).irq = s.irq := rfl
@[simp] theorem setLane_irqKeep (s : State) (n : Nat) (x : LaneS) : (s.setLane n x).irqKeep = s.irqKeep := rfl
@[simp] theorem setLane_mems (s : State) (n : Nat) (x : LaneS) : (s.setLane n x).mems = s.mems := rfl
@[simp] theorem setLane_cask (s : State) (n : Nat) (x : LaneS) : (s.setLane n x).cask = s.cask := rfl
@[simp] theorem setLane_book (s : State) (n : Nat) (x : LaneS) : (s.setLane n x).book = s.book := rfl
@[simp] theorem setLane_fm (s : State) (n : Nat) (x : LaneS) : (s.setLane n x).fm = s.fm := rfl
@[simp] theorem setLane_str (s : State) (n : Nat) (x : LaneS) : (s.setLane n x).str = s.str := rfl
@[simp] theorem setLane_sec (s : State) (n : Nat) (x : LaneS) : (s.setLane n x).sec = s.sec := rfl
@[simp] theorem setLane_pmu (s : State) (n : Nat) (x : LaneS) : (s.setLane n x).pmu = s.pmu := rfl
@[simp] theorem setLane_tap (s : State) (n : Nat) (x : LaneS) : (s.setLane n x).tap = s.tap := rfl
@[simp] theorem setLane_resp (s : State) (n : Nat) (x : LaneS) : (s.setLane n x).resp = s.resp := rfl
theorem lane_setLane (s : State) (n j : Nat) (x : LaneS) :
    (s.setLane n x).lane j = if j = n then x else s.lane j := tget_tput _ _ _ _ _
@[simp] theorem lane_setLane_same (s : State) (n : Nat) (x : LaneS) : (s.setLane n x).lane n = x := tget_tput_same _ _ _ _
@[simp] theorem core_setLane (s : State) (n : Nat) (x : LaneS) (j : Nat) : (s.setLane n x).core j = s.core j := rfl
@[simp] theorem trio_setLane (s : State) (n : Nat) (x : LaneS) (j : Nat) : (s.setLane n x).trio j = s.trio j := rfl
@[simp] theorem timer_setLane (s : State) (n : Nat) (x : LaneS) (j : Nat) : (s.setLane n x).timer j = s.timer j := rfl
@[simp] theorem sd_setLane (s : State) (n : Nat) (x : LaneS) (j : Nat) : (s.setLane n x).sd j = s.sd j := rfl
@[simp] theorem sdg_setLane (s : State) (n : Nat) (x : LaneS) (j : Nat) : (s.setLane n x).sdg j = s.sdg j := rfl
@[simp] theorem ad_setLane (s : State) (n : Nat) (x : LaneS) (j : Nat) : (s.setLane n x).ad j = s.ad j := rfl
@[simp] theorem gc_setLane (s : State) (n : Nat) (x : LaneS) (j : Nat) : (s.setLane n x).gc j = s.gc j := rfl
@[simp] theorem src_setLane (s : State) (n : Nat) (x : LaneS) (j : Nat) : (s.setLane n x).src j = s.src j := rfl
@[simp] theorem enc_setLane (s : State) (n : Nat) (x : LaneS) (j : Nat) : (s.setLane n x).enc j = s.enc j := rfl
@[simp] theorem row_setLane (s : State) (n : Nat) (x : LaneS) (j : Nat) : (s.setLane n x).row j = s.row j := rfl
@[simp] theorem eact_setLane (s : State) (n : Nat) (x : LaneS) (j : Nat) : (s.setLane n x).eact j = s.eact j := rfl
@[simp] theorem memS_setLane (s : State) (n : Nat) (x : LaneS) (j : Nat) : (s.setLane n x).memS j = s.memS j := rfl
@[simp] theorem chan_setLane (s : State) (n : Nat) (x : LaneS) (i j : Nat) : (s.setLane n x).chan i j = s.chan i j := rfl
@[simp] theorem slot_setLane (s : State) (n : Nat) (x : LaneS) (i j : Nat) : (s.setLane n x).slot i j = s.slot i j := rfl
@[simp] theorem rd_setLane (s : State) (n : Nat) (x : LaneS) (r : Reg) (i j : Nat) : (s.setLane n x).rd r i j = s.rd r i j := rfl

@[simp] theorem setTimer_pending (s : State) (n : Nat) (x : TimerS) : (s.setTimer n x).pending = s.pending := rfl
@[simp] theorem setTimer_now (s : State) (n : Nat) (x : TimerS) : (s.setTimer n x).now = s.now := rfl
@[simp] theorem setTimer_free (s : State) (n : Nat) (x : TimerS) : (s.setTimer n x).free = s.free := rfl
@[simp] theorem setTimer_regs (s : State) (n : Nat) (x : TimerS) : (s.setTimer n x).regs = s.regs := rfl
@[simp] theorem setTimer_crPend (s : State) (n : Nat) (x : TimerS) : (s.setTimer n x).crPend = s.crPend := rfl
@[simp] theorem setTimer_mem (s : State) (n : Nat) (x : TimerS) : (s.setTimer n x).mem = s.mem := rfl
@[simp] theorem setTimer_chk (s : State) (n : Nat) (x : TimerS) : (s.setTimer n x).chk = s.chk := rfl
@[simp] theorem setTimer_vld (s : State) (n : Nat) (x : TimerS) : (s.setTimer n x).vld = s.vld := rfl
@[simp] theorem setTimer_cores (s : State) (n : Nat) (x : TimerS) : (s.setTimer n x).cores = s.cores := rfl
@[simp] theorem setTimer_trios (s : State) (n : Nat) (x : TimerS) : (s.setTimer n x).trios = s.trios := rfl
@[simp] theorem setTimer_lanes (s : State) (n : Nat) (x : TimerS) : (s.setTimer n x).lanes = s.lanes := rfl
@[simp] theorem setTimer_commits (s : State) (n : Nat) (x : TimerS) : (s.setTimer n x).commits = s.commits := rfl
@[simp] theorem setTimer_tb (s : State) (n : Nat) (x : TimerS) : (s.setTimer n x).tb = s.tb := rfl
@[simp] theorem setTimer_chans (s : State) (n : Nat) (x : TimerS) : (s.setTimer n x).chans = s.chans := rfl
@[simp] theorem setTimer_sds (s : State) (n : Nat) (x : TimerS) : (s.setTimer n x).sds = s.sds := rfl
@[simp] theorem setTimer_sdgs (s : State) (n : Nat) (x : TimerS) : (s.setTimer n x).sdgs = s.sdgs := rfl
@[simp] theorem setTimer_ads (s : State) (n : Nat) (x : TimerS) : (s.setTimer n x).ads = s.ads := rfl
@[simp] theorem setTimer_gcs (s : State) (n : Nat) (x : TimerS) : (s.setTimer n x).gcs = s.gcs := rfl
@[simp] theorem setTimer_srcs (s : State) (n : Nat) (x : TimerS) : (s.setTimer n x).srcs = s.srcs := rfl
@[simp] theorem setTimer_encs (s : State) (n : Nat) (x : TimerS) : (s.setTimer n x).encs = s.encs := rfl
@[simp] theorem setTimer_slots (s : State) (n : Nat) (x : TimerS) : (s.setTimer n x).slots = s.slots := rfl
@[simp] theorem setTimer_rows (s : State) (n : Nat) (x : TimerS) : (s.setTimer n x).rows = s.rows := rfl
@[simp] theorem setTimer_eacts (s : State) (n : Nat) (x : TimerS) : (s.setTimer n x).eacts = s.eacts := rfl
@[simp] theorem setTimer_irq (s : State) (n : Nat) (x : TimerS) : (s.setTimer n x).irq = s.irq := rfl
@[simp] theorem setTimer_irqKeep (s : State) (n : Nat) (x : TimerS) : (s.setTimer n x).irqKeep = s.irqKeep := rfl
@[simp] theorem setTimer_mems (s : State) (n : Nat) (x : TimerS) : (s.setTimer n x).mems = s.mems := rfl
@[simp] theorem setTimer_cask (s : State) (n : Nat) (x : TimerS) : (s.setTimer n x).cask = s.cask := rfl
@[simp] theorem setTimer_book (s : State) (n : Nat) (x : TimerS) : (s.setTimer n x).book = s.book := rfl
@[simp] theorem setTimer_fm (s : State) (n : Nat) (x : TimerS) : (s.setTimer n x).fm = s.fm := rfl
@[simp] theorem setTimer_str (s : State) (n : Nat) (x : TimerS) : (s.setTimer n x).str = s.str := rfl
@[simp] theorem setTimer_sec (s : State) (n : Nat) (x : TimerS) : (s.setTimer n x).sec = s.sec := rfl
@[simp] theorem setTimer_pmu (s : State) (n : Nat) (x : TimerS) : (s.setTimer n x).pmu = s.pmu := rfl
@[simp] theorem setTimer_tap (s : State) (n : Nat) (x : TimerS) : (s.setTimer n x).tap = s.tap := rfl
@[simp] theorem setTimer_resp (s : State) (n : Nat) (x : TimerS) : (s.setTimer n x).resp = s.resp := rfl
theorem timer_setTimer (s : State) (n j : Nat) (x : TimerS) :
    (s.setTimer n x).timer j = if j = n then x else s.timer j := tget_tput _ _ _ _ _
@[simp] theorem timer_setTimer_same (s : State) (n : Nat) (x : TimerS) : (s.setTimer n x).timer n = x := tget_tput_same _ _ _ _
@[simp] theorem core_setTimer (s : State) (n : Nat) (x : TimerS) (j : Nat) : (s.setTimer n x).core j = s.core j := rfl
@[simp] theorem trio_setTimer (s : State) (n : Nat) (x : TimerS) (j : Nat) : (s.setTimer n x).trio j = s.trio j := rfl
@[simp] theorem lane_setTimer (s : State) (n : Nat) (x : TimerS) (j : Nat) : (s.setTimer n x).lane j = s.lane j := rfl
@[simp] theorem sd_setTimer (s : State) (n : Nat) (x : TimerS) (j : Nat) : (s.setTimer n x).sd j = s.sd j := rfl
@[simp] theorem sdg_setTimer (s : State) (n : Nat) (x : TimerS) (j : Nat) : (s.setTimer n x).sdg j = s.sdg j := rfl
@[simp] theorem ad_setTimer (s : State) (n : Nat) (x : TimerS) (j : Nat) : (s.setTimer n x).ad j = s.ad j := rfl
@[simp] theorem gc_setTimer (s : State) (n : Nat) (x : TimerS) (j : Nat) : (s.setTimer n x).gc j = s.gc j := rfl
@[simp] theorem src_setTimer (s : State) (n : Nat) (x : TimerS) (j : Nat) : (s.setTimer n x).src j = s.src j := rfl
@[simp] theorem enc_setTimer (s : State) (n : Nat) (x : TimerS) (j : Nat) : (s.setTimer n x).enc j = s.enc j := rfl
@[simp] theorem row_setTimer (s : State) (n : Nat) (x : TimerS) (j : Nat) : (s.setTimer n x).row j = s.row j := rfl
@[simp] theorem eact_setTimer (s : State) (n : Nat) (x : TimerS) (j : Nat) : (s.setTimer n x).eact j = s.eact j := rfl
@[simp] theorem memS_setTimer (s : State) (n : Nat) (x : TimerS) (j : Nat) : (s.setTimer n x).memS j = s.memS j := rfl
@[simp] theorem chan_setTimer (s : State) (n : Nat) (x : TimerS) (i j : Nat) : (s.setTimer n x).chan i j = s.chan i j := rfl
@[simp] theorem slot_setTimer (s : State) (n : Nat) (x : TimerS) (i j : Nat) : (s.setTimer n x).slot i j = s.slot i j := rfl
@[simp] theorem rd_setTimer (s : State) (n : Nat) (x : TimerS) (r : Reg) (i j : Nat) : (s.setTimer n x).rd r i j = s.rd r i j := rfl

@[simp] theorem setSd_pending (s : State) (n : Nat) (x : SdS) : (s.setSd n x).pending = s.pending := rfl
@[simp] theorem setSd_now (s : State) (n : Nat) (x : SdS) : (s.setSd n x).now = s.now := rfl
@[simp] theorem setSd_free (s : State) (n : Nat) (x : SdS) : (s.setSd n x).free = s.free := rfl
@[simp] theorem setSd_regs (s : State) (n : Nat) (x : SdS) : (s.setSd n x).regs = s.regs := rfl
@[simp] theorem setSd_crPend (s : State) (n : Nat) (x : SdS) : (s.setSd n x).crPend = s.crPend := rfl
@[simp] theorem setSd_mem (s : State) (n : Nat) (x : SdS) : (s.setSd n x).mem = s.mem := rfl
@[simp] theorem setSd_chk (s : State) (n : Nat) (x : SdS) : (s.setSd n x).chk = s.chk := rfl
@[simp] theorem setSd_vld (s : State) (n : Nat) (x : SdS) : (s.setSd n x).vld = s.vld := rfl
@[simp] theorem setSd_cores (s : State) (n : Nat) (x : SdS) : (s.setSd n x).cores = s.cores := rfl
@[simp] theorem setSd_trios (s : State) (n : Nat) (x : SdS) : (s.setSd n x).trios = s.trios := rfl
@[simp] theorem setSd_lanes (s : State) (n : Nat) (x : SdS) : (s.setSd n x).lanes = s.lanes := rfl
@[simp] theorem setSd_commits (s : State) (n : Nat) (x : SdS) : (s.setSd n x).commits = s.commits := rfl
@[simp] theorem setSd_tb (s : State) (n : Nat) (x : SdS) : (s.setSd n x).tb = s.tb := rfl
@[simp] theorem setSd_timers (s : State) (n : Nat) (x : SdS) : (s.setSd n x).timers = s.timers := rfl
@[simp] theorem setSd_chans (s : State) (n : Nat) (x : SdS) : (s.setSd n x).chans = s.chans := rfl
@[simp] theorem setSd_sdgs (s : State) (n : Nat) (x : SdS) : (s.setSd n x).sdgs = s.sdgs := rfl
@[simp] theorem setSd_ads (s : State) (n : Nat) (x : SdS) : (s.setSd n x).ads = s.ads := rfl
@[simp] theorem setSd_gcs (s : State) (n : Nat) (x : SdS) : (s.setSd n x).gcs = s.gcs := rfl
@[simp] theorem setSd_srcs (s : State) (n : Nat) (x : SdS) : (s.setSd n x).srcs = s.srcs := rfl
@[simp] theorem setSd_encs (s : State) (n : Nat) (x : SdS) : (s.setSd n x).encs = s.encs := rfl
@[simp] theorem setSd_slots (s : State) (n : Nat) (x : SdS) : (s.setSd n x).slots = s.slots := rfl
@[simp] theorem setSd_rows (s : State) (n : Nat) (x : SdS) : (s.setSd n x).rows = s.rows := rfl
@[simp] theorem setSd_eacts (s : State) (n : Nat) (x : SdS) : (s.setSd n x).eacts = s.eacts := rfl
@[simp] theorem setSd_irq (s : State) (n : Nat) (x : SdS) : (s.setSd n x).irq = s.irq := rfl
@[simp] theorem setSd_irqKeep (s : State) (n : Nat) (x : SdS) : (s.setSd n x).irqKeep = s.irqKeep := rfl
@[simp] theorem setSd_mems (s : State) (n : Nat) (x : SdS) : (s.setSd n x).mems = s.mems := rfl
@[simp] theorem setSd_cask (s : State) (n : Nat) (x : SdS) : (s.setSd n x).cask = s.cask := rfl
@[simp] theorem setSd_book (s : State) (n : Nat) (x : SdS) : (s.setSd n x).book = s.book := rfl
@[simp] theorem setSd_fm (s : State) (n : Nat) (x : SdS) : (s.setSd n x).fm = s.fm := rfl
@[simp] theorem setSd_str (s : State) (n : Nat) (x : SdS) : (s.setSd n x).str = s.str := rfl
@[simp] theorem setSd_sec (s : State) (n : Nat) (x : SdS) : (s.setSd n x).sec = s.sec := rfl
@[simp] theorem setSd_pmu (s : State) (n : Nat) (x : SdS) : (s.setSd n x).pmu = s.pmu := rfl
@[simp] theorem setSd_tap (s : State) (n : Nat) (x : SdS) : (s.setSd n x).tap = s.tap := rfl
@[simp] theorem setSd_resp (s : State) (n : Nat) (x : SdS) : (s.setSd n x).resp = s.resp := rfl
theorem sd_setSd (s : State) (n j : Nat) (x : SdS) :
    (s.setSd n x).sd j = if j = n then x else s.sd j := tget_tput _ _ _ _ _
@[simp] theorem sd_setSd_same (s : State) (n : Nat) (x : SdS) : (s.setSd n x).sd n = x := tget_tput_same _ _ _ _
@[simp] theorem core_setSd (s : State) (n : Nat) (x : SdS) (j : Nat) : (s.setSd n x).core j = s.core j := rfl
@[simp] theorem trio_setSd (s : State) (n : Nat) (x : SdS) (j : Nat) : (s.setSd n x).trio j = s.trio j := rfl
@[simp] theorem lane_setSd (s : State) (n : Nat) (x : SdS) (j : Nat) : (s.setSd n x).lane j = s.lane j := rfl
@[simp] theorem timer_setSd (s : State) (n : Nat) (x : SdS) (j : Nat) : (s.setSd n x).timer j = s.timer j := rfl
@[simp] theorem sdg_setSd (s : State) (n : Nat) (x : SdS) (j : Nat) : (s.setSd n x).sdg j = s.sdg j := rfl
@[simp] theorem ad_setSd (s : State) (n : Nat) (x : SdS) (j : Nat) : (s.setSd n x).ad j = s.ad j := rfl
@[simp] theorem gc_setSd (s : State) (n : Nat) (x : SdS) (j : Nat) : (s.setSd n x).gc j = s.gc j := rfl
@[simp] theorem src_setSd (s : State) (n : Nat) (x : SdS) (j : Nat) : (s.setSd n x).src j = s.src j := rfl
@[simp] theorem enc_setSd (s : State) (n : Nat) (x : SdS) (j : Nat) : (s.setSd n x).enc j = s.enc j := rfl
@[simp] theorem row_setSd (s : State) (n : Nat) (x : SdS) (j : Nat) : (s.setSd n x).row j = s.row j := rfl
@[simp] theorem eact_setSd (s : State) (n : Nat) (x : SdS) (j : Nat) : (s.setSd n x).eact j = s.eact j := rfl
@[simp] theorem memS_setSd (s : State) (n : Nat) (x : SdS) (j : Nat) : (s.setSd n x).memS j = s.memS j := rfl
@[simp] theorem chan_setSd (s : State) (n : Nat) (x : SdS) (i j : Nat) : (s.setSd n x).chan i j = s.chan i j := rfl
@[simp] theorem slot_setSd (s : State) (n : Nat) (x : SdS) (i j : Nat) : (s.setSd n x).slot i j = s.slot i j := rfl
@[simp] theorem rd_setSd (s : State) (n : Nat) (x : SdS) (r : Reg) (i j : Nat) : (s.setSd n x).rd r i j = s.rd r i j := rfl

@[simp] theorem setSdg_pending (s : State) (n : Nat) (x : SdG) : (s.setSdg n x).pending = s.pending := rfl
@[simp] theorem setSdg_now (s : State) (n : Nat) (x : SdG) : (s.setSdg n x).now = s.now := rfl
@[simp] theorem setSdg_free (s : State) (n : Nat) (x : SdG) : (s.setSdg n x).free = s.free := rfl
@[simp] theorem setSdg_regs (s : State) (n : Nat) (x : SdG) : (s.setSdg n x).regs = s.regs := rfl
@[simp] theorem setSdg_crPend (s : State) (n : Nat) (x : SdG) : (s.setSdg n x).crPend = s.crPend := rfl
@[simp] theorem setSdg_mem (s : State) (n : Nat) (x : SdG) : (s.setSdg n x).mem = s.mem := rfl
@[simp] theorem setSdg_chk (s : State) (n : Nat) (x : SdG) : (s.setSdg n x).chk = s.chk := rfl
@[simp] theorem setSdg_vld (s : State) (n : Nat) (x : SdG) : (s.setSdg n x).vld = s.vld := rfl
@[simp] theorem setSdg_cores (s : State) (n : Nat) (x : SdG) : (s.setSdg n x).cores = s.cores := rfl
@[simp] theorem setSdg_trios (s : State) (n : Nat) (x : SdG) : (s.setSdg n x).trios = s.trios := rfl
@[simp] theorem setSdg_lanes (s : State) (n : Nat) (x : SdG) : (s.setSdg n x).lanes = s.lanes := rfl
@[simp] theorem setSdg_commits (s : State) (n : Nat) (x : SdG) : (s.setSdg n x).commits = s.commits := rfl
@[simp] theorem setSdg_tb (s : State) (n : Nat) (x : SdG) : (s.setSdg n x).tb = s.tb := rfl
@[simp] theorem setSdg_timers (s : State) (n : Nat) (x : SdG) : (s.setSdg n x).timers = s.timers := rfl
@[simp] theorem setSdg_chans (s : State) (n : Nat) (x : SdG) : (s.setSdg n x).chans = s.chans := rfl
@[simp] theorem setSdg_sds (s : State) (n : Nat) (x : SdG) : (s.setSdg n x).sds = s.sds := rfl
@[simp] theorem setSdg_ads (s : State) (n : Nat) (x : SdG) : (s.setSdg n x).ads = s.ads := rfl
@[simp] theorem setSdg_gcs (s : State) (n : Nat) (x : SdG) : (s.setSdg n x).gcs = s.gcs := rfl
@[simp] theorem setSdg_srcs (s : State) (n : Nat) (x : SdG) : (s.setSdg n x).srcs = s.srcs := rfl
@[simp] theorem setSdg_encs (s : State) (n : Nat) (x : SdG) : (s.setSdg n x).encs = s.encs := rfl
@[simp] theorem setSdg_slots (s : State) (n : Nat) (x : SdG) : (s.setSdg n x).slots = s.slots := rfl
@[simp] theorem setSdg_rows (s : State) (n : Nat) (x : SdG) : (s.setSdg n x).rows = s.rows := rfl
@[simp] theorem setSdg_eacts (s : State) (n : Nat) (x : SdG) : (s.setSdg n x).eacts = s.eacts := rfl
@[simp] theorem setSdg_irq (s : State) (n : Nat) (x : SdG) : (s.setSdg n x).irq = s.irq := rfl
@[simp] theorem setSdg_irqKeep (s : State) (n : Nat) (x : SdG) : (s.setSdg n x).irqKeep = s.irqKeep := rfl
@[simp] theorem setSdg_mems (s : State) (n : Nat) (x : SdG) : (s.setSdg n x).mems = s.mems := rfl
@[simp] theorem setSdg_cask (s : State) (n : Nat) (x : SdG) : (s.setSdg n x).cask = s.cask := rfl
@[simp] theorem setSdg_book (s : State) (n : Nat) (x : SdG) : (s.setSdg n x).book = s.book := rfl
@[simp] theorem setSdg_fm (s : State) (n : Nat) (x : SdG) : (s.setSdg n x).fm = s.fm := rfl
@[simp] theorem setSdg_str (s : State) (n : Nat) (x : SdG) : (s.setSdg n x).str = s.str := rfl
@[simp] theorem setSdg_sec (s : State) (n : Nat) (x : SdG) : (s.setSdg n x).sec = s.sec := rfl
@[simp] theorem setSdg_pmu (s : State) (n : Nat) (x : SdG) : (s.setSdg n x).pmu = s.pmu := rfl
@[simp] theorem setSdg_tap (s : State) (n : Nat) (x : SdG) : (s.setSdg n x).tap = s.tap := rfl
@[simp] theorem setSdg_resp (s : State) (n : Nat) (x : SdG) : (s.setSdg n x).resp = s.resp := rfl
theorem sdg_setSdg (s : State) (n j : Nat) (x : SdG) :
    (s.setSdg n x).sdg j = if j = n then x else s.sdg j := tget_tput _ _ _ _ _
@[simp] theorem sdg_setSdg_same (s : State) (n : Nat) (x : SdG) : (s.setSdg n x).sdg n = x := tget_tput_same _ _ _ _
@[simp] theorem core_setSdg (s : State) (n : Nat) (x : SdG) (j : Nat) : (s.setSdg n x).core j = s.core j := rfl
@[simp] theorem trio_setSdg (s : State) (n : Nat) (x : SdG) (j : Nat) : (s.setSdg n x).trio j = s.trio j := rfl
@[simp] theorem lane_setSdg (s : State) (n : Nat) (x : SdG) (j : Nat) : (s.setSdg n x).lane j = s.lane j := rfl
@[simp] theorem timer_setSdg (s : State) (n : Nat) (x : SdG) (j : Nat) : (s.setSdg n x).timer j = s.timer j := rfl
@[simp] theorem sd_setSdg (s : State) (n : Nat) (x : SdG) (j : Nat) : (s.setSdg n x).sd j = s.sd j := rfl
@[simp] theorem ad_setSdg (s : State) (n : Nat) (x : SdG) (j : Nat) : (s.setSdg n x).ad j = s.ad j := rfl
@[simp] theorem gc_setSdg (s : State) (n : Nat) (x : SdG) (j : Nat) : (s.setSdg n x).gc j = s.gc j := rfl
@[simp] theorem src_setSdg (s : State) (n : Nat) (x : SdG) (j : Nat) : (s.setSdg n x).src j = s.src j := rfl
@[simp] theorem enc_setSdg (s : State) (n : Nat) (x : SdG) (j : Nat) : (s.setSdg n x).enc j = s.enc j := rfl
@[simp] theorem row_setSdg (s : State) (n : Nat) (x : SdG) (j : Nat) : (s.setSdg n x).row j = s.row j := rfl
@[simp] theorem eact_setSdg (s : State) (n : Nat) (x : SdG) (j : Nat) : (s.setSdg n x).eact j = s.eact j := rfl
@[simp] theorem memS_setSdg (s : State) (n : Nat) (x : SdG) (j : Nat) : (s.setSdg n x).memS j = s.memS j := rfl
@[simp] theorem chan_setSdg (s : State) (n : Nat) (x : SdG) (i j : Nat) : (s.setSdg n x).chan i j = s.chan i j := rfl
@[simp] theorem slot_setSdg (s : State) (n : Nat) (x : SdG) (i j : Nat) : (s.setSdg n x).slot i j = s.slot i j := rfl
@[simp] theorem rd_setSdg (s : State) (n : Nat) (x : SdG) (r : Reg) (i j : Nat) : (s.setSdg n x).rd r i j = s.rd r i j := rfl

@[simp] theorem setAd_pending (s : State) (n : Nat) (x : AdS) : (s.setAd n x).pending = s.pending := rfl
@[simp] theorem setAd_now (s : State) (n : Nat) (x : AdS) : (s.setAd n x).now = s.now := rfl
@[simp] theorem setAd_free (s : State) (n : Nat) (x : AdS) : (s.setAd n x).free = s.free := rfl
@[simp] theorem setAd_regs (s : State) (n : Nat) (x : AdS) : (s.setAd n x).regs = s.regs := rfl
@[simp] theorem setAd_crPend (s : State) (n : Nat) (x : AdS) : (s.setAd n x).crPend = s.crPend := rfl
@[simp] theorem setAd_mem (s : State) (n : Nat) (x : AdS) : (s.setAd n x).mem = s.mem := rfl
@[simp] theorem setAd_chk (s : State) (n : Nat) (x : AdS) : (s.setAd n x).chk = s.chk := rfl
@[simp] theorem setAd_vld (s : State) (n : Nat) (x : AdS) : (s.setAd n x).vld = s.vld := rfl
@[simp] theorem setAd_cores (s : State) (n : Nat) (x : AdS) : (s.setAd n x).cores = s.cores := rfl
@[simp] theorem setAd_trios (s : State) (n : Nat) (x : AdS) : (s.setAd n x).trios = s.trios := rfl
@[simp] theorem setAd_lanes (s : State) (n : Nat) (x : AdS) : (s.setAd n x).lanes = s.lanes := rfl
@[simp] theorem setAd_commits (s : State) (n : Nat) (x : AdS) : (s.setAd n x).commits = s.commits := rfl
@[simp] theorem setAd_tb (s : State) (n : Nat) (x : AdS) : (s.setAd n x).tb = s.tb := rfl
@[simp] theorem setAd_timers (s : State) (n : Nat) (x : AdS) : (s.setAd n x).timers = s.timers := rfl
@[simp] theorem setAd_chans (s : State) (n : Nat) (x : AdS) : (s.setAd n x).chans = s.chans := rfl
@[simp] theorem setAd_sds (s : State) (n : Nat) (x : AdS) : (s.setAd n x).sds = s.sds := rfl
@[simp] theorem setAd_sdgs (s : State) (n : Nat) (x : AdS) : (s.setAd n x).sdgs = s.sdgs := rfl
@[simp] theorem setAd_gcs (s : State) (n : Nat) (x : AdS) : (s.setAd n x).gcs = s.gcs := rfl
@[simp] theorem setAd_srcs (s : State) (n : Nat) (x : AdS) : (s.setAd n x).srcs = s.srcs := rfl
@[simp] theorem setAd_encs (s : State) (n : Nat) (x : AdS) : (s.setAd n x).encs = s.encs := rfl
@[simp] theorem setAd_slots (s : State) (n : Nat) (x : AdS) : (s.setAd n x).slots = s.slots := rfl
@[simp] theorem setAd_rows (s : State) (n : Nat) (x : AdS) : (s.setAd n x).rows = s.rows := rfl
@[simp] theorem setAd_eacts (s : State) (n : Nat) (x : AdS) : (s.setAd n x).eacts = s.eacts := rfl
@[simp] theorem setAd_irq (s : State) (n : Nat) (x : AdS) : (s.setAd n x).irq = s.irq := rfl
@[simp] theorem setAd_irqKeep (s : State) (n : Nat) (x : AdS) : (s.setAd n x).irqKeep = s.irqKeep := rfl
@[simp] theorem setAd_mems (s : State) (n : Nat) (x : AdS) : (s.setAd n x).mems = s.mems := rfl
@[simp] theorem setAd_cask (s : State) (n : Nat) (x : AdS) : (s.setAd n x).cask = s.cask := rfl
@[simp] theorem setAd_book (s : State) (n : Nat) (x : AdS) : (s.setAd n x).book = s.book := rfl
@[simp] theorem setAd_fm (s : State) (n : Nat) (x : AdS) : (s.setAd n x).fm = s.fm := rfl
@[simp] theorem setAd_str (s : State) (n : Nat) (x : AdS) : (s.setAd n x).str = s.str := rfl
@[simp] theorem setAd_sec (s : State) (n : Nat) (x : AdS) : (s.setAd n x).sec = s.sec := rfl
@[simp] theorem setAd_pmu (s : State) (n : Nat) (x : AdS) : (s.setAd n x).pmu = s.pmu := rfl
@[simp] theorem setAd_tap (s : State) (n : Nat) (x : AdS) : (s.setAd n x).tap = s.tap := rfl
@[simp] theorem setAd_resp (s : State) (n : Nat) (x : AdS) : (s.setAd n x).resp = s.resp := rfl
theorem ad_setAd (s : State) (n j : Nat) (x : AdS) :
    (s.setAd n x).ad j = if j = n then x else s.ad j := tget_tput _ _ _ _ _
@[simp] theorem ad_setAd_same (s : State) (n : Nat) (x : AdS) : (s.setAd n x).ad n = x := tget_tput_same _ _ _ _
@[simp] theorem core_setAd (s : State) (n : Nat) (x : AdS) (j : Nat) : (s.setAd n x).core j = s.core j := rfl
@[simp] theorem trio_setAd (s : State) (n : Nat) (x : AdS) (j : Nat) : (s.setAd n x).trio j = s.trio j := rfl
@[simp] theorem lane_setAd (s : State) (n : Nat) (x : AdS) (j : Nat) : (s.setAd n x).lane j = s.lane j := rfl
@[simp] theorem timer_setAd (s : State) (n : Nat) (x : AdS) (j : Nat) : (s.setAd n x).timer j = s.timer j := rfl
@[simp] theorem sd_setAd (s : State) (n : Nat) (x : AdS) (j : Nat) : (s.setAd n x).sd j = s.sd j := rfl
@[simp] theorem sdg_setAd (s : State) (n : Nat) (x : AdS) (j : Nat) : (s.setAd n x).sdg j = s.sdg j := rfl
@[simp] theorem gc_setAd (s : State) (n : Nat) (x : AdS) (j : Nat) : (s.setAd n x).gc j = s.gc j := rfl
@[simp] theorem src_setAd (s : State) (n : Nat) (x : AdS) (j : Nat) : (s.setAd n x).src j = s.src j := rfl
@[simp] theorem enc_setAd (s : State) (n : Nat) (x : AdS) (j : Nat) : (s.setAd n x).enc j = s.enc j := rfl
@[simp] theorem row_setAd (s : State) (n : Nat) (x : AdS) (j : Nat) : (s.setAd n x).row j = s.row j := rfl
@[simp] theorem eact_setAd (s : State) (n : Nat) (x : AdS) (j : Nat) : (s.setAd n x).eact j = s.eact j := rfl
@[simp] theorem memS_setAd (s : State) (n : Nat) (x : AdS) (j : Nat) : (s.setAd n x).memS j = s.memS j := rfl
@[simp] theorem chan_setAd (s : State) (n : Nat) (x : AdS) (i j : Nat) : (s.setAd n x).chan i j = s.chan i j := rfl
@[simp] theorem slot_setAd (s : State) (n : Nat) (x : AdS) (i j : Nat) : (s.setAd n x).slot i j = s.slot i j := rfl
@[simp] theorem rd_setAd (s : State) (n : Nat) (x : AdS) (r : Reg) (i j : Nat) : (s.setAd n x).rd r i j = s.rd r i j := rfl

@[simp] theorem setGc_pending (s : State) (n : Nat) (x : GcS) : (s.setGc n x).pending = s.pending := rfl
@[simp] theorem setGc_now (s : State) (n : Nat) (x : GcS) : (s.setGc n x).now = s.now := rfl
@[simp] theorem setGc_free (s : State) (n : Nat) (x : GcS) : (s.setGc n x).free = s.free := rfl
@[simp] theorem setGc_regs (s : State) (n : Nat) (x : GcS) : (s.setGc n x).regs = s.regs := rfl
@[simp] theorem setGc_crPend (s : State) (n : Nat) (x : GcS) : (s.setGc n x).crPend = s.crPend := rfl
@[simp] theorem setGc_mem (s : State) (n : Nat) (x : GcS) : (s.setGc n x).mem = s.mem := rfl
@[simp] theorem setGc_chk (s : State) (n : Nat) (x : GcS) : (s.setGc n x).chk = s.chk := rfl
@[simp] theorem setGc_vld (s : State) (n : Nat) (x : GcS) : (s.setGc n x).vld = s.vld := rfl
@[simp] theorem setGc_cores (s : State) (n : Nat) (x : GcS) : (s.setGc n x).cores = s.cores := rfl
@[simp] theorem setGc_trios (s : State) (n : Nat) (x : GcS) : (s.setGc n x).trios = s.trios := rfl
@[simp] theorem setGc_lanes (s : State) (n : Nat) (x : GcS) : (s.setGc n x).lanes = s.lanes := rfl
@[simp] theorem setGc_commits (s : State) (n : Nat) (x : GcS) : (s.setGc n x).commits = s.commits := rfl
@[simp] theorem setGc_tb (s : State) (n : Nat) (x : GcS) : (s.setGc n x).tb = s.tb := rfl
@[simp] theorem setGc_timers (s : State) (n : Nat) (x : GcS) : (s.setGc n x).timers = s.timers := rfl
@[simp] theorem setGc_chans (s : State) (n : Nat) (x : GcS) : (s.setGc n x).chans = s.chans := rfl
@[simp] theorem setGc_sds (s : State) (n : Nat) (x : GcS) : (s.setGc n x).sds = s.sds := rfl
@[simp] theorem setGc_sdgs (s : State) (n : Nat) (x : GcS) : (s.setGc n x).sdgs = s.sdgs := rfl
@[simp] theorem setGc_ads (s : State) (n : Nat) (x : GcS) : (s.setGc n x).ads = s.ads := rfl
@[simp] theorem setGc_srcs (s : State) (n : Nat) (x : GcS) : (s.setGc n x).srcs = s.srcs := rfl
@[simp] theorem setGc_encs (s : State) (n : Nat) (x : GcS) : (s.setGc n x).encs = s.encs := rfl
@[simp] theorem setGc_slots (s : State) (n : Nat) (x : GcS) : (s.setGc n x).slots = s.slots := rfl
@[simp] theorem setGc_rows (s : State) (n : Nat) (x : GcS) : (s.setGc n x).rows = s.rows := rfl
@[simp] theorem setGc_eacts (s : State) (n : Nat) (x : GcS) : (s.setGc n x).eacts = s.eacts := rfl
@[simp] theorem setGc_irq (s : State) (n : Nat) (x : GcS) : (s.setGc n x).irq = s.irq := rfl
@[simp] theorem setGc_irqKeep (s : State) (n : Nat) (x : GcS) : (s.setGc n x).irqKeep = s.irqKeep := rfl
@[simp] theorem setGc_mems (s : State) (n : Nat) (x : GcS) : (s.setGc n x).mems = s.mems := rfl
@[simp] theorem setGc_cask (s : State) (n : Nat) (x : GcS) : (s.setGc n x).cask = s.cask := rfl
@[simp] theorem setGc_book (s : State) (n : Nat) (x : GcS) : (s.setGc n x).book = s.book := rfl
@[simp] theorem setGc_fm (s : State) (n : Nat) (x : GcS) : (s.setGc n x).fm = s.fm := rfl
@[simp] theorem setGc_str (s : State) (n : Nat) (x : GcS) : (s.setGc n x).str = s.str := rfl
@[simp] theorem setGc_sec (s : State) (n : Nat) (x : GcS) : (s.setGc n x).sec = s.sec := rfl
@[simp] theorem setGc_pmu (s : State) (n : Nat) (x : GcS) : (s.setGc n x).pmu = s.pmu := rfl
@[simp] theorem setGc_tap (s : State) (n : Nat) (x : GcS) : (s.setGc n x).tap = s.tap := rfl
@[simp] theorem setGc_resp (s : State) (n : Nat) (x : GcS) : (s.setGc n x).resp = s.resp := rfl
theorem gc_setGc (s : State) (n j : Nat) (x : GcS) :
    (s.setGc n x).gc j = if j = n then x else s.gc j := tget_tput _ _ _ _ _
@[simp] theorem gc_setGc_same (s : State) (n : Nat) (x : GcS) : (s.setGc n x).gc n = x := tget_tput_same _ _ _ _
@[simp] theorem core_setGc (s : State) (n : Nat) (x : GcS) (j : Nat) : (s.setGc n x).core j = s.core j := rfl
@[simp] theorem trio_setGc (s : State) (n : Nat) (x : GcS) (j : Nat) : (s.setGc n x).trio j = s.trio j := rfl
@[simp] theorem lane_setGc (s : State) (n : Nat) (x : GcS) (j : Nat) : (s.setGc n x).lane j = s.lane j := rfl
@[simp] theorem timer_setGc (s : State) (n : Nat) (x : GcS) (j : Nat) : (s.setGc n x).timer j = s.timer j := rfl
@[simp] theorem sd_setGc (s : State) (n : Nat) (x : GcS) (j : Nat) : (s.setGc n x).sd j = s.sd j := rfl
@[simp] theorem sdg_setGc (s : State) (n : Nat) (x : GcS) (j : Nat) : (s.setGc n x).sdg j = s.sdg j := rfl
@[simp] theorem ad_setGc (s : State) (n : Nat) (x : GcS) (j : Nat) : (s.setGc n x).ad j = s.ad j := rfl
@[simp] theorem src_setGc (s : State) (n : Nat) (x : GcS) (j : Nat) : (s.setGc n x).src j = s.src j := rfl
@[simp] theorem enc_setGc (s : State) (n : Nat) (x : GcS) (j : Nat) : (s.setGc n x).enc j = s.enc j := rfl
@[simp] theorem row_setGc (s : State) (n : Nat) (x : GcS) (j : Nat) : (s.setGc n x).row j = s.row j := rfl
@[simp] theorem eact_setGc (s : State) (n : Nat) (x : GcS) (j : Nat) : (s.setGc n x).eact j = s.eact j := rfl
@[simp] theorem memS_setGc (s : State) (n : Nat) (x : GcS) (j : Nat) : (s.setGc n x).memS j = s.memS j := rfl
@[simp] theorem chan_setGc (s : State) (n : Nat) (x : GcS) (i j : Nat) : (s.setGc n x).chan i j = s.chan i j := rfl
@[simp] theorem slot_setGc (s : State) (n : Nat) (x : GcS) (i j : Nat) : (s.setGc n x).slot i j = s.slot i j := rfl
@[simp] theorem rd_setGc (s : State) (n : Nat) (x : GcS) (r : Reg) (i j : Nat) : (s.setGc n x).rd r i j = s.rd r i j := rfl

@[simp] theorem setSrc_pending (s : State) (n : Nat) (x : Bool) : (s.setSrc n x).pending = s.pending := rfl
@[simp] theorem setSrc_now (s : State) (n : Nat) (x : Bool) : (s.setSrc n x).now = s.now := rfl
@[simp] theorem setSrc_free (s : State) (n : Nat) (x : Bool) : (s.setSrc n x).free = s.free := rfl
@[simp] theorem setSrc_regs (s : State) (n : Nat) (x : Bool) : (s.setSrc n x).regs = s.regs := rfl
@[simp] theorem setSrc_crPend (s : State) (n : Nat) (x : Bool) : (s.setSrc n x).crPend = s.crPend := rfl
@[simp] theorem setSrc_mem (s : State) (n : Nat) (x : Bool) : (s.setSrc n x).mem = s.mem := rfl
@[simp] theorem setSrc_chk (s : State) (n : Nat) (x : Bool) : (s.setSrc n x).chk = s.chk := rfl
@[simp] theorem setSrc_vld (s : State) (n : Nat) (x : Bool) : (s.setSrc n x).vld = s.vld := rfl
@[simp] theorem setSrc_cores (s : State) (n : Nat) (x : Bool) : (s.setSrc n x).cores = s.cores := rfl
@[simp] theorem setSrc_trios (s : State) (n : Nat) (x : Bool) : (s.setSrc n x).trios = s.trios := rfl
@[simp] theorem setSrc_lanes (s : State) (n : Nat) (x : Bool) : (s.setSrc n x).lanes = s.lanes := rfl
@[simp] theorem setSrc_commits (s : State) (n : Nat) (x : Bool) : (s.setSrc n x).commits = s.commits := rfl
@[simp] theorem setSrc_tb (s : State) (n : Nat) (x : Bool) : (s.setSrc n x).tb = s.tb := rfl
@[simp] theorem setSrc_timers (s : State) (n : Nat) (x : Bool) : (s.setSrc n x).timers = s.timers := rfl
@[simp] theorem setSrc_chans (s : State) (n : Nat) (x : Bool) : (s.setSrc n x).chans = s.chans := rfl
@[simp] theorem setSrc_sds (s : State) (n : Nat) (x : Bool) : (s.setSrc n x).sds = s.sds := rfl
@[simp] theorem setSrc_sdgs (s : State) (n : Nat) (x : Bool) : (s.setSrc n x).sdgs = s.sdgs := rfl
@[simp] theorem setSrc_ads (s : State) (n : Nat) (x : Bool) : (s.setSrc n x).ads = s.ads := rfl
@[simp] theorem setSrc_gcs (s : State) (n : Nat) (x : Bool) : (s.setSrc n x).gcs = s.gcs := rfl
@[simp] theorem setSrc_encs (s : State) (n : Nat) (x : Bool) : (s.setSrc n x).encs = s.encs := rfl
@[simp] theorem setSrc_slots (s : State) (n : Nat) (x : Bool) : (s.setSrc n x).slots = s.slots := rfl
@[simp] theorem setSrc_rows (s : State) (n : Nat) (x : Bool) : (s.setSrc n x).rows = s.rows := rfl
@[simp] theorem setSrc_eacts (s : State) (n : Nat) (x : Bool) : (s.setSrc n x).eacts = s.eacts := rfl
@[simp] theorem setSrc_irq (s : State) (n : Nat) (x : Bool) : (s.setSrc n x).irq = s.irq := rfl
@[simp] theorem setSrc_irqKeep (s : State) (n : Nat) (x : Bool) : (s.setSrc n x).irqKeep = s.irqKeep := rfl
@[simp] theorem setSrc_mems (s : State) (n : Nat) (x : Bool) : (s.setSrc n x).mems = s.mems := rfl
@[simp] theorem setSrc_cask (s : State) (n : Nat) (x : Bool) : (s.setSrc n x).cask = s.cask := rfl
@[simp] theorem setSrc_book (s : State) (n : Nat) (x : Bool) : (s.setSrc n x).book = s.book := rfl
@[simp] theorem setSrc_fm (s : State) (n : Nat) (x : Bool) : (s.setSrc n x).fm = s.fm := rfl
@[simp] theorem setSrc_str (s : State) (n : Nat) (x : Bool) : (s.setSrc n x).str = s.str := rfl
@[simp] theorem setSrc_sec (s : State) (n : Nat) (x : Bool) : (s.setSrc n x).sec = s.sec := rfl
@[simp] theorem setSrc_pmu (s : State) (n : Nat) (x : Bool) : (s.setSrc n x).pmu = s.pmu := rfl
@[simp] theorem setSrc_tap (s : State) (n : Nat) (x : Bool) : (s.setSrc n x).tap = s.tap := rfl
@[simp] theorem setSrc_resp (s : State) (n : Nat) (x : Bool) : (s.setSrc n x).resp = s.resp := rfl
theorem src_setSrc (s : State) (n j : Nat) (x : Bool) :
    (s.setSrc n x).src j = if j = n then x else s.src j := tget_tput _ _ _ _ _
@[simp] theorem src_setSrc_same (s : State) (n : Nat) (x : Bool) : (s.setSrc n x).src n = x := tget_tput_same _ _ _ _
@[simp] theorem core_setSrc (s : State) (n : Nat) (x : Bool) (j : Nat) : (s.setSrc n x).core j = s.core j := rfl
@[simp] theorem trio_setSrc (s : State) (n : Nat) (x : Bool) (j : Nat) : (s.setSrc n x).trio j = s.trio j := rfl
@[simp] theorem lane_setSrc (s : State) (n : Nat) (x : Bool) (j : Nat) : (s.setSrc n x).lane j = s.lane j := rfl
@[simp] theorem timer_setSrc (s : State) (n : Nat) (x : Bool) (j : Nat) : (s.setSrc n x).timer j = s.timer j := rfl
@[simp] theorem sd_setSrc (s : State) (n : Nat) (x : Bool) (j : Nat) : (s.setSrc n x).sd j = s.sd j := rfl
@[simp] theorem sdg_setSrc (s : State) (n : Nat) (x : Bool) (j : Nat) : (s.setSrc n x).sdg j = s.sdg j := rfl
@[simp] theorem ad_setSrc (s : State) (n : Nat) (x : Bool) (j : Nat) : (s.setSrc n x).ad j = s.ad j := rfl
@[simp] theorem gc_setSrc (s : State) (n : Nat) (x : Bool) (j : Nat) : (s.setSrc n x).gc j = s.gc j := rfl
@[simp] theorem enc_setSrc (s : State) (n : Nat) (x : Bool) (j : Nat) : (s.setSrc n x).enc j = s.enc j := rfl
@[simp] theorem row_setSrc (s : State) (n : Nat) (x : Bool) (j : Nat) : (s.setSrc n x).row j = s.row j := rfl
@[simp] theorem eact_setSrc (s : State) (n : Nat) (x : Bool) (j : Nat) : (s.setSrc n x).eact j = s.eact j := rfl
@[simp] theorem memS_setSrc (s : State) (n : Nat) (x : Bool) (j : Nat) : (s.setSrc n x).memS j = s.memS j := rfl
@[simp] theorem chan_setSrc (s : State) (n : Nat) (x : Bool) (i j : Nat) : (s.setSrc n x).chan i j = s.chan i j := rfl
@[simp] theorem slot_setSrc (s : State) (n : Nat) (x : Bool) (i j : Nat) : (s.setSrc n x).slot i j = s.slot i j := rfl
@[simp] theorem rd_setSrc (s : State) (n : Nat) (x : Bool) (r : Reg) (i j : Nat) : (s.setSrc n x).rd r i j = s.rd r i j := rfl

@[simp] theorem setEnc_pending (s : State) (n : Nat) (x : EncS) : (s.setEnc n x).pending = s.pending := rfl
@[simp] theorem setEnc_now (s : State) (n : Nat) (x : EncS) : (s.setEnc n x).now = s.now := rfl
@[simp] theorem setEnc_free (s : State) (n : Nat) (x : EncS) : (s.setEnc n x).free = s.free := rfl
@[simp] theorem setEnc_regs (s : State) (n : Nat) (x : EncS) : (s.setEnc n x).regs = s.regs := rfl
@[simp] theorem setEnc_crPend (s : State) (n : Nat) (x : EncS) : (s.setEnc n x).crPend = s.crPend := rfl
@[simp] theorem setEnc_mem (s : State) (n : Nat) (x : EncS) : (s.setEnc n x).mem = s.mem := rfl
@[simp] theorem setEnc_chk (s : State) (n : Nat) (x : EncS) : (s.setEnc n x).chk = s.chk := rfl
@[simp] theorem setEnc_vld (s : State) (n : Nat) (x : EncS) : (s.setEnc n x).vld = s.vld := rfl
@[simp] theorem setEnc_cores (s : State) (n : Nat) (x : EncS) : (s.setEnc n x).cores = s.cores := rfl
@[simp] theorem setEnc_trios (s : State) (n : Nat) (x : EncS) : (s.setEnc n x).trios = s.trios := rfl
@[simp] theorem setEnc_lanes (s : State) (n : Nat) (x : EncS) : (s.setEnc n x).lanes = s.lanes := rfl
@[simp] theorem setEnc_commits (s : State) (n : Nat) (x : EncS) : (s.setEnc n x).commits = s.commits := rfl
@[simp] theorem setEnc_tb (s : State) (n : Nat) (x : EncS) : (s.setEnc n x).tb = s.tb := rfl
@[simp] theorem setEnc_timers (s : State) (n : Nat) (x : EncS) : (s.setEnc n x).timers = s.timers := rfl
@[simp] theorem setEnc_chans (s : State) (n : Nat) (x : EncS) : (s.setEnc n x).chans = s.chans := rfl
@[simp] theorem setEnc_sds (s : State) (n : Nat) (x : EncS) : (s.setEnc n x).sds = s.sds := rfl
@[simp] theorem setEnc_sdgs (s : State) (n : Nat) (x : EncS) : (s.setEnc n x).sdgs = s.sdgs := rfl
@[simp] theorem setEnc_ads (s : State) (n : Nat) (x : EncS) : (s.setEnc n x).ads = s.ads := rfl
@[simp] theorem setEnc_gcs (s : State) (n : Nat) (x : EncS) : (s.setEnc n x).gcs = s.gcs := rfl
@[simp] theorem setEnc_srcs (s : State) (n : Nat) (x : EncS) : (s.setEnc n x).srcs = s.srcs := rfl
@[simp] theorem setEnc_slots (s : State) (n : Nat) (x : EncS) : (s.setEnc n x).slots = s.slots := rfl
@[simp] theorem setEnc_rows (s : State) (n : Nat) (x : EncS) : (s.setEnc n x).rows = s.rows := rfl
@[simp] theorem setEnc_eacts (s : State) (n : Nat) (x : EncS) : (s.setEnc n x).eacts = s.eacts := rfl
@[simp] theorem setEnc_irq (s : State) (n : Nat) (x : EncS) : (s.setEnc n x).irq = s.irq := rfl
@[simp] theorem setEnc_irqKeep (s : State) (n : Nat) (x : EncS) : (s.setEnc n x).irqKeep = s.irqKeep := rfl
@[simp] theorem setEnc_mems (s : State) (n : Nat) (x : EncS) : (s.setEnc n x).mems = s.mems := rfl
@[simp] theorem setEnc_cask (s : State) (n : Nat) (x : EncS) : (s.setEnc n x).cask = s.cask := rfl
@[simp] theorem setEnc_book (s : State) (n : Nat) (x : EncS) : (s.setEnc n x).book = s.book := rfl
@[simp] theorem setEnc_fm (s : State) (n : Nat) (x : EncS) : (s.setEnc n x).fm = s.fm := rfl
@[simp] theorem setEnc_str (s : State) (n : Nat) (x : EncS) : (s.setEnc n x).str = s.str := rfl
@[simp] theorem setEnc_sec (s : State) (n : Nat) (x : EncS) : (s.setEnc n x).sec = s.sec := rfl
@[simp] theorem setEnc_pmu (s : State) (n : Nat) (x : EncS) : (s.setEnc n x).pmu = s.pmu := rfl
@[simp] theorem setEnc_tap (s : State) (n : Nat) (x : EncS) : (s.setEnc n x).tap = s.tap := rfl
@[simp] theorem setEnc_resp (s : State) (n : Nat) (x : EncS) : (s.setEnc n x).resp = s.resp := rfl
theorem enc_setEnc (s : State) (n j : Nat) (x : EncS) :
    (s.setEnc n x).enc j = if j = n then x else s.enc j := tget_tput _ _ _ _ _
@[simp] theorem enc_setEnc_same (s : State) (n : Nat) (x : EncS) : (s.setEnc n x).enc n = x := tget_tput_same _ _ _ _
@[simp] theorem core_setEnc (s : State) (n : Nat) (x : EncS) (j : Nat) : (s.setEnc n x).core j = s.core j := rfl
@[simp] theorem trio_setEnc (s : State) (n : Nat) (x : EncS) (j : Nat) : (s.setEnc n x).trio j = s.trio j := rfl
@[simp] theorem lane_setEnc (s : State) (n : Nat) (x : EncS) (j : Nat) : (s.setEnc n x).lane j = s.lane j := rfl
@[simp] theorem timer_setEnc (s : State) (n : Nat) (x : EncS) (j : Nat) : (s.setEnc n x).timer j = s.timer j := rfl
@[simp] theorem sd_setEnc (s : State) (n : Nat) (x : EncS) (j : Nat) : (s.setEnc n x).sd j = s.sd j := rfl
@[simp] theorem sdg_setEnc (s : State) (n : Nat) (x : EncS) (j : Nat) : (s.setEnc n x).sdg j = s.sdg j := rfl
@[simp] theorem ad_setEnc (s : State) (n : Nat) (x : EncS) (j : Nat) : (s.setEnc n x).ad j = s.ad j := rfl
@[simp] theorem gc_setEnc (s : State) (n : Nat) (x : EncS) (j : Nat) : (s.setEnc n x).gc j = s.gc j := rfl
@[simp] theorem src_setEnc (s : State) (n : Nat) (x : EncS) (j : Nat) : (s.setEnc n x).src j = s.src j := rfl
@[simp] theorem row_setEnc (s : State) (n : Nat) (x : EncS) (j : Nat) : (s.setEnc n x).row j = s.row j := rfl
@[simp] theorem eact_setEnc (s : State) (n : Nat) (x : EncS) (j : Nat) : (s.setEnc n x).eact j = s.eact j := rfl
@[simp] theorem memS_setEnc (s : State) (n : Nat) (x : EncS) (j : Nat) : (s.setEnc n x).memS j = s.memS j := rfl
@[simp] theorem chan_setEnc (s : State) (n : Nat) (x : EncS) (i j : Nat) : (s.setEnc n x).chan i j = s.chan i j := rfl
@[simp] theorem slot_setEnc (s : State) (n : Nat) (x : EncS) (i j : Nat) : (s.setEnc n x).slot i j = s.slot i j := rfl
@[simp] theorem rd_setEnc (s : State) (n : Nat) (x : EncS) (r : Reg) (i j : Nat) : (s.setEnc n x).rd r i j = s.rd r i j := rfl

@[simp] theorem setRow_pending (s : State) (n : Nat) (x : RowS) : (s.setRow n x).pending = s.pending := rfl
@[simp] theorem setRow_now (s : State) (n : Nat) (x : RowS) : (s.setRow n x).now = s.now := rfl
@[simp] theorem setRow_free (s : State) (n : Nat) (x : RowS) : (s.setRow n x).free = s.free := rfl
@[simp] theorem setRow_regs (s : State) (n : Nat) (x : RowS) : (s.setRow n x).regs = s.regs := rfl
@[simp] theorem setRow_crPend (s : State) (n : Nat) (x : RowS) : (s.setRow n x).crPend = s.crPend := rfl
@[simp] theorem setRow_mem (s : State) (n : Nat) (x : RowS) : (s.setRow n x).mem = s.mem := rfl
@[simp] theorem setRow_chk (s : State) (n : Nat) (x : RowS) : (s.setRow n x).chk = s.chk := rfl
@[simp] theorem setRow_vld (s : State) (n : Nat) (x : RowS) : (s.setRow n x).vld = s.vld := rfl
@[simp] theorem setRow_cores (s : State) (n : Nat) (x : RowS) : (s.setRow n x).cores = s.cores := rfl
@[simp] theorem setRow_trios (s : State) (n : Nat) (x : RowS) : (s.setRow n x).trios = s.trios := rfl
@[simp] theorem setRow_lanes (s : State) (n : Nat) (x : RowS) : (s.setRow n x).lanes = s.lanes := rfl
@[simp] theorem setRow_commits (s : State) (n : Nat) (x : RowS) : (s.setRow n x).commits = s.commits := rfl
@[simp] theorem setRow_tb (s : State) (n : Nat) (x : RowS) : (s.setRow n x).tb = s.tb := rfl
@[simp] theorem setRow_timers (s : State) (n : Nat) (x : RowS) : (s.setRow n x).timers = s.timers := rfl
@[simp] theorem setRow_chans (s : State) (n : Nat) (x : RowS) : (s.setRow n x).chans = s.chans := rfl
@[simp] theorem setRow_sds (s : State) (n : Nat) (x : RowS) : (s.setRow n x).sds = s.sds := rfl
@[simp] theorem setRow_sdgs (s : State) (n : Nat) (x : RowS) : (s.setRow n x).sdgs = s.sdgs := rfl
@[simp] theorem setRow_ads (s : State) (n : Nat) (x : RowS) : (s.setRow n x).ads = s.ads := rfl
@[simp] theorem setRow_gcs (s : State) (n : Nat) (x : RowS) : (s.setRow n x).gcs = s.gcs := rfl
@[simp] theorem setRow_srcs (s : State) (n : Nat) (x : RowS) : (s.setRow n x).srcs = s.srcs := rfl
@[simp] theorem setRow_encs (s : State) (n : Nat) (x : RowS) : (s.setRow n x).encs = s.encs := rfl
@[simp] theorem setRow_slots (s : State) (n : Nat) (x : RowS) : (s.setRow n x).slots = s.slots := rfl
@[simp] theorem setRow_eacts (s : State) (n : Nat) (x : RowS) : (s.setRow n x).eacts = s.eacts := rfl
@[simp] theorem setRow_irq (s : State) (n : Nat) (x : RowS) : (s.setRow n x).irq = s.irq := rfl
@[simp] theorem setRow_irqKeep (s : State) (n : Nat) (x : RowS) : (s.setRow n x).irqKeep = s.irqKeep := rfl
@[simp] theorem setRow_mems (s : State) (n : Nat) (x : RowS) : (s.setRow n x).mems = s.mems := rfl
@[simp] theorem setRow_cask (s : State) (n : Nat) (x : RowS) : (s.setRow n x).cask = s.cask := rfl
@[simp] theorem setRow_book (s : State) (n : Nat) (x : RowS) : (s.setRow n x).book = s.book := rfl
@[simp] theorem setRow_fm (s : State) (n : Nat) (x : RowS) : (s.setRow n x).fm = s.fm := rfl
@[simp] theorem setRow_str (s : State) (n : Nat) (x : RowS) : (s.setRow n x).str = s.str := rfl
@[simp] theorem setRow_sec (s : State) (n : Nat) (x : RowS) : (s.setRow n x).sec = s.sec := rfl
@[simp] theorem setRow_pmu (s : State) (n : Nat) (x : RowS) : (s.setRow n x).pmu = s.pmu := rfl
@[simp] theorem setRow_tap (s : State) (n : Nat) (x : RowS) : (s.setRow n x).tap = s.tap := rfl
@[simp] theorem setRow_resp (s : State) (n : Nat) (x : RowS) : (s.setRow n x).resp = s.resp := rfl
theorem row_setRow (s : State) (n j : Nat) (x : RowS) :
    (s.setRow n x).row j = if j = n then x else s.row j := tget_tput _ _ _ _ _
@[simp] theorem row_setRow_same (s : State) (n : Nat) (x : RowS) : (s.setRow n x).row n = x := tget_tput_same _ _ _ _
@[simp] theorem core_setRow (s : State) (n : Nat) (x : RowS) (j : Nat) : (s.setRow n x).core j = s.core j := rfl
@[simp] theorem trio_setRow (s : State) (n : Nat) (x : RowS) (j : Nat) : (s.setRow n x).trio j = s.trio j := rfl
@[simp] theorem lane_setRow (s : State) (n : Nat) (x : RowS) (j : Nat) : (s.setRow n x).lane j = s.lane j := rfl
@[simp] theorem timer_setRow (s : State) (n : Nat) (x : RowS) (j : Nat) : (s.setRow n x).timer j = s.timer j := rfl
@[simp] theorem sd_setRow (s : State) (n : Nat) (x : RowS) (j : Nat) : (s.setRow n x).sd j = s.sd j := rfl
@[simp] theorem sdg_setRow (s : State) (n : Nat) (x : RowS) (j : Nat) : (s.setRow n x).sdg j = s.sdg j := rfl
@[simp] theorem ad_setRow (s : State) (n : Nat) (x : RowS) (j : Nat) : (s.setRow n x).ad j = s.ad j := rfl
@[simp] theorem gc_setRow (s : State) (n : Nat) (x : RowS) (j : Nat) : (s.setRow n x).gc j = s.gc j := rfl
@[simp] theorem src_setRow (s : State) (n : Nat) (x : RowS) (j : Nat) : (s.setRow n x).src j = s.src j := rfl
@[simp] theorem enc_setRow (s : State) (n : Nat) (x : RowS) (j : Nat) : (s.setRow n x).enc j = s.enc j := rfl
@[simp] theorem eact_setRow (s : State) (n : Nat) (x : RowS) (j : Nat) : (s.setRow n x).eact j = s.eact j := rfl
@[simp] theorem memS_setRow (s : State) (n : Nat) (x : RowS) (j : Nat) : (s.setRow n x).memS j = s.memS j := rfl
@[simp] theorem chan_setRow (s : State) (n : Nat) (x : RowS) (i j : Nat) : (s.setRow n x).chan i j = s.chan i j := rfl
@[simp] theorem slot_setRow (s : State) (n : Nat) (x : RowS) (i j : Nat) : (s.setRow n x).slot i j = s.slot i j := rfl
@[simp] theorem rd_setRow (s : State) (n : Nat) (x : RowS) (r : Reg) (i j : Nat) : (s.setRow n x).rd r i j = s.rd r i j := rfl

@[simp] theorem setEact_pending (s : State) (n : Nat) (x : EngAct) : (s.setEact n x).pending = s.pending := rfl
@[simp] theorem setEact_now (s : State) (n : Nat) (x : EngAct) : (s.setEact n x).now = s.now := rfl
@[simp] theorem setEact_free (s : State) (n : Nat) (x : EngAct) : (s.setEact n x).free = s.free := rfl
@[simp] theorem setEact_regs (s : State) (n : Nat) (x : EngAct) : (s.setEact n x).regs = s.regs := rfl
@[simp] theorem setEact_crPend (s : State) (n : Nat) (x : EngAct) : (s.setEact n x).crPend = s.crPend := rfl
@[simp] theorem setEact_mem (s : State) (n : Nat) (x : EngAct) : (s.setEact n x).mem = s.mem := rfl
@[simp] theorem setEact_chk (s : State) (n : Nat) (x : EngAct) : (s.setEact n x).chk = s.chk := rfl
@[simp] theorem setEact_vld (s : State) (n : Nat) (x : EngAct) : (s.setEact n x).vld = s.vld := rfl
@[simp] theorem setEact_cores (s : State) (n : Nat) (x : EngAct) : (s.setEact n x).cores = s.cores := rfl
@[simp] theorem setEact_trios (s : State) (n : Nat) (x : EngAct) : (s.setEact n x).trios = s.trios := rfl
@[simp] theorem setEact_lanes (s : State) (n : Nat) (x : EngAct) : (s.setEact n x).lanes = s.lanes := rfl
@[simp] theorem setEact_commits (s : State) (n : Nat) (x : EngAct) : (s.setEact n x).commits = s.commits := rfl
@[simp] theorem setEact_tb (s : State) (n : Nat) (x : EngAct) : (s.setEact n x).tb = s.tb := rfl
@[simp] theorem setEact_timers (s : State) (n : Nat) (x : EngAct) : (s.setEact n x).timers = s.timers := rfl
@[simp] theorem setEact_chans (s : State) (n : Nat) (x : EngAct) : (s.setEact n x).chans = s.chans := rfl
@[simp] theorem setEact_sds (s : State) (n : Nat) (x : EngAct) : (s.setEact n x).sds = s.sds := rfl
@[simp] theorem setEact_sdgs (s : State) (n : Nat) (x : EngAct) : (s.setEact n x).sdgs = s.sdgs := rfl
@[simp] theorem setEact_ads (s : State) (n : Nat) (x : EngAct) : (s.setEact n x).ads = s.ads := rfl
@[simp] theorem setEact_gcs (s : State) (n : Nat) (x : EngAct) : (s.setEact n x).gcs = s.gcs := rfl
@[simp] theorem setEact_srcs (s : State) (n : Nat) (x : EngAct) : (s.setEact n x).srcs = s.srcs := rfl
@[simp] theorem setEact_encs (s : State) (n : Nat) (x : EngAct) : (s.setEact n x).encs = s.encs := rfl
@[simp] theorem setEact_slots (s : State) (n : Nat) (x : EngAct) : (s.setEact n x).slots = s.slots := rfl
@[simp] theorem setEact_rows (s : State) (n : Nat) (x : EngAct) : (s.setEact n x).rows = s.rows := rfl
@[simp] theorem setEact_irq (s : State) (n : Nat) (x : EngAct) : (s.setEact n x).irq = s.irq := rfl
@[simp] theorem setEact_irqKeep (s : State) (n : Nat) (x : EngAct) : (s.setEact n x).irqKeep = s.irqKeep := rfl
@[simp] theorem setEact_mems (s : State) (n : Nat) (x : EngAct) : (s.setEact n x).mems = s.mems := rfl
@[simp] theorem setEact_cask (s : State) (n : Nat) (x : EngAct) : (s.setEact n x).cask = s.cask := rfl
@[simp] theorem setEact_book (s : State) (n : Nat) (x : EngAct) : (s.setEact n x).book = s.book := rfl
@[simp] theorem setEact_fm (s : State) (n : Nat) (x : EngAct) : (s.setEact n x).fm = s.fm := rfl
@[simp] theorem setEact_str (s : State) (n : Nat) (x : EngAct) : (s.setEact n x).str = s.str := rfl
@[simp] theorem setEact_sec (s : State) (n : Nat) (x : EngAct) : (s.setEact n x).sec = s.sec := rfl
@[simp] theorem setEact_pmu (s : State) (n : Nat) (x : EngAct) : (s.setEact n x).pmu = s.pmu := rfl
@[simp] theorem setEact_tap (s : State) (n : Nat) (x : EngAct) : (s.setEact n x).tap = s.tap := rfl
@[simp] theorem setEact_resp (s : State) (n : Nat) (x : EngAct) : (s.setEact n x).resp = s.resp := rfl
theorem eact_setEact (s : State) (n j : Nat) (x : EngAct) :
    (s.setEact n x).eact j = if j = n then x else s.eact j := tget_tput _ _ _ _ _
@[simp] theorem eact_setEact_same (s : State) (n : Nat) (x : EngAct) : (s.setEact n x).eact n = x := tget_tput_same _ _ _ _
@[simp] theorem core_setEact (s : State) (n : Nat) (x : EngAct) (j : Nat) : (s.setEact n x).core j = s.core j := rfl
@[simp] theorem trio_setEact (s : State) (n : Nat) (x : EngAct) (j : Nat) : (s.setEact n x).trio j = s.trio j := rfl
@[simp] theorem lane_setEact (s : State) (n : Nat) (x : EngAct) (j : Nat) : (s.setEact n x).lane j = s.lane j := rfl
@[simp] theorem timer_setEact (s : State) (n : Nat) (x : EngAct) (j : Nat) : (s.setEact n x).timer j = s.timer j := rfl
@[simp] theorem sd_setEact (s : State) (n : Nat) (x : EngAct) (j : Nat) : (s.setEact n x).sd j = s.sd j := rfl
@[simp] theorem sdg_setEact (s : State) (n : Nat) (x : EngAct) (j : Nat) : (s.setEact n x).sdg j = s.sdg j := rfl
@[simp] theorem ad_setEact (s : State) (n : Nat) (x : EngAct) (j : Nat) : (s.setEact n x).ad j = s.ad j := rfl
@[simp] theorem gc_setEact (s : State) (n : Nat) (x : EngAct) (j : Nat) : (s.setEact n x).gc j = s.gc j := rfl
@[simp] theorem src_setEact (s : State) (n : Nat) (x : EngAct) (j : Nat) : (s.setEact n x).src j = s.src j := rfl
@[simp] theorem enc_setEact (s : State) (n : Nat) (x : EngAct) (j : Nat) : (s.setEact n x).enc j = s.enc j := rfl
@[simp] theorem row_setEact (s : State) (n : Nat) (x : EngAct) (j : Nat) : (s.setEact n x).row j = s.row j := rfl
@[simp] theorem memS_setEact (s : State) (n : Nat) (x : EngAct) (j : Nat) : (s.setEact n x).memS j = s.memS j := rfl
@[simp] theorem chan_setEact (s : State) (n : Nat) (x : EngAct) (i j : Nat) : (s.setEact n x).chan i j = s.chan i j := rfl
@[simp] theorem slot_setEact (s : State) (n : Nat) (x : EngAct) (i j : Nat) : (s.setEact n x).slot i j = s.slot i j := rfl
@[simp] theorem rd_setEact (s : State) (n : Nat) (x : EngAct) (r : Reg) (i j : Nat) : (s.setEact n x).rd r i j = s.rd r i j := rfl

@[simp] theorem setMemS_pending (s : State) (n : Nat) (x : MemS) : (s.setMemS n x).pending = s.pending := rfl
@[simp] theorem setMemS_now (s : State) (n : Nat) (x : MemS) : (s.setMemS n x).now = s.now := rfl
@[simp] theorem setMemS_free (s : State) (n : Nat) (x : MemS) : (s.setMemS n x).free = s.free := rfl
@[simp] theorem setMemS_regs (s : State) (n : Nat) (x : MemS) : (s.setMemS n x).regs = s.regs := rfl
@[simp] theorem setMemS_crPend (s : State) (n : Nat) (x : MemS) : (s.setMemS n x).crPend = s.crPend := rfl
@[simp] theorem setMemS_mem (s : State) (n : Nat) (x : MemS) : (s.setMemS n x).mem = s.mem := rfl
@[simp] theorem setMemS_chk (s : State) (n : Nat) (x : MemS) : (s.setMemS n x).chk = s.chk := rfl
@[simp] theorem setMemS_vld (s : State) (n : Nat) (x : MemS) : (s.setMemS n x).vld = s.vld := rfl
@[simp] theorem setMemS_cores (s : State) (n : Nat) (x : MemS) : (s.setMemS n x).cores = s.cores := rfl
@[simp] theorem setMemS_trios (s : State) (n : Nat) (x : MemS) : (s.setMemS n x).trios = s.trios := rfl
@[simp] theorem setMemS_lanes (s : State) (n : Nat) (x : MemS) : (s.setMemS n x).lanes = s.lanes := rfl
@[simp] theorem setMemS_commits (s : State) (n : Nat) (x : MemS) : (s.setMemS n x).commits = s.commits := rfl
@[simp] theorem setMemS_tb (s : State) (n : Nat) (x : MemS) : (s.setMemS n x).tb = s.tb := rfl
@[simp] theorem setMemS_timers (s : State) (n : Nat) (x : MemS) : (s.setMemS n x).timers = s.timers := rfl
@[simp] theorem setMemS_chans (s : State) (n : Nat) (x : MemS) : (s.setMemS n x).chans = s.chans := rfl
@[simp] theorem setMemS_sds (s : State) (n : Nat) (x : MemS) : (s.setMemS n x).sds = s.sds := rfl
@[simp] theorem setMemS_sdgs (s : State) (n : Nat) (x : MemS) : (s.setMemS n x).sdgs = s.sdgs := rfl
@[simp] theorem setMemS_ads (s : State) (n : Nat) (x : MemS) : (s.setMemS n x).ads = s.ads := rfl
@[simp] theorem setMemS_gcs (s : State) (n : Nat) (x : MemS) : (s.setMemS n x).gcs = s.gcs := rfl
@[simp] theorem setMemS_srcs (s : State) (n : Nat) (x : MemS) : (s.setMemS n x).srcs = s.srcs := rfl
@[simp] theorem setMemS_encs (s : State) (n : Nat) (x : MemS) : (s.setMemS n x).encs = s.encs := rfl
@[simp] theorem setMemS_slots (s : State) (n : Nat) (x : MemS) : (s.setMemS n x).slots = s.slots := rfl
@[simp] theorem setMemS_rows (s : State) (n : Nat) (x : MemS) : (s.setMemS n x).rows = s.rows := rfl
@[simp] theorem setMemS_eacts (s : State) (n : Nat) (x : MemS) : (s.setMemS n x).eacts = s.eacts := rfl
@[simp] theorem setMemS_irq (s : State) (n : Nat) (x : MemS) : (s.setMemS n x).irq = s.irq := rfl
@[simp] theorem setMemS_irqKeep (s : State) (n : Nat) (x : MemS) : (s.setMemS n x).irqKeep = s.irqKeep := rfl
@[simp] theorem setMemS_cask (s : State) (n : Nat) (x : MemS) : (s.setMemS n x).cask = s.cask := rfl
@[simp] theorem setMemS_book (s : State) (n : Nat) (x : MemS) : (s.setMemS n x).book = s.book := rfl
@[simp] theorem setMemS_fm (s : State) (n : Nat) (x : MemS) : (s.setMemS n x).fm = s.fm := rfl
@[simp] theorem setMemS_str (s : State) (n : Nat) (x : MemS) : (s.setMemS n x).str = s.str := rfl
@[simp] theorem setMemS_sec (s : State) (n : Nat) (x : MemS) : (s.setMemS n x).sec = s.sec := rfl
@[simp] theorem setMemS_pmu (s : State) (n : Nat) (x : MemS) : (s.setMemS n x).pmu = s.pmu := rfl
@[simp] theorem setMemS_tap (s : State) (n : Nat) (x : MemS) : (s.setMemS n x).tap = s.tap := rfl
@[simp] theorem setMemS_resp (s : State) (n : Nat) (x : MemS) : (s.setMemS n x).resp = s.resp := rfl
theorem memS_setMemS (s : State) (n j : Nat) (x : MemS) :
    (s.setMemS n x).memS j = if j = n then x else s.memS j := tget_tput _ _ _ _ _
@[simp] theorem memS_setMemS_same (s : State) (n : Nat) (x : MemS) : (s.setMemS n x).memS n = x := tget_tput_same _ _ _ _
@[simp] theorem core_setMemS (s : State) (n : Nat) (x : MemS) (j : Nat) : (s.setMemS n x).core j = s.core j := rfl
@[simp] theorem trio_setMemS (s : State) (n : Nat) (x : MemS) (j : Nat) : (s.setMemS n x).trio j = s.trio j := rfl
@[simp] theorem lane_setMemS (s : State) (n : Nat) (x : MemS) (j : Nat) : (s.setMemS n x).lane j = s.lane j := rfl
@[simp] theorem timer_setMemS (s : State) (n : Nat) (x : MemS) (j : Nat) : (s.setMemS n x).timer j = s.timer j := rfl
@[simp] theorem sd_setMemS (s : State) (n : Nat) (x : MemS) (j : Nat) : (s.setMemS n x).sd j = s.sd j := rfl
@[simp] theorem sdg_setMemS (s : State) (n : Nat) (x : MemS) (j : Nat) : (s.setMemS n x).sdg j = s.sdg j := rfl
@[simp] theorem ad_setMemS (s : State) (n : Nat) (x : MemS) (j : Nat) : (s.setMemS n x).ad j = s.ad j := rfl
@[simp] theorem gc_setMemS (s : State) (n : Nat) (x : MemS) (j : Nat) : (s.setMemS n x).gc j = s.gc j := rfl
@[simp] theorem src_setMemS (s : State) (n : Nat) (x : MemS) (j : Nat) : (s.setMemS n x).src j = s.src j := rfl
@[simp] theorem enc_setMemS (s : State) (n : Nat) (x : MemS) (j : Nat) : (s.setMemS n x).enc j = s.enc j := rfl
@[simp] theorem row_setMemS (s : State) (n : Nat) (x : MemS) (j : Nat) : (s.setMemS n x).row j = s.row j := rfl
@[simp] theorem eact_setMemS (s : State) (n : Nat) (x : MemS) (j : Nat) : (s.setMemS n x).eact j = s.eact j := rfl
@[simp] theorem chan_setMemS (s : State) (n : Nat) (x : MemS) (i j : Nat) : (s.setMemS n x).chan i j = s.chan i j := rfl
@[simp] theorem slot_setMemS (s : State) (n : Nat) (x : MemS) (i j : Nat) : (s.setMemS n x).slot i j = s.slot i j := rfl
@[simp] theorem rd_setMemS (s : State) (n : Nat) (x : MemS) (r : Reg) (i j : Nat) : (s.setMemS n x).rd r i j = s.rd r i j := rfl

@[simp] theorem setChan_pending (s : State) (n m : Nat) (x : ChanS) : (s.setChan n m x).pending = s.pending := rfl
@[simp] theorem setChan_now (s : State) (n m : Nat) (x : ChanS) : (s.setChan n m x).now = s.now := rfl
@[simp] theorem setChan_free (s : State) (n m : Nat) (x : ChanS) : (s.setChan n m x).free = s.free := rfl
@[simp] theorem setChan_regs (s : State) (n m : Nat) (x : ChanS) : (s.setChan n m x).regs = s.regs := rfl
@[simp] theorem setChan_crPend (s : State) (n m : Nat) (x : ChanS) : (s.setChan n m x).crPend = s.crPend := rfl
@[simp] theorem setChan_mem (s : State) (n m : Nat) (x : ChanS) : (s.setChan n m x).mem = s.mem := rfl
@[simp] theorem setChan_chk (s : State) (n m : Nat) (x : ChanS) : (s.setChan n m x).chk = s.chk := rfl
@[simp] theorem setChan_vld (s : State) (n m : Nat) (x : ChanS) : (s.setChan n m x).vld = s.vld := rfl
@[simp] theorem setChan_cores (s : State) (n m : Nat) (x : ChanS) : (s.setChan n m x).cores = s.cores := rfl
@[simp] theorem setChan_trios (s : State) (n m : Nat) (x : ChanS) : (s.setChan n m x).trios = s.trios := rfl
@[simp] theorem setChan_lanes (s : State) (n m : Nat) (x : ChanS) : (s.setChan n m x).lanes = s.lanes := rfl
@[simp] theorem setChan_commits (s : State) (n m : Nat) (x : ChanS) : (s.setChan n m x).commits = s.commits := rfl
@[simp] theorem setChan_tb (s : State) (n m : Nat) (x : ChanS) : (s.setChan n m x).tb = s.tb := rfl
@[simp] theorem setChan_timers (s : State) (n m : Nat) (x : ChanS) : (s.setChan n m x).timers = s.timers := rfl
@[simp] theorem setChan_sds (s : State) (n m : Nat) (x : ChanS) : (s.setChan n m x).sds = s.sds := rfl
@[simp] theorem setChan_sdgs (s : State) (n m : Nat) (x : ChanS) : (s.setChan n m x).sdgs = s.sdgs := rfl
@[simp] theorem setChan_ads (s : State) (n m : Nat) (x : ChanS) : (s.setChan n m x).ads = s.ads := rfl
@[simp] theorem setChan_gcs (s : State) (n m : Nat) (x : ChanS) : (s.setChan n m x).gcs = s.gcs := rfl
@[simp] theorem setChan_srcs (s : State) (n m : Nat) (x : ChanS) : (s.setChan n m x).srcs = s.srcs := rfl
@[simp] theorem setChan_encs (s : State) (n m : Nat) (x : ChanS) : (s.setChan n m x).encs = s.encs := rfl
@[simp] theorem setChan_slots (s : State) (n m : Nat) (x : ChanS) : (s.setChan n m x).slots = s.slots := rfl
@[simp] theorem setChan_rows (s : State) (n m : Nat) (x : ChanS) : (s.setChan n m x).rows = s.rows := rfl
@[simp] theorem setChan_eacts (s : State) (n m : Nat) (x : ChanS) : (s.setChan n m x).eacts = s.eacts := rfl
@[simp] theorem setChan_irq (s : State) (n m : Nat) (x : ChanS) : (s.setChan n m x).irq = s.irq := rfl
@[simp] theorem setChan_irqKeep (s : State) (n m : Nat) (x : ChanS) : (s.setChan n m x).irqKeep = s.irqKeep := rfl
@[simp] theorem setChan_mems (s : State) (n m : Nat) (x : ChanS) : (s.setChan n m x).mems = s.mems := rfl
@[simp] theorem setChan_cask (s : State) (n m : Nat) (x : ChanS) : (s.setChan n m x).cask = s.cask := rfl
@[simp] theorem setChan_book (s : State) (n m : Nat) (x : ChanS) : (s.setChan n m x).book = s.book := rfl
@[simp] theorem setChan_fm (s : State) (n m : Nat) (x : ChanS) : (s.setChan n m x).fm = s.fm := rfl
@[simp] theorem setChan_str (s : State) (n m : Nat) (x : ChanS) : (s.setChan n m x).str = s.str := rfl
@[simp] theorem setChan_sec (s : State) (n m : Nat) (x : ChanS) : (s.setChan n m x).sec = s.sec := rfl
@[simp] theorem setChan_pmu (s : State) (n m : Nat) (x : ChanS) : (s.setChan n m x).pmu = s.pmu := rfl
@[simp] theorem setChan_tap (s : State) (n m : Nat) (x : ChanS) : (s.setChan n m x).tap = s.tap := rfl
@[simp] theorem setChan_resp (s : State) (n m : Nat) (x : ChanS) : (s.setChan n m x).resp = s.resp := rfl
theorem chan_setChan (s : State) (n m i j : Nat) (x : ChanS) :
    (s.setChan n m x).chan i j = if 4 * i + j = 4 * n + m then x else s.chan i j := tget_tput _ _ _ _ _
@[simp] theorem chan_setChan_same (s : State) (n m : Nat) (x : ChanS) : (s.setChan n m x).chan n m = x := tget_tput_same _ _ _ _
@[simp] theorem core_setChan (s : State) (n m : Nat) (x : ChanS) (j : Nat) : (s.setChan n m x).core j = s.core j := rfl
@[simp] theorem trio_setChan (s : State) (n m : Nat) (x : ChanS) (j : Nat) : (s.setChan n m x).trio j = s.trio j := rfl
@[simp] theorem lane_setChan (s : State) (n m : Nat) (x : ChanS) (j : Nat) : (s.setChan n m x).lane j = s.lane j := rfl
@[simp] theorem timer_setChan (s : State) (n m : Nat) (x : ChanS) (j : Nat) : (s.setChan n m x).timer j = s.timer j := rfl
@[simp] theorem sd_setChan (s : State) (n m : Nat) (x : ChanS) (j : Nat) : (s.setChan n m x).sd j = s.sd j := rfl
@[simp] theorem sdg_setChan (s : State) (n m : Nat) (x : ChanS) (j : Nat) : (s.setChan n m x).sdg j = s.sdg j := rfl
@[simp] theorem ad_setChan (s : State) (n m : Nat) (x : ChanS) (j : Nat) : (s.setChan n m x).ad j = s.ad j := rfl
@[simp] theorem gc_setChan (s : State) (n m : Nat) (x : ChanS) (j : Nat) : (s.setChan n m x).gc j = s.gc j := rfl
@[simp] theorem src_setChan (s : State) (n m : Nat) (x : ChanS) (j : Nat) : (s.setChan n m x).src j = s.src j := rfl
@[simp] theorem enc_setChan (s : State) (n m : Nat) (x : ChanS) (j : Nat) : (s.setChan n m x).enc j = s.enc j := rfl
@[simp] theorem row_setChan (s : State) (n m : Nat) (x : ChanS) (j : Nat) : (s.setChan n m x).row j = s.row j := rfl
@[simp] theorem eact_setChan (s : State) (n m : Nat) (x : ChanS) (j : Nat) : (s.setChan n m x).eact j = s.eact j := rfl
@[simp] theorem memS_setChan (s : State) (n m : Nat) (x : ChanS) (j : Nat) : (s.setChan n m x).memS j = s.memS j := rfl
@[simp] theorem slot_setChan (s : State) (n m : Nat) (x : ChanS) (i j : Nat) : (s.setChan n m x).slot i j = s.slot i j := rfl
@[simp] theorem rd_setChan (s : State) (n m : Nat) (x : ChanS) (r : Reg) (i j : Nat) : (s.setChan n m x).rd r i j = s.rd r i j := rfl

@[simp] theorem setSlot_pending (s : State) (n m : Nat) (x : SlotS) : (s.setSlot n m x).pending = s.pending := rfl
@[simp] theorem setSlot_now (s : State) (n m : Nat) (x : SlotS) : (s.setSlot n m x).now = s.now := rfl
@[simp] theorem setSlot_free (s : State) (n m : Nat) (x : SlotS) : (s.setSlot n m x).free = s.free := rfl
@[simp] theorem setSlot_regs (s : State) (n m : Nat) (x : SlotS) : (s.setSlot n m x).regs = s.regs := rfl
@[simp] theorem setSlot_crPend (s : State) (n m : Nat) (x : SlotS) : (s.setSlot n m x).crPend = s.crPend := rfl
@[simp] theorem setSlot_mem (s : State) (n m : Nat) (x : SlotS) : (s.setSlot n m x).mem = s.mem := rfl
@[simp] theorem setSlot_chk (s : State) (n m : Nat) (x : SlotS) : (s.setSlot n m x).chk = s.chk := rfl
@[simp] theorem setSlot_vld (s : State) (n m : Nat) (x : SlotS) : (s.setSlot n m x).vld = s.vld := rfl
@[simp] theorem setSlot_cores (s : State) (n m : Nat) (x : SlotS) : (s.setSlot n m x).cores = s.cores := rfl
@[simp] theorem setSlot_trios (s : State) (n m : Nat) (x : SlotS) : (s.setSlot n m x).trios = s.trios := rfl
@[simp] theorem setSlot_lanes (s : State) (n m : Nat) (x : SlotS) : (s.setSlot n m x).lanes = s.lanes := rfl
@[simp] theorem setSlot_commits (s : State) (n m : Nat) (x : SlotS) : (s.setSlot n m x).commits = s.commits := rfl
@[simp] theorem setSlot_tb (s : State) (n m : Nat) (x : SlotS) : (s.setSlot n m x).tb = s.tb := rfl
@[simp] theorem setSlot_timers (s : State) (n m : Nat) (x : SlotS) : (s.setSlot n m x).timers = s.timers := rfl
@[simp] theorem setSlot_chans (s : State) (n m : Nat) (x : SlotS) : (s.setSlot n m x).chans = s.chans := rfl
@[simp] theorem setSlot_sds (s : State) (n m : Nat) (x : SlotS) : (s.setSlot n m x).sds = s.sds := rfl
@[simp] theorem setSlot_sdgs (s : State) (n m : Nat) (x : SlotS) : (s.setSlot n m x).sdgs = s.sdgs := rfl
@[simp] theorem setSlot_ads (s : State) (n m : Nat) (x : SlotS) : (s.setSlot n m x).ads = s.ads := rfl
@[simp] theorem setSlot_gcs (s : State) (n m : Nat) (x : SlotS) : (s.setSlot n m x).gcs = s.gcs := rfl
@[simp] theorem setSlot_srcs (s : State) (n m : Nat) (x : SlotS) : (s.setSlot n m x).srcs = s.srcs := rfl
@[simp] theorem setSlot_encs (s : State) (n m : Nat) (x : SlotS) : (s.setSlot n m x).encs = s.encs := rfl
@[simp] theorem setSlot_rows (s : State) (n m : Nat) (x : SlotS) : (s.setSlot n m x).rows = s.rows := rfl
@[simp] theorem setSlot_eacts (s : State) (n m : Nat) (x : SlotS) : (s.setSlot n m x).eacts = s.eacts := rfl
@[simp] theorem setSlot_irq (s : State) (n m : Nat) (x : SlotS) : (s.setSlot n m x).irq = s.irq := rfl
@[simp] theorem setSlot_irqKeep (s : State) (n m : Nat) (x : SlotS) : (s.setSlot n m x).irqKeep = s.irqKeep := rfl
@[simp] theorem setSlot_mems (s : State) (n m : Nat) (x : SlotS) : (s.setSlot n m x).mems = s.mems := rfl
@[simp] theorem setSlot_cask (s : State) (n m : Nat) (x : SlotS) : (s.setSlot n m x).cask = s.cask := rfl
@[simp] theorem setSlot_book (s : State) (n m : Nat) (x : SlotS) : (s.setSlot n m x).book = s.book := rfl
@[simp] theorem setSlot_fm (s : State) (n m : Nat) (x : SlotS) : (s.setSlot n m x).fm = s.fm := rfl
@[simp] theorem setSlot_str (s : State) (n m : Nat) (x : SlotS) : (s.setSlot n m x).str = s.str := rfl
@[simp] theorem setSlot_sec (s : State) (n m : Nat) (x : SlotS) : (s.setSlot n m x).sec = s.sec := rfl
@[simp] theorem setSlot_pmu (s : State) (n m : Nat) (x : SlotS) : (s.setSlot n m x).pmu = s.pmu := rfl
@[simp] theorem setSlot_tap (s : State) (n m : Nat) (x : SlotS) : (s.setSlot n m x).tap = s.tap := rfl
@[simp] theorem setSlot_resp (s : State) (n m : Nat) (x : SlotS) : (s.setSlot n m x).resp = s.resp := rfl
theorem slot_setSlot (s : State) (n m i j : Nat) (x : SlotS) :
    (s.setSlot n m x).slot i j = if 4 * i + j = 4 * n + m then x else s.slot i j := tget_tput _ _ _ _ _
@[simp] theorem slot_setSlot_same (s : State) (n m : Nat) (x : SlotS) : (s.setSlot n m x).slot n m = x := tget_tput_same _ _ _ _
@[simp] theorem core_setSlot (s : State) (n m : Nat) (x : SlotS) (j : Nat) : (s.setSlot n m x).core j = s.core j := rfl
@[simp] theorem trio_setSlot (s : State) (n m : Nat) (x : SlotS) (j : Nat) : (s.setSlot n m x).trio j = s.trio j := rfl
@[simp] theorem lane_setSlot (s : State) (n m : Nat) (x : SlotS) (j : Nat) : (s.setSlot n m x).lane j = s.lane j := rfl
@[simp] theorem timer_setSlot (s : State) (n m : Nat) (x : SlotS) (j : Nat) : (s.setSlot n m x).timer j = s.timer j := rfl
@[simp] theorem sd_setSlot (s : State) (n m : Nat) (x : SlotS) (j : Nat) : (s.setSlot n m x).sd j = s.sd j := rfl
@[simp] theorem sdg_setSlot (s : State) (n m : Nat) (x : SlotS) (j : Nat) : (s.setSlot n m x).sdg j = s.sdg j := rfl
@[simp] theorem ad_setSlot (s : State) (n m : Nat) (x : SlotS) (j : Nat) : (s.setSlot n m x).ad j = s.ad j := rfl
@[simp] theorem gc_setSlot (s : State) (n m : Nat) (x : SlotS) (j : Nat) : (s.setSlot n m x).gc j = s.gc j := rfl
@[simp] theorem src_setSlot (s : State) (n m : Nat) (x : SlotS) (j : Nat) : (s.setSlot n m x).src j = s.src j := rfl
@[simp] theorem enc_setSlot (s : State) (n m : Nat) (x : SlotS) (j : Nat) : (s.setSlot n m x).enc j = s.enc j := rfl
@[simp] theorem row_setSlot (s : State) (n m : Nat) (x : SlotS) (j : Nat) : (s.setSlot n m x).row j = s.row j := rfl
@[simp] theorem eact_setSlot (s : State) (n m : Nat) (x : SlotS) (j : Nat) : (s.setSlot n m x).eact j = s.eact j := rfl
@[simp] theorem memS_setSlot (s : State) (n m : Nat) (x : SlotS) (j : Nat) : (s.setSlot n m x).memS j = s.memS j := rfl
@[simp] theorem chan_setSlot (s : State) (n m : Nat) (x : SlotS) (i j : Nat) : (s.setSlot n m x).chan i j = s.chan i j := rfl
@[simp] theorem rd_setSlot (s : State) (n m : Nat) (x : SlotS) (r : Reg) (i j : Nat) : (s.setSlot n m x).rd r i j = s.rd r i j := rfl

@[simp] theorem wr_pending (s : State) (r : Reg) (i j : Nat) (v : Word) : (s.wr r i j v).pending = s.pending := rfl
@[simp] theorem wr_now (s : State) (r : Reg) (i j : Nat) (v : Word) : (s.wr r i j v).now = s.now := rfl
@[simp] theorem wr_free (s : State) (r : Reg) (i j : Nat) (v : Word) : (s.wr r i j v).free = s.free := rfl
@[simp] theorem wr_crPend (s : State) (r : Reg) (i j : Nat) (v : Word) : (s.wr r i j v).crPend = s.crPend := rfl
@[simp] theorem wr_mem (s : State) (r : Reg) (i j : Nat) (v : Word) : (s.wr r i j v).mem = s.mem := rfl
@[simp] theorem wr_chk (s : State) (r : Reg) (i j : Nat) (v : Word) : (s.wr r i j v).chk = s.chk := rfl
@[simp] theorem wr_vld (s : State) (r : Reg) (i j : Nat) (v : Word) : (s.wr r i j v).vld = s.vld := rfl
@[simp] theorem wr_cores (s : State) (r : Reg) (i j : Nat) (v : Word) : (s.wr r i j v).cores = s.cores := rfl
@[simp] theorem wr_trios (s : State) (r : Reg) (i j : Nat) (v : Word) : (s.wr r i j v).trios = s.trios := rfl
@[simp] theorem wr_lanes (s : State) (r : Reg) (i j : Nat) (v : Word) : (s.wr r i j v).lanes = s.lanes := rfl
@[simp] theorem wr_commits (s : State) (r : Reg) (i j : Nat) (v : Word) : (s.wr r i j v).commits = s.commits := rfl
@[simp] theorem wr_tb (s : State) (r : Reg) (i j : Nat) (v : Word) : (s.wr r i j v).tb = s.tb := rfl
@[simp] theorem wr_timers (s : State) (r : Reg) (i j : Nat) (v : Word) : (s.wr r i j v).timers = s.timers := rfl
@[simp] theorem wr_chans (s : State) (r : Reg) (i j : Nat) (v : Word) : (s.wr r i j v).chans = s.chans := rfl
@[simp] theorem wr_sds (s : State) (r : Reg) (i j : Nat) (v : Word) : (s.wr r i j v).sds = s.sds := rfl
@[simp] theorem wr_sdgs (s : State) (r : Reg) (i j : Nat) (v : Word) : (s.wr r i j v).sdgs = s.sdgs := rfl
@[simp] theorem wr_ads (s : State) (r : Reg) (i j : Nat) (v : Word) : (s.wr r i j v).ads = s.ads := rfl
@[simp] theorem wr_gcs (s : State) (r : Reg) (i j : Nat) (v : Word) : (s.wr r i j v).gcs = s.gcs := rfl
@[simp] theorem wr_srcs (s : State) (r : Reg) (i j : Nat) (v : Word) : (s.wr r i j v).srcs = s.srcs := rfl
@[simp] theorem wr_encs (s : State) (r : Reg) (i j : Nat) (v : Word) : (s.wr r i j v).encs = s.encs := rfl
@[simp] theorem wr_slots (s : State) (r : Reg) (i j : Nat) (v : Word) : (s.wr r i j v).slots = s.slots := rfl
@[simp] theorem wr_rows (s : State) (r : Reg) (i j : Nat) (v : Word) : (s.wr r i j v).rows = s.rows := rfl
@[simp] theorem wr_eacts (s : State) (r : Reg) (i j : Nat) (v : Word) : (s.wr r i j v).eacts = s.eacts := rfl
@[simp] theorem wr_irq (s : State) (r : Reg) (i j : Nat) (v : Word) : (s.wr r i j v).irq = s.irq := rfl
@[simp] theorem wr_irqKeep (s : State) (r : Reg) (i j : Nat) (v : Word) : (s.wr r i j v).irqKeep = s.irqKeep := rfl
@[simp] theorem wr_mems (s : State) (r : Reg) (i j : Nat) (v : Word) : (s.wr r i j v).mems = s.mems := rfl
@[simp] theorem wr_cask (s : State) (r : Reg) (i j : Nat) (v : Word) : (s.wr r i j v).cask = s.cask := rfl
@[simp] theorem wr_book (s : State) (r : Reg) (i j : Nat) (v : Word) : (s.wr r i j v).book = s.book := rfl
@[simp] theorem wr_fm (s : State) (r : Reg) (i j : Nat) (v : Word) : (s.wr r i j v).fm = s.fm := rfl
@[simp] theorem wr_str (s : State) (r : Reg) (i j : Nat) (v : Word) : (s.wr r i j v).str = s.str := rfl
@[simp] theorem wr_sec (s : State) (r : Reg) (i j : Nat) (v : Word) : (s.wr r i j v).sec = s.sec := rfl
@[simp] theorem wr_pmu (s : State) (r : Reg) (i j : Nat) (v : Word) : (s.wr r i j v).pmu = s.pmu := rfl
@[simp] theorem wr_tap (s : State) (r : Reg) (i j : Nat) (v : Word) : (s.wr r i j v).tap = s.tap := rfl
@[simp] theorem wr_resp (s : State) (r : Reg) (i j : Nat) (v : Word) : (s.wr r i j v).resp = s.resp := rfl
@[simp] theorem core_wr (s : State) (r : Reg) (i j : Nat) (v : Word) (n : Nat) : (s.wr r i j v).core n = s.core n := rfl
@[simp] theorem trio_wr (s : State) (r : Reg) (i j : Nat) (v : Word) (n : Nat) : (s.wr r i j v).trio n = s.trio n := rfl
@[simp] theorem lane_wr (s : State) (r : Reg) (i j : Nat) (v : Word) (n : Nat) : (s.wr r i j v).lane n = s.lane n := rfl
@[simp] theorem timer_wr (s : State) (r : Reg) (i j : Nat) (v : Word) (n : Nat) : (s.wr r i j v).timer n = s.timer n := rfl
@[simp] theorem sd_wr (s : State) (r : Reg) (i j : Nat) (v : Word) (n : Nat) : (s.wr r i j v).sd n = s.sd n := rfl
@[simp] theorem ad_wr (s : State) (r : Reg) (i j : Nat) (v : Word) (n : Nat) : (s.wr r i j v).ad n = s.ad n := rfl
@[simp] theorem gc_wr (s : State) (r : Reg) (i j : Nat) (v : Word) (n : Nat) : (s.wr r i j v).gc n = s.gc n := rfl
@[simp] theorem src_wr (s : State) (r : Reg) (i j : Nat) (v : Word) (n : Nat) : (s.wr r i j v).src n = s.src n := rfl
@[simp] theorem enc_wr (s : State) (r : Reg) (i j : Nat) (v : Word) (n : Nat) : (s.wr r i j v).enc n = s.enc n := rfl
@[simp] theorem row_wr (s : State) (r : Reg) (i j : Nat) (v : Word) (n : Nat) : (s.wr r i j v).row n = s.row n := rfl
@[simp] theorem eact_wr (s : State) (r : Reg) (i j : Nat) (v : Word) (n : Nat) : (s.wr r i j v).eact n = s.eact n := rfl
@[simp] theorem memS_wr (s : State) (r : Reg) (i j : Nat) (v : Word) (n : Nat) : (s.wr r i j v).memS n = s.memS n := rfl
@[simp] theorem chan_wr (s : State) (r : Reg) (i j : Nat) (v : Word) (n m : Nat) : (s.wr r i j v).chan n m = s.chan n m := rfl
@[simp] theorem slot_wr (s : State) (r : Reg) (i j : Nat) (v : Word) (n m : Nat) : (s.wr r i j v).slot n m = s.slot n m := rfl

/-- A register read after a register write: by address. -/
theorem rd_wr (s : State) (r q : Reg) (i j a b : Nat) (v : Word) :
    (s.wr r i j v).rd q a b = if q.addr a b = r.addr i j then v else s.rd q a b := tget_tput _ _ _ _ _

@[simp] theorem rd_wr_same (s : State) (r : Reg) (i j : Nat) (v : Word) : (s.wr r i j v).rd r i j = v :=
  tget_tput_same _ _ _ _

theorem rd_wr_ne (s : State) (r q : Reg) (i j a b : Nat) (v : Word) (h : q.addr a b ≠ r.addr i j) :
    (s.wr r i j v).rd q a b = s.rd q a b := tget_tput_ne _ _ _ _ _ h

@[simp] theorem putByte_pending (s : State) (a : Nat) (d : Byte) (v : BitVec 5) : (s.putByte a d v).pending = s.pending := rfl
@[simp] theorem putByte_now (s : State) (a : Nat) (d : Byte) (v : BitVec 5) : (s.putByte a d v).now = s.now := rfl
@[simp] theorem putByte_free (s : State) (a : Nat) (d : Byte) (v : BitVec 5) : (s.putByte a d v).free = s.free := rfl
@[simp] theorem putByte_regs (s : State) (a : Nat) (d : Byte) (v : BitVec 5) : (s.putByte a d v).regs = s.regs := rfl
@[simp] theorem putByte_crPend (s : State) (a : Nat) (d : Byte) (v : BitVec 5) : (s.putByte a d v).crPend = s.crPend := rfl
@[simp] theorem putByte_vld (s : State) (a : Nat) (d : Byte) (v : BitVec 5) : (s.putByte a d v).vld = s.vld := rfl
@[simp] theorem putByte_cores (s : State) (a : Nat) (d : Byte) (v : BitVec 5) : (s.putByte a d v).cores = s.cores := rfl
@[simp] theorem putByte_trios (s : State) (a : Nat) (d : Byte) (v : BitVec 5) : (s.putByte a d v).trios = s.trios := rfl
@[simp] theorem putByte_lanes (s : State) (a : Nat) (d : Byte) (v : BitVec 5) : (s.putByte a d v).lanes = s.lanes := rfl
@[simp] theorem putByte_commits (s : State) (a : Nat) (d : Byte) (v : BitVec 5) : (s.putByte a d v).commits = s.commits := rfl
@[simp] theorem putByte_tb (s : State) (a : Nat) (d : Byte) (v : BitVec 5) : (s.putByte a d v).tb = s.tb := rfl
@[simp] theorem putByte_timers (s : State) (a : Nat) (d : Byte) (v : BitVec 5) : (s.putByte a d v).timers = s.timers := rfl
@[simp] theorem putByte_chans (s : State) (a : Nat) (d : Byte) (v : BitVec 5) : (s.putByte a d v).chans = s.chans := rfl
@[simp] theorem putByte_sds (s : State) (a : Nat) (d : Byte) (v : BitVec 5) : (s.putByte a d v).sds = s.sds := rfl
@[simp] theorem putByte_sdgs (s : State) (a : Nat) (d : Byte) (v : BitVec 5) : (s.putByte a d v).sdgs = s.sdgs := rfl
@[simp] theorem putByte_ads (s : State) (a : Nat) (d : Byte) (v : BitVec 5) : (s.putByte a d v).ads = s.ads := rfl
@[simp] theorem putByte_gcs (s : State) (a : Nat) (d : Byte) (v : BitVec 5) : (s.putByte a d v).gcs = s.gcs := rfl
@[simp] theorem putByte_srcs (s : State) (a : Nat) (d : Byte) (v : BitVec 5) : (s.putByte a d v).srcs = s.srcs := rfl
@[simp] theorem putByte_encs (s : State) (a : Nat) (d : Byte) (v : BitVec 5) : (s.putByte a d v).encs = s.encs := rfl
@[simp] theorem putByte_slots (s : State) (a : Nat) (d : Byte) (v : BitVec 5) : (s.putByte a d v).slots = s.slots := rfl
@[simp] theorem putByte_rows (s : State) (a : Nat) (d : Byte) (v : BitVec 5) : (s.putByte a d v).rows = s.rows := rfl
@[simp] theorem putByte_eacts (s : State) (a : Nat) (d : Byte) (v : BitVec 5) : (s.putByte a d v).eacts = s.eacts := rfl
@[simp] theorem putByte_irq (s : State) (a : Nat) (d : Byte) (v : BitVec 5) : (s.putByte a d v).irq = s.irq := rfl
@[simp] theorem putByte_irqKeep (s : State) (a : Nat) (d : Byte) (v : BitVec 5) : (s.putByte a d v).irqKeep = s.irqKeep := rfl
@[simp] theorem putByte_mems (s : State) (a : Nat) (d : Byte) (v : BitVec 5) : (s.putByte a d v).mems = s.mems := rfl
@[simp] theorem putByte_cask (s : State) (a : Nat) (d : Byte) (v : BitVec 5) : (s.putByte a d v).cask = s.cask := rfl
@[simp] theorem putByte_book (s : State) (a : Nat) (d : Byte) (v : BitVec 5) : (s.putByte a d v).book = s.book := rfl
@[simp] theorem putByte_fm (s : State) (a : Nat) (d : Byte) (v : BitVec 5) : (s.putByte a d v).fm = s.fm := rfl
@[simp] theorem putByte_str (s : State) (a : Nat) (d : Byte) (v : BitVec 5) : (s.putByte a d v).str = s.str := rfl
@[simp] theorem putByte_sec (s : State) (a : Nat) (d : Byte) (v : BitVec 5) : (s.putByte a d v).sec = s.sec := rfl
@[simp] theorem putByte_pmu (s : State) (a : Nat) (d : Byte) (v : BitVec 5) : (s.putByte a d v).pmu = s.pmu := rfl
@[simp] theorem putByte_tap (s : State) (a : Nat) (d : Byte) (v : BitVec 5) : (s.putByte a d v).tap = s.tap := rfl
@[simp] theorem putByte_resp (s : State) (a : Nat) (d : Byte) (v : BitVec 5) : (s.putByte a d v).resp = s.resp := rfl

theorem dataAt_putByte (s : State) (a b : Nat) (d : Byte) (v : BitVec 5) :
    (s.putByte a d v).dataAt b = if b = a then d else s.dataAt b := tget_tput _ _ _ _ _

theorem devAt_putByte (s : State) (a b : Nat) (d : Byte) (v : BitVec 5) :
    (s.putByte a d v).devAt b = if b = a then v else s.devAt b := tget_tput _ _ _ _ _

end Sys2Proof.Laws
end

