-- ==== Sys2Proof/Laws/Memory.lean ====
section
/-! SUPPORT. Every memory operation keeps the memories canonical (R234–R241). -/

namespace Sys2Proof.Laws

open Sys2Proof.Machine

/-- Canonical memories, as three facts. -/
theorem memCanonical_iff (s : State) : Safety.memCanonical s = true ↔
    Tbl.wf memDef 0 s.mem = true ∧ Tbl.wf (fun _ => (0 : BitVec 5)) 0 s.chk = true ∧
      Tbl.wf (fun _ => (0 : BitVec 3)) 0 s.vld = true := by
  simp [Safety.memCanonical, Memory.wf, and_assoc]

/-- Only the three memory fields matter. -/
theorem memCanonical_of_eq {s t : State} (hm : t.mem = s.mem) (hc : t.chk = s.chk) (hv : t.vld = s.vld)
    (h : Safety.memCanonical s = true) : Safety.memCanonical t = true := by
  rw [memCanonical_iff] at *
  rw [hm, hc, hv]; exact h

theorem memCanonical_reset : Safety.memCanonical State.reset = true := by decide

theorem memCanonical_putByte (s : State) (a : Nat) (d : Byte) (v : BitVec 5) (h : Safety.memCanonical s = true) :
    Safety.memCanonical (s.putByte a d v) = true := by
  rw [memCanonical_iff] at *
  exact ⟨wf_tput _ _ _ _ h.1, wf_tput _ _ _ _ h.2.1, h.2.2⟩

/-- A fold of steps that each keep a property keeps it. -/
theorem foldl_keeps {β : Type} (p : State → Prop) (f : State → β → State) (hf : ∀ s x, p s → p (f s x)) :
    ∀ (l : List β) (s : State), p s → p (l.foldl f s) := by
  intro l
  induction l with
  | nil => intro s h; exact h
  | cons x l ih => intro s h; exact ih _ (hf _ _ h)

theorem forN_keeps (p : State → Prop) (n : Nat) (f : State → Nat → State) (hf : ∀ s i, p s → p (f s i)) (s : State)
    (h : p s) : p (s.forN n f) := foldl_keeps p f hf _ s h

theorem memCanonical_vld (s : State) (k : Nat) (v : BitVec 3) (h : Safety.memCanonical s = true) :
    Safety.memCanonical { s with vld := tput (fun _ => 0) s.vld k v } = true := by
  rw [memCanonical_iff] at *
  exact ⟨h.1, h.2.1, wf_tput _ _ _ _ h.2.2⟩

theorem memCanonical_openWord (s : State) (a : Nat) (h : Safety.memCanonical s = true) :
    Safety.memCanonical (s.openWord a) = true := by
  unfold State.openWord
  split
  · exact h
  · exact memCanonical_vld _ _ _ (forN_keeps (fun s => Safety.memCanonical s = true) _ _
      (fun s i hs => memCanonical_putByte s _ _ _ hs) _ h)

theorem memCanonical_flipApply (s : State) (who a n : Nat) (h : Safety.memCanonical s = true) :
    Safety.memCanonical (flipApply s who a n) = true := by
  unfold flipApply
  split
  · exact h
  · dsimp only
    split
    · exact memCanonical_of_eq (s := s.putByte _ _ _) rfl rfl rfl (memCanonical_putByte _ _ _ _ h)
    · exact h

/-- `t` has the memories of `s`. -/
def SameMem (s t : State) : Prop := t.mem = s.mem ∧ t.chk = s.chk ∧ t.vld = s.vld

theorem SameMem.rfl' (s : State) : SameMem s s := ⟨rfl, rfl, rfl⟩

theorem SameMem.trans' {s t u : State} (h : SameMem s t) (g : SameMem t u) : SameMem s u :=
  ⟨g.1.trans h.1, g.2.1.trans h.2.1, g.2.2.trans h.2.2⟩

theorem SameMem.canonical {s t : State} (h : SameMem s t) (c : Safety.memCanonical s = true) :
    Safety.memCanonical t = true := memCanonical_of_eq h.1 h.2.1 h.2.2 c

theorem sameMem_wr (s : State) (r : Reg) (i j : Nat) (v : Word) : SameMem s (s.wr r i j v) := ⟨rfl, rfl, rfl⟩
theorem sameMem_wrF (s : State) (r : Reg) (i j a b v : Nat) : SameMem s (s.wrF r i j a b v) := sameMem_wr _ _ _ _ _
theorem sameMem_setB (s : State) (r : Reg) (i j b : Nat) : SameMem s (s.setB r i j b) := sameMem_wr _ _ _ _ _
theorem sameMem_clrB (s : State) (r : Reg) (i j b : Nat) : SameMem s (s.clrB r i j b) := sameMem_wr _ _ _ _ _
theorem sameMem_incF (s : State) (r : Reg) (i j a b : Nat) : SameMem s (s.incF r i j a b) := sameMem_wr _ _ _ _ _

theorem sameMem_when (s : State) (b : Bool) (f : State → State) (h : SameMem s (f s)) : SameMem s (s.when b f) := by
  unfold State.when
  split
  · exact h
  · exact .rfl' s

theorem sameMem_forN (s : State) (n : Nat) (f : State → Nat → State) (h : ∀ t i, SameMem t (f t i)) :
    SameMem s (s.forN n f) := forN_keeps (SameMem s) n f (fun t i ht => ht.trans' (h t i)) s (.rfl' s)

/-- A record joins the queue and leaves the memories. -/
theorem sameMem_record (s : State) (code src : Nat) (p0 p1 p2 p3 : Word) : SameMem s (s.record code src p0 p1 p2 p3) := by
  unfold State.record
  dsimp only
  split
  · exact ⟨rfl, rfl, rfl⟩
  · exact (show SameMem s { s with book := _ } from ⟨rfl, rfl, rfl⟩).trans' (sameMem_when _ _ _ (sameMem_setB _ _ _ _ _))

theorem sameMem_rowBump (s : State) (k c : Nat) : SameMem s (rowBump s k c) := by
  unfold rowBump
  split
  · exact (sameMem_wr _ _ _ _ _).trans' (sameMem_setB _ _ _ _ _)
  · exact sameMem_wr _ _ _ _ _

/-- Reporting a row's event to the PMU leaves the memories. -/
theorem sameMem_countRow (s : State) (k cls e : Nat) (eng : Option Nat) : SameMem s (countRow s k cls e eng) :=
  sameMem_forN _ _ _ fun t c => sameMem_when t _ _ (sameMem_rowBump t k c)

theorem sameMem_countRowMem (s : State) (m who : Nat) : SameMem s (countRowMem s m who) := by
  unfold countRowMem
  split
  · split
    · exact sameMem_countRow _ _ _ _ _
    · split
      · exact .rfl' s
      · exact sameMem_countRow _ _ _ _ _
  · exact .rfl' s

theorem sameMem_countCe (s : State) (m w : Nat) : SameMem s (countCe s m w) :=
  ((sameMem_incF _ _ _ _ _ _).trans' (sameMem_wr _ _ _ _ _)).trans' (sameMem_setB _ _ _ _ _)

theorem sameMem_countUe (s : State) (m w : Nat) : SameMem s (countUe s m w) := by
  unfold countUe
  refine SameMem.trans' ?_ (sameMem_setB _ _ _ _ _)
  refine SameMem.trans' ?_ (sameMem_record _ _ _ _ _ _ _)
  refine SameMem.trans' ?_ (sameMem_setB _ _ _ _ _)
  split
  · exact sameMem_incF _ _ _ _ _ _
  · exact ((sameMem_incF _ _ _ _ _ _).trans' (sameMem_wr _ _ _ _ _)).trans' (sameMem_setB _ _ _ _ _)

theorem sameMem_toRepair (s : State) (m w : Nat) : SameMem s (toRepair s m w) := ⟨rfl, rfl, rfl⟩

/-- Reading memory counts and flags and leaves the memories. -/
theorem sameMem_noteRead (s : State) (a n : Nat) : SameMem s (noteRead s a n) := by
  unfold noteRead
  split
  · exact .rfl' s
  · dsimp only
    refine SameMem.trans' (SameMem.trans' (sameMem_when _ _ _ ?_) (sameMem_when _ _ _ ?_)) (sameMem_when _ _ _ ?_)
    · exact (sameMem_countCe _ _ _).trans' (sameMem_toRepair _ _ _)
    · exact (sameMem_countUe _ _ _).trans' (sameMem_toRepair _ _ _)
    · exact (sameMem_incF _ _ _ _ _ _).trans' (sameMem_setB _ _ _ _ _)

theorem memCanonical_clearValid (s : State) (m : Nat) (h : Safety.memCanonical s = true) :
    Safety.memCanonical (clearValid s m) = true := by
  rw [memCanonical_iff] at *
  exact ⟨h.1, h.2.1, wf_filter _ _ _ _ h.2.2⟩

/-- The end of a running clear keeps the memories canonical (R238). -/
theorem memCanonical_endVclr (s : State) (m : Nat) (h : Safety.memCanonical s = true) :
    Safety.memCanonical (endVclr s m) = true := by
  unfold endVclr
  split
  · exact (sameMem_clrB (clearValid s m) .memStat m 0 7).canonical (memCanonical_clearValid _ _ h)
  · exact h

theorem memCanonical_awaitClear (s : State) (a : Nat) (h : Safety.memCanonical s = true) :
    Safety.memCanonical (awaitClear s a) = true := by
  unfold awaitClear
  split
  · exact memCanonical_endVclr _ _ h
  · exact h

/-- A read ends the clears it waits for, counts and flags. -/
theorem memCanonical_readMem (s : State) (a n : Nat) (h : Safety.memCanonical s = true) :
    Safety.memCanonical (readMem s a n).2 = true := by
  have hw := memCanonical_awaitClear _ (a + (n - 1)) (memCanonical_awaitClear s a h)
  unfold readMem
  dsimp only
  split
  · exact ((sameMem_noteRead _ _ _).trans' (sameMem_noteRead _ _ _)).canonical hw
  · exact (sameMem_noteRead _ _ _).canonical hw

theorem memCanonical_putWord (s : State) (who a : Nat) (bs : List (Byte × Bool)) (h : Safety.memCanonical s = true) :
    Safety.memCanonical (putWord s who a bs) = true := by
  unfold putWord
  exact memCanonical_flipApply _ _ _ _ (foldl_keeps (fun s => Safety.memCanonical s = true) _
    (fun s p hs => memCanonical_putByte s _ _ _ hs) _ _ (memCanonical_openWord _ _ (memCanonical_awaitClear s a h)))

theorem memCanonical_writeWord (s : State) (who a : Nat) (bs : List (Byte × Bool)) (h : Safety.memCanonical s = true) :
    Safety.memCanonical (writeWord s who a bs) = true := by
  unfold writeWord
  refine memCanonical_putWord _ _ _ _ ?_
  split
  · exact (sameMem_countRowMem _ _ _).canonical h
  · exact h

theorem memCanonical_writeMem (s : State) (who a : Nat) (bs : List (Byte × Bool)) (h : Safety.memCanonical s = true) :
    Safety.memCanonical (writeMem s who a bs) = true := by
  unfold writeMem
  dsimp only
  split
  · exact memCanonical_writeWord _ _ _ _ h
  · exact memCanonical_writeWord _ _ _ _ (memCanonical_writeWord _ _ _ _ h)

theorem memCanonical_scrubByte (s : State) (a : Nat) (h : Safety.memCanonical s = true) :
    Safety.memCanonical (scrubByte s a) = true := by
  unfold scrubByte
  split
  split
  · exact memCanonical_putByte _ _ _ _ h
  · exact memCanonical_putByte _ _ _ _ h
  · exact h

theorem memCanonical_clearAllValid (s : State) (h : Safety.memCanonical s = true) :
    Safety.memCanonical (clearAllValid s) = true := by
  rw [memCanonical_iff] at *
  exact ⟨h.1, h.2.1, rfl⟩

theorem memCanonical_scrubWord (s : State) (m w : Nat) (fresh : Bool) (h : Safety.memCanonical s = true) :
    Safety.memCanonical (scrubWord s m w fresh) = true := by
  have step : ∀ t : State, Safety.memCanonical t = true → ∀ (b c : State → Bool),
      Safety.memCanonical (State.forN (State.when (State.when t (b t) (countCe · m w))
        (c (State.when t (b t) (countCe · m w))) (countUe · m w)) 8 (fun s i => scrubByte s (w + i))) = true := by
    intro t ht b c
    refine forN_keeps (fun s => Safety.memCanonical s = true) _ _ (fun s i hs => memCanonical_scrubByte s _ hs) _ ?_
    exact SameMem.canonical (SameMem.trans' (sameMem_when t _ _ (sameMem_countCe t m w))
      (sameMem_when _ _ _ (sameMem_countUe _ m w))) ht
  unfold scrubWord
  extract_lets v t has s1 s2
  have ht : Safety.memCanonical t = true := by
    show Safety.memCanonical (if v = 0 ∨ v = 7 then s else _) = true
    split
    · exact h
    · exact SameMem.canonical (sameMem_setB _ _ _ _ _) (memCanonical_vld _ _ _ h)
  split
  · exact step t ht (fun _ => fresh && has .corrected) (fun _ => fresh && has .uncorrectable)
  · exact ht

end Sys2Proof.Laws
end

