-- ==== Sys2Proof/Laws/Pipe.lean ====
section
/-! SUPPORT. What the shared operations of the pipe do: issue of an instruction that nothing holds, completion, and the
registers after it (R128–R134). -/

namespace Sys2Proof.Laws

open Sys2Proof.Machine

/-- The conditions of `Safety.up`, one by one. -/
theorem up_iff (s : State) : Safety.up s = true ↔
    s.timeOk = true ∧ s.fm.reset = .none ∧ s.fm.power = .run ∧ s.fm.inrst = [] := by
  simp [Safety.up, and_assoc]

theorem up_dark {s : State} (h : Safety.up s = true) : s.dark = false := by
  obtain ⟨-, hr, hp, -⟩ := (up_iff s).1 h
  simp [State.dark, hr, hp]

theorem up_inRst {s : State} (h : Safety.up s = true) (f : Nat) : s.inRst f = false := by
  obtain ⟨-, -, -, hi⟩ := (up_iff s).1 h
  simp [State.inRst, hi]

theorem up_regHeld {s : State} (h : Safety.up s = true) (r : Reg) (i : Nat) : s.regHeld r i = false := by
  obtain ⟨-, hr, hp, -⟩ := (up_iff s).1 h
  have hd := up_inRst h
  have hf : s.funcHeld r i = false := by
    unfold State.funcHeld
    cases regFunc r i with
    | none => rfl
    | some f => exact hd f
  simp [State.regHeld, hr, hp, hf]

/-- While the device runs a gated write acts. -/
theorem up_gate {s : State} (h : Safety.up s = true) (r : Reg) (i : Nat) (f : State → State) : s.gate r i f = f s := by
  simp [State.gate, up_regHeld h]

theorem up_coreOff {s : State} (h : Safety.up s = true) (c : Nat) : coreOff s c = false := by
  obtain ⟨-, -, hp, -⟩ := (up_iff s).1 h
  simp [coreOff, up_dark h, hp, up_inRst h]

/-- A byte that reads clean carries no poison. -/
theorem byteAt_clean {s : State} {a : Nat} (h : s.classAt a = .clean) : (s.byteAt a).2 = false := by
  unfold State.classAt at h
  unfold State.byteAt
  split
  · next hm => simp only [hm, if_true] at h; simp [h]
  · rfl

/-- The bytes of one 8-byte word lie in one memory. -/
theorem memOf_word {a k : Nat} (h : a % 8 + k < 8) : memOf (a + k) = memOf a := by
  have e (b c : Nat) (hb : b % 8 = 0) : (a + k - b) / (8 * c) = (a - b) / (8 * c) := by
    rw [← Nat.div_div_eq_div_mul, ← Nat.div_div_eq_div_mul, show (a + k - b) / 8 = (a - b) / 8 by omega]
  have e1 : (a + k - 0x10000000) / 0x40000 = (a - 0x10000000) / 0x40000 := e 0x10000000 0x8000 rfl
  have e2 : (a + k - 0x11000000) / 0x4000 = (a - 0x11000000) / 0x4000 := e 0x11000000 0x800 rfl
  have e3 : (a + k - 0x20000000) / 0x100000 = (a - 0x20000000) / 0x100000 := e 0x20000000 0x20000 rfl
  unfold memOf
  rw [e1, e2, e3]
  split_ifs <;> first | rfl | omega

/-- No clear runs in the memory, so the access waits for none. -/
theorem awaitClear_idle {s : State} {a : Nat} (h : clring s a = false) : awaitClear s a = s := by
  unfold clring at h
  unfold awaitClear
  split
  · next m hm => rw [hm] at h; simp only at h; simp [endVclr, h]
  · rfl

/-- Reading clean bytes of one word, in a memory that clears no valid bits, changes nothing. -/
theorem readMem_clean {s : State} {a n : Nat} (hn : a % 8 + n ≤ 8) (hc : clring s a = false)
    (h : ∀ i < n, s.classAt (a + i) = .clean) : (readMem s a n).2 = s := by
  have hw : awaitClear (awaitClear s a) (a + (n - 1)) = s := by
    rw [awaitClear_idle hc]
    refine awaitClear_idle ?_
    have hm : memOf (a + (n - 1)) = memOf a := memOf_word (by omega)
    unfold clring
    rw [hm]
    exact hc
  have h1 : Nat.min n (8 - a % 8) = n := Nat.min_eq_left (by omega)
  have hf : ∀ c : ByteClass, c ≠ .clean → (List.range n).any (fun i => s.classAt (a + i) == c) = false := by
    intro c hc
    rw [List.any_eq_false]
    intro i hi
    rw [List.mem_range] at hi
    simp [h i hi, Ne.symm hc]
  simp only [readMem, hw, h1, lt_irrefl, if_false, noteRead]
  split
  · rfl
  · simp [State.when, hf]

theorem memBase_mod (m : Nat) : memBase m % 8 = 0 := by
  unfold memBase
  split
  · omega
  · split <;> omega

/-- The fetch of a clean word changes nothing and goes on. -/
theorem fetch_clean {s : State} {c : Nat} (h : Safety.fetchesClean s c = true) : fetch s c = (s, true) := by
  simp only [Safety.fetchesClean, Bool.and_eq_true, beq_iff_eq] at h
  obtain ⟨⟨hpc, hj⟩, hw⟩ := h
  have hb := memBase_mod (2 * c)
  unfold fetch
  simp only [hpc, hj, ne_eq, not_true_eq_false, false_and, if_false]
  simp only [Safety.cleanWord, Bool.or_eq_true, Bool.and_eq_true, Bool.not_eq_true', List.all_eq_true, List.mem_range,
    beq_iff_eq] at hw
  generalize hm : (if c < 512 then memBase (2 * c) + (s.core c).pc else (s.core c).pc) = m at hw ⊢
  have hm8 : m % 8 + 4 ≤ 8 := by split at hm <;> omega
  rcases hw with hn | ⟨hc, ha⟩
  · simp [hn]
  · split
    · rfl
    · simp only [hc, Bool.false_eq_true, if_false]
      have hr := readMem_clean hm8 hc ha
      have hp : (readMem s m 4).1.any (·.2) = false := by
        have hw : awaitClear (awaitClear s m) (m + (4 - 1)) = s := by
          rw [awaitClear_idle hc]
          refine awaitClear_idle ?_
          unfold clring at hc ⊢
          rwa [memOf_word (by omega)]
        simp only [readMem, hw, State.bytesAt, List.any_map, List.any_eq_false, List.mem_range, Function.comp]
        intro i hi
        simp [byteAt_clean (ha i hi)]
      simp [hr, hp]

theorem fetch_issues {s : State} {c : Nat} (h : Safety.issues s c = true) : fetch s c = (s, true) := by
  simp only [Safety.issues, Safety.issuesBeside, Bool.and_eq_true] at h
  exact fetch_clean h.1.1.2

/-- What `Safety.issues` says of the core. -/
theorem issues_core {s : State} {c : Nat} (h : Safety.issues s c = true) :
    Safety.up s = true ∧ (s.core c).mode = .active ∧ (s.core c).halted = false ∧ (s.core c).far = none ∧
      (s.core c).long = none ∧ (s.core c).yielding = false ∧ (s.core c).divU = none ∧ (s.core c).corU = none ∧
      (s.core c).wait = 0 ∧
      (c < 512 ∨ dueEntry s (c - 512) = none) := by
  simp only [Safety.issues, Safety.issuesBeside, Safety.atIssue, Bool.and_eq_true, Option.isNone_iff_eq_none, beq_iff_eq,
    Bool.not_eq_true', Bool.or_eq_true, decide_eq_true_eq] at h
  obtain ⟨⟨⟨⟨⟨⟨⟨⟨⟨⟨h1, h2⟩, h3⟩, h4⟩, h5⟩, h6⟩, h7⟩, h8⟩, -⟩, h9⟩, h10⟩ := h
  exact ⟨h1, h2, h3, h4, h5, h6, h9, h10, h7, h8⟩

theorem ready_issues {s : State} {c : Nat} (h : Safety.issues s c = true) : ready s c = true := by
  obtain ⟨hu, hm, hh, hf, hl, hy, -, -, -, hd⟩ := issues_core h
  have hoff := up_coreOff hu c
  rcases hd with h1 | h1 <;> simp [ready, hoff, hm, hh, hf, hl, hy, h1]

/-- With both side units idle no register is busy and PRECISE holds nothing. -/
theorem hazard_issues {s : State} {c : Nat} (q : Need) (h : Safety.issues s c = true)
    (hd : q.drained = true → (s.core c).sb = []) : hazard s c q = false := by
  obtain ⟨-, -, -, -, -, -, h1, h2, hwt, -⟩ := issues_core h
  have hb : q.regs.any (busy (s.core c)) = false := by
    rw [List.any_eq_false]
    intro r _
    simp [busy, h1, h2]
  unfold hazard
  dsimp only
  rw [hb]
  have hs : (q.drained && !(s.core c).sb.isEmpty) = false := by
    cases hq : q.drained with
    | false => rfl
    | true => simp [hd hq]
  rw [hs]
  simp only [h1, h2, hwt, bne_self_eq_false, Option.isSome_none, Bool.or_false, Bool.false_or, Bool.and_false]
  cases q.unit with
  | none => rfl
  | some u => cases u <;> simp [unitBusy, h1, h2]

/-- An instruction that may stand here and that nothing holds is performed (R128–R134, R157). -/
theorem issue_issues {s : State} {c : Nat} (q : Need) (body : State → State) (h : Safety.issues s c = true)
    (hs : q.noSlot = true → (s.core c).slot = none) (hce : q.ceOnly = true → c < 512) (hsv : q.svOnly = true → 512 ≤ c)
    (hp : q.priv = true → 512 ≤ c → svPriv s (c - 512) = true) (hd : q.drained = true → (s.core c).sb = []) :
    issue s c q body = endStep (noteDone s (body s) c) c := by
  unfold issue
  rw [ready_issues h, fetch_issues h]
  have h1 : ((q.noSlot && (s.core c).slot.isSome) || (q.ceOnly && decide (512 ≤ c)) ||
      (q.svOnly && decide (c < 512))) = false := by
    cases hq : q.noSlot <;> cases hr : q.ceOnly <;> cases hv : q.svOnly <;> simp_all <;> omega
  have h2 : (q.priv && decide (512 ≤ c) && !svPriv s (c - 512)) = false := by
    cases hq : q.priv
    · simp
    · by_cases hc : 512 ≤ c
      · simp [hp hq hc]
      · simp [hc]
  simp only [Bool.not_true, Bool.false_eq_true, if_false, h1, h2, hazard_issues q h hd,
    hazard_issues { q with drained := false } h (by simp)]

/-- The register file after an instruction that completes with one result of distance 1 (R130, R131). -/
theorem seen_infl_cons (k : CoreS) (r : Nat) (p : Producer) (h : p.reg = r) (hr : r ≠ 0) (hd : p.idx + p.d ≤ k.seq) :
    seen { k with infl := p :: k.infl } r = (p.val, p.poison) := by
  unfold seen
  rw [if_neg hr]
  simp [h, hd]

end Sys2Proof.Laws
end

