-- ==== Sys2Proof/Tests/Slice0.lean ====
section
/-! SUPPORT. The model's own tests: words of the spec's encodings, what the well-formedness checks refuse, single steps with values
worked out from the rules, and for each statement with hypotheses the states and operands that meet them, clause by clause. -/

open Sys2Proof Sys2Proof.Machine Sys2Proof.Safety

namespace Sys2Proof.Tests

-- one proof at a time: each thread of the checker takes a deep stack
set_option Elab.async false

/-- The key of register `r`. -/
def A (r : Reg) (i : Nat := 0) (j : Nat := 0) : Nat := r.addr i j
/-- Reset done, the loop locked and time running, with the registers `r`. -/
def mk (r : List (Nat × Word)) : State := { State.reset with regs := r ++ [(0x6400000C, 1), (0x66000020, 1)] }
/-- As `mk`, with what stands behind the registers of the timers. -/
def U : State := mk []
def tmS0 : State :=
  { mk [(A .gtCtl 15, 1), (A .gtPer 15, 0x100), (A .gtCnt 15, 0x100), (A .gtCcfg 15 0, 1), (A .gtCcfg 15 1, 2 + 4 * 4), (A
    .gtCcfg 15 3, 3), (A .gtCmp 15 0, 0x100)] with
      timers := [(15, { per := 0x100 })] }
def tmS1 : State := mk [(A .gtCcfg 15 0, 2)]
def tmS3 : State := mk [(A .tbStat, 3), (A .tbCtl, 8)]
def tmS4 : State := { mk [(A .tbCtl, 8), (0x6400000C, 3), (A .lnCtl 191, 1)] with tb := { leaving := true, ofs := -5000 } }
def tmS5 : State := { mk [(A .tbCtl, 8)] with tb := { ofs := 4097 } }
def tmS6 : State := mk [(A .tbStat, 0)]
def tmS7 : State := { mk [(A .tbStat, 1)] with tb := { run := some (5, 3) }, now := 9 }
def tmS8 : State := { mk [(A .tbStat, 1)] with tb := { run := some (5, 31) }, now := 9 }
def tmS9 : State := { mk [(A .gtCcfg 15 0, 2)] with chans := [(60, { due := [7, 8] })] }
def tmS10 : State := { mk [(A .gtCcfg 15 0, 2)] with chans := [(60, { due := [7, 8], opens := [(512, 0)] })] }
def tmS11 : State := { mk [(A .gtCcfg 15 0, 2)] with chans := [(60, { due := [7, 8], opens := [(512, 0)], pend := some 5 })] }
def tmS12 : State := { tmS0 with timers := [(15, { per := 0x100, wrapDue := true })] }
def tmS13 : State := mk [(A .tbStat, 0), (A .secDbg, 3), (A .tbCtl, 4)]
def tmS15 : State := { mk [(A .tbCtl, 8)] with tb := { ofs := -5000, ofsIn := some 0 } }
def tmS16 : State := { mk [(A .gtCcfg 15 0, 2)] with chans := [(60, { due := [7] })] }
def tmS17 : State :=
  { mk [(A .gtCcfg 15 0, 2)] with
      chans := [(60, { opens := [(512, 3), (516, 3), (517, 9)] })], tb := { ticks := 1030 } }
def spS0 : State := { mk [(A .spmBound 63, 0x1000)] with rows := [(63, { first := true })] }
def spS1 : State := mk [(A .rwBind 63 3, 0x80000000)]
def spS2 : State := { mk [(A .spmBound 63, 0x1000)] with rows := [(63, { first := true, startMv := 720 })] }
def spS5 : State :=
  { mk [(A .spmBound 63, 0x1000)] with
      rows := [(63, { first := true, startMv := 720, lastWarn := some (1, false) })], tb := { ticks := 122 } }
def ce0 : CoreS :=
  { mode := .active, pc := 8, seq := 2, base := [(1, (5, false)), (2, (0x4020, false)), (3, (0x4012, false)), (4, (3, true)),
      (6, (0x10000016, false)), (7, (0x9000, false)), (8, (0x7FFFFFF0, false)), (31, (0x80000000, false))],
    infl := [{ idx := 0, d := 3, reg := 5, val := 77, poison := false }] }
def sv0 : CoreS :=
  { mode := .active, pc := 0x20002000, seq := 7, base := [(1, (5, false)), (2, (0x20001022, false)), (3, (0x20001012, false)),
      (5, (0x10000026, false)), (6, (13, false)), (8, (0x7FFFFFF0, false)), (9, (0x20001028, false)), (10, (0x20001010, false)),
      (31, (0x20003000, false))] }
/-- Engine 0 as `a`, supervisor 0 as `b`, the registers `r`. -/
def cs (a b : CoreS) (r : List (Nat × Word) := []) : State :=
  { mk (r ++ [(A .svCr 0 2, 3), (A .svCr 0 3, 0x20008000), (A .svCr 0 8, 0x20001000), (A .svCr 0 9, 0x20100000)]) with
    cores := [(0, a), (512, b)],
    mem := [(0x10000018, 0x44), (0x11004012, 0x85), (0x20001012, 0x85), (0x20002FC1, 0x60), (0x20002FC4, 0x21)],
    vld := [(0x10000010 / 8, 7), (0x11004010 / 8, 3), (0x20001010 / 8, 6), (0x20002000 / 8, 7)] ++
      (List.range 8).map (fun j => (0x20002FC0 / 8 + j, 7)) }
def sb1 : SbEntry := { idx := 0, commit := false, addr := 0x4020, bytes := [(1, false), (2, true), (3, false), (4, false)] }
def sb2 : SbEntry := { idx := 0, commit := false, addr := 0x20001022, bytes := [(0x91, false), (2, false)] }
def side1 : SideOp := { dest := 7, val := 9, poison := false, aex := 1, pc := 0, idx := 1 }
def far1 (u : Option (Nat × Word)) : FarOp := { kind := .load 4 false, addr := 0x10000016, rd := 6, d := 4, pc := 8, upd := u }
def far2 : FarOp := { kind := .load 2 true, addr := 0x20001012, rd := 6, d := 3, pc := 8, upd := none }
def lgSet : LongOp := { kind := .bset, rd := 9, ra := 10, rb := 6 }
def lgCrc : LongOp := { kind := .bcrc, rd := 9, ra := 10, rb := 6 }
def lgLoad : LongOp := { kind := .cload, rd := 9, ra := 10, rb := 6 }
def far3 : FarOp := { kind := .load 4 false, addr := Reg.tbStat.addr 0 0, rd := 6, d := 3, pc := 8, upd := none }
def far4 : FarOp := { far3 with addr := Reg.irqClaim.addr 0 0 }
def farSwap : FarOp := { kind := .swap 1 false, addr := 0x10000010, rd := 6, d := 3, pc := 8, upd := none }
def farCas : FarOp := { kind := .cas 1 false 0 false, addr := 0x10000010, rd := 6, d := 3, pc := 8, upd := none }
def farO1 : FarOp := { far4 with order := 1 }
def farO2 : FarOp := { far4 with order := 2 }
def sbByte : SbEntry := { sb1 with bytes := sb1.bytes.take 1 }
def sbSram : SbEntry := { sb1 with addr := 0x20001010 }
def sbRow : SbEntry := { sb1 with addr := 0x10000010 }
def sbRow1 : SbEntry := { sb1 with addr := 0x10040010 }
def sbCommit : SbEntry := { idx := 0, commit := true, addr := 0, bytes := [] }
def sbLane : SbEntry := { idx := 0, commit := false, addr := 0x60000014, bytes := wordBytes 77 false }
def coS0 : State := cs ce0 sv0
def coS1 : State := cs { ce0 with divU := some side1, corU := some side1 } sv0
def coS2 : State := cs { ce0 with sb := [sb1] } { sv0 with sb := [sb2] }
def coS3 : State := cs { ce0 with far := some (far1 none) } { sv0 with far := some far2 }
def coS5 : State := cs { ce0 with infl := [] } { sv0 with base := [(8, (0x7FFFFFF0, false))] ++ [(31, (0x20001FFC, false))] }
def coS6 : State := cs { ce0 with slot := some 0x104 } { sv0 with mode := .wfi, nmi := 0x14 }
def coS7 : State := cs ce0 { sv0 with mode := .wfi, psf := true }
def coS8 : State := cs { ce0 with mode := .stopped } { sv0 with mode := .wfi }
def coS9 : State :=
  { cs ce0 { sv0 with
      mode := .wfi } [(A .irqPrio 5, 9), (A .irqTgt 5, 1)] with irq := { edge := [(5, true)] } }
def coS10 : State := cs ce0 sv0 [(A .svCr 0 2, 0x12), (A .ceCr 0 1, 0x10005), (A .ceCr 0 2, 7), (A .ceCr 0 3, 0x80000400)]
def coS11 : State :=
  cs ce0 { sv0 with base := [(31, (0x20001FFC, false))] } [(A .svCr 0 2, 0x12), (A .ceCr 0 3, 0x80000400), (A .ceCr 0 4,
  0x80000444)]
def coS12 : State :=
  cs ce0 sv0 [(A .svCr 0 1, 0x10000), (A .svCr 0 2, 2), (A .svCr 0 32, 0x3F), (A .svCr 0 48, 0x40000000), (A .ceCr 0 1,
  0x10000)]
def coS13 : State := cs ce0 { sv0 with base := [(31, (0x20001FFC, false))] } [(A .svCr 0 2, 0x13)]
def coS14 : State := cs ce0 sv0 [(A .ceCr 0 16, 0x4000), (A .ceCr 0 20, 0x10008)]
def coS15 : State := cs ce0 { sv0 with long := some lgSet }
def coS19 : State := cs ce0 sv0 [(A .ceCr 0 16, 0x4000), (A .ceCr 0 20, 12)]
def coS22 : State := cs { ce0 with far := some far3 } { sv0 with far := some far4 }
def coS23 : State := cs { ce0 with far := some farSwap } { sv0 with far := some farCas }
def coS25 : State := cs ce0 { sv0 with long := some lgCrc }
def coS26 : State :=
  cs ce0 { sv0 with long := some lgLoad, base := [(6, (13, false)), (9, (0x20001028, false)), (10, (0x2000, false))] }
def coS28 : State := cs { ce0 with halted := true } sv0
def coS29 : State := cs { ce0 with sb := List.replicate 4 sb1 } { sv0 with sb := List.replicate 8 sb2 }
def coS30 : State := cs ce0 { sv0 with atM := true }
/-- Core `c` holds a store of `v` to its IRQ_DONE. -/
def doneHeld (c id v : Nat) (b : State) : State :=
  b.setCore c { b.core c with sb := [{ idx := id, commit := false, addr := Reg.irqDone.addr 0 0, bytes := wordBytes (wd v) false }] }
def irqS0 : State :=
  { mk [(A .irqPrio 5, 9), (A .irqTgt 5, 1), (A .irqPrio 977, 11), (A .irqTgt 977, 3)] with
      irq := { edge := [(5, true)] } }
def irqS1 : State :=
  { mk [(A .irqPrio 6, 9), (A .irqTgt 6, 3), (A .irqAexr 63, 0xFFFFF)] with
      irq := { edge := [(6, true)], serv := [(9, 1)], stack := [(0, [(9, 3), (4, 2)])] } }
def irqS2 : State := doneHeld 515 5 9 (doneHeld 512 9 9 irqS1)
def irqS4 : State := { irqS0 with cores := [(513, { far := some { far4 with since := 3 } })], now := 5 }
def irqS6 : State := { irqS0 with cores := [(513, { far := some farO1 }), (514, { far := some farO2 })] }
def irqS8 : State := { irqS0 with cores := [(513, { far := some farO1 })], regs := (A .tbStat, 0) :: irqS0.regs }
def dvS0 : State :=
  { mk [(A .lnCtl 3, 0x10001), (A .hwCtl, 1), (A .tbStat, 1), (A .hwPerl 3, 0x1234), (A .lnPer 3, 0x2000), (A .svCr 0 8,
    0x20001000), (A .svCr 0 9, 0x20100000)] with
      str := { pcieUp := true }, mem := [(0x20001000, 5), (0x20001009, 7)], vld := [(0x20001000 / 8, 7), (0x20001008 / 8, 5)] }
def dvS1 : State := { mk [(A .lnCtl 3, 0x50001), (A .tbStat, 3)] with str := { pcieUp := true }, tb := { edges := 31 } }
def mpS0 : State :=
  { mk [(A .memPos 0, 0x11000008), (A .memCfg 0, 0x21), (A .mpCtl, 1), (A .memEcnt 0, 5)] with
      mem := [(0x11000008, 7)], chk := [(0x11000008, 0x13), (0x11000009, 0x1F)], vld := [(0x11000008 / 8, 7)] }
def mpS1 : State :=
  { mk [(A .memPos 0, 0x11000008), (A .memCfg 0, 0x21), (A .mpCtl, 0x80000001), (A .memStat 0, 0xC4)] with
      mem := [(0x11000008, 7)], vld := [(0x11000008 / 8, 7)], mems := [(0, { lapFlagged := true })] }
def mpS2 : State := { mpS0 with now := 500000 }
def mpS6 : State := cs { ce0 with sb := [sbByte] } sv0 [(A .memFlip 1, 5)]
def runDone : TagRun := ⟨25, 0, 0x40, 0x100000007, 2, true⟩
def runLater : TagRun := ⟨26, 0, 0x44, 0x100000009, 0, false⟩
def runOpen : TagRun := ⟨25, 0, 0x40, 0x100000007, 2, false⟩
def pmS0 : State :=
  { mk [(A .pmuCtl 0, 0x3FF), (A .pmuCnt 0 1, 0xFFFFFFFF), (A .pmuRctl 3, 3), (A .pmuRcnt 3 1, 0xFFFFFFFF), (A .pmuDctl,
    0x00201001), (A .pmuDbase, 0x20002000), (A .pmuTag 3, 0x50000)] with
      pmu := { fix := [(0, 0x100000005)], tagged := [(3, [runDone, runLater])], events := 3, copy := [1, 2] } }
def pmS1 : State :=
  { mk [(A .pmuDctl, 0x00000001), (A .pmuDstat, 0x100), (A .pmuDbase, 0x20002000), (A .pmuTrec 3 0, 0x200000)] with
      pmu := { tagged := [(3, [runDone, runLater])], events := 3, copy := [1, 2] } }
def pmS2 : State := mk [(A .pmuDbase, 0x20002000)]
def pmS3 : State :=
  { pmS0 with
      cores := [(512, { halted := true }), (513, { halted := true }), (514, { halted := true }), (515,
      { halted := true, stepOne := true })] }
def pmS4 : State :=
  cs { ce0 with divU := some side1 } { sv0 with sb := [sbSram] } [(A .svCr 0 2, 1), (A .pmuCtl 0, 0x3FF), (A .pmuEvt 0 1, 3),
  (A .pmuEvt 0 2, 0x10), (A .pmuEvt 0 3, 0x13), (A .pmuEvt 0 4, 0x11), (A .pmuRctl 0, 3), (A .pmuRevt 0 1, 1)]
def pmS5 : State :=
  cs { ce0 with sb := [sbRow] } sv0 [(A .svCr 0 2, 1), (A .pmuCtl 0, 0x3FF), (A .pmuEvt 0 1, 3), (A .pmuEvt 0 2, 0x10), (A
  .pmuEvt 0 3, 0x13), (A .pmuEvt 0 4, 0x11), (A .pmuRctl 0, 3), (A .pmuRevt 0 1, 0x10)]
def pmS6 : State :=
  cs { ce0 with sb := [sbRow1] } sv0 [(A .pmuCtl 0, 0x3FF), (A .pmuEvt 0 0, 4), (A .pmuRctl 0, 3), (A .pmuRctl 1, 3), (A
  .pmuRevt 0 0, 0x30), (A .pmuRevt 1 0, 0x12)]
def pmS7 : State := { pmS0 with pmu := { tagged := [(3, [runOpen])] } }
def ck (c : CaskS) (r : List (Nat × Word)) : State := { mk r with cask := c }
def caS0 : State :=
  ck {} [(A .ckDirr 0, 0x002001), (A .ckDirr 7, 0x3010), (A .ckDir 1, 1), (A .ckDirr 1, 0x2002), (A .ckDir 2, 3)]
def caS1 : State := ck {} [(A .ckDirr 7, 0x3010), (A .ckStat, 0x40)]
def caS2 : State :=
  { ck { erase := [(1, [2])], data := [(8192, 5), (0x10000, 9)] } [(A .ckDirr 1, 0x1002), (A .ckDir 1, 6), (A .ckDir 2, 2),
    (A .ckDirr 2, 0x1012), (A .ckStat, 1), (A .ckLdcnt, 1), (A .ckLdsrc, 0x20001000), (A .ckLddst, 0xFFFFFF)] with
      mem := [(0x20001000, 9)], vld := [(0x20001000 / 8, 7)] }
def caS3 : State := ck { sw := some (1, 7, 8) } [(A .ckSwstat, 1), (A .rwCam 3, 0x200)]
def caS4 : State :=
  ck { data := [(0x3000, 9)], err := [(0x3000, 1)], repair := some 0x3000 } [(A .rackPos, 0x2FFF), (A .ckCtl, 0x80000010)]
def caS5 : State := ck { sw := some (1, 7, 8), tsValid := true } [(A .ckSwstat, 2), (A .ckDir 1, 3), (A .ckDirr 1, 0x1003)]
def caS23 : State := { caS0 with fm := { power := .hold } }
/-- The String with time running, `x` behind its registers. -/
def hd (r : List (Nat × Word)) (x : StrS) : State := { mk r with str := x }
def sx : StrS := { passThru := false }
def fr (a : List Word) : List Word := a ++ [frameCrc a]
def body1 : List Word := [0x00010201, 7, 8, 9, 10, 0x11, 0x12, 0x13, 0x14, 1, 0x30D4, 0] ++ List.replicate 32 3
def qf0 : QFrame := ⟨0, [6]⟩
def qf1 : QFrame := ⟨1, [5]⟩
def qf2 : QFrame := ⟨1, [9]⟩
/-- A BULK frame to `d` with address `a`. -/
def bulk (d a : Word) : List Word := fr [2 + 256 * d, 1, 2, a]
def stS0 : State :=
  hd [(A .stCtl, 1), (A .stLink 0, 5)]
  { sx with fresh := true, vote := true, cycle := 7, tuning := true, queue := [⟨1, [5]⟩, ⟨0, [6]⟩] }
def stS1 : State :=
  hd [(A .stCtl, 1), (A .stAddr, 0x0201), (A .stLink 1, 0x12340001), (A .stLink 0, 5)]
  { sx with posted := some 1, page := [1, 2, 3, 4, 5, 6, 7, 8, 9, 10, 11, 12, 13], bufs := [(0x9004, 7)], fell := [(0, true)], echoT1 := [(0, 5)], hops := [(0, [1, 2, 3])], tuning := true }
def stS2 : State := hd [(A .stCtl, 3)] { sx with fresh := true, cycle := 7, noFrame := 1 }
def stS3 : State :=
  hd [(A .stAddr, 0x0205), (A .stLink 0, 0xFF05), (A .stStat, 1)]
  { sx with cycle := 7, vote := true, noFrame := 4, queue := [⟨0, [5]⟩, ⟨0, [6]⟩] }
def stS4 : State :=
  hd [(A .stAddr, 0x0202), (A .stLink 0, 3), (A .lnCtl 3, 1)]
  { sx with cycle := 8, tuning := true, queue := [⟨0, [5]⟩, ⟨0, [6]⟩] }
def stS7 : State := hd [(A .stCtl, 1), (A .stStat, 1)] sx
def stS8 : State := { stS0 with str := { stS0.str with passThru := true } }
def stS10 : State := { stS0 with str := { stS0.str with tuneDue := true } }
def stS14 : State := (stS10).wrB .stLink 0 0 1 true
def stS24 : State :=
  { stS1 with
      str := { stS1.str with fwd := [qf1], queue := [qf2, qf0], qwait := [qf1, qf0], fwdLast := [(1, true)] } }
def stS25 : State := { stS1 with str := { stS1.str with fwd := [qf1, qf0], queue := [qf2, qf0], fwdLast := [(0, true)] } }
def stS32 : State := { stS0 with now := 100, str := { stS0.str with placed := some 0, cycle := 0 } }
def stS37 : State := { stS1 with str := { stS1.str with firstRet := some (1, body1), sentBody := body1 } }
def stS40 : State := { stS0 with now := 400000 - 300 }
def stS41 : State := { stS1 with now := 400000 - 400, str := { stS1.str with latched := some 0 } }
/-- The words of a command in the slot, and in a BULK frame to this device. -/
def slotCmd (seq cmd len first last arg : Nat) (pay : List Word) : List Word :=
  [wd (seq + 65536 * cmd), wd (len + 256 * first + 512 * last + 65536 * arg)] ++ pay
def hoS0 : State :=
  hd []
  { sx with slotResp := { seq := 7, valid := true, cmd := 3, status := 1 }, dbuf := [1, 2, 3], dopen := true, dpath := .slot, mboxSeq := some (.bulk, 9) }
def hoS1 : State :=
  { hd [(A .stCtl, 3), (A .stDsc, 1), (A .stAttn, 0x8002), (A .ckSwstat, 1)] { sx with
      bulkResp := { seq := 7, valid := true, cmd := 3, status := 1 }, mboxSeq := some (.slot, 9), bqWait := 3, brUsed := 2,
      perstn := false
      } with mem := [(0x20001000, 5)], chk := [(0x20001009, 3)], vld := [(0x20001000 / 8, 7), (0x20001008 / 8, 5)] }
def hoS3 : State := hd [(A .stDsc, 3), (A .lnCtl 3, 0xC)] { sx with reapply := true, dbuf := [0], pcieUp := true }
def hoS6 : State :=
  hd [(A .stDsc, 3), (A .lnCtl 3, 0xD)] { sx with dbuf := [0x54, 0x5A, 0x53, 0x44, 1, 0, 0xFF, 0, 16, 0, 0, 0, 0, 0, 0, 0] }
def hoS8 : State :=
  hd [(A .stDsc, 2), (A .lnCtl 3, 0x40000)]
  { sx with dbuf := [0x54, 0x5A, 0x53, 0x44, 1, 0, 0xFF, 0, 16, 0, 0, 0, 0, 0, 0, 0], fell := [(0, true)] }
def hoS97 : State := { hoS1 with str := { hoS1.str with slotCmd := slotCmd 7 0 0 0 0 0 [] } }
def hoS99 : State := { hoS1 with str := { hoS1.str with slotCmd := slotCmd 7 1 5 0 0 0 [0x20001006] } }
def hoS105 : State := { hoS1 with str := { hoS1.str with slotCmd := slotCmd 7 2 4 0 0 0 [0x20001000, 0x04030201] } }
def hoS109 : State := { hoS1 with str := { hoS1.str with slotCmd := slotCmd 7 3 4 1 0 0 [0x04030201] } }
def hoS115 : State := { hoS1 with str := { hoS1.str with slotCmd := slotCmd 7 4 0 0 0 0 [7, 0, 0xFFFFFFFF] } }
def hoS117 : State := { hoS1 with str := { hoS1.str with slotCmd := slotCmd 7 5 0 0 0 0 [] } }
def hoS119 : State := { hoS1 with str := { hoS1.str with slotCmd := slotCmd 7 6 0 0 0 7 [] } }
def hoS127 : State := { hoS1 with str := { hoS1.str with slotCmd := slotCmd 7 7 0 0 0 0 [] } }
def hoS129 : State := { hoS1 with str := { hoS1.str with slotCmd := slotCmd 7 8 0 0 0 0 [] } }
def hoS131 : State := { hoS1 with str := { hoS1.str with slotCmd := slotCmd 7 9 8 0 0 0 [1, 2, 3] } }
def hoS133 : State := { hoS1 with str := { hoS1.str with slotCmd := slotCmd 7 10 0 0 0 1 [] } }
def hoS137 : State := { hoS1 with str := { hoS1.str with slotCmd := slotCmd 7 11 8 0 0 0 [1, 2, 3] } }
def hoS139 : State := { hoS1 with str := { hoS1.str with slotCmd := slotCmd 7 32 0 0 0 0 [] } }
def fmS (f : FmS) (r : List (Nat × Word)) : State := { mk r with fm := f }
def bank : Tbl Byte := [(0, 0x54), (1, 0x42), (2, 0x4B), (3, 0x54), (4, 8), (9, 0x10), (11, 0x20), (13, 0x11), (15, 0x20)]
def ep0 : Episode := { start := 3, low := 3000, misses := 2, rows := 5 }
def kept0 : State :=
  { fmS {} [(A .fmRstat, 6), (A .fmPwr, 0x3C), (A .svCr 0 2, 1)] with cores := [(512, { mode := .active })], mem := [(0x2000100D, 0x20)], vld := [(0x20001008 / 8, 7)], sec := { imgLoad := 0x20001000, imgVer := true } }
/-- The image of `kept0` with its own digest recorded. -/
def kept1 : State :=
  { kept0 with
      sec := { kept0.sec with digest := some (Config.sha256 ((readLong kept0 0x20001000 256).1.map (·.1))) } }
def rsS0 : State := { U with sec := { keys := [(3, 5)], cls := [(3, 1)] }, mem := [(0x10000000, 5)] }
def rsS4 : State := fmS { reset := .device, haltSv0 := true } [(A .stDsc, 1)]
def rsS5 : State := fmS { reset := .powerOn, stoA := false } [(A .fmRstat, 0xFFFF0001)]
def rsS6 : State := fmS { reset := .off } []
def rsS7 : State := { fmS { inrst := [3, 71, 76] } [] with str := { perstn := false } }
def rsS9 : State := { fmS {} [(A .svCr 1 2, 0)] with cores := [(512, { mode := .active }), (513, { mode := .active })] }
def suS0 : State :=
  fmS { eps := [(0, some ep0), (5, some { ep0 with low := 10 })], down := [(4, true), (5, true)], probes := [3, 77] } [(A
  .fmCtl, 0x80000000), (A .stLink 0, 1), (A .stLink 1, 1), (A .gcMode 3, 3)]
def suS1 : State :=
  { fmS { eps := [(2, some ep0)], probes := [3, 77, 0] } [(A .fmStat 3, 0x0F), (A .stAttn, 1), (A .stLink 0, 1)] with
      str := { pcieUp := true }, cores := [(513, { mode := .active }), (514, { mode := .lockedOut })], now := 5000 }
def suS4 : State := fmS { reset := .off } []
def pwS0 : State := fmS {} [(A .secState, 2)]
def pwS6 : State := { fmS { power := .enteringIdle } [] with cores := [(512, { mode := .wfi }), (3, { mode := .stopped })] }
def pwS8 : State := fmS { power := .idle } []
def pwS11 : State := { fmS { power := .enteringHold } [] with srcs := [(3, true)], str := { pcieUp := true } }
def pwS13 : State :=
  { fmS { power := .hold, wake := 2 } [(A .tbStat, 2), (A .fmPwr, 0x108), (A .stDsc, 1)] with
      mem := [(0x10000000, 3)], vld := [(0x10000000 / 8, 7), (0x20000000 / 8, 7)] }
def pwS14 : State :=
  { fmS { power := .hold } [(A .tbStat, 2), (A .fmPwr, 0x100), (A .tbCtl, 0x18), (A .tbWakel, 1)] with
      tb := { wake := 1 } }
def sc (f : SecS) (r : List (Nat × Word)) : State := { mk r with sec := f }
def seS0 : State :=
  sc { keys := [(3, 5)], cls := [(3, 4)], kw := [(0, 5), (7, 9)], bankBusy := some (0, 0x20001000) } [(A .secState, 3), (A
  .secRoll, 7)]
def seS1 : State :=
  { sc
    { keys := [(3, 5)], cls := [(3, 4)], kw := [(0, 5), (7, 9)], chv := true, chal := 9, opening := some [1, 2, 3], bankBusy := some (1, 0x203FFF00), banks := [(0x100000, 5)] }
    [(A .secState, 1), (A .secStat, 0x400)] with
      mem := [(0x203FFF00, 6)], vld := [(0x203FFF00 / 8, 7)] }
def seS6 : State := sc { dirMask := 2 } [(A .secState, 2), (A .ckDir 2, 6), (A .secBankw, 4)]
def seS7 : State := mk [(A .secStat, 4)]
def seS9 : State := sc { bankBusy := some (0, 0x20001000) } [(A .secState, 3), (A .ckStat, 0x40)]
def dbBusy (s : State) : State := { s with tap := { s.tap with opAt := some s.now, status := 2, extest := true } }
def dbS0 : State := { U with fm := { power := .hold } }
def dbS2 : State :=
  { U with
      cores := [(513, { halted := true }), (3, { halted := true, stepOne := true })], mem := [(0x20001000, 6)], vld :=
      [(0x20001000 / 8, 7)] }
def dbS5 : State := dbBusy dbS0
def rec1 : Rec := { code := 5, p0 := 3 }
def rec2 : Rec := { code := 6, p0 := 3 }
def bk (b : BookS) (r : List (Nat × Word)) : State := { mk r with book := b }
def bankRead (s : State) (sel : Word) : State :=
  { s with book := { s.book with banks := [(0, { sel := sel, started := true }), (1, { sel := sel ||| 0x2000, started := true })] } }
def boS0 : State := bk { queue := [rec1, rec2] } []
def boS1 : State :=
  bk { queue := [rec1, rec2], circ := [(0, { rec1 with rpt := 65530 })], rptPend := [(0, 9)], perm := [(0, rec1)] } [(A
  .cbStat, 0x1001), (A .cbHead, 0x10001)]
def boS2 : State :=
  bk
  { queue := [rec1, rec2], circ := [(4094, { rec1 with rpt := 65530 })], opTime := 128, banks := [(0, { sel := 0x1000 }), (1, { sel := 0x2000 })] }
  [(A .cbStat, 0x1000001), (A .cbHead, 0xFFFF0FFF), (A .ckStat, 0x40)]
def boS3 : State :=
  bk
  { queue := [rec2, rec2], circ := [(4094, rec1)], rptPend := [(0, 9)], perm := [(0, rec1)], opTime := 128, banks := [(0, { sel := 0x1000 })] }
  [(A .cbStat, 0x1000001), (A .cbHead, 0xFFFF0FFF)]
def boS4 : State :=
  { bk { clear := some (some 5, [1, 2]), circ := [(0, rec1)] } [] with
      str := { bulkResp := { seq := 5, cmd := 11, status := 1 } } }
def boS5 : State :=
  bk { clear := some (none, [1, 2]), erasing := true, circ := [(0, rec1)] } [(A .cbStat, 0x1000001), (A .cbHead, 0xFFFF0FFF)]
def boS6 : State := bankRead boS1 0
def boS13 : State :=
  { boS5 with
      book := { boS5.book with clear := some (some 5, [1, 2]) }, str := { bulkResp := { seq := 5, cmd := 11, status := 1 } } }
def boS14 : State := { boS5 with fm := { power := .hold } }
def boS17 : State := boS3.wr .svCr 0 2 0
def ln (l : List (Nat × LaneS)) (r : List (Nat × Word)) (tr : List (Nat × TrioS) := []) (c : List CommitX := []) : State :=
  { mk (r ++ [(A .tbStat, 1)]) with lanes := l, trios := tr, commits := c }
def cm0 : CommitX := ⟨[3, 4, 5], []⟩
def cm1 : CommitX := ⟨[4], []⟩
def lr : LaneS := { duty := 0x400000, dtr := 128, dtf := 64, minp := 10, w := 1600, rise := 0, fall := 1600, driving := true }
/-- Lanes 3 and 4 of trio 1 enabled, as `a` and `b`. -/
def ed (a b : LaneS) (r : List (Nat × Word)) (p : TrioS := { per := 100 }) : State :=
  ln [(3, a), (4, b)] (r ++ [(A .lnCtl 3, 0x40003), (A .lnCtl 4, 1)]) [(1, p)]
/-- Trio 1 in up-down mode or not, running or not, at count `c`, with the events `ev` of its lanes. -/
def cnt (ud run : Bool) (c : Nat) (ev : Nat) (x : TrioS) : State :=
  ln [(3, { evCnt := 1 }), (4, { evCnt := 1, driving := true })]
    [(A .stDsc, 1), (A .lnCtl 3, wd (0x3 + 0x10000 * (if ud then 1 else 0) + 0x40000 * (if run then 1 else 0))), (A .lnCtl 4, 3),
      (A .lnCnt 3, wd c), (A .lnEvt 3, wd ev), (A .lnEvt 4, wd ev)] [(1, { x with per := 100 })] [cm0]
def laS0 : State := ln [] [(A .stDsc, 1), (A .lnDuty 3, 0x400000), (A .lnDtr 4, 7)] [] [cm0]
def laS1 : State :=
  ln [] [(A .stDsc, 1), (A .lnCtl 3, 0x50041), (A .lnCtl 4, 3), (A .lnDuty 3, 0x400000), (A .lnEvt 4, 0x17000000)] [] [cm0,
  cm1]
def laS2 : State :=
  ln [(3, { evCnt := 3, driving := true, hOn := true, outH := .on }), (4,
  { driving := true, lOn := true, high := true, trips := 1 })] [(A .lnCtl 3, 0x50041), (A .lnCtl 4, 3), (A .lnCtl 0,
  0x30000), (A .lnPer 3, 77), (A .lnEvt 3, 0x37000000), (A .lnEvt 4, 0x37000000)] [(0,
  { perPend := some 100, armed := true }), (1, { elapsed := 100 })] [cm0]
def laS3 : State :=
  ln [] [(A .stDsc, 1), (A .muSto, 4), (A .rwTrios 5, 0x40), (A .lnCnt 0, 0x10), (A .lnOvr 4, 0xA3)] [(0,
  { perPend := some 100, armed := true })] [cm1]
def laS4 : State := ln [] [(A .stDsc, 1), (A .rwTrios 5, 0x40), (A .hwCtl, 1)]
def laS25 : State := { (cnt false false 50 0 {}) with regs := [] }
def laS40 : State :=
  { cnt false true 0x32 0 { elapsed := 50 } with
      commits := [⟨[3], []⟩], regs := [(A .lnCtl 3, 0x40003), (A .lnCtl 4, 0x3), (A .lnDuty 4, 0x00140005), (A .lnPer 3, 30)]
      ++ (cnt false true 0x32 0 {}).regs }
def laS42 : State :=
  { cnt false true 0x32 0 { elapsed := 50 } with
      commits := [⟨[3], []⟩], regs := [(A .lnCtl 3, 0x60003), (A .lnCtl 4, 0x3), (A .lnDuty 4, 0x00140005), (A .lnPer 3, 30)]
      ++ (cnt false true 0x32 0 {}).regs }
def edS0 : State := ed lr lr []
def edS1 : State := ed { lr with w := 0, high := true, refresh := .lowOn } { lr with w := 6400, dt := .toLow } []
def edS2 : State := ed { lr with w := 700, primed := true } { lr with w := 100, dt := .toHigh } []
def edS4 : State := ed { lr with w := 700 } { lr with w := 100 } [(A .lnCtl 3, 0x40023), (A .lnCtl 4, 0x23)]
def edS5 : State :=
  ed { lr with w := 6200, riseDone := true, hOn := true, high := true, dt := .toLow, swap := true }
  { lr with w := 6300, fall := 6300, lowStart := some 20, refresh := .lowOn } []
def edS7 : State :=
  ed { lr with w := 6200, riseDone := true, hOn := true, high := true, fall := 6300 }
  { lr with w := 6300, riseDone := true, fall := 6300, dtf := 0 } [(A .lnCtl 3, 0x40023), (A .lnCtl 4, 0x23), (A .lnRefn 4,
  1)]
def edS11 : State :=
  ed { lr with w := 6400, high := true } { lr with w := 6300, riseDone := true, rise := 10, fall := 6310 } [(A .lnCtl 3,
  0x40023), (A .lnCtl 4, 0x23)]
def edS13 : State := ed lr lr [(A .lnCtl 3, 0x10003)]
def edS14 : State :=
  ed { lr with w := 0 } { lr with w := 700, riseDone := true, hOn := true, high := true, rise := 0, fall := 1600 } [(A .lnCtl
  4, 0x23)]
def edS15 : State := ed { lr with rise := 100 } { lr with rise := 6000, riseDone := true, fall := 6300 } []
def edS16 : State := ed { lr with offAt := some 30 } { lr with offAt := some 300 } []
def edS17 : State := ed { lr with dt := .toLow, ends := some 300 } { lr with dt := .toHigh, ends := some 63 } []
def edS18 : State := { edS0 with trios := [(1, { per := 100, elapsed := 100 })] }
def edS26 : State := { edS5 with trios := [(1, { per := 100, elapsed := 98 })] }
def edS28 : State := { edS7 with trios := [(1, { per := 100, elapsed := 98 })] }
def edS32 : State := { edS11 with trios := [(1, { per := 100, elapsed := 98 })] }
def edS38 : State := { edS1 with trios := [(1, { per := 100, elapsed := 98 })], regs := (A .tbStat, 0) :: edS1.regs }
def edS39 : State :=
  ed { lr with offAt := some 30, riseDone := true, high := true } { lr with offAt := some 300, w := 0, high := true } [(A
  .lnCtl 3, 0x40003)] { per := 100, elapsed := 40 }
def sd (r : List (Nat × Word)) : State := mk (r ++ [(A .tbStat, 1)])
def win1 : SdWin := ⟨6, 6, false⟩
def win2 : SdWin := ⟨5, 3, true⟩
def win3 : SdWin := ⟨9, 300, false⟩
def nowAt (n : Nat) (s : State) : State := { s with now := BitVec.ofNat 64 n, tb := { s.tb with ticks := n } }
def snS0 : State :=
  sd [(A .stDsc, 1), (A .sdClk 0, 1), (A .sdFlt 0, 0x0A021), (A .sdCflt 0, 0x421), (A .sdChi 0, 3), (A .sdClo 0, 0xFFFFD), (A
  .sdStat 0, 0xFF)]
def snS1 : State :=
  { sd [(A .sdClk 0, 3), (A .sdFlt 0, 0xA021), (A .sdCflt 0, 0x4021), (A .sdChi 0, 3), (A .sdClo 0, 0xFFFFD), (A .sdGstat 0,
    0x2000)] with
      sds := [(0, { beyond := 1 }), (191, { within := 3 })], srcs := [(128, true)] }
def snS2 : State :=
  sd [(A .stDsc, 1), (A .sdClk 0, 3), (A .sdFlt 0, 0x0A020), (A .sdFlt 1, 1), (A .sdGstat 0, 0x4000), (A .sdWin 0, 0x55), (A
  .sdChi 0, 0x80000), (A .sdClo 0, 0x7FFFF), (A .sdCflt 0, 0x21)]
def snS4 : State := { sd [(A .adCtl 0, 5), (A .adStat 0, 1)] with ads := [(0, { step := 1, seqs := 7 })] }
def snS9 : State :=
  { nowAt 320 (sd [(A .sdClk 0, 1 + 4 * 20), (A .sdFlt 0, 0x0A021), (A .sdStat 0, 0x1FF)]) with
      sds := [(0, { first := some 19200 })] }
def snS11 : State :=
  { nowAt 640 (sd [(A .sdClk 0, 1 + 4 * 20), (A .sdFlt 0, 0x0A021), (A .sdStat 0, 0x0FF), (A .sdWin 0, 0x100000), (A .sdGstat
    0, 1280)]) with
      sds := [(0, { wins := [win2, win1] })] }
def snS13 : State :=
  { nowAt 10 (sd [(A .sdClk 0, 1 + 4 * 20), (A .sdFlt 0, 0x0A021), (A .sdWin 0, 0x100500), (A .sdGstat 0, 1280)]) with
      sds := [(0, { wins := [win3], beyond := 16 })] }
def snS16 : State :=
  nowAt 7 (sd [(A .sdClk 0, 1 + 4 * 20), (A .sdFlt 0, 0x0A021), (A .sdWin 0, 0x100000), (A .sdGstat 0, 1280)])
def snS17 : State :=
  { nowAt 320 (sd [(A .sdClk 0, 3), (A .sdFlt 0, 0xA021), (A .sdCflt 0, 0x4021), (A .sdChi 0, 3), (A .sdClo 0, 0xFFFFD), (A
    .sdGstat 0, 0x2000)]) with
      sds := [(0, { beyond := 16, within := 16 })], srcs := [(128, true)] }
def snS18 : State := { sd [(A .adCtl 0, 1), (A .stDsc, 1)] with ads := [(0, { due := [7], last := some 7 })] }
def snS19 : State := { nowAt 7 (sd [(A .adCtl 0, 1), (A .stDsc, 1)]) with ads := [(0, { due := [7, 8], last := some 6 })] }
def snS27 : State := { snS0 with sds := [(0, { cnext := 5, next := 9, same := some 0 })] }
def snS28 : State := { snS0 with sds := [(0, { same := some 0 })], sdgs := [(0, { bits := 256 })] }
def snS30 : State := { snS2 with sdgs := [(0, { ok := true, bits := 7 })] }
def snS33 : State :=
  { nowAt 640 (sd [(A .sdClk 0, 1 + 4 * 20), (A .sdFlt 0, 0x0A021), (A .sdWin 0, 0x100003), (A .sdGstat 0, 1280)]) with
      sds := [(0, { wins := [win2, win3], first := some 1900 })] }
def snS34 : State := nowAt 700 (sd [(A .sdClk 0, 3), (A .sdFlt 0, 0xA021), (A .sdCflt 0, 0x4021)])
def muBase : List (Nat × Word) :=
  [(A .tbStat, 1), (A .muRoute 0 0, 3), (A .muRoute 1 0, 3), (A .muRoute 415 2, 1), (A .muMask 3 0, 3), (A .muMask 4 2, 1), (A .muLine 1, 2),
    (A .lnCtl 3, 0x40007), (A .lnCtl 4, 0x9), (A .gcMode 0, 3), (A .gcMode 63, 0x203)]
def muS0 : State :=
  mk [(A .muRoute 0 0, 3), (A .muRoute 415 2, 1), (A .muMask 3 0, 3), (A .muMask 4 2, 1), (A .muLine 1, 2), (A .lnCtl 3, 3),
  (A .lnCtl 4, 1), (A .muSafe 4, 2), (A .muSto, 0xA0000)]
def muS1 : State :=
  { mk [(A .muRoute 0 0, 3), (A .muRoute 415 2, 1), (A .muMask 3 0, 3), (A .muMask 4 2, 1), (A .muLine 1, 2), (A .lnCtl 3,
    3), (A .lnCtl 4, 1), (A .muLstat 0, 1), (A .muLstat 1, 3), (A .muTripcfg 0, 3), (A .muTripcfg 15, 1), (A .gcMode 0, 3),
    (A .muSto, 0xC)] with
      srcs := [(0, true), (320, true)], lanes := [(3, { trips := 3 })], gcs := [(0, { hi := true, setL := true })] }
def muS2 : State :=
  { mk [(A .muCtl, 1), (A .muLine 0, 3), (A .muLstat 0, 2), (A .muMask 3 0, 3), (A .gcMode 63, 0x103), (A .stDsc, 1), (A
    .muSto, 0xA0004)] with
      fm := { stoA := false }, srcs := [(402, true)] }
def muS3 : State :=
  { mk [(A .muLine 0, 7), (A .muLstat 0, 2), (A .muMask 3 0, 3), (A .gcMode 63, 0x103), (A .muSto, 0xA0004)] with
      fm := { stoClearing := true, stoRearm := true }, gcs := [(0, { hold := true })] }
def muS9 : State := { mk muBase with fm := { power := .hold }, gcs := [(0, { hi := true })] }
def muS12 : State :=
  { mk (muBase ++ [(A .lnOvr 3, 0x20)]) with
      lanes := [(3, { outH := .on, outL := .off }), (4, { outH := .off, outL := .z })], tap := { extest := true } }
def muS15 : State :=
  { mk [(A .muTripcfg 15, 2), (A .muTripcfg 0, 5)] with
      fm := { tripOn := [(0, 40)] }, srcs := [(335, true)] }
/-- Ports 0 and 5 as `x`, the registers `r`, at tick `n`. -/
def encIn (x : EncS) (r : List (Nat × Word)) (n : Nat := 1000) : State :=
  { mk (r ++ [(A .tbStat, 1), (A .stDsc, 1)]) with encs := [(0, x), (5, x)], now := BitVec.ofNat 64 n, tb := { ticks := n } }
def enS0 : State := mk [(A .epCfg 0, 1), (A .tbStat, 1)]
def enS4 : State :=
  { mk [(A .epCfg 0, 3), (A .epCfg 5, 3), (A .epStat 5, 0x200), (A .epSsi 5, 0xA018)] with
      encs := [(0, { frame := true })] }
def enS6 : State := { U with fm := { power := .hold, inrst := [66] } }
def enS11 : State :=
  encIn { frame := true, t0 := 500 } [(A .epCfg 0, 3), (A .epSsi 0, 0x518), (A .epStat 0, 0x200), (A .epCfg 5, 3), (A .epSsi
  5, 0xA505)]
def enS12 : State :=
  encIn { frame := true, t0 := 0 } [(A .epCfg 0, 3), (A .epSsi 0, 0x505), (A .epStat 0, 0x200), (A .epCfg 5, 3), (A .epSsi 5,
  0xA505)]
def enS13 : State :=
  encIn { t0 := 0 } [(A .epCfg 0, 3), (A .epSsi 0, 0x505), (A .epStat 0, 0x200), (A .epStat 5, 0x200), (A .epCfg 5, 3), (A
  .epSsi 5, 0xA505)] 20000
def enS14 : State :=
  encIn { t0 := 0, openRx := 8 } [(A .epCfg 0, 3), (A .epSsi 0, 0x505), (A .epStat 0, 0x200), (A .epStat 5, 0x200), (A .epCfg
  5, 3), (A .epSsi 5, 0xA505)] 10040
def enS17 : State :=
  encIn { t0 := 0, d := false, dSince := 998 } [(A .epCfg 0, 0x33), (A .epSsi 0, 0x505), (A .epStat 0, 0x200), (A .epStat 5,
  0x200), (A .epCfg 5, 0x13), (A .epSsi 5, 0xA505)]
def enS18 : State := { enS11 with tap := { extest := true } }
def enS25 : State :=
  encIn { a := false, b := true, edges := [(5,0,true)], hist := [(3, 0, false)] } [(A .epCfg 0, 0x1), (A .epPos 0, 7), (A
  .gtCcfg 3 2, 10)] 6
def enS30 : State :=
  encIn { a := false, b := false, edges := [(5,2,true)] ++ [(7,1,false)], hist := [(3, 0, false)] } [(A .epCfg 0, 0x109), (A
  .epPos 0, 7), (A .gtCcfg 3 2, 10)] 6
def enS33 : State :=
  encIn { a := false, b := true, edges := [(5,0,true)], hist := [(3, 0, false)] } [(A .epCfg 0, 0x5), (A .epPos 0, 7), (A
  .gtCcfg 3 2, 10)] 6
def enS41 : State :=
  encIn { a := false, b := true, edges := [(5,0,true)], hist := [(3, 0, false)] } [(A .epCfg 0, 0x7), (A .epPos 0, 7), (A
  .gtCcfg 3 2, 10)] 6
def enS47 : State :=
  encIn { a := false, b := true, edges := [(5,0,true)], hist := [(3, 0, false)] } [(A .epCfg 0, 0x3), (A .epPos 0, 7), (A
  .gtCcfg 3 2, 10)] 6
def act0 : OpenAct :=
  { trig := 0x500000003, since := 0x500000003, mpos := 9, vel := 3, vint := none, stale := false, newv := false, sd := 0, ep := false, ad := false,
    cam := false, setp := 0, setv := 0, camErr := false, camPoison := false }
def act1 : OpenAct := { act0 with vint := some 1, sd := 15, ep := true }
def rw (sl : List (Nat × SlotS)) (r : List (Nat × Word)) : State := { mk r with slots := sl }
def act2 : OpenAct := { act0 with trig := 3, since := 3, block := some [], newv := true }
def act3 : OpenAct := { act0 with trig := 2, since := 2, newv := true, sd := 15, ep := true }
def act4 : OpenAct := { act3 with newv := false }
/-- Row 0 with slot 0 paired on engines 0 and 1 as `b`, their parts `e`, the cores `c`. -/
def rwPair (e : List (Nat × EngAct)) (b : SlotS) (c : List (Nat × CoreS) := []) : State :=
  { rw [(0, b)] [(A .tbStat, 1), (A .rwBind 0 0, 0x80018005), (A .rwSstat 0 0, 2), (A .rwCtl 0, 7), (A .rwDl 0 0, 100)] with
    now := 200, eacts := e, cores := c }
def held0 : HeldAct := { since := 7, p := 0, q := 1, stores := [(0x60000000, 1)] }
def rwRun : SlotS := { run := some (7, false), began := some (0, 1) }
def halted0 : CoreS := { mode := .active, halted := true }
def active0 : CoreS := { mode := .active }
def camAct0 : OpenAct := { act1 with mpos := 0, vel := 0x40000 }
/-- Slot 1 of the Cask with one cam table of four points, its first slot's activation `a`. -/
def cam (a : OpenAct) (err : List (Nat × BitVec 80) := []) : State :=
  { rw [(0, { acts := [a] })] [(A .rwBind 0 0, 0x80001005), (A .rwCam 0, 1), (A .ckDirr 1, 0x1002), (A .ckDirh 1, 2)] with
    cask := { data := [(9220, 0x00000400020007D0), (10192, 0x0001000000000064), (10193, 0xFFFF0000000000C8), (10194, 0x0000800000000258), (10195, 0xFFFFFFFF80000000)], err := err } }
def rwS0 : State :=
  rw [(0, { acts := [act0] })] [(A .rwBind 0 0, 0x80001005), (A .rwCam 0, 1), (A .rwFloor 0, 5), (A .stDsc, 1)]
def rwS1 : State :=
  rw [(0, { acts := [act1, act0], count := 0xFFFF }), (1, { acts := [act0] })] [(A .rwBind 0 0, 0x80018005), (A .rwBind 0 1,
  0x80002005), (A .rwSstat 0 0, 2), (A .rwWait 0 1, 0x800)]
def rwS2 : State :=
  rw [(0, { acts := [act1, act0], count := 0xFFFF }), (1, { acts := [act0] })] [(A .rwBind 0 0, 0x80001005), (A .rwBind 0 1,
  0x80002005), (A .rwWait 0 1, 0x800), (A .rwTrios 2, 0x40), (A .rwCtl 0, 3)]
def rwS3 : State :=
  { rw [(0, { lostP := true }), (1, { run := some (7, false) }), (252, { run := some (8, false), began := some (505, 506) }),
    (253, { run := some (8, true), acts := [act1] })] [(A .rwBind 0 0, 0x80001005), (A .rwBind 0 1, 0x8002B005), (A .rwBind
    63 0, 0x80029000), (A .rwSstat 63 0, 2)] with
      eacts := [(3, { inAct := true }), (505, { inAct := true }), (506, { inAct := true, committed := true })] }
def rwS5 : State := rw [(253, { acts := [act0] })] [(A .rwWait 63 1, 0x800)]
def rwS7 : State := rwPair [(0, { inAct := true }), (1, { inAct := true, committed := true })] rwRun
def rwS8 : State := rwPair [(0, { inAct := true }), (1, { inAct := true })] rwRun
def rwS9 : State := rwPair [(0, { inAct := true, committed := true }), (1, { inAct := true })] rwRun
def rwS11 : State := rwPair [(0, { inAct := true }), (1, { inAct := true, committed := true })] rwRun [(0, halted0)]
def rwS14 : State := { rwPair [(0, { inAct := true }), (1, { inAct := true })] rwRun with now := 100 }
def rwS15 : State := rwPair [(0, { inAct := true })] { acts := [act3] } [(0, halted0)]
def rwS19 : State := rwPair [] { acts := [act3] } [(0, active0), (1, active0)]
def rwS22 : State := { rwPair [] { acts := [act3] } [] with fm := { power := .hold } }
def rwS23 : State :=
  { rw [(0, { acts := [{ act3 with
      newv := false }] })] [(A .tbStat, 1), (A .rwBind 0 0, 0x80001005)] with now := 200 }
def rwS24 : State :=
  { rw [(0, { acts := [act0] })] [(A .tbStat, 1), (A .rwBind 0 0, 0x80001005), (A .rwWait 0 0, 0x800)] with
      now := 5000 }
def rwS25 : State :=
  { rw [(0, { acts := [act0] })] [(A .tbStat, 1), (A .rwBind 0 0, 0x80001005), (A .rwDl 0 0, 0x1FFF)] with
      now := 4790 }
def rwS26 : State :=
  { rw [(0, { run := some (4, false) })] [(A .tbStat, 1), (A .rwBind 0 0, 0x80001005), (A .rwDl 0 0, 0x1FFF)] with
      now := 4788, eacts := [(0, { inAct := true })] }
def rwS29 : State :=
  rwPair [(0, { inAct := true }), (1, { inAct := true })] { rwRun with run := some (150, false), prev := some held0 } [(0,
  halted0)]
def rwS32 : State :=
  rwPair [(0, { inAct := true }), (1, { committed := true, staged := [(0x60000000, 3)] })] { rwRun with acts := [act3] } [(0,
  halted0)]
def rwS34 : State := cam camAct0
def rwS39 : State := { rwPair [] { acts := [act3, act2] } [] with rows := [(0, { first := true })] }
def rwS40 : State := { rwPair [] { acts := [act3] } [] with rows := [(0, { first := true })] }
def rwS41 : State :=
  { rwPair [] {} [] with
      rows := [(0, { first := true })], regs := (A .rwTrig 0 0, 0x0301) :: (rwPair [] {} []).regs }
def rwS42 : State :=
  { rw [(0, { run := some (7, false) })] [(A .rwBind 0 0, 0x80001005)] with
      eacts := [(1, { inAct := true, staged := [(0x60000000, 1)] })] }
def rwS45 : State :=
  rwPair [(0, { inAct := true, committed := true, staged := [(0x60000000, 1), (0x60000004, 2)] }), (1,
  { inAct := true, staged := [(0x60000000, 1), (0x60000004, 3)] })] rwRun
def rwS54 : State :=
  rwPair [(0, { inAct := true, missed := true, staged := [(0x60000000, 1), (0x60000004, 2)] }), (1,
  { inAct := true, missed := true, staged := [(0x60000000, 1), (0x60000004, 3)] })] rwRun
/-- As `cs`, with these two values in registers 4 and 6 of both cores. -/
def csv (x y z : Word × Bool) (r : List (Nat × Word) := []) : State :=
  cs { ce0 with infl := [], base := ce0.base.filter (fun e => e.1 != 4 && e.1 != 6) ++ [(4, x), (6, z)] }
    { sv0 with base := sv0.base.filter (fun e => e.1 != 4 && e.1 != 6) ++ [(4, y), (6, z)] } r
def afS0 : State := csv (3, true) (3, true) (9, false)
def afS2 : State := csv (0x12000000, false) (0x12000000, false) (9, false)
def afS3 : State := csv (0x60000010, false) (0x60000010, false) (9, true)
def afS4 : State := csv (0x10000010, false) (0x80000, false) (9, true)
def afS5 : State :=
  csv (0x10000010, false) (0x20004000, false) (9, false) [(A .svCr 0 2, 7), (A .svCr 0 32, 0x20004001), (A .svCr 0 48,
  0x20005000)]
def afS6 : State :=
  csv (0x4020, false) (0x20001010, false) (9, false) [(A .svCr 0 2, 1), (A .svCr 0 32, 0x20004001), (A .svCr 0 48,
  0x20005000)]
def afS7 : State := cs { ce0 with pc := 9 } { sv0 with pc := 0x20002002 }
def afS10 : State :=
  { cs { ce0 with
      pc := 0x100 } { sv0 with pc := 0x20006000
      } with chk := [(0x11000101, 0x1F), (0x20006001, 0x1F)], vld := [(0x11000100 / 8, 7), (0x20006000 / 8, 7)] }
def preciseRegs : List (Nat × Tagged) :=
  [(1, (0x7F800001, false)), (2, (0x7FFFFFFF, false)), (3, (0x80000000, false)), (5, (0x8000, false)), (31, (0x20003000, false))]
def prS0 : State :=
  cs { ce0 with infl := [], base := preciseRegs } { sv0 with base := preciseRegs } [(A .svCr 0 1, 0x10000), (A .ceCr 0 1,
  0x10000)]

/-! ### Words written out from the encoding tables (R154–R158) -/

theorem test_word_add : judgeWord (.ce 0) 0b000001_00001_00010_00011_00000_000000 = some (.add (.ce 0) 1 2 3) := by decide

theorem test_word_addi : judgeWord (.sv 3) 0b010001_00101_00110_1111111111111100 = some (.addi (.sv 3) 5 6 0xFFFC) := by decide

theorem test_word_lw : judgeWord (.sv 1) 0b011101_00100_11111_0000000000001000 = some (.lw (.sv 1) 4 31 8) := by decide

/-- The words of the encoding summary. -/
theorem test_words_of_the_summary :
    judgeWord (.ce 0) 0x74800010 = some (.lw (.ce 0) 4 0 0x10) ∧ judgeWord (.ce 0) 0xC9042802 = some (.qmac (.ce 0) 8 4 5) ∧
    judgeWord (.ce 0) 0x987FFFF8 = some (.bnz (.ce 0) 3 0x1FFFF8) ∧
    judgeWord (.ce 0) 0x88C2A004 = some (.lwp (.ce 0) 6 2 0xA004) ∧
    judgeWord (.ce 511) 0x9122A004 = some (.swp (.ce 511) 9 2 0xA004) ∧ judgeWord (.ce 0) 0xF8075405 = some (.mtcr (.ce 0) 21 7) ∧
    judgeWord (.ce 0) 0xF8000001 = some (.commit (.ce 0)) := by decide +kernel

/-- No word spells a command by the table: it gives its rows no bits. -/
theorem test_no_table_word : decodeTableWord 32 0x9122A004 = none := by decide

/-! ### What the well-formedness checks refuse -/

theorem test_yield_is_not_for_a_supervisor :
    (Instr.yield (.sv 0)).wellFormed = false ∧ (Instr.yield (.ce 511)).wellFormed = true := by decide

theorem test_wfi_is_not_for_an_engine :
    (Instr.wfi (.ce 0)).wellFormed = false ∧ (Instr.wfi (.sv 3)).wellFormed = true := by decide

theorem test_post_modify_load_needs_two_registers :
    (Instr.lwp (.ce 0) 2 2 4).wellFormed = false ∧ (Instr.lwp (.ce 0) 1 2 4).wellFormed = true := by decide

theorem test_reserved_word_is_reserved : (Instr.reservedOpcode (.ce 0) 0x04221800).wellFormed = false := by decide

theorem test_voltage_has_16_bits :
    (Instr.pllLock 65536).wellFormed = false ∧ (Instr.pllLock 65535).wellFormed = true := by decide

theorem test_record_has_5_words :
    (Instr.pmuTagRecord 0 [1, 2, 3, 4]).wellFormed = false ∧ (Instr.pmuTagRecord 63 [1, 2, 3, 4, 5]).wellFormed = true := by
  decide

theorem test_probe_lists_no_function_twice :
    (Instr.heartbeatProbe [3, 3]).wellFormed = false ∧ (Instr.heartbeatProbe [79, 3]).wellFormed = true := by decide

/-! ### Single steps, the expected values worked out from the rules -/

/-- The state after one command, where it runs. -/
def ran (i : Instr) (s : State) : Option State :=
  match exec i s with
  | .next t => some t
  | _ => none

/-- R47: at the end of the period the count is 0 and WRAP is 1. -/
theorem test_timer_wraps :
    (ran (.gtWrap 15) tmS12).map (fun t => (t.rd .gtCnt 15 0, t.bit .gtStat 15 0 0)) = some (0, true) := by decide +kernel

/-- The worked supply dip (R30, R31): rate 0x2_2800 gives bound 0x2_0580, a fall of 20 mV makes it 0x1_C4D0. -/
theorem test_speed_bound :
    (ran (.speedWindowEnd 0 0x22800 720) U).map (fun t => t.rdF .spmBound 0 0 19 0) = some 0x20580 := by decide +kernel

theorem test_speed_fall :
    (ran (.vddCoreFall20mv 0 700) { U with regs := (A .spmBound 0, 0x20580) :: U.regs, rows := [(0, { first := true, startMv := 720 })] }).map
      (fun t => t.rdF .spmBound 0 0 19 0) = some 0x1C4D0 := by decide +kernel

/-- R40: the 32nd edge of low-frequency time adds 12208. -/
theorem test_low_frequency_edge : (ran .lowFrequencyEdge dvS1).map (fun t => t.now) = some 12208 := by decide +kernel

/-- The worked vector rotation (R162): what QMUL and QMACS put in flight. -/
def rot : State :=
  cs { ce0 with infl := [], base := [(4, (0x20000000, false)), (10, (0x40000000, false)), (11, (0x6ED9EBA1, false)),
                                      (12, (0x1BB67AE8, false)), (14, (0xC0000000, false))] } sv0

theorem test_qmul : (ran (.qmul (.ce 0) 12 4 11) rot).map (fun t => (t.core 0).infl.map (·.val)) = some [0x1BB67AE8] := by
  decide +kernel

theorem test_qmacs : (ran (.qmacs (.ce 0) 12 14 10) rot).map (fun t => (t.core 0).infl.map (·.val)) = some [0xFBB67AE8] := by
  decide +kernel

/-- The worked delay line: LEN 64 at 0x4800, the step behind 0x483C wraps to the start (R166, R167). -/
def walk (ml : Word) : State := cs ce0 sv0 [(A .ceCr 0 17, 0x4800), (A .ceCr 0 21, ml)]

theorem test_delay_line : postAddr (walk 0x40) 0 0x4838 0xA004 2 = 0x483C ∧ postAddr (walk 0x40) 0 0x483C 0xA004 2 = 0x4800 := by
  decide +kernel

/-- The worked bit-reversed walk: LEN 32, REV 1, steps of 16 from offset 0, and the last step back to it. -/
theorem test_reversed_walk :
    [0, 16, 8, 24, 4, 20, 12, 28].map (fun o => postAddr (walk 0x10020) 0 (0x4800 + o) 0xA010 2) =
      [0x4810, 0x4808, 0x4818, 0x4804, 0x4814, 0x480C, 0x481C, 0x4800] := by decide +kernel

/-- The worked checksum: the second step takes "9" from the CRC of "12345678" to 0x340B_C6D9 (R175). -/
theorem test_bcrc_step :
    (ran (.longStep 0) { cs ce0 { sv0 with base := [(4, (0x651F2550, false)), (5, (0x20001010, false)), (6, (1, false)),
                                                     (31, (0x20003000, false))],
                                           long := some { kind := .bcrc, rd := 4, ra := 5, rb := 6 } } with
        mem := [(0x20001010, 0x39)] }).map (fun t => (reg t 512 4, reg t 512 5, reg t 512 6)) =
      some ((0x340BC6D9, false), (0x20001011, false), (0, false)) := by decide +kernel

/-- The worked address of MEM_FLIP[1045] (R234). -/
theorem test_mem_flip_address : Reg.memFlip.addr 1045 0 = 0x6C0092B4 := by decide

/-- R160: 0x7FFFFFF0 + 0x7FFFFFF0 wraps in ADD and is limited in ADDO, which sets OVF. -/
theorem test_add_wraps : (ran (.add (.ce 0) 8 8 8) coS0).map (fun t => reg t 0 8) = some (0xFFFFFFE0, false) := by
  decide +kernel

theorem test_addo_saturates :
    (ran (.addo (.ce 0) 8 8 8) coS0).map (fun t => (reg t 0 8, fld (crAct t 0 1) 3 0)) = some ((0x7FFFFFFF, false), 4) := by
  decide +kernel

/-- R129: a write to G0 is discarded. -/
theorem test_g0_stays_zero : (ran (.addi (.ce 0) 0 1 7) coS0).map (fun t => (reg t 0 0, (t.core 0).pc)) = some ((0, false), 12) := by
  decide +kernel

/-- R133, R164: 5 divided by 0 gives 0x7FFFFFFF and DZ when the unit delivers. -/
theorem test_divide_by_zero : sDiv 5 0 = { val := 0x7FFFFFFF, aex := 1 } := by decide

/-- R163: 1.0 + 1.0 = 2.0, and 1.0 / 0 is the largest finite value. -/
theorem test_float_add : (fAdd 0x3F800000 0x3F800000).val = 0x40000000 := by decide +kernel

theorem test_float_divide_by_zero : (fDiv 0x3F800000 0).val = 0x7F7FFFFF := by decide +kernel

/-- R132: the slot of a jump follows it, and its target is word-scaled from the jump's own address. -/
theorem test_jump_has_a_slot :
    (ran (.jmp (.ce 0) 3) coS0).map (fun t => ((t.core 0).pc, (t.core 0).slot)) = some (12, some 20) := by decide +kernel

/-- R138: a store goes to the buffer, not to memory. -/
theorem test_store_is_buffered :
    (ran (.sw (.ce 0) 1 2 0) coS0).map (fun t => ((t.core 0).sb.length, t.byteAt 0x11004020)) = some (1, (0, false)) := by
  decide +kernel

/-- R347: the oldest queued record is written at CHEAD and leaves the queue. -/
theorem test_book_writes_record :
    (ran (.cbRecordWrite) boS0).map (fun t => (t.book.queue.length, (t.circ 0).code)) = some (1, 5) := by decide +kernel

/-- With nothing queued a step is a tick (log entry 12). -/
theorem test_idle_ticks : (match step U with | .next t => t.now | _ => 0) = 1 := by decide +kernel

/-! ### States and operands that meet the hypotheses of the statements -/

/-- The reset state once its reset has ended, with a register command waiting. -/
def coreBusy : State := { State.reset with regs := [(0x6400000C, 1), (0x66000020, 1)], pending := [.gtPerWrite 15 7] }

theorem witness_front_command_runs : ({ U with pending := [.lowFrequencyEdge, .mpLock 0] } : State).pending =
    .lowFrequencyEdge :: [.mpLock 0] := rfl

/-- TRIP0 filtered and inactive. -/
def muTrip : State := mk [(A .muTripcfg 0, 2)]

theorem witness_empty_queue_ticks :
    (U.pending = [] ∧ U.timeOk = true ∧ U.dark = false) ∧ (pwS0.pending = [] ∧ (mk [(A .tbStat, 0)]).bit .tbStat 0 0 0 = false) ∧
    ((mk [(A .tbStat, 3)]).pending = [] ∧ (mk [(A .tbStat, 3)]).bit .tbStat 0 0 0 = true ∧
      (mk [(A .tbStat, 3)]).bit .tbStat 0 0 1 = true ∧
      (mk [(A .tbStat, 3)]).dark = false) ∧
    (muTrip.pending = [] ∧ muTrip.timeOk = true ∧ muTrip.dark = false ∧ tripFalls muTrip 0 = true ∧ muTrip.src 320 = false) := by
  decide +kernel

theorem witness_reset_state : 513 ≤ 515 ∧ 511 < 512 ∧ Reg.tbCtl ≠ .ceCr ∧ Reg.tbCtl ≠ .svCr ∧ Reg.tbCtl ≠ .stAttn ∧
    0 < Reg.tbCtl.info.ni ∧ 0 < Reg.tbCtl.info.nj := by decide

theorem witness_register_addresses_decode : (Reg.memStat ≠ .ceCr ∧ Reg.memStat ≠ .svCr ∧ 1091 < Reg.memStat.info.ni ∧
    0 < Reg.memStat.info.nj) ∧ 511 < 512 ∧ 63 < 64 := by decide

theorem witness_memory_stays_canonical : memCanonical coS0 = true ∧ ∃ t, step coS0 = .next t := by
  refine ⟨by decide +kernel, ?_⟩
  cases h : step coS0 with
  | next t => exact ⟨t, rfl⟩
  | _ =>
    have : (match step coS0 with | .next _ => true | _ => false) = true := by decide +kernel
    rw [h] at this
    cases this

theorem witness_registers_stay_canonical : regsCanonical coreBusy = true ∧ ∃ t, step coreBusy = .next t := by
  refine ⟨by decide +kernel, ?_⟩
  cases h : step coreBusy with
  | next t => exact ⟨t, rfl⟩
  | _ =>
    have : (match step coreBusy with | .next _ => true | _ => false) = true := by decide +kernel
    rw [h] at this
    cases this

theorem witness_soette_words_decode : (Instr.sel (.sv 3) 31 0 17 5).core? = some (.sv 3) ∧
    (Instr.sel (.sv 3) 31 0 17 5).available = true ∧ (Instr.sel (.sv 3) 31 0 17 5).wordFits = true ∧
    (soetteWord (.sel (.sv 3) 31 0 17 5)).isSome = true := by decide

theorem witness_soette_words_decode_2 : (soetteWord (.svc (.sv 0) 0)).isSome = true ∧
(soetteWord (.yield (.ce 0))).isSome = true ∧
    (soetteWord (.lwp (.ce 511) 31 31 0xFFFF)).isSome = true := by decide

theorem witness_arithmetic_results :
    (isNanWord 0x3F800000 = false ∧ isNanWord 0x7FC00000 = true ∧ isNanWord 0x7F800001 = true) ∧
    (isInfWord 0x7F800000 = true ∧ numOf 0 = 0 ∧ numOf 0x3F800000 ≠ 0 ∧ finiteWord 0x3F800000 = true) ∧
    (numOf 0xBF800000 < 0 ∧ numOf 0xBF800000 < numOf 0x7F800000) ∧ (numOf 0 = numOf 0x80000000 ∧
      bitOf (0x80000000 : Word) 31 = true) ∧
    (|numOf 0x2F800000 * 2 ^ 31 - (0 : Int)| ≤ 1 / 2 ∧ (|numOf 0x2F800000 * 2 ^ 31 - (0 : Int)| = 1 / 2 → (0 : Int) % 2 = 0)) ∧
    ((5 : Word) ≠ 0 ∧ ¬ ((7 : Word) = 0x80000000 ∧ (5 : Word) = 0xFFFFFFFF)) := by decide +kernel

theorem witness_float_rounding :
    (finiteWord 0x3F800000 = true ∧ finiteWord 0xBF800000 = true ∧ numOf 0x3F800000 + numOf 0xBF800000 = 0) ∧
    (finiteWord 0 = true ∧ numOf 0x3F800000 * numOf 0 = 0 ∧ numOf 0xBF800000 + numOf 0x3F800000 * numOf 0x3F800000 = 0) ∧
    (numOf 0x3F800000 ≠ 0 ∧ numOf 0 = 0 ∧ 0 < numOf 0x3F800000) ∧ (0 : Word) = 0 := by decide +kernel

theorem witness_trigonometric_results : (0x80000000 : Word).toInt < 0 := by decide

theorem witness_post_modify_addresses :
    BitVec.getLsbD (0x2FFC : BitVec 16) 15 = false ∧
    (BitVec.getLsbD (0x8004 : BitVec 16) 15 = true ∧ fld (ml coS14 0 0) 15 0 = 8 ∧ bitOf (ml coS14 0 0) 16 = true ∧ 8 = 2 ^ 3) ∧
    (BitVec.getLsbD (0x8004 : BitVec 16) 15 = true ∧ fld (ml coS19 0 0) 15 0 ≠ 0 ∧ bitOf (ml coS19 0 0) 16 = false) := by
  decide +kernel

theorem witness_stores_complete :
    (issues coS0 0 = true ∧ (baseAddr coS0 0 2).2 = false ∧ judge1 coS0 0 .store 0x4020 1 = 0 ∧ (reg coS0 0 2) = (0x4020, false) ∧
      (coS0.core 0).sb.length + 1 ≤ 4) ∧
    (issues coS0 0 = true ∧ (baseAddr coS0 0 3).2 = false ∧ judge1 coS0 0 .store 0x4012 4 = 0 ∧ (reg coS0 0 3) = (0x4012, false) ∧
      (coS0.core 0).sb.length + 2 ≤ 4) ∧
    (issues coS29 0 = true ∧ (baseAddr coS29 0 2).2 = false ∧ judge1 coS29 0 .store 0x4020 4 = 0 ∧
      (reg coS29 0 2) = (0x4020, false) ∧
      4 < (coS29.core 0).sb.length + 1) ∧
    (issues coS29 512 = true ∧ (baseAddr coS29 512 2).2 = false ∧ judge1 coS29 512 .store 0x20001022 1 = 0 ∧
      (reg coS29 512 2) = (0x20001022, false) ∧ 8 < (coS29.core 512).sb.length + 1) := by decide +kernel

/-- A store of poisoned data to a register and to the Heritage window. -/
theorem witness_access_faults_and_poison_store :
    (issues afS3 512 = true ∧ faultable afS3 512 ∧ (baseAddr afS3 512 4).2 = false ∧ judge1 afS3 512 .store 0x60000010 4 = 0 ∧
      (reg afS3 512 4) = (0x60000010, false) ∧ (reg afS3 512 6).2 = true ∧ periph 0x60000010 = true) ∧
    (issues afS4 512 = true ∧ faultable afS4 512 ∧ (baseAddr afS4 512 4).2 = false ∧ judge1 afS4 512 .store 0x80000 2 = 0 ∧
      (reg afS4 512 4) = (0x80000, false) ∧ (reg afS4 512 6).2 = true ∧ hwWindow 0x80000 = true) := by decide +kernel

theorem witness_eret_completes_svc :
    (issues coS0 512 = true ∧ settled coS0 512 = true ∧ (coS0.core 512).slot = none ∧ sramQuiet coS0 = true ∧
      stackOk coS0 0 (reg coS0 512 31).1.toNat = true ∧ (reg coS0 512 31).2 = false ∧
      ∀ r ≤ 10, (reg coS0 512 r).2 = false) ∧
    ∃ t, exec (.svc (.sv 0) 77) coS0 = .next t ∧ issues t 512 = true := by
  refine ⟨by decide +kernel, ?_⟩
  have : (match exec (.svc (.sv 0) 77) coS0 with | .next t => issues t 512 | _ => false) = true := by decide +kernel
  cases h : exec (.svc (.sv 0) 77) coS0 with
  | next t => rw [h] at this; exact ⟨t, rfl, this⟩
  | _ => rw [h] at this; cases this

theorem witness_pins_never_both_on : (∀ n, ¬ ((U.lane n).outH = .on ∧ (U.lane n).outL = .on)) ∧ ∃ t, step U = .next t := by
  have z : ({} : LaneS).outH ≠ .on := by decide
  refine ⟨fun n h => z h.1, ?_⟩
  have : (match step U with | .next _ => true | _ => false) = true := by decide +kernel
  cases h : step U with
  | next t => exact ⟨t, rfl⟩
  | _ => rw [h] at this; cases this

/-- The kept image, by whether its bytes have the recorded digest (R334). -/
theorem keptImage_fst (s : State) (d : BitVec 256) (hd : s.sec.digest = some d) (hr : s.rdF .fmRstat 0 0 2 0 = 6)
    (hk : ∀ b, s.bit .fmPwr 0 0 (2 + b) = true ∨ 4 ≤ b) :
    (keptImage s).1 = if Config.sha256 ((readLong s s.sec.imgLoad (256 + s.sec.imgLen)).1.map (·.1)) == d then
      some (leNat ((((readLong s s.sec.imgLoad (256 + s.sec.imgLen)).1.map (·.1)).drop 12).take 4)) else none := by
  have h : anyN 4 (fun b => !s.bit .fmPwr 0 0 (2 + b) && decide (s.sec.imgLoad < 0x20000000 + 0x100000 * (b + 1)) &&
      decide (0x20000000 + 0x100000 * b < s.sec.imgLoad + (256 + s.sec.imgLen))) = false := by
    simp only [anyN, List.any_eq_false, List.mem_range]
    intro b hb
    rcases hk b with h | h
    · simp [h]
    · omega
  unfold keptImage
  simp only [hd, hr, h]
  rfl

theorem witness_reset_commands_complete_kept : kept1.fm.reset = .none ∧ kept1.fm.power = .run ∧ (kept1.core 512).mode = .active ∧
    (kept1.core 512).halted = false ∧ (kept1.core 512).pc < 262144 ∧ kept1.bit .secStat 0 0 2 = false ∧
      (keptImage kept1).1 = some 0x2000 := by
  refine ⟨by decide +kernel, by decide +kernel, by decide +kernel, by decide +kernel, by decide +kernel, by decide +kernel, ?_⟩
  have k : ∀ b, kept1.bit .fmPwr 0 0 (2 + b) = true ∨ 4 ≤ b := fun b =>
    if h : b < 4 then .inl ((by decide +kernel : ∀ b < 4, kept1.bit .fmPwr 0 0 (2 + b) = true) b h) else .inr (by omega)
  have h : (readLong kept1 0x20001000 256).1 = (readLong kept0 0x20001000 256).1 := by decide +kernel
  have v : leNat ((((readLong kept0 0x20001000 256).1.map (·.1)).drop 12).take 4) = 0x2000 := by decide +kernel
  rw [keptImage_fst kept1 _ rfl (by decide +kernel) k]
  show (if Config.sha256 ((readLong kept1 0x20001000 256).1.map (·.1)) == Config.sha256 ((readLong kept0 0x20001000 256).1.map (·.1))
    then some (leNat ((((readLong kept1 0x20001000 256).1.map (·.1)).drop 12).take 4)) else none) = _
  rw [h, if_pos (beq_self_eq_true _), v]

theorem witness_timebase_complete :
    (tmS6.fm.reset = .none ∧ tmS6.fm.power ≠ .hold ∧ tmS6.bit .tbStat 0 0 0 = false ∧
    (tmS6.rdF .secDbg 0 0 1 0 == 3 && tmS6.bit .tbCtl 0 0 2) = false) ∧
    (tmS13.fm.reset = .none ∧ tmS13.fm.power ≠ .hold ∧ tmS13.bit .tbStat 0 0 0 = false ∧ tmS13.rdF .secDbg 0 0 1 0 = 3 ∧
    tmS13.bit .tbCtl 0 0 2 = true) ∧
    (tmS4.bit .tbStat 0 0 1 = true ∧ tmS4.tb.leaving = true) ∧
    tmS0.bit .tbStat 0 0 0 = true := by
  decide +kernel

theorem witness_timebase_complete_2 :
    (tmS0.timeOk = true ∧ tmS0.dark = false ∧ tmS0.tb.run = none) ∧
    (tmS7.timeOk = true ∧ tmS7.dark = false ∧ tmS7.tb.run = some (5, 3)) ∧
    (tmS8.timeOk = true ∧ tmS8.dark = false ∧ tmS8.tb.run = some (5, 31) ∧ 0 ≠ (tmS8.now - 5).toNat % 2 ^ 24) ∧
    (tmS8.timeOk = true ∧ tmS8.dark = false ∧ tmS8.tb.run = some (5, 31) ∧ 4 = (tmS8.now - 5).toNat % 2 ^ 24) := by
  decide +kernel

theorem witness_timebase_complete_3 :
    (tmS0.bit .tbCtl 0 0 0 = false ∧ tmS0.tb.internal = false ∧ tmS0.fm.reset = .none) ∧
    up tmS0 = true ∧
    (tmS15.timeOk = true ∧ isHead tmS15 = false ∧ tmS15.bit .tbCtl 0 0 3 = true ∧ 4096 < tmS15.tb.ofs.natAbs ∧
    tmS15.tb.ofsIn = some (cycleNow tmS15)) ∧
    (tmS5.timeOk = true ∧ isHead tmS5 = false ∧ tmS5.bit .tbCtl 0 0 3 = true ∧ 4096 < tmS5.tb.ofs.natAbs ∧
    tmS5.tb.ofsIn ≠ some (cycleNow tmS5)) := by
  decide +kernel

theorem witness_speed_monitor_complete :
    monitorOn spS0 63 = true ∧
    (monitorOn spS0 63 = true ∧ (spS0.row 63).startMv < 1 + 20) ∧
    (monitorOn spS5 63 = true ∧ (spS5.row 63).lastWarn = some (1, false) ∧ spS5.tb.locked ≤ 1 + 120 ∧
    (false = true → Config.freeNear spS5.free = true) ∧ 1 + 20 ≤ (spS5.row 63).startMv) ∧
    (monitorOn spS2 63 = true ∧ (spS2.row 63).first = true ∧ (∀ w ∈ (spS2.row 63).lastWarn, w.1 + 120 < spS2.tb.locked) ∧
    1 + 20 ≤ (spS2.row 63).startMv) := by
  decide +kernel

theorem witness_speed_monitor_complete_2 :
    (up spS0 = true ∧ fld 4294967295 19 0 ≠ 0) ∧
    (up spS1 = true ∧ fld 0 19 0 = 0 ∧ (∃ x < 4, spS1.bit .rwBind 63 x 31 = true)) := by
  decide +kernel

theorem witness_timers_complete :
    (gtCounting tmS12 15 = true ∧ (tmS12.timer 15).wrapDue = true ∧ gtPer tmS12 15 ≤ gtCnt tmS12 15) ∧
    (gtEn tmS0 15 = false ∨ gtClocked tmS0 15 = true ∨ gtCnt tmS0 15 < gtPer tmS0 15 ∨ (tmS0.timer 15).wrapDue = false) ∧
    gtDue tmS0 15 0 = true ∧
    up tmS0 = true := by
  decide +kernel

theorem witness_timers_complete_2 :
    tmS0.timeOk = true ∧
    (tmS0.timeOk = true ∧ tmS0.rdF .gtCcfg 15 1 7 0 = 4 * 4 + 2 ∧ edgeSel tmS0 15 1 true = true ∧ (tmS0.chan 15 1).pend = none ∧
    (tmS0.chan 15 1).opens = []) ∧
    (tmS0.timeOk = true ∧ tmS0.rdF .gtCcfg 15 3 7 2 ≠ 4 ∧ (tmS0.chan 15 3).due = []) ∧
    (tmS9.timeOk = true ∧ tmS9.rdF .gtCcfg 15 0 7 2 ≠ 4 ∧ (tmS9.chan 15 0).due = [7, 8] ∧ (tmS9.chan 15 0).pend = none ∧
    (tmS9.chan 15 0).opens = []) := by
  decide +kernel

theorem witness_timers_complete_3 :
    (tmS10.timeOk = true ∧ tmS10.rdF .gtCcfg 15 0 7 2 ≠ 4 ∧ (tmS10.chan 15 0).due = [7, 8] ∧ (tmS10.chan 15 0).pend = none ∧
    (tmS10.chan 15 0).opens ≠ []) ∧
    (tmS11.timeOk = true ∧ tmS11.rdF .gtCcfg 15 0 7 2 ≠ 4 ∧ (tmS11.chan 15 0).due = [7, 8] ∧
      (tmS11.chan 15 0).pend.isSome = true) ∧
    tmS3.timeOk = false ∧
    (up tmS1 = true ∧ tmS1.rdF .gtCcfg 15 0 7 0 = 2 ∧ (tmS1.chan 15 0).pend = none ∧ (tmS1.chan 15 0).opens = []) := by
  decide +kernel

theorem witness_timers_complete_4 :
    (up tmS0 = true ∧ bitOf 0 17 = false) ∧
    (Requester.core (Core.sv 0) ≠ Requester.debug ∧ (tmS0.chan 15 3).pend = none ∧ (tmS0.chan 15 3).due = []) ∧
    (tmS16.timeOk = true ∧ Requester.core (Core.sv 0) ≠ Requester.debug ∧ (tmS16.chan 15 0).pend = none ∧
    (tmS16.chan 15 0).opens = [] ∧ (tmS16.chan 15 0).due = [7]) ∧
    Requester.core (Core.sv 0) ≠ Requester.debug := by
  decide +kernel

theorem witness_timers_complete_5 :
    gtOpenLong tmS17 512 15 0 = true ∧
    gtOpenLong tmS0 512 15 3 = false := by
  decide +kernel

theorem witness_integer_instructions_complete :
    issues coS0 0 = true := by
  decide +kernel

theorem witness_saturating_instructions_complete :
    (issues coS0 0 = true ∧
    (noTrap coS0 0 (if -2 ^ 31 ≤ BitVec.toInt (reg coS0 0 31).1 + BitVec.toInt (reg coS0 0 31).1 ∧
      BitVec.toInt (reg coS0 0 31).1 + BitVec.toInt (reg coS0 0 31).1 < 2 ^ 31 then 0 else 4) ((reg coS0 0 31).2 ||
      (reg coS0 0 31).2) = true)) ∧
    (issues coS0 0 = true ∧
    (noTrap coS0 0 (if -2 ^ 31 ≤ BitVec.toInt (reg coS0 0 31).1 - BitVec.toInt (reg coS0 0 31).1 ∧
      BitVec.toInt (reg coS0 0 31).1 - BitVec.toInt (reg coS0 0 31).1 < 2 ^ 31 then 0 else 8) ((reg coS0 0 31).2 ||
      (reg coS0 0 31).2) = true)) ∧
    (issues coS0 0 = true ∧
    (noTrap coS0 0 (if -2 ^ 31 ≤ (BitVec.toInt (reg coS0 0 31).1 * BitVec.toInt (reg coS0 0 31).1 + 2 ^ 30) / 2 ^ 31 ∧
      (BitVec.toInt (reg coS0 0 31).1 * BitVec.toInt (reg coS0 0 31).1 + 2 ^ 30) / 2 ^ 31 < 2 ^ 31 then 0 else 4) ((reg coS0 0 31).2 || (reg coS0 0 31).2) = true)) ∧
    (issues coS0 0 = true ∧
    (noTrap coS0 0 (if -2 ^ 31 ≤ BitVec.toInt (reg coS0 0 31).1 + (BitVec.toInt (reg coS0 0 31).1 * BitVec.toInt (reg coS0 0 31).1 + 2 ^ 30) / 2 ^ 31 ∧ BitVec.toInt (reg coS0 0 31).1 + (BitVec.toInt (reg coS0 0 31).1 * BitVec.toInt (reg coS0 0 31).1 + 2 ^ 30) / 2 ^ 31 < 2 ^ 31 then 0 else 8) ((reg coS0 0 31).2 || (reg coS0 0 31).2 || (reg coS0 0 31).2) = true)) := by
  decide +kernel

theorem witness_saturating_instructions_complete_2 :
    (issues coS0 0 = true ∧
    (noTrap coS0 0 (if -2 ^ 15 ≤ ((BitVec.truncate 16 (reg coS0 0 31).1).toInt * (BitVec.truncate 16 (reg coS0 0 31).1).toInt + 2 ^ 14) / 2 ^ 15 ∧ ((BitVec.truncate 16 (reg coS0 0 31).1).toInt * (BitVec.truncate 16 (reg coS0 0 31).1).toInt + 2 ^ 14) / 2 ^ 15 < 2 ^ 15 then 0 else 4) ((reg coS0 0 31).2 || (reg coS0 0 31).2) = true)) ∧
    (issues coS0 0 = true ∧
    (noTrap coS0 0 (if -2 ^ 15 ≤ (BitVec.truncate 16 (reg coS0 0 31).1).toInt + ((BitVec.truncate 16 (reg coS0 0 31).1).toInt * (BitVec.truncate 16 (reg coS0 0 31).1).toInt + 2 ^ 14) / 2 ^ 15 ∧ (BitVec.truncate 16 (reg coS0 0 31).1).toInt + ((BitVec.truncate 16 (reg coS0 0 31).1).toInt * (BitVec.truncate 16 (reg coS0 0 31).1).toInt + 2 ^ 14) / 2 ^ 15 < 2 ^ 15 then 0 else 8) ((reg coS0 0 31).2 || (reg coS0 0 31).2 || (reg coS0 0 31).2) = true)) := by
  decide +kernel

theorem witness_float_instructions_complete :
    (issues coS0 0 = true ∧
    noTrap coS0 0 (fAdd (reg coS0 0 31).1 (reg coS0 0 31).1).aex ((reg coS0 0 31).2 || (reg coS0 0 31).2) = true) ∧
    (issues coS0 0 = true ∧
    noTrap coS0 0 (fCle (reg coS0 0 31).1 (reg coS0 0 31).1).aex ((reg coS0 0 31).2 || (reg coS0 0 31).2) = true) ∧
    (issues coS0 0 = true ∧
    noTrap coS0 0 (fMa (reg coS0 0 31).1 (reg coS0 0 31).1 (reg coS0 0 31).1).aex ((reg coS0 0 31).2 || (reg coS0 0 31).2 ||
    (reg coS0 0 31).2) = true) ∧
    (issues coS0 0 = true ∧ noTrap coS0 0 (fItof (reg coS0 0 31).1).aex (reg coS0 0 31).2 = true) := by
  decide +kernel

theorem witness_float_instructions_complete_2 :
    (issues coS0 0 = true ∧ noTrap coS0 0 (fQtof (reg coS0 0 31).1).aex (reg coS0 0 31).2 = true) := by
  decide +kernel

theorem witness_side_unit_instructions_complete :
    (issues coS0 0 = true ∧
    noTrap coS0 0 (sDiv (reg coS0 0 7).1 (reg coS0 0 7).1).aex ((reg coS0 0 7).2 || (reg coS0 0 7).2) = true) ∧
    (issues coS0 0 = true ∧ noTrap coS0 0 (fDiv 1065353216 (reg coS0 0 7).1).aex (reg coS0 0 7).2 = true) ∧
    (coS1.dark = false ∧
    ((match SideUnit.divide with | SideUnit.divide => (coS1.core 0).divU | SideUnit.cordic => (coS1.core 0).corU) = some side1) ∧
    (coS1.core 0).yielding = false ∧ side1.idx ≤ (coS1.core 0).seq ∧ (∀ p ∈ (coS1.core 0).infl, p.reg ≠ side1.dest)) ∧
    (issuesBeside coS1 0 = true ∧
    ((match SideUnit.divide with | SideUnit.divide => (coS1.core 0).divU | SideUnit.cordic => (coS1.core 0).corU) = some side1) ∧
    side1.dest ≠ 0 ∧ side1.dest ∈ List.map (fun x => ↑x) [7, 7, 7]) := by
  decide +kernel

theorem witness_side_unit_instructions_complete_2 :
    (issuesBeside coS1 0 = true ∧
    ((match SideUnit.divide with | SideUnit.divide => (coS1.core 0).divU | SideUnit.cordic => (coS1.core 0).corU) = some side1) ∧
    side1.dest ≠ 0 ∧ side1.dest ∈ List.map (fun x => ↑x) [7]) ∧
    (issuesBeside coS1 0 = true ∧
    ((match SideUnit.divide with | SideUnit.divide => (coS1.core 0).divU | SideUnit.cordic => (coS1.core 0).corU) = some side1) ∧
    (Instr.div (Core.ce 0) 7 7 7 ∈ match SideUnit.divide with | SideUnit.divide => [Instr.div (Core.ce 0) 7 7 7, Instr.divu (Core.ce 0) 7 7 7, Instr.sqrt (Core.ce 0) 7 7, Instr.fdiv (Core.ce 0) 7 7 7, Instr.fsqrt (Core.ce 0) 7 7, Instr.recip (Core.ce 0) 7 7] | SideUnit.cordic => [Instr.sin (Core.ce 0) 7 7, Instr.cos (Core.ce 0) 7 7, Instr.atan2 (Core.ce 0) 7 7 7])) ∧
    (issuesBeside coS1 0 = true ∧
    ((match SideUnit.divide with | SideUnit.divide => (coS1.core 0).divU | SideUnit.cordic => (coS1.core 0).corU) = some side1)) ∧
    (issuesBeside coS1 0 = true ∧
    ((match SideUnit.divide with | SideUnit.divide => (coS1.core 0).divU | SideUnit.cordic => (coS1.core 0).corU) = some side1) ∧
    imprecise coS1 0 = true ∧ (∀ r ∈ [1, 1, 1], busy (coS1.core 0) ↑r = false)) := by
  decide +kernel

theorem witness_near_loads_complete :
    (issues coS0 0 = true ∧ (baseAddr coS0 0 2).2 = false ∧
    16384 ≤ BitVec.toNat ((baseAddr coS0 0 2).1 + BitVec.signExtend 32 (0 : BitVec 16)) ∧
    BitVec.toNat ((baseAddr coS0 0 2).1 + BitVec.signExtend 32 (0 : BitVec 16)) + 1 ≤ 32768 ∧
    (∀ e ∈ (coS0.core 0).sb, overlaps e (BitVec.toNat ((baseAddr coS0 0 2).1 + BitVec.signExtend 32 (0 : BitVec 16))) 1 = false) ∧
    clring coS0 (ceData 0 (BitVec.toNat ((baseAddr coS0 0 2).1 + BitVec.signExtend 32 (0 : BitVec 16)))) = false ∧
    (∀ i < 1, coS0.classAt (ceData 0 (BitVec.toNat ((baseAddr coS0 0 2).1 + BitVec.signExtend 32 (0 : BitVec 16))) + i) = .clean)) ∧
    (issues coS0 0 = true ∧ (baseAddr coS0 0 2).2 = false ∧
    16384 ≤ BitVec.toNat ((baseAddr coS0 0 2).1 + BitVec.signExtend 32 (0 : BitVec 16)) ∧
    BitVec.toNat ((baseAddr coS0 0 2).1 + BitVec.signExtend 32 (0 : BitVec 16)) + 4 ≤ 32768 ∧
    (∀ e ∈ (coS0.core 0).sb, overlaps e (BitVec.toNat ((baseAddr coS0 0 2).1 + BitVec.signExtend 32 (0 : BitVec 16))) 4 = false) ∧
    clring coS0 (ceData 0 (BitVec.toNat ((baseAddr coS0 0 2).1 + BitVec.signExtend 32 (0 : BitVec 16)))) = false ∧
    (∀ i < 4, coS0.classAt (ceData 0 (BitVec.toNat ((baseAddr coS0 0 2).1 + BitVec.signExtend 32 (0 : BitVec 16))) + i) = .clean)) ∧
    (issues coS0 0 = true ∧ (baseAddr coS0 0 3).2 = false ∧ 16384 ≤ BitVec.toNat (baseAddr coS0 0 3).1 ∧
    BitVec.toNat (baseAddr coS0 0 3).1 + 2 ≤ 32768 ∧
    (∀ e ∈ (coS0.core 0).sb, overlaps e (BitVec.toNat (baseAddr coS0 0 3).1) 2 = false) ∧
    clring coS0 (ceData 0 (BitVec.toNat (baseAddr coS0 0 3).1)) = false ∧
    (∀ i < 2, coS0.classAt (ceData 0 (BitVec.toNat (baseAddr coS0 0 3).1) + i) = .clean)) ∧
    (issues coS0 0 = true ∧ (baseAddr coS0 0 3).2 = false ∧ 16384 ≤ BitVec.toNat (baseAddr coS0 0 3).1 ∧
    BitVec.toNat (baseAddr coS0 0 3).1 + 4 ≤ 32768 ∧
    (∀ e ∈ (coS0.core 0).sb, overlaps e (BitVec.toNat (baseAddr coS0 0 3).1) 4 = false) ∧
    clring coS0 (ceData 0 (BitVec.toNat (baseAddr coS0 0 3).1)) = false ∧
    (∀ i < 4, coS0.classAt (ceData 0 (BitVec.toNat (baseAddr coS0 0 3).1) + i) = .clean)) := by
  decide +kernel

theorem witness_near_loads_complete_2 :
    (issues coS2 0 = true ∧ (baseAddr coS2 0 2).2 = false ∧
    judge1 coS2 0 AccOp.load (BitVec.toNat ((baseAddr coS2 0 2).1 + BitVec.signExtend 32 (0 : BitVec 16))) 1 = 0 ∧
    BitVec.toNat ((baseAddr coS2 0 2).1 + BitVec.signExtend 32 (0 : BitVec 16)) % 4 + 1 ≤ 4 ∧
    clring coS2 (busAddr 0 (BitVec.toNat ((baseAddr coS2 0 2).1 + BitVec.signExtend 32 (0 : BitVec 16)))) = false ∧
    forward (coS2.core 0).sb (BitVec.toNat ((baseAddr coS2 0 2).1 + BitVec.signExtend 32 (0 : BitVec 16))) 1 = Fwd.bytes [(1, false)]) ∧
    (issues coS2 0 = true ∧ (baseAddr coS2 0 2).2 = false ∧
    judge1 coS2 0 AccOp.load (BitVec.toNat ((baseAddr coS2 0 2).1 + BitVec.signExtend 32 (0 : BitVec 16))) 4 = 0 ∧
    BitVec.toNat ((baseAddr coS2 0 2).1 + BitVec.signExtend 32 (0 : BitVec 16)) % 4 + 4 ≤ 4 ∧
    clring coS2 (busAddr 0 (BitVec.toNat ((baseAddr coS2 0 2).1 + BitVec.signExtend 32 (0 : BitVec 16)))) = false ∧
    forward (coS2.core 0).sb (BitVec.toNat ((baseAddr coS2 0 2).1 + BitVec.signExtend 32 (0 : BitVec 16))) 4 = Fwd.bytes [(1, false), (2, true), (3, false), (4, false)]) ∧
    (issues coS0 0 = true ∧ (baseAddr coS0 0 2).2 = false ∧
    16384 ≤ BitVec.toNat ((baseAddr coS0 0 2).1 + BitVec.signExtend 32 (0 : BitVec 16)) ∧
    BitVec.toNat ((baseAddr coS0 0 2).1 + BitVec.signExtend 32 (0 : BitVec 16)) < 32768 ∧
    BitVec.toNat ((baseAddr coS0 0 2).1 + BitVec.signExtend 32 (0 : BitVec 16)) % 4 + 1 ≤ 4 ∧
    (∀ e ∈ (coS0.core 0).sb, overlaps e (BitVec.toNat ((baseAddr coS0 0 2).1 + BitVec.signExtend 32 (0 : BitVec 16))) 1 = false) ∧
    clring coS0 (ceData 0 (BitVec.toNat ((baseAddr coS0 0 2).1 + BitVec.signExtend 32 (0 : BitVec 16)))) = false) ∧
    (issues coS0 0 = true ∧ (baseAddr coS0 0 2).2 = false ∧
    16384 ≤ BitVec.toNat ((baseAddr coS0 0 2).1 + BitVec.signExtend 32 (0 : BitVec 16)) ∧
    BitVec.toNat ((baseAddr coS0 0 2).1 + BitVec.signExtend 32 (0 : BitVec 16)) < 32768 ∧
    BitVec.toNat ((baseAddr coS0 0 2).1 + BitVec.signExtend 32 (0 : BitVec 16)) % 4 + 4 ≤ 4 ∧
    (∀ e ∈ (coS0.core 0).sb, overlaps e (BitVec.toNat ((baseAddr coS0 0 2).1 + BitVec.signExtend 32 (0 : BitVec 16))) 4 = false) ∧
    clring coS0 (ceData 0 (BitVec.toNat ((baseAddr coS0 0 2).1 + BitVec.signExtend 32 (0 : BitVec 16)))) = false) := by
  decide +kernel

theorem witness_far_loads_complete :
    (issues coS0 0 = true ∧ (baseAddr coS0 0 6).2 = false ∧
    judge1 coS0 0 AccOp.load (BitVec.toNat ((baseAddr coS0 0 6).1 + BitVec.signExtend 32 (0 : BitVec 16))) 1 = 0 ∧
    near 0 (BitVec.toNat ((baseAddr coS0 0 6).1 + BitVec.signExtend 32 (0 : BitVec 16))) = false ∧
    (∀ h ∈ halves (BitVec.toNat ((baseAddr coS0 0 6).1 + BitVec.signExtend 32 (0 : BitVec 16))) 1, forward (coS0.core 0).sb h.1 h.2 ≠ Fwd.wait) ∧
    (∃ h ∈ halves (BitVec.toNat ((baseAddr coS0 0 6).1 + BitVec.signExtend 32 (0 : BitVec 16))) 1, forward (coS0.core 0).sb h.1 h.2 = Fwd.none) ∧
    (∀ h ∈ halves (BitVec.toNat ((baseAddr coS0 0 6).1 + BitVec.signExtend 32 (0 : BitVec 16))) 1, clring coS0 (busAddr 0 h.1) = false) ∧
    irqcBuffered coS0 0 = false) ∧
    (issues coS0 0 = true ∧ (baseAddr coS0 0 6).2 = false ∧ 3 ≠ 6 ∧
    judge1 coS0 0 AccOp.load (BitVec.toNat (baseAddr coS0 0 6).1) 4 = 0 ∧ near 0 (BitVec.toNat (baseAddr coS0 0 6).1) = false ∧
    (∀ h ∈ halves (BitVec.toNat (baseAddr coS0 0 6).1) 4, forward (coS0.core 0).sb h.1 h.2 ≠ Fwd.wait) ∧
    (∃ h ∈ halves (BitVec.toNat (baseAddr coS0 0 6).1) 4, forward (coS0.core 0).sb h.1 h.2 = Fwd.none) ∧
    (∀ h ∈ halves (BitVec.toNat (baseAddr coS0 0 6).1) 4, clring coS0 (busAddr 0 h.1) = false) ∧ irqcBuffered coS0 0 = false) ∧
    (coreOff coS3 0 = false ∧ (coS3.core 0).far = some (far1 none) ∧ (coS3.core 0).stepOne = false ∧
    (far1 none).kind = .load 4 false ∧ 1 < (far1 none).d ∧ (∀ u ∈ (far1 none).upd, u.1 ≠ (far1 none).rd) ∧
    (4 = 1 ∨ 4 = 2 ∨ 4 = 4) ∧ 268435456 ≤ (far1 none).addr ∧ (far1 none).addr + 4 ≤ 1073741824 ∧
    (∀ i < 4, (memOf ((far1 none).addr + i)).isSome = true) ∧ clring coS3 (far1 none).addr = false ∧
    clring coS3 ((far1 none).addr + (4 - 1)) = false ∧ (∀ i < 4, coS3.classAt ((far1 none).addr + i) = .clean)) := by
  decide +kernel

theorem witness_far_loads_complete_2 :
    (coreOff coS3 512 = false ∧ (coS3.core 512).far = some far2 ∧ (coS3.core 512).stepOne = false ∧ far2.kind = .load 2 true ∧
    1 < far2.d ∧ far2.upd = none ∧ (2 = 1 ∨ 2 = 2 ∨ 2 = 4) ∧ far2.addr % 4 + 2 ≤ 4 ∧ (∀ h ∈ far2.taken, h = none) ∧
    268435456 ≤ far2.addr ∧ (memOf far2.addr).isSome = true ∧ clring coS3 far2.addr = false) ∧
    (coreOff coS22 0 = false ∧ (coS22.core 0).far = some far3 ∧ (coS22.core 0).stepOne = false ∧ far3.kind = .load 4 false ∧
    1 < far3.d ∧ far3.upd = none ∧ (∀ h ∈ far3.taken, h = none) ∧ periph far3.addr = true ∧ far3.addr % 4 = 0 ∧
    (far3.addr = claimAddr → 512 ≤ 0 → claimBefore coS22 (0 - 512) far3.order = false) ∧
    (readWord (coS22.setCore 0 { coS22.core 0 with far := none }) 0 far3.addr).2.cores = (coS22.setCore 0 { coS22.core 0 with far := none }).cores) := by
  decide +kernel

theorem witness_store_buffer_drains :
    ((coS2.core 0).sb = [sb1] ∧ coreOff coS2 0 = false ∧ (coS2.core 0).yielding = false ∧ sb1.commit = false ∧
    16384 ≤ sb1.addr ∧ (∀ i < sb1.bytes.length, memOf (busAddr 0 sb1.addr + i) = some 1) ∧
    busAddr 0 sb1.addr / 8 = (busAddr 0 sb1.addr + sb1.bytes.length - 1) / 8 ∧
    (0 < 512 → sb1.addr + sb1.bytes.length ≤ 32768 ∨ 268435456 ≤ sb1.addr ∧ sb1.addr < 285212672) ∧ sb1.bytes ≠ [] ∧
    (512 ≤ 0 → 268435456 ≤ sb1.addr) ∧ coS2.bit .memStat 1 0 7 = false ∧ coS2.rdF .memFlip 1 0 12 0 = 0) := by
  decide +kernel

theorem witness_atomics_complete :
    (issues coS0 0 = true ∧ (baseAddr coS0 0 2).2 = false ∧ 16384 ≤ BitVec.toNat (baseAddr coS0 0 2).1 ∧
    BitVec.toNat (baseAddr coS0 0 2).1 < 32768 ∧ BitVec.toNat (baseAddr coS0 0 2).1 % 4 = 0 ∧
    (∀ e ∈ (coS0.core 0).sb, overlaps e (BitVec.toNat (baseAddr coS0 0 2).1) 4 = false) ∧
    clring coS0 (ceData 0 (BitVec.toNat (baseAddr coS0 0 2).1)) = false ∧
    (∀ i < 4, coS0.classAt (ceData 0 (BitVec.toNat (baseAddr coS0 0 2).1) + i) = .clean) ∧
    coS0.rdF .memFlip (2 * 0 + 1) 0 12 0 = 0) ∧
    (issues coS0 512 = true ∧ (baseAddr coS0 512 31).2 = false ∧
    judge1 coS0 512 AccOp.atomic (BitVec.toNat (baseAddr coS0 512 31).1) 4 = 0 ∧
    near 512 (BitVec.toNat (baseAddr coS0 512 31).1) = false ∧
    (∀ e ∈ (coS0.core 512).sb, overlaps e (BitVec.toNat (baseAddr coS0 512 31).1) 4 = false) ∧
    clring coS0 (busAddr 512 (BitVec.toNat (baseAddr coS0 512 31).1)) = false) ∧
    (coreOff coS23 0 = false ∧ (coS23.core 0).far = some farSwap ∧ (coS23.core 0).stepOne = false ∧ 268435456 ≤ farSwap.addr ∧
    farSwap.addr < 1073741824 ∧ farSwap.addr % 4 = 0 ∧ memOf farSwap.addr = some 1024 ∧ clring coS23 farSwap.addr = false ∧
    (∀ i < 4, coS23.classAt (farSwap.addr + i) = .clean) ∧ coS23.rdF .memFlip 1024 0 12 0 = 0 ∧
      farSwap.kind = .swap 1 false) := by
  decide +kernel

theorem witness_atomics_complete_2 :
    (coreOff coS23 512 = false ∧ (coS23.core 512).far = some farCas ∧ (coS23.core 512).stepOne = false ∧
    268435456 ≤ farCas.addr ∧ farCas.addr < 1073741824 ∧ farCas.addr % 4 = 0 ∧ memOf farCas.addr = some 1024 ∧
    clring coS23 farCas.addr = false ∧ (∀ i < 4, coS23.classAt (farCas.addr + i) = .clean) ∧
    coS23.rdF .memFlip 1024 0 12 0 = 0 ∧ farCas.kind = .cas 1 false 0 false) := by
  decide +kernel

theorem witness_branches_complete :
    (issues coS0 0 = true ∧ (coS0.core 0).slot = none ∧ (reg coS0 0 31).2 = false ∧ BitVec.toNat (reg coS0 0 31).1 % 4 = 0) := by
  decide +kernel

theorem witness_ordering_instructions_complete :
    (issues coS0 0 = true ∧ (coS0.core 0).slot = none ∧ (coS0.core 0).sb = [] ∧ (∀ x < 4, (coS0.slot (0 / 8) x).acts = [])) ∧
    (issues coS0 0 = true ∧ (coS0.core 0).slot = none ∧ (coS0.core 0).sb.length < 4) ∧
    issues coS0 0 = true ∧
    (issues coS0 (512 + 0) = true ∧ svPriv coS0 0 = true ∧ (coS0.core (512 + 0)).sb = []) := by
  decide +kernel

theorem witness_ordering_instructions_complete_2 :
    (issues coS0 (512 + 0) = true ∧ svPriv coS0 0 = true ∧ (coS0.core (512 + 0)).slot = none) ∧
    (up coS9 = true ∧ (coS9.core (512 + 0)).mode = .wfi ∧ (coS9.core (512 + 0)).halted = false ∧ signalled coS9 0 = true) ∧
    signalled coS0 0 = false := by
  decide +kernel

theorem witness_control_registers_complete :
    (issues coS0 0 = true ∧ (512 ≤ 0 → svPriv coS0 (0 - 512) = true) ∧ (reg coS0 0 1).2 = false) ∧
    (issues coS0 0 = true ∧ (512 ≤ 0 → svPriv coS0 (0 - 512) = true) ∧ (coS0.core 0).slot = none) := by
  decide +kernel

theorem witness_supervisor_traps_enter_handlers :
    (issues coS0 (512 + 0) = true ∧ settled coS0 (512 + 0) = true ∧ sramQuiet coS0 = true ∧
    stackOk coS0 0 (BitVec.toNat (reg coS0 (512 + 0) 31).1) = true ∧ (coS0.core (512 + 0)).slot = none ∧
    judgeWord (Core.sv 0) 2885681152 = some (Instr.reservedOpcode (Core.sv 0) 2885681152)) ∧
    (issues coS0 (512 + 0) = true ∧ settled coS0 (512 + 0) = true ∧ sramQuiet coS0 = true ∧
    stackOk coS0 0 (BitVec.toNat (reg coS0 (512 + 0) 31).1) = true ∧ judgeWord (Core.sv 0) 0 = none) ∧
    (issues coS12 (512 + 0) = true ∧ settled coS12 (512 + 0) = true ∧ svPriv coS12 0 = false ∧
    (coS12.core (512 + 0)).slot = none ∧ sramQuiet coS12 = true ∧
    stackOk coS12 0 (BitVec.toNat (reg coS12 (512 + 0) 31).1) = true) := by
  decide +kernel

theorem witness_exception_entry_completes :
    (up coS6 = true ∧ (coS6.core (512 + 0)).halted = false ∧ (coS6.core (512 + 0)).atM = false ∧
    ((coS6.core (512 + 0)).mode = .active ∨ (coS6.core (512 + 0)).mode = .wfi) ∧ (coS6.core (512 + 0)).far = none ∧
    (coS6.core (512 + 0)).slot = none ∧ (coS6.core (512 + 0)).divU = none ∧ (coS6.core (512 + 0)).corU = none ∧
    settled coS6 (512 + 0) = true ∧ sramQuiet coS6 = true ∧ stackOk coS6 0 (BitVec.toNat (reg coS6 (512 + 0) 31).1) = true ∧
    (coS6.core (512 + 0)).nmi.testBit 2 = true ∧ (∀ j < 2, (coS6.core (512 + 0)).nmi.testBit j = false) ∧
    (coS6.core (512 + 0)).nmi < 256 ∧ coS6.bit .svCr 0 2 6 = false) ∧
    (up coS7 = true ∧ (coS7.core (512 + 0)).halted = false ∧ (coS7.core (512 + 0)).atM = false ∧
    ((coS7.core (512 + 0)).mode = .active ∨ (coS7.core (512 + 0)).mode = .wfi) ∧ (coS7.core (512 + 0)).far = none ∧
    (coS7.core (512 + 0)).slot = none ∧ (coS7.core (512 + 0)).divU = none ∧ (coS7.core (512 + 0)).corU = none ∧
    settled coS7 (512 + 0) = true ∧ sramQuiet coS7 = true ∧ stackOk coS7 0 (BitVec.toNat (reg coS7 (512 + 0) 31).1) = true ∧
    (coS7.core (512 + 0)).nmi = 0 ∧ (coS7.core (512 + 0)).psf = true) := by
  decide +kernel

theorem witness_exception_entry_completes_2 :
    (up coS9 = true ∧ (coS9.core (512 + 0)).halted = false ∧ (coS9.core (512 + 0)).atM = false ∧
    ((coS9.core (512 + 0)).mode = .active ∨ (coS9.core (512 + 0)).mode = .wfi) ∧ (coS9.core (512 + 0)).far = none ∧
    (coS9.core (512 + 0)).slot = none ∧ (coS9.core (512 + 0)).divU = none ∧ (coS9.core (512 + 0)).corU = none ∧
    settled coS9 (512 + 0) = true ∧ sramQuiet coS9 = true ∧ stackOk coS9 0 (BitVec.toNat (reg coS9 (512 + 0) 31).1) = true ∧
    (coS9.core (512 + 0)).nmi = 0 ∧ (coS9.core (512 + 0)).psf = false ∧ coS9.bit .svCr 0 2 1 = true ∧ signalled coS9 0 = true) ∧
    (up coS0 = true ∧ (coS0.core (512 + 0)).halted = false ∧ (coS0.core (512 + 0)).atM = false ∧
    ((coS0.core (512 + 0)).mode = .active ∨ (coS0.core (512 + 0)).mode = .wfi) ∧ (coS0.core (512 + 0)).far = none ∧
    (coS0.core (512 + 0)).slot = none ∧ (coS0.core (512 + 0)).divU = none ∧ (coS0.core (512 + 0)).corU = none ∧
    settled coS0 (512 + 0) = true ∧ sramQuiet coS0 = true ∧ stackOk coS0 0 (BitVec.toNat (reg coS0 (512 + 0) 31).1) = true ∧
    (coS0.core (512 + 0)).nmi = 0 ∧ (coS0.core (512 + 0)).psf = false ∧ (coS0.bit .svCr 0 2 1 && signalled coS0 0) = false) ∧
    (coS30.core (512 + 0)).atM = true := by
  decide +kernel

theorem witness_stack_faults :
    (issues coS5 (512 + 0) = true ∧ settled coS5 (512 + 0) = true ∧ sramQuiet coS5 = true ∧
    judgeWord (Core.sv 0) 4294967295 = none ∧ stackOk coS5 0 (BitVec.toNat (reg coS5 (512 + 0) 31).1) = false ∧
    coS5.bit .svCr 0 2 4 = false) ∧
    (issues coS13 (512 + 0) = true ∧ settled coS13 (512 + 0) = true ∧ sramQuiet coS13 = true ∧
    judgeWord (Core.sv 0) 4294967295 = none ∧ stackOk coS13 0 (BitVec.toNat (reg coS13 (512 + 0) 31).1) = false ∧
    coS13.bit .svCr 0 2 4 = true) := by
  decide +kernel

theorem witness_eret_completes :
    (issues coS0 (512 + 0) = true ∧ settled coS0 (512 + 0) = true ∧ svPriv coS0 0 = true ∧ (coS0.core (512 + 0)).slot = none ∧
    sramQuiet coS0 = true ∧ 64 ≤ BitVec.toNat (reg coS0 (512 + 0) 31).1 ∧
    stackOk coS0 0 (BitVec.toNat (reg coS0 (512 + 0) 31).1 - 64) = true ∧
    (∀ i < 64, coS0.classAt (BitVec.toNat (reg coS0 (512 + 0) 31).1 - 64 + i) = .clean)) ∧
    (issues coS11 0 = true ∧ (coS11.core 0).slot = none ∧ bitOf (crAct coS11 0 4) 31 = true) := by
  decide +kernel

theorem witness_engine_traps_and_stops :
    (issues coS10 0 = true ∧ (coS10.core 0).sb = [] ∧ (coS10.core 0).slot = none ∧
    judgeWord (Core.ce 0) 2885681152 = some (Instr.reservedOpcode (Core.ce 0) 2885681152) ∧ bitOf (crAct coS10 0 3) 31 = true ∧
    bitOf (crAct coS10 0 4) 31 = false) ∧
    (issues coS0 0 = true ∧ (coS0.core 0).sb = [] ∧ judgeWord (Core.ce 0) 4294967295 = none) ∧
    (issues coS0 0 = true ∧ (coS0.core 0).sb = [] ∧
    judgeWord (Core.ce 0) 2885681152 = some (Instr.reservedOpcode (Core.ce 0) 2885681152) ∧
    (bitOf (crAct coS0 0 3) 31 = false ∨ bitOf (crAct coS0 0 4) 31 = true)) ∧
    ((coS0.core 0).mode = .active ∧ (coS0.core 0).halted = false ∧ coS0.dark = false) := by
  decide +kernel

theorem witness_engine_traps_and_stops_2 :
    ((coS8.core 0).mode ≠ .active ∨ coS8.dark = true) ∧
    ((coS28.core 0).halted = true ∧ (coS28.core 0).stepOne = false) ∧
    (up coS8 = true ∧ (coS8.core 0).mode = .stopped) := by
  decide +kernel

theorem witness_precise_arithmetic_traps :
    (issues prS0 0 = true ∧ precise prS0 0 = true ∧ ((reg prS0 0 1).2 || (reg prS0 0 1).2 || (reg prS0 0 1).2) = false ∧
    ((if -2 ^ 31 ≤ BitVec.toInt (reg prS0 0 1).1 + BitVec.toInt (reg prS0 0 1).1 ∧
      BitVec.toInt (reg prS0 0 1).1 + BitVec.toInt (reg prS0 0 1).1 < 2 ^ 31 then 0 else 4) ≠ 0) ∧
    (prS0.core 0).sb = []) ∧
    (issues prS0 512 = true ∧ precise prS0 512 = true ∧
    ((reg prS0 512 1).2 || (reg prS0 512 1).2 || (reg prS0 512 1).2) = false ∧
    ((if -2 ^ 31 ≤ BitVec.toInt (reg prS0 512 1).1 + BitVec.toInt (reg prS0 512 1).1 ∧
      BitVec.toInt (reg prS0 512 1).1 + BitVec.toInt (reg prS0 512 1).1 < 2 ^ 31 then 0 else 4) ≠ 0) ∧
    settled prS0 512 = true ∧ sramQuiet prS0 = true ∧ stackOk prS0 (512 - 512) (BitVec.toNat (reg prS0 512 31).1) = true) ∧
    (issues prS0 0 = true ∧ precise prS0 0 = true ∧ ((reg prS0 0 1).2 || (reg prS0 0 1).2 || (reg prS0 0 1).2) = false ∧
    ((if (fToq (reg prS0 0 1).1).aex = 2 then 2 else 0) ≠ 0) ∧ (prS0.core 0).sb = []) ∧
    (issues prS0 512 = true ∧ precise prS0 512 = true ∧
    ((reg prS0 512 1).2 || (reg prS0 512 1).2 || (reg prS0 512 1).2) = false ∧
    ((if (fToq (reg prS0 512 1).1).aex = 2 then 2 else 0) ≠ 0) ∧ settled prS0 512 = true ∧ sramQuiet prS0 = true ∧
    stackOk prS0 (512 - 512) (BitVec.toNat (reg prS0 512 31).1) = true) := by
  decide +kernel

theorem witness_long_instructions_complete :
    (issues coS5 (512 + 0) = true ∧ svPriv coS5 0 = true ∧ (coS5.core (512 + 0)).slot = none ∧ (coS5.core (512 + 0)).sb = [] ∧
    (reg coS5 (512 + 0) 9).2 = false ∧
    (LongKind.bcpy ≠ .bcrc → (reg coS5 (512 + 0) 9).2 = false ∧ BitVec.toNat (reg coS5 (512 + 0) 9).1 % 8 = 0) ∧
    (LongKind.bcpy ≠ .bset → (reg coS5 (512 + 0) 9).2 = false) ∧
    (LongKind.bcpy = .bcpy ∨ LongKind.bcpy = .bcrc → BitVec.toNat (reg coS5 (512 + 0) 9).1 % 8 = 0) ∧
    (reg coS5 (512 + 0) 9).1 = 0) ∧
    (issues coS0 (512 + 0) = true ∧ svPriv coS0 0 = true ∧ (coS0.core (512 + 0)).slot = none ∧ (coS0.core (512 + 0)).sb = [] ∧
    (reg coS0 (512 + 0) 9).2 = false ∧
    (LongKind.bcpy ≠ .bcrc → (reg coS0 (512 + 0) 9).2 = false ∧ BitVec.toNat (reg coS0 (512 + 0) 9).1 % 8 = 0) ∧
    (LongKind.bcpy ≠ .bset → (reg coS0 (512 + 0) 9).2 = false) ∧
    (LongKind.bcpy = .bcpy ∨ LongKind.bcpy = .bcrc → BitVec.toNat (reg coS0 (512 + 0) 9).1 % 8 = 0) ∧
    (reg coS0 (512 + 0) 9).1 ≠ 0) ∧
    (issues coS5 (512 + 0) = true ∧ svPriv coS5 0 = true ∧ (coS5.core (512 + 0)).slot = none ∧ (coS5.core (512 + 0)).sb = [] ∧
    (reg coS5 (512 + 0) 9).2 = false ∧
    (LongKind.cload ≠ .bcrc → (reg coS5 (512 + 0) 9).2 = false ∧ BitVec.toNat (reg coS5 (512 + 0) 9).1 % 8 = 0) ∧
    (LongKind.cload ≠ .bset → (reg coS5 (512 + 0) 9).2 = false) ∧
    (LongKind.cload = .bcpy ∨ LongKind.cload = .bcrc → BitVec.toNat (reg coS5 (512 + 0) 9).1 % 8 = 0) ∧
    (reg coS5 (512 + 0) 9).1 = 0) := by
  decide +kernel

theorem witness_long_instructions_complete_2 :
    (issues coS0 (512 + 0) = true ∧ svPriv coS0 0 = true ∧ (coS0.core (512 + 0)).slot = none ∧ (coS0.core (512 + 0)).sb = [] ∧
    (reg coS0 (512 + 0) 9).2 = false ∧
    (LongKind.cload ≠ .bcrc → (reg coS0 (512 + 0) 9).2 = false ∧ BitVec.toNat (reg coS0 (512 + 0) 9).1 % 8 = 0) ∧
    (LongKind.cload ≠ .bset → (reg coS0 (512 + 0) 9).2 = false) ∧
    (LongKind.cload = .bcpy ∨ LongKind.cload = .bcrc → BitVec.toNat (reg coS0 (512 + 0) 9).1 % 8 = 0) ∧
    (reg coS0 (512 + 0) 9).1 ≠ 0) := by
  decide +kernel

theorem witness_long_instructions_complete_3 :
    (up coS15 = true ∧ (coS15.core (512 + 0)).mode = .active ∧ (coS15.core (512 + 0)).halted = false ∧
    (coS15.core (512 + 0)).long = some lgSet ∧ dueEntry coS15 0 = none ∧ (coS15.core (512 + 0)).slot = none ∧
    (reg coS15 (512 + 0) lgSet.rb).1 ≠ 0 ∧ (coS15.core (512 + 0)).infl = [] ∧ lgSet.rd ≠ 0 ∧ lgSet.ra ≠ 0 ∧ lgSet.rb ≠ 0 ∧
    lgSet.rd ≠ lgSet.ra ∧ lgSet.rd ≠ lgSet.rb ∧ lgSet.ra ≠ lgSet.rb ∧ sramQuiet coS15 = true ∧
    (BitVec.toNat (reg coS15 (512 + 0) lgSet.rd).1 % 8 = 0 ∧ 536870912 ≤ BitVec.toNat (reg coS15 (512 + 0) lgSet.rd).1 ∧
      BitVec.toNat (reg coS15 (512 + 0) lgSet.rd).1 + (BitVec.toNat (reg coS15 (512 + 0) lgSet.rb).1).min 8 ≤ 541065216) ∧
    stepJudge coS15 0 AccOp.store (BitVec.toNat (reg coS15 (512 + 0) lgSet.rd).1) ((BitVec.toNat (reg coS15 (512 + 0) lgSet.rb).1).min 8) = 0 ∧
    (lgSet.kind = .bset ∨ lgSet.kind = .bcpy ∧ (BitVec.toNat (reg coS15 (512 + 0) lgSet.ra).1 % 8 = 0 ∧
      536870912 ≤ BitVec.toNat (reg coS15 (512 + 0) lgSet.ra).1 ∧
      BitVec.toNat (reg coS15 (512 + 0) lgSet.ra).1 + (BitVec.toNat (reg coS15 (512 + 0) lgSet.rb).1).min 8 ≤ 541065216) ∧
      stepJudge coS15 0 AccOp.load (BitVec.toNat (reg coS15 (512 + 0) lgSet.ra).1) ((BitVec.toNat (reg coS15 (512 + 0) lgSet.rb).1).min 8) = 0 ∧ ∀ i < (BitVec.toNat (reg coS15 (512 + 0) lgSet.rb).1).min 8, coS15.classAt (BitVec.toNat (reg coS15 (512 + 0) lgSet.ra).1 + i) = .clean)) := by
  decide +kernel

theorem witness_long_instructions_complete_4 :
    (up coS25 = true ∧ (coS25.core (512 + 0)).mode = .active ∧ (coS25.core (512 + 0)).halted = false ∧
    (coS25.core (512 + 0)).long = some lgCrc ∧ dueEntry coS25 0 = none ∧ (coS25.core (512 + 0)).slot = none ∧
    (reg coS25 (512 + 0) lgCrc.rb).1 ≠ 0 ∧ (coS25.core (512 + 0)).infl = [] ∧ lgCrc.rd ≠ 0 ∧ lgCrc.ra ≠ 0 ∧ lgCrc.rb ≠ 0 ∧
    lgCrc.rd ≠ lgCrc.ra ∧ lgCrc.rd ≠ lgCrc.rb ∧ lgCrc.ra ≠ lgCrc.rb ∧ sramQuiet coS25 = true ∧ lgCrc.kind = .bcrc ∧
    (BitVec.toNat (reg coS25 (512 + 0) lgCrc.ra).1 % 8 = 0 ∧ 536870912 ≤ BitVec.toNat (reg coS25 (512 + 0) lgCrc.ra).1 ∧
      BitVec.toNat (reg coS25 (512 + 0) lgCrc.ra).1 + (BitVec.toNat (reg coS25 (512 + 0) lgCrc.rb).1).min 8 ≤ 541065216) ∧
    stepJudge coS25 0 AccOp.load (BitVec.toNat (reg coS25 (512 + 0) lgCrc.ra).1) ((BitVec.toNat (reg coS25 (512 + 0) lgCrc.rb).1).min 8) = 0 ∧
    (∀ i < (BitVec.toNat (reg coS25 (512 + 0) lgCrc.rb).1).min 8, coS25.classAt (BitVec.toNat (reg coS25 (512 + 0) lgCrc.ra).1 + i) = .clean ∨ coS25.classAt (BitVec.toNat (reg coS25 (512 + 0) lgCrc.ra).1 + i) = .poison)) := by
  decide +kernel

theorem witness_long_instructions_complete_5 :
    (up coS26 = true ∧ (coS26.core (512 + 0)).mode = .active ∧ (coS26.core (512 + 0)).halted = false ∧
    (coS26.core (512 + 0)).long = some lgLoad ∧ dueEntry coS26 0 = none ∧ (coS26.core (512 + 0)).slot = none ∧
    (reg coS26 (512 + 0) lgLoad.rb).1 ≠ 0 ∧ (coS26.core (512 + 0)).infl = [] ∧ lgLoad.rd ≠ 0 ∧ lgLoad.ra ≠ 0 ∧ lgLoad.rb ≠ 0 ∧
    lgLoad.rd ≠ lgLoad.ra ∧ lgLoad.rd ≠ lgLoad.rb ∧ lgLoad.ra ≠ lgLoad.rb ∧ sramQuiet coS26 = true ∧ lgLoad.kind = .cload ∧
    BitVec.toNat (reg coS26 (512 + 0) lgLoad.ra).1 ≤ 16777215 ∧
    (BitVec.toNat (reg coS26 (512 + 0) lgLoad.rd).1 % 8 = 0 ∧ 536870912 ≤ BitVec.toNat (reg coS26 (512 + 0) lgLoad.rd).1 ∧
      BitVec.toNat (reg coS26 (512 + 0) lgLoad.rd).1 + 8 ≤ 541065216) ∧
    stepJudge coS26 0 AccOp.load (entryAddr (reg coS26 (512 + 0) lgLoad.ra).1) 8 = 0 ∧
    stepJudge coS26 0 AccOp.store (BitVec.toNat (reg coS26 (512 + 0) lgLoad.rd).1) 8 = 0 ∧
    decodeEntry (coS26.ckData (BitVec.toNat (reg coS26 (512 + 0) lgLoad.ra).1)) (coS26.ckErr (BitVec.toNat (reg coS26 (512 + 0) lgLoad.ra).1)) = (EntryClass.clean, 0)) := by
  decide +kernel

theorem witness_general_registers :
    issues coS0 512 = true := by
  decide +kernel

theorem witness_arithmetic_reports :
    (issues coS10 0 = true ∧ coS10.irqKeep = none ∧ fld (crAct coS10 0 1) 3 0 &&& fld (crAct coS10 0 2) 3 0 ≠ 0 ∧
    (Instr.check (Core.ce 0) = Instr.yield (Core.ce 0) → (coS10.core 0).slot = none ∧ (coS10.core 0).sb = [])) ∧
    (issues coS10 0 = true ∧ coS10.irqKeep = none ∧ fld (crAct coS10 0 1) 3 0 &&& fld (crAct coS10 0 2) 3 0 ≠ 0 ∧
    (Instr.yield (Core.ce 0) = Instr.yield (Core.ce 0) → (coS10.core 0).slot = none ∧ (coS10.core 0).sb = [])) := by
  decide +kernel

theorem witness_interrupt_commands_complete :
    ((irqS6.core (512 + 1)).far = some farO1 ∧ farO1.addr = claimAddr ∧ coreOff irqS6 (512 + 1) = false ∧
    (irqS6.core (512 + 2)).far = some farO2 ∧ farO2.addr = claimAddr ∧ farO1.order < farO2.order) ∧
    ((irqS8.core (512 + 1)).far = some farO1 ∧ farO1.addr = claimAddr ∧ coreOff irqS8 (512 + 1) = false ∧
    (irqS8.core (512 + 0)).far = none ∧ irqcBuffered irqS8 (512 + 0) = false ∧
    (irqS8.timeOk = false ∨ ∀ j < 4, ∀ q ∈ (irqS8.core (512 + j)).far, q.since ≠ irqS8.steady)) ∧
    (coreOff irqS0 (512 + 0) = false ∧ irqcBuffered irqS0 (512 + 0) = false ∧ claimBefore irqS0 0 (claimOrder irqS0) = false ∧
    Machine.signals irqS0 0 5 = true ∧
    (∀ j < 1024, Machine.signals irqS0 0 j = true → irqS0.rdF .irqPrio j 0 3 0 < irqS0.rdF .irqPrio 5 0 3 0 ∨
      irqS0.rdF .irqPrio j 0 3 0 = irqS0.rdF .irqPrio 5 0 3 0 ∧ 5 ≤ j)) ∧
    (coreOff irqS4 (512 + 0) = false ∧ irqcBuffered irqS4 (512 + 0) = false ∧ claimBefore irqS4 0 (claimOrder irqS4) = true) := by
  decide +kernel

theorem witness_interrupt_commands_complete_2 :
    (coreOff U (512 + 0) = false ∧ irqcBuffered U (512 + 0) = false ∧ claimBefore U 0 (claimOrder U) = false ∧
    (∀ j < 1024, Machine.signals U 0 j = false)) ∧
    (coreOff irqS2 (512 + 0) = false ∧ (irqS2.core (512 + 0)).yielding = false ∧
    (irqS2.core (512 + 0)).sb = [{ idx := 9, commit := false, addr := Reg.irqDone.addr 0 0, bytes := wordBytes 9 false }]) ∧
    (up irqS1 = true ∧ irqS1.stack 0 = [(9, 3), (4, 2)] ∧ fld 9 9 0 = 9) ∧
    (up irqS1 = true ∧ irqS1.stack 0 = [(9, 3), (4, 2)] ∧ fld 0 9 0 ≠ 9) := by
  decide +kernel

theorem witness_interrupt_commands_complete_3 :
    (up irqS0 = true ∧ irqS0.stack 0 = [] ∧ fld 0 9 0 = 0) ∧
    (up irqS0 = true ∧ irqS0.stack 0 = [] ∧ fld 9 9 0 ≠ 0) ∧
    (up irqS0 = true ∧ irqS0.irqKeep = none) ∧
    up irqS0 = true := by
  decide +kernel

theorem witness_device_accesses_complete :
    (dvS0.dark = false ∧ storeFault dvS0 Requester.host (1280) ≠ 0) ∧
    (dvS0.dark = false ∧ byCodes .sdChi = true ∧ 8 < Reg.sdChi.info.ni ∧ 0 < Reg.sdChi.info.nj ∧
    storeFault dvS0 (Requester.core (Core.sv 0)) (Reg.sdChi.addr 8 0) = 0) ∧
    (dvS0.str.pcieUp = true ∧ dvS0.dark = false ∧ hostJudge dvS0 AccOp.load (536875008) 8 = 0 ∧ 536875008 + 8 ≤ 541065216 ∧
    (∀ i < 8, dvS0.classAt (536875008 + i) = .clean)) ∧
    (dvS0.str.pcieUp = true ∧ dvS0.dark = false ∧ (hostJudge dvS0 AccOp.load (536875008) 600 ≠ 0 ∨ 512 < 600)) := by
  decide +kernel

theorem witness_device_accesses_complete_2 :
    (dvS0.str.pcieUp = true ∧ dvS0.dark = false ∧ sramQuiet dvS0 = true ∧
    hostJudge dvS0 AccOp.store (536875008) [1, 2, 3].length = 0 ∧ [1, 2, 3].length ≤ 8 ∧ 536875008 % 8 + [1, 2, 3].length ≤ 8 ∧
    [1, 2, 3] ≠ []) ∧
    (dvS1.bit .tbStat 0 0 1 = true ∧ dvS1.fm.power ≠ .hold ∧ dvS1.tb.leaving = false ∧ dvS1.bit .tbCtl 0 0 1 = false) ∧
    (dvS0.fm.reset = .none ∧ (∀ t < 8, dvS0.bit .lnCtl (3 * t) 0 18 = false ∧ trioRow dvS0 t = none)) ∧
    (dvS1.fm.reset = .none ∧ (∃ t < 8, dvS1.bit .lnCtl (3 * t) 0 18 = true)) := by
  decide +kernel

theorem witness_device_accesses_complete_3 :
    (up dvS0 = true ∧ dvS0.bit .hwCtl 0 0 0 = true ∧ 0 % 3 = 0) ∧
    (up dvS0 = true ∧ dvS0.bit .hwCtl 0 0 0 = true ∧ 4 % 3 ≠ 0) := by
  decide +kernel

theorem witness_memory_protection_commands_complete :
    majority (mpS0.vldAt 1) = false ∧
    majority (mpS0.vldAt 285212680) = true ∧
    (scrubOk mpS0 0 = true ∧ memOf 285212680 = some 0 ∧ 285212680 % 8 = 0 ∧
    ((mpS0.memS 0).repair = some 285212680 ∨ (mpS0.memS 0).repair = none ∧ mpS0.rdF .memPos 0 0 31 0 = 285212680 ∧
      285212680 + 8 < memBase 0 + memSize 0)) ∧
    ((mpS6.core 0).sb = [sbByte] ∧ coreOff mpS6 0 = false ∧ (mpS6.core 0).yielding = false ∧ sbByte.commit = false ∧
    16384 ≤ sbByte.addr ∧
    (0 < 512 → sbByte.addr + sbByte.bytes.length ≤ 32768 ∨ 268435456 ≤ sbByte.addr ∧ sbByte.addr < 285212672) ∧
    (512 ≤ 0 → 268435456 ≤ sbByte.addr) ∧ (∀ i < sbByte.bytes.length, memOf (busAddr 0 sbByte.addr + i) = some 1) ∧
    busAddr 0 sbByte.addr / 8 = (busAddr 0 sbByte.addr + sbByte.bytes.length - 1) / 8 ∧ mpS6.bit .memStat 1 0 7 = false ∧
    mpS6.rdF .memFlip 1 0 12 0 ≠ 0 ∧ (mpS6.bit .memFlip 1 0 30 = true → (mpS6.memS 1).owner = 0) ∧ 0 < sbByte.bytes.length ∧
    busAddr 0 sbByte.addr + 0 = busAddr 0 sbByte.addr / 8 * 8 + mpS6.rdF .memFlip 1 0 18 16) := by
  decide +kernel

theorem witness_memory_protection_commands_complete_2 :
    (scrubOk mpS0 0 = true ∧ (mpS0.memS 0).repair = none ∧ memOf (mpS0.rdF .memPos 0 0 31 0) = some 0 ∧
    mpS0.rdF .memPos 0 0 31 0 % 8 = 0 ∧ mpS0.vldAt (mpS0.rdF .memPos 0 0 31 0) = 7) ∧
    (mpS2.rdF .memCfg 0 0 10 5 ≠ 0 ∧ (mpS2.memS 0).lapFlagged = false ∧ mpS2.dark = false ∧
    400000 * mpS2.rdF .memCfg 0 0 10 5 ≤ lapTicks mpS2 0) ∧
    (mpS0.rdF .memCfg 0 0 10 5 ≠ 0 ∧ ((mpS0.memS 0).lapFlagged = true ∨ lapTicks mpS0 0 < 400000 * mpS0.rdF .memCfg 0 0 10 5)) ∧
    up mpS0 = true := by
  decide +kernel

theorem witness_memory_protection_commands_complete_3 :
    mpS1.bit .memStat 0 0 7 = true ∧
    (up mpS0 = true ∧ bitOf 0 13 = false ∧ bitOf 0 12 = false) ∧
    (up mpS0 = true ∧ mpS0.bit .mpCtl 0 0 0 = true) ∧
    (up mpS6 = true ∧ mpS6.bit .mpCtl 0 0 0 = false) := by
  decide +kernel

theorem witness_pmu_commands_complete :
    (issues pmS0 (512 + 0) = true ∧ (pmS0.core (512 + 0)).slot = none) ∧
    (issues pmS4 (512 + 0) = true ∧ ((reg pmS4 (512 + 0) 8).2 || (reg pmS4 (512 + 0) 8).2) = false ∧
    imprecise pmS4 (512 + 0) = true ∧ 2 ^ 31 ≤ BitVec.toInt (reg pmS4 (512 + 0) 8).1 + BitVec.toInt (reg pmS4 (512 + 0) 8).1) ∧
    (issues pmS4 (512 + 0) = true ∧ (baseAddr pmS4 (512 + 0) 10).2 = false ∧
    judge1 pmS4 (512 + 0) AccOp.load (BitVec.toNat ((baseAddr pmS4 (512 + 0) 10).1 + BitVec.signExtend 32 (0 : BitVec 16))) 4 = 0 ∧
    BitVec.toNat ((baseAddr pmS4 (512 + 0) 10).1 + BitVec.signExtend 32 (0 : BitVec 16)) % 4 = 0 ∧
    irqcBuffered pmS4 (512 + 0) = false ∧
    clring pmS4 (BitVec.toNat ((baseAddr pmS4 (512 + 0) 10).1 + BitVec.signExtend 32 (0 : BitVec 16))) = false ∧
    forward (pmS4.core (512 + 0)).sb (BitVec.toNat ((baseAddr pmS4 (512 + 0) 10).1 + BitVec.signExtend 32 (0 : BitVec 16))) 4 = Fwd.bytes sb1.bytes) ∧
    (issues pmS0 (512 + 0) = true ∧ (baseAddr pmS0 (512 + 0) 8).2 = false ∧
    judge1 pmS0 (512 + 0) AccOp.load (BitVec.toNat ((baseAddr pmS0 (512 + 0) 8).1 + BitVec.signExtend 32 (0 : BitVec 16))) 4 = 0 ∧
    BitVec.toNat ((baseAddr pmS0 (512 + 0) 8).1 + BitVec.signExtend 32 (0 : BitVec 16)) % 4 = 0 ∧
    irqcBuffered pmS0 (512 + 0) = false ∧
    clring pmS0 (BitVec.toNat ((baseAddr pmS0 (512 + 0) 8).1 + BitVec.signExtend 32 (0 : BitVec 16))) = false ∧
    forward (pmS0.core (512 + 0)).sb (BitVec.toNat ((baseAddr pmS0 (512 + 0) 8).1 + BitVec.signExtend 32 (0 : BitVec 16))) 4 = Fwd.none) := by
  decide +kernel

theorem witness_pmu_commands_complete_2 :
    (issues pmS4 (512 + 0) = true ∧ (baseAddr pmS4 (512 + 0) 2).2 = false ∧ (reg pmS4 (512 + 0) 8).2 = false ∧
    judge1 pmS4 (512 + 0) AccOp.store (BitVec.toNat ((baseAddr pmS4 (512 + 0) 2).1 + BitVec.signExtend 32 (0 : BitVec 16))) 4 = 0 ∧
    BitVec.toNat ((baseAddr pmS4 (512 + 0) 2).1 + BitVec.signExtend 32 (0 : BitVec 16)) % 4 ≠ 0 ∧
    (pmS4.core (512 + 0)).sb.length < 7) ∧
    ((pmS4.core (512 + 0)).sb = [sbSram] ∧ coreOff pmS4 (512 + 0) = false ∧ (pmS4.core (512 + 0)).yielding = false ∧
    (pmS4.core (512 + 0)).halted = false ∧ sbSram.commit = false ∧ 536870912 ≤ sbSram.addr ∧
    sbSram.addr + sbSram.bytes.length ≤ 541065216 ∧ clring pmS4 sbSram.addr = false) ∧
    (coreOff pmS0 (512 + 0) = false ∧ (pmS0.core (512 + 0)).halted = false ∧ (pmS0.core (512 + 0)).sb = [] ∧
    claimBefore pmS0 0 (claimOrder pmS0) = false ∧ (∀ j < 1024, Machine.signals pmS0 0 j = false)) ∧
    (issues pmS5 0 = true ∧ pmS5.bit .pmuTag (0 / 8) 0 0 = false) := by
  decide +kernel

theorem witness_pmu_commands_complete_3 :
    (issuesBeside pmS4 0 = true ∧ (pmS4.core 0).divU = some side1) ∧
    ((pmS5.core 0).sb = [sbRow] ∧ coreOff pmS5 0 = false ∧ (pmS5.core 0).yielding = false ∧ sbRow.commit = false ∧
    268435456 ≤ sbRow.addr ∧ sbRow.addr < 285212672 ∧ clring pmS5 sbRow.addr = false ∧
    sbRow.addr / 8 = (sbRow.addr + sbRow.bytes.length - 1) / 8) ∧
    (pmS0.dark = false ∧ loadFault pmS0 Requester.host (Reg.pmuFixl.addr 0 0) = 0 ∧ pmS0.funcHeld .pmuFixl 0 = false) ∧
    (pmS0.dark = false ∧ loadFault pmS0 (Requester.core (Core.ce 3)) (Reg.pmuFixl.addr 0 0) ≠ 0) := by
  decide +kernel

theorem witness_pmu_commands_complete_4 :
    (pmS3.inRst 73 = false ∧ svCounts pmS3 0 = false) ∧
    (pmS6.inRst 73 = false ∧ bitOf (pmS6.rd .pmuEvt) 6 = false ∧
    [4, 5, 2, 3].getD (fld (pmS6.rd .pmuEvt) 5 4) 0 ≤ fld (pmS6.rd .pmuEvt) 3 0) ∧
    (pmS6.inRst 73 = false ∧
    (fld (pmS6.rd .pmuRevt) 5 4 = 3 ∨ bitOf (pmS6.rd .pmuRevt) 6 = false ∧ 4 ≤ fld (pmS6.rd .pmuRevt) 3 0)) ∧
    (pmS0.inRst 73 = false ∧ svCounts pmS0 0 = true ∧ pmS0.bit .pmuCtl 0 0 1 = true ∧ pmS0.rd .pmuCnt 0 1 = 4294967295 ∧
    (bitOf (pmS0.rd .pmuEvt 0 1) 6 = true ∨
      fld (pmS0.rd .pmuEvt 0 1) 3 0 < [4, 5, 2, 3].getD (fld (pmS0.rd .pmuEvt 0 1) 5 4) 0)) := by
  decide +kernel

theorem witness_pmu_commands_complete_5 :
    (pmS0.inRst 73 = false ∧ pmS0.bit .pmuRctl 3 0 1 = true ∧ pmS0.rd .pmuRcnt 3 1 = 4294967295 ∧
    fld (pmS0.rd .pmuRevt 3 1) 5 4 < 3 ∧ (bitOf (pmS0.rd .pmuRevt 3 1) 6 = true ∨ fld (pmS0.rd .pmuRevt 3 1) 3 0 < 4)) ∧
    (up pmS0 = true ∧ pmS0.bit .pmuTag 0 0 0 = false ∧ fld 327680 31 16 ≠ 0) ∧
    (tags pmS7 3 = [runOpen] ∧ runOpen.done = false) ∧
    (tags pmS1 3 = [runDone, runLater] ∧ runDone.done = true ∧ pmS1.bit .pmuTrec 3 0 21 = true) := by
  decide +kernel

theorem witness_pmu_commands_complete_6 :
    (tags pmS0 3 = [runDone, runLater] ∧ runDone.done = true ∧ pmS0.bit .pmuTrec 3 0 21 = false ∧ runDone.eng < 512) ∧
    runDone.done = true ∧
    (up pmS2 = true ∧ pmS2.bit .pmuDctl 0 0 0 = false ∧ ringOk pmS2 (setBit 0 0 true) = true) ∧
    (up pmS4 = true ∧ pmS4.bit .pmuDctl 0 0 0 = false ∧ ringOk pmS4 (setBit 0 0 true) = false) := by
  decide +kernel

theorem witness_pmu_commands_complete_7 :
    (pmS0.bit .pmuDctl 0 0 0 = true ∧ pmS0.rdF .pmuDctl 0 0 30 20 + 1 ≤ pmS0.pmu.events ∧ pmS0.bit .pmuDstat 0 0 8 = false) ∧
    (pmS1.bit .pmuDctl 0 0 0 = true ∧ pmS1.rdF .pmuDctl 0 0 30 20 + 1 ≤ pmS1.pmu.events ∧ pmS1.bit .pmuDstat 0 0 8 = true) ∧
    pmS1.bit .pmuDstat 0 0 8 = true := by
  decide +kernel

theorem witness_directory_and_load_commands_complete :
    (up caS0 = true ∧ caS0.bit .ckStat 0 0 6 = false ∧ caS0.cask.waiting = []) ∧
    (up caS1 = true ∧ caS1.bit .ckStat 0 0 6 = true ∧ dirState caS1 7 = 0 ∧ caS1.rdF .ckDir 7 0 2 0 = 0 ∧ rangeOk caS1 7 = true) ∧
    (dirState caS2 2 = 2 ∧ caS2.bit .ckStat 0 0 6 = false ∧ caS2.cask.waiting = [] ∧ caS2.inRst 68 = false ∧ caS2.dark = false) ∧
    (caS2.rdF .ckDir 1 0 2 0 = 6 ∧ caS2.bit .ckStat 0 0 6 = false ∧ caS2.cask.waiting = [] ∧
    (tget (fun _ => []) caS2.cask.erase 1).head? = some 2 ∧ caS2.dark = false) := by
  decide +kernel

theorem witness_directory_and_load_commands_complete_2 :
    (up caS0 = true ∧ caS0.bit .ckStat 0 0 0 = false ∧ bitOf 8 30 = false ∧ fld 8 24 0 ≠ 0) ∧
    (caS2.bit .ckStat 0 0 0 = true ∧ caS2.rdF .ckLdcnt 0 0 24 0 ≠ 0 ∧ loadStopped caS2 = false ∧ caS2.cask.gcm = none ∧
    caS2.dark = false) ∧
    caS23.dark = true := by
  decide +kernel

theorem witness_switch_and_racking_commands_complete :
    (up caS0 = true ∧ bitOf 7 9 = false) ∧
    (up caS0 = true ∧ bitOf 7 8 = false) ∧
    (caS3.cask.sw = some (1, 7, 8) ∧ caS3.dark = false ∧ (caS3.rdF .ckSwstat 0 0 2 0 = 1 ∨ caS3.rdF .ckSwstat 0 0 2 0 = 2)) ∧
    (caS3.cask.sw = some (1, 7, 8) ∧ switchDue caS3 = false) := by
  decide +kernel

theorem witness_switch_and_racking_commands_complete_2 :
    (caS5.cask.sw = some (1, 7, 8) ∧ switchDue caS5 = true ∧ caS5.bit .ckStat 0 0 6 = false) ∧
    (up caS4 = true ∧ caS4.bit .ckCtl 0 0 4 = true) ∧
    (up caS0 = true ∧ caS0.bit .ckCtl 0 0 4 = false) ∧
    (rackOk caS4 = true ∧ caS4.bit .ckStat 0 0 6 = false ∧ caS4.cask.repair = some 12288 ∧
    (decodeEntry (caS4.ckData 12288) (caS4.ckErr 12288)).1 = EntryClass.single) := by
  decide +kernel

theorem witness_switch_and_racking_commands_complete_3 :
    (rackOk caS0 = true ∧ caS0.bit .ckStat 0 0 6 = false ∧ caS0.cask.repair = none ∧ caS0.rdF .rackPos 0 0 23 0 + 1 < 2 ^ 24 ∧
    (∀ v < 8, dirState caS0 v ≠ 6)) := by
  decide +kernel

theorem witness_string_cycle_commands_complete :
    (isSolo stS0 = false ∧ stS0.inRst (69 + 1) = false ∧ stS0.fm.reset = .none ∧ tget (fun _ => false) stS0.fm.down 5 = false) ∧
    (isSolo stS2 = true ∨ stS2.inRst (69 + 1) = true ∨ stS2.fm.reset ≠ .none ∨ tget (fun _ => false) stS2.fm.down 5 = true) ∧
    (stS1.bit .stLink 1 0 0 = true ∧ isSolo stS1 = false) ∧
    (stS0.bit .stLink 1 0 0 = false ∨ isSolo stS0 = true) := by
  decide +kernel

theorem witness_string_cycle_commands_complete_2 :
    (stS0.timeOk = true ∧ stS0.fm.reset = .none ∧ stS0.str.passThru = false ∧ stS0.str.placed ≠ some (cycleNow stS0)) ∧
    (stS8.timeOk = false ∨ stS8.str.passThru = true ∨ stS8.str.placed = some (cycleNow stS8)) ∧
    latchDue stS0 = false ∧
    (isHead stS40 = true ∧ stS40.timeOk = true ∧ passing stS40 1 = false ∧ latchDue stS40 = true) := by
  decide +kernel

theorem witness_cycle_frames_complete :
    (isHead stS32 = true ∧ isSolo stS32 = false ∧ stS32.timeOk = true ∧ passing stS32 1 = false ∧ stS32.str.resetDue = none ∧
    sendDue stS32 = true) ∧
    (isHead stS0 = false ∨ sendDue stS0 = false) ∧
    (passing stS8 1 = true ∨ 1 = 1 ∧ looping stS8 1 = false ∧ stS8.inRst 69 = true ∨ 1 = 0 ∧ isHead stS8 = false ∧
      stS8.inRst (69 + outPort stS8) = true) ∧
    (isHead stS3 = false ∧ stS3.str.resetDue = none ∧ passIn stS3 0 = false ∧ 13 ≤ (fr body1).length) := by
  decide +kernel

theorem witness_cycle_frames_complete_2 :
    (isHead stS0 = true ∧ isSolo stS0 = false ∧ passing stS0 0 = false ∧ (0 = 0 ∨ looping stS0 1 = true) ∧
    stS0.str.firstRet = none) ∧
    (isHead stS37 = true ∧ isSolo stS37 = false ∧ passing stS37 0 = false ∧ (0 = 0 ∨ looping stS37 1 = true) ∧
    stS37.str.firstRet = some (1 - 0, body1) ∧ 13 ≤ body1.length) ∧
    passing stS8 1 = true ∧
    (passing stS0 1 = false ∧
    (isHead stS0 = false ∨ isSolo stS0 = true ∨ 1 = 1 ∧ looping stS0 1 = false ∨
      Option.any (fun x => x.1 == 1) stS0.str.firstRet = true)) := by
  decide +kernel

theorem witness_other_frames_complete :
    (passing stS8 1 = true ∨ 1 = 1 ∧ looping stS8 1 = false ∧ stS8.inRst 69 = true ∨ 1 = 0 ∧ isHead stS8 = false ∧
      stS8.inRst (69 + outPort stS8) = true) ∧
    (isSolo stS2 = true ∧ passIn stS2 1 = false) ∧
    (isHead stS3 = false ∧ isSolo stS3 = false ∧ passIn stS3 0 = false ∧ crcOk (fr [1282, 1, 2, 3]) = true ∧
    fld ((fr [1282, 1, 2, 3]).getD 0 0) 15 8 = stAddr stS3 ∧ stAddr stS3 ≠ 255) ∧
    (isHead stS4 = false ∧ isSolo stS4 = false ∧ passIn stS4 0 = false ∧ crcOk (fr [1282, 1, 2, 3]) = true ∧
    fld ((fr [1282, 1, 2, 3]).getD 0 0) 15 8 ≠ stAddr stS4) := by
  decide +kernel

theorem witness_other_frames_complete_2 :
    (isSolo stS0 = false ∧ passIn stS0 1 = false ∧ looping stS0 1 = false) ∧
    (isHead stS3 = false ∧ isSolo stS3 = false ∧ passIn stS3 0 = false ∧ crcOk [] = false) ∧
    (isHead stS0 = true ∧ isSolo stS0 = false ∧ passIn stS0 0 = false ∧ fld ((fr [1282, 1, 2, 3]).getD 0 0) 15 8 ≠ stAddr stS0) ∧
    (passing stS0 1 = true ∨ isSolo stS0 = false ∧ portSends stS0 1 = false ∧ stS0.str.resetDue = none) := by
  decide +kernel

theorem witness_other_frames_complete_3 :
    (passing stS24 1 = false ∧ portSends stS24 1 = true ∧ stS24.str.resetDue = none ∧ qf2 ∈ (queued stS24 1).head? ∧
    (tget (fun _ => false) stS24.str.fwdLast 1 = true ∨ List.find? (fun x => x.port == 1) stS24.str.fwd = none)) ∧
    (passing stS25 1 = false ∧ portSends stS25 1 = true ∧ stS25.str.resetDue = none ∧
    (⟨1, [5]⟩ : QFrame) ∈ List.find? (fun x => x.port == 1) stS25.str.fwd ∧
    (tget (fun _ => false) stS25.str.fwdLast 1 = false ∨ (queued stS25 1).head? = none)) ∧
    (passing stS0 1 = true ∨ portSends stS0 1 = false ∨ stS0.timeOk = false ∨ stS0.now.toNat % cyct stS0 < cyct stS0 / 2 ∨
      tget (fun _ => none) stS0.str.echoIn 1 = some (cycleNow stS0)) ∧
    passing stS8 1 = true := by
  decide +kernel

theorem witness_other_frames_complete_4 :
    (passing stS2 1 = false ∧ isSolo stS2 = true) ∧
    (passing stS41 1 = false ∧ isSolo stS41 = false ∧ portSends stS41 1 = true ∧ stS41.timeOk = true ∧
    cyct stS41 / 2 ≤ stS41.now.toNat % cyct stS41 ∧ tget (fun _ => none) stS41.str.echoIn 1 ≠ some (cycleNow stS41)) ∧
    (up stS3 = true ∧ isHead stS3 = false ∧ bitOf 4 3 = false) ∧
    (up stS2 = true ∧ isHead stS2 = true ∧ isSolo stS2 = true) := by
  decide +kernel

theorem witness_other_frames_complete_5 :
    (up stS7 = true ∧ isHead stS7 = true ∧ isSolo stS7 = false ∧ (looping stS7 0 = true ∨ stS7.bit .stStat 0 0 0 = true)) ∧
    (up stS0 = true ∧ isHead stS0 = true ∧ isSolo stS0 = false ∧ looping stS0 0 = false ∧ stS0.bit .stStat 0 0 0 = false) ∧
    (passing stS8 0 = true ∨ isHead stS8 = false ∧ stS8.inRst (69 + outPort stS8) = true) ∧
    (isHead stS0 = true ∧ passIn stS0 0 = false) := by
  decide +kernel

theorem witness_other_frames_complete_6 :
    (isHead stS3 = false ∧ passIn stS3 0 = false) ∧
    passing stS8 0 = true ∧
    (isHead stS14 = true ∧ passing stS14 0 = false ∧ stS14.str.tuning = true ∧
    (looping stS14 0 = true ∨ stS14.bit .stStat 0 0 0 = true)) ∧
    (isHead stS0 = true ∧ passing stS0 0 = false ∧ stS0.str.tuning = true ∧ looping stS0 0 = false ∧
    stS0.bit .stStat 0 0 0 = false) := by
  decide +kernel

theorem witness_other_frames_complete_7 :
    (passing stS2 0 = false ∧ (isHead stS2 = false ∨ stS2.str.tuning = false)) ∧
    stS0.str.tuning = true ∧
    stS2.str.tuning = false := by
  decide +kernel

theorem witness_host_commands_complete :
    (hoS0.dark = false ∧ asksAnew hoS0 Path.slot 7 = false) ∧
    (asksAnew hoS97 Path.slot 7 = true ∧ asked hoS97 Path.slot 7 HostCmd.nop = true) ∧
    (asksAnew hoS139 Path.slot 7 = true ∧ asked hoS139 Path.slot 7 (HostCmd.unknown 32) = true) ∧
    (asksAnew hoS99 Path.slot 7 = true ∧ asked hoS99 Path.slot 7 (HostCmd.read 536875014 5) = true) := by
  decide +kernel

theorem witness_host_commands_complete_2 :
    (asksAnew hoS105 Path.slot 7 = true ∧ asked hoS105 Path.slot 7 (HostCmd.write 536875008 [1, 2, 3, 4]) = true) ∧
    (asksAnew hoS109 Path.slot 7 = true ∧ asked hoS109 Path.slot 7 (HostCmd.dsc true false [1, 2, 3, 4]) = true) ∧
    (asksAnew hoS115 Path.slot 7 = true ∧ hoS115.inRst 68 = false ∧
      asked hoS115 Path.slot 7 (HostCmd.arm 7 0 4294967295) = true) ∧
    (asksAnew hoS117 Path.slot 7 = true ∧ hoS117.inRst 68 = false ∧ asked hoS117 Path.slot 7 HostCmd.disarm = true) := by
  decide +kernel

theorem witness_host_commands_complete_3 :
    (asksAnew hoS119 Path.slot 7 = true ∧ asked hoS119 Path.slot 7 (HostCmd.freset 7) = true) ∧
    (asksAnew hoS129 Path.slot 7 = true ∧ asked hoS129 Path.slot 7 HostCmd.attnclr = true) ∧
    (asksAnew hoS131 Path.slot 7 = true ∧ asked hoS131 Path.slot 7 (HostCmd.mbox [1, 2, 3]) = true) ∧
    (asksAnew hoS133 Path.slot 7 = true ∧ asked hoS133 Path.slot 7 (HostCmd.power 1) = true) := by
  decide +kernel

theorem witness_host_commands_complete_4 :
    (asksAnew hoS137 Path.slot 7 = true ∧ asked hoS137 Path.slot 7 (HostCmd.cbclear [1, 2, 3]) = true) ∧
    (asksAnew hoS127 Path.slot 7 = true ∧ hoS127.str.resetDue = none ∧ asked hoS127 Path.slot 7 HostCmd.devreset = true) := by
  decide +kernel

theorem witness_descriptor_and_string_registers_complete :
    (hoS6.dark = false ∧ hoS6.bit .stDsc 0 0 1 = true ∧ hoS6.str.reapply = false ∧
    judgeDescriptor hoS6 hoS6.str.dbuf = Except.error (6, 0)) ∧
    (hoS8.dark = false ∧ hoS8.bit .stDsc 0 0 1 = true ∧ hoS8.str.reapply = false ∧
    judgeDescriptor hoS8 hoS8.str.dbuf = Except.ok []) ∧
    (hoS0.dark = true ∨ hoS0.bit .stDsc 0 0 1 = false) ∧
    (hoS3.dark = false ∧ hoS3.str.reapply = true) := by
  decide +kernel

theorem witness_descriptor_and_string_registers_complete_2 :
    (hoS0.dark = true ∨ hoS0.str.reapply = false) ∧
    (up hoS0 = true ∧ bitOf 0 2 = false) ∧
    (up hoS1 = true ∧ ringCond hoS1 = false ∧ hoS1.bit .stDsc 0 0 0 = true ∧ hoS1.bit .secStat 0 0 2 = false) ∧
    (up hoS0 = true ∧ ringCond hoS0 = false ∧ (hoS0.bit .stDsc 0 0 0 = false ∨ hoS0.bit .secStat 0 0 2 = true)) := by
  decide +kernel

theorem witness_descriptor_and_string_registers_complete_3 :
    (up hoS8 = true ∧ ringCond hoS8 = true) ∧
    (up hoS0 = true ∧ (∀ k < 64, hoS0.running k = false)) ∧
    (up hoS8 = true ∧ hoS8.running 1 = true) ∧
    hoS3.str.pcieUp = true := by
  decide +kernel

theorem witness_descriptor_and_string_registers_complete_4 :
    hoS0.str.pcieUp = false ∧
    (hoS0.dark = false ∧ hoS0.inRst 71 = false ∧ hoS0.str.perstn = true ∧ tget (fun _ => false) hoS0.fm.down 6 = false) ∧
    (hoS1.dark = true ∨ hoS1.inRst 71 = true ∨ hoS1.str.perstn = false) := by
  decide +kernel

theorem witness_reset_commands_complete :
    (rsS0.fm.reset ≠ .off ∨ PorCause.rail 0 = PorCause.supplies) ∧
    (rsS6.fm.reset = .off ∧ PorCause.rail 0 ≠ PorCause.supplies) ∧
    (rsS0.fm.reset ≠ .off ∧ rsS0.fm.reset ≠ .powerOn) ∧
    (rsS5.fm.reset = .off ∨ rsS5.fm.reset = .powerOn) := by
  decide +kernel

theorem witness_reset_commands_complete_2 :
    (up rsS0 = true ∧ fld 42240 15 8 = 165) ∧
    (up rsS0 = true ∧ fld 0 15 8 ≠ 165) ∧
    (rsS4.fm.reset = .device ∨ rsS4.fm.reset = .powerOn) ∧
    (rsS0.fm.reset = .none ∨ rsS0.fm.reset = .off) := by
  decide +kernel

theorem witness_reset_commands_complete_3 :
    (up rsS9 = true ∧
    (¬(Requester.core (Core.sv 1) = Requester.debug ∨ ∃ n, Requester.core (Core.sv 1) = Requester.core (Core.sv n) ∧
      svPriv rsS9 ↑n = true))) ∧
    (up rsS0 = true ∧
    (Requester.core (Core.sv 0) = Requester.debug ∨ ∃ n, Requester.core (Core.sv 0) = Requester.core (Core.sv n) ∧
      svPriv rsS0 ↑n = true)) ∧
    (rsS7.inRst 3 = true ∧ (3 ≠ 71 ∨ rsS7.str.perstn = true)) ∧
    rsS0.inRst 0 = false := by
  decide +kernel

theorem witness_reset_commands_complete_4 :
    (rsS7.inRst 3 = true ∧ rsS7.rdF .stAttn 0 0 7 0 < 3) ∧
    (rsS4.fm.reset = .device ∧ rsS4.rdF .stAttn 0 0 7 0 < 15) := by
  decide +kernel

theorem witness_supply_and_heartbeat_commands_complete :
    (inEpisode suS0 6 = false ∧ suS0.fm.reset = .none ∧ 0 < warnMv suS0 6) ∧
    (inEpisode suS0 6 = true ∨ warnMv suS0 6 ≤ 2999) ∧
    (ep0 ∈ tget (fun _ => none) suS0.fm.eps 0 ∧ ep0.low < 65536 ∧ 0 ≤ warnMv suS0 0 + 10) ∧
    (ep0 ∈ tget (fun _ => none) suS0.fm.eps 0 ∧ ep0.low < 65536 ∧ warnMv suS0 0 + 10 < 2999) := by
  decide +kernel

theorem witness_supply_and_heartbeat_commands_complete_2 :
    (up suS0 = true ∧ bitOf 0 0 = false) ∧
    suS4.fm.reset = .off ∧
    suS0.fm.reset ≠ .off ∧
    (suS0.timeOk = true ∧ suS0.fm.reset = .none ∧ suS0.fm.power ≠ .hold) := by
  decide +kernel

theorem witness_supply_and_heartbeat_commands_complete_3 :
    0 ∉ suS0.fm.probes ∧
    0 ∈ suS1.fm.probes := by
  decide +kernel

theorem witness_power_state_commands_complete :
    (up pwS0 = true ∧ svPriv pwS0 0 = true) ∧
    (pwS6.fm.power = .enteringIdle ∧ allQuiet pwS6 = true) ∧
    (pwS0.fm.power ≠ .enteringIdle ∨ allQuiet pwS0 = false) ∧
    pwS8.fm.power = .idle := by
  decide +kernel

theorem witness_power_state_commands_complete_2 :
    pwS0.fm.power ≠ .idle ∧
    (pwS11.fm.power = .enteringHold ∧ pwS11.fm.reset = .none) ∧
    (pwS0.fm.power ≠ .enteringHold ∨ pwS0.fm.reset ≠ .none) ∧
    (pwS14.fm.power = .hold ∧ pwS14.fm.wake = 0 ∧ pwS14.bit .tbStat 0 0 1 = true ∧ wakeReached (lfAdvance pwS14) = true) := by
  decide +kernel

theorem witness_power_state_commands_complete_3 :
    (pwS13.fm.power = .hold ∧ pwS13.fm.wake ≠ 0 ∧ pwS13.fm.wake < 8 ∧ pwS13.bit .pmuDstat 0 0 8 = false) ∧
    (pwS0.fm.power ≠ .hold ∨ pwS0.fm.wake = 0) := by
  decide +kernel

theorem witness_security_commands_complete :
    up seS0 = true ∧
    (up seS0 = true ∧ seS0.bit .secBankw 0 0 2 = false) ∧
    seS6.bit .secBankw 0 0 2 = true ∧
    (seS9.sec.bankBusy = some (0, 536875008) ∧ (seS9.bit .ckStat 0 0 6 = true ∨ seS9.dark = true)) := by
  decide +kernel

theorem witness_security_commands_complete_2 :
    (seS0.sec.bankBusy = some (0, 536875008) ∧ seS0.bit .ckStat 0 0 6 = false ∧ seS0.dark = false) ∧
    (up seS7 = true ∧ Requester.core (Core.sv 0) = Requester.core (Core.sv 0) ∧ seS7.bit .secStat 0 0 2 = true) ∧
    (up seS0 = true ∧ (Requester.core (Core.sv 0) ≠ Requester.core (Core.sv 0) ∨ seS0.bit .secStat 0 0 2 = false)) ∧
    (up seS0 = true ∧ Requester.core (Core.sv 1) ≠ Requester.core (Core.sv 0)) := by
  decide +kernel

theorem witness_security_commands_complete_3 :
    (up seS0 = true ∧ seS0.bit .secStat 0 0 2 = false) ∧
    (up seS1 = true ∧ secState seS1 = 1) ∧
    (up seS0 = true ∧ secState seS0 ≠ 1) ∧
    (up seS1 = true ∧ seS1.sec.chv = true) := by
  decide +kernel

theorem witness_security_commands_complete_4 :
    (up seS0 = true ∧ seS0.sec.chv = false) ∧
    seS1.sec.opening = some [1, 2, 3] ∧
    (secState seS6 = 2 ∧
    (!anyN 8 fun v => (dirState seS6 v == 6 || dirShown seS6 v == 6) && seS6.sec.dirMask.testBit v) = true ∧ seS6.dark = false) ∧
    (secState seS0 ≠ 2 ∨ (!anyN 8 fun v => (dirState seS0 v == 6 || dirShown seS0 v == 6) &&
      seS0.sec.dirMask.testBit v) = false ∨ seS0.dark = true) := by
  decide +kernel

theorem witness_debug_commands_complete :
    dbS0.fm.reset ≠ .off ∧
    (dbS5.fm.reset ≠ .off ∧ dbgBusy dbS5 true = true ∧ (0 = 0 ∨ 12 ≤ 0)) ∧
    (dbS0.fm.reset ≠ .off ∧ dbgBusy dbS0 true = false ∧ (dbS0.dark || tapLimited dbS0) = true ∧ 15728640 / 16777216 ≠ 104) ∧
    (dbS0.fm.reset ≠ .off ∧ dbgBusy dbS0 true = false ∧ (dbS0.dark || tapLimited dbS0) = true) := by
  decide +kernel

theorem witness_debug_commands_complete_2 :
    (dbS2.fm.reset ≠ .off ∧ dbgBusy dbS2 true = false ∧ (dbS2.dark || tapLimited dbS2) = false ∧
    hostReach dbS2 AccOp.load (15728640) 4 = false) ∧
    (dbS2.fm.reset ≠ .off ∧ dbgBusy dbS2 true = false ∧ (dbS2.dark || tapLimited dbS2) = false ∧
    hostReach dbS2 AccOp.load (0) 4 = true) ∧
    (dbS2.fm.reset ≠ .off ∧ dbgBusy dbS2 true = false ∧ (dbS2.dark || tapLimited dbS2) = false ∧
    hostReach dbS2 AccOp.store (15728640) 4 = false) ∧
    (dbS2.fm.reset ≠ .off ∧ dbgBusy dbS2 true = false ∧ (dbS2.dark || tapLimited dbS2) = false ∧
    hostReach dbS2 AccOp.store (536875008) 4 = true ∧ sramQuiet dbS2 = true) := by
  decide +kernel

theorem witness_debug_commands_complete_3 :
    (dbS2.fm.reset ≠ .off ∧ dbgBusy dbS2 true = false ∧ (dbS2.dark || tapLimited dbS2) = false) := by
  decide +kernel

theorem witness_book_commands_complete :
    (bookOk boS1 = true ∧ boS1.book.queue = [rec1, rec2] ∧ [rec2] ≠ [] ∧
    (decide (boS1.ccount ≠ 0) && sameEvent rec1 (boS1.circ (newestPlace boS1))) = true) ∧
    (bookOk boS0 = true ∧ boS0.book.queue = [rec1, rec2] ∧ [rec2] ≠ [] ∧
    (decide (boS0.ccount ≠ 0) && sameEvent rec1 (boS0.circ (newestPlace boS0))) = false) ∧
    bookOk boS2 = false ∧
    boS0.fm.reset ≠ .off := by
  decide +kernel

theorem witness_book_commands_complete_2 :
    (up boS0 = true ∧ storeFault boS0 (Requester.core (Core.ce 3)) (Reg.cbRead.addr 0 0) ≠ 0) ∧
    (up boS0 = true ∧ storeFault boS0 (Requester.core (Core.sv 0)) (Reg.cbRead.addr 0 0) = 0) ∧
    (up boS0 = true ∧ (3 < 512 ∨ (boS0.bank (bankOf 3)).started = false)) ∧
    (up boS6 = true ∧ (boS6.bank (bankOf 512)).started = true) := by
  decide +kernel

theorem witness_book_commands_complete_3 :
    (up boS0 = true ∧ storeFault boS0 (Requester.core (Core.ce 3)) (Reg.cbClear.addr 0 0) ≠ 0) ∧
    (up boS0 = true ∧ Requester.core (Core.ce 3) = Requester.core (Core.ce 3)) ∧
    (up boS17 = true ∧ Requester.core (Core.sv 0) = Requester.core (Core.sv 0) ∧ svPriv boS17 0 = false) ∧
    (up boS0 = true ∧ storeFault boS0 (Requester.core (Core.sv 0)) (Reg.cbClear.addr 0 0) = 0 ∧ boS0.book.clear = none) := by
  decide +kernel

theorem witness_book_commands_complete_4 :
    (up boS4 = true ∧ storeFault boS4 (Requester.core (Core.sv 0)) (Reg.cbClear.addr 0 0) = 0 ∧ boS4.book.clear.isSome = true) ∧
    (boS4.book.clear = some (some 5, [1, 2]) ∧ boS4.book.erasing = false) ∧
    (boS14.book.clear = some (none, [1, 2]) ∧ boS14.book.erasing = true ∧
    (boS14.bit .ckStat 0 0 6 = true ∨ boS14.inRst 74 = true ∨ boS14.dark = true)) ∧
    (boS13.book.clear = some (some 5, [1, 2]) ∧ boS13.book.erasing = true ∧ boS13.bit .ckStat 0 0 6 = false ∧
    boS13.inRst 74 = false ∧ boS13.dark = false) := by
  decide +kernel

theorem witness_lane_configuration_commands_complete :
    (up laS0 = true ∧ (0 % 3 = 0 → bitOf 0 18 = laS0.running 0)) ∧
    (up laS0 = true ∧ laS0.running 0 = false ∧ bitOf 786435 19 = true) ∧
    (up laS0 = true ∧ laS0.running 0 = false ∧ bitOf 0 19 = false) ∧
    (up laS1 = true ∧ laS1.running 1 = true) := by
  decide +kernel

theorem witness_lane_configuration_commands_complete_2 :
    (laS25.timeOk = false ∧ laS25.fm.reset = .none ∧ laS25.fm.power = .run ∧ laS25.fm.inrst = [] ∧ laS25.running 0 = false ∧
    bitOf 0 19 = false) ∧
    (decide (laS2.timeOk = true ∧ (laS2.trio 0).armed = true ∧
      laS2.now.toNat % Nat.max 5000 (Nat.min 400000 (laS2.rdF .stCyct 0 0 18 0)) = 0) = true) ∧
    (decide (laS0.timeOk = true ∧ (laS0.trio 0).armed = true ∧
      laS0.now.toNat % Nat.max 5000 (Nat.min 400000 (laS0.rdF .stCyct 0 0 18 0)) = 0) = false) ∧
    up laS0 = true := by
  decide +kernel

theorem witness_lane_configuration_commands_complete_3 :
    (up laS3 = true ∧ ((trioRow laS3 0).isSome || heritage laS3 0) = true) ∧
    (up laS0 = true ∧ ((trioRow laS0 0).isSome || heritage laS0 0) = false) ∧
    (laS4.timeOk = false ∨ laS4.commits = []) ∧
    (laS0.timeOk = true ∧ laS0.commits = [cm0] ∧ cm0.stores = [] ∧ (∀ n ∈ cm0.lanes, n < 192)) := by
  decide +kernel

theorem witness_lane_configuration_commands_complete_4 :
    (laS40.timeOk = true ∧ laS40.commits = [{ lanes := [3], stores := [] }] ∧ (3 % 3 ≠ 0 ∨ laS40.bit .lnCtl 3 0 17 = false) ∧
    laS40.counts 1 = true ∧ atBoundary laS40 1 = false) ∧
    (laS42.timeOk = true ∧ laS42.commits = [{ lanes := [3 * 1], stores := [] }] ∧ laS42.bit .lnCtl (3 * 1) 0 17 = true ∧
    laS42.counts 1 = true ∧ atBoundary laS42 1 = false) ∧
    ((!((laS2.lane 3).evTick == laS2.tb.ticks && (laS2.lane 3).evHad.contains LaneEv.zero) && !atBoundary laS2 1 && laS2.counts 1 && (laS2.trio 1).phase == 0 && laS2.bit .lnEvt 3 0 (evBit LaneEv.zero) && match LaneEv.zero with | LaneEv.zero => laS2.rdF .lnCnt (3 * 1) 0 23 0 == 0 && !laS2.bit .lnCnt (3 * 1) 0 24 | LaneEv.top => laS2.rdF .lnCnt (3 * 1) 0 23 0 == if upDown laS2 1 = true then trioPer laS2 1 else trioPer laS2 1 - 1 | LaneEv.cmp => laS2.rdF .lnCnt (3 * 1) 0 23 0 == laS2.rdF .lnEvt 3 0 23 0 && decide (laS2.rdF .lnEvt 3 0 23 0 ≤ if upDown laS2 1 = true then trioPer laS2 1 else trioPer laS2 1 - 1) && ((!upDown laS2 1 || !laS2.bit .lnCnt (3 * 1) 0 24 || laS2.rdF .lnEvt 3 0 23 0 == if upDown laS2 1 = true then trioPer laS2 1 else trioPer laS2 1 - 1) || laS2.bit .lnEvt 3 0 27)) = true) ∧
    ((!((laS0.lane 0).evTick == laS0.tb.ticks && (laS0.lane 0).evHad.contains LaneEv.zero) && !atBoundary laS0 0 && laS0.counts 0 && (laS0.trio 0).phase == 0 && laS0.bit .lnEvt 0 0 (evBit LaneEv.zero) && match LaneEv.zero with | LaneEv.zero => laS0.rdF .lnCnt (3 * 0) 0 23 0 == 0 && !laS0.bit .lnCnt (3 * 0) 0 24 | LaneEv.top => laS0.rdF .lnCnt (3 * 0) 0 23 0 == if upDown laS0 0 = true then trioPer laS0 0 else trioPer laS0 0 - 1 | LaneEv.cmp => laS0.rdF .lnCnt (3 * 0) 0 23 0 == laS0.rdF .lnEvt 0 0 23 0 && decide (laS0.rdF .lnEvt 0 0 23 0 ≤ if upDown laS0 0 = true then trioPer laS0 0 else trioPer laS0 0 - 1) && ((!upDown laS0 0 || !laS0.bit .lnCnt (3 * 0) 0 24 || laS0.rdF .lnEvt 0 0 23 0 == if upDown laS0 0 = true then trioPer laS0 0 else trioPer laS0 0 - 1) || laS0.bit .lnEvt 0 0 27)) = false) := by
  decide +kernel

theorem witness_lane_edges_complete :
    (edS18.counts 1 = true ∧ atBoundary edS18 1 = true) ∧
    (edS0.counts 1 = false ∨ atBoundary edS0 1 = false) ∧
    edS13.counts 1 = false ∧
    (edS15.counts 1 = true ∧ (edS15.lane 3).riseDone = false ∧ (edS15.lane 3).refresh = .none ∧
    (edS15.lane 3).inv = edS15.bit .lnOvr 3 0 1 ∧ reached edS15 3 (edS15.lane 3).rise = false) := by
  decide +kernel

theorem witness_lane_edges_complete_2 :
    (edS14.counts 1 = true ∧ (edS14.lane 3).riseDone = false ∧ (edS14.lane 3).refresh = .none ∧
    (edS14.lane 3).inv = edS14.bit .lnOvr 3 0 1 ∧ reached edS14 3 (edS14.lane 3).rise = true ∧ (edS14.lane 3).w = 0) ∧
    (edS0.counts 1 = true ∧ (edS0.lane 3).riseDone = false ∧ (edS0.lane 3).refresh = .none ∧
    (edS0.lane 3).inv = edS0.bit .lnOvr 3 0 1 ∧ reached edS0 3 (edS0.lane 3).rise = true ∧ (edS0.lane 3).w ≠ 0 ∧
    (decide (periodFine edS0 1 ≤ (edS0.lane 3).w ∨ minp edS0 3 + dtr edS0 3 ≤ (edS0.lane 3).w) = true)) ∧
    (edS2.counts 1 = true ∧ (edS2.lane 3).riseDone = false ∧ (edS2.lane 3).refresh = .none ∧
    (edS2.lane 3).inv = edS2.bit .lnOvr 3 0 1 ∧ reached edS2 3 (edS2.lane 3).rise = true ∧ (edS2.lane 3).w ≠ 0 ∧
    (decide (periodFine edS2 1 ≤ (edS2.lane 3).w ∨ minp edS2 3 + dtr edS2 3 ≤ (edS2.lane 3).w) = false) ∧
    (¬(policy edS2 3 = 2 ∧ canStretch edS2 3 = true))) ∧
    (edS4.counts 1 = true ∧ (edS4.lane 3).riseDone = false ∧ (edS4.lane 3).refresh = .none ∧
    (edS4.lane 3).inv = edS4.bit .lnOvr 3 0 1 ∧ reached edS4 3 (edS4.lane 3).rise = true ∧ (edS4.lane 3).w ≠ 0 ∧
    (decide (periodFine edS4 1 ≤ (edS4.lane 3).w ∨ minp edS4 3 + dtr edS4 3 ≤ (edS4.lane 3).w) = false) ∧ policy edS4 3 = 2 ∧
    canStretch edS4 3 = true) := by
  decide +kernel

theorem witness_lane_edges_complete_3 :
    (edS16.counts 1 = true ∧ (edS16.lane 3).offAt = some 30 ∧
    (reached edS16 3 ↑30 && ((edS16.lane 3).riseDone || (edS16.lane 3).w == 0 || decide (30 < (edS16.lane 3).rise))) = false) ∧
    (edS39.counts 1 = true ∧ (edS39.lane 3).offAt = some 30 ∧
    (reached edS39 3 ↑30 && ((edS39.lane 3).riseDone || (edS39.lane 3).w == 0 || decide (30 < (edS39.lane 3).rise))) = true) ∧
    (edS0.counts 1 = true ∧ (edS0.lane 3).fallDone = false ∧ (edS0.lane 3).offAt = none ∧
    reached edS0 3 (edS0.lane 3).fall = false) ∧
    (edS32.counts 1 = true ∧ (edS32.lane 3).fallDone = false ∧ (edS32.lane 3).offAt = none ∧
    reached edS32 3 (edS32.lane 3).fall = true ∧ (edS32.lane 3).refresh = .none ∧
    (edS32.lane 3).inv = edS32.bit .lnOvr 3 0 1 ∧ periodFine edS32 1 ≤ (edS32.lane 3).w ∧ (edS32.lane 3).w ≠ 0) := by
  decide +kernel

theorem witness_lane_edges_complete_4 :
    (edS18.counts 1 = true ∧ (edS18.lane 3).fallDone = false ∧ (edS18.lane 3).offAt = none ∧
    reached edS18 3 (edS18.lane 3).fall = true ∧ (edS18.lane 3).refresh = .none ∧
    (edS18.lane 3).inv = edS18.bit .lnOvr 3 0 1 ∧ (edS18.lane 3).w < periodFine edS18 1 ∧
    ((edS18.lane 3).w = 0 ∨ (!edS18.bit .lnCtl 3 0 1 ||
      decide (minp edS18 3 + dtf edS18 3 ≤ periodFine edS18 1 - (edS18.lane 3).w)) = true)) ∧
    (edS26.counts 1 = true ∧ (edS26.lane 3).fallDone = false ∧ (edS26.lane 3).offAt = none ∧
    reached edS26 3 (edS26.lane 3).fall = true ∧ (edS26.lane 3).refresh = .none ∧
    (edS26.lane 3).inv = edS26.bit .lnOvr 3 0 1 ∧ (edS26.lane 3).w ≠ 0 ∧ (edS26.lane 3).w < periodFine edS26 1 ∧
    (!edS26.bit .lnCtl 3 0 1 || decide (minp edS26 3 + dtf edS26 3 ≤ periodFine edS26 1 - (edS26.lane 3).w)) = false ∧
    (¬(policy edS26 3 = 2 ∧ canStretch edS26 3 = true))) ∧
    (edS28.counts 1 = true ∧ (edS28.lane 3).fallDone = false ∧ (edS28.lane 3).offAt = none ∧
    reached edS28 3 (edS28.lane 3).fall = true ∧ (edS28.lane 3).refresh = .none ∧
    (edS28.lane 3).inv = edS28.bit .lnOvr 3 0 1 ∧ (edS28.lane 3).w ≠ 0 ∧ (edS28.lane 3).w < periodFine edS28 1 ∧
    (!edS28.bit .lnCtl 3 0 1 || decide (minp edS28 3 + dtf edS28 3 ≤ periodFine edS28 1 - (edS28.lane 3).w)) = false ∧
    policy edS28 3 = 2 ∧ canStretch edS28 3 = true) := by
  decide +kernel

theorem witness_lane_edges_complete_5 :
    (edS28.counts 1 = true ∧ edS28.bit .lnCtl 3 0 1 = true ∧ policy edS28 3 = 2 ∧ canStretch edS28 3 = true ∧
    (edS28.lane 3).riseDone = true ∧ (edS28.lane 3).fallDone = false ∧ 0 < (edS28.lane 3).w ∧
    (edS28.lane 3).w < periodFine edS28 1 ∧
    (edS28.lane 3).rise + (periodFine edS28 1 - minp edS28 3 - dtf edS28 3) < (edS28.lane 3).fall ∧
    reached edS28 3 ((edS28.lane 3).rise + (periodFine edS28 1 - minp edS28 3 - dtf edS28 3)) = true) ∧
    (edS7.counts 1 = true ∧ edS7.bit .lnCtl 3 0 1 = true ∧ policy edS7 3 = 2 ∧ canStretch edS7 3 = true ∧
    (edS7.lane 3).riseDone = true ∧ (edS7.lane 3).fallDone = false ∧ 0 < (edS7.lane 3).w ∧
    (edS7.lane 3).w < periodFine edS7 1 ∧
    ((edS7.lane 3).fall ≤ (edS7.lane 3).rise + (periodFine edS7 1 - minp edS7 3 - dtf edS7 3) ∨
      reached edS7 3 ((edS7.lane 3).rise + (periodFine edS7 1 - minp edS7 3 - dtf edS7 3)) = false)) ∧
    edS38.timeOk = false ∧
    (edS17.timeOk = true ∧ endDue edS17 3 = false) := by
  decide +kernel

theorem witness_lane_edges_complete_6 :
    (edS0.timeOk = true ∧ (edS0.lane 3).dt = DeadTime.none) ∧
    ((edS0.lane 3).swap = false ∧ edS0.timeOk = true ∧ ((edS0.lane 3).dt = DeadTime.none ∨ endDue edS0 3 = true)) ∧
    ((edS0.lane 3).refresh ≠ .lowOn ∨ endDue edS0 3 = false) ∧
    ((edS1.lane 3).refresh = .lowOn ∧ endDue edS1 3 = true) := by
  decide +kernel

theorem witness_sensing_and_converter_commands_complete :
    (snS0.bit .sdWin 0 0 20 && decide (snS0.rdF .sdWin 0 0 7 0 = 0) && !snS0.inRst 64 && !snS0.dark) = false ∧
    ((snS16.bit .sdWin 0 0 20 && decide (snS16.rdF .sdWin 0 0 7 0 = 0) && !snS16.inRst 64 && !snS16.dark) = true ∧
    (snS16.sd 0).wins = []) ∧
    ((snS11.bit .sdWin 0 0 20 && decide (snS11.rdF .sdWin 0 0 7 0 = 0) && !snS11.inRst 64 && !snS11.dark) = true ∧
    (snS11.sd 0).wins = [win2] ++ [win1]) ∧
    (bitsFlow snS0 0 = true ∧ snS0.bit .sdFlt 0 0 0 = true ∧
    (List.replicate 4 true).length = mainOrder snS0 0 * mainOsr snS0 0 ∧ snS0.bit .sdWin 0 0 20 = false ∧ false = false ∧
    (snS0.sd 0).next ≤ bitsMay snS0 (0 / 8)) := by
  decide +kernel

theorem witness_sensing_and_converter_commands_complete_2 :
    (bitsFlow snS0 0 = true ∧ snS0.bit .sdFlt 0 0 0 = true ∧
    (List.replicate 4 true).length = mainOrder snS0 0 * mainOsr snS0 0 ∧ snS0.bit .sdWin 0 0 20 = false ∧
    (true = true ∨ bitsMay snS0 (0 / 8) < (snS0.sd 0).next)) ∧
    (bitsFlow snS11 0 = true ∧ snS11.bit .sdFlt 0 0 0 = true ∧
    (List.replicate 4 true).length = mainOrder snS11 0 * mainOsr snS11 0 ∧ snS11.bit .sdWin 0 0 20 = true ∧
    (∀ w ∈ (snS11.sd 0).wins, winEarly snS11 0 w = true)) ∧
    (bitsFlow snS13 0 = true ∧ snS13.bit .sdFlt 0 0 0 = true ∧
    (List.replicate 4 true).length = mainOrder snS13 0 * mainOsr snS13 0 ∧ snS13.bit .sdWin 0 0 20 = true ∧
    (snS13.sd 0).wins = [] ++ [win3] ∧ (∀ v ∈ [], winEarly snS13 0 v = true) ∧ winEarly snS13 0 win3 = false ∧
    (win3.merged ≠ true ∨ ↑snS13.now.toNat < readyTick snS13 0 win3)) ∧
    (bitsFlow snS33 0 = true ∧ snS33.bit .sdFlt 0 0 0 = true ∧
    (List.replicate 4 true).length = mainOrder snS33 0 * mainOsr snS33 0 ∧ snS33.bit .sdWin 0 0 20 = true ∧
    (snS33.sd 0).wins = [win2] ++ [win3] ∧ (∀ v ∈ [win2], winEarly snS33 0 v = true) ∧ winEarly snS33 0 win3 = false ∧
    win3.merged = false ∧ readyTick snS33 0 win3 ≤ ↑snS33.now.toNat) := by
  decide +kernel

theorem witness_sensing_and_converter_commands_complete_3 :
    (snS9.sd 0).first = some 19200 ∧
    (bitsFlow snS0 0 = true ∧ snS0.bit .sdCflt 0 0 0 = true ∧ (snS0.sd 0).cnext ≤ bitsMay snS0 (0 / 8) ∧
    (List.replicate 4 true).length = coarseOrder snS0 0 * coarseOsr snS0 0) ∧
    snS0.bit .sdClk (0 / 8) 0 1 = false ∧
    bitsMay snS27 (0 / 8) < (snS27.sd 0).cnext := by
  decide +kernel

theorem witness_sensing_and_converter_commands_complete_4 :
    ((snS28.sd 0).same = some 0 ∧ 0 + 256 ≤ bitsMay snS28 (0 / 8) ∧ (snS28.sd 0).told = false ∧ bitsFlow snS28 0 = true ∧
    (snS28.bit .sdFlt 0 0 0 = true ∨ snS28.bit .sdCflt 0 0 0 = true)) ∧
    ((snS27.sd 0).same = some 0 ∧ (bitsMay snS27 (0 / 8) < 0 + 256 ∨ (snS27.sd 0).told = true)) ∧
    (snS0.sd 0).same = none ∧
    bitsFlow snS2 0 = false := by
  decide +kernel

theorem witness_sensing_and_converter_commands_complete_5 :
    (snS1.timeOk = true ∧ clkIn snS1 0 = true ∧ snS1.tb.ticks < (snS1.sdg 0).mark + 400) ∧
    (snS34.timeOk = true ∧ clkIn snS34 0 = true ∧ (snS34.sdg 0).mark + 400 ≤ snS34.tb.ticks) ∧
    (snS1.timeOk = true ∧ clkIn snS1 0 = true ∧ decide (8 * 991 ≤ 64 * (snS1.tb.ticks - (snS1.sdg 0).mark + 1)) = false) ∧
    (snS17.timeOk = true ∧ clkIn snS17 0 = true ∧ decide (8 * 992 ≤ 64 * (snS17.tb.ticks - (snS17.sdg 0).mark + 1)) = true ∧
    (decide (992 ≤ 992 ∧ 992 ≤ 5248) = true)) := by
  decide +kernel

theorem witness_sensing_and_converter_commands_complete_6 :
    (snS17.timeOk = true ∧ clkIn snS17 0 = true ∧ decide (8 * 991 ≤ 64 * (snS17.tb.ticks - (snS17.sdg 0).mark + 1)) = true ∧
    (decide (992 ≤ 991 ∧ 991 ≤ 5248) = false)) ∧
    (snS1.timeOk = true ∧ clkIn snS1 0 = true ∧ (snS1.bit .sdGstat 0 0 14 = false ∨ (snS1.sdg 0).ok = false)) ∧
    (snS30.timeOk = true ∧ clkIn snS30 0 = true ∧ snS30.bit .sdGstat 0 0 14 = true ∧ (snS30.sdg 0).ok = true) ∧
    (snS0.timeOk = false ∨ clkIn snS0 0 = false) := by
  decide +kernel

theorem witness_sensing_and_converter_commands_complete_7 :
    up snS0 = true ∧
    (snS0.ad 0).due = [] ∧
    ((snS18.ad 0).due = [7] ∧ (adOn snS18 0 = false ∨ (snS18.ad 0).last = some 7)) ∧
    ((snS19.ad 0).due = [7, 8] ∧ adOn snS19 0 = true ∧ (snS19.ad 0).last ≠ some 7) := by
  decide +kernel

theorem witness_sensing_and_converter_commands_complete_8 :
    (up snS0 = true ∧ bitOf 0 7 = false) ∧
    (snS0.bit .adStat 0 0 0 = false ∨ snS0.tb.ticks < (snS0.ad 0).endAt) ∧
    ((snS4.ad 0).endAt ≤ snS4.tb.ticks ∧ snS4.bit .adStat 0 0 0 = true ∧ snS4.inRst 65 = false ∧ snS4.timeOk = true ∧
    snS4.dark = false ∧ tget (fun _ => false) snS4.fm.down 4 = false ∧ (snS4.ad 0).step < 8 ∧ 0 < snS4.fm.vrefUv) := by
  decide +kernel

theorem witness_mute_and_sto_commands_complete :
    muS9.dark = true ∧
    (muS1.dark = false ∧ muS1.src 0 = true) ∧
    (muS0.dark = false ∧ muS0.src 0 = false) ∧
    (up muS2 = true ∧ muS2.bit .muCtl 0 0 0 = true) := by
  decide +kernel

theorem witness_mute_and_sto_commands_complete_2 :
    (up muS0 = true ∧ muS0.bit .muCtl 0 0 0 = false) ∧
    up muS0 = true ∧
    (up muS0 = true ∧ bitOf 0 4 = false) ∧
    (up muS2 = true ∧ 2 ≤ muS2.rdF .muLine 0 0 1 0 ∧
    (2 ≤ if muS2.bit .muCtl 0 0 0 = true then muS2.rdF .muLine 0 0 1 0 else fld 0 1 0)) := by
  decide +kernel

theorem witness_mute_and_sto_commands_complete_3 :
    muS0.dark = false ∧
    (muS15.timeOk = true ∧ muS15.rdF .muTripcfg 0 0 2 1 ≠ 0 ∧
      (if muS15.rdF .muTripcfg 0 0 2 1 = 1 then 10 else 40) ≤ tget (fun _ => 0) muS15.fm.tripOn 0 ∧ tripActive muS15 0 = true ∧
        muS15.dark = false) ∧
    (¬(muS0.timeOk = true ∧ muS0.rdF .muTripcfg 0 0 2 1 ≠ 0 ∧
      (if muS0.rdF .muTripcfg 0 0 2 1 = 1 then 10 else 40) ≤ tget (fun _ => 0) muS0.fm.tripOn 0 ∧ tripActive muS0 0 = true ∧
        muS0.dark = false)) ∧
    (up muS2 = true ∧ muS2.acc = true) := by
  decide +kernel

theorem witness_mute_and_sto_commands_complete_4 :
    (up muS0 = true ∧ muS0.acc = false) ∧
    (muS12.extestOn = true ∧ muS12.fm.stoA = true ∧ muS12.fm.stoB = true ∧ rankOne muS12 = false) ∧
    (muS0.extestOn = false ∨ (muS0.fm.stoA && muS0.fm.stoB) = false ∨ rankOne muS0 = true) ∧
    muS0.fm.stoClearing = false := by
  decide +kernel

theorem witness_mute_and_sto_commands_complete_5 :
    muS3.fm.stoClearing = true ∧
    (muS2.fm.stoA ≠ muS2.fm.stoB ∧ muS2.rdF .muSto 0 0 31 16 ≠ 0) ∧
    (muS0.fm.stoA = muS0.fm.stoB ∨ muS0.rdF .muSto 0 0 31 16 = 0) := by
  decide +kernel

theorem witness_encoder_commands_complete :
    encOn enS6 = false ∧
    encOn enS0 = true ∧
    (enS0.timeOk = false ∨ ∀ e ∈ (enS0.enc 0).edges, enS0.tb.ticks < e.1) ∧
    (enS25.timeOk = true ∧ 5 ≤ enS25.tb.ticks ∧ [(5, 0, true)] ≠ [] ∧ (enS25.enc 0).edges = [(5, 0, true)] ++ [] ∧
    (∀ e ∈ [(5, 0, true)], e.1 = 5) ∧ (∀ e ∈ ([] : List (Nat × Nat × Bool)), 5 < e.1) ∧
    List.Pairwise (fun (e f : Nat × Nat × Bool) => e.1 ≤ f.1) [] ∧
    (3, 0, false) ∈ ((takeEdges enS25 0 [(5, 0, true)]).enc 0).hist) := by
  decide +kernel

theorem witness_encoder_commands_complete_2 :
    (enS25.timeOk = true ∧ 5 ≤ enS25.tb.ticks ∧ [(5, 0, true)] ≠ [] ∧ (enS25.enc 0).edges = [(5, 0, true)] ++ [] ∧
    (∀ e ∈ [(5, 0, true)], e.1 = 5) ∧ (∀ e ∈ ([] : List (Nat × Nat × Bool)), 5 < e.1) ∧
    List.Pairwise (fun (e f : Nat × Nat × Bool) => e.1 ≤ f.1) []) ∧
    (enS47.timeOk = true ∧ 5 ≤ enS47.tb.ticks ∧ [(5, 0, true)] ≠ [] ∧ (enS47.enc 0).edges = [(5, 0, true)] ++ [] ∧
    (∀ e ∈ [(5, 0, true)], e.1 = 5) ∧ (∀ e ∈ ([] : List (Nat × Nat × Bool)), 5 < e.1) ∧
    List.Pairwise (fun (e f : Nat × Nat × Bool) => e.1 ≤ f.1) [] ∧ (epEn enS47 0 = false ∨ epMode enS47 0 = 1)) ∧
    (enS25.timeOk = true ∧ 5 ≤ enS25.tb.ticks ∧ [(5, 0, true)] ≠ [] ∧ (enS25.enc 0).edges = [(5, 0, true)] ++ [] ∧
    (∀ e ∈ [(5, 0, true)], e.1 = 5) ∧ (∀ e ∈ ([] : List (Nat × Nat × Bool)), 5 < e.1) ∧
    List.Pairwise (fun (e f : Nat × Nat × Bool) => e.1 ≤ f.1) [] ∧ epEn enS25 0 = true ∧ epMode enS25 0 = 0 ∧
    (enS25.enc 0).z = (Option.map (fun x => x.2.2) (List.filter (fun x => x.2.1 == 2) [(5, 0, true)]).getLast?).getD (enS25.enc 0).z ∧
    (quadStep (enS25.enc 0).a (enS25.enc 0).b ((Option.map (fun x => x.2.2) (List.filter (fun x => x.2.1 == 0) [(5, 0, true)]).getLast?).getD (enS25.enc 0).a) ((Option.map (fun x => x.2.2) (List.filter (fun x => x.2.1 == 1) [(5, 0, true)]).getLast?).getD (enS25.enc 0).b)).1 ≠ 0) := by
  decide +kernel

theorem witness_encoder_commands_complete_3 :
    (enS33.timeOk = true ∧ 5 ≤ enS33.tb.ticks ∧ [(5, 0, true)] ≠ [] ∧ (enS33.enc 0).edges = [(5, 0, true)] ++ [] ∧
    (∀ e ∈ [(5, 0, true)], e.1 = 5) ∧ (∀ e ∈ ([] : List (Nat × Nat × Bool)), 5 < e.1) ∧
    List.Pairwise (fun (e f : Nat × Nat × Bool) => e.1 ≤ f.1) [] ∧ epEn enS33 0 = true ∧ epMode enS33 0 = 2) ∧
    (enS41.timeOk = true ∧ 5 ≤ enS41.tb.ticks ∧ [(5, 0, true)] ≠ [] ∧ (enS41.enc 0).edges = [(5, 0, true)] ++ [] ∧
    (∀ e ∈ [(5, 0, true)], e.1 = 5) ∧ (∀ e ∈ ([] : List (Nat × Nat × Bool)), 5 < e.1) ∧
    List.Pairwise (fun (e f : Nat × Nat × Bool) => e.1 ≤ f.1) [] ∧ epEn enS41 0 = true ∧ epMode enS41 0 = 3 ∧
    (enS41.enc 0).z = (Option.map (fun x => x.2.2) (List.filter (fun x => x.2.1 == 2) [(5, 0, true)]).getLast?).getD (enS41.enc 0).z) ∧
    (enS30.timeOk = true ∧ 5 ≤ enS30.tb.ticks ∧ [(5, 2, true)] ≠ [] ∧ (enS30.enc 0).edges = [(5, 2, true)] ++ [(7, 1, false)] ∧
    (∀ e ∈ [(5, 2, true)], e.1 = 5) ∧ (∀ e ∈ [(7, 1, false)], 5 < e.1) ∧
    List.Pairwise (fun (e f : Nat × Nat × Bool) => e.1 ≤ f.1) [(7, 1, false)] ∧ epEn enS30 0 = true ∧ epMode enS30 0 = 0 ∧
    (enS30.enc 0).z = false ∧
    (Option.map (fun x => x.2.2) (List.filter (fun x => x.2.1 == 2) [(5, 2, true)]).getLast?).getD (enS30.enc 0).z = true ∧
    enS30.rdF .epCfg 0 0 9 8 = 1 ∧ enS30.bit .epStat 0 0 14 = false) := by
  decide +kernel

theorem witness_encoder_commands_complete_4 :
    (encOn enS4 = true ∧ epEn enS4 0 = true ∧ rxUsed enS4 0 3 = true ∧ enS4.timeOk = true) ∧
    (encOn enS0 = true ∧ (epEn enS0 0 = false ∨ rxUsed enS0 0 3 = false ∨ enS0.timeOk = false)) ∧
    (up enS4 = true ∧ epMode enS4 0 = 1) ∧
    (up enS0 = true ∧ epMode enS0 0 ≠ 1) := by
  decide +kernel

theorem witness_encoder_commands_complete_5 :
    enS18.extestOn = true ∧
    (enS0.extestOn = false ∧ (epEn enS0 0 = false ∨ epMode enS0 0 ≠ 1 ∨ encOn enS0 = false)) ∧
    (enS4.extestOn = false ∧ epEn enS4 0 = true ∧ epMode enS4 0 = 1 ∧ encOn enS4 = true) ∧
    ((enS0.enc 0).frame = false ∨ (encOn enS0 && enS0.timeOk) = false ∨
      enS0.tb.ticks - (enS0.enc 0).t0 < (enS0.rdF .epSsi 0 0 4 0 + 2 + if enS0.rdF .epSsi 0 0 15 14 = 1 ∨
      enS0.rdF .epSsi 0 0 15 14 = 2 then 1 else 0) * Nat.max 40 (enS0.rdF .epSsi 0 0 12 5)) := by
  decide +kernel

theorem witness_encoder_commands_complete_6 :
    ((enS12.enc 0).frame = true ∧ (encOn enS12 && enS12.timeOk) = true ∧
    ((enS12.rdF .epSsi 0 0 4 0 + 2 + if enS12.rdF .epSsi 0 0 15 14 = 1 ∨
      enS12.rdF .epSsi 0 0 15 14 = 2 then 1 else 0) * Nat.max 40 (enS12.rdF .epSsi 0 0 12 5) ≤ enS12.tb.ticks - (enS12.enc 0).t0)) ∧
    (enS13.bit .epStat 0 0 9 = true ∧ (enS13.enc 0).frame = false ∧ (encOn enS13 && enS13.timeOk) = true ∧
    ((enS13.enc 0).d || !(enS13.enc 0).openRx.getLsbD 3 &&
      decide (enS13.rdF .epCfg 0 0 7 4 + 4 ≤ enS13.tb.ticks - (enS13.enc 0).dSince)) = true) ∧
    (enS17.bit .epStat 0 0 9 = true ∧ (enS17.enc 0).frame = false ∧ (encOn enS17 && enS17.timeOk) = true ∧
    ((enS17.enc 0).d || !(enS17.enc 0).openRx.getLsbD 3 &&
      decide (enS17.rdF .epCfg 0 0 7 4 + 4 ≤ enS17.tb.ticks - (enS17.enc 0).dSince)) = false) ∧
    (enS13.bit .epStat 0 0 9 = true ∧ (enS13.enc 0).frame = false ∧ (encOn enS13 && enS13.timeOk) = true ∧
    ((enS13.rdF .epSsi 0 0 4 0 + 2 + if enS13.rdF .epSsi 0 0 15 14 = 1 ∨
      enS13.rdF .epSsi 0 0 15 14 = 2 then 1 else 0) * Nat.max 40 (enS13.rdF .epSsi 0 0 12 5) + 10000 ≤ enS13.tb.ticks - (enS13.enc 0).t0)) := by
  decide +kernel

theorem witness_encoder_commands_complete_7 :
    (enS14.bit .epStat 0 0 9 = true ∧ (enS14.enc 0).frame = false ∧ (encOn enS14 && enS14.timeOk) = true ∧
    (enS14.tb.ticks - (enS14.enc 0).t0 < (enS14.rdF .epSsi 0 0 4 0 + 2 + if enS14.rdF .epSsi 0 0 15 14 = 1 ∨
      enS14.rdF .epSsi 0 0 15 14 = 2 then 1 else 0) * Nat.max 40 (enS14.rdF .epSsi 0 0 12 5) + 10000)) ∧
    (enS0.bit .epStat 0 0 9 = false ∨ (enS0.enc 0).frame = true ∨ (encOn enS0 && enS0.timeOk) = false) := by
  decide +kernel

theorem witness_row_commands_complete :
    up rwS0 = true ∧
    (up rwS2 = true ∧
    ((rwS2.bit .rwCtl 0 0 0 || anyN 4 fun y => y != 0 &&
      (namedEngines (rwS2.rd .rwBind 0 y)).any fun e => decide (e ∈ namedEngines 0)) || bitOf 0 31 && bitOf 0 15 &&
        fld 0 14 12 == fld 0 18 16) = true) ∧
    (up rwS0 = true ∧
    ((rwS0.bit .rwCtl 0 0 0 || anyN 4 fun y => y != 0 &&
      (namedEngines (rwS0.rd .rwBind 0 y)).any fun e => decide (e ∈ namedEngines 0)) || bitOf 0 31 && bitOf 0 15 &&
        fld 0 14 12 == fld 0 18 16) = false) ∧
    (up rwS3 = true ∧ slotValid rwS3 0 0 = true ∧ acting rwS3 0 0 = none ∧ able rwS3 (pce rwS3 0 0) = true) := by
  decide +kernel

theorem witness_row_commands_complete_2 :
    (up rwS3 = true ∧ slotValid rwS3 0 1 = true ∧ acting rwS3 0 1 = some (pce rwS3 0 1) ∧ rwS3.bit .rwBind 0 1 15 = true ∧
    rwS3.bit .rwSstat 0 1 1 = false ∧ able rwS3 (sce rwS3 0 1) = true) ∧
    (up rwS5 = true ∧ slotValid rwS5 0 0 = false) ∧
    ((rwS0.slot 0 0).acts = [act0] ∧ act0.cam = false ∧ rwS0.bit .rwCam 0 0 0 = true ∧ rwS0.inRst 68 = false ∧
      rwS0.dark = false) ∧
    ((rwS24.slot 0 0).acts = [act0] ∧ act0.cam = false ∧
    (rwS24.bit .rwCam 0 0 0 = false ∨ rwS24.inRst 68 = true ∨ rwS24.dark = true)) := by
  decide +kernel

theorem witness_row_commands_complete_3 :
    ((rwS0.slot 0 0).acts = [act0] ∧ act0.cam = false ∧ act0.vint = none) ∧
    ((rwS1.slot 0 0).acts = [act1, act0] ∧ act1.cam = false ∧ act1.vint = some 1 ∧
    rwS1.rdF .ckDirh 1 0 15 0 ≤ rwS1.rdF .rwCam 0 0 8 1) ∧
    ((rwS34.slot 0 0).acts = [camAct0] ∧ camAct0.cam = false ∧ camAct0.vint = some 1 ∧
    rwS34.rdF .rwCam 0 0 8 1 < rwS34.rdF .ckDirh 1 0 15 0) ∧
    (rwS0.bit .rwCtl 0 0 0 && slotValid rwS0 0 0 && (rwS0.row 0).first && !rwS0.inRst 0 && rwS0.fm.power != .idle &&
      rwS0.fm.reset == .none) = false := by
  decide +kernel

theorem witness_row_commands_complete_4 :
    ((rwS39.bit .rwCtl 0 0 0 && slotValid rwS39 0 0 && (rwS39.row 0).first && !rwS39.inRst 0 && rwS39.fm.power != .idle &&
      rwS39.fm.reset == .none) = true ∧
    2 ≤ (rwS39.slot 0 0).acts.length) ∧
    ((rwS40.bit .rwCtl 0 0 0 && slotValid rwS40 0 0 && (rwS40.row 0).first && !rwS40.inRst 0 && rwS40.fm.power != .idle &&
      rwS40.fm.reset == .none) = true ∧
    (rwS40.slot 0 0).acts.length < 2) ∧
    (∀ j < 64, ∀ y < 4, rwS41.rdF .rwTrig j y 2 0 = 1 ∧ (j == 0 && rwS41.rdF .rwTrig j y 15 8 == 3) = true ↔ j = 0 ∧ y = 0) ∧
    (∀ j < 64, ∀ y < 4, ¬(rwS0.rdF .rwTrig j y 2 0 = 0 ∧ false = true)) := by
  decide +kernel

theorem witness_row_commands_complete_5 :
    (slotOf rwS1 0 = some 0 ∧ (rwS1.eact 0).inAct = false) ∧
    (slotOf rwS9 0 = some 0 ∧ (rwS9.eact 0).inAct = true ∧ (rwS9.eact 0).committed = true) ∧
    (slotOf rwS42 1 = some 0 ∧ (rwS42.eact 1).inAct = true ∧ (rwS42.eact 1).committed = false ∧ (rwS42.eact 1).past = false ∧
    acting rwS42 (1 / 8) 0 = some 1 ∧ rwS42.bit .rwSstat (1 / 8) 0 1 = false) ∧
    (slotOf rwS7 0 = some 0 ∧ (rwS7.eact 0).inAct = true ∧ (rwS7.eact 0).committed = false ∧ (rwS7.eact 0).past = false ∧
    acting rwS7 (0 / 8) 0 = some 0 ∧ rwS7.bit .rwSstat (0 / 8) 0 1 = true ∧ (rwS7.slot (0 / 8) 0).began = some (0, 1) ∧
    ((rwS7.eact 0).missed && (rwS7.eact 1).missed) = false ∧ (rwS7.eact 1).applied = false ∧
    (rwS7.slot (0 / 8) 0).judged = false ∧
    (((rwS7.eact 1).committed || (rwS7.eact 1).yielded) && (rwS7.core 1).mode != .stopped) = true ∧
    (rwS7.core 0).mode ≠ .stopped ∧ (rwS7.eact 1).committed = true ∧ (rwS7.eact 1).staged = (rwS7.eact 0).staged) := by
  decide +kernel

theorem witness_row_commands_complete_6 :
    (slotOf rwS32 0 = some 0 ∧ (rwS32.eact 0).inAct = true ∧ (rwS32.eact 0).committed = false ∧ (rwS32.eact 0).past = false ∧
    acting rwS32 (0 / 8) 0 = some 0 ∧ rwS32.bit .rwSstat (0 / 8) 0 1 = true ∧ (rwS32.slot (0 / 8) 0).began = some (0, 1) ∧
    ((rwS32.eact 0).missed && (rwS32.eact 1).missed) = false ∧ (rwS32.eact 1).applied = false ∧
    (rwS32.slot (0 / 8) 0).judged = false ∧
    (((rwS32.eact 1).committed || (rwS32.eact 1).yielded) && (rwS32.core 1).mode != .stopped) = true ∧
    (rwS32.core 0).mode ≠ .stopped ∧ ((rwS32.eact 1).committed = false ∨ (rwS32.eact 1).staged ≠ (rwS32.eact 0).staged)) ∧
    (slotOf rwS9 1 = some 0 ∧ (rwS9.eact 1).inAct = true ∧ (rwS9.eact 1).committed = false ∧ (rwS9.eact 1).past = false ∧
    acting rwS9 (1 / 8) 0 = some 0 ∧ standby rwS9 (1 / 8) 0 = some 1 ∧ (rwS9.slot (1 / 8) 0).began = some (0, 1) ∧
    ((rwS9.eact 1).missed && (rwS9.eact 0).missed) = false ∧ (rwS9.slot (1 / 8) 0).judged = false ∧
    (((rwS9.eact 0).committed || (rwS9.eact 0).yielded) && (rwS9.core 0).mode != .stopped) = true ∧
    (rwS9.core 1).mode ≠ .stopped ∧ (rwS9.eact 0).committed = true ∧ (rwS9.eact 0).staged = (rwS9.eact 1).staged) := by
  decide +kernel

theorem witness_row_commands_complete_7 :
    (slotOf rwS45 1 = some 0 ∧ (rwS45.eact 1).inAct = true ∧ (rwS45.eact 1).committed = false ∧ (rwS45.eact 1).past = false ∧
    acting rwS45 (1 / 8) 0 = some 0 ∧ standby rwS45 (1 / 8) 0 = some 1 ∧ (rwS45.slot (1 / 8) 0).began = some (0, 1) ∧
    ((rwS45.eact 1).missed && (rwS45.eact 0).missed) = false ∧ (rwS45.slot (1 / 8) 0).judged = false ∧
    (((rwS45.eact 0).committed || (rwS45.eact 0).yielded) && (rwS45.core 0).mode != .stopped) = true ∧
    (rwS45.core 1).mode ≠ .stopped ∧ ((rwS45.eact 0).committed = false ∨ (rwS45.eact 0).staged ≠ (rwS45.eact 1).staged)) ∧
    (slotOf rwS54 0 = some 0 ∧ (rwS54.eact 0).inAct = true ∧ (rwS54.eact 0).committed = false ∧ (rwS54.eact 0).past = false ∧
    rwS54.bit .rwSstat (0 / 8) 0 1 = true ∧ (acting rwS54 (0 / 8) 0 = some 0 ∨ standby rwS54 (0 / 8) 0 = some 0) ∧
    ((rwS54.slot (0 / 8) 0).began = some (0, 1) ∨ (rwS54.slot (0 / 8) 0).began = some (1, 0)) ∧ (rwS54.eact 0).missed = true ∧
    (rwS54.eact 1).missed = true) ∧
    (slotOf rwS7 0 = some 0 ∧ acting rwS7 (0 / 8) 0 = some 0 ∧ standby rwS7 (0 / 8) 0 = some 1 ∧
    (rwS7.slot (0 / 8) 0).prev = none ∧ (rwS7.slot (0 / 8) 0).run.isSome = true ∧ rwS7.book.queue.length < 16) := by
  decide +kernel

theorem witness_row_commands_complete_8 :
    (slotOf rwS7 0 = some 0 ∧ acting rwS7 (0 / 8) 0 = some 0 ∧ standby rwS7 (0 / 8) 0 = some 1 ∧
    (rwS7.slot (0 / 8) 0).prev = none ∧ (rwS7.slot (0 / 8) 0).run.isSome = true ∧ (rwS7.eact 1).past = false ∧
    (rwS7.eact 1).committed = true ∧ (rwS7.eact 1).applied = false) ∧
    (slotOf rwS8 0 = some 0 ∧ acting rwS8 (0 / 8) 0 = some 0 ∧ standby rwS8 (0 / 8) 0 = some 1 ∧
    (rwS8.slot (0 / 8) 0).prev = none ∧ (rwS8.slot (0 / 8) 0).run.isSome = true ∧
    ((rwS8.eact 1).past = true ∨ (rwS8.eact 1).committed = false ∨ (rwS8.eact 1).applied = true)) ∧
    (slotOf rwS1 1 = some 0 ∧ acting rwS1 (1 / 8) 0 = some 0 ∧ standby rwS1 (1 / 8) 0 = some 1 ∧ rwS1.book.queue.length < 16) ∧
    (slotOf rwS0 1 = some 0 ∧ acting rwS0 (1 / 8) 0 = some 1 ∧ standby rwS0 (1 / 8) 0 = none) := by
  decide +kernel

theorem witness_row_commands_complete_9 :
    (slotOf rwS7 0 = some 0 ∧ (rwS7.eact 0).inAct = true ∧ (rwS7.eact 0).committed = false ∧ (rwS7.eact 0).past = false ∧
    answers rwS7 (0 / 8) 0 0 = true ∧ ((match (rwS7.slot (0 / 8) 0).run with | some (_, d) => d | none => false) = false)) ∧
    (slotOf rwS8 1 = some 0 ∧ (rwS8.eact 1).inAct = true ∧ (rwS8.eact 1).committed = false ∧ (rwS8.eact 1).past = false ∧
    (answers rwS8 (1 / 8) 0 1 = false ∨ (match (rwS8.slot (1 / 8) 0).run with | some (_, d) => d | none => false) = true)) ∧
    (1610612736, 1) ≠ (1610612736, 2) ∧
    sbCommit.commit = true := by
  decide +kernel

theorem witness_row_commands_complete_10 :
    (sbLane.commit = false ∧ 1610612736 ≤ sbLane.addr) ∧
    ((rwS0.slot 0 0).acts = [act0] ∧ act0.block = none ∧ allIn rwS0 0 0 act0 = false) ∧
    ((rwS19.slot 0 0).acts = [act3] ∧ act3.block = none ∧ allIn rwS19 0 0 act3 = true ∧
    (roles rwS19 0 0).any (able rwS19) = false ∧ (rwS19.slot 0 0).rejoin = none) ∧
    ((rwS15.slot 0 0).acts = [act3] ∧ act3.block = none ∧ allIn rwS15 0 0 act3 = true ∧ acting rwS15 0 0 = some 0 ∧
    standby rwS15 0 0 = some 1 ∧ (rwS15.fm.power != .idle && !rwS15.dark && (rwS15.slot 0 0).rejoin.isNone) = true ∧
    (rwS15.core 0).halted = true ∧ able rwS15 1 = true) := by
  decide +kernel

theorem witness_row_commands_complete_11 :
    ((rwS25.slot 0 0).acts = [act0] ∧ act0.block = none ∧
    (rwS25.fm.power != .idle && !rwS25.dark && (rwS25.slot 0 0).rejoin.isNone) = true ∧ allIn rwS25 0 0 act0 = true ∧
    acting rwS25 0 0 = some 1 ∧ standby rwS25 0 0 = none ∧ able rwS25 1 = true ∧ rwS25.bit .memStat 3 0 7 = false ∧
    rwS25.rdF .memFlip 3 0 12 0 = 0 ∧ act0.newv = false) ∧
    rwS22.dark = true ∧
    ((rwS29.slot 0 0).prev = some held0 ∧ deadlineCome rwS29 0 0 held0.since = true ∧ rwS29.dark = false) ∧
    ((rwS14.slot 0 0).run = some (7, false) ∧
    Option.all (fun h => !deadlineCome rwS14 0 0 h.since) (rwS14.slot 0 0).prev = true ∧ deadlineCome rwS14 0 0 7 = false) := by
  decide +kernel

theorem witness_row_commands_complete_12 :
    (Option.all (fun x => x.2) (rwS3.slot 0 0).run = true ∧
    Option.all (fun h => !deadlineCome rwS3 0 0 h.since) (rwS3.slot 0 0).prev = true ∧ rwS3.dark = false ∧
    (rwS3.slot 0 0).acts = []) ∧
    (Option.all (fun x => x.2) (rwS23.slot 0 0).run = true ∧
    Option.all (fun h => !deadlineCome rwS23 0 0 h.since) (rwS23.slot 0 0).prev = true ∧ rwS23.dark = false ∧
    (rwS23.slot 0 0).acts = [act4] ∧ deadlineCome rwS23 0 0 act4.since = false) ∧
    (Option.all (fun x => x.2) (rwS0.slot 0 0).run = true ∧
    Option.all (fun h => !deadlineCome rwS0 0 0 h.since) (rwS0.slot 0 0).prev = true ∧ rwS0.dark = false ∧
    (rwS0.slot 0 0).acts = [act0] ∧ deadlineCome rwS0 0 0 act0.since = true) ∧
    ((rwS42.slot 0 0).run = some (7, false) ∧
    Option.all (fun h => !deadlineCome rwS42 0 0 h.since) (rwS42.slot 0 0).prev = true ∧ deadlineCome rwS42 0 0 7 = true ∧
    rwS42.dark = false ∧ acting rwS42 0 0 = some 1 ∧ standby rwS42 0 0 = none ∧ lateEngine rwS42 1 = true) := by
  decide +kernel

theorem witness_row_commands_complete_13 :
    ((rwS26.slot 0 0).run = some (4, false) ∧
    Option.all (fun h => !deadlineCome rwS26 0 0 h.since) (rwS26.slot 0 0).prev = true ∧ deadlineCome rwS26 0 0 4 = true ∧
    rwS26.dark = false ∧ acting rwS26 0 0 = some 1 ∧ standby rwS26 0 0 = none ∧ lateEngine rwS26 1 = false) ∧
    ((rwS8.slot 0 0).run = some (7, false) ∧ Option.all (fun h => !deadlineCome rwS8 0 0 h.since) (rwS8.slot 0 0).prev = true ∧
    deadlineCome rwS8 0 0 7 = true ∧ rwS8.dark = false ∧ acting rwS8 0 0 = some 0 ∧ standby rwS8 0 0 = some 1 ∧
    (rwS8.slot 0 0).began = some (0, 1) ∧ lateEngine rwS8 0 = true ∧ lateEngine rwS8 1 = true) ∧
    ((rwS7.slot 0 0).run = some (7, false) ∧ Option.all (fun h => !deadlineCome rwS7 0 0 h.since) (rwS7.slot 0 0).prev = true ∧
    deadlineCome rwS7 0 0 7 = true ∧ rwS7.dark = false ∧ acting rwS7 0 0 = some 0 ∧ standby rwS7 0 0 = some 1 ∧
    (rwS7.slot 0 0).began = some (0, 1) ∧ lateEngine rwS7 0 = true ∧ (rwS7.eact 1).committed = true ∧
    (rwS7.core 0).halted = false) := by
  decide +kernel

theorem witness_row_commands_complete_14 :
    ((rwS11.slot 0 0).run = some (7, false) ∧
    Option.all (fun h => !deadlineCome rwS11 0 0 h.since) (rwS11.slot 0 0).prev = true ∧ deadlineCome rwS11 0 0 7 = true ∧
    rwS11.dark = false ∧ acting rwS11 0 0 = some 0 ∧ standby rwS11 0 0 = some 1 ∧ (rwS11.slot 0 0).began = some (0, 1) ∧
    lateEngine rwS11 0 = true ∧ (rwS11.eact 1).committed = true ∧ (rwS11.core 0).halted = true) ∧
    ((rwS9.slot 0 0).run = some (7, false) ∧ Option.all (fun h => !deadlineCome rwS9 0 0 h.since) (rwS9.slot 0 0).prev = true ∧
    deadlineCome rwS9 0 0 7 = true ∧ rwS9.dark = false ∧ acting rwS9 0 0 = some 0 ∧ standby rwS9 0 0 = some 1 ∧
    (rwS9.slot 0 0).began = some (0, 1) ∧ lateEngine rwS9 0 = false ∧ lateEngine rwS9 1 = true) := by
  decide +kernel

theorem witness_access_faults_and_poison :
    (issues afS0 0 = true ∧ faultable afS0 0 ∧ Instr.lb (Core.ce 0) 4 4 0 ≠ Instr.lhp (Core.ce 0) 4 4 0 ∧
    Instr.lb (Core.ce 0) 4 4 0 ≠ Instr.lwp (Core.ce 0) 4 4 0 ∧ (baseAddr afS0 0 4).2 = true) ∧
    (issues afS2 0 = true ∧ faultable afS2 0 ∧ Instr.lb (Core.ce 0) 4 4 0 ≠ Instr.lhp (Core.ce 0) 4 4 0 ∧
    Instr.lb (Core.ce 0) 4 4 0 ≠ Instr.lwp (Core.ce 0) 4 4 0 ∧ (baseAddr afS2 0 4).2 = false ∧
    judge1 afS2 0 AccOp.load (BitVec.toNat ((baseAddr afS2 0 4).1 + BitVec.signExtend 32 (0 : BitVec 16))) 1 ≠ 0) ∧
    (issues afS3 0 = true ∧ faultable afS3 0 ∧ Instr.lwp (Core.ce 0) 4 6 0 ≠ Instr.lhp (Core.ce 0) 6 6 0 ∧
    Instr.lwp (Core.ce 0) 4 6 0 ≠ Instr.lwp (Core.ce 0) 6 6 0 ∧ (baseAddr afS3 0 6).2 = true) ∧
    (issues afS0 0 = true ∧ faultable afS0 0 ∧ Instr.lwp (Core.ce 0) 4 6 0 ≠ Instr.lhp (Core.ce 0) 6 6 0 ∧
    Instr.lwp (Core.ce 0) 4 6 0 ≠ Instr.lwp (Core.ce 0) 6 6 0 ∧ (baseAddr afS0 0 6).2 = false ∧
    judge1 afS0 0 AccOp.load (BitVec.toNat (baseAddr afS0 0 6).1) 4 ≠ 0) := by
  decide +kernel

theorem witness_access_faults_and_poison_2 :
    (issues afS0 0 = true ∧ faultable afS0 0 ∧ (reg afS0 0 4).2 = true ∧ (afS0.core 0).slot = none) ∧
    (issues afS0 0 = true ∧ faultable afS0 0 ∧ (reg afS0 0 4).2 = true ∧ (512 ≤ 0 → svPriv afS0 (0 - 512) = true)) ∧
    ((Instr.lw (Core.ce 0) 6 4 0).core? = some (Core.ce 0) ∧ atIssue afS7 0 = true ∧ faultable afS7 0 ∧
    (afS7.core 0).divU = none ∧ (afS7.core 0).corU = none ∧ (afS7.core 0).atM = false ∧ (afS7.core 0).held = false ∧
    ((if (afS7.core 0).pc % 4 ≠ 0 ∧ ¬(512 < 0 ∧
      hwWindow (afS7.core 0).pc = true) then 4 else judge1 afS7 0 AccOp.fetch (afS7.core 0).pc 4) ≠ 0)) ∧
    ((Instr.lw (Core.ce 0) 6 4 0).core? = some (Core.ce 0) ∧ atIssue afS10 0 = true ∧ faultable afS10 0 ∧
    (afS10.core 0).divU = none ∧ (afS10.core 0).corU = none ∧ (afS10.core 0).atM = false ∧ (afS10.core 0).held = false ∧
    ((if (afS10.core 0).pc % 4 ≠ 0 ∧ ¬(512 < 0 ∧
      hwWindow (afS10.core 0).pc = true) then 4 else judge1 afS10 0 AccOp.fetch (afS10.core 0).pc 4) = 0) ∧
    (clring afS10 (if 0 < 512 then memBase (2 * 0) + (afS10.core 0).pc else (afS10.core 0).pc) = false) ∧
    ((memOf (if 0 < 512 then memBase (2 * 0) + (afS10.core 0).pc else (afS10.core 0).pc)).isSome = true) ∧
    (∃ x < 4, (afS10.byteAt ((if 0 < 512 then memBase (2 * 0) + (afS10.core 0).pc else (afS10.core 0).pc) + x)).2 = true)) := by
  decide +kernel

theorem witness_access_faults_and_poison_3 :
    ((1 = 1 ∨ 1 = 2 ∨ 1 = 4) ∧ 524288 < 2 ^ 32 ∧ ((halves 524288 1).any fun h => hwWindow h.1 ||
      hwWindow (h.1 + h.2 - 1)) = true) ∧
    ((4 = 1 ∨ 4 = 2 ∨ 4 = 4) ∧ 1 < 2 ^ 32 ∧ ((halves 1 4).any fun h => hwWindow h.1 || hwWindow (h.1 + h.2 - 1)) = false ∧
    AccOp.atomic = AccOp.atomic ∧ 1 % 4 ≠ 0) ∧
    ((1 = 1 ∨ 1 = 2 ∨ 1 = 4) ∧ 262144 < 2 ^ 32 ∧
    ((halves 262144 1).any fun h => hwWindow h.1 || hwWindow (h.1 + h.2 - 1)) = false ∧ 262144 + 1 ≤ 268435456 ∧
    262144 % 4 + 1 ≤ 4 ∧ AccOp.fetch ≠ AccOp.atomic) ∧
    ((1 = 1 ∨ 1 = 2 ∨ 1 = 4) ∧ 0 < 2 ^ 32 ∧ AccOp.load ≠ AccOp.fetch ∧ 0 + 1 ≤ 16384 ∧ 0 % 1 = 0) := by
  decide +kernel

theorem witness_access_faults_and_poison_4 :
    ((1 = 1 ∨ 1 = 2 ∨ 1 = 4) ∧ 16400 < 2 ^ 32 ∧ AccOp.load ≠ AccOp.fetch ∧ 16400 + 1 ≤ 32768 ∧ 16400 % 1 = 0) ∧
    ((1 = 1 ∨ 1 = 2 ∨ 1 = 4) ∧ 524288 < 2 ^ 32 ∧
    (((halves 524288 1).any fun h => hwWindow h.1 || hwWindow (h.1 + h.2 - 1)) = false ∨ 0 = 0) ∧
    (524288 % 1 != 0 && (AccOp.load == AccOp.atomic || (halves 524288 1).any fun h => periph h.1) ||
      ((halves 524288 1).any fun h => hwWindow h.1 || hwWindow (h.1 + h.2 - 1)) && AccOp.load != AccOp.fetch && (1 != 2 ||
        524288 % 2 != 0 || AccOp.load == AccOp.atomic)) = true) ∧
    ((1 = 1 ∨ 1 = 2 ∨ 1 = 4) ∧ 536887296 < 2 ^ 32 ∧
    (((halves 536887296 1).any fun h => hwWindow h.1 || hwWindow (h.1 + h.2 - 1)) = false ∨ 0 = 0) ∧
    (536887296 % 1 != 0 && (AccOp.fetch == AccOp.atomic || (halves 536887296 1).any fun h => periph h.1) ||
      ((halves 536887296 1).any fun h => hwWindow h.1 || hwWindow (h.1 + h.2 - 1)) && AccOp.fetch != AccOp.fetch && (1 != 2 ||
        536887296 % 2 != 0 || AccOp.fetch == AccOp.atomic)) = false ∧
    (∃ h ∈ halves 536887296 1, mpuOk afS5 0 (svPriv afS5 0) AccOp.fetch h.1 = false ∨ svPriv afS5 0 = false ∧
      536870912 < h.1 + h.2 ∧ h.1 < 536875008)) ∧
    ((1 = 1 ∨ 1 = 2 ∨ 1 = 4) ∧ 0 < 2 ^ 32 ∧
    (((halves 0 1).any fun h => hwWindow h.1 || hwWindow (h.1 + h.2 - 1)) = false ∨ 0 = 0) ∧
    (0 % 1 != 0 && (AccOp.fetch == AccOp.atomic || (halves 0 1).any fun h => periph h.1) ||
      ((halves 0 1).any fun h => hwWindow h.1 || hwWindow (h.1 + h.2 - 1)) && AccOp.fetch != AccOp.fetch && (1 != 2 ||
        0 % 2 != 0 || AccOp.fetch == AccOp.atomic)) = false ∧
    svPriv afS0 0 = true ∧ (∀ h ∈ halves 0 1, mpuOk afS0 0 true AccOp.fetch h.1 = true)) := by
  decide +kernel

theorem witness_access_faults_and_poison_5 :
    (∀ r < 16, ¬(afS0.bit .svCr 0 (32 + r) 0 = true ∧ 64 * afS0.rdF .svCr 0 (32 + r) 31 6 ≤ 0 ∧
      0 < 64 * afS0.rdF .svCr 0 (48 + r) 31 6)) ∧
    ((afS6.bit .svCr 0 (32 + 0) 0 = true ∧ 64 * afS6.rdF .svCr 0 (32 + 0) 31 6 ≤ 536887296 ∧
      536887296 < 64 * afS6.rdF .svCr 0 (48 + 0) 31 6) ∧
    (∀ q < 0, ¬(afS6.bit .svCr 0 (32 + q) 0 = true ∧ 64 * afS6.rdF .svCr 0 (32 + q) 31 6 ≤ 536887296 ∧
      536887296 < 64 * afS6.rdF .svCr 0 (48 + q) 31 6)) ∧
    afS6.bit .svCr 0 2 2 = false) ∧
    ((afS5.bit .svCr 0 (32 + 0) 0 = true ∧ 64 * afS5.rdF .svCr 0 (32 + 0) 31 6 ≤ 536887296 ∧
      536887296 < 64 * afS5.rdF .svCr 0 (48 + 0) 31 6) ∧
    (∀ q < 0, ¬(afS5.bit .svCr 0 (32 + q) 0 = true ∧ 64 * afS5.rdF .svCr 0 (32 + q) 31 6 ≤ 536887296 ∧
      536887296 < 64 * afS5.rdF .svCr 0 (48 + q) 31 6)) ∧
    afS5.bit .svCr 0 2 2 = true) ∧
    ((1 = 1 ∨ 1 = 2 ∨ 1 = 4) ∧ 0 % 4 + 1 ≤ 4) := by
  decide +kernel

theorem witness_access_faults_and_poison_6 :
    ((1 = 1 ∨ 1 = 2 ∨ 1 = 4) ∧ 262144 % 4 + 1 ≤ 4 ∧ (262144 < 524288 ∨ 528384 ≤ 262144)) ∧
    ((1 = 1 ∨ 1 = 2 ∨ 1 = 4) ∧ 268435472 % 4 + 1 ≤ 4) ∧
    ((1 = 1 ∨ 1 = 2 ∨ 1 = 4) ∧ 285212688 % 4 + 1 ≤ 4 ∧ 285212688 % 32768 < 16384) ∧
    ((1 = 1 ∨ 1 = 2 ∨ 1 = 4) ∧ 285229072 % 4 + 1 ≤ 4 ∧ 16384 ≤ 285229072 % 32768) := by
  decide +kernel

theorem witness_access_faults_and_poison_7 :
    ((1 = 1 ∨ 1 = 2 ∨ 1 = 4) ∧ 301989888 % 4 + 1 ≤ 4 ∧ (301989888 < 536870912 ∨ 541065216 ≤ 301989888)) ∧
    ((1 = 1 ∨ 1 = 2 ∨ 1 = 4) ∧ 536887296 % 4 + 1 ≤ 4) ∧
    ((1 = 1 ∨ 1 = 2 ∨ 1 = 4) ∧ 1073741840 % 4 + 1 ≤ 4 ∧ AccOp.fetch ≠ AccOp.load) ∧
    ((1 = 1 ∨ 1 = 2 ∨ 1 = 4) ∧ 1610612737 % 4 + 1 ≤ 4 ∧ periph 1610612737 = true ∧
    (1 ≠ 4 ∨ AccOp.fetch = AccOp.fetch ∨ AccOp.fetch = AccOp.atomic)) := by
  decide +kernel

end Sys2Proof.Tests
end

section
namespace Sys2Proof.Proofs
open Sys2Proof Sys2Proof.Machine Sys2Proof.Safety Sys2Proof.Laws

/-! ### Bits and fields of a word (R7) -/

theorem bitOf_eq_getLsbD (w : Word) (b : Nat) : bitOf w b = w.getLsbD b := rfl

theorem testBit_fld (w : Word) (hi lo i : Nat) :
    (fld w hi lo).testBit i = (decide (i < hi + 1 - lo) && bitOf w (lo + i)) := by
  simp [fld, bitOf, Nat.testBit_mod_two_pow, Nat.testBit_shiftRight]

/-- Fields are equal that agree bit by bit. -/
theorem fld_congr {v w : Word} {hi lo : Nat} (h : ∀ b, lo ≤ b → b ≤ hi → bitOf v b = bitOf w b) :
    fld v hi lo = fld w hi lo := by
  refine Nat.eq_of_testBit_eq fun i => ?_
  rw [testBit_fld, testBit_fld]
  by_cases hi' : i < hi + 1 - lo
  · rw [h (lo + i) (by omega) (by omega)]
  · simp [hi']

theorem getLsbD_maskOf (hi lo b : Nat) (hb : b < 32) :
    (maskOf hi lo).getLsbD b = (decide (lo ≤ b) && decide (b ≤ hi)) := by
  rw [maskOf, BitVec.getLsbD_ofNat, Nat.testBit_shiftLeft, Nat.testBit_two_pow_sub_one]
  by_cases h : lo ≤ b
  · simp [hb, h]; omega
  · simp [h]

theorem bitOf_setFld (w : Word) (hi lo v b : Nat) (hb : b < 32) :
    bitOf (setFld w hi lo v) b = if lo ≤ b ∧ b ≤ hi then v.testBit (b - lo) else bitOf w b := by
  simp only [bitOf_eq_getLsbD, setFld, BitVec.getLsbD_or, BitVec.getLsbD_and, BitVec.getLsbD_not, hb,
    getLsbD_maskOf hi lo b hb, BitVec.getLsbD_ofNat, Nat.testBit_shiftLeft, decide_true, Bool.true_and]
  by_cases h1 : lo ≤ b <;> by_cases h2 : b ≤ hi <;> simp [h1, h2]

theorem fld_setFld_same (w : Word) (hi lo v : Nat) (hh : hi < 32) :
    fld (setFld w hi lo v) hi lo = v % 2 ^ (hi + 1 - lo) := by
  refine Nat.eq_of_testBit_eq fun i => ?_
  rw [testBit_fld, Nat.testBit_mod_two_pow]
  by_cases hi' : i < hi + 1 - lo
  · simp [hi', bitOf_setFld w hi lo v (lo + i) (by omega), show lo + i ≤ hi by omega]
  · simp [hi']

theorem fld_setFld_ne (w : Word) (hi lo v hi' lo' : Nat) (hh : hi' < 32) (h : hi < lo' ∨ hi' < lo) :
    fld (setFld w hi lo v) hi' lo' = fld w hi' lo' :=
  fld_congr fun b h1 h2 => by
    rw [bitOf_setFld w hi lo v b (by omega), if_neg (by omega)]

theorem bitOf_setBit (w : Word) (i b : Nat) (v : Bool) (hb : b < 32) :
    bitOf (setBit w i v) b = if b = i then v else bitOf w b := by
  rw [setBit, bitOf_setFld w i i _ b hb]
  by_cases h : b = i
  · subst h; cases v <;> simp
  · rw [if_neg (by omega), if_neg h]

theorem fld_setBit_ne (w : Word) (i hi lo : Nat) (v : Bool) (hh : hi < 32) (h : i < lo ∨ hi < i) :
    fld (setBit w i v) hi lo = fld w hi lo := fld_setFld_ne w i i _ hi lo hh h

theorem fld_lt (w : Word) (hi lo : Nat) : fld w hi lo < 2 ^ (hi + 1 - lo) := Nat.mod_lt _ (by positivity)

@[simp] theorem bitOf_zero (b : Nat) : bitOf 0 b = false := by simp [bitOf]
@[simp] theorem fld_zero (hi lo : Nat) : fld 0 hi lo = 0 := by simp [fld]

theorem fld_wd (n hi : Nat) (h : hi < 32) : fld (wd n) hi 0 = n % 2 ^ (hi + 1) := by
  simp only [fld, wd, BitVec.toNat_ofNat, Nat.shiftRight_zero, Nat.sub_zero]
  exact Nat.mod_mod_of_dvd _ (pow_dvd_pow 2 (by omega))

/-- What a write by the access codes leaves in bit `b` (R9, R10). -/
theorem bitOf_applyWrite (g : RegInfo) (lk : Bool) (old v : Word) (b : Nat) (hb : b < 32) :
    bitOf (applyWrite g lk old v) b =
      ((if g.rw.getLsbD b || (g.rwl.getLsbD b && !lk) then bitOf v b else bitOf old b) &&
        !(bitOf v b && g.w1c.getLsbD b) || (bitOf v b && g.w1s.getLsbD b)) := by
  simp only [bitOf_eq_getLsbD, applyWrite]
  cases lk <;> simp only [Bool.false_eq_true, if_false, if_true, BitVec.getLsbD_or, BitVec.getLsbD_and, BitVec.getLsbD_not, hb,
    decide_true, Bool.true_and, Bool.not_false, Bool.and_true, Bool.not_true, Bool.and_false, Bool.or_false] <;>
    cases g.rw.getLsbD b <;> cases g.rwl.getLsbD b <;> simp

end Sys2Proof.Proofs
end

section
namespace Sys2Proof.Proofs
open Sys2Proof Sys2Proof.Machine Sys2Proof.Safety Sys2Proof.Laws

/-! ### Addresses of the index (R390, R391)

The addresses of a register are an arithmetic pattern. Two registers of a block are told apart by their residues to one
modulus: the whole address space, a stride of the first, or its inner stride. -/

/-- How far the addresses of a line of the index reach beyond its base, strides that are multiples of `m` aside. -/
def span (m : Nat) (g : RegInfo) : Nat :=
  (if m ∣ g.si then 0 else g.si * (g.ni - 1)) + (if m ∣ g.sj then 0 else g.sj * (g.nj - 1))

/-- The residues to `m` of a line's addresses do not wrap. -/
def fits (m : Nat) (g : RegInfo) : Bool := decide (g.base % m + span m g < m)

/-- The residues to `m` of two lines' addresses lie in intervals that do not meet. -/
def apartMod (m : Nat) (g h : RegInfo) : Bool :=
  fits m g && fits m h &&
    (decide (g.base % m + span m g < h.base % m) || decide (h.base % m + span m h < g.base % m))

/-- Two lines of the index share no address. -/
def apart (g h : RegInfo) : Bool := apartMod (2 ^ 33) g h || apartMod g.si g h || apartMod g.sj g h

/-- A line's indices can be found again from an address. -/
def decodable (g : RegInfo) : Bool :=
  (g.si != 0 || g.ni == 1) && (g.sj != 0 || g.nj == 1) &&
    (g.ni == 1 || g.sj == 0 || decide (g.sj * (g.nj - 1) < g.si))

/-- The blocks of R391 that hold registers, the Heritage window as 0. -/
def regBlocks : List Nat := 0 :: (List.range 16).map (0x60 + ·)

theorem addr_eq {r : Reg} (h : r ≠ .ceCr) (i j : Nat) :
    r.addr i j = r.info.base + r.info.si * i + r.info.sj * j := by
  unfold Reg.addr
  split
  · exact absurd rfl h
  · rfl

/-- The part of a stride's multiple that counts to `m`. -/
theorem stride_mod (m k n i : Nat) (hi : i < n) :
    ∃ x ≤ if m ∣ k then 0 else k * (n - 1), k * i ≡ x [MOD m] := by
  by_cases h : m ∣ k
  · exact ⟨0, by simp, (Nat.modEq_zero_iff_dvd.2 (h.mul_right i))⟩
  · exact ⟨k * i, by simpa [h] using Nat.mul_le_mul_left k (by omega), rfl⟩

/-- Where the residues of a line's addresses lie. -/
theorem addr_mod {g : RegInfo} {m i j : Nat} (hf : fits m g = true) (hi : i < g.ni) (hj : j < g.nj) :
    g.base % m ≤ (g.base + g.si * i + g.sj * j) % m ∧
      (g.base + g.si * i + g.sj * j) % m ≤ g.base % m + span m g := by
  obtain ⟨x, hx, ex⟩ := stride_mod m g.si g.ni i hi
  obtain ⟨y, hy, ey⟩ := stride_mod m g.sj g.nj j hj
  have hs : x + y ≤ span m g := Nat.add_le_add hx hy
  have hm : g.base % m + span m g < m := by simpa [fits] using hf
  have hc : g.base + g.si * i + g.sj * j ≡ g.base % m + x + y [MOD m] := ((Nat.mod_modEq g.base m).symm.add ex).add ey
  have e : (g.base + g.si * i + g.sj * j) % m = g.base % m + x + y := Eq.trans hc (Nat.mod_eq_of_lt (by omega))
  omega

theorem ne_of_apartMod {m : Nat} {g h : RegInfo} {i j a b : Nat} (hap : apartMod m g h = true) (hi : i < g.ni)
    (hj : j < g.nj) (ha : a < h.ni) (hb : b < h.nj) :
    g.base + g.si * i + g.sj * j ≠ h.base + h.si * a + h.sj * b := by
  simp only [apartMod, Bool.and_eq_true, Bool.or_eq_true, decide_eq_true_eq] at hap
  obtain ⟨⟨hg, hh⟩, hlt⟩ := hap
  have h1 := addr_mod hg hi hj
  have h2 := addr_mod hh ha hb
  intro e
  rw [e] at h1
  omega

theorem ne_of_apart {g h : RegInfo} {i j a b : Nat} (hap : apart g h = true) (hi : i < g.ni) (hj : j < g.nj)
    (ha : a < h.ni) (hb : b < h.nj) : g.base + g.si * i + g.sj * j ≠ h.base + h.si * a + h.sj * b := by
  simp only [apart, Bool.or_eq_true] at hap
  rcases hap with (hm | hm) | hm <;> exact ne_of_apartMod hm hi hj ha hb

/-- An address that a register is found at is one of its addresses. -/
theorem hit_sound {r : Reg} {a i j : Nat} (h : r.hit a = some (i, j)) :
    i < r.info.ni ∧ j < r.info.nj ∧ a = r.info.base + r.info.si * i + r.info.sj * j := by
  unfold Reg.hit at h
  extract_lets g o i' q j' at h
  split at h
  · exact absurd h (by simp)
  next hbase =>
    split at h
    next hc =>
      obtain ⟨rfl, rfl⟩ : i' = i ∧ j' = j := by simpa using h
      obtain ⟨hi, hj, hq⟩ := hc
      have hle : g.si * i' ≤ o := by
        have hdiv : g.si * (o / g.si) ≤ o := Nat.mul_div_le o g.si
        show g.si * (if g.si = 0 then 0 else if g.sj = 0 then o / g.si else
          if g.ni = 1 then 0 else Nat.min (o / g.si) (g.ni - 1)) ≤ o
        split_ifs
        · simp
        · exact hdiv
        · simp
        · exact (Nat.mul_le_mul_left _ (Nat.min_le_left _ _)).trans hdiv
      refine ⟨hi, hj, ?_⟩
      show a = g.base + g.si * i' + g.sj * j'
      rw [← hq]
      show a = g.base + g.si * i' + (o - g.si * i')
      have : o = a - g.base := rfl
      omega
    · exact absurd h (by simp)

/-- A register with a decodable line is found at each of its addresses, with its indices. -/
theorem hit_complete {r : Reg} {i j : Nat} (hd : decodable r.info = true) (hi : i < r.info.ni) (hj : j < r.info.nj) :
    r.hit (r.info.base + r.info.si * i + r.info.sj * j) = some (i, j) := by
  simp only [decodable, Bool.and_eq_true, Bool.or_eq_true, bne_iff_ne, ne_eq, beq_iff_eq, decide_eq_true_eq] at hd
  obtain ⟨⟨hsi, hsj⟩, hin⟩ := hd
  unfold Reg.hit
  generalize r.info = g at *
  have e : g.base + g.si * i + g.sj * j - g.base = g.si * i + g.sj * j := by omega
  have hi' : (if g.si = 0 then 0 else if g.sj = 0 then (g.si * i + g.sj * j) / g.si else
      if g.ni = 1 then 0 else Nat.min ((g.si * i + g.sj * j) / g.si) (g.ni - 1)) = i := by
    by_cases h0 : g.si = 0
    · have : g.ni = 1 := by simpa [h0] using hsi
      simp [h0]; omega
    · by_cases h1 : g.sj = 0
      · simp [h0, h1, Nat.mul_div_cancel_left i (Nat.pos_of_ne_zero h0)]
      · by_cases h2 : g.ni = 1
        · simp [h0, h1, h2]; omega
        · have hlt : g.sj * j < g.si :=
            lt_of_le_of_lt (Nat.mul_le_mul_left _ (by omega : j ≤ g.nj - 1)) (by simpa [h1, h2] using hin)
          have hq : (g.si * i + g.sj * j) / g.si = i := by
            rw [Nat.mul_add_div (Nat.pos_of_ne_zero h0), Nat.div_eq_of_lt hlt, Nat.add_zero]
          rw [if_neg h0, if_neg h1, if_neg h2, hq]
          exact Nat.min_eq_left (by omega)
  have hj' : (if g.sj = 0 then 0 else g.sj * j / g.sj) = j := by
    by_cases h1 : g.sj = 0
    · have : g.nj = 1 := by simpa [h1] using hsj
      simp [h1]; omega
    · simp [h1, Nat.mul_div_cancel_left j (Nat.pos_of_ne_zero h1)]
  rw [if_neg (by omega)]
  simp only [e, hi', Nat.add_sub_cancel_left, hj', hi, hj, and_self, if_true]

/-! What the table gives: these are checks of the 190 lines of the index, one by one. -/

theorem index_line (r : Reg) : r ≠ .ceCr → r ≠ .svCr →
    r.info.base / 0x1000000 ∈ regBlocks ∧ r ∈ blockRegs (r.info.base / 0x1000000) ∧
      r.info.base % 0x1000000 + (r.info.si * (r.info.ni - 1) + r.info.sj * (r.info.nj - 1)) < 0x1000000 ∧
      decodable r.info = true ∧
      (r.info.base / 0x1000000 = 0x6F → fits 0x1000 r.info = true ∧ r.info.base % 0x1000 + span 0x1000 r.info < 0x400) := by
  cases r <;> decide

theorem block_apart : ∀ k ∈ regBlocks, ∀ r ∈ blockRegs k, ∀ q ∈ blockRegs k, r ≠ q → apart r.info q.info = true := by
  decide +kernel

/-- The first register of a list that has the address, when no other one of the list has it. -/
theorem findReg_of_hit {rs : List Reg} {r : Reg} {a i j : Nat} (hr : r ∈ rs) (hh : r.hit a = some (i, j))
    (ho : ∀ q ∈ rs, q ≠ r → q.hit a = none) : findReg rs a = some (r, i, j) := by
  induction rs with
  | nil => simp at hr
  | cons q rs ih =>
    by_cases hq : q = r
    · subst hq; simp [findReg, hh]
    · have hr' : r ∈ rs := by simpa [Ne.symm hq] using hr
      simp only [findReg, ho q (by simp) hq]
      exact ih hr' fun p hp => ho p (by simp [hp])

/-- A register of the index that is no control register is found at each of its addresses (R390, R391). -/
theorem regAt_addr {r : Reg} {i j : Nat} (hc : r ≠ .ceCr) (hs : r ≠ .svCr) (hi : i < r.info.ni) (hj : j < r.info.nj) :
    regAt (r.addr i j) = some (r, i, j) := by
  obtain ⟨hk, hmem, hfit, hdec, hrow⟩ := index_line r hc hs
  rw [addr_eq hc]
  set a := r.info.base + r.info.si * i + r.info.sj * j with ha
  have hblock : a / 0x1000000 = r.info.base / 0x1000000 := by
    have h1 : r.info.si * i ≤ r.info.si * (r.info.ni - 1) := Nat.mul_le_mul_left _ (by omega)
    have h2 : r.info.sj * j ≤ r.info.sj * (r.info.nj - 1) := Nat.mul_le_mul_left _ (by omega)
    omega
  have hce : ceCrHit a = none := by
    unfold ceCrHit
    refine if_neg fun h => ?_
    obtain ⟨h1, h2, h3, -⟩ := h
    obtain ⟨hf, hlt⟩ := hrow (by omega)
    have := addr_mod hf hi hj
    omega
  rw [regAt, hce]
  show findReg (blockRegs (a / 0x1000000)) a = _
  rw [hblock]
  refine findReg_of_hit hmem (hit_complete hdec hi hj) fun q hq hqr => ?_
  rcases hh : q.hit a with _ | ⟨b, c⟩
  · rfl
  · obtain ⟨hb, hc', e⟩ := hit_sound hh
    exact absurd e (ne_of_apart (block_apart _ hk r hmem q hq (Ne.symm hqr)) hi hj hb hc')

/-- A control register of an engine is found at each of its addresses (R143). -/
theorem regAt_ceCr {i j : Nat} (hi : i < 512) (hj : j < 64) : regAt (Reg.ceCr.addr i j) = some (.ceCr, i, j) := by
  have h : ceCrHit (Reg.ceCr.addr i j) = some (i, j) := by
    show ceCrHit (0x6F000400 + i / 8 * 0x1000 + i % 8 * 0x100 + 4 * j) = some (i, j)
    unfold ceCrHit
    rw [if_pos (by omega)]
    simp only [Option.some.injEq, Prod.mk.injEq]
    omega
  rw [regAt, h]

/-- The addresses of the index lie below those of the supervisors' control registers. -/
theorem addr_lt {r : Reg} {i j : Nat} (hs : r ≠ .svCr) (hi : i < r.info.ni) (hj : j < r.info.nj) :
    r.addr i j < 0x70000000 := by
  by_cases hc : r = .ceCr
  · subst hc
    change i < 512 at hi
    change j < 64 at hj
    show 0x6F000400 + i / 8 * 0x1000 + i % 8 * 0x100 + 4 * j < 0x70000000
    omega
  · obtain ⟨hk, -, hfit, -⟩ := index_line r hc hs
    rw [addr_eq hc]
    have h1 : r.info.si * i ≤ r.info.si * (r.info.ni - 1) := Nat.mul_le_mul_left _ (by omega)
    have h2 : r.info.sj * j ≤ r.info.sj * (r.info.nj - 1) := Nat.mul_le_mul_left _ (by omega)
    have h3 : ∀ k ∈ regBlocks, k < 0x70 := by decide
    have := h3 _ hk
    omega

/-- Registers of the index are named by their addresses: distinct ones have distinct addresses (R390, R391). -/
theorem addr_inj {r q : Reg} {i j a b : Nat} (hi : i < r.info.ni) (hj : j < r.info.nj) (ha : a < q.info.ni)
    (hb : b < q.info.nj) (h : r.addr i j = q.addr a b) : r = q ∧ i = a ∧ j = b := by
  have found : ∀ {p : Reg} {x y : Nat}, p ≠ .svCr → x < p.info.ni → y < p.info.nj → regAt (p.addr x y) = some (p, x, y) := by
    intro p x y hp hx hy
    by_cases hc : p = .ceCr
    · subst hc; exact regAt_ceCr hx hy
    · exact regAt_addr hc hp hx hy
  have sv : ∀ x y, Reg.svCr.addr x y = 0x100000000 + 256 * x + 4 * y := fun _ _ => rfl
  by_cases hr : r = .svCr <;> by_cases hq : q = .svCr
  · subst hr hq
    change j < 64 at hj
    change b < 64 at hb
    rw [sv, sv] at h
    exact ⟨rfl, by omega, by omega⟩
  · subst hr
    have := addr_lt hq ha hb
    rw [sv] at h
    omega
  · subst hq
    have := addr_lt hr hi hj
    rw [sv] at h
    omega
  · have e := found hr hi hj
    rw [h, found hq ha hb] at e
    simp only [Option.some.injEq, Prod.mk.injEq] at e
    exact ⟨e.1.symm, e.2.1.symm, e.2.2.symm⟩

theorem addr_ne {r q : Reg} {i j a b : Nat} (h : q ≠ r) (hi : i < r.info.ni) (hj : j < r.info.nj) (ha : a < q.info.ni)
    (hb : b < q.info.nj) : q.addr a b ≠ r.addr i j := fun e => h (addr_inj ha hb hi hj e).1

/-! ### Registers after a register's write -/

/-- A write to one register leaves every other one. -/
@[simp] theorem rd_wr_other (s : State) {r q : Reg} {i j a b : Nat} (v : Word) (h : q ≠ r) (hi : i < r.info.ni)
    (hj : j < r.info.nj) (ha : a < q.info.ni) (hb : b < q.info.nj) : (s.wr r i j v).rd q a b = s.rd q a b :=
  rd_wr_ne s r q i j a b v (addr_ne h hi hj ha hb)

/-- A write to a register leaves it at every other index. -/
theorem rd_wr_index (s : State) {r : Reg} {i j a b : Nat} (v : Word) (hi : i < r.info.ni) (hj : j < r.info.nj)
    (ha : a < r.info.ni) (hb : b < r.info.nj) :
    (s.wr r i j v).rd r a b = if a = i ∧ b = j then v else s.rd r a b := by
  rw [rd_wr]
  refine if_congr ⟨fun e => ?_, fun e => by rw [e.1, e.2]⟩ rfl rfl
  exact (addr_inj ha hb hi hj e).2

end Sys2Proof.Proofs
end

section
namespace Sys2Proof.Proofs
open Sys2Proof Sys2Proof.Machine Sys2Proof.Safety Sys2Proof.Laws

/-- An unlisted register reads its after-reset value. -/
theorem regDef_addr {r : Reg} {i j : Nat} (hi : i < r.info.ni) (hj : j < r.info.nj) :
    regDef (r.addr i j) = r.rstAt i j := by
  by_cases hs : r = .svCr
  · subst hs
    change j < 64 at hj
    have e : Reg.svCr.addr i j = 0x100000000 + 256 * i + 4 * j := rfl
    rw [regDef, e, if_pos (by omega), show (0x100000000 + 256 * i + 4 * j - 0x100000000) / 256 = i by omega,
      show (0x100000000 + 256 * i + 4 * j - 0x100000000) % 256 / 4 = j by omega]
  · have hlt := addr_lt hs hi hj
    rw [regDef, if_neg (by omega)]
    by_cases hc : r = .ceCr
    · subst hc; rw [regAt_ceCr hi hj]
    · rw [regAt_addr hc hs hi hj]

/-- The one register that a reset leaves at another value than the index gives carries REASON 0x01 (R303, R318). -/
theorem rd_reset {r : Reg} {i j : Nat} (hr : r ≠ .stAttn) (hi : i < r.info.ni) (hj : j < r.info.nj) :
    State.reset.rd r i j = r.rstAt i j := by
  have hne : Reg.stAttn.addr 0 0 ≠ r.addr i j := addr_ne hr.symm hi hj (by decide) (by decide)
  show (if Reg.stAttn.addr 0 0 = r.addr i j then (1 : Word) else regDef (r.addr i j)) = _
  rw [if_neg hne, regDef_addr hi hj]

theorem mode_coreDef_sv {n : Nat} (h : 513 ≤ n) : (coreDef n).mode = .unreleased := by
  rw [coreDef, if_neg (by omega), if_neg (by omega)]

theorem mode_coreDef_ce {n : Nat} (h : n < 512) : (coreDef n).mode = .idle := by
  rw [coreDef, if_pos h]

theorem majority_zero : majority 0 = false := by decide

/-- Settles O3: the tables of the reset state are empty but for ST_ATTN, so what is unlisted reads its default; each register is
then found at its own address with its after-reset value. -/
theorem resetState : Obligations.reset_state := by
  unfold Obligations.reset_state
  refine ⟨rfl, rfl, rfl, by decide, fun n hn => mode_coreDef_sv hn, fun n hn => mode_coreDef_ce hn, memCanonical_reset,
    by decide, fun _ => majority_zero, ?_⟩
  intro r i j _ _ hr hi hj
  exact rd_reset hr hi hj

/-! ### Two states that the statements on supplies and on accesses leave out -/

/-- The state in which a command leaves `s`. -/
def after (i : Instr) (s : State) : State :=
  match exec i s with
  | .next t => t
  | _ => s

theorem after_eq {i : Instr} {s t : State} (h : exec i s = .next t) : after i s = t := by
  simp [after, h]

/-- The device in Hold with its supplies up. -/
def heldDevice : State := { State.reset with fm := { power := .hold } }

/-- In Hold a warning of VDD_CASK pauses no writes: the Cask controller is stopped there (`pauses`, R307). -/
theorem heldDevice_warning_no_pause : (after (.supplyWarningStart 1 0) heldDevice).bit .ckStat 0 0 6 = false := rfl

/-- Refutes O49: a warning of rail 1 in Hold starts an episode, but CK_STAT.PAUSED, which the statement asks for in every power
state, stays 0. -/
theorem not_supplyAndHeartbeatCommandsComplete : ¬ Obligations.supply_and_heartbeat_commands_complete := by
  unfold Obligations.supply_and_heartbeat_commands_complete
  rintro ⟨hstart, -⟩
  obtain ⟨t, ht, -, -, -, -, -, hpause⟩ := (hstart 1 0 heldDevice).1 rfl rfl (by decide)
  have hpaused : t.bit .ckStat 0 0 6 = true := (hpause (by decide)).1
  rw [← after_eq ht, heldDevice_warning_no_pause] at hpaused
  exact Bool.false_ne_true hpaused

/-- PCIe is up, and the valid bits of the first memory of supervisor SRAM are being cleared. -/
def clearingDevice : State :=
  { State.reset with regs := [(Reg.memStat.addr 1088 0, 0x80)], str := { pcieUp := true } }

/-- A read there waits for the clear and finds it ended (`awaitClear`, R238, log entry 93). -/
theorem clearingDevice_read_ends_clear :
    (after (.pcieReadRequest true 0x20000000 1) clearingDevice).bit .memStat 1088 0 7 = false := rfl

/-- Refutes O38: a host's read of one byte of supervisor SRAM whose valid bits are being cleared ends the clear, where the statement
has a read of clean bytes change nothing but the host's answer. -/
theorem not_deviceAccessesComplete : ¬ Obligations.device_accesses_complete := by
  unfold Obligations.device_accesses_complete
  rintro ⟨-, -, hread, -⟩
  obtain ⟨t, ht, hsame, -⟩ := hread 0x20000000 1 clearingDevice rfl rfl (by decide) (by decide) (by decide) (by decide)
    (by decide)
  have hclear : t.bit .memStat 1088 0 7 = true := by
    have hregs : t.regs = clearingDevice.regs := by
      rw [← hsame]
    rw [State.bit, State.rd, hregs]
    rfl
  rw [← after_eq ht, clearingDevice_read_ends_clear] at hclear
  exact Bool.false_ne_true hclear

end Sys2Proof.Proofs
end

section
namespace Sys2Proof.Proofs
open Sys2Proof Sys2Proof.Machine Sys2Proof.Safety Sys2Proof.Laws

/-! ### A register after a write of a field or bit -/

@[simp] theorem rd_wrF_same (s : State) (r : Reg) (i j hi lo v : Nat) :
    (s.wrF r i j hi lo v).rd r i j = setFld (s.rd r i j) hi lo v := rd_wr_same ..

@[simp] theorem rd_wrB_same (s : State) (r : Reg) (i j b : Nat) (v : Bool) :
    (s.wrB r i j b v).rd r i j = setBit (s.rd r i j) b v := rd_wr_same ..

@[simp] theorem rd_setB_same (s : State) (r : Reg) (i j b : Nat) :
    (s.setB r i j b).rd r i j = setBit (s.rd r i j) b true := rd_wr_same ..

@[simp] theorem rd_clrB_same (s : State) (r : Reg) (i j b : Nat) :
    (s.clrB r i j b).rd r i j = setBit (s.rd r i j) b false := rd_wr_same ..

@[simp] theorem rd_wrCodes_same (s : State) (r : Reg) (i j : Nat) (v : Word) :
    (s.wrCodes r i j v).rd r i j = applyWrite (r.masks i j) (s.locked r) (s.rd r i j) v := rd_wr_same ..

/-- Each line of the index has an index. -/
theorem info_pos (r : Reg) : 0 < r.info.ni ∧ 0 < r.info.nj := by
  cases r <;> decide

/-- A write to a register's first index leaves every other register at its first index. -/
@[simp] theorem rd_wr_first (s : State) {r q : Reg} (v : Word) (h : q ≠ r) : (s.wr r 0 0 v).rd q 0 0 = s.rd q 0 0 :=
  rd_wr_other s v h (info_pos r).1 (info_pos r).2 (info_pos q).1 (info_pos q).2

@[simp] theorem rd_wrF_first (s : State) {r q : Reg} (hi lo v : Nat) (h : q ≠ r) :
    (s.wrF r 0 0 hi lo v).rd q 0 0 = s.rd q 0 0 := rd_wr_first s _ h

@[simp] theorem rd_setB_first (s : State) {r q : Reg} (b : Nat) (h : q ≠ r) :
    (s.setB r 0 0 b).rd q 0 0 = s.rd q 0 0 := rd_wr_first s _ h

@[simp] theorem rd_clrB_first (s : State) {r q : Reg} (b : Nat) (h : q ≠ r) :
    (s.clrB r 0 0 b).rd q 0 0 = s.rd q 0 0 := rd_wr_first s _ h

@[simp] theorem rd_incF_first (s : State) {r q : Reg} (hi lo : Nat) (h : q ≠ r) :
    (s.incF r 0 0 hi lo).rd q 0 0 = s.rd q 0 0 := rd_wr_first s _ h

/-! ### Writes of a field or bit leave what is no register -/

@[simp] theorem wrF_cask (s : State) (r : Reg) (i j hi lo v : Nat) : (s.wrF r i j hi lo v).cask = s.cask := rfl
@[simp] theorem setB_cask (s : State) (r : Reg) (i j b : Nat) : (s.setB r i j b).cask = s.cask := rfl
@[simp] theorem wrCodes_cask (s : State) (r : Reg) (i j : Nat) (v : Word) : (s.wrCodes r i j v).cask = s.cask := rfl

@[simp] theorem rd_wrCodes_first (s : State) {r q : Reg} (v : Word) (h : q ≠ r) :
    (s.wrCodes r 0 0 v).rd q 0 0 = s.rd q 0 0 := rd_wr_first s _ h

@[simp] theorem rd_incF_same (s : State) (r : Reg) (i j hi lo : Nat) :
    (s.incF r i j hi lo).rd r i j =
      setFld (s.rd r i j) hi lo (Nat.min (s.rdF r i j hi lo + 1) (2 ^ (hi + 1 - lo) - 1)) := rd_wr_same ..

/-- The bits `[hi:lo]` of a register are RW alone. -/
def rwField (g : RegInfo) (hi lo : Nat) : Bool :=
  (List.range 32).all fun b => !(decide (lo ≤ b) && decide (b ≤ hi)) || (g.rw.getLsbD b && !g.w1c.getLsbD b && !g.w1s.getLsbD b)

/-- A write leaves in an RW field the written bits (R9). -/
theorem fld_applyWrite (g : RegInfo) (lk : Bool) (old v : Word) {hi lo : Nat} (hh : hi < 32) (h : rwField g hi lo = true) :
    fld (applyWrite g lk old v) hi lo = fld v hi lo := by
  refine fld_congr fun b hlo hhi => ?_
  have hb := List.all_eq_true.1 h b (by simp; omega)
  simp only [hlo, hhi, decide_true, Bool.and_true, Bool.not_true, Bool.false_or, Bool.and_eq_true, Bool.not_eq_true'] at hb
  obtain ⟨⟨hrw, hw1c⟩, hw1s⟩ := hb
  simp [bitOf_applyWrite g lk old v b (by omega), hrw, hw1c, hw1s]

/-! ### Which registers an operation leaves -/

/-- The registers of the index outside `rs` hold in `t` what they hold in `s`. -/
def KeepsRegs (rs : List Reg) (s t : State) : Prop :=
  ∀ r i j, r ∉ rs → i < r.info.ni → j < r.info.nj → t.rd r i j = s.rd r i j

namespace KeepsRegs

variable {rs : List Reg} {s t u : State}

theorem refl (s : State) : KeepsRegs rs s s := fun _ _ _ _ _ _ => rfl

theorem of_regs_eq (h : t.regs = s.regs) : KeepsRegs rs s t := fun r i j _ _ _ => by
  rw [State.rd, State.rd, h]

theorem trans (h : KeepsRegs rs s t) (g : KeepsRegs rs t u) : KeepsRegs rs s u := fun r i j hr hi hj =>
  (g r i j hr hi hj).trans (h r i j hr hi hj)

theorem mono {rs' : List Reg} (h : KeepsRegs rs s t) (hs : rs ⊆ rs') : KeepsRegs rs' s t := fun r i j hr hi hj =>
  h r i j (fun hm => hr (hs hm)) hi hj

theorem wr {r : Reg} {i j : Nat} (v : Word) (hr : r ∈ rs) (hi : i < r.info.ni) (hj : j < r.info.nj) :
    KeepsRegs rs s (s.wr r i j v) := fun _ _ _ hq ha hb =>
  rd_wr_other s v (fun e => hq (e ▸ hr)) hi hj ha hb

theorem wrF {r : Reg} {i j : Nat} (hi' lo v : Nat) (hr : r ∈ rs) (hi : i < r.info.ni) (hj : j < r.info.nj) :
    KeepsRegs rs s (s.wrF r i j hi' lo v) := wr _ hr hi hj

theorem wrB {r : Reg} {i j : Nat} (b : Nat) (v : Bool) (hr : r ∈ rs) (hi : i < r.info.ni) (hj : j < r.info.nj) :
    KeepsRegs rs s (s.wrB r i j b v) := wr _ hr hi hj

theorem setB {r : Reg} {i j : Nat} (b : Nat) (hr : r ∈ rs) (hi : i < r.info.ni) (hj : j < r.info.nj) :
    KeepsRegs rs s (s.setB r i j b) := wr _ hr hi hj

theorem clrB {r : Reg} {i j : Nat} (b : Nat) (hr : r ∈ rs) (hi : i < r.info.ni) (hj : j < r.info.nj) :
    KeepsRegs rs s (s.clrB r i j b) := wr _ hr hi hj

theorem incF {r : Reg} {i j : Nat} (hi' lo : Nat) (hr : r ∈ rs) (hi : i < r.info.ni) (hj : j < r.info.nj) :
    KeepsRegs rs s (s.incF r i j hi' lo) := wr _ hr hi hj

theorem when (b : Bool) {f : State → State} (h : KeepsRegs rs s (f s)) : KeepsRegs rs s (s.when b f) := by
  cases b
  · exact refl s
  · exact h

theorem first (h : KeepsRegs rs s t) {r : Reg} (hr : r ∉ rs) : t.rd r 0 0 = s.rd r 0 0 :=
  h r 0 0 hr (info_pos r).1 (info_pos r).2

/-- A kept register's bits and fields are kept. -/
theorem bit (h : KeepsRegs rs s t) {r : Reg} {i j : Nat} (b : Nat) (hr : r ∉ rs) (hi : i < r.info.ni)
    (hj : j < r.info.nj) : t.bit r i j b = s.bit r i j b := by
  rw [State.bit, h r i j hr hi hj, State.bit]

theorem rdF (h : KeepsRegs rs s t) {r : Reg} {i j : Nat} (hi' lo : Nat) (hr : r ∉ rs) (hi : i < r.info.ni)
    (hj : j < r.info.nj) : t.rdF r i j hi' lo = s.rdF r i j hi' lo := by
  rw [State.rdF, h r i j hr hi hj, State.rdF]

end KeepsRegs

/-! ### Loops over indices -/

theorem forN_succ (s : State) (n : Nat) (f : State → Nat → State) : s.forN (n + 1) f = f (s.forN n f) n := by
  simp [State.forN, List.range_succ]

@[simp] theorem forN_zero (s : State) (f : State → Nat → State) : s.forN 0 f = s := rfl

/-- What each of the first `n` turns keeps holds after them. -/
theorem forN_keeps_lt {n : Nat} {f : State → Nat → State} {s : State} (p : State → Prop)
    (hf : ∀ t i, i < n → p t → p (f t i)) (h : p s) : p (s.forN n f) := by
  induction n with
  | zero => exact h
  | succ n ih =>
    rw [forN_succ]
    exact hf _ n (by omega) (ih fun t i hi => hf t i (by omega))

/-- A loop whose turn `i` changes index `i` alone: each index below `n` is as its own turn leaves it, and the others stay.
`inv` holds throughout, and `g` shows an index. -/
theorem forN_each {α : Type} {n : Nat} {f : State → Nat → State} {s : State} (inv : State → Prop) (g : State → Nat → α)
    (done : Nat → α → Prop) (h0 : inv s) (hinv : ∀ t i, i < n → inv t → inv (f t i))
    (hother : ∀ t i k, i < n → inv t → k ≠ i → g (f t i) k = g t k)
    (hown : ∀ t i, i < n → inv t → g t i = g s i → done i (g (f t i) i)) :
    inv (s.forN n f) ∧ (∀ k < n, done k (g (s.forN n f) k)) ∧ ∀ k, n ≤ k → g (s.forN n f) k = g s k := by
  induction n with
  | zero => exact ⟨h0, by omega, fun _ _ => rfl⟩
  | succ n ih =>
    obtain ⟨hi, hd, hs⟩ := ih (fun t i h => hinv t i (by omega)) (fun t i k h => hother t i k (by omega))
      (fun t i h => hown t i (by omega))
    rw [forN_succ]
    refine ⟨hinv _ n (by omega) hi, fun k hk => ?_, fun k hk => ?_⟩
    · rcases Nat.lt_succ_iff_lt_or_eq.1 hk with h | rfl
      · rw [hother _ n k (by omega) hi (by omega)]; exact hd k h
      · exact hown _ _ (by omega) hi (hs k le_rfl)
    · rw [hother _ n k (by omega) hi (by omega)]; exact hs k (by omega)

theorem KeepsRegs.forN {rs : List Reg} {n : Nat} {f : State → Nat → State} (s : State)
    (h : ∀ t i, i < n → KeepsRegs rs t (f t i)) : KeepsRegs rs s (s.forN n f) :=
  forN_keeps_lt (KeepsRegs rs s) (fun t i hi ht => ht.trans (h t i hi)) (.refl s)

/-! ### Records of the Cellar Book -/

/-- An event of the Cellar Book reaches the queue, or CB_STAT shows the loss. -/
theorem keepsRegs_record (s : State) (code src : Nat) (p0 p1 p2 p3 : Word) :
    KeepsRegs [.cbStat] s (s.record code src p0 p1 p2 p3) := by
  unfold State.record
  dsimp only
  split
  · exact .of_regs_eq rfl
  · exact (KeepsRegs.of_regs_eq rfl).trans (.when _ (.setB 30 (by simp) (by decide) (by decide)))

@[simp] theorem rd_record_first (s : State) {r : Reg} (code src : Nat) (p0 p1 p2 p3 : Word) (h : r ≠ .cbStat) :
    (s.record code src p0 p1 p2 p3).rd r 0 0 = s.rd r 0 0 :=
  (keepsRegs_record s code src p0 p1 p2 p3).first (by simpa using h)

theorem record_rest (s : State) (code src : Nat) (p0 p1 p2 p3 : Word) :
    { s.record code src p0 p1 p2 p3 with book := s.book, regs := s.regs } = s := by
  unfold State.record
  dsimp only
  split
  · rfl
  · unfold State.when
    split <;> rfl

end Sys2Proof.Proofs
end

section
namespace Sys2Proof.Proofs
open Sys2Proof Sys2Proof.Machine Sys2Proof.Safety Sys2Proof.Laws

/-! ### Arming and disarming a switch (R263, R266, R267) -/

theorem keepsRegs_dropBlocks (s : State) : KeepsRegs [.rwStat] s (dropBlocks s) :=
  .forN s fun t k hk => (KeepsRegs.of_regs_eq (setRow_regs ..)).trans (.clrB 2 (by simp) hk (by decide))

theorem dropBlocks_cask (s : State) : (dropBlocks s).cask = s.cask := by
  unfold dropBlocks
  exact forN_keeps_lt (fun t => t.cask = s.cask) (fun _ _ _ h => h) rfl

theorem rd_ckSwstat_dropBlocks (s : State) : (dropBlocks s).rd .ckSwstat 0 0 = s.rd .ckSwstat 0 0 :=
  keepsRegs_dropBlocks s .ckSwstat 0 0 (by simp) (by decide) (by decide)

/-- A declined switch: the state, the reasons it adds, and the flag. -/
theorem declineSwitch_ckSwstat (s : State) (rsn : Nat) :
    (declineSwitch s rsn).rdF .ckSwstat 0 0 2 0 = 4 ∧
      (declineSwitch s rsn).rdF .ckSwstat 0 0 16 8 = (s.rdF .ckSwstat 0 0 16 8 ||| rsn) % 512 ∧
      (declineSwitch s rsn).bit .ckSwstat 0 0 18 = true := by
  simp [State.rdF, State.bit, declineSwitch, rd_ckSwstat_dropBlocks, fld_setBit_ne, fld_setFld_ne, fld_setFld_same,
    bitOf_setBit]

theorem declineSwitch_cask (s : State) (rsn : Nat) : (declineSwitch s rsn).cask = s.cask :=
  dropBlocks_cask _

/-- While a switch is Armed or Voted another arming is refused. -/
theorem armSwitch_standing {s : State} {v : Nat} {c a : Word}
    (h : s.rdF .ckSwstat 0 0 2 0 = 1 ∨ s.rdF .ckSwstat 0 0 2 0 = 2) : armSwitch s v c a = reject s := by
  rw [armSwitch, if_pos h]

/-- An arming that stands: what is armed, with no reasons yet. -/
def armed (s : State) (v : Nat) (c a : Word) : State :=
  let s := s.wrF .ckSwstat 0 0 16 8 0
  { s with cask := { s.cask with sw := some (v, c, a), result := false, tsValid := false } }

theorem armSwitch_eq {s : State} {v : Nat} {c a : Word} (h1 : s.rdF .ckSwstat 0 0 2 0 ≠ 1)
    (h2 : s.rdF .ckSwstat 0 0 2 0 ≠ 2) :
    armSwitch s v c a = if cycReached s.str.cycle (c - 2) then declineSwitch (armed s v c a) 1
      else dropBlocks ((((armed s v c a).wrF .ckSwstat 0 0 2 0 1).wr .ckSwtl 0 0 0).wr .ckSwth 0 0 0) := by
  rw [armSwitch, if_neg (by tauto)]
  rfl

theorem armed_ckSwstat (s : State) (v : Nat) (c a : Word) :
    (armed s v c a).rd .ckSwstat 0 0 = setFld (s.rd .ckSwstat 0 0) 16 8 0 := rd_wrF_same ..

theorem armed_sw (s : State) (v : Nat) (c a : Word) : (armed s v c a).cask.sw = some (v, c, a) := rfl

/-- Otherwise the arming is kept, and declined at once where its vote has begun. -/
theorem armSwitch_free {s : State} {v : Nat} {c a : Word} (h1 : s.rdF .ckSwstat 0 0 2 0 ≠ 1)
    (h2 : s.rdF .ckSwstat 0 0 2 0 ≠ 2) :
    let t := armSwitch s v c a
    let late := cycReached s.str.cycle (c - 2)
    t.cask.sw = some (v, c, a) ∧ t.rdF .ckSwstat 0 0 2 0 = (if late then 4 else 1) ∧
      t.rdF .ckSwstat 0 0 16 8 = (if late then 1 else 0) := by
  intro t late
  have ht : t = _ := armSwitch_eq h1 h2
  cases hl : late with
  | true =>
    rw [if_pos hl] at ht
    obtain ⟨hst, hrsn, -⟩ := declineSwitch_ckSwstat (armed s v c a) 1
    rw [ht, declineSwitch_cask, hst, hrsn]
    simp [State.rdF, armed_ckSwstat, armed_sw, fld_setFld_same]
  | false =>
    rw [if_neg (by simpa [late] using hl)] at ht
    rw [ht, dropBlocks_cask]
    simp [State.rdF, armed_sw, rd_ckSwstat_dropBlocks, armed_ckSwstat, fld_setFld_same, fld_setFld_ne]

/-! ### Writes to CK_SWITCH, CK_CTL and CK_FLIPC -/

theorem exec_ckSwitchArm (w : Word) (s : State) :
    exec (.ckSwitchArm w) s = .next (wrCkSwitch s (setBit w 8 true)) := rfl

theorem exec_ckSwitchDisarm (w : Word) (s : State) :
    exec (.ckSwitchDisarm w) s = .next (wrCkSwitch s (setBit w 9 true)) := rfl

theorem exec_ckClrc (w : Word) (s : State) : exec (.ckClrc w) s = .next (wrCkCtl s (setBit w 5 true)) := rfl

theorem exec_ckLock (w : Word) (s : State) : exec (.ckLock w) s = .next (wrCkCtl s (setBit w 31 true)) := rfl

theorem exec_ckFlipArm (w : Word) (s : State) : exec (.ckFlipArm w) s = .next (wrCkFlip s .ckFlipc w) := rfl

/-- An arming write (R263). -/
theorem ckSwitchArm_takes {w : Word} {s : State} (hu : up s = true) (hw : bitOf w 9 = false) :
    let st := s.rdF .ckSwstat 0 0 2 0
    let c := s.rd .ckSwcyc 0 0
    let late := decide ((s.str.cycle - (c - 2)).toNat < 2 ^ 31)
    ∃ t, exec (.ckSwitchArm w) s = .next t ∧
      (st = 1 ∨ st = 2 → t.rdF .ckSwstat 0 0 2 0 = st ∧ t.bit .ckStat 0 0 5 = true ∧ t.cask.sw = s.cask.sw) ∧
      (st ≠ 1 → st ≠ 2 → t.cask.sw = some (fld w 2 0, c, s.rd .ckSwang 0 0) ∧
        t.rdF .ckSwstat 0 0 2 0 = (if late then 4 else 1) ∧ t.rdF .ckSwstat 0 0 16 8 = (if late then 1 else 0)) := by
  intro st c late
  set u := s.wrCodes .ckSwitch 0 0 (setBit w 8 true) with hu'
  have hst : u.rdF .ckSwstat 0 0 2 0 = st := by simp [State.rdF, u, st]
  have hgo : exec (.ckSwitchArm w) s = .next (armSwitch u (fld w 2 0) c (s.rd .ckSwang 0 0)) := by
    simp [exec_ckSwitchArm, wrCkSwitch, up_gate hu, ← hu', bitOf_setBit, hw, fld_setBit_ne, c]
  refine ⟨_, hgo, fun h => ?_, fun h1 h2 => ?_⟩
  · rw [armSwitch_standing (by rwa [hst])]
    simp [reject, State.bit, State.rdF, bitOf_setBit, u, st]
  · exact armSwitch_free (by rwa [hst]) (by rwa [hst])

/-- A disarming write (R267). -/
theorem ckSwitchDisarm_declines {w : Word} {s : State} (hu : up s = true) (hw : bitOf w 8 = false) :
    let st := s.rdF .ckSwstat 0 0 2 0
    ∃ t, exec (.ckSwitchDisarm w) s = .next t ∧ t.rdF .ckSwstat 0 0 2 0 = (if st = 1 then 4 else st) ∧
      (st = 1 → t.rdF .ckSwstat 0 0 16 8 = s.rdF .ckSwstat 0 0 16 8 ||| 128 ∧ t.bit .ckSwstat 0 0 18 = true) ∧
      (st = 2 → t.bit .ckStat 0 0 5 = true) := by
  intro st
  set u := s.wrCodes .ckSwitch 0 0 (setBit w 9 true) with hu'
  have hsw (hi lo) : u.rdF .ckSwstat 0 0 hi lo = s.rdF .ckSwstat 0 0 hi lo := by simp [State.rdF, u]
  have hst : u.rdF .ckSwstat 0 0 2 0 = st := hsw 2 0
  have hgo : exec (.ckSwitchDisarm w) s = .next (disarmSwitch u) := by
    simp [exec_ckSwitchDisarm, wrCkSwitch, up_gate hu, ← hu', bitOf_setBit, hw]
  refine ⟨_, hgo, ?_⟩
  by_cases h1 : st = 1
  · have hd : disarmSwitch u = declineSwitch u 128 := by simp [disarmSwitch, hst, h1]
    obtain ⟨hs, hr, hb⟩ := declineSwitch_ckSwstat u 128
    have hlt : s.rdF .ckSwstat 0 0 16 8 ||| 128 < 512 := Nat.or_lt_two_pow (n := 9) (fld_lt ..) (by decide)
    rw [hd, hs, hr, hb, hsw, Nat.mod_eq_of_lt hlt]
    simp [h1]
  · by_cases h2 : st = 2
    · have hd : disarmSwitch u = reject u := by simp [disarmSwitch, hst, h2]
      have hsame : (reject u).rdF .ckSwstat 0 0 2 0 = st := by rw [← hst]; simp [reject, State.rdF]
      rw [hd, hsame]
      simp [reject, State.bit, h2, bitOf_setBit]
    · have hd : disarmSwitch u = u := by simp [disarmSwitch, hst]
      simp [hd, hst, h1, h2]

/-- The counts and captured addresses that CLRC clears (R250). -/
def clearCounts (s : State) : State :=
  (((s.wr .ckEcnt 0 0 0).wr .rackCnt 0 0 0).clrB .ckUeaddr 0 0 31).clrB .rackUeaddr 0 0 31

theorem wrCkCtl_eq {s : State} (w : Word) (hu : up s = true) :
    wrCkCtl s w = if bitOf w 5 then clearCounts (s.wrCodes .ckCtl 0 0 w) else s.wrCodes .ckCtl 0 0 w := by
  rw [wrCkCtl, up_gate hu]
  rfl

theorem clearCounts_rest (s : State) (r : Tbl Word) : { clearCounts s with regs := r } = { s with regs := r } := rfl

theorem wrCodes_rest (s : State) (r : Reg) (i j : Nat) (w : Word) : { s.wrCodes r i j w with regs := s.regs } = s := rfl

theorem clearCounts_ckCtl (s : State) : (clearCounts s).rd .ckCtl 0 0 = s.rd .ckCtl 0 0 := by simp [clearCounts]

/-- A write to CK_CTL changes registers alone. -/
theorem wrCkCtl_rest {s : State} (w : Word) (hu : up s = true) : { wrCkCtl s w with regs := s.regs } = s := by
  rw [wrCkCtl_eq w hu]
  cases bitOf w 5
  · exact wrCodes_rest ..
  · exact clearCounts_rest (s.wrCodes .ckCtl 0 0 w) s.regs

/-- A write to CK_CTL leaves in CK_CTL what its access codes say. -/
theorem wrCkCtl_ckCtl {s : State} (w : Word) (hu : up s = true) :
    (wrCkCtl s w).rd .ckCtl 0 0 = applyWrite Reg.ckCtl.info (s.bit .ckCtl 0 0 31) (s.rd .ckCtl 0 0) w := by
  rw [wrCkCtl_eq w hu]
  cases bitOf w 5
  · exact rd_wrCodes_same ..
  · exact (clearCounts_ckCtl _).trans (rd_wrCodes_same ..)

/-- CLRC clears the counts of the Cask and of Racking (R250). -/
theorem ckClrc_clears {s : State} (w : Word) (hu : up s = true) :
    ∃ t, exec (.ckClrc w) s = .next t ∧ t.rd .ckEcnt 0 0 = 0 ∧ t.rd .rackCnt 0 0 = 0 ∧ t.bit .ckUeaddr 0 0 31 = false ∧
      t.bit .rackUeaddr 0 0 31 = false ∧ { t with regs := s.regs } = s := by
  refine ⟨_, exec_ckClrc w s, ?_, ?_, ?_, ?_, wrCkCtl_rest _ hu⟩ <;>
    simp [wrCkCtl_eq _ hu, bitOf_setBit, clearCounts, State.bit]

/-- LOCK of CK_CTL stays set and keeps TEN (R9). -/
theorem ckLock_locks {s : State} (w : Word) (hu : up s = true) :
    ∃ t, exec (.ckLock w) s = .next t ∧ t.bit .ckCtl 0 0 31 = true ∧
      t.bit .ckCtl 0 0 4 = (if s.bit .ckCtl 0 0 31 then s.bit .ckCtl 0 0 4 else bitOf w 4) ∧ { t with regs := s.regs } = s := by
  have hbit (b) (hb : b < 32) := bitOf_applyWrite Reg.ckCtl.info (s.bit .ckCtl 0 0 31) (s.rd .ckCtl 0 0) (setBit w 31 true) b hb
  refine ⟨_, exec_ckLock w s, ?_, ?_, wrCkCtl_rest _ hu⟩ <;> rw [State.bit, wrCkCtl_ckCtl _ hu, hbit _ (by decide)]
  · simp [Reg.info, bitOf_setBit]
  · cases h : s.bit .ckCtl 0 0 31 <;> simp [Reg.info, bitOf_setBit, State.bit]

/-- While TEN is 1 a write to CK_FLIPC arms a flip whose masks are not all 0 (R272). -/
theorem ckFlipArm_arms {s : State} (w : Word) (hu : up s = true) (ht : s.bit .ckCtl 0 0 4 = true) :
    ∃ t, exec (.ckFlipArm w) s = .next t ∧ t.rdF .ckFlipc 0 0 15 0 = fld w 15 0 ∧
      t.bit .ckFlipc 0 0 31 = (s.rd .ckFlipl 0 0 != 0 || s.rd .ckFliph 0 0 != 0 || fld w 15 0 != 0) ∧
      { t with regs := s.regs } = s := by
  set u := s.wrCodes .ckFlipc 0 0 w
  have hmask : u.rdF .ckFlipc 0 0 15 0 = fld w 15 0 := by
    rw [State.rdF, rd_wrCodes_same, fld_applyWrite _ _ _ _ (by decide) (by decide)]
  have hgo : exec (.ckFlipArm w) s =
      .next (u.wrB .ckFlipc 0 0 31 (u.rd .ckFlipl 0 0 != 0 || u.rd .ckFliph 0 0 != 0 || u.rdF .ckFlipc 0 0 15 0 != 0)) := by
    simp [exec_ckFlipArm, wrCkFlip, up_gate hu, ht, u]
  refine ⟨_, hgo, ?_, ?_, rfl⟩
  · rw [← hmask]
    simp [State.rdF, fld_setBit_ne]
  · rw [hmask]
    simp [State.bit, bitOf_setBit, u]

theorem ckFlipArm_ignored {s : State} (w : Word) (hu : up s = true) (ht : s.bit .ckCtl 0 0 4 = false) :
    exec (.ckFlipArm w) s = .next s := by
  simp [exec_ckFlipArm, wrCkFlip, up_gate hu, ht]

end Sys2Proof.Proofs
end

section
namespace Sys2Proof.Proofs
open Sys2Proof Sys2Proof.Machine Sys2Proof.Safety Sys2Proof.Laws

/-! ### Prefetching (R186, R263) -/

/-- A read of the Cask leaves the rows and, of the registers, all but its counts, flags and records. -/
def CaskReadOnly (s t : State) : Prop :=
  t.rows = s.rows ∧ KeepsRegs [.ckEcnt, .ckUeaddr, .ckStat, .cbStat, .fmFlt] s t

namespace CaskReadOnly

theorem refl (s : State) : CaskReadOnly s s := ⟨rfl, .refl s⟩

theorem trans {s t u : State} (h : CaskReadOnly s t) (g : CaskReadOnly t u) : CaskReadOnly s u :=
  ⟨g.1.trans h.1, h.2.trans g.2⟩

end CaskReadOnly

theorem record_rows (s : State) (code src : Nat) (p0 p1 p2 p3 : Word) : (s.record code src p0 p1 p2 p3).rows = s.rows := by
  have h := congrArg State.rows (record_rest s code src p0 p1 p2 p3)
  exact h

namespace CaskReadOnly

variable {s t : State}

theorem wr (h : CaskReadOnly s t) {r : Reg} (v : Word) (hr : r ∈ [Reg.ckEcnt, .ckUeaddr, .ckStat, .cbStat, .fmFlt]) :
    CaskReadOnly s (t.wr r 0 0 v) :=
  h.trans ⟨rfl, .wr v hr (info_pos r).1 (info_pos r).2⟩

theorem repair (h : CaskReadOnly s t) (e : Nat) : CaskReadOnly s (t.ckRepair e) := h.trans ⟨rfl, .of_regs_eq rfl⟩

theorem record (h : CaskReadOnly s t) (code src : Nat) (p0 p1 p2 p3 : Word) :
    CaskReadOnly s (t.record code src p0 p1 p2 p3) :=
  h.trans ⟨record_rows .., (keepsRegs_record t code src p0 p1 p2 p3).mono (by simp)⟩

end CaskReadOnly

theorem ckRead_readOnly (s : State) (e : Nat) : CaskReadOnly s (ckRead s e).2 := by
  unfold ckRead
  generalize decodeEntry (s.ckData e) (s.ckErr e) = x
  obtain ⟨c, d⟩ := x
  have h0 := CaskReadOnly.refl s
  cases c with
  | clean => exact h0
  | single => exact (h0.wr _ (by simp)).repair e
  | double => exact (h0.wr _ (by simp)).repair e
  | uncorrectable =>
    refine CaskReadOnly.wr (.record (.wr ?_ _ (by simp)) ..) _ (by simp)
    split
    · exact h0.wr _ (by simp)
    · exact (h0.wr _ (by simp)).wr _ (by simp)

/-- The entries from `b` on, each as a read delivers it, and the state that the reads leave. -/
def readEntries (s : State) (b n : Nat) : List (BitVec 64 × Bool) × State :=
  (List.range n).foldl (fun (acc : List (BitVec 64 × Bool) × State) i =>
    let (x, s) := ckRead acc.2 (b + i)
    (acc.1 ++ [x], s)) ([], s)

theorem readEntries_succ (s : State) (b n : Nat) : readEntries s b (n + 1) =
    ((readEntries s b n).1 ++ [(ckRead (readEntries s b n).2 (b + n)).1], (ckRead (readEntries s b n).2 (b + n)).2) := by
  simp [readEntries, List.range_succ]

theorem readEntries_length (s : State) (b n : Nat) : (readEntries s b n).1.length = n := by
  induction n with
  | zero => rfl
  | succ n ih => simp [readEntries_succ, ih]

theorem readEntries_readOnly (s : State) (b n : Nat) : CaskReadOnly s (readEntries s b n).2 := by
  induction n with
  | zero => exact .refl s
  | succ n ih =>
    rw [readEntries_succ]
    exact ih.trans (ckRead_readOnly _ _)

/-- The turn of row `k` in a prefetching of slot `v`. -/
def prefetchRow (v : Nat) (s : State) (k : Nat) : State :=
  if s.bit .rwCam k 0 9 then
    let x := readEntries s (slotLo s v + 4 + 16 * k) 16
    (x.2.setRow k { x.2.row k with nblock := x.1 }).setB .rwStat k 0 2
  else s

theorem exec_prefetchComplete {s : State} {v : Nat} {c a : Word} (h : s.cask.sw = some (v, c, a)) (hd : s.dark = false)
    (hst : s.rdF .ckSwstat 0 0 2 0 = 1 ∨ s.rdF .ckSwstat 0 0 2 0 = 2) :
    exec .prefetchComplete s = .next (s.forN 64 (prefetchRow v)) := by
  show execPrefetchComplete s = _
  have hc : (!s.dark && (s.rdF .ckSwstat 0 0 2 0 == 1 || s.rdF .ckSwstat 0 0 2 0 == 2)) = true := by
    rcases hst with h | h <;> simp [hd, h]
  simp only [execPrefetchComplete, h, hc, if_true]
  rfl

/-- What a prefetching is judged by, of row `k`: its STAT bit, whether it has a block, and its block's length. -/
def prefetchView (s : State) (k : Nat) : Bool × Bool × Nat :=
  (s.bit .rwStat k 0 2, s.bit .rwCam k 0 9, (s.row k).nblock.length)

/-- A row takes a block: no other row changes, and its own holds the block. -/
theorem prefetchView_take {s : State} {k j : Nat} (ws : List (BitVec 64 × Bool)) (hk : k < 64) (hj : j < 64) :
    prefetchView ((s.setRow k { s.row k with nblock := ws }).setB .rwStat k 0 2) j =
      if j = k then (true, s.bit .rwCam k 0 9, ws.length) else prefetchView s j := by
  set u := s.setRow k { s.row k with nblock := ws }
  have hrd (r : Reg) (i : Nat) : u.rd r i 0 = s.rd r i 0 := rfl
  have hcam : (u.setB .rwStat k 0 2).rd .rwCam j 0 = s.rd .rwCam j 0 :=
    rd_wr_other u _ (by simp) hk (by decide) hj (by decide)
  have hstat : (u.setB .rwStat k 0 2).rd .rwStat j 0 =
      if j = k then setBit (u.rd .rwStat k 0) 2 true else s.rd .rwStat j 0 := by
    rw [State.setB, State.wrB, rd_wr_index _ _ hk (by decide) hj (by decide)]
    simp [hrd]
  have hrow : ((u.setB .rwStat k 0 2).row j).nblock = if j = k then ws else (s.row j).nblock := by
    have hu : (u.setB .rwStat k 0 2).row j = if j = k then { s.row k with nblock := ws } else s.row j := row_setRow ..
    rw [hu]
    split <;> rfl
  rw [prefetchView, State.bit, State.bit, hstat, hcam, hrow]
  split
  next h => subst h; simp [bitOf_setBit, State.bit]
  next => rfl

theorem readEntries_view {s : State} {b n k : Nat} (hk : k < 64) : prefetchView (readEntries s b n).2 k = prefetchView s k := by
  obtain ⟨hrows, hregs⟩ := readEntries_readOnly s b n
  rw [prefetchView, hregs.bit 2 (by simp) hk (by decide), hregs.bit 9 (by simp) hk (by decide), State.row, hrows]
  rfl

theorem prefetchRow_view (v : Nat) {s : State} {k j : Nat} (hk : k < 64) (hj : j < 64) :
    prefetchView (prefetchRow v s k) j =
      if j = k ∧ s.bit .rwCam k 0 9 = true then (true, true, 16) else prefetchView s j := by
  unfold prefetchRow
  by_cases hc : s.bit .rwCam k 0 9 = true
  · have hcam : (readEntries s (slotLo s v + 4 + 16 * k) 16).2.bit .rwCam k 0 9 = true := by
      rw [← hc]; exact congrArg (·.2.1) (readEntries_view hk)
    rw [if_pos hc]
    dsimp only
    rw [prefetchView_take _ hk hj, readEntries_length, hcam, readEntries_view hj]
    simp [hc]
  · simp [hc]

/-- What a prefetching leaves (R186, R263). -/
theorem prefetch_marks (v : Nat) (s : State) (k : Nat) (hk : k < 64) :
    prefetchView (s.forN 64 (prefetchRow v)) k =
      if s.bit .rwCam k 0 9 = true then (true, true, 16) else prefetchView s k := by
  have h : ∀ n ≤ 64, ∀ j < 64, prefetchView (s.forN n (prefetchRow v)) j =
      if j < n ∧ s.bit .rwCam j 0 9 = true then (true, true, 16) else prefetchView s j := by
    intro n
    induction n with
    | zero => simp
    | succ n ih =>
      intro hn j hj
      have hcam : (s.forN n (prefetchRow v)).bit .rwCam n 0 9 = s.bit .rwCam n 0 9 := by
        have := congrArg (·.2.1) (ih (by omega) n (by omega))
        simpa [prefetchView] using this
      rw [forN_succ, prefetchRow_view v (by omega) hj, hcam, ih (by omega) j hj]
      rcases Nat.lt_trichotomy j n with h | rfl | h
      · simp [h, h.ne, h.trans (Nat.lt_succ_self n)]
      · simp
      · simp [h.ne', h.not_gt, show ¬ j < n + 1 by omega]
  simpa [hk] using h 64 le_rfl k hk

end Sys2Proof.Proofs
end

section
namespace Sys2Proof.Proofs
open Sys2Proof Sys2Proof.Machine Sys2Proof.Safety Sys2Proof.Laws

/-! ### A switch takes effect (R186, R265, R266) -/

/-- The registers of a vintage's slot. -/
def dirRegs : List Reg := [.ckDir, .ckDirh, .ckDirnl, .ckDirnh, .ckDirseq]

/-- The mirrors of a slot's header. -/
def mirrorRegs : List Reg := [.ckDirh, .ckDirnl, .ckDirnh, .ckDirseq]

theorem copyHeader_keeps (s : State) {v : Nat} (hv : v < 8) : KeepsRegs mirrorRegs s (copyHeader s v) :=
  ((KeepsRegs.wr _ (by decide) hv (by decide)).trans (.wr _ (by decide) hv (by decide))).trans
    ((KeepsRegs.wr _ (by decide) hv (by decide)).trans (.wr _ (by decide) hv (by decide)))

/-- Slot `v` at Ready or Active: the state and the cause it shows. -/
def dirMark (s : State) (v st fc : Nat) : State := (s.wrF .ckDir v 0 2 0 st).wrF .ckDir v 0 18 16 fc

/-- A slot that becomes Ready or Active only shows it, and at Ready may take its header. -/
theorem dirShow_eq {s : State} {v st fc : Nat} (hst : st = 3 ∨ st = 4) :
    dirShow s v st fc = dirMark s v st fc ∨ dirShow s v st fc = copyHeader (dirMark s v st fc) v := by
  rcases hst with rfl | rfl
  · have h : dirShow s v 3 fc = if dirShown s v = 2 then copyHeader (dirMark s v 3 fc) v else dirMark s v 3 fc := by
      simp [dirShow, dirMark]
    rw [h]
    split
    · exact .inr rfl
    · exact .inl rfl
  · exact .inl (by simp [dirShow, dirMark])

/-- What a slot's change leaves but the slot's own registers. -/
structure DirOnly (v st : Nat) (s t : State) : Prop where
  rows : t.rows = s.rows
  cask : t.cask = s.cask
  regs : KeepsRegs dirRegs s t
  dir : ∀ u < 8, t.rdF .ckDir u 0 2 0 = if u = v then st else s.rdF .ckDir u 0 2 0

theorem dirMark_dirOnly (s : State) {v st fc : Nat} (hv : v < 8) (hst : st < 8) : DirOnly v st s (dirMark s v st fc) where
  rows := rfl
  cask := rfl
  regs := (KeepsRegs.wrF 2 0 st (by decide) hv (by decide)).trans (.wrF 18 16 fc (by decide) hv (by decide))
  dir u hu := by
    by_cases h : u = v
    · subst h
      simpa [State.rdF, dirMark, fld_setFld_ne, fld_setFld_same] using hst
    · have hrd (t : State) (w : Word) : (t.wr .ckDir v 0 w).rd .ckDir u 0 = t.rd .ckDir u 0 :=
        (rd_wr_index t w hv (by decide) hu (by decide)).trans (if_neg (by simp [h]))
      simp [State.rdF, dirMark, State.wrF, hrd, h]

theorem dirShow_dirOnly (s : State) {v st fc : Nat} (hv : v < 8) (hst : st = 3 ∨ st = 4) :
    DirOnly v st s (dirShow s v st fc) := by
  have hm := dirMark_dirOnly s (fc := fc) hv (by omega : st < 8)
  have hc := copyHeader_keeps (dirMark s v st fc) hv
  rcases dirShow_eq hst with h | h <;> rw [h]
  · exact hm
  · exact ⟨hm.rows, hm.cask, hm.regs.trans (hc.mono (by decide)), fun u hu =>
      (hc.rdF 2 0 (by decide) hu (by decide)).trans (hm.dir u hu)⟩

theorem dirGo_dirOnly {s : State} {v st fc : Nat} (hp : s.bit .ckStat 0 0 6 = false) (hv : v < 8) (hst : st = 3 ∨ st = 4) :
    DirOnly v st s (dirGo s v st fc) := by
  rw [dirGo, if_neg (by simp [hp])]
  exact dirShow_dirOnly s hv hst

theorem activeSlot_lt {s : State} {u : Nat} (h : activeSlot s = some u) : u < 8 := by
  simpa using List.mem_of_find?_eq_some h

/-- The directory of a switch to slot `v`. -/
def switchDir (s : State) (v : Nat) : State :=
  if activeSlot s = some v then s
  else match activeSlot s with
    | some u => dirGo (dirGo s u 3 0) v 4 0
    | none => dirGo s v 4 0

/-- The registers and the flags of a switch that is done. -/
def switchDone (s : State) : State :=
  let s := (s.wrF .ckSwstat 0 0 2 0 3).setB .ckSwstat 0 0 17
  { s with cask := { s.cask with sw := none, tsValid := false } }

/-- Row `k` holds the block of the new vintage for its first activation. -/
def rowSwitched (s : State) (k : Nat) : State :=
  s.setRow k { s.row k with newv := true, pblock := (s.row k).nblock, nblock := [] }

theorem takeSwitch_due {s : State} {v : Nat} {c a : Word} (h : s.cask.sw = some (v, c, a)) (hd : switchDue s = true) :
    takeSwitch s = (switchDone (switchDir s v)).forN 64 rowSwitched := by
  simp only [takeSwitch, h, hd, if_true]
  rfl

theorem takeSwitch_notDue {s : State} (hd : switchDue s = false) : takeSwitch s = s := by
  unfold takeSwitch
  split
  · rfl
  · simp [hd]

/-- A switch changes of rows nothing, and of the directory the slot that was Active and its own. -/
theorem switchDir_spec {s : State} {v : Nat} (hp : s.bit .ckStat 0 0 6 = false) (hv : v < 8) :
    (switchDir s v).rows = s.rows ∧ KeepsRegs dirRegs s (switchDir s v) ∧
      (activeSlot s = none → (switchDir s v).rdF .ckDir v 0 2 0 = 4) ∧
      (∀ u < 8, activeSlot s = some u → u ≠ v →
        (switchDir s v).rdF .ckDir u 0 2 0 = 3 ∧ (switchDir s v).rdF .ckDir v 0 2 0 = 4) := by
  unfold switchDir
  cases ha : activeSlot s with
  | none =>
    have h := dirGo_dirOnly (st := 4) (fc := 0) hp hv (.inr rfl)
    simpa using ⟨h.rows, h.regs, by simpa using h.dir v hv⟩
  | some u =>
    have hu := activeSlot_lt ha
    by_cases huv : u = v
    · subst huv
      rw [if_pos rfl]
      exact ⟨rfl, .refl s, by simp, fun w _ hw hne => absurd (by simpa using hw.symm) hne⟩
    · have h1 := dirGo_dirOnly (st := 3) (fc := 0) hp hu (.inl rfl)
      have hp1 : (dirGo s u 3 0).bit .ckStat 0 0 6 = false := by
        rw [h1.regs.bit 6 (by decide) (by decide) (by decide), hp]
      have h2 := dirGo_dirOnly (st := 4) (fc := 0) hp1 hv (.inr rfl)
      rw [if_neg (by simpa using huv)]
      refine ⟨h2.rows.trans h1.rows, h1.regs.trans h2.regs, by simp, fun w hw hwu hwv => ⟨?_, by simpa using h2.dir v hv⟩⟩
      obtain rfl : u = w := by simpa using hwu
      simpa [huv, h1.dir u hu] using h2.dir u hu

theorem switchDone_spec (s : State) :
    (switchDone s).rdF .ckSwstat 0 0 2 0 = 3 ∧ (switchDone s).bit .ckSwstat 0 0 17 = true ∧ (switchDone s).cask.sw = none ∧
      (switchDone s).rows = s.rows ∧ KeepsRegs [.ckSwstat] s (switchDone s) := by
  have hrd : (switchDone s).rd .ckSwstat 0 0 = setBit (setFld (s.rd .ckSwstat 0 0) 2 0 3) 17 true := by
    show ((s.wrF .ckSwstat 0 0 2 0 3).setB .ckSwstat 0 0 17).rd .ckSwstat 0 0 = _
    simp
  refine ⟨by simp [State.rdF, hrd, fld_setBit_ne, fld_setFld_same], by simp [State.bit, hrd, bitOf_setBit], rfl, rfl, ?_⟩
  have h : KeepsRegs [.ckSwstat] s ((s.wrF .ckSwstat 0 0 2 0 3).setB .ckSwstat 0 0 17) :=
    (KeepsRegs.wrF 2 0 3 (by simp) (by decide) (by decide)).trans (.setB 17 (by simp) (by decide) (by decide))
  exact h.trans (.of_regs_eq rfl)

/-- Each row has taken the new vintage's block, and the rest is as before. -/
theorem rowsSwitched (s : State) :
    (s.forN 64 rowSwitched).regs = s.regs ∧ (s.forN 64 rowSwitched).cask = s.cask ∧
      ∀ k < 64, ((s.forN 64 rowSwitched).row k).newv = true ∧ ((s.forN 64 rowSwitched).row k).pblock = (s.row k).nblock := by
  obtain ⟨hinv, hdone, -⟩ := forN_each (n := 64) (f := rowSwitched) (s := s) (fun t => t.regs = s.regs ∧ t.cask = s.cask) State.row
    (fun k x => x.newv = true ∧ x.pblock = (s.row k).nblock) ⟨rfl, rfl⟩
    (fun t i _ h => h) (fun t i k _ _ hk => by simp [rowSwitched, row_setRow, hk])
    (fun t i _ _ h => by simp [rowSwitched, h])
  exact ⟨hinv.1, hinv.2, hdone⟩

/-- A switch that is due takes effect (R266). -/
theorem switchInstant_takes {s : State} {v : Nat} {c a : Word} (hsw : s.cask.sw = some (v, c, a)) (hd : switchDue s = true)
    (hp : s.bit .ckStat 0 0 6 = false) (hv : v < 8) :
    ∃ t, exec .switchInstant s = .next t ∧ t.rdF .ckSwstat 0 0 2 0 = 3 ∧ t.bit .ckSwstat 0 0 17 = true ∧ t.cask.sw = none ∧
      (∀ k < 64, (t.row k).newv = true ∧ (t.row k).pblock = (s.row k).nblock) ∧
      (activeSlot s = none → t.rdF .ckDir v 0 2 0 = 4) ∧
      (∀ u < 8, activeSlot s = some u → u ≠ v → t.rdF .ckDir u 0 2 0 = 3 ∧ t.rdF .ckDir v 0 2 0 = 4) := by
  obtain ⟨hrows, -, hnone, hsome⟩ := switchDir_spec hp hv
  obtain ⟨hst, hflag, hnosw, hrows', hkeep⟩ := switchDone_spec (switchDir s v)
  obtain ⟨hregs, hcask, hrow⟩ := rowsSwitched (switchDone (switchDir s v))
  set w := switchDone (switchDir s v)
  set t := w.forN 64 rowSwitched
  have hrd (r : Reg) (i hi lo : Nat) : t.rdF r i 0 hi lo = w.rdF r i 0 hi lo := by simp only [State.rdF, State.rd, hregs]
  have hdir (u : Nat) (hu : u < 8) : t.rdF .ckDir u 0 2 0 = (switchDir s v).rdF .ckDir u 0 2 0 :=
    (hrd ..).trans (hkeep.rdF 2 0 (by decide) hu (by decide))
  have hexec : exec .switchInstant s = .next t := congrArg Host.Outcome.next (takeSwitch_due hsw hd)
  refine ⟨t, hexec, (hrd ..).trans hst, ?_, by rw [hcask, hnosw], fun k hk => ?_, fun h => ?_, fun u hu ha hne => ?_⟩
  · rw [← hflag]; simp only [State.bit, State.rd, hregs]
  · obtain ⟨hnew, hblock⟩ := hrow k hk
    refine ⟨hnew, hblock.trans ?_⟩
    simp only [State.row, hrows', hrows]
  · rw [hdir v hv, hnone h]
  · rw [hdir u hu, hdir v hv]
    exact hsome u hu ha hne

end Sys2Proof.Proofs
end

section
namespace Sys2Proof.Proofs
open Sys2Proof Sys2Proof.Machine Sys2Proof.Safety Sys2Proof.Laws

/-! ### A step of Racking (R268–R270) -/

theorem ckErr_ckPut (s : State) (e : Nat) (d : BitVec 64) (x : BitVec 80) : (s.ckPut e d x).ckErr e = x := tget_tput_same ..

theorem ckData_ckPut {s : State} {e : Nat} (he : 4096 ≤ e) (d : BitVec 64) (x : BitVec 80) : (s.ckPut e d x).ckData e = d := by
  rw [State.ckData, if_neg (by omega)]
  exact tget_tput_same ..

/-- Beyond block 0 an entry's data is what the Cask holds. -/
theorem ckData_congr {s t : State} (h : t.cask.data = s.cask.data) {e : Nat} (he : 4096 ≤ e) : t.ckData e = s.ckData e := by
  rw [State.ckData, State.ckData, if_neg (by omega), if_neg (by omega), h]

/-- A rewrite that need not wait stores what the decoder finds in an entry with one or two errors (R253). -/
theorem rewriteEntry_now {s : State} {e : Nat} (hp : s.bit .ckStat 0 0 6 = false)
    (hc : (decodeEntry (s.ckData e) (s.ckErr e)).1 = .single ∨ (decodeEntry (s.ckData e) (s.ckErr e)).1 = .double) :
    rewriteEntry s e = s.ckPut e (decodeEntry (s.ckData e) (s.ckErr e)).2 0 := by
  rw [rewriteEntry, if_neg (by simp [hp])]
  exact if_pos hc

theorem checkpoint_keeps (s : State) : (checkpoint s).regs = s.regs ∧ (checkpoint s).cask.data = s.cask.data ∧
    (checkpoint s).cask.err = s.cask.err := by
  unfold checkpoint
  dsimp only
  split
  · exact ⟨rfl, rfl, rfl⟩
  · exact ⟨rfl, rfl, rfl⟩

/-- The repair slot goes first (R269). -/
theorem exec_rackingStep_repair {s : State} {e : Nat} (hok : rackOk s = true) (hr : s.cask.repair = some e) :
    exec .rackingStep s = .next (rewriteEntry { s with cask := { s.cask with repair := none } } e) := by
  show execRackingStep s = _
  simp [execRackingStep, hok, hr]

/-- The walk passes an entry where no slot is erasing and the lap does not end. -/
theorem exec_rackingStep_walk {s : State} (hok : rackOk s = true) (hr : s.cask.repair = none)
    (he : s.rdF .rackPos 0 0 23 0 + 1 < 2 ^ 24) (hd : ∀ v < 8, dirState s v ≠ 6) :
    exec .rackingStep s =
      .next (checkpoint ((rackEntry s (s.rdF .rackPos 0 0 23 0)).wr .rackPos 0 0 (wd (s.rdF .rackPos 0 0 23 0 + 1)))) := by
  have hskip : (List.range 8).find? (fun v => dirState s v == 6 && inSlot s v (s.rdF .rackPos 0 0 23 0)) = none := by
    simp only [List.find?_eq_none, List.mem_range]
    intro v hv
    simp [hd v hv]
  show execRackingStep s = _
  simp only [execRackingStep, hok, hr, hskip]
  exact if_pos he

/-- The repair slot's entry is repaired (R250, R269). -/
theorem rackingStep_repairs {s : State} {e : Nat} (hok : rackOk s = true) (hp : s.bit .ckStat 0 0 6 = false)
    (hr : s.cask.repair = some e) (he : 4096 ≤ e) (hc : (decodeEntry (s.ckData e) (s.ckErr e)).1 = .single) :
    ∃ t, exec .rackingStep s = .next t ∧ t.cask.repair = none ∧ t.ckErr e = 0 ∧
      t.ckData e = (decodeEntry (s.ckData e) (s.ckErr e)).2 ∧ t.rd .rackPos 0 0 = s.rd .rackPos 0 0 := by
  set u : State := { s with cask := { s.cask with repair := none } } with hu
  have hdata : u.ckData e = s.ckData e := ckData_congr rfl he
  have herr : u.ckErr e = s.ckErr e := rfl
  have hgo := rewriteEntry_now (s := u) (e := e) hp (by rw [hdata, herr]; exact .inl hc)
  rw [hdata, herr] at hgo
  refine ⟨_, (exec_rackingStep_repair hok hr).trans (congrArg _ hgo), rfl, ckErr_ckPut .., ckData_ckPut he .., rfl⟩

/-- The walk goes on by one entry, with the counts and flags of the one it read (R269). -/
theorem rackingStep_walks {s : State} (hok : rackOk s = true) (hp : s.bit .ckStat 0 0 6 = false) :
    let e := s.rdF .rackPos 0 0 23 0
    s.cask.repair = none → e + 1 < 2 ^ 24 → (∀ v < 8, dirState s v ≠ 6) →
      ∃ t, exec .rackingStep s = .next t ∧ t.rdF .rackPos 0 0 23 0 = e + 1 ∧
        ((decodeEntry (s.ckData e) (s.ckErr e)).1 = .clean →
          (4096 ≤ e → t.ckData e = s.ckData e) ∧ t.rd .rackCnt 0 0 = s.rd .rackCnt 0 0) ∧
        ((decodeEntry (s.ckData e) (s.ckErr e)).1 = .double → t.ckErr e = 0 ∧
          t.rdF .rackCnt 0 0 23 16 = Nat.min (s.rdF .rackCnt 0 0 23 16 + 1) 255) ∧
        ((decodeEntry (s.ckData e) (s.ckErr e)).1 = .uncorrectable → t.bit .ckStat 0 0 8 = true ∧
          t.rd .rackUeaddr 0 0 = wd (e + 2 ^ 31) ∧ t.bit .fmFlt 0 0 2 = true) := by
  intro e hr he hd
  refine ⟨_, exec_rackingStep_walk hok hr he hd, ?_⟩
  set u := rackEntry s e with hu
  obtain ⟨hregs, hdata, herr⟩ := checkpoint_keeps (u.wr .rackPos 0 0 (wd (e + 1)))
  set t := checkpoint (u.wr .rackPos 0 0 (wd (e + 1)))
  have hrd (r : Reg) (h : r ≠ .rackPos) : t.rd r 0 0 = u.rd r 0 0 := by
    rw [← rd_wr_first u (wd (e + 1)) h, State.rd, hregs, State.rd]
  have hpos : t.rd .rackPos 0 0 = wd (e + 1) := by
    rw [State.rd, hregs]; exact rd_wr_same ..
  have hdata : t.cask.data = u.cask.data := hdata
  have herr : t.ckErr e = u.ckErr e := congrArg (tget _ · e) herr
  refine ⟨?_, fun hc => ?_, fun hc => ?_, fun hc => ?_⟩
  · rw [State.rdF, hpos, fld_wd _ _ (by decide)]
    exact Nat.mod_eq_of_lt he
  · have hus : u = s := by rw [hu, rackEntry, hc]
    rw [hrd _ (by decide), hus]
    exact ⟨fun h => ckData_congr (by rw [hdata, hus]) h, rfl⟩
  · have hue : u = (s.ckPut e (decodeEntry (s.ckData e) (s.ckErr e)).2 0).incF .rackCnt 0 0 23 16 := by
      rw [hu, rackEntry, hc, rewriteEntry_now hp (.inr hc)]
    refine ⟨by rw [herr, hue]; exact ckErr_ckPut .., ?_⟩
    rw [State.rdF, hrd _ (by decide), hue, rd_incF_same, fld_setFld_same _ _ _ _ (by decide)]
    exact Nat.mod_eq_of_lt (lt_of_le_of_lt (Nat.min_le_right _ _) (by decide))
  · have hue : u = (((((s.wr .rackUeaddr 0 0 (wd (e + 2 ^ 31))).setB .ckStat 0 0 8).record 0x0304 68 (wd e) 0 0 0)).fault 2).incF
        .rackCnt 0 0 31 24 := by
      rw [hu, rackEntry, hc]
    rw [State.bit, State.bit, hrd _ (by decide), hrd _ (by decide), hrd _ (by decide), hue]
    simp [State.fault, bitOf_setBit]

/-- Settles O42: each command by its own rule. -/
theorem switchAndRackingCommandsComplete : Obligations.switch_and_racking_commands_complete := by
  unfold Obligations.switch_and_racking_commands_complete
  refine ⟨fun w s => ckSwitchArm_takes, fun w s => ckSwitchDisarm_declines, fun v c a s hsw => ⟨fun hdk hst => ?_,
    fun hd => congrArg Host.Outcome.next (takeSwitch_notDue hd), fun hd hp hv => switchInstant_takes hsw hd hp hv⟩,
    fun w s hu => ⟨ckClrc_clears w hu, ckLock_locks w hu, ckFlipArm_arms w hu, ckFlipArm_ignored w hu⟩,
    fun s hok hp => ⟨fun e hr he hc => rackingStep_repairs hok hp hr he hc, rackingStep_walks hok hp⟩⟩
  refine ⟨_, exec_prefetchComplete hsw hdk hst, fun k hk => ?_, fun k hk hcam => ?_⟩
  · have h := congrArg Prod.fst (prefetch_marks v s k hk)
    cases hcam : s.bit .rwCam k 0 9 <;> simpa [prefetchView, hcam] using h
  · have h := congrArg (·.2.2) (prefetch_marks v s k hk)
    simpa [prefetchView, hcam] using h

end Sys2Proof.Proofs
end

section
namespace Sys2Proof.Proofs
open Sys2Proof Sys2Proof.Machine Sys2Proof.Safety Sys2Proof.Laws

/-! ### What the trios and lanes change -/

/-- The registers that the trios and lanes write themselves. -/
def laneRegs : List Reg := [.lnStat, .lnOwed, .lnCnt, .lnRefloss]

/-- The state but the registers, the trios and the lanes. -/
def beyondLanes (s : State) : State := { s with regs := [], trios := [], lanes := [] }

/-- Only trios, lanes and their own registers differ. -/
structure LanesOnly (s t : State) : Prop where
  rest : beyondLanes t = beyondLanes s
  regs : KeepsRegs laneRegs s t

namespace LanesOnly

variable {s t u : State}

theorem refl (s : State) : LanesOnly s s := ⟨rfl, .refl s⟩

theorem trans (h : LanesOnly s t) (g : LanesOnly t u) : LanesOnly s u := ⟨g.rest.trans h.rest, h.regs.trans g.regs⟩

theorem setLane (s : State) (n : Nat) (l : LaneS) : LanesOnly s (s.setLane n l) := ⟨rfl, .of_regs_eq rfl⟩

theorem setTrio (s : State) (n : Nat) (x : TrioS) : LanesOnly s (s.setTrio n x) := ⟨rfl, .of_regs_eq rfl⟩

theorem wr (s : State) {r : Reg} {i : Nat} (v : Word) (hr : r ∈ laneRegs) (hi : i < r.info.ni) :
    LanesOnly s (s.wr r i 0 v) := ⟨rfl, .wr v hr hi (info_pos r).2⟩

theorem when (b : Bool) {f : State → State} (h : LanesOnly s (f s)) : LanesOnly s (s.when b f) := by
  cases b
  · exact refl s
  · exact h

theorem forN {n : Nat} {f : State → Nat → State} (s : State) (h : ∀ t i, i < n → LanesOnly t (f t i)) :
    LanesOnly s (s.forN n f) :=
  forN_keeps_lt (LanesOnly s) (fun t i hi ht => ht.trans (h t i hi)) (.refl s)

theorem now (h : LanesOnly s t) : t.now = s.now := by have g := congrArg State.now h.rest; exact g
theorem tb (h : LanesOnly s t) : t.tb = s.tb := by have g := congrArg State.tb h.rest; exact g
theorem mem (h : LanesOnly s t) : t.mem = s.mem := by have g := congrArg State.mem h.rest; exact g
theorem fm (h : LanesOnly s t) : t.fm = s.fm := by have g := congrArg State.fm h.rest; exact g
theorem rows (h : LanesOnly s t) : t.rows = s.rows := by have g := congrArg State.rows h.rest; exact g

theorem rd (h : LanesOnly s t) {r : Reg} (hr : r ∉ laneRegs) : t.rd r 0 0 = s.rd r 0 0 := h.regs.first hr

theorem bit (h : LanesOnly s t) {r : Reg} (b : Nat) (hr : r ∉ laneRegs) : t.bit r 0 0 b = s.bit r 0 0 b := by
  rw [State.bit, h.rd hr, State.bit]

theorem rdF (h : LanesOnly s t) {r : Reg} (hi lo : Nat) (hr : r ∉ laneRegs) : t.rdF r 0 0 hi lo = s.rdF r 0 0 hi lo := by
  rw [State.rdF, h.rd hr, State.rdF]

end LanesOnly

/-- A write to lane `n`'s own LN_STAT, LN_OWED or LN_REFLOSS, or a trio's LN_CNT. -/
theorem lanesOnly_wr (s : State) {r : Reg} (hr : r ∈ laneRegs) {i : Nat} (hi : i < 192) (v : Word) : LanesOnly s (s.wr r i 0 v) :=
  .wr s v hr (by
    have h : ∀ q ∈ laneRegs, q.info.ni = 192 := by decide
    rw [h r hr]; exact hi)

theorem settleAt_lanesOnly (s : State) {n : Nat} (hn : n < 192) (x : Int) : LanesOnly s (settleAt s n x) :=
  (LanesOnly.setLane s n _).trans (lanesOnly_wr _ (by decide) hn _)

theorem settle_lanesOnly (s : State) {n : Nat} (hn : n < 192) : LanesOnly s (settle s n) := settleAt_lanesOnly s hn _

theorem settleAll_lanesOnly (s : State) : LanesOnly s (settleAll s) := .forN s fun t _ hn => settle_lanesOnly t hn

theorem setTrips_lanesOnly (s : State) {n : Nat} (hn : n < 192) (new : BitVec 96) : LanesOnly s (setTrips s n new) := by
  unfold setTrips
  dsimp only
  split
  · exact .refl s
  · refine LanesOnly.trans ?_ (settle_lanesOnly _ hn)
    split
    · exact (LanesOnly.setLane s n _).trans (lanesOnly_wr _ (by decide) hn _)
    · exact .setLane s n _

theorem boundaryTrips_lanesOnly (s : State) {t : Nat} (ht : t < 64) : LanesOnly s (boundaryTrips s t) :=
  .forN s fun u _ _ => setTrips_lanesOnly u (by omega) _

theorem refreshed_lanesOnly (s : State) {n : Nat} (hn : n < 192) : LanesOnly s (refreshed s n) :=
  (lanesOnly_wr s (by decide) hn _).trans (lanesOnly_wr _ (by decide) hn _)

theorem goSide_lanesOnly (s : State) {n : Nat} (hn : n < 192) (high : Bool) (x : Int) : LanesOnly s (goSide s n high x) := by
  unfold goSide
  extract_lets same cut u l
  have hu : LanesOnly s u := .when _ (refreshed_lanesOnly s hn)
  split
  · exact hu.trans (.setLane ..)
  · exact hu.trans ((LanesOnly.setLane u n _).trans (settleAt_lanesOnly _ hn _))

theorem restSide_lanesOnly (s : State) {n : Nat} (hn : n < 192) (high : Bool) (x : Int) : LanesOnly s (restSide s n high x) := by
  unfold restSide
  extract_lets l
  split
  · exact goSide_lanesOnly s hn high x
  · exact (LanesOnly.setLane s n _).trans (settleAt_lanesOnly _ hn _)

theorem beginLow_lanesOnly (s : State) {n : Nat} (hn : n < 192) (off : Nat) (keep : Bool) : LanesOnly s (beginLow s n off keep) := by
  unfold beginLow
  extract_lets l
  split_ifs
  · exact .refl s
  · exact (LanesOnly.setLane s n _).trans (.when _ (lanesOnly_wr _ (by decide) hn _))
  · exact restSide_lanesOnly s hn _ _

theorem boundaryLane_lanesOnly (tOld : Nat) (s : State) {n : Nat} (hn : n < 192) : LanesOnly s (boundaryLane tOld s n) := by
  unfold boundaryLane
  extract_lets l0 t ti takes c s1 drv full off keep nref l1 sh l2 s2 e s3 minR r1 held s4 s5 s6 l
  have h1 : LanesOnly s s1 := by
    show LanesOnly s (if _ then _ else _)
    split
    · exact lanesOnly_wr s (by decide) hn 0
    · exact .refl s
  have h2 : LanesOnly s s2 := h1.trans (.setLane ..)
  have h3 : LanesOnly s s3 := h2.trans (.when _ (lanesOnly_wr _ (by decide) hn _))
  have h5 : LanesOnly s s5 := (h3.trans (.setLane ..)).trans (.when _ (lanesOnly_wr _ (by decide) hn _))
  have h6 : LanesOnly s s6 := by
    refine h5.trans ?_
    show LanesOnly s5 (if _ then _ else _)
    split_ifs
    · exact restSide_lanesOnly s5 hn _ _
    · exact beginLow_lanesOnly s5 hn _ _
    · exact .refl s5
  split
  · exact h6.trans ((LanesOnly.setLane ..).trans (settle_lanesOnly _ hn))
  · exact h6.trans ((LanesOnly.setLane ..).trans (settle_lanesOnly _ hn))

theorem setCount_lanesOnly (s : State) {t : Nat} (ht : t < 64) (c : Nat) (down : Bool) : LanesOnly s (setCount s t c down) :=
  lanesOnly_wr s (by decide) (by omega) _

theorem boundaryAfter_lanesOnly (s : State) {t : Nat} (ht : t < 64) (tOld : Nat) : LanesOnly s (boundaryAfter s t tOld) := by
  unfold boundaryAfter
  extract_lets x s1 s2 s3
  have h1 : LanesOnly s s1 := .setTrio s t _
  have h2 : LanesOnly s1 s2 := setCount_lanesOnly s1 ht 0 false
  have h3 : LanesOnly s2 s3 := .forN s2 fun u _ _ => boundaryLane_lanesOnly _ u (by omega)
  exact ((h1.trans h2).trans h3).trans (boundaryTrips_lanesOnly s3 ht)

theorem boundary_lanesOnly (s : State) {t : Nat} (ht : t < 64) : LanesOnly s (boundary s t) :=
  boundaryAfter_lanesOnly s ht _

theorem restLanes_lanesOnly (s : State) (t : Nat) : LanesOnly s (restLanes s t) :=
  .forN s fun u _ _ => .setLane u _ _

theorem trioStart_lanesOnly (s : State) {t : Nat} (ht : t < 64) : LanesOnly s (trioStart s t) := by
  unfold trioStart
  extract_lets x s1 s2 c0 ud per d0 c down u held el y s3
  have h2 : LanesOnly s s2 := (LanesOnly.setTrio s t _).trans (restLanes_lanesOnly s1 t)
  split
  · exact h2.trans (boundary_lanesOnly s2 ht)
  · have h3 : LanesOnly s s3 := h2.trans ((LanesOnly.setTrio s2 t _).trans (setCount_lanesOnly _ ht c down))
    refine h3.trans (.forN s3 fun w j hj => ?_)
    have hn : 3 * t + j < 192 := by omega
    extract_lets n e a s4 s5
    have h5 : LanesOnly w s5 := (LanesOnly.setLane w n _).trans (.when _ (lanesOnly_wr _ (by decide) hn _))
    split
    · exact h5
    · exact h5.trans (restSide_lanesOnly s5 hn _ _)

theorem startHeld_lanesOnly (s : State) : LanesOnly s (startHeld s) :=
  .forN s fun u _ hi => .when _ (trioStart_lanesOnly u hi)

end Sys2Proof.Proofs
end

section
namespace Sys2Proof.Proofs
open Sys2Proof Sys2Proof.Machine Sys2Proof.Safety Sys2Proof.Laws

/-! ### Tables in which a key stands at most once -/

section Tables
variable {α : Type}

/-- How often key `k` stands in a table. -/
def keyCount (t : Tbl α) (k : Nat) : Nat := t.countP (·.1 == k)

theorem keyCount_tdel_same (t : Tbl α) (k : Nat) : keyCount (tdel t k) k = 0 := by
  simp [keyCount, tdel, List.countP_eq_zero]

theorem keyCount_tdel_ne (t : Tbl α) {j k : Nat} (h : j ≠ k) : keyCount (tdel t k) j = keyCount t j := by
  rw [keyCount, tdel, List.countP_filter, keyCount]
  exact List.countP_congr fun e _ => by
    simp only [Bool.and_eq_true, beq_iff_eq, bne_iff_ne, ne_eq, and_iff_left_iff_imp]
    rintro rfl
    exact h

theorem keyCount_tins (t : Tbl α) (j k : Nat) (v : α) : keyCount (tins t k v) j = keyCount t j + if k = j then 1 else 0 := by
  induction t with
  | nil => simp [tins, keyCount, List.countP_cons]
  | cons e t ih =>
    unfold tins
    split
    · simp [keyCount, List.countP_cons]
    · simp only [keyCount, List.countP_cons] at ih ⊢
      omega

theorem keyCount_tput_same [DecidableEq α] (d : Nat → α) (t : Tbl α) (k : Nat) (v : α) : keyCount (tput d t k v) k ≤ 1 := by
  unfold tput
  split
  · simp [keyCount_tdel_same]
  · simp [keyCount_tins, keyCount_tdel_same]

theorem keyCount_tput_ne [DecidableEq α] (d : Nat → α) (t : Tbl α) {j k : Nat} (v : α) (h : j ≠ k) :
    keyCount (tput d t k v) j = keyCount t j := by
  unfold tput
  split
  · exact keyCount_tdel_ne t h
  · rw [keyCount_tins, keyCount_tdel_ne t h, if_neg (Ne.symm h), Nat.add_zero]

theorem tget_of_keyCount_zero (d : Nat → α) {t : Tbl α} {k : Nat} (h : keyCount t k = 0) : tget d t k = d k := by
  induction t with
  | nil => rfl
  | cons e t ih =>
    simp only [keyCount, List.countP_cons, Nat.add_eq_zero_iff] at h
    obtain ⟨ht, he⟩ := h
    have hek : e.1 ≠ k := by simpa using he
    rw [tget, if_neg hek]
    exact ih ht

theorem keyCount_tmap_le [DecidableEq α] (f : α → α) (d : α) (t : Tbl α) (k : Nat) : keyCount (tmap f d t) k ≤ keyCount t k := by
  rw [keyCount, tmap, List.countP_filter, List.countP_map, keyCount]
  exact List.countP_mono_left fun e _ => by simp +contextual

/-- A key that stands at most once is changed by `f` as every entry. -/
theorem tget_tmap [DecidableEq α] (f : α → α) {d : α} (hf : f d = d) {t : Tbl α} {k : Nat} (h : keyCount t k ≤ 1) :
    tget (fun _ => d) (tmap f d t) k = f (tget (fun _ => d) t k) := by
  induction t with
  | nil => exact hf.symm
  | cons e t ih =>
    have hcons : tmap f d (e :: t) = if f e.2 ≠ d then (e.1, f e.2) :: tmap f d t else tmap f d t := by
      simp [tmap, List.filter_cons]
    simp only [keyCount, List.countP_cons] at h ih
    rw [hcons, tget]
    by_cases he : e.1 = k
    · have hz : keyCount (tmap f d t) k = 0 := by
        have := keyCount_tmap_le f d t k
        simp only [he, beq_self_eq_true, if_true] at h
        have h0 : keyCount t k = 0 := by rw [keyCount]; omega
        omega
      rw [if_pos he]
      split
      · rw [tget, if_pos he]
      next hd => rw [tget_of_keyCount_zero _ hz]; exact (not_not.1 hd).symm
    · rw [if_neg he]
      have ih := ih (by omega)
      split
      · rw [tget, if_neg he, ih]
      · exact ih

end Tables

/-! ### The loop locks (R34, R36, R42, R379) -/

/-- The loop is locked, at `mv`. -/
def lockedLoop (mv : Nat) (s : State) : State :=
  let s := (s.setB .tbStat 0 0 0).atMv mv
  { s with tb := { s.tb with leaving := s.bit .tbStat 0 0 1 }, str := { s.str with passThru := false } }

/-- The first speed windows open at `mv`. -/
def openWindows (mv : Nat) (s : State) : State :=
  s.forN 64 (fun s k => s.setRow k { s.row k with startMv := mv, short := false })

/-- What PLL_LOCK does before a quiet halt is looked at. -/
def relock (mv : Nat) (s : State) : State :=
  (lockLost (openWindows mv (lockedLoop mv s))).when (openWindows mv (lockedLoop mv s)).timeOk startHeld

theorem exec_pllLock {mv : Nat} {s : State} (hr : s.fm.reset = .none) (hp : s.fm.power ≠ .hold) (hl : s.bit .tbStat 0 0 0 = false)
    (hq : (s.bit .tbStat 0 0 1 && s.rdF .secDbg 0 0 1 0 == 3 && s.bit .tbCtl 0 0 2) = false) :
    exec (.pllLock mv) s = .next (quietLf (relock mv s)) :=
  if_neg (by simpa [hr, hp, hl] using hq)

theorem rowCount_setRow_same (s : State) (k : Nat) (x : RowS) : keyCount (s.setRow k x).rows k ≤ 1 := by
  show keyCount (tput (fun _ => ({} : RowS)) s.rows k x) k ≤ 1
  exact keyCount_tput_same ..

theorem rowCount_setRow_ne (s : State) {j k : Nat} (x : RowS) (h : j ≠ k) : keyCount (s.setRow k x).rows j = keyCount s.rows j := by
  show keyCount (tput (fun _ => ({} : RowS)) s.rows k x) j = _
  exact keyCount_tput_ne _ _ _ h

theorem openWindows_spec (mv : Nat) (s : State) :
    ((openWindows mv s).regs = s.regs ∧ (openWindows mv s).tb = s.tb ∧ (openWindows mv s).fm = s.fm ∧
      (openWindows mv s).now = s.now) ∧
    ∀ k < 64, (openWindows mv s).row k = { s.row k with startMv := mv, short := false } ∧
      keyCount (openWindows mv s).rows k ≤ 1 := by
  obtain ⟨hinv, hdone, -⟩ := forN_each (n := 64) (f := fun s k => s.setRow k { s.row k with startMv := mv, short := false }) (s := s)
    (fun t => t.regs = s.regs ∧ t.tb = s.tb ∧ t.fm = s.fm ∧ t.now = s.now) (fun t k => (t.row k, keyCount t.rows k))
    (fun k x => x.1 = { s.row k with startMv := mv, short := false } ∧ x.2 ≤ 1) ⟨rfl, rfl, rfl, rfl⟩
    (fun t i _ h => h)
    (fun t i k _ _ hk => by simp [row_setRow, hk, rowCount_setRow_ne])
    (fun t i _ _ h => by
      obtain ⟨hrow, -⟩ := Prod.mk.inj h
      simp [hrow, rowCount_setRow_same])
  exact ⟨hinv, hdone⟩

/-- A detection that stands when the lock comes back. -/
def lapsed (x : Option (Nat × Bool)) : Option (Nat × Bool) := x.map fun t => (t.1, true)

theorem row_lockLost {s : State} {k : Nat} (h : keyCount s.rows k ≤ 1) :
    (lockLost s).row k = { s.row k with lastFall := lapsed (s.row k).lastFall, lastWarn := lapsed (s.row k).lastWarn } :=
  tget_tmap (fun x : RowS => { x with lastFall := lapsed x.lastFall, lastWarn := lapsed x.lastWarn }) rfl h

/-- What the lock leaves: the loop locked, the windows open, the detections lapsed, and beyond that trios and lanes alone. -/
structure Relocked (mv : Nat) (s t : State) : Prop where
  stat : t.rd .tbStat 0 0 = setBit (s.rd .tbStat 0 0) 0 true
  regs : ∀ r ∉ Reg.tbStat :: laneRegs, t.rd r 0 0 = s.rd r 0 0
  leaving : t.tb.leaving = s.bit .tbStat 0 0 1
  now : t.now = s.now
  coreMv : t.fm.coreMv = mv
  row : ∀ k < 64, t.row k = { s.row k with
    startMv := mv, short := false, lastFall := lapsed (s.row k).lastFall, lastWarn := lapsed (s.row k).lastWarn }

theorem lockLost_keeps (s : State) : (lockLost s).regs = s.regs ∧ (lockLost s).tb = s.tb ∧ (lockLost s).fm = s.fm ∧
    (lockLost s).now = s.now := ⟨rfl, rfl, rfl, rfl⟩

theorem lockedLoop_rows (mv : Nat) (s : State) : (lockedLoop mv s).rows = s.rows := rfl

theorem lockedLoop_now (mv : Nat) (s : State) : (lockedLoop mv s).now = s.now := rfl

theorem lockedLoop_coreMv (mv : Nat) (s : State) : (lockedLoop mv s).fm.coreMv = mv := rfl

theorem lockedLoop_regs (mv : Nat) (s : State) : (lockedLoop mv s).regs = (s.setB .tbStat 0 0 0).regs := rfl

theorem lockedLoop_leaving (mv : Nat) (s : State) : (lockedLoop mv s).tb.leaving = s.bit .tbStat 0 0 1 := by
  show (s.setB .tbStat 0 0 0).bit .tbStat 0 0 1 = _
  simp [State.bit, bitOf_setBit]

/-- Registers agree where the tables that hold them do. -/
theorem rd_congr {s t : State} (h : t.regs = s.regs) (r : Reg) (i j : Nat) : t.rd r i j = s.rd r i j := by
  rw [State.rd, State.rd, h]

theorem relock_relocked (mv : Nat) (s : State) : Relocked mv s (relock mv s) := by
  obtain ⟨⟨hregs, htb, hfm, hnow⟩, hrow⟩ := openWindows_spec mv (lockedLoop mv s)
  obtain ⟨hregs', htb', hfm', hnow'⟩ := lockLost_keeps (openWindows mv (lockedLoop mv s))
  have hl : LanesOnly (lockLost (openWindows mv (lockedLoop mv s))) (relock mv s) := .when _ (startHeld_lanesOnly _)
  have hrd (r : Reg) (hr : r ∉ laneRegs) : (relock mv s).rd r 0 0 = (s.setB .tbStat 0 0 0).rd r 0 0 :=
    (hl.rd hr).trans (rd_congr ((hregs'.trans hregs).trans (lockedLoop_regs mv s)) r 0 0)
  refine ⟨(hrd _ (by decide)).trans (rd_setB_same ..), fun r hr => ?_, ?_, ?_, ?_, fun k hk => ?_⟩
  · exact (hrd r (List.not_mem_of_not_mem_cons hr)).trans (rd_setB_first s 0 (List.ne_of_not_mem_cons hr))
  · rw [hl.tb, htb', htb, lockedLoop_leaving]
  · rw [hl.now, hnow', hnow, lockedLoop_now]
  · rw [hl.fm, hfm', hfm, lockedLoop_coreMv]
  · obtain ⟨hopen, honce⟩ := hrow k hk
    rw [State.row, hl.rows, ← State.row, row_lockLost honce, hopen, State.row, lockedLoop_rows, ← State.row]

/-! ### Low-frequency time begins (R40, R41, R341) -/

theorem enterLf_spec (s : State) :
    (enterLf s).rd .tbStat 0 0 = setBit (setBit (setBit (s.rd .tbStat 0 0) 0 false) 1 true) 3 false ∧
      (∀ r ∉ Reg.tbStat :: laneRegs, (enterLf s).rd r 0 0 = s.rd r 0 0) ∧ (enterLf s).now = s.now := by
  unfold enterLf
  extract_lets u
  generalize hw : ({ u with sds := _, tb := _ } : State) = w
  have hregs : w.regs = u.regs := by rw [← hw]
  have hnow : w.now = s.now := by rw [← hw]; rfl
  have hl := settleAll_lanesOnly w
  have hrd (r : Reg) (hr : r ∉ laneRegs) : (settleAll w).rd r 0 0 = u.rd r 0 0 :=
    (hl.rd hr).trans (by simp only [State.rd, hregs])
  refine ⟨?_, fun r hr => ?_, hl.now.trans hnow⟩
  · rw [hrd _ (by decide)]; simp [u]
  · have hne := List.ne_of_not_mem_cons hr
    have hlane := List.not_mem_of_not_mem_cons hr
    rw [hrd r hlane]; simp [u, hne]

theorem quietLf_of_not {s : State} (h : (s.rdF .secDbg 0 0 1 0 == 3 && s.bit .tbCtl 0 0 2) = false) : quietLf s = s := by
  rw [quietLf, if_neg (by simp [h])]

theorem quietLf_enters {s : State} (hq : s.rdF .secDbg 0 0 1 0 = 3) (hc : s.bit .tbCtl 0 0 2 = true)
    (hl : s.bit .tbStat 0 0 0 = true) (hlf : s.bit .tbStat 0 0 1 = false) : quietLf s = enterLf s := by
  rw [quietLf, if_pos (by simp [hq, hc, hl]), if_neg (by simp [hlf])]

/-- A quiet halt changes of the registers TB_STAT and what the lanes show. -/
theorem quietLf_regs (s : State) (r : Reg) (hr : r ∉ Reg.tbStat :: laneRegs) : (quietLf s).rd r 0 0 = s.rd r 0 0 := by
  have hne := List.ne_of_not_mem_cons hr
  unfold quietLf
  split
  · split
    · exact rd_clrB_first { s with tb := { s.tb with leaving := false } } 0 hne
    · exact (enterLf_spec s).2.1 r hr
  · rfl

/-- The loop locks (R36, R42, R379). -/
theorem pllLock_locks {mv : Nat} {s : State} (hr : s.fm.reset = .none) (hp : s.fm.power ≠ .hold) (hl : s.bit .tbStat 0 0 0 = false)
    (hq : (s.rdF .secDbg 0 0 1 0 == 3 && s.bit .tbCtl 0 0 2) = false) :
    ∃ t, exec (.pllLock mv) s = .next t ∧ t.bit .tbStat 0 0 0 = true ∧ t.tb.leaving = s.bit .tbStat 0 0 1 ∧
      t.now = s.now ∧ t.fm.coreMv = mv ∧ ∀ k < 64, (t.row k).startMv = mv ∧ (t.row k).short = false ∧
        (t.row k).lastFall = ((s.row k).lastFall.map (fun x => (x.1, true))) ∧
        (t.row k).lastWarn = ((s.row k).lastWarn.map (fun x => (x.1, true))) := by
  have h := relock_relocked mv s
  have hquiet : quietLf (relock mv s) = relock mv s := by
    refine quietLf_of_not ?_
    rw [State.rdF, State.bit, h.regs _ (by decide), h.regs _ (by decide)]
    exact hq
  have hgo := exec_pllLock (mv := mv) hr hp hl (by rw [Bool.and_assoc, hq, Bool.and_false])
  rw [hquiet] at hgo
  refine ⟨_, hgo, by rw [State.bit, h.stat]; simp [bitOf_setBit], h.leaving, h.now, h.coreMv, fun k hk => ?_⟩
  rw [h.row k hk]
  exact ⟨rfl, rfl, rfl, rfl⟩

/-- A quiet halt with QHLF at 1 keeps or begins low-frequency time (R341). -/
theorem pllLock_quiet {mv : Nat} {s : State} (hr : s.fm.reset = .none) (hp : s.fm.power ≠ .hold) (hl : s.bit .tbStat 0 0 0 = false)
    (hd : s.rdF .secDbg 0 0 1 0 = 3) (hc : s.bit .tbCtl 0 0 2 = true) :
    ∃ t, exec (.pllLock mv) s = .next t ∧ t.bit .tbStat 0 0 0 = false ∧ t.bit .tbStat 0 0 1 = true ∧ t.now = s.now ∧
      (s.bit .tbStat 0 0 1 = true → t = s) := by
  cases hlf : s.bit .tbStat 0 0 1 with
  | true => exact ⟨s, if_pos (by simp [hlf, hd, hc]), hl, hlf, rfl, fun _ => rfl⟩
  | false =>
    have h := relock_relocked mv s
    have hquiet : quietLf (relock mv s) = enterLf (relock mv s) := by
      refine quietLf_enters ?_ ?_ ?_ ?_
      · rw [State.rdF, h.regs _ (by decide)]; exact hd
      · rw [State.bit, h.regs _ (by decide)]; exact hc
      · rw [State.bit, h.stat]; simp [bitOf_setBit]
      · rw [State.bit, h.stat]; simpa [bitOf_setBit, State.bit] using hlf
    obtain ⟨hstat, -, hnow⟩ := enterLf_spec (relock mv s)
    have hgo := exec_pllLock (mv := mv) hr hp hl (by simp [hlf])
    rw [hquiet] at hgo
    refine ⟨_, hgo, ?_, ?_, hnow.trans h.now, by simp⟩ <;> rw [State.bit, hstat] <;> simp [bitOf_setBit]

end Sys2Proof.Proofs
end

section
namespace Sys2Proof.Proofs
open Sys2Proof Sys2Proof.Machine Sys2Proof.Safety Sys2Proof.Laws

/-! ### Low-frequency time ends (R42) -/

theorem lfAdvance_keeps (s : State) : (lfAdvance s).regs = s.regs ∧ (lfAdvance s).mem = s.mem ∧
    (lfAdvance s).tb.leaving = s.tb.leaving := ⟨rfl, rfl, rfl⟩

/-- The locked loop's ticks are the time, and the first run of R43 starts. -/
def backToTicks (s : State) : State :=
  passBoundary ({ s with tb := { s.tb with leaving := false, run := some (s.now, 0) } }.clrB .tbStat 0 0 1)

theorem lfLeave_lanesOnly (s : State) : LanesOnly (backToTicks s) (lfLeave s) :=
  (settleAll_lanesOnly (backToTicks s)).trans (startHeld_lanesOnly _)

theorem backToTicks_stat (s : State) : (backToTicks s).rd .tbStat 0 0 = setBit (s.rd .tbStat 0 0) 1 false :=
  rd_clrB_same { s with tb := { s.tb with leaving := false, run := some (s.now, 0) } } .tbStat 0 0 1

theorem backToTicks_keeps (s : State) : (backToTicks s).mem = s.mem ∧ (backToTicks s).tb.leaving = false := ⟨rfl, rfl⟩

/-- The first edge after the lock ends low-frequency time. -/
theorem lfTimeExit_leaves {s : State} (hlf : s.bit .tbStat 0 0 1 = true) (hl : s.tb.leaving = true) :
    ∃ t, exec .lfTimeExit s = .next t ∧ t.bit .tbStat 0 0 1 = false ∧ t.tb.leaving = false ∧ t.mem = s.mem := by
  have hgo : exec .lfTimeExit s = .next (lfLeave (lfAdvance s)) := if_pos (by simp [hlf, hl])
  have h := lfLeave_lanesOnly (lfAdvance s)
  obtain ⟨hmem, hleave⟩ := backToTicks_keeps (lfAdvance s)
  refine ⟨_, hgo, ?_, by rw [h.tb, hleave], by rw [h.mem, hmem, (lfAdvance_keeps s).2.1]⟩
  rw [State.bit, h.rd (by decide), backToTicks_stat]
  simp [bitOf_setBit]

/-! ### The reference clock is lost (R379) -/

/-- EN of lane `n`. -/
def enabled (s : State) (n : Nat) : Bool := decide (n < 192) && s.bit .lnCtl n 0 0

theorem enabled_congr {s t : State} {rs : List Reg} (h : KeepsRegs rs s t) (hr : Reg.lnCtl ∉ rs) (n : Nat) :
    enabled t n = enabled s n := by
  unfold enabled
  by_cases hn : n < 192
  · rw [h.bit 0 hr hn (by decide)]
  · simp [hn]

/-- Lane `n` with EN at 0, before its pins follow. -/
def laneOff (s : State) (n : Nat) : State :=
  let s := (s.clrB .lnCtl n 0 0).wr .lnOwed n 0 0
  s.setLane n { s.lane n with primed := false, driving := false }

theorem disableLane_eq (s : State) (n : Nat) : disableLane s n = if s.bit .lnCtl n 0 0 then settle (laneOff s n) n else s := rfl

/-- A lane that is disabled: the time, the timebase and TB_STAT stay, its EN is 0 and no other changes. -/
theorem disableLane_spec (s : State) {n : Nat} (hn : n < 192) :
    (disableLane s n).now = s.now ∧ (disableLane s n).tb = s.tb ∧
      (disableLane s n).rd .tbStat 0 0 = s.rd .tbStat 0 0 ∧
      ∀ k, enabled (disableLane s n) k = if k = n then false else enabled s k := by
  rw [disableLane_eq]
  split
  · have h := settle_lanesOnly (laneOff s n) hn
    have hctl : KeepsRegs [.lnOwed] (s.clrB .lnCtl n 0 0) (laneOff s n) :=
      (KeepsRegs.wr 0 (by simp) hn (by decide)).trans (.of_regs_eq rfl)
    have hstat : (laneOff s n).rd .tbStat 0 0 = s.rd .tbStat 0 0 :=
      (hctl.first (by simp)).trans (rd_wr_other s _ (by decide) hn (by decide) (by decide) (by decide))
    refine ⟨h.now, h.tb, (h.rd (by decide)).trans hstat, fun k => ?_⟩
    rw [enabled_congr h.regs (by decide), enabled_congr hctl (by simp)]
    by_cases hk : k < 192
    · have hrd : (s.clrB .lnCtl n 0 0).rd .lnCtl k 0 = if k = n ∧ (0 : Nat) = 0 then _ else _ :=
        rd_wr_index s _ hn (by decide) hk (by decide)
      rw [enabled, State.bit, hrd]
      by_cases hkn : k = n
      · simp [hkn, bitOf_setBit]
      · simp [hkn, enabled, State.bit]
    · simp [enabled, hk]
  next hoff =>
    refine ⟨rfl, rfl, rfl, fun k => ?_⟩
    split
    next hk => subst hk; simpa [enabled] using fun _ => hoff
    · rfl

/-- With every lane disabled the time, the timebase and TB_STAT stay. -/
theorem disableAll_spec (s : State) : ((disableAll s).now = s.now ∧ (disableAll s).tb = s.tb ∧
      (disableAll s).rd .tbStat 0 0 = s.rd .tbStat 0 0) ∧ ∀ n < 192, (disableAll s).bit .lnCtl n 0 0 = false := by
  obtain ⟨hinv, hdone, -⟩ := forN_each (n := 192) (f := disableLane) (s := s)
    (fun t => t.now = s.now ∧ t.tb = s.tb ∧ t.rd .tbStat 0 0 = s.rd .tbStat 0 0) enabled (fun _ x => x = false) ⟨rfl, rfl, rfl⟩
    (fun t i hi ⟨h1, h2, h3⟩ => by
      obtain ⟨hnow, htb, hstat, -⟩ := disableLane_spec t hi
      exact ⟨hnow.trans h1, htb.trans h2, hstat.trans h3⟩)
    (fun t i k hi _ hk => by simp [(disableLane_spec t hi).2.2.2 k, hk])
    (fun t i hi _ _ => by simp [(disableLane_spec t hi).2.2.2 i])
  refine ⟨hinv, fun n hn => ?_⟩
  have h := hdone n hn
  rw [enabled, decide_eq_true hn, Bool.true_and] at h
  exact h

/-- The loop out of lock, TB_NOW held. -/
def clockLost (s : State) : State :=
  let s := (s.clrB .tbStat 0 0 0).clrB .tbStat 0 0 3
  { s with tb := { s.tb with leaving := false, run := none } }

theorem clockLost_stat (s : State) : (clockLost s).rd .tbStat 0 0 = setBit (setBit (s.rd .tbStat 0 0) 0 false) 3 false := by
  show ((s.clrB .tbStat 0 0 0).clrB .tbStat 0 0 3).rd .tbStat 0 0 = _
  simp

theorem clockLost_keeps (s : State) : (clockLost s).now = s.now ∧ (clockLost s).tb.run = none := ⟨rfl, rfl⟩

/-- Without REFCLK the loop is not locked, TB_NOW holds and no lane is enabled (R379). -/
theorem refclkLoss_stops {s : State} (hl : s.bit .tbStat 0 0 0 = true) :
    ∃ t, exec .refclkLoss s = .next t ∧ t.bit .tbStat 0 0 0 = false ∧ t.now = s.now ∧ t.tb.run = none ∧
      ∀ n < 192, t.bit .lnCtl n 0 0 = false := by
  have hgo : exec .refclkLoss s = .next (disableAll (clockLost s)) := if_pos hl
  obtain ⟨⟨hnow, htb, hstat⟩, hen⟩ := disableAll_spec (clockLost s)
  obtain ⟨hnow', hrun⟩ := clockLost_keeps s
  refine ⟨_, hgo, ?_, hnow.trans hnow', by rw [htb, hrun], hen⟩
  rw [State.bit, hstat, clockLost_stat]
  simp [bitOf_setBit]

/-! ### The runs of 32 low-frequency periods (R43) -/

theorem measures_of {s : State} (ht : s.timeOk = true) (hd : s.dark = false) : measures s = true := by simp [measures, ht, hd]

/-- While the loop gives ticks a low-frequency edge measures. -/
theorem exec_lowFrequencyEdge {s : State} (ht : s.timeOk = true) (hd : s.dark = false) :
    exec .lowFrequencyEdge s = .next (runEdge s) := by
  have hlf : s.bit .tbStat 0 0 1 = false := by
    simp only [State.timeOk, Bool.and_eq_true, Bool.not_eq_true'] at ht
    exact ht.2
  have h : exec .lowFrequencyEdge s = .next (s.when (measures s) runEdge) := if_pos (by simp [hlf])
  rw [h, measures_of ht hd]
  rfl

/-- A run ends at its 32nd period. -/
theorem exec_lfcntRunEnd_last {s : State} {t0 : BitVec 64} (count : BitVec 24) (h : s.tb.run = some (t0, 31)) :
    exec (.lfcntRunEnd count) s = .next (s.when (measures s && count == (s.now - t0).truncate 24) runEdge) := by
  show execLfcntRunEnd count s = _
  simp only [execLfcntRunEnd, h]

/-- No run ends at any other. -/
theorem exec_lfcntRunEnd_other {s : State} (count : BitVec 24) (h : ∀ t0, s.tb.run ≠ some (t0, 31)) :
    exec (.lfcntRunEnd count) s = .next s := by
  show execLfcntRunEnd count s = _
  unfold execLfcntRunEnd
  split
  next t hr => exact absurd hr (h t)
  · rfl

/-- The run's count of ticks is published and the next run starts. -/
def runDone (s : State) (t0 : BitVec 64) : State :=
  (({ s with tb := { s.tb with run := some (s.now, 0) } }).wrF .tbLfcnt 0 0 23 0 (s.now - t0).toNat).setB .tbStat 0 0 2

theorem runDone_rest (s : State) (t0 : BitVec 64) : { runDone s t0 with regs := s.regs, tb := s.tb } = s := rfl

theorem runEdge_done {s : State} {t0 : BitVec 64} (h : s.tb.run = some (t0, 31)) : runEdge s = runDone s t0 := by
  simp [runEdge, h, runDone]

theorem runDone_count (s : State) (t0 : BitVec 64) : (runDone s t0).rdF .tbLfcnt 0 0 23 0 = (s.now - t0).toNat % 2 ^ 24 := by
  rw [State.rdF, runDone, rd_setB_first _ _ (by decide), rd_wrF_same, fld_setFld_same _ _ _ _ (by decide)]

theorem runDone_ok (s : State) (t0 : BitVec 64) : (runDone s t0).bit .tbStat 0 0 2 = true := by
  rw [State.bit, runDone, rd_setB_same]
  simp [bitOf_setBit]

theorem runDone_run (s : State) (t0 : BitVec 64) : (runDone s t0).tb.run = some (s.now, 0) := rfl

/-- A run's edges, in whatever state the run is (R43). -/
theorem run_edges (t0 : BitVec 64) (m : Nat) (count : BitVec 24) {s : State} (ht : s.timeOk = true) (hd : s.dark = false) :
    (s.tb.run = none → exec (.lfcntRunEnd count) s = .next s ∧
      exec .lowFrequencyEdge s = .next { s with tb := { s.tb with run := some (s.now, 0) } }) ∧
    (s.tb.run = some (t0, m) → m < 31 → exec (.lfcntRunEnd count) s = .next s ∧
      exec .lowFrequencyEdge s = .next { s with tb := { s.tb with run := some (t0, m + 1) } }) ∧
    (s.tb.run = some (t0, 31) → count.toNat ≠ (s.now - t0).toNat % 2 ^ 24 → exec (.lfcntRunEnd count) s = .next s) ∧
    (s.tb.run = some (t0, 31) → count.toNat = (s.now - t0).toNat % 2 ^ 24 →
      ∃ t, exec (.lfcntRunEnd count) s = .next t ∧ exec .lowFrequencyEdge s = .next t ∧ t.rdF .tbLfcnt 0 0 23 0 = count.toNat ∧
        t.bit .tbStat 0 0 2 = true ∧ t.tb.run = some (s.now, 0) ∧ { t with regs := s.regs, tb := s.tb } = s) := by
  have hedge := exec_lowFrequencyEdge ht hd
  have hcount : count = (s.now - t0).truncate 24 ↔ count.toNat = (s.now - t0).toNat % 2 ^ 24 := by
    rw [← BitVec.toNat_inj, BitVec.truncate, BitVec.toNat_setWidth]
  refine ⟨fun h => ⟨exec_lfcntRunEnd_other count (by simp [h]), ?_⟩, fun h hm => ⟨exec_lfcntRunEnd_other count ?_, ?_⟩,
    fun h hc => ?_, fun h hc => ?_⟩
  · rw [hedge, runEdge, h]
  · intro t hr
    rw [h] at hr
    simp at hr
    omega
  · simp [hedge, runEdge, h, hm]
  · have hne : (count == (s.now - t0).truncate 24) = false := beq_eq_false_iff_ne.2 fun e => hc (hcount.1 e)
    rw [exec_lfcntRunEnd_last count h, hne, Bool.and_false]
    rfl
  · have heq : (count == (s.now - t0).truncate 24) = true := beq_iff_eq.2 (hcount.2 hc)
    have hend : exec (.lfcntRunEnd count) s = .next (runDone s t0) := by
      rw [exec_lfcntRunEnd_last count h, measures_of ht hd, heq, ← runEdge_done h]
      rfl
    exact ⟨_, hend, by rw [hedge, runEdge_done h], (runDone_count s t0).trans hc.symm, runDone_ok s t0, runDone_run s t0,
      runDone_rest s t0⟩

/-! ### The crystal fails (R43) -/

/-- The internal oscillator takes over. -/
def crystalLost (s : State) : State :=
  let s := (s.clrB .tbStat 0 0 2).setB .tbStat 0 0 5
  { s with tb := { s.tb with internal := true, run := none } }

theorem crystalLost_stat (s : State) : (crystalLost s).rd .tbStat 0 0 = setBit (setBit (s.rd .tbStat 0 0) 2 false) 5 true := by
  show ((s.clrB .tbStat 0 0 2).setB .tbStat 0 0 5).rd .tbStat 0 0 = _
  simp

theorem crystalLost_tb (s : State) : (crystalLost s).tb = { s.tb with internal := true, run := none } := rfl

theorem record_tb (s : State) (code src : Nat) (p0 p1 p2 p3 : Word) : (s.record code src p0 p1 p2 p3).tb = s.tb := by
  have h := congrArg State.tb (record_rest s code src p0 p1 p2 p3)
  exact h

theorem lfCrystalFail_switches {s : State} (hc : s.bit .tbCtl 0 0 0 = false) (hi : s.tb.internal = false)
    (hr : s.fm.reset = .none) :
    ∃ t, exec .lfCrystalFail s = .next t ∧ t.bit .tbStat 0 0 2 = false ∧ t.bit .tbStat 0 0 5 = true ∧
      t.tb.internal = true ∧ t.tb.run = none := by
  have hgo : exec .lfCrystalFail s = .next ((crystalLost s).record 0x0103 0x52 ((crystalLost s).rd .tbLfcnt 0 0) 0 0 0) :=
    if_neg (by simp [hc, hi, hr])
  refine ⟨_, hgo, ?_, ?_, by rw [record_tb, crystalLost_tb], by rw [record_tb, crystalLost_tb]⟩ <;>
    rw [State.bit, rd_record_first _ _ _ _ _ _ _ (by decide), crystalLost_stat] <;> simp [bitOf_setBit]

/-! ### Accesses of the timebase (R9, R38, R44, R46) -/

/-- The answer that a requester finds. -/
theorem answer_resp (s : State) (who : Nat) (w : Word) :
    tget (fun _ => {}) (s.answer who w).resp who = { data := wordBytes w false } := by
  show tget (fun _ => ({} : Resp)) (tput (fun _ => {}) s.resp who { data := wordBytes w false }) who = _
  exact tget_tput_same ..

/-- A read of TB_NOWL latches the high word for its requester (R38). -/
theorem tbNowlRead_latches (who : Requester) (s : State) : ∃ t, exec (.tbNowlRead who) s = .next t ∧
    tget (fun _ => {}) t.resp (reqNum who) = { data := wordBytes (s.now.truncate 32) false } ∧
    readTbNowh t (reqNum who) = (s.now >>> 32).truncate 32 ∧ { t with tb := s.tb, resp := s.resp } = s :=
  ⟨_, rfl, answer_resp .., tget_tput_same .., rfl⟩

theorem fld_whole (w : Word) : fld w 31 0 = w.toNat := by
  simpa [fld] using Nat.mod_eq_of_lt w.isLt

/-- A write of TB_WAKEH hands both halves to the comparator (R44). -/
theorem tbWakehWrite_compares (v : Word) {s : State} (hu : up s = true) : ∃ t, exec (.tbWakehWrite v) s = .next t ∧
    t.tb.wake = v ++ s.rd .tbWakel 0 0 ∧ t.rd .tbWakeh 0 0 = v ∧ { t with tb := s.tb, regs := s.regs } = s := by
  set u := s.wrCodes .tbWakeh 0 0 v with hu'
  have hv : u.rd .tbWakeh 0 0 = v := by
    rw [rd_wrCodes_same]
    refine BitVec.eq_of_toNat_eq ?_
    rw [← fld_whole, fld_applyWrite _ _ _ _ (by decide) (by decide), fld_whole]
  have hl : u.rd .tbWakel 0 0 = s.rd .tbWakel 0 0 := rd_wrCodes_first s v (by decide)
  have hgo : exec (.tbWakehWrite v) s =
      .next { u with tb := { u.tb with wake := u.rd .tbWakeh 0 0 ++ u.rd .tbWakel 0 0 } } :=
    congrArg Host.Outcome.next (up_gate hu ..)
  exact ⟨_, hgo, by rw [hv, hl], hv, rfl⟩

/-- A write to TB_CTL leaves in it what its access codes say. -/
theorem wrTbCtl_tbCtl (v : Word) {s : State} (hu : up s = true) :
    (wrTbCtl s v).rd .tbCtl 0 0 = applyWrite Reg.tbCtl.info (s.bit .tbCtl 0 0 31) (s.rd .tbCtl 0 0) v := by
  have hq : (quietLf (s.wrCodes .tbCtl 0 0 v)).rd .tbCtl 0 0 = applyWrite Reg.tbCtl.info (s.bit .tbCtl 0 0 31) (s.rd .tbCtl 0 0) v :=
    (quietLf_regs _ _ (by decide)).trans (rd_wrCodes_same ..)
  rw [wrTbCtl, up_gate hu]
  extract_lets u w
  split
  · exact hq
  · have hw : w.rd .tbCtl 0 0 = u.rd .tbCtl 0 0 := by simp [w]
    exact (rd_congr (s := w) rfl ..).trans (hw.trans hq)

/-- LOCK of TB_CTL keeps LFSRC and LFCAL and not the rest (R9). -/
theorem tbLock_locks (v : Word) {s : State} (hu : up s = true) : ∃ t, exec (.tbLock v) s = .next t ∧
    t.bit .tbCtl 0 0 31 = true ∧
    t.rdF .tbCtl 0 0 1 0 = (if s.bit .tbCtl 0 0 31 then s.rdF .tbCtl 0 0 1 0 else fld v 1 0) ∧
    t.rdF .tbCtl 0 0 4 2 = fld v 4 2 := by
  have hbit (b) (hb : b < 32) := bitOf_applyWrite Reg.tbCtl.info (s.bit .tbCtl 0 0 31) (s.rd .tbCtl 0 0) (setBit v 31 true) b hb
  refine ⟨wrTbCtl s (setBit v 31 true), rfl, ?_, ?_, ?_⟩
  · rw [State.bit, wrTbCtl_tbCtl _ hu, hbit _ (by decide)]
    simp [Reg.info, bitOf_setBit]
  · rw [State.rdF, wrTbCtl_tbCtl _ hu]
    cases hlk : s.bit .tbCtl 0 0 31 <;> rw [hlk] at hbit
    case true =>
      refine fld_congr fun b _ hb => ?_
      rw [hbit b (by omega)]
      interval_cases b <;> simp [Reg.info]
    case false =>
      refine fld_congr fun b _ hb => ?_
      rw [hbit b (by omega)]
      interval_cases b <;> simp [Reg.info, bitOf_setBit]
  · rw [State.rdF, wrTbCtl_tbCtl _ hu, fld_applyWrite _ _ _ _ (by decide) (by decide), fld_setBit_ne _ _ _ _ _ (by decide) (by decide)]

/-- The offset's load has been looked at. -/
def offsetTaken (s : State) : State := { s with tb := { s.tb with ofs := 0 } }

theorem exec_alignmentLoad {ring : BitVec 64} {s : State} (ht : s.timeOk = true) (hh : isHead s = false)
    (ha : s.bit .tbCtl 0 0 3 = true) (ho : 4096 < s.tb.ofs.natAbs) (hi : s.tb.ofsIn ≠ some (cycleNow s)) :
    exec (.alignmentLoad ring) s = if anyN 192 (fun n => s.bit .lnCtl n 0 0) then .next ((offsetTaken s).setB .tbStat 0 0 6)
      else .next ((loadNow (offsetTaken s) ring).setB .tbStat 0 0 4) :=
  if_neg (by simp [ht, hh, ha, hi]; omega)

/-- An offset beyond 64 ticks is loaded at a later cycle, once no lane is enabled (R46). -/
theorem alignmentLoad_loads {ring : BitVec 64} {s : State} (ht : s.timeOk = true) (hh : isHead s = false)
    (ha : s.bit .tbCtl 0 0 3 = true) (ho : 4096 < s.tb.ofs.natAbs) :
    (s.tb.ofsIn = some (cycleNow s) → exec (.alignmentLoad ring) s = .next s) ∧
    (s.tb.ofsIn ≠ some (cycleNow s) → ∃ t, exec (.alignmentLoad ring) s = .next t ∧
      ((∀ n < 192, s.bit .lnCtl n 0 0 = false) → t.now = ring ∧ t.bit .tbStat 0 0 4 = true) ∧
      ((∃ n < 192, s.bit .lnCtl n 0 0 = true) → t.now = s.now ∧ t.bit .tbStat 0 0 6 = true)) := by
  refine ⟨fun hi => if_pos (by simp [hi]), fun hi => ?_⟩
  have hgo := exec_alignmentLoad (ring := ring) ht hh ha ho hi
  by_cases hany : anyN 192 (fun n => s.bit .lnCtl n 0 0) = true
  · rw [if_pos hany] at hgo
    have hsome : ∃ n < 192, s.bit .lnCtl n 0 0 = true := by simpa [anyN] using hany
    refine ⟨_, hgo, fun h => ?_, fun _ => ⟨rfl, ?_⟩⟩
    · obtain ⟨n, hn, he⟩ := hsome
      simp [h n hn] at he
    · rw [State.bit, rd_setB_same]; simp [bitOf_setBit]
  · rw [if_neg hany] at hgo
    have hnone : ∀ n < 192, s.bit .lnCtl n 0 0 = false := by simpa [anyN] using hany
    refine ⟨_, hgo, fun _ => ⟨rfl, ?_⟩, fun ⟨n, hn, he⟩ => ?_⟩
    · rw [State.bit, rd_setB_same]; simp [bitOf_setBit]
    · simp [hnone n hn] at he

/-- Settles O8: each event and access by its own rule. -/
theorem timebaseComplete : Obligations.timebase_complete := by
  unfold Obligations.timebase_complete
  exact ⟨⟨fun mv s => pllLock_locks, fun mv s => pllLock_quiet, fun s => lfTimeExit_leaves, fun s => refclkLoss_stops,
      fun t0 m count s => run_edges t0 m count, fun s => lfCrystalFail_switches⟩,
    tbNowlRead_latches, fun v s => tbWakehWrite_compares v, fun v s => tbLock_locks v,
    fun ring s => alignmentLoad_loads⟩

end Sys2Proof.Proofs
end

section
namespace Sys2Proof.Proofs
open Sys2Proof Sys2Proof.Machine Sys2Proof.Safety Sys2Proof.Laws

/-! ### The comparison of the speed monitor (R33) -/

/-- What the comparison may change beside BELOW: RISK, the row's episode, and what the Cellar Book and the fault manager note of it. -/
structure RiskOnly (k : Nat) (s t : State) : Prop where
  regs : KeepsRegs [.cbStat, .spmBound] s t
  bound : ∀ b < 31, t.bit .spmBound k 0 b = s.bit .spmBound k 0 b
  row : { t.row k with episode := (s.row k).episode } = s.row k
  coreMv : t.fm.coreMv = s.fm.coreMv

namespace RiskOnly

variable {k : Nat} {s t u : State}

theorem trans (h : RiskOnly k s t) (g : RiskOnly k t u) : RiskOnly k s u where
  regs := h.regs.trans g.regs
  bound b hb := (g.bound b hb).trans (h.bound b hb)
  row := by rw [← h.row, ← g.row]
  coreMv := g.coreMv.trans h.coreMv

/-- Nothing but the episode, and in the fault manager not VDD_CORE. -/
theorem of_regs_eq (hr : t.regs = s.regs) (hrow : { t.row k with episode := (s.row k).episode } = s.row k)
    (hmv : t.fm.coreMv = s.fm.coreMv) : RiskOnly k s t where
  regs := .of_regs_eq hr
  bound b _ := by rw [State.bit, State.bit, rd_congr hr]
  row := hrow
  coreMv := hmv

theorem refl (s : State) : RiskOnly k s s := of_regs_eq rfl rfl rfl

theorem setEpisode (s : State) (e : Option (BitVec 64 × BitVec 20)) :
    RiskOnly k s (s.setRow k { s.row k with episode := e }) :=
  of_regs_eq (setRow_regs ..) (by rw [row_setRow_same]) (by rw [setRow_fm])

theorem setRisk (s : State) (hk : k < 64) : RiskOnly k s (s.setB .spmBound k 0 31) where
  regs := .setB 31 (by simp) hk (by decide)
  bound b hb := by rw [State.bit, rd_setB_same, bitOf_setBit _ _ _ _ (by omega), if_neg (by omega), State.bit]
  row := rfl
  coreMv := rfl

/-- The guaranteed bound stays. -/
theorem rate (h : RiskOnly k s t) : t.rdF .spmBound k 0 19 0 = s.rdF .spmBound k 0 19 0 :=
  fld_congr fun b _ hb => h.bound b (by omega)

theorem first (h : RiskOnly k s t) : (t.row k).first = (s.row k).first := (congrArg RowS.first h.row :)
theorem short (h : RiskOnly k s t) : (t.row k).short = (s.row k).short := (congrArg RowS.short h.row :)
theorem startMv (h : RiskOnly k s t) : (t.row k).startMv = (s.row k).startMv := (congrArg RowS.startMv h.row :)
theorem lastFall (h : RiskOnly k s t) : (t.row k).lastFall = (s.row k).lastFall := (congrArg RowS.lastFall h.row :)

end RiskOnly

theorem noteBelow_riskOnly (s : State) (k : Nat) : RiskOnly k s (noteBelow s k) := by
  unfold noteBelow
  split
  · exact .refl s
  · exact .of_regs_eq rfl rfl rfl

theorem record_riskOnly (s : State) {k : Nat} (hk : k < 64) (code src : Nat) (p0 p1 p2 p3 : Word) :
    RiskOnly k s (s.record code src p0 p1 p2 p3) where
  regs := KeepsRegs.mono (keepsRegs_record s code src p0 p1 p2 p3) (by simp)
  bound b _ := (keepsRegs_record s code src p0 p1 p2 p3).bit b (by simp) hk (by decide)
  row := by
    have hrows : (s.record code src p0 p1 p2 p3).rows = s.rows :=
      (congrArg State.rows (record_rest s code src p0 p1 p2 p3) :)
    rw [State.row, hrows, State.row]
  coreMv := (congrArg (·.fm.coreMv) (record_rest s code src p0 p1 p2 p3) :)

theorem endRisk_riskOnly (s : State) {k : Nat} (hk : k < 64) : RiskOnly k s (endRisk s k) := by
  unfold endRisk
  split
  · exact .refl s
  · exact (RiskOnly.setEpisode s none).trans (record_riskOnly _ hk ..)

theorem row_wrB (s : State) (r : Reg) (i j b : Nat) (v : Bool) (k : Nat) : (s.wrB r i j b v).row k = s.row k := rfl

/-- The comparison sets BELOW to its outcome, and beyond that only notes the episode. -/
theorem compareFloor_riskOnly (s : State) {k : Nat} (hk : k < 64) (pub : Bool) :
    RiskOnly k (s.wrB .spmBound k 0 29 (belowFloor s k)) (compareFloor s k pub) := by
  unfold compareFloor
  extract_lets b u bound v
  have hv : RiskOnly k u v := noteBelow_riskOnly u k
  split
  · split
    · exact hv.trans ((RiskOnly.setEpisode v _).trans (.setRisk _ hk))
    · refine hv.trans (.trans ?_ (.setEpisode _ _))
      cases pub
      · exact .refl v
      · exact .setRisk v hk
  · exact endRisk_riskOnly u hk

theorem compareFloor_below (s : State) {k : Nat} (hk : k < 64) (pub : Bool) :
    (compareFloor s k pub).bit .spmBound k 0 29 = belowFloor s k := by
  rw [(compareFloor_riskOnly s hk pub).bound 29 (by decide), State.bit, rd_wrB_same]
  simp [bitOf_setBit]

theorem compareFloor_prov (s : State) {k : Nat} (hk : k < 64) (pub : Bool) :
    (compareFloor s k pub).bit .spmBound k 0 30 = s.bit .spmBound k 0 30 := by
  rw [(compareFloor_riskOnly s hk pub).bound 30 (by decide), State.bit, rd_wrB_same]
  simp [bitOf_setBit, State.bit]

theorem compareFloor_rate (s : State) {k : Nat} (hk : k < 64) (pub : Bool) :
    (compareFloor s k pub).rdF .spmBound k 0 19 0 = s.rdF .spmBound k 0 19 0 := by
  rw [(compareFloor_riskOnly s hk pub).rate, State.rdF, rd_wrB_same, fld_setBit_ne _ _ _ _ _ (by decide) (by decide), State.rdF]

/-- Every register but the bound and CB_STAT stays. -/
theorem compareFloor_rdF (s : State) {r : Reg} {k : Nat} (hk : k < 64) (pub : Bool) {i : Nat} (hi lo : Nat)
    (hr : r ∉ [Reg.cbStat, .spmBound]) (hn : i < r.info.ni) :
    (compareFloor s k pub).rdF r i 0 hi lo = s.rdF r i 0 hi lo :=
  ((KeepsRegs.wrB 29 _ (by simp) hk (by decide)).trans (compareFloor_riskOnly s hk pub).regs).rdF hi lo hr hn (info_pos r).2

/-! ### The end of a window (R30) -/

/-- A window's rate and bound are published and the next window starts, before the floor is looked at. -/
def windowEnded (s : State) (k : Nat) (rate : BitVec 20) (mv : Nat) : State :=
  let s := s.atMv mv
  let x := s.row k
  let s := s.wr .spmRate k 0 (wd (rate.toNat + 2 ^ 28 * b2n x.short))
  let s := (s.wrF .spmBound k 0 19 0 (rate.toNat * 15 / 16)).clrB .spmBound k 0 30
  rowLive (s.setRow k { x with first := true, short := false, startMv := mv }) k

theorem exec_speedWindowEnd {s : State} {k : Fin 64} (rate : BitVec 20) (mv : Nat) (h : monitorOn s k = true) :
    exec (.speedWindowEnd k rate mv) s = .next (compareFloor (windowEnded s k rate mv) k true) :=
  if_neg (by simp [h])

theorem windowEnded_row (s : State) (k : Nat) (rate : BitVec 20) (mv : Nat) :
    (windowEnded s k rate mv).row k = { s.row k with first := true, short := false, startMv := mv } :=
  row_setRow_same ..

theorem windowEnded_coreMv (s : State) (k : Nat) (rate : BitVec 20) (mv : Nat) :
    (windowEnded s k rate mv).fm.coreMv = mv := rfl

/-- LIVE alone is written after the bound. -/
theorem windowEnded_spmBound (s : State) {k : Nat} (hk : k < 64) (rate : BitVec 20) (mv : Nat) :
    (windowEnded s k rate mv).rd .spmBound k 0 =
      setBit (setFld (s.rd .spmBound k 0) 19 0 (rate.toNat * 15 / 16)) 30 false := by
  rw [windowEnded, rowLive, State.wrB, rd_wr_other _ _ (by decide) hk (by decide) hk (by decide), rd_setRow, rd_clrB_same,
    rd_wrF_same, rd_wr_other _ _ (by decide) hk (by decide) hk (by decide)]
  rfl

/-- SHORT stands in bit 28, beside the rate. -/
theorem windowEnded_spmRate (s : State) {k : Nat} (hk : k < 64) (rate : BitVec 20) (mv : Nat) :
    (windowEnded s k rate mv).rd .spmRate k 0 = wd (rate.toNat + 2 ^ 28 * b2n (s.row k).short) := by
  rw [windowEnded, rowLive, State.wrB, rd_wr_other _ _ (by decide) hk (by decide) hk (by decide), rd_setRow, State.clrB, State.wrB,
    rd_wr_other _ _ (by decide) hk (by decide) hk (by decide), State.wrF, rd_wr_other _ _ (by decide) hk (by decide) hk (by decide),
    rd_wr_same]
  rfl

/-- The end of a window publishes its rate and 15/16 of it (R30). -/
theorem speedWindowEnd_publishes (k : Fin 64) (rate : BitVec 20) (mv : Nat) {s : State} (h : monitorOn s k = true) :
    ∃ t, exec (.speedWindowEnd k rate mv) s = .next t ∧ t.rdF .spmRate k 0 19 0 = rate.toNat ∧
      t.rdF .spmBound k 0 19 0 = rate.toNat * 15 / 16 ∧ t.bit .spmBound k 0 30 = false ∧ (t.row k).first = true ∧
      (t.row k).startMv = mv ∧ t.fm.coreMv = mv := by
  have hk := k.isLt
  have hrate := rate.isLt
  have hc := compareFloor_riskOnly (windowEnded s k rate mv) hk true
  have hrow := windowEnded_row s k rate mv
  refine ⟨_, exec_speedWindowEnd rate mv h, ?_, ?_, ?_, hc.first.trans ?_, hc.startMv.trans ?_,
    hc.coreMv.trans (windowEnded_coreMv s k rate mv)⟩
  · rw [compareFloor_rdF _ hk _ _ _ (by simp) hk, State.rdF, windowEnded_spmRate s hk, fld_wd _ _ (by decide)]
    omega
  · rw [compareFloor_rate _ hk, State.rdF, windowEnded_spmBound s hk, fld_setBit_ne _ _ _ _ _ (by decide) (by decide),
      fld_setFld_same _ _ _ _ (by decide)]
    omega
  · rw [compareFloor_prov _ hk, State.bit, windowEnded_spmBound s hk]
    simp [bitOf_setBit]
  · rw [row_wrB, hrow]
  · rw [row_wrB, hrow]

/-! ### A fall of VDD_CORE (R31) -/

@[simp] theorem row_atMv (s : State) (mv k : Nat) : (s.atMv mv).row k = s.row k := rfl
@[simp] theorem atMv_regs (s : State) (mv : Nat) : (s.atMv mv).regs = s.regs := rfl
@[simp] theorem atMv_tb (s : State) (mv : Nat) : (s.atMv mv).tb = s.tb := rfl

@[simp] theorem row_useNear (s : State) (x : Option (Nat × Bool)) (k : Nat) : (useNear s x).row k = s.row k := by
  unfold useNear
  cases x.any (·.2) <;> rfl

@[simp] theorem useNear_regs (s : State) (x : Option (Nat × Bool)) : (useNear s x).regs = s.regs := by
  unfold useNear
  cases x.any (·.2) <;> rfl

/-- A short window starts at `mv`. -/
def shortened (s : State) (k mv : Nat) : State := s.setRow k { s.row k with short := true, startMv := mv }

/-- The bound takes 7/8 and is provisional, before the floor is looked at. -/
def stepped (s : State) (k : Nat) : State :=
  (s.wrF .spmBound k 0 19 0 (s.rdF .spmBound k 0 19 0 * 7 / 8)).setB .spmBound k 0 30

theorem speedStep_restarts (s : State) (k mv : Nat) : speedStep s k mv false = shortened s k mv := by
  simp [speedStep, shortened]

theorem speedStep_steps {s : State} {k : Nat} (mv : Nat) (h : (s.row k).first = true) :
    speedStep s k mv true = compareFloor (stepped (shortened s k mv) k) k true :=
  if_pos (by simp [h])

theorem stepped_row (s : State) (k : Nat) : (stepped s k).row k = s.row k := rfl

theorem stepped_spmBound (s : State) (k : Nat) :
    (stepped s k).rd .spmBound k 0 = setBit (setFld (s.rd .spmBound k 0) 19 0 (s.rdF .spmBound k 0 19 0 * 7 / 8)) 30 true := by
  rw [stepped, rd_setB_same, rd_wrF_same]

/-- With less than 20 mV the row keeps its window. -/
theorem fallStep_small {s : State} {k mv : Nat} (h : (s.row k).startMv < mv + 20) : fallStep s k mv = s :=
  if_pos (by simp [fellBelow, h])

/-- Row `k` has used up its last warning crossing. -/
def pairedWarn (s : State) (k : Nat) : State :=
  useNear (s.setRow k { s.row k with lastWarn := none }) (s.row k).lastWarn

/-- Row `k` has a fall to be paired with a crossing. -/
def notedFall (s : State) (k : Nat) : State :=
  useNear (s.setRow k { s.row k with lastFall := detected s }) (s.row k).lastWarn

/-- A fall of 20 mV steps the bound unless it pairs with a crossing. -/
theorem fallStep_fell {s : State} {k mv : Nat} (hon : monitorOn s k = true) (h : mv + 20 ≤ (s.row k).startMv) :
    fallStep s k mv = if within300 s (s.row k).lastWarn then speedStep (pairedWarn s k) k mv false
      else speedStep (notedFall s k) k mv true :=
  if_neg (by simp [hon, fellBelow, h])

theorem exec_vddCoreFall20mv (k : Fin 64) (mv : Nat) (s : State) :
    exec (.vddCoreFall20mv k mv) s = .next (fallStep (s.atMv mv) k mv) := rfl

/-- A crossing within 120 ticks pairs, where the loop lost its lock since if the free value has it near (R31, log entry 115). -/
theorem within300_near {s : State} {w : Nat} {lost : Bool} (hw : s.tb.locked ≤ w + 120)
    (hf : lost = true → Config.freeNear s.free = true) : within300 s (some (w, lost)) = true := by
  have hnear : (!lost || Config.freeNear s.free) = true := by
    cases lost
    · rfl
    · exact hf rfl
  rw [within300, hnear, Bool.and_true, decide_eq_true_eq]
  omega

/-- A crossing more than 120 ticks back does not. -/
theorem within300_far {s : State} {x : Option (Nat × Bool)} (h : ∀ w ∈ x, w.1 + 120 < s.tb.locked) :
    within300 s x = false := by
  cases x with
  | none => rfl
  | some w =>
    have hw := h w rfl
    rw [within300, decide_eq_false (by omega), Bool.false_and]

/-- A fall that pairs with a crossing only restarts the short window. -/
theorem vddCoreFall20mv_paired (k : Fin 64) (mv w : Nat) (lost : Bool) {s : State} (hon : monitorOn s k = true)
    (hx : (s.row k).lastWarn = some (w, lost)) (hw : s.tb.locked ≤ w + 120)
    (hf : lost = true → Config.freeNear s.free = true) (h : mv + 20 ≤ (s.row k).startMv) :
    ∃ t, exec (.vddCoreFall20mv k mv) s = .next t ∧ (t.row k).short = true ∧ (t.row k).lastWarn = none ∧ t.regs = s.regs := by
  have hnear : within300 (s.atMv mv) ((s.atMv mv).row k).lastWarn = true := by
    rw [row_atMv, hx]
    exact within300_near hw hf
  have hgo : fallStep (s.atMv mv) k mv = shortened (pairedWarn (s.atMv mv) k) k mv := by
    rw [fallStep_fell (s := s.atMv mv) hon h, if_pos hnear, speedStep_restarts]
  refine ⟨_, exec_vddCoreFall20mv k mv s, ?_, ?_, ?_⟩ <;> rw [hgo]
  · simp [shortened]
  · simp [shortened, pairedWarn]
  · simp [shortened, pairedWarn]

/-- A fall that does not pair takes 7/8 of the bound and is kept for a crossing to come. -/
theorem vddCoreFall20mv_steps (k : Fin 64) (mv : Nat) {s : State} (hon : monitorOn s k = true) (hfirst : (s.row k).first = true)
    (hw : ∀ w ∈ (s.row k).lastWarn, w.1 + 120 < s.tb.locked) (h : mv + 20 ≤ (s.row k).startMv) :
    ∃ t, exec (.vddCoreFall20mv k mv) s = .next t ∧ t.rdF .spmBound k 0 19 0 = s.rdF .spmBound k 0 19 0 * 7 / 8 ∧
      t.bit .spmBound k 0 30 = true ∧ (t.row k).short = true ∧ (t.row k).lastFall = some (s.tb.locked, false) := by
  have hk := k.isLt
  set u := shortened (notedFall (s.atMv mv) k) k mv with hu
  have hrow : u.row k = { s.row k with short := true, startMv := mv, lastFall := some (s.tb.locked, false) } := by
    simp [hu, shortened, notedFall, detected]
  have hbound : u.rdF .spmBound k 0 19 0 = s.rdF .spmBound k 0 19 0 :=
    congrArg (fld · 19 0) (rd_congr (by simp [hu, shortened, notedFall]) ..)
  have hgo : fallStep (s.atMv mv) k mv = compareFloor (stepped u k) k true := by
    rw [fallStep_fell (s := s.atMv mv) hon h, if_neg (by simp [within300_far (s := s.atMv mv) hw]),
      speedStep_steps mv (by simpa [notedFall] using hfirst)]
  have hc := compareFloor_riskOnly (stepped u k) hk true
  have hlt : u.rdF .spmBound k 0 19 0 < 2 ^ 20 := fld_lt ..
  refine ⟨_, exec_vddCoreFall20mv k mv s, ?_, ?_, ?_, ?_⟩ <;> rw [hgo]
  · rw [compareFloor_rate _ hk, State.rdF, stepped_spmBound, fld_setBit_ne _ _ _ _ _ (by decide) (by decide),
      fld_setFld_same _ _ _ _ (by decide), ← hbound]
    omega
  · rw [compareFloor_prov _ hk, State.bit, stepped_spmBound]
    simp [bitOf_setBit]
  · rw [hc.short, row_wrB, stepped_row, hrow]
  · rw [hc.lastFall, row_wrB, stepped_row, hrow]

/-! ### A write of a floor (R33) -/

theorem wrRwFloor_nonzero {s : State} {k : Nat} {v : Word} (hu : up s = true) (hv : fld v 19 0 ≠ 0) :
    wrRwFloor s k v = compareFloor (s.wrCodes .rwFloor k 0 v) k false := by
  rw [wrRwFloor, up_gate hu, if_neg hv]

theorem wrRwFloor_bound_zero {s : State} {k : Nat} {v : Word} (hu : up s = true) (hv : fld v 19 0 = 0)
    (hb : ∃ x < 4, s.bit .rwBind k x 31 = true) : wrRwFloor s k v = s := by
  rw [wrRwFloor, up_gate hu, if_pos hv, if_pos (by simpa [anyN] using hb)]

theorem wrCodes_rwFloor (s : State) (k : Nat) (v : Word) : (s.wrCodes .rwFloor k 0 v).rdF .rwFloor k 0 19 0 = fld v 19 0 := by
  rw [State.rdF, rd_wrCodes_same]
  exact fld_applyWrite Reg.rwFloor.info _ _ _ (by decide) (by decide)

/-- A floor is compared with the bound at once. -/
theorem rwFloorWrite_compares (k : Fin 64) {v : Word} {s : State} (hu : up s = true) (hv : fld v 19 0 ≠ 0) :
    ∃ t, exec (.rwFloorWrite k v) s = .next t ∧ t.rdF .rwFloor k 0 19 0 = fld v 19 0 ∧
      t.bit .spmBound k 0 29 = ((s.row k).first && decide (s.rdF .spmBound k 0 19 0 < fld v 19 0)) := by
  have hk := k.isLt
  have hbound : (s.wrCodes .rwFloor k 0 v).rdF .spmBound k 0 19 0 = s.rdF .spmBound k 0 19 0 :=
    congrArg (fld · 19 0) (rd_wr_other s _ (by decide) hk (by decide) hk (by decide))
  refine ⟨_, congrArg Host.Outcome.next (wrRwFloor_nonzero hu hv), ?_, ?_⟩
  · rw [compareFloor_rdF _ hk _ _ _ (by simp) hk, wrCodes_rwFloor]
  · rw [compareFloor_below _ hk, belowFloor, wrCodes_rwFloor, hbound, State.wrCodes, row_wr]

/-- Settles O9: each command by its own rule; the comparison leaves rate, bound and PROV as they were published. -/
theorem speedMonitorComplete : Obligations.speed_monitor_complete := by
  unfold Obligations.speed_monitor_complete
  exact ⟨fun k rate mv s => speedWindowEnd_publishes k rate mv,
    fun k mv s _ h => congrArg Host.Outcome.next (fallStep_small (s := s.atMv mv) h),
    fun k mv w lost s => vddCoreFall20mv_paired k mv w lost, fun k mv s => vddCoreFall20mv_steps k mv,
    fun k v s hu => ⟨rwFloorWrite_compares k hu, fun hv hb => congrArg Host.Outcome.next (wrRwFloor_bound_zero hu hv hb)⟩⟩

end Sys2Proof.Proofs
end

section
namespace Sys2Proof.Proofs
open Sys2Proof Sys2Proof.Machine Sys2Proof.Safety Sys2Proof.Laws

/-! ### What an operation leaves: a view of the state, and every register outside a list -/

/-- The view `e` of the state is the same, and so is every register of the index outside `rs`. -/
structure Only {β : Type} (e : State → β) (rs : List Reg) (s t : State) : Prop where
  rest : e t = e s
  regs : KeepsRegs rs s t

namespace Only

variable {β γ : Type} {e : State → β} {rs : List Reg} {s t u : State}

theorem refl (e : State → β) (rs : List Reg) (s : State) : Only e rs s s := ⟨rfl, .refl s⟩

theorem trans (h : Only e rs s t) (g : Only e rs t u) : Only e rs s u := ⟨g.rest.trans h.rest, h.regs.trans g.regs⟩

/-- An operation that writes no register. -/
theorem of_regs_eq (he : e t = e s) (h : t.regs = s.regs) : Only e rs s t := ⟨he, .of_regs_eq h⟩

/-- A register's write that the view does not show. -/
theorem wr {r : Reg} {i j : Nat} {v : Word} (he : e (s.wr r i j v) = e s) (hr : r ∈ rs) (hi : i < r.info.ni) (hj : j < r.info.nj) :
    Only e rs s (s.wr r i j v) := ⟨he, .wr v hr hi hj⟩

theorem when (b : Bool) {f : State → State} (h : Only e rs s (f s)) : Only e rs s (s.when b f) := by
  cases b
  · exact refl ..
  · exact h

theorem ite {p : Prop} [Decidable p] (ht : Only e rs s t) (hu : Only e rs s u) : Only e rs s (if p then t else u) := by
  split
  · exact ht
  · exact hu

theorem forN {n : Nat} {f : State → Nat → State} (s : State) (h : ∀ t i, i < n → Only e rs t (f t i)) :
    Only e rs s (s.forN n f) :=
  forN_keeps_lt (Only e rs s) (fun t i hi ht => ht.trans (h t i hi)) (refl ..)

theorem foldl {α : Type} {f : State → α → State} (l : List α) (s : State) (h : ∀ t, ∀ x ∈ l, Only e rs t (f t x)) :
    Only e rs s (l.foldl f s) := by
  induction l generalizing s with
  | nil => exact refl ..
  | cons x l ih => exact (h s x (by simp)).trans (ih _ fun t y hy => h t y (by simp [hy]))

/-- A coarser view of fewer registers. -/
theorem coarsen {e : State → State} {e' : State → γ} {rs' : List Reg} (h : Only e rs s t) (he : ∀ s, e' (e s) = e' s)
    (hs : rs ⊆ rs') :
    Only e' rs' s t := ⟨by rw [← he t, h.rest, he s], h.regs.mono hs⟩

theorem mono {rs' : List Reg} (h : Only e rs s t) (hs : rs ⊆ rs') : Only e rs' s t := ⟨h.rest, h.regs.mono hs⟩

theorem first (h : Only e rs s t) {r : Reg} (hr : r ∉ rs) : t.rd r 0 0 = s.rd r 0 0 := h.regs.first hr

theorem bit (h : Only e rs s t) {r : Reg} (b : Nat) (hr : r ∉ rs) : t.bit r 0 0 b = s.bit r 0 0 b := by
  rw [State.bit, h.first hr, State.bit]

theorem rdF (h : Only e rs s t) {r : Reg} (hi lo : Nat) (hr : r ∉ rs) : t.rdF r 0 0 hi lo = s.rdF r 0 0 hi lo := by
  rw [State.rdF, h.first hr, State.rdF]

end Only

/-! ### The Mute network (R107–R115) -/

/-- The state but the registers, the trios, the lanes and the Cellar Book. -/
def beyondNet (s : State) : State := { s with regs := [], trios := [], lanes := [], book := {} }

/-- The registers that a source of the network changes. -/
def netRegs : List Reg := laneRegs ++ [.muLstat, .gcStat, .sdStat, .muTripcfg, .rwStat, .fmFlt, .cbStat]

/-- Of the state, only registers of the network, trios, lanes and the Cellar Book differ. -/
abbrev NetOnly (s t : State) : Prop := Only beyondNet netRegs s t

theorem LanesOnly.netOnly {s t : State} (h : LanesOnly s t) : NetOnly s t :=
  ⟨by have g := congrArg beyondNet h.rest; exact g, h.regs.mono (by decide)⟩

theorem netOnly_wr (s : State) {r : Reg} {i j : Nat} (v : Word) (hr : r ∈ netRegs) (hi : i < r.info.ni) (hj : j < r.info.nj) :
    NetOnly s (s.wr r i j v) := .wr rfl hr hi hj

theorem netOnly_record (s : State) (code src : Nat) (p0 p1 p2 p3 : Word) : NetOnly s (s.record code src p0 p1 p2 p3) :=
  ⟨by have g := congrArg beyondNet (record_rest s code src p0 p1 p2 p3); exact g,
    (keepsRegs_record s code src p0 p1 p2 p3).mono (by decide)⟩

theorem netOnly_fault (s : State) (b : Nat) : NetOnly s (s.fault b) := netOnly_wr s _ (by decide) (by decide) (by decide)

theorem retrip_netOnly (s : State) : NetOnly s (retrip s) := .forN s fun t _ hn => (setTrips_lanesOnly t hn _).netOnly

theorem assertOn_netOnly (s : State) {l : Nat} (hl : l < 96) (k : Nat) : NetOnly s (assertOn s l k) := by
  have wr (t : State) (v : Word) : NetOnly t (t.wr .muLstat l 0 v) := netOnly_wr t v (by decide) hl (by decide)
  unfold assertOn
  extract_lets latching u
  have hu : NetOnly s u := .ite ((((wr s _).trans (wr _ _)).trans (wr _ _)).trans (.when _ (netOnly_record ..))) (.refl ..)
  exact (hu.trans (wr u _)).trans (.when _ (wr _ _))

theorem mirror_netOnly (s : State) (k : Nat) (b : Bool) : NetOnly s (mirror s k b) := by
  unfold mirror
  split_ifs with h1 h2 h3 h4
  · have hk : k / 2 < 64 := by omega
    exact (netOnly_wr s _ (by decide) hk (by decide)).trans (.when _ (netOnly_wr _ _ (by decide) hk (by decide)))
  · exact netOnly_wr s _ (by decide) (show k - 128 < 192 by omega) (by decide)
  · exact netOnly_wr s _ (by decide) (show k - 320 < 16 by omega) (by decide)
  · exact netOnly_wr s _ (by decide) (show k - 336 < 64 by omega) (by decide)
  · exact .refl ..

theorem srcEdge_netOnly {s : State} {k : Nat} {b : Bool} (h : s.src k ≠ b) : NetOnly (s.setSrc k b) (srcEdge s k b) := by
  rw [srcEdge, if_neg h]
  refine (mirror_netOnly _ k b).trans (.forN _ fun t l hl => ?_)
  split_ifs
  · exact assertOn_netOnly t hl k
  · exact netOnly_wr t _ (by decide) hl (by decide)
  · exact .refl ..

/-- A source's change: the source itself, and what the network makes of it. -/
theorem setSource_netOnly {s : State} {k : Nat} {b : Bool} (h : s.src k ≠ b) : NetOnly (s.setSrc k b) (setSource s k b) := by
  rw [setSource, if_neg h]
  exact ((srcEdge_netOnly h).trans (.when _ (netOnly_fault ..))).trans (retrip_netOnly _)

/-- What an operation of the network leaves of the sources. -/
theorem NetOnly.src {s t : State} (h : NetOnly s t) (k : Nat) : t.src k = s.src k := by
  have hs : t.srcs = s.srcs := by have g := congrArg State.srcs h.rest; exact g
  rw [State.src, hs, State.src]

theorem setSource_src (s : State) (k j : Nat) (b : Bool) : (setSource s k b).src j = if j = k then b else s.src j := by
  by_cases h : s.src k = b
  · rw [setSource, if_pos h]
    split
    next hj => rw [hj, h]
    · rfl
  · rw [(setSource_netOnly h).src, src_setSrc]

/-- The state but what the network shows, its sources included. -/
def beyondMute (s : State) : State := { beyondNet s with srcs := [] }

/-- As `NetOnly`, with the sources. -/
abbrev MuteOnly (s t : State) : Prop := Only beyondMute netRegs s t

theorem NetOnly.muteOnly {s t : State} (h : NetOnly s t) : MuteOnly s t := h.coarsen (fun _ => rfl) (List.Subset.refl _)

theorem setSource_muteOnly (s : State) (k : Nat) (b : Bool) : MuteOnly s (setSource s k b) := by
  by_cases h : s.src k = b
  · rw [setSource, if_pos h]; exact .refl ..
  · exact (Only.of_regs_eq rfl rfl : MuteOnly s (s.setSrc k b)).trans (setSource_netOnly h).muteOnly

end Sys2Proof.Proofs
end

section
namespace Sys2Proof.Proofs
open Sys2Proof Sys2Proof.Machine Sys2Proof.Safety Sys2Proof.Laws

/-! ### Triggers and starts of rows (R180–R186) -/

/-- The registers at 0x6A00_0000 and above: the performance monitor, the Cask, protected memories, converters, the Mute network, rows,
control registers. -/
def upperRegs : List Reg := (List.range 6).flatMap (fun k => blockRegs (0x6A + k)) ++ [.ceCr, .svCr]

/-- The registers that a trigger or a start of a row's slot changes. -/
def rowRegs : List Reg := upperRegs ++ netRegs

/-- The state but what a trigger or a start changes, with the debug flags of the cores. -/
def beyondRows (s : State) : State × (Nat → Bool × Bool) :=
  ({ beyondMute s with slots := [], eacts := [], mem := [], chk := [], vld := [], mems := [], pmu := {}, rows := [], cask := {},
                       cores := [] },
    fun c => ((s.core c).halted, (s.core c).stepOne))

/-- Of the state, only what a trigger or a start of a row changes differs. -/
abbrev RowsOnly (s t : State) : Prop := Only beyondRows rowRegs s t

theorem RowsOnly.fm {s t : State} (h : RowsOnly s t) : t.fm = s.fm := by have g := congrArg (fun p => p.1.fm) h.rest; exact g

theorem MuteOnly.rowsOnly {s t : State} (h : MuteOnly s t) : RowsOnly s t := by
  have hc : t.cores = s.cores := by have g := congrArg State.cores h.rest; exact g
  refine ⟨Prod.ext ?_ ?_, h.regs.mono (by decide)⟩
  · have g := congrArg (fun u => (beyondRows u).1) h.rest
    exact g
  · show (fun c => ((t.core c).halted, (t.core c).stepOne)) = _
    simp only [State.core, hc]
    rfl

/-- A register below the upper ones lies below their addresses. -/
theorem addr_lt_upper {r : Reg} {i j : Nat} (hr : r ∉ upperRegs) (hi : i < r.info.ni) (hj : j < r.info.nj) :
    r.addr i j < 0x6A000000 := by
  have hc : r ≠ .ceCr := fun e => hr (by subst e; decide)
  have hs : r ≠ .svCr := fun e => hr (by subst e; decide)
  obtain ⟨hk, hmem, hfit, -, -⟩ := index_line r hc hs
  rw [addr_eq hc]
  have h1 : r.info.si * i ≤ r.info.si * (r.info.ni - 1) := Nat.mul_le_mul_left _ (by omega)
  have h2 : r.info.sj * j ≤ r.info.sj * (r.info.nj - 1) := Nat.mul_le_mul_left _ (by omega)
  have hb : r.info.base / 0x1000000 < 0x6A := by
    by_contra hge
    have h3 : ∀ k ∈ regBlocks, 0x6A ≤ k → ∀ q ∈ blockRegs k, q ∈ upperRegs := by decide
    exact hr (h3 _ hk (by omega) r hmem)
  omega

/-- A write of an upper register, whatever its index, leaves every register below. -/
theorem keepsRegs_upper (s : State) {r : Reg} (i j : Nat) (v : Word) (hc : r ≠ .ceCr) (hb : 0x6A000000 ≤ r.info.base) :
    KeepsRegs upperRegs s (s.wr r i j v) := fun q a b hq ha hb' =>
  rd_wr_ne s r q i j a b v (by
    have h := addr_lt_upper hq ha hb'
    rw [addr_eq hc]
    omega)

theorem rowsOnly_upper (s : State) {r : Reg} {i j : Nat} {v : Word} (hc : r ≠ .ceCr) (hb : 0x6A000000 ≤ r.info.base) :
    RowsOnly s (s.wr r i j v) := ⟨rfl, (keepsRegs_upper s i j v hc hb).mono (List.subset_append_left ..)⟩

theorem setSlot_rowsOnly (s : State) (k x : Nat) (v : SlotS) : RowsOnly s (s.setSlot k x v) := .of_regs_eq rfl rfl

theorem setRow_rowsOnly (s : State) (k : Nat) (v : RowS) : RowsOnly s (s.setRow k v) := .of_regs_eq rfl rfl

theorem setEact_rowsOnly (s : State) (n : Nat) (v : EngAct) : RowsOnly s (s.setEact n v) := .of_regs_eq rfl rfl

theorem setCask_rowsOnly (s : State) (c : CaskS) : RowsOnly s { s with cask := c } := .of_regs_eq rfl rfl

theorem rowSrc_rowsOnly (s : State) (k : Nat) : RowsOnly s (rowSrc s k) := (setSource_muteOnly ..).rowsOnly

theorem consec_rowsOnly (s : State) (k x : Nat) : RowsOnly s (consec s k x) :=
  (rowsOnly_upper s (r := .rwSstat) (by decide) (by decide)).trans (rowSrc_rowsOnly _ k)

theorem rowBump_rowsOnly (s : State) (k c : Nat) : RowsOnly s (rowBump s k c) := by
  have h (t : State) (v : Word) : RowsOnly t (t.wr .pmuRcnt k c v) := rowsOnly_upper t (by decide) (by decide)
  exact .ite ((h s _).trans (rowsOnly_upper _ (r := .pmuRctl) (by decide) (by decide))) (h s _)

theorem countRow_rowsOnly (s : State) (k cls e : Nat) (eng : Option Nat) : RowsOnly s (countRow s k cls e eng) :=
  .forN s fun t c _ => .when _ (rowBump_rowsOnly t k c)

theorem countRowMem_rowsOnly (s : State) (m who : Nat) : RowsOnly s (countRowMem s m who) := by
  unfold countRowMem
  split_ifs
  · exact countRow_rowsOnly ..
  · exact .refl ..
  · exact countRow_rowsOnly ..
  · exact .refl ..

/-! Writes of the units into memory (R235–R245) -/

theorem awaitClear_rowsOnly (s : State) (a : Nat) : RowsOnly s (awaitClear s a) := by
  unfold awaitClear endVclr
  split
  · exact .ite ((Only.of_regs_eq rfl rfl : RowsOnly s (clearValid s _)).trans
      (rowsOnly_upper _ (r := .memStat) (by decide) (by decide))) (.refl ..)
  · exact .refl ..

theorem putByte_rowsOnly (s : State) (a : Nat) (d : Byte) (dev : BitVec 5) : RowsOnly s (s.putByte a d dev) := .of_regs_eq rfl rfl

theorem openWord_rowsOnly (s : State) (a : Nat) : RowsOnly s (s.openWord a) := by
  have hz : RowsOnly s (s.forN 8 fun t i => t.putByte (a / 8 * 8 + i) 0 0) := .forN s fun t i _ => putByte_rowsOnly ..
  unfold State.openWord
  generalize s.forN 8 _ = z at hz ⊢
  exact .ite (.refl ..) (hz.trans (.of_regs_eq rfl rfl))

theorem flipApply_rowsOnly (s : State) (who a n : Nat) : RowsOnly s (flipApply s who a n) := by
  have wr (t : State) {r : Reg} {m : Nat} {v : Word} (hr : r ∈ [Reg.memFlip, .memStat]) : RowsOnly t (t.wr r m 0 v) :=
    rowsOnly_upper t (by rintro rfl; simp at hr) (by
      have h : ∀ q ∈ [Reg.memFlip, .memStat], 0x6A000000 ≤ q.info.base := by decide
      exact h r hr)
  unfold flipApply
  split
  · exact .refl ..
  · exact .ite ((((putByte_rowsOnly ..).trans (wr _ (by decide))).trans (wr _ (by decide))).trans (wr _ (by decide))) (.refl ..)

theorem writeWord_rowsOnly (s : State) (who a : Nat) (bs : List (Byte × Bool)) : RowsOnly s (writeWord s who a bs) := by
  have hc : RowsOnly s (match memOf a with | some m => countRowMem s m who | none => s) := by
    split
    · exact countRowMem_rowsOnly ..
    · exact .refl ..
  have hp (t : State) : RowsOnly t (putWord t who a bs) :=
    (((awaitClear_rowsOnly t a).trans (openWord_rowsOnly _ a)).trans (.foldl _ _ fun u x _ => putByte_rowsOnly ..)).trans
      (flipApply_rowsOnly ..)
  exact hc.trans (hp _)

theorem writeMem_rowsOnly (s : State) (who a : Nat) (bs : List (Byte × Bool)) : RowsOnly s (writeMem s who a bs) :=
  .ite (writeWord_rowsOnly ..) ((writeWord_rowsOnly ..).trans (writeWord_rowsOnly ..))

/-! Activations start (R183) -/

/-- A core's change that leaves its debug flags. -/
theorem setCore_rowsOnly (s : State) (n : Nat) {k : CoreS} (hh : k.halted = (s.core n).halted) (hs : k.stepOne = (s.core n).stepOne) :
    RowsOnly s (s.setCore n k) := by
  refine .of_regs_eq (Prod.ext rfl ?_) rfl
  funext c
  show (((s.setCore n k).core c).halted, ((s.setCore n k).core c).stepOne) = _
  rw [core_setCore]
  split
  next h => subst h; rw [hh, hs]; rfl
  · rfl

theorem startEngine_rowsOnly (s : State) (n entry : Nat) (point : BitVec 64) : RowsOnly s (startEngine s n entry point) := by
  unfold startEngine
  extract_lets c u
  have hu : RowsOnly s u := setCore_rowsOnly s n rfl rfl
  exact hu.trans (setEact_rowsOnly ..)

theorem takeRejoin_rowsOnly (s : State) (k x : Nat) : RowsOnly s (takeRejoin s k x).1 := by
  have wr (t : State) {v : Word} : RowsOnly t (t.wr .rwSstat k x v) := rowsOnly_upper t (by decide) (by decide)
  rcases h : (s.slot k x).rejoin with _ | ⟨isS, asStandby⟩
  · simp only [takeRejoin, h]
    exact .refl ..
  · simp only [takeRejoin, h]
    refine Only.trans ?_ (rowSrc_rowsOnly _ k)
    exact (setSlot_rowsOnly s k x _).trans (.ite (wr _) ((wr _).trans (wr _)))

theorem startAct_rowsOnly (s : State) (k x : Nat) (a : OpenAct) (es : List Nat) (join : Bool) : RowsOnly s (startAct s k x a es join) := by
  unfold startAct
  extract_lets b0 b count ws pb block entry s1 s2 s3 began
  have h1 : RowsOnly s s1 := .foldl _ _ fun t n _ => .ite (.refl ..) (setEact_rowsOnly ..)
  have h2 : RowsOnly s1 s2 := .foldl _ _ fun t n _ =>
    (((Only.foldl _ _ fun u p _ => writeMem_rowsOnly ..).trans (.foldl _ _ fun u p _ => writeMem_rowsOnly ..)).trans
      (startEngine_rowsOnly ..)).trans (countRow_rowsOnly ..)
  have h3 : RowsOnly s2 s3 := .ite (rowsOnly_upper s2 (r := .rwStat) (by decide) (by decide)) (.refl ..)
  exact ((h1.trans h2).trans h3).trans (setSlot_rowsOnly ..)

/-- What a slot starts changes rows, engines and memories alone. -/
theorem tryStart_rowsOnly (s : State) (k x : Nat) : RowsOnly s (tryStart s k x) := by
  unfold tryStart
  split
  · exact .refl ..
  · exact .ite (.refl ..) (.ite (.refl ..) ((takeRejoin_rowsOnly s k x).trans (startAct_rowsOnly ..)))

theorem startWaiting_rowsOnly (s : State) : RowsOnly s (startWaiting s) :=
  .forN s fun t k _ => .forN t fun u x _ => tryStart_rowsOnly u k x

/-! Triggers (R180, R181) -/

/-- The state but the registers and the Cask. -/
def beyondCask (s : State) : State := { s with regs := [], cask := {} }

/-- Of the state, only the Cask and upper registers differ. -/
abbrev CaskOnly (s t : State) : Prop := Only beyondCask upperRegs s t

theorem CaskOnly.rowsOnly {s t : State} (h : CaskOnly s t) : RowsOnly s t := by
  have hc : t.cores = s.cores := by have g := congrArg State.cores h.rest; exact g
  refine ⟨Prod.ext ?_ ?_, h.regs.mono (List.subset_append_left ..)⟩
  · have g := congrArg (fun u => (beyondRows u).1) h.rest
    exact g
  · show (fun c => ((t.core c).halted, (t.core c).stepOne)) = _
    simp only [State.core, hc]
    rfl

theorem caskOnly_wr (s : State) {r : Reg} {i j : Nat} {v : Word} (hc : r ≠ .ceCr) (hb : 0x6A000000 ≤ r.info.base) :
    CaskOnly s (s.wr r i j v) := ⟨rfl, keepsRegs_upper s i j v hc hb⟩

theorem setCask_caskOnly (s : State) (c : CaskS) : CaskOnly s { s with cask := c } := .of_regs_eq rfl rfl

theorem dirShow_caskOnly (s : State) (v st fc : Nat) : CaskOnly s (dirShow s v st fc) := by
  have wr (t : State) {r : Reg} {w : Word} (hr : r ∈ .ckDirr :: dirRegs) : CaskOnly t (t.wr r v 0 w) :=
    caskOnly_wr t (by rintro rfl; revert hr; decide) (by
      have h : ∀ q ∈ Reg.ckDirr :: dirRegs, 0x6A000000 ≤ q.info.base := by decide
      exact h r hr)
  unfold dirShow
  extract_lets sealed s1 s2 s3 b blocks
  have h1 : CaskOnly s s1 := (wr s (r := .ckDir) (by decide)).trans (wr _ (r := .ckDir) (by decide))
  have hcopy : CaskOnly s1 (copyHeader s1 v) :=
    ((wr s1 (by decide)).trans (wr _ (by decide))).trans ((wr _ (by decide)).trans (wr _ (by decide)))
  have hclear : CaskOnly s1 (clearMirrors s1 v) := .foldl _ _ fun t r hr => wr t (by revert r; decide)
  have h2 : CaskOnly s1 s2 := .ite hcopy (.ite (.refl ..) hclear)
  have h3 : CaskOnly s2 s3 := .ite ((wr s2 (r := .ckDir) (by decide)).trans (wr _ (by decide))) (.refl ..)
  exact ((h1.trans h2).trans h3).trans (.ite (setCask_caskOnly ..) (.refl ..))

theorem dirGo_rowsOnly (s : State) (v st fc : Nat) : RowsOnly s (dirGo s v st fc) :=
  .ite (setCask_rowsOnly ..) (dirShow_caskOnly ..).rowsOnly

theorem takeSwitch_rowsOnly (s : State) : RowsOnly s (takeSwitch s) := by
  have wr (t : State) {w : Word} : RowsOnly t (t.wr .ckSwstat 0 0 w) := rowsOnly_upper t (by decide) (by decide)
  cases hd : switchDue s with
  | false => rw [takeSwitch_notDue hd]; exact .refl ..
  | true =>
    rcases hsw : s.cask.sw with _ | ⟨v, c, a⟩
    · rw [takeSwitch, hsw]; exact .refl ..
    · have hdir : RowsOnly s (switchDir s v) := by
        refine .ite (.refl ..) ?_
        split
        · exact (dirGo_rowsOnly ..).trans (dirGo_rowsOnly ..)
        · exact dirGo_rowsOnly ..
      have hdone : RowsOnly (switchDir s v) (switchDone (switchDir s v)) :=
        ((wr _).trans (wr _)).trans (setCask_rowsOnly ..)
      rw [takeSwitch_due hsw hd]
      exact (hdir.trans hdone).trans (.forN _ fun t k _ => setRow_rowsOnly ..)

theorem trigger_rowsOnly (s : State) (k x : Nat) : RowsOnly s (trigger s k x) := by
  unfold trigger
  refine .ite (.refl ..) ?_
  extract_lets b
  refine .ite ?_ ?_
  · exact ((rowsOnly_upper s (r := .rwSstat) (by decide) (by decide)).trans
      (rowsOnly_upper _ (r := .rwMiss) (by decide) (by decide))).trans (consec_rowsOnly ..)
  · have hcam (t : State) (a : OpenAct) : RowsOnly t
        (if camWaits t k a then countRow (countRow t k 1 2 none) k 1 2 none else t) :=
      .ite ((countRow_rowsOnly ..).trans (countRow_rowsOnly ..)) (.refl ..)
    exact ((takeSwitch_rowsOnly s).trans (hcam _ _)).trans ((setSlot_rowsOnly ..).trans (setRow_rowsOnly ..))

/-- An event reaches rows alone. -/
theorem triggers_rowsOnly (s : State) (src : Nat) (p : Nat → Nat → Bool) : RowsOnly s (triggers s src p) :=
  .forN s fun t k _ => .forN t fun u x _ => .ite (trigger_rowsOnly u k x) (.refl ..)

end Sys2Proof.Proofs
end

section
namespace Sys2Proof.Proofs
open Sys2Proof Sys2Proof.Machine Sys2Proof.Safety Sys2Proof.Laws

/-! ### What leaves a general timer alone -/

/-- The registers that counting, links and triggers change. -/
def gtRegs : List Reg := [.gtCtl, .gtCnt, .gtStat] ++ rowRegs

/-- Timer `n` but the events that its channels have noted. -/
def gtView (n : Nat) (s : State) : TimerS × (Fin 4 → ChanS) × Word × Word × Word :=
  (s.timer n, fun c => { s.chan n c with due := [] }, s.rd .gtCtl n 0, s.rd .gtCnt n 0, s.rd .gtStat n 0)

/-- Timer `n` stays, but for what its channels note. -/
abbrev TimerKept (n : Nat) (s t : State) : Prop := Only (gtView n) gtRegs s t

namespace TimerKept

variable {n : Nat} {s t : State}

theorem timer (h : TimerKept n s t) : t.timer n = s.timer n := congrArg (·.1) h.rest
theorem cnt (h : TimerKept n s t) : t.rd .gtCnt n 0 = s.rd .gtCnt n 0 := congrArg (·.2.2.2.1) h.rest
theorem stat (h : TimerKept n s t) : t.rd .gtStat n 0 = s.rd .gtStat n 0 := congrArg (·.2.2.2.2) h.rest
theorem chan (h : TimerKept n s t) {c : Nat} (hc : c < 4) :
    { t.chan n c with due := [] } = { s.chan n c with due := [] } := congrFun (congrArg (·.2.1) h.rest) ⟨c, hc⟩

theorem level (h : TimerKept n s t) {c : Nat} (hc : c < 4) : (t.chan n c).level = (s.chan n c).level := by
  have g := congrArg ChanS.level (h.chan hc); exact g
theorem passed (h : TimerKept n s t) {c : Nat} (hc : c < 4) : (t.chan n c).passed = (s.chan n c).passed := by
  have g := congrArg ChanS.passed (h.chan hc); exact g
theorem armed (h : TimerKept n s t) {c : Nat} (hc : c < 4) : (t.chan n c).armed = (s.chan n c).armed := by
  have g := congrArg ChanS.armed (h.chan hc); exact g

end TimerKept

theorem RowsOnly.timerKept {s t : State} (h : RowsOnly s t) {n : Nat} (hn : n < 16) : TimerKept n s t := by
  have ht : t.timers = s.timers := by have g := congrArg (fun p => p.1.timers) h.rest; exact g
  have hc : t.chans = s.chans := by have g := congrArg (fun p => p.1.chans) h.rest; exact g
  refine ⟨?_, h.regs.mono (List.subset_append_right ..)⟩
  simp only [gtView, State.timer, State.chan, ht, hc]
  rw [h.regs .gtCtl n 0 (by decide) hn (by decide), h.regs .gtCnt n 0 (by decide) hn (by decide),
    h.regs .gtStat n 0 (by decide) hn (by decide)]

/-- An update of nothing that the view of a timer shows. -/
theorem timerKept_of_eq {n : Nat} {s t : State} (hr : t.regs = s.regs) (ht : t.timers = s.timers) (hc : t.chans = s.chans) :
    TimerKept n s t := by
  refine .of_regs_eq ?_ hr
  simp only [gtView, State.timer, State.chan, State.rd, hr, ht, hc]

/-- A channel notes an event. -/
theorem timerKept_due (n : Nat) (s : State) (i j : Nat) (d : List (BitVec 64)) :
    TimerKept n s (s.setChan i j { s.chan i j with due := d }) := by
  refine .of_regs_eq (Prod.ext rfl (Prod.ext ?_ rfl)) rfl
  funext c
  show ({ (s.setChan i j _).chan n c with due := [] } : ChanS) = { s.chan n c with due := [] }
  rw [chan_setChan]
  split
  next h => rw [State.chan, State.chan, h]
  · rfl

theorem event_timerKept (n : Nat) (s : State) (e : Event) : TimerKept n s (s.event e) := by
  have hcap : TimerKept n s (capNote s e) := .forN s fun t i _ => .ite (timerKept_due ..) (.refl ..)
  have had (t : State) : TimerKept n t (adNote t e) := .forN t fun u k _ => .ite (timerKept_of_eq rfl rfl rfl) (.refl ..)
  exact .ite (hcap.trans (had _)) (.refl ..)

theorem dumpEvent_timerKept (n : Nat) (s : State) (src i : Nat) : TimerKept n s (dumpEvent s src i) :=
  .ite (timerKept_of_eq rfl rfl rfl) (.refl ..)

/-- The counter at 0 with the wrap's flag, and the outputs low (R47, R49). -/
def wrapCleared (s : State) (t : Nat) : State :=
  gtChans ((gtReset s t).setB .gtStat t 0 0) t fun c => { c with level := false, passed := false }

/-- The written period in force (R48). -/
def periodTaken (s : State) (t : Nat) : State :=
  (wrapCleared s t).setTimer t { (wrapCleared s t).timer t with per := (wrapCleared s t).rd .gtPer t 0 }

/-- A wrap before its event: the new period, and a one-shot timer stopped (R47, R48). -/
def wrapped (s : State) (t : Nat) : State :=
  (periodTaken s t).when ((periodTaken s t).bit .gtCtl t 0 1) (·.clrB .gtCtl t 0 0)

theorem gtWrapSelf_timerKept (n : Nat) (s : State) (t : Nat) : TimerKept n (wrapped s t) (gtWrapSelf s t) :=
  (event_timerKept ..).trans (dumpEvent_timerKept ..)

section Other

variable {n u : Nat} (h : n ≠ u)
include h

theorem setTimer_other (s : State) (x : TimerS) : TimerKept n s (s.setTimer u x) := by
  refine .of_regs_eq (Prod.ext ?_ rfl) rfl
  show (s.setTimer u x).timer n = _
  rw [timer_setTimer, if_neg h]
  rfl

theorem setChan_other (s : State) {c : Nat} (hc : c < 4) (x : ChanS) : TimerKept n s (s.setChan u c x) := by
  refine .of_regs_eq (Prod.ext rfl (Prod.ext ?_ rfl)) rfl
  funext d
  show ({ (s.setChan u c x).chan n d with due := [] } : ChanS) = _
  rw [chan_setChan, if_neg (by omega)]
  rfl

variable (hn : n < 16) (hu : u < 16)
include hn hu

theorem wr_other (s : State) {r : Reg} (v : Word) (hr : r ∈ [Reg.gtCtl, .gtCnt, .gtStat]) : TimerKept n s (s.wr r u 0 v) := by
  have hi : ∀ q ∈ [Reg.gtCtl, .gtCnt, .gtStat], q.info.ni = 16 ∧ q.info.nj = 1 := by decide
  have hru : u < r.info.ni := by rw [(hi r hr).1]; exact hu
  have hrj : 0 < r.info.nj := by rw [(hi r hr).2]; exact Nat.one_pos
  have hrd (q : Reg) (hq : q ∈ [Reg.gtCtl, .gtCnt, .gtStat]) : (s.wr r u 0 v).rd q n 0 = s.rd q n 0 := by
    have hqn : n < q.info.ni := by rw [(hi q hq).1]; exact hn
    have hqj : 0 < q.info.nj := by rw [(hi q hq).2]; exact Nat.one_pos
    exact rd_wr_ne _ _ _ _ _ _ _ _ fun e => h (addr_inj hqn hqj hru hrj e).2.1
  refine ⟨?_, .wr v (List.mem_append_left _ hr) hru hrj⟩
  simp only [gtView, hrd _ (List.mem_cons_self ..), hrd .gtCnt (by decide), hrd .gtStat (by decide)]
  rfl

theorem gtSetCnt_other (s : State) (v : Nat) : TimerKept n s (gtSetCnt s u v) := by
  have hc : TimerKept n s (gtChans s u fun c => { c with fired := false }) :=
    .forN s fun t c hc => setChan_other h t hc _
  exact (hc.trans (setTimer_other h _ _)).trans (wr_other h hn hu _ _ (by decide))

theorem gtReset_other (s : State) : TimerKept n s (gtReset s u) :=
  (gtSetCnt_other h hn hu s 0).trans (setTimer_other h _ _)

theorem gtStart_other (s : State) : TimerKept n s (gtStart s u) :=
  .ite (.refl ..) ((wr_other h hn hu s _ (by decide)).trans (setTimer_other h _ _))

theorem wrapped_other (s : State) : TimerKept n s (wrapped s u) := by
  have hc : TimerKept n s (wrapCleared s u) := ((gtReset_other h hn hu s).trans (wr_other h hn hu _ _ (by decide))).trans
    (.forN _ fun w c hc => setChan_other h w hc _)
  exact hc.trans ((setTimer_other h _ _).trans (.when _ (wr_other h hn hu _ _ (by decide))))

theorem gtWrapSelf_other (s : State) : TimerKept n s (gtWrapSelf s u) :=
  (wrapped_other h hn hu s).trans (gtWrapSelf_timerKept ..)

end Other

/-- A link's master is a lower timer (R51). -/
theorem gtLink_lt {s : State} {u m md sev : Nat} (h : gtLink s u = some (m, md, sev)) : m < u := by
  simp only [gtLink, Option.ite_none_left_eq_some, Bool.or_eq_true, decide_eq_true_eq, not_or, Option.some.injEq, Prod.mk.injEq] at h
  omega

/-- Links act on higher timers alone (R51, R52). -/
theorem gtLinks_timerKept {n : Nat} (hn : n < 16) (f : Nat) {t : Nat} (ht : n ≤ t) (s : State) (e : Nat) :
    TimerKept n s (gtLinks f s t e) := by
  induction f generalizing s t e with
  | zero => exact .refl ..
  | succ f ih =>
    refine .forN s fun w u hu => ?_
    split
    next m sev hl =>
      split
      next hm => exact gtReset_other (by have := gtLink_lt hl; omega) hn hu w
      · exact .refl ..
    next m sev hl =>
      split
      next hm =>
        have hnu : n ≠ u := by have := gtLink_lt hl; omega
        have hlt : n ≤ u := by have := gtLink_lt hl; omega
        exact .ite ((gtWrapSelf_other hnu hn hu w).trans (ih hlt _ _)) (gtSetCnt_other hnu hn hu w _)
      · exact .refl ..
    next m sev hl =>
      split
      next hm => exact gtStart_other (by have := gtLink_lt hl; omega) hn hu w
      · exact .refl ..
    · exact .refl ..

end Sys2Proof.Proofs
end

section
namespace Sys2Proof.Proofs
open Sys2Proof Sys2Proof.Machine Sys2Proof.Safety Sys2Proof.Laws

/-- A conditional operation leaves what the operation leaves. -/
theorem when_keeps {β : Type} (e : State → β) {s : State} (b : Bool) {f : State → State} (h : e (f s) = e s) :
    e (s.when b f) = e s := by
  cases b
  · rfl
  · exact h

/-! ### Wraps, compares and writes of a general timer (R47–R50) -/

theorem gtChans_rest (s : State) (t : Nat) (f : ChanS → ChanS) :
    (gtChans s t f).regs = s.regs ∧ (gtChans s t f).timers = s.timers :=
  forN_keeps_lt (fun u => u.regs = s.regs ∧ u.timers = s.timers) (fun _ _ _ h => h) ⟨rfl, rfl⟩

@[simp] theorem rd_gtChans (s : State) (t : Nat) (f : ChanS → ChanS) (r : Reg) (i j : Nat) :
    (gtChans s t f).rd r i j = s.rd r i j := by
  rw [State.rd, (gtChans_rest s t f).1, State.rd]

theorem chan_gtChans (s : State) (t : Nat) (f : ChanS → ChanS) {c : Nat} (hc : c < 4) :
    (gtChans s t f).chan t c = f (s.chan t c) :=
  (forN_each (fun _ => True) (fun u k => u.chan t k) (fun k x => x = f (s.chan t k)) trivial (fun _ _ _ _ => trivial)
    (fun u i k _ _ hk => by
      show (u.setChan t i (f (u.chan t i))).chan t k = u.chan t k
      rw [chan_setChan, if_neg (by omega)])
    (fun u i _ _ h => by
      show (u.setChan t i (f (u.chan t i))).chan t i = f (s.chan t i)
      rw [chan_setChan_same]
      exact congrArg f h)).2.1 c hc

@[simp] theorem gtReset_cnt (s : State) (t : Nat) : (gtReset s t).rd .gtCnt t 0 = 0 := rd_wr_same ..

theorem gtReset_other_rd (s : State) {t : Nat} (ht : t < 16) {q : Reg} {i j : Nat} (hq : q ≠ .gtCnt) (hi : i < q.info.ni)
    (hj : j < q.info.nj) : (gtReset s t).rd q i j = s.rd q i j := by
  rw [gtReset, rd_setTimer, gtSetCnt, rd_wr_other _ _ hq ht (by decide) hi hj, rd_setTimer, rd_gtChans]

section Wrapped

variable (s : State) {n : Nat} (hn : n < 16)
include hn

theorem wrapCleared_rd {q : Reg} (hq : q ≠ .gtCnt) (hs : q ≠ .gtStat) (hi : n < q.info.ni) (hj : 0 < q.info.nj) :
    (wrapCleared s n).rd q n 0 = s.rd q n 0 := by
  rw [wrapCleared, rd_gtChans, State.setB, State.wrB, rd_wr_other _ _ hs hn (by decide) hi hj, gtReset_other_rd s hn hq hi hj]

theorem wrapped_rd {q : Reg} (hq : q ≠ .gtCtl) (hi : n < q.info.ni) (hj : 0 < q.info.nj) :
    (wrapped s n).rd q n 0 = (wrapCleared s n).rd q n 0 :=
  (when_keeps (·.rd q n 0) _ (rd_wr_other _ _ hq hn (by decide) hi hj)).trans (rd_setTimer ..)

theorem wrapped_cnt : (wrapped s n).rd .gtCnt n 0 = 0 := by
  rw [wrapped_rd s hn (q := .gtCnt) (by decide) hn (by decide), wrapCleared, rd_gtChans, State.setB, State.wrB,
    rd_wr_other _ _ (by decide) hn (by decide) hn (by decide), gtReset_cnt]

theorem wrapped_stat : (wrapped s n).bit .gtStat n 0 0 = true := by
  rw [State.bit, wrapped_rd s hn (q := .gtStat) (by decide) hn (by decide), wrapCleared, rd_gtChans, rd_setB_same,
    bitOf_setBit _ _ _ _ (by decide)]
  simp

theorem wrapped_per : ((wrapped s n).timer n).per = s.rd .gtPer n 0 := by
  rw [← wrapCleared_rd s hn (q := .gtPer) (by decide) (by decide) hn (by decide)]
  have h : (wrapped s n).timer n = (periodTaken s n).timer n := when_keeps (·.timer n) _ (timer_wr ..)
  rw [h, periodTaken, timer_setTimer_same]

omit hn in
theorem wrapped_chan {c : Nat} (hc : c < 4) :
    ((wrapped s n).chan n c).level = false ∧ ((wrapped s n).chan n c).passed = false := by
  have h : (wrapped s n).chan n c = (wrapCleared s n).chan n c :=
    (when_keeps (·.chan n c) _ (chan_wr ..)).trans (chan_setTimer ..)
  rw [h, wrapCleared, chan_gtChans _ _ _ hc]
  exact ⟨rfl, rfl⟩

/-- The wrap of a timer, behind its events and links. -/
theorem gtWrap_timerKept : TimerKept n (wrapped s n) (gtWrap s n) :=
  (gtWrapSelf_timerKept n s n).trans (gtLinks_timerKept hn 16 le_rfl _ 4)

end Wrapped

/-- A count unit over at the period wraps the counter. -/
theorem gtWrap_due (n : Fin 16) {s : State} (hc : gtCounting s n = true) (hw : (s.timer n).wrapDue = true)
    (hp : gtPer s n ≤ gtCnt s n) : ∃ t, exec (.gtWrap n) s = .next t ∧ t.rd .gtCnt n 0 = 0 ∧ t.bit .gtStat n 0 0 = true ∧
      (t.timer n).per = s.rd .gtPer n 0 ∧ ∀ c < 4, (t.chan n c).level = false ∧ (t.chan n c).passed = false := by
  have h := gtWrap_timerKept s n.isLt
  refine ⟨gtWrap s n, if_pos (by simp [hc, hw, hp]), ?_, ?_, ?_, fun c hc => ?_⟩
  · rw [h.cnt, wrapped_cnt s n.isLt]
  · rw [State.bit, h.stat, ← State.bit, wrapped_stat s n.isLt]
  · rw [h.timer, wrapped_per s n.isLt]
  · rw [h.level hc, h.passed hc]
    exact wrapped_chan s hc

theorem gtWrap_not_due (n : Fin 16) {s : State}
    (h : gtEn s n = false ∨ gtClocked s n = true ∨ gtCnt s n < gtPer s n ∨ (s.timer n).wrapDue = false) :
    exec (.gtWrap n) s = .next s := by
  refine if_neg ?_
  simp only [gtCounting, gtUnits, Bool.and_eq_true, Bool.not_eq_true', decide_eq_true_eq]
  rintro ⟨⟨⟨⟨⟨hen, -⟩, -⟩, hk⟩, hw⟩, hp⟩
  rcases h with h | h | h | h
  · simp [h] at hen
  · simp [h] at hk
  · omega
  · simp [h] at hw

/-! ### A compare match -/

/-- A compare match before its events, triggers and links. -/
def matched (s : State) (t c : Nat) : State :=
  (s.setChan t c { s.chan t c with fired := true, armed := (s.chan t c).armed && s.rdF .gtCcfg t c 1 0 != 3, level := true }).setB
    .gtCst t c 10

theorem gtFire_timerKept (s : State) {n : Nat} (hn : n < 16) (c : Nat) : TimerKept n (matched s n c) (gtFire s n c) := by
  have he : TimerKept n (matched s n c) (dumpEvent ((matched s n c).event (.compare (4 * n + c))) 2 (4 * n + c)) :=
    (event_timerKept ..).trans (dumpEvent_timerKept ..)
  exact (he.trans ((triggers_rowsOnly ..).timerKept hn)).trans (gtLinks_timerKept hn 16 le_rfl _ c)

theorem gtFire_matches (s : State) {n c : Nat} (hn : n < 16) (hc : c < 4) :
    (gtFire s n c).bit .gtCst n c 10 = true ∧ ((gtFire s n c).chan n c).level = true ∧
      ((gtFire s n c).chan n c).armed = ((s.chan n c).armed && s.rdF .gtCcfg n c 1 0 != 3) ∧
      ∀ q, q ∉ gtRegs → q ≠ .gtCst → n < q.info.ni → c < q.info.nj → (gtFire s n c).rd q n c = s.rd q n c := by
  have h := gtFire_timerKept s hn c
  have hm : (matched s n c).chan n c =
      { s.chan n c with fired := true, armed := (s.chan n c).armed && s.rdF .gtCcfg n c 1 0 != 3, level := true } := by
    rw [matched, State.setB, State.wrB, chan_wr, chan_setChan_same]
  refine ⟨?_, ?_, ?_, fun q hq hs hi hj => ?_⟩
  · rw [h.regs.bit 10 (by decide) hn hc, matched, State.bit, rd_setB_same, bitOf_setBit _ _ _ _ (by decide)]
    simp
  · rw [h.level hc, hm]
  · rw [h.armed hc, hm]
  · rw [h.regs q n c hq hi hj]
    exact rd_wr_other _ _ hs hn hc hi hj

theorem gtCompareMatch_fires (n : Fin 16) (c : Fin 4) {s : State} (h : gtDue s n c = true) :
    ∃ t, exec (.gtCompareMatch n c) s = .next t ∧ t.bit .gtCst n c 10 = true ∧ (t.chan n c).level = true ∧
      (s.rdF .gtCcfg n c 1 0 = 3 → (t.chan n c).armed = false) := by
  obtain ⟨hb, hl, ha, -⟩ := gtFire_matches s n.isLt c.isLt
  exact ⟨_, if_pos h, hb, hl, fun h3 => by simp [ha, h3]⟩

/-! ### Writes to GT_PER, GT_CMP and GT_CTL -/

/-- A write to a register whose bits are all RW stores the written word. -/
theorem rd_wrCodes_whole (s : State) {r : Reg} (i j : Nat) (v : Word) (hm : r.masks i j = r.info)
    (h : rwField r.info 31 0 = true) : (s.wrCodes r i j v).rd r i j = v := by
  rw [rd_wrCodes_same]
  refine BitVec.eq_of_toNat_eq ?_
  rw [← fld_whole, hm, fld_applyWrite _ _ _ _ (by decide) h, fld_whole]

theorem gtPerWrite_applies (n : Fin 16) (v : Word) {s : State} (hu : up s = true) : ∃ t, exec (.gtPerWrite n v) s = .next t ∧
    t.rd .gtPer n 0 = v ∧ (t.timer n).per = (if s.bit .gtCtl n 0 6 then (s.timer n).per else v) ∧
    t.rd .gtCnt n 0 = s.rd .gtCnt n 0 := by
  have hn := n.isLt
  have hv : (s.wrCodes .gtPer n 0 v).rd .gtPer n 0 = v := rd_wrCodes_whole s _ _ v rfl (by decide)
  have hk {q : Reg} (hq : q ≠ .gtPer) (hi : q.info.ni = 16) (hj : 0 < q.info.nj) :
      (s.wrCodes .gtPer n 0 v).rd q n 0 = s.rd q n 0 := rd_wr_other _ _ hq hn (by decide) (by omega) hj
  have hb : (s.wrCodes .gtPer n 0 v).bit .gtCtl n 0 6 = s.bit .gtCtl n 0 6 :=
    congrArg (bitOf · 6) (hk (by decide) rfl (by decide))
  refine ⟨_, congrArg Host.Outcome.next (up_gate hu ..), ?_⟩
  dsimp only
  rw [hb]
  cases s.bit .gtCtl n 0 6 with
  | true => exact ⟨hv, rfl, hk (by decide) rfl (by decide)⟩
  | false =>
    rw [if_neg (by simp), if_neg (by simp), State.when]
    split
    · refine ⟨(rd_wr_other _ _ (by decide) hn (by decide) hn (by decide)).trans hv, congrArg TimerS.per (timer_setTimer_same ..), ?_⟩
      exact (rd_wr_other _ _ (by decide) hn (by decide) hn (by decide)).trans (hk (by decide) rfl (by decide))
    · exact ⟨hv, congrArg TimerS.per (timer_setTimer_same ..), hk (by decide) rfl (by decide)⟩

/-- GT_CMP with its written value, and the channel armed. -/
def cmpWritten (s : State) (t c : Nat) (v : Word) : State :=
  (s.wrCodes .gtCmp t c v).setChan t c { s.chan t c with armed := true, fired := false, passed := false }

theorem cmpWritten_rd (s : State) {n c : Nat} (hn : n < 16) (hc : c < 4) (v : Word) {q : Reg} {j : Nat} (hq : q ≠ .gtCmp)
    (hi : n < q.info.ni) (hj : j < q.info.nj) : (cmpWritten s n c v).rd q n j = s.rd q n j :=
  rd_wr_other _ _ hq hn hc hi hj

theorem wrGtCmp_eq {s : State} (hu : up s = true) {n c : Nat} (hn : n < 16) (hc : c < 4) (v : Word) : wrGtCmp s n c v =
    if (s.rdF .gtCcfg n c 1 0 = 1 ∨ s.rdF .gtCcfg n c 1 0 = 3) ∧ v.toNat ≤ gtCnt s n ∧ v.toNat ≤ gtPer s n then
      gtFire ((cmpWritten s n c v).setChan n c { (cmpWritten s n c v).chan n c with passed := decide (v.toNat < gtCnt s n) }) n c
    else cmpWritten s n c v := by
  have hcnt : gtCnt (cmpWritten s n c v) n = gtCnt s n :=
    congrArg BitVec.toNat (cmpWritten_rd s hn hc v (by decide) hn (by decide))
  have hcfg : (cmpWritten s n c v).rdF .gtCcfg n c 1 0 = s.rdF .gtCcfg n c 1 0 :=
    congrArg (fld · 1 0) (cmpWritten_rd s hn hc v (by decide) hn hc)
  have hper : gtPer (cmpWritten s n c v) n = gtPer s n := rfl
  have harm : ((cmpWritten s n c v).chan n c).armed = true := congrArg ChanS.armed (chan_setChan_same ..)
  have htime : (cmpWritten s n c v).timeOk = true := by
    have hk : (cmpWritten s n c v).rd .tbStat 0 0 = s.rd .tbStat 0 0 :=
      rd_wr_other _ _ (by decide) hn hc (by decide) (by decide)
    rw [State.timeOk, State.bit, State.bit, hk]
    exact ((up_iff s).1 hu).1
  rw [wrGtCmp, up_gate hu]
  show (if ((cmpWritten s n c v).timeOk && gtCompares (cmpWritten s n c v) n c && decide (v.toNat ≤ gtCnt (cmpWritten s n c v) n) &&
    decide (v.toNat ≤ gtPer (cmpWritten s n c v) n)) = true then gtFire ((cmpWritten s n c v).setChan n c
      { (cmpWritten s n c v).chan n c with passed := decide (v.toNat < gtCnt (cmpWritten s n c v) n) }) n c
    else cmpWritten s n c v) = _
  rw [htime, gtCompares, hcnt, hper, hcfg, harm]
  refine if_congr ?_ rfl rfl
  simp [and_assoc]

theorem gtCmpWrite_applies (n : Fin 16) (c : Fin 4) (v : Word) {s : State} (hu : up s = true) :
    ∃ t, exec (.gtCmpWrite n c v) s = .next t ∧ t.rd .gtCmp n c = v ∧
      (s.rdF .gtCcfg n c 1 0 = 1 → v.toNat ≤ gtCnt s n → v.toNat ≤ gtPer s n → t.bit .gtCst n c 10 = true) ∧
      (s.rdF .gtCcfg n c 1 0 = 3 → gtCnt s n < v.toNat → (t.chan n c).armed = true) ∧
      (s.rdF .gtCcfg n c 1 0 = 3 → v.toNat ≤ gtCnt s n → v.toNat ≤ gtPer s n → t.bit .gtCst n c 10 = true ∧
        (t.chan n c).armed = false) := by
  have hn := n.isLt
  have hc := c.isLt
  have hv : (cmpWritten s n c v).rd .gtCmp n c = v := rd_wrCodes_whole s _ _ v rfl (by decide)
  have hcfg : (cmpWritten s n c v).rdF .gtCcfg n c 1 0 = s.rdF .gtCcfg n c 1 0 :=
    congrArg (fld · 1 0) (cmpWritten_rd s hn hc v (by decide) hn hc)
  refine ⟨_, congrArg Host.Outcome.next (wrGtCmp_eq hu hn hc v), ?_⟩
  split
  next hf =>
    set u := (cmpWritten s n c v).setChan n c { (cmpWritten s n c v).chan n c with passed := decide (v.toNat < gtCnt s n) } with hu'
    obtain ⟨hb, -, ha, hr⟩ := gtFire_matches u hn hc
    have hucfg : u.rdF .gtCcfg n c 1 0 = s.rdF .gtCcfg n c 1 0 := hcfg
    refine ⟨(hr .gtCmp (by decide) (by decide) hn hc).trans hv, fun _ _ _ => hb, fun _ hlt => by omega, fun h3 _ _ => ⟨hb, ?_⟩⟩
    rw [ha, hucfg, h3]
    simp
  next hf =>
    exact ⟨hv, fun h1 hle hp => absurd ⟨Or.inl h1, hle, hp⟩ hf, fun _ _ => congrArg ChanS.armed (chan_setChan_same ..),
      fun h3 hle hp => absurd ⟨Or.inr h3, hle, hp⟩ hf⟩

/-- A write with SWRST acts on the other fields, then sets counter and prescaler to 0 (R47). -/
theorem gtSwrst_resets (n : Fin 16) (v : Word) {s : State} (hu : up s = true) : ∃ t, exec (.gtSwrst n v) s = .next t ∧
    t.rd .gtCnt n 0 = 0 ∧ (t.timer n).phase = 0 ∧ t.rdF .gtCtl n 0 6 0 = fld v 6 0 := by
  have hn := n.isLt
  set w := setBit v 7 true with hw
  have hw7 : bitOf w 7 = true := by rw [hw, bitOf_setBit _ _ _ _ (by decide)]; simp
  set u := (s.wrCodes .gtCtl n 0 w).when (!gtEn s n && bitOf w 0) (fun s => s.setTimer n { s.timer n with phase := 0, wrapDue := false })
    with hu'
  have hgo : exec (.gtSwrst n v) s = .next (gtReset u n) := by
    show Host.Outcome.next (wrGtCtl s n w) = _
    rw [wrGtCtl, up_gate hu]
    dsimp only
    rw [← hu', State.when, if_pos hw7]
  have hctl : u.rd .gtCtl n 0 = (s.wrCodes .gtCtl n 0 w).rd .gtCtl n 0 := by
    rw [hu', State.when]
    split <;> rfl
  refine ⟨_, hgo, gtReset_cnt .., congrArg TimerS.phase (timer_setTimer_same ..), ?_⟩
  rw [State.rdF, gtReset_other_rd u hn (by decide) hn (by decide), hctl, rd_wrCodes_same,
    show Reg.gtCtl.masks n 0 = Reg.gtCtl.info from rfl, fld_applyWrite _ _ _ _ (by decide) (by decide), hw,
      fld_setBit_ne _ _ _ _ _ (by decide) (by decide)]

end Sys2Proof.Proofs
end

section
namespace Sys2Proof.Proofs
open Sys2Proof Sys2Proof.Machine Sys2Proof.Safety Sys2Proof.Laws

/-! ### What a channel notes (R53) -/

theorem adNote_chans (s : State) (e : Event) : (adNote s e).chans = s.chans :=
  forN_keeps (·.chans = s.chans) 16 _ (fun u k h => by
    dsimp only
    split
    · exact h
    · exact h) s rfl

/-- Whether a channel selects an event is a matter of the registers alone. -/
theorem capSelects_congr {s u : State} (h : u.regs = s.regs) (t c : Nat) (e : Event) : capSelects u t c e = capSelects s t c e := by
  simp only [capSelects, edgeSel, State.rdF, State.rd, h]

theorem capTime_congr {s u : State} (h : u.now = s.now) (e : Event) : capTime u e = capTime s e := by
  simp only [capTime, h]

theorem capNote_due (s : State) (n : Fin 16) (c : Fin 4) (e : Event) : ((capNote s e).chan n c).due =
    (s.chan n c).due ++ (if capSelects s n c e then [capTime s e] else []) := by
  have hk : 4 * (n : Nat) + c < 64 := by omega
  have hi : (4 * (n : Nat) + c) / 4 = n ∧ (4 * (n : Nat) + c) % 4 = c := by omega
  have h := (forN_each (fun u => u.regs = s.regs ∧ u.now = s.now) (fun u k => (u.chan (k / 4) (k % 4)).due)
    (fun k d => d = (s.chan (k / 4) (k % 4)).due ++ (if capSelects s (k / 4) (k % 4) e then [capTime s e] else []))
    (n := 64) (f := fun s i => if capSelects s (i / 4) (i % 4) e then s.setChan (i / 4) (i % 4)
      { s.chan (i / 4) (i % 4) with due := (s.chan (i / 4) (i % 4)).due ++ [capTime s e] } else s) ⟨rfl, rfl⟩
    (fun u i _ h => by split <;> exact h)
    (fun u i k _ _ hne => by
      split
      · rw [chan_setChan, if_neg (by omega)]
      · rfl)
    (fun u i _ hu hd => by
      rw [capSelects_congr hu.1, capTime_congr hu.2]
      split
      · rw [chan_setChan_same, ← hd]
      · rw [hd, List.append_nil])).2.1 _ hk
  rwa [hi.1, hi.2] at h

theorem event_due (s : State) (n : Fin 16) (c : Fin 4) (e : Event) (h : s.timeOk = true) : ((s.event e).chan n c).due =
    (s.chan n c).due ++ (if capSelects s n c e then [capTime s e] else []) := by
  rw [State.event, if_pos h, State.chan, adNote_chans, ← State.chan, capNote_due]

/-! ### Captures (R53–R55) -/

/-- The two capture registers hold the halves of a time. -/
theorem halves_append (x : BitVec 64) : (x >>> 32).truncate 32 ++ x.truncate 32 = x := by
  refine BitVec.eq_of_getLsbD_eq fun i hi => ?_
  rw [BitVec.getLsbD_append]
  by_cases h : i < 32
  · simp [h]
  · have h32 : i - 32 < 32 := by omega
    simp [h, h32, show 32 + (i - 32) = i by omega]

theorem fld_low (w : Word) : fld w 1 0 = fld w 7 0 % 4 ∧ fld w 7 2 = fld w 7 0 / 4 := by
  simp only [fld, Nat.shiftRight_eq_div_pow]
  omega

section Take

variable (s : State) (n : Fin 16) (c : Fin 4)

/-- A capture with neither a value pending nor a read open. -/
theorem gtTake_free {x : BitVec 64} (hp : (s.chan n c).pend = none) (ho : (s.chan n c).opens = []) :
    gtTake s n c x = ((s.wr .gtCapl n c (x.truncate 32)).wr .gtCaph n c ((x >>> 32).truncate 32)).setB .gtCst n c 0 := by
  simp [gtTake, hp, ho]

/-- The capture registers with a time, and the flag that shows it. -/
theorem captured_rd (x : BitVec 64) :
    let t := ((s.wr .gtCapl n c (x.truncate 32)).wr .gtCaph n c ((x >>> 32).truncate 32)).setB .gtCst n c 0
    t.rd .gtCapl n c = x.truncate 32 ∧ t.rd .gtCaph n c = (x >>> 32).truncate 32 ∧ t.bit .gtCst n c 0 = true := by
  have hn := n.isLt
  have hc := c.isLt
  refine ⟨?_, ?_, ?_⟩
  · rw [State.setB, State.wrB, rd_wr_other _ _ (by decide) hn hc hn hc, rd_wr_other _ _ (by decide) hn hc hn hc, rd_wr_same]
  · rw [State.setB, State.wrB, rd_wr_other _ _ (by decide) hn hc hn hc, rd_wr_same]
  · rw [State.bit, rd_setB_same, bitOf_setBit _ _ _ _ (by decide)]
    simp

theorem gtTake_captures {x : BitVec 64} (hp : (s.chan n c).pend = none) (ho : (s.chan n c).opens = []) :
    let t := gtTake s n c x
    t.rd .gtCapl n c = x.truncate 32 ∧ t.rd .gtCaph n c = (x >>> 32).truncate 32 ∧ t.bit .gtCst n c 0 = true ∧
      t.chans = s.chans ∧ t.now = s.now ∧ t.tb = s.tb ∧ t.resp = s.resp := by
  dsimp only
  rw [gtTake_free s n c hp ho]
  obtain ⟨hl, hh, hb⟩ := captured_rd s n c x
  exact ⟨hl, hh, hb, rfl, rfl, rfl, rfl⟩

/-- A capture while a read is open waits in the pending slot (R54). -/
theorem gtTake_pends {x : BitVec 64} (hp : (s.chan n c).pend = none) (ho : (s.chan n c).opens ≠ []) :
    let t := gtTake s n c x
    t.bit .gtCst n c 1 = true ∧ t.chan n c = { s.chan n c with pend := some x } ∧
      t.rd .gtCaph n c = s.rd .gtCaph n c ∧ t.rd .gtCapl n c = s.rd .gtCapl n c := by
  have hgo : gtTake s n c x = (s.setChan n c { s.chan n c with pend := some x }).setB .gtCst n c 1 := by
    simp [gtTake, hp, ho]
  dsimp only
  rw [hgo]
  refine ⟨?_, ?_, ?_, ?_⟩
  · rw [State.bit, rd_setB_same, bitOf_setBit _ _ _ _ (by decide)]
    simp
  · rw [State.setB, State.wrB, chan_wr, chan_setChan_same]
  · exact rd_wr_other _ _ (by decide) n.isLt c.isLt n.isLt c.isLt
  · exact rd_wr_other _ _ (by decide) n.isLt c.isLt n.isLt c.isLt

theorem irqEdge_frame (id : Nat) : { s.irqEdge id with irq := s.irq, irqKeep := s.irqKeep } = s := by
  unfold State.irqEdge
  split
  · rfl
  · split <;> rfl

theorem irqEdge_edge {id : Nat} (hr : s.inRst 72 = false) (hk : s.irqKeep = none) : (s.irqEdge id).edge id = true := by
  unfold State.irqEdge
  rw [if_neg (by simp [hr]), hk]
  exact tget_tput_same (fun _ => false) s.irq.edge id true

/-- A capture while the slot is full is an overrun (R55, R220). -/
theorem gtTake_overruns {x : BitVec 64} (hp : (s.chan n c).pend.isSome = true) :
    let t := gtTake s n c x
    t.chan n c = s.chan n c ∧ t.rdF .gtCst n c 9 2 = Nat.min (s.rdF .gtCst n c 9 2 + 1) 255 ∧
      (s.inRst 72 = false → s.irqKeep = none → s.bit .gtCcfg n c 18 = true → t.edge (906 + 4 * n + c) = true) := by
  have hgo : gtTake s n c x =
      (s.incF .gtCst n c 9 2).when (s.bit .gtCcfg n c 18) (·.irqEdge (906 + 4 * n + c)) := if_pos hp
  dsimp only
  rw [hgo]
  have hfr (u : State) (id : Nat) := irqEdge_frame u id
  refine ⟨?_, ?_, fun hr hk hb => ?_⟩
  · exact (when_keeps (·.chan n c) _ (by have g := congrArg (·.chan n c) (hfr (s.incF .gtCst n c 9 2) (906 + 4 * n + c)); exact g)).trans
      (chan_wr ..)
  · rw [State.rdF, when_keeps (·.rd .gtCst n c) _
      (by have g := congrArg (·.rd .gtCst n c) (hfr (s.incF .gtCst n c 9 2) (906 + 4 * n + c)); exact g), rd_incF_same,
      fld_setFld_same _ _ _ _ (by decide)]
    exact Nat.mod_eq_of_lt (Nat.lt_of_le_of_lt (Nat.min_le_right ..) (by decide))
  · rw [State.when, if_pos hb]
    exact irqEdge_edge _ hr hk

/-- The oldest event noted is captured. -/
theorem gtCaptureDue_cons {x : BitVec 64} {xs : List (BitVec 64)} (h : s.timeOk = true) (hd : (s.chan n c).due = x :: xs) :
    gtCaptureDue s n c = gtTake (s.setChan n c { s.chan n c with due := xs }) n c x := by
  simp [gtCaptureDue, h, hd]

theorem gtCaptureDue_nil (hd : (s.chan n c).due = []) : gtCaptureDue s n c = s := by
  unfold gtCaptureDue
  rw [hd]
  cases s.timeOk <;> rfl

theorem gtCaptureDue_frozen (h : s.timeOk = false) : gtCaptureDue s n c = s := by
  unfold gtCaptureDue
  rw [h]

/-- GT_CAPTURE of a channel that does not select the WAKE pin brings the oldest event noted. -/
theorem exec_gtCapture_due (rising : Bool) (h : s.rdF .gtCcfg n c 7 2 ≠ 4) :
    exec (.gtCapture n c rising) s = .next (gtCaptureDue s n c) :=
  if_neg (by simp [capSelects, h])

end Take

/-- The WAKE pin's edge is captured at once (R53). -/
theorem gtCapture_wake (n : Fin 16) (c : Fin 4) (rising : Bool) {s : State} (ht : s.timeOk = true)
    (hs : s.rdF .gtCcfg n c 7 0 = 4 * 4 + 2) (he : edgeSel s n c rising = true) (hp : (s.chan n c).pend = none)
    (ho : (s.chan n c).opens = []) : ∃ t, exec (.gtCapture n c rising) s = .next t ∧ t.bit .gtCst n c 0 = true ∧ t.now = s.now ∧
      t.rd .gtCaph n c ++ t.rd .gtCapl n c = s.now - 3 := by
  obtain ⟨h1, h2⟩ := fld_low (s.rd .gtCcfg n c)
  have hsel : capSelects s n c (.wake rising) = true := by
    simp only [State.rdF] at hs
    simp [capSelects, State.rdF, h1, h2, hs, he]
  obtain ⟨hl, hh, hb, -, hnow, -, -⟩ := gtTake_captures s n c (x := s.now - 3) hp ho
  exact ⟨_, if_pos (by simp [ht, hsel]), hb, hnow, by rw [capTime, hl, hh, halves_append]⟩

theorem gtCapture_due (n : Fin 16) (c : Fin 4) (rising : Bool) (x : BitVec 64) (xs : List (BitVec 64)) {s : State}
    (ht : s.timeOk = true) (hsrc : s.rdF .gtCcfg n c 7 2 ≠ 4) :
    ((s.chan n c).due = [] → exec (.gtCapture n c rising) s = .next s) ∧
    ((s.chan n c).due = x :: xs → (s.chan n c).pend = none → (s.chan n c).opens = [] →
      ∃ t, exec (.gtCapture n c rising) s = .next t ∧ t.bit .gtCst n c 0 = true ∧ (t.chan n c).due = xs ∧
        t.rd .gtCaph n c ++ t.rd .gtCapl n c = x) ∧
    ((s.chan n c).due = x :: xs → (s.chan n c).pend = none → (s.chan n c).opens ≠ [] →
      ∃ t, exec (.gtCapture n c rising) s = .next t ∧ t.bit .gtCst n c 1 = true ∧ (t.chan n c).pend = some x ∧
        t.rd .gtCaph n c = s.rd .gtCaph n c ∧ t.rd .gtCapl n c = s.rd .gtCapl n c) ∧
    ((s.chan n c).due = x :: xs → (s.chan n c).pend.isSome = true →
      ∃ t, exec (.gtCapture n c rising) s = .next t ∧ (t.chan n c).pend = (s.chan n c).pend ∧
        t.rdF .gtCst n c 9 2 = Nat.min (s.rdF .gtCst n c 9 2 + 1) 255 ∧
        (s.inRst 72 = false → s.irqKeep = none → s.bit .gtCcfg n c 18 = true → t.edge (906 + 4 * n + c) = true)) := by
  set u := s.setChan n c { s.chan n c with due := xs } with hu
  have hch : u.chan n c = { s.chan n c with due := xs } := chan_setChan_same ..
  have hgo := exec_gtCapture_due s n c rising hsrc
  refine ⟨fun hd => by rw [hgo, gtCaptureDue_nil s n c hd], fun hd hp ho => ?_, fun hd hp ho => ?_, fun hd hp => ?_⟩ <;>
    rw [gtCaptureDue_cons s n c ht hd, ← hu] at hgo
  · obtain ⟨hl, hh, hb, hcs, -⟩ := gtTake_captures u n c (x := x) (by rw [hch]; exact hp) (by rw [hch]; exact ho)
    exact ⟨_, hgo, hb, by rw [State.chan, hcs, ← State.chan, hch], by rw [hl, hh, halves_append]⟩
  · obtain ⟨hb, hpend, hh, hl⟩ := gtTake_pends u n c (x := x) (by rw [hch]; exact hp) (by rw [hch]; exact ho)
    exact ⟨_, hgo, hb, by rw [hpend], hh, hl⟩
  · obtain ⟨hpend, hcnt, hedge⟩ := gtTake_overruns u n c (x := x) (by rw [hch]; exact hp)
    exact ⟨_, hgo, by rw [hpend, hch], hcnt, hedge⟩

theorem gtCapture_frozen (n : Fin 16) (c : Fin 4) (rising : Bool) {s : State} (ht : s.timeOk = false) :
    exec (.gtCapture n c rising) s = .next s := by
  refine (if_neg (by simp [ht])).trans ?_
  rw [gtCaptureDue_frozen s n c ht]

/-! ### Writes of GT_CST (R53, R55) -/

/-- SWCAP captures the present time. -/
theorem gtSwcap_captures (n : Fin 16) (c : Fin 4) (v : Word) {s : State} (hu : up s = true) (hs : s.rdF .gtCcfg n c 7 0 = 2)
    (hp : (s.chan n c).pend = none) (ho : (s.chan n c).opens = []) :
    ∃ t, exec (.gtSwcap n c v) s = .next t ∧ t.rd .gtCaph n c ++ t.rd .gtCapl n c = s.now ∧ t.bit .gtCst n c 0 = true := by
  have hn := n.isLt
  have hc := c.isLt
  set w := setBit v 17 true with hw
  have hw17 : bitOf w 17 = true := by rw [hw, bitOf_setBit _ _ _ _ (by decide)]; simp
  set u := (s.wrCodes .gtCst n c w).when (bitOf w 16) (·.wrF .gtCst n c 9 2 0) with hud
  have hrd {q : Reg} {i j : Nat} (hq : q ≠ .gtCst) (hi : i < q.info.ni) (hj : j < q.info.nj) : u.rd q i j = s.rd q i j :=
    (when_keeps (·.rd q i j) _ (rd_wr_other _ _ hq hn hc hi hj)).trans (rd_wr_other _ _ hq hn hc hi hj)
  have htime : u.timeOk = true := by
    rw [State.timeOk, State.bit, State.bit, hrd (by decide) (by decide) (by decide)]
    exact ((up_iff s).1 hu).1
  have hcfg : u.rdF .gtCcfg n c 7 0 = 2 := by rw [State.rdF, hrd (by decide) hn hc]; exact hs
  have hchan : u.chan n c = s.chan n c := (when_keeps (·.chan n c) _ (chan_wr ..)).trans (chan_wr ..)
  have hnow : u.now = s.now := (when_keeps State.now _ rfl).trans rfl
  have hgo : exec (.gtSwcap n c v) s = .next (gtTake u n c u.now) := by
    show Host.Outcome.next (wrGtCst s n c w) = _
    rw [wrGtCst, up_gate hu]
    dsimp only
    rw [← hud, State.when, if_pos (by simp [hw17, htime, hcfg])]
  obtain ⟨hl, hh, hb, -⟩ := gtTake_captures u n c (x := u.now) (by rw [hchan]; exact hp) (by rw [hchan]; exact ho)
  exact ⟨_, hgo, by rw [hl, hh, halves_append, hnow], hb⟩

/-- CLROVR sets the overrun count to 0. -/
theorem gtClrovr_clears (n : Fin 16) (c : Fin 4) (v : Word) {s : State} (hu : up s = true) (hv : bitOf v 17 = false) :
    ∃ t, exec (.gtClrovr n c v) s = .next t ∧ t.rdF .gtCst n c 9 2 = 0 ∧ { t with regs := s.regs } = s := by
  set w := setBit v 16 true with hw
  have hw16 : bitOf w 16 = true := by rw [hw, bitOf_setBit _ _ _ _ (by decide)]; simp
  have hw17 : bitOf w 17 = false := by rw [hw, bitOf_setBit _ _ _ _ (by decide)]; simp [hv]
  have hgo : exec (.gtClrovr n c v) s = .next ((s.wrCodes .gtCst n c w).wrF .gtCst n c 9 2 0) := by
    show Host.Outcome.next (wrGtCst s n c w) = _
    rw [wrGtCst, up_gate hu]
    simp only [hw16, hw17, Bool.false_and, State.when, if_true, Bool.false_eq_true, if_false]
  refine ⟨_, hgo, ?_, rfl⟩
  rw [State.rdF, rd_wrF_same, fld_setFld_same _ _ _ _ (by decide)]
  rfl

/-! ### Reads of the capture registers (R54, R56) -/

theorem reqNum_ne_debug {who : Requester} (h : who ≠ .debug) : reqNum who ≠ 517 := by
  cases who with
  | core c => cases c <;> simp only [reqNum, coreNum] <;> omega
  | host => decide
  | debug => exact absurd rfl h

/-- The channel with a read that opens now and its latched high word. -/
def readOpened (s : State) (who t c : Nat) : State :=
  s.setChan t c { s.chan t c with
    pend := none
    opens := (who, s.tb.ticks) :: (s.chan t c).opens.filter (·.1 != who)
    latch := tput (fun _ => 0) (s.chan t c).latch who (s.rd .gtCaph t c) }

/-- A read of GT_CAPL with nothing pending, behind what was noted. -/
theorem readGtCapl_opens {s u : State} {who : Nat} (n : Fin 16) (c : Fin 4) (hw : who ≠ 517)
    (hd : s.forN (s.chan n c).due.length (fun s _ => gtCaptureDue s n c) = u) (hp : (u.chan n c).pend = none) :
    readGtCapl s who n c = (u.rd .gtCapl n c, (readOpened u who n c).clrB .gtCst n c 0) := by
  unfold readGtCapl
  rw [hd, if_neg hw]
  dsimp only
  rw [hp]
  rfl

theorem readOpened_chan (s : State) (who t c : Nat) : (readOpened s who t c).chan t c = { s.chan t c with
    pend := none
    opens := (who, s.tb.ticks) :: (s.chan t c).opens.filter (·.1 != who)
    latch := tput (fun _ => 0) (s.chan t c).latch who (s.rd .gtCaph t c) } := chan_setChan_same ..

theorem gtCaplRead_quiet (who : Requester) (n : Fin 16) (c : Fin 4) {s : State} (hw : who ≠ .debug)
    (hp : (s.chan n c).pend = none) (hd : (s.chan n c).due = []) :
    ∃ t, exec (.gtCaplRead who n c) s = .next t ∧ t.bit .gtCst n c 0 = false ∧
      tget (fun _ => {}) t.resp (reqNum who) = { data := wordBytes (s.rd .gtCapl n c) false } ∧
      (reqNum who, s.tb.ticks) ∈ (t.chan n c).opens ∧ tget (fun _ => 0) (t.chan n c).latch (reqNum who) = s.rd .gtCaph n c := by
  have h := readGtCapl_opens (u := s) n c (reqNum_ne_debug hw) (by rw [hd]; rfl) hp
  have hgo : exec (.gtCaplRead who n c) s =
      .next (((readOpened s (reqNum who) n c).clrB .gtCst n c 0).answer (reqNum who) (s.rd .gtCapl n c)) := by
    show Host.Outcome.next ((readGtCapl s (reqNum who) n c).2.answer (reqNum who) (readGtCapl s (reqNum who) n c).1) = _
    rw [h]
  have hch : (((readOpened s (reqNum who) n c).clrB .gtCst n c 0).answer (reqNum who) (s.rd .gtCapl n c)).chan n c = _ :=
    readOpened_chan s (reqNum who) n c
  refine ⟨_, hgo, ?_, answer_resp .., ?_, ?_⟩
  · show bitOf (((readOpened s (reqNum who) n c).clrB .gtCst n c 0).rd .gtCst n c) 0 = false
    rw [rd_clrB_same, bitOf_setBit _ _ _ _ (by decide)]
    simp
  · rw [hch]
    exact List.mem_cons_self ..
  · rw [hch]
    exact tget_tput_same ..

/-- A read captures first what was noted. -/
theorem gtCaplRead_captures (who : Requester) (n : Fin 16) (c : Fin 4) (x : BitVec 64) {s : State} (ht : s.timeOk = true)
    (hw : who ≠ .debug) (hp : (s.chan n c).pend = none) (ho : (s.chan n c).opens = []) (hd : (s.chan n c).due = [x]) :
    ∃ t, exec (.gtCaplRead who n c) s = .next t ∧
      tget (fun _ => {}) t.resp (reqNum who) = { data := wordBytes (x.truncate 32) false } ∧
      tget (fun _ => 0) (t.chan n c).latch (reqNum who) = (x >>> 32).truncate 32 ∧ (t.chan n c).due = [] := by
  set v := s.setChan n c { s.chan n c with due := [] } with hv
  have hvch : v.chan n c = { s.chan n c with due := [] } := chan_setChan_same ..
  obtain ⟨hl, hh, -, hcs, -⟩ := gtTake_captures v n c (x := x) (by rw [hvch]; exact hp) (by rw [hvch]; exact ho)
  set u := gtTake v n c x with hu
  have huch : u.chan n c = { s.chan n c with due := [] } := by rw [State.chan, hcs, ← State.chan, hvch]
  have hfor : s.forN (s.chan n c).due.length (fun s _ => gtCaptureDue s n c) = u := by
    rw [hd]
    exact gtCaptureDue_cons s n c ht hd
  have h := readGtCapl_opens n c (reqNum_ne_debug hw) hfor (by rw [huch]; exact hp)
  have hgo : exec (.gtCaplRead who n c) s =
      .next (((readOpened u (reqNum who) n c).clrB .gtCst n c 0).answer (reqNum who) (u.rd .gtCapl n c)) := by
    show Host.Outcome.next ((readGtCapl s (reqNum who) n c).2.answer (reqNum who) (readGtCapl s (reqNum who) n c).1) = _
    rw [h]
  have hch : (((readOpened u (reqNum who) n c).clrB .gtCst n c 0).answer (reqNum who) (u.rd .gtCapl n c)).chan n c = _ :=
    readOpened_chan u (reqNum who) n c
  refine ⟨_, hgo, by rw [answer_resp, hl], ?_, ?_⟩
  · rw [hch, ← hh]
    exact tget_tput_same ..
  · rw [hch, huch]

/-- A requester's read is closed. -/
theorem gtClose_closed (s : State) (who t c : Nat) : who ∉ ((gtClose s who t c).chan t c).opens.map (·.1) := by
  rw [gtClose, chan_setChan_same]
  simp

theorem gtCaphRead_closes (who : Requester) (n : Fin 16) (c : Fin 4) {s : State} (hw : who ≠ .debug) :
    ∃ t, exec (.gtCaphRead who n c) s = .next t ∧ reqNum who ∉ (t.chan n c).opens.map (·.1) ∧
      tget (fun _ => {}) t.resp (reqNum who) =
        { data := wordBytes (tget (fun _ => 0) (s.chan n c).latch (reqNum who)) false } := by
  have hgo : exec (.gtCaphRead who n c) s =
      .next ((gtClose s (reqNum who) n c).answer (reqNum who) (tget (fun _ => 0) (s.chan n c).latch (reqNum who))) := by
    show Host.Outcome.next ((readGtCaph s (reqNum who) n c).2.answer (reqNum who) (readGtCaph s (reqNum who) n c).1) = _
    rw [readGtCaph, if_neg (reqNum_ne_debug hw)]
  exact ⟨_, hgo, gtClose_closed s (reqNum who) n c, answer_resp ..⟩

theorem gtReadTimeout_closes (who : Requester) (n : Fin 16) (c : Fin 4) (s : State) :
    (gtOpenLong s (reqNum who) n c = true →
      ∃ t, exec (.gtReadTimeout who n c) s = .next t ∧ reqNum who ∉ (t.chan n c).opens.map (·.1) ∧
        { t with chans := s.chans } = s) ∧
    (gtOpenLong s (reqNum who) n c = false → exec (.gtReadTimeout who n c) s = .next s) := by
  have hgo : exec (.gtReadTimeout who n c) s =
      .next (if gtOpenLong s (reqNum who) n c then gtClose s (reqNum who) n c else s) := rfl
  refine ⟨fun h => ⟨_, hgo.trans (congrArg Host.Outcome.next (if_pos h)), gtClose_closed s (reqNum who) n c, rfl⟩,
    fun h => hgo.trans (by rw [h]; rfl)⟩

/-- Settles O10: what follows a wrap or a match leaves that timer alone, but for what its channels note. -/
theorem timersComplete : Obligations.timers_complete := by
  unfold Obligations.timers_complete
  refine ⟨⟨fun n s hc hw hp => gtWrap_due n hc hw hp, fun n s h => gtWrap_not_due n h,
    fun n c s h => gtCompareMatch_fires n c h, fun n v s hu => gtPerWrite_applies n v hu,
    fun n c v s hu => gtCmpWrite_applies n c v hu, fun n v s hu => gtSwrst_resets n v hu⟩, ?_⟩
  refine ⟨fun n c e s h => ?_, fun n c r s ht hs he hp ho => gtCapture_wake n c r ht hs he hp ho,
    fun n c r x xs s ht hs => gtCapture_due n c r x xs ht hs, fun n c r s ht => gtCapture_frozen n c r ht,
    fun n c v s hu hs hp ho => gtSwcap_captures n c v hu hs hp ho, fun n c v s hu hv => gtClrovr_clears n c v hu hv,
    fun who n c s hw hp hd => gtCaplRead_quiet who n c hw hp hd,
    fun who n c x s ht hw hp ho hd => gtCaplRead_captures who n c x ht hw hp ho hd,
    fun who n c s hw => gtCaphRead_closes who n c hw, fun who n c s => gtReadTimeout_closes who n c s⟩
  rw [event_due s n c e h]
  cases e <;> rfl

end Sys2Proof.Proofs
end

section
namespace Sys2Proof.Proofs
open Sys2Proof Sys2Proof.Machine Sys2Proof.Safety Sys2Proof.Laws

/-! ### Power-state requests (R306–R309) -/

theorem bit_powerRefuse (s : State) (rsn : Nat) : (powerRefuse s rsn).bit .fmPstat 0 0 6 = true := by
  rw [State.bit, powerRefuse, rd_wrF_same, rd_setB_same, bitOf_setFld _ _ _ _ _ (by decide), bitOf_setBit _ _ _ _ (by decide)]
  simp

theorem reason_powerRefuse (s : State) {rsn : Nat} (h : rsn < 8) : (powerRefuse s rsn).rdF .fmPstat 0 0 10 8 = rsn := by
  rw [State.rdF, powerRefuse, rd_wrF_same, fld_setFld_same _ _ _ _ (by decide)]
  exact Nat.mod_eq_of_lt h

theorem state_powerGo (s : State) (p : PowerPhase) {st : Nat} (h : st < 4) : (powerGo s p st).rdF .fmPstat 0 0 1 0 = st := by
  rw [State.rdF, powerGo, rd_wrF_same, fld_setFld_same _ _ _ _ (by decide)]
  exact Nat.mod_eq_of_lt h

/-! A phase reached, with TRANS set -/

theorem powerGo_rd (s : State) (p : PowerPhase) (st : Nat) {r : Reg} (hr : r ≠ .fmPstat) :
    ((powerGo s p st).setB .fmPstat 0 0 5).rd r 0 0 = s.rd r 0 0 :=
  (rd_setB_first _ 5 hr).trans (rd_wrF_first _ 1 0 st hr)

theorem powerGo_trans (s : State) (p : PowerPhase) (st : Nat) : ((powerGo s p st).setB .fmPstat 0 0 5).bit .fmPstat 0 0 5 = true := by
  rw [State.bit, rd_setB_same, bitOf_setBit _ _ _ _ (by decide)]
  simp

theorem powerGo_irqKeep (s : State) (p : PowerPhase) (st : Nat) : ((powerGo s p st).setB .fmPstat 0 0 5).irqKeep = s.irqKeep := rfl

theorem powerGo_state (s : State) (p : PowerPhase) {st : Nat} (h : st < 4) :
    ((powerGo s p st).setB .fmPstat 0 0 5).rdF .fmPstat 0 0 1 0 = st := by
  rw [State.rdF, rd_setB_same, fld_setBit_ne _ _ _ _ _ (by decide) (by decide)]
  exact state_powerGo _ _ h

/-- FM_PWR with the written fields and the request `k`. -/
def pwrWritten (s : State) (v : Word) (k : Nat) : State := s.wrCodes .fmPwr 0 0 (setFld v 1 0 k)

theorem pwrWritten_rd (s : State) (v : Word) (k : Nat) {r : Reg} (hr : r ≠ .fmPwr) : (pwrWritten s v k).rd r 0 0 = s.rd r 0 0 :=
  rd_wrCodes_first s _ hr

/-- A privileged supervisor's write of FM_PWR is a request. -/
theorem wrFmPwr_requests (n : Fin 4) (v : Word) {s : State} (hu : up s = true) (hp : svPriv s n = true) {k : Nat} (hk : k < 4) :
    wrFmPwr s (reqNum (.core (.sv n))) (setFld v 1 0 k) = powerRequest (pwrWritten s v k) k := by
  have hn := n.isLt
  have hpriv : svPriv (pwrWritten s v k) (512 + n - 512) = true := by
    rw [Nat.add_sub_cancel_left, svPriv, State.bit,
      show (pwrWritten s v k).rd .svCr n 2 = s.rd .svCr n 2 from rd_wr_other _ _ (by decide) (by decide) (by decide) hn (by decide)]
    exact hp
  rw [wrFmPwr, up_gate hu, fld_setFld_same _ _ _ _ (by decide), Nat.mod_eq_of_lt (by simpa using hk)]
  exact if_pos ⟨Nat.le_add_right .., Nat.add_lt_add_left hn 512, hpriv⟩

theorem powerRequest_run {s : State} (hp : s.fm.power = .run) : powerRequest s 0 = s := by
  simp [powerRequest, hp]

theorem powerRequest_idle {s : State} (hp : s.fm.power = .run) : powerRequest s 1 =
    if secState s = 2 then powerRefuse s 1 else if s.rdF .secDbg 0 0 1 0 = 3 then powerRefuse s 3 else powerGo s .enteringIdle 2 := by
  simp [powerRequest, hp]

theorem powerRequest_hold {s : State} (hp : s.fm.power = .run) : powerRequest s 2 =
    if secState s = 2 then powerRefuse s 1 else if s.rdF .secDbg 0 0 1 0 ≠ 0 then powerRefuse s 3
    else if !wakeEnabled s then powerRefuse s 2 else settleAll (stopLoad (powerGo (s.forN 64 endRisk) .enteringHold 3)) := by
  by_cases h0 : s.rdF .secDbg 0 0 1 0 = 0
  · simp [powerRequest, hp, h0]
  · simp [powerRequest, hp, h0]

/-- Hold begins: the load engine stops and every lane pin is released (R309). -/
theorem holdBegins (s : State) : let t := settleAll (stopLoad (powerGo s .enteringHold 3))
    t.fm.power = .enteringHold ∧ t.bit .ckStat 0 0 0 = false ∧ ∀ l < 192, released t l = true := by
  set u := stopLoad (powerGo s .enteringHold 3) with hu
  have h := settleAll_lanesOnly u
  have hfm : (settleAll u).fm.power = .enteringHold := by rw [h.fm]; rfl
  refine ⟨hfm, ?_, fun l _ => ?_⟩
  · rw [h.bit 0 (by decide), hu, stopLoad, State.bit, rd_clrB_same, bitOf_setBit _ _ _ _ (by decide)]
    simp
  · simp [released, rankOne, hfm]

/-- Bits 6 and 8 of FM_PWR are as written. -/
theorem pwrWritten_wake (s : State) (v : Word) :
    wakeEnabled (pwrWritten s v 2) = (bitOf v 6 || bitOf v 8 || s.bit .tbCtl 0 0 4) := by
  have hb {b : Nat} (hb : b = 6 ∨ b = 8) : (pwrWritten s v 2).bit .fmPwr 0 0 b = bitOf v b := by
    rw [State.bit, pwrWritten, rd_wrCodes_same]
    rcases hb with rfl | rfl
    · rw [bitOf_applyWrite _ _ _ _ _ (by decide), bitOf_setFld _ _ _ _ _ (by decide)]
      simp [Reg.masks, Reg.info]
    · rw [bitOf_applyWrite _ _ _ _ _ (by decide), bitOf_setFld _ _ _ _ _ (by decide)]
      simp [Reg.masks, Reg.info]
  rw [wakeEnabled, hb (.inl rfl), hb (.inr rfl), State.bit, pwrWritten_rd _ _ _ (by decide), ← State.bit]

section Requests

variable (n : Fin 4) (v : Word) {s : State} (hu : up s = true) (hp : svPriv s n = true)
include hu hp

theorem fmPwrRun_nothing :
    ∃ t, exec (.fmPwrRun (.core (.sv n)) v) s = .next t ∧ t.fm.power = .run ∧ { t with regs := s.regs } = s := by
  obtain ⟨-, -, hrun, -⟩ := (up_iff s).1 hu
  refine ⟨_, congrArg Host.Outcome.next (wrFmPwr_requests n v hu hp (by decide : 0 < 4)), ?_⟩
  rw [powerRequest_run (s := pwrWritten s v 0) hrun]
  exact ⟨hrun, rfl⟩

theorem fmPwrIdle_request : ∃ t, exec (.fmPwrIdle (.core (.sv n)) v) s = .next t ∧
    (secState s = 2 → t.bit .fmPstat 0 0 6 = true ∧ t.rdF .fmPstat 0 0 10 8 = 1 ∧ t.fm.power = .run) ∧
    (secState s ≠ 2 → s.rdF .secDbg 0 0 1 0 = 3 → t.bit .fmPstat 0 0 6 = true ∧ t.rdF .fmPstat 0 0 10 8 = 3) ∧
    (secState s ≠ 2 → s.rdF .secDbg 0 0 1 0 ≠ 3 → t.fm.power = .enteringIdle ∧ t.rdF .fmPstat 0 0 1 0 = 2) := by
  obtain ⟨-, -, hrun, -⟩ := (up_iff s).1 hu
  have hsec : secState (pwrWritten s v 1) = secState s := congrArg (fld · 1 0) (pwrWritten_rd s v 1 (by decide))
  have hdbg : (pwrWritten s v 1).rdF .secDbg 0 0 1 0 = s.rdF .secDbg 0 0 1 0 := congrArg (fld · 1 0) (pwrWritten_rd s v 1 (by decide))
  refine ⟨_, congrArg Host.Outcome.next (wrFmPwr_requests n v hu hp (by decide : 1 < 4)), ?_⟩
  rw [powerRequest_idle (s := pwrWritten s v 1) hrun, hsec, hdbg]
  refine ⟨fun h => ?_, fun h hd => ?_, fun h hd => ?_⟩
  · rw [if_pos h]
    exact ⟨bit_powerRefuse .., reason_powerRefuse _ (by decide), hrun⟩
  · rw [if_neg h, if_pos hd]
    exact ⟨bit_powerRefuse .., reason_powerRefuse _ (by decide)⟩
  · rw [if_neg h, if_neg hd]
    exact ⟨rfl, state_powerGo _ _ (by decide)⟩

theorem fmPwrHold_request : ∃ t, exec (.fmPwrHold (.core (.sv n)) v) s = .next t ∧
    (let wake := bitOf v 6 || bitOf v 8 || s.bit .tbCtl 0 0 4
     (secState s = 2 → t.bit .fmPstat 0 0 6 = true ∧ t.rdF .fmPstat 0 0 10 8 = 1 ∧ t.fm.power = .run) ∧
     (secState s ≠ 2 → s.rdF .secDbg 0 0 1 0 ≠ 0 → t.bit .fmPstat 0 0 6 = true ∧ t.rdF .fmPstat 0 0 10 8 = 3) ∧
     (secState s ≠ 2 → s.rdF .secDbg 0 0 1 0 = 0 → wake = false → t.bit .fmPstat 0 0 6 = true ∧ t.rdF .fmPstat 0 0 10 8 = 2) ∧
     (secState s ≠ 2 → s.rdF .secDbg 0 0 1 0 = 0 → wake = true → t.fm.power = .enteringHold ∧ t.bit .ckStat 0 0 0 = false ∧
       ∀ l < 192, released t l = true)) := by
  obtain ⟨-, -, hrun, -⟩ := (up_iff s).1 hu
  have hsec : secState (pwrWritten s v 2) = secState s := congrArg (fld · 1 0) (pwrWritten_rd s v 2 (by decide))
  have hdbg : (pwrWritten s v 2).rdF .secDbg 0 0 1 0 = s.rdF .secDbg 0 0 1 0 := congrArg (fld · 1 0) (pwrWritten_rd s v 2 (by decide))
  refine ⟨_, congrArg Host.Outcome.next (wrFmPwr_requests n v hu hp (by decide : 2 < 4)), ?_⟩
  rw [powerRequest_hold (s := pwrWritten s v 2) hrun, hsec, hdbg, pwrWritten_wake]
  refine ⟨fun h => ?_, fun h hd => ?_, fun h hd hw => ?_, fun h hd hw => ?_⟩
  · rw [if_pos h]
    exact ⟨bit_powerRefuse .., reason_powerRefuse _ (by decide), hrun⟩
  · rw [if_neg h, if_pos hd]
    exact ⟨bit_powerRefuse .., reason_powerRefuse _ (by decide)⟩
  · rw [if_neg h, if_neg (not_not.2 hd), if_pos (by rw [hw]; rfl)]
    exact ⟨bit_powerRefuse .., reason_powerRefuse _ (by decide)⟩
  · rw [if_neg h, if_neg (not_not.2 hd), if_neg (by rw [hw]; decide)]
    exact holdBegins _

end Requests

/-! ### Idle (R306, R308) -/

theorem idleEntered_quiet {s : State} (hp : s.fm.power = .enteringIdle) (hq : allQuiet s = true) :
    ∃ t, exec .idleEntered s = .next t ∧ t.fm.power = .idle ∧ t.rdF .fmPstat 0 0 1 0 = 1 ∧ t.bit .fmPstat 0 0 5 = true ∧
      { t with regs := s.regs, fm := s.fm } = s := by
  exact ⟨_, if_pos (by simp [hp, hq]), rfl, powerGo_state _ _ (by decide), powerGo_trans .., rfl⟩

theorem idleEntered_not {s : State} (h : s.fm.power ≠ .enteringIdle ∨ allQuiet s = false) : exec .idleEntered s = .next s := by
  refine if_neg ?_
  rcases h with h | h
  · simp [h]
  · simp [h]

/-- What a cause of leaving Idle asks. -/
def idleCauseHolds (s : State) : IdleCause → Bool
  | .irq n => signalled s n
  | .wakePin => s.bit .fmPwr 0 0 6
  | .stringWake => s.bit .fmPwr 0 0 8
  | .power => true

theorem exec_idleExit {s : State} (h : s.fm.power = .idle) (c : IdleCause) :
    exec (.idleExit c) s = if idleCauseHolds s c then .next (leaveIdle s) else .next s := by
  have hgo : exec (.idleExit c) s = if s.fm.power == .idle && idleCauseHolds s c then .next (leaveIdle s) else .next s := by
    cases c <;> rfl
  rw [hgo, h]
  rfl

theorem exec_idleExit_not {s : State} (h : s.fm.power ≠ .idle) (c : IdleCause) : exec (.idleExit c) s = .next s :=
  if_neg (by simp [h])

theorem idleExit_power {s : State} (h : s.fm.power = .idle) : exec (.idleExit .power) s = .next (leaveIdle s) :=
  exec_idleExit h .power

/-- A cause that acts leaves Idle as a power request does. -/
theorem idleExit_cause {s : State} (h : s.fm.power = .idle) (c : IdleCause) :
    exec (.idleExit c) s = if idleCauseHolds s c then exec (.idleExit .power) s else .next s := by
  rw [idleExit_power h, exec_idleExit h]

theorem leaveIdle_runs (s : State) : (leaveIdle s).fm.power = .run ∧ (leaveIdle s).rdF .fmPstat 0 0 1 0 = 0 ∧
    (leaveIdle s).bit .fmPstat 0 0 5 = true := by
  set u := (powerGo s .run 0).setB .fmPstat 0 0 5 with hu
  have h : RowsOnly u (leaveIdle s) := startWaiting_rowsOnly u
  have hfm : (leaveIdle s).fm = u.fm := h.fm
  refine ⟨by rw [hfm]; rfl, ?_, ?_⟩
  · rw [h.rdF 1 0 (by decide), hu, powerGo_state _ _ (by decide)]
  · rw [h.bit 5 (by decide), hu, powerGo_trans]

/-! ### The entry to Hold (R309) -/

/-- The state but what the network shows, with its comparators. -/
def beyondGates (s : State) : State := { beyondMute s with gcs := [] }

/-- As `MuteOnly`, with the comparators. -/
abbrev GatesOnly (s t : State) : Prop := Only beyondGates netRegs s t

theorem MuteOnly.gatesOnly {s t : State} (h : MuteOnly s t) : GatesOnly s t :=
  ⟨by have g := congrArg (fun u => ({ u with gcs := [] } : State)) h.rest; exact g, h.regs⟩

theorem GatesOnly.fm {s t : State} (h : GatesOnly s t) : t.fm = s.fm := by have g := congrArg State.fm h.rest; exact g
theorem GatesOnly.irqKeep {s t : State} (h : GatesOnly s t) : t.irqKeep = s.irqKeep := by
  have g := congrArg State.irqKeep h.rest; exact g

theorem LanesOnly.irqKeep {s t : State} (h : LanesOnly s t) : t.irqKeep = s.irqKeep := by
  have g := congrArg State.irqKeep h.rest; exact g

/-- Comparator `n` is off, its sources deasserted (R105). -/
def gateOff (s : State) (n : Nat) : State :=
  setSource (setSource (s.setGc n { uv := (s.gc n).uv }) (2 * n) false) (2 * n + 1) false

theorem gateOff_gatesOnly (s : State) (n : Nat) : GatesOnly s (gateOff s n) := by
  have h : GatesOnly s (s.setGc n { uv := (s.gc n).uv }) := .of_regs_eq rfl rfl
  exact (h.trans (setSource_muteOnly ..).gatesOnly).trans (setSource_muteOnly ..).gatesOnly

theorem gateOff_src (s : State) (n j : Nat) : (gateOff s n).src j = if j = 2 * n ∨ j = 2 * n + 1 then false else s.src j := by
  rw [gateOff, setSource_src, setSource_src, src_setGc]
  by_cases h : j = 2 * n + 1
  · simp [h]
  · by_cases h' : j = 2 * n <;> simp [h, h']

theorem gatesOff_src (s : State) {k : Nat} (hk : k < 128) : (s.forN 64 gateOff).src k = false := by
  have h := (forN_each (f := gateOff) (s := s) (fun _ => True) (fun t i => (t.src (2 * i), t.src (2 * i + 1)))
    (fun _ x => x = (false, false)) trivial (fun _ _ _ _ => trivial)
    (fun t i k _ _ hne => by
      rw [gateOff_src, gateOff_src, if_neg (by omega), if_neg (by omega)])
    (fun t i _ _ _ => by
      rw [gateOff_src, gateOff_src, if_pos (by omega), if_pos (by omega)])).2.1 (k / 2) (show k / 2 < 64 by omega)
  simp only [Prod.mk.injEq] at h
  rcases Nat.mod_two_eq_zero_or_one k with hm | hm
  · rw [show k = 2 * (k / 2) by omega]; exact h.1
  · rw [show k = 2 * (k / 2) + 1 by omega]; exact h.2

theorem pcieDown_spec (s : State) : (pcieDown s).str.pcieUp = false ∧ (pcieDown s).irqKeep = s.irqKeep ∧
    (pcieDown s).srcs = s.srcs ∧ (pcieDown s).fm = s.fm ∧ KeepsRegs [.stStat] s (pcieDown s) := by
  unfold pcieDown
  split
  · exact ⟨rfl, rfl, rfl, rfl, (KeepsRegs.of_regs_eq (t := { s with str := { s.str with pcieUp := false } }) rfl).trans
      (.setB 9 (by simp) (by decide) (by decide))⟩
  next h => exact ⟨by simpa using h, rfl, rfl, rfl, .refl s⟩

theorem enterLf_irqKeep (s : State) : (enterLf s).irqKeep = s.irqKeep := by
  unfold enterLf
  extract_lets u
  generalize hw : ({ u with sds := _, tb := _ } : State) = w
  have hk : w.irqKeep = s.irqKeep := by rw [← hw]; rfl
  exact (settleAll_lanesOnly w).irqKeep.trans hk

theorem saveIrq_keeps (s : State) : (saveIrq s).irqKeep.isSome = true := rfl

/-- Low-frequency time and Hold, before the comparators go off. -/
def heldTime (s : State) : State := (powerGo (enterLf (saveIrq (irqSettle (cutBank (stopLoad s))))) .hold 0).setB .fmPstat 0 0 5

theorem heldTime_stat (s : State) : (heldTime s).bit .tbStat 0 0 1 = true ∧ (heldTime s).bit .tbStat 0 0 0 = false ∧
    (heldTime s).bit .fmPstat 0 0 5 = true ∧ (heldTime s).irqKeep.isSome = true := by
  have htb : (heldTime s).rd .tbStat 0 0 = _ := (powerGo_rd _ .hold 0 (by decide)).trans (enterLf_spec _).1
  have hk : (heldTime s).irqKeep = _ := (powerGo_irqKeep _ .hold 0).trans (enterLf_irqKeep _)
  refine ⟨?_, ?_, powerGo_trans .., by rw [hk, saveIrq_keeps]⟩
  · rw [State.bit, htb]
    simp [bitOf_setBit]
  · rw [State.bit, htb]
    simp [bitOf_setBit]

theorem holdEntryComplete_enters {s : State} (hp : s.fm.power = .enteringHold) (hr : s.fm.reset = .none) :
    ∃ t, exec .holdEntryComplete s = .next t ∧ t.fm.power = .hold ∧ t.bit .tbStat 0 0 1 = true ∧
      t.bit .tbStat 0 0 0 = false ∧ t.bit .fmPstat 0 0 5 = true ∧ t.str.passThru = true ∧ t.str.pcieUp = false ∧
      t.irqKeep.isSome = true ∧ ∀ k < 128, t.src k = false := by
  have hgo : ∃ p, p = pcieDown ((heldTime s).forN 64 gateOff) ∧ exec .holdEntryComplete s = .next { p with
      fm := { p.fm with probes := [], pinsKept := some (p.faultOwn, p.attnOwn) }, str := { p.str with passThru := true } } := by
    show ∃ p, _ ∧ (execHoldEntryComplete s : Host.Outcome State Fault Refusal) = _
    rw [execHoldEntryComplete, if_neg (by simp [hp, hr])]
    extract_lets e g h p
    exact ⟨p, rfl, rfl⟩
  obtain ⟨p, hpd, hgo⟩ := hgo
  have hg : GatesOnly (heldTime s) ((heldTime s).forN 64 gateOff) := .forN _ fun t n _ => gateOff_gatesOnly t n
  have hgfm : ((heldTime s).forN 64 gateOff).fm = (heldTime s).fm := hg.fm
  have hgkeep : ((heldTime s).forN 64 gateOff).irqKeep = (heldTime s).irqKeep := hg.irqKeep
  obtain ⟨hup, hkeep, hsrcs, hfm, hregs⟩ := pcieDown_spec ((heldTime s).forN 64 gateOff)
  obtain ⟨h1, h0, h5, hsome⟩ := heldTime_stat s
  have hbit {r : Reg} (b : Nat) (hn : r ∉ netRegs) (hs : r ∉ [Reg.stStat]) : p.bit r 0 0 b = (heldTime s).bit r 0 0 b := by
    rw [State.bit, hpd, hregs.first hs, hg.first hn, State.bit]
  refine ⟨_, hgo, ?_, ?_, ?_, ?_, rfl, ?_, ?_, fun k hk => ?_⟩
  · show p.fm.power = .hold
    rw [hpd, hfm, hgfm]
    rfl
  · show p.bit .tbStat 0 0 1 = true
    rw [hbit 1 (by decide) (by decide), h1]
  · show p.bit .tbStat 0 0 0 = false
    rw [hbit 0 (by decide) (by decide), h0]
  · show p.bit .fmPstat 0 0 5 = true
    rw [hbit 5 (by decide) (by decide), h5]
  · show p.str.pcieUp = false
    rw [hpd, hup]
  · show p.irqKeep.isSome = true
    rw [hpd, hkeep, hgkeep, hsome]
  · show p.src k = false
    rw [State.src, hpd, hsrcs, ← State.src, gatesOff_src _ hk]

theorem holdEntryComplete_not {s : State} (h : s.fm.power ≠ .enteringHold ∨ s.fm.reset ≠ .none) :
    exec .holdEntryComplete s = .next s := by
  refine if_pos ?_
  rcases h with h | h
  · simp [h]
  · simp [h]

/-! ### Wakes in Hold (R44, R280, R310) -/

theorem noteWake_first {s : State} (hp : s.fm.power = .hold) (hw : s.fm.wake = 0) (src : Nat) :
    noteWake s src = { s with fm := { s.fm with wake := src } } :=
  if_pos (by simp [hp, hw])

theorem wakePin_notes {s : State} (hp : s.fm.power = .hold) (hw : s.fm.wake = 0) :
    ∃ t, exec .wakePin s = .next t ∧ t.fm.wake = (if s.bit .fmPwr 0 0 6 then 1 else 0) ∧ { t with fm := s.fm } = s := by
  have hgo : exec .wakePin s = if s.bit .fmPwr 0 0 6 then .next (noteWake s 1) else .next s := rfl
  cases h : s.bit .fmPwr 0 0 6 with
  | true => exact ⟨_, hgo.trans ((if_pos h).trans (congrArg Host.Outcome.next (noteWake_first hp hw 1))), rfl, rfl⟩
  | false => exact ⟨s, by rw [hgo, h]; rfl, hw, rfl⟩

theorem stringWake_notes {s : State} (hp : s.fm.power = .hold) (hw : s.fm.wake = 0) :
    ∃ t, exec .stringWakeSequence s = .next t ∧ t.fm.wake = (if s.bit .fmPwr 0 0 8 then 2 else 0) ∧ t.str.wakeSent = true ∧
      { t with fm := s.fm, str := { t.str with wakeSent := s.str.wakeSent } } = s := by
  set u : State := { s with str := { s.str with wakeSent := true } } with hu
  have hpass : passing s 0 = true := by simp [passing, hp]
  have hgo : exec .stringWakeSequence s = if s.bit .fmPwr 0 0 8 then .next (noteWake u 2) else .next u := by
    show (execStringWakeSequence s : Host.Outcome State Fault Refusal) = _
    rw [execStringWakeSequence, hpass, Bool.true_or, if_pos rfl]
    rfl
  cases h : s.bit .fmPwr 0 0 8 with
  | true => exact ⟨_, hgo.trans ((if_pos h).trans (congrArg Host.Outcome.next (noteWake_first (s := u) hp hw 2))), rfl, rfl, rfl⟩
  | false => exact ⟨u, by rw [hgo, h]; rfl, hw, rfl, rfl⟩

theorem tbWakeCompare_notes {s : State} (hp : s.fm.power = .hold) (hw : s.fm.wake = 0) (hlf : s.bit .tbStat 0 0 1 = true)
    (hreach : wakeReached (lfAdvance s) = true) :
    ∃ t, exec .tbWakeCompare s = .next t ∧ t.fm.wake = 3 ∧ t.now = (lfAdvance s).now := by
  have hgo : exec .tbWakeCompare s = .next (noteWake (lfAdvance s) 3) := if_pos (by simp [hlf, hreach])
  rw [noteWake_first (s := lfAdvance s) hp hw] at hgo
  exact ⟨_, hgo, rfl, rfl⟩

end Sys2Proof.Proofs
end

section
namespace Sys2Proof.Proofs
open Sys2Proof Sys2Proof.Machine Sys2Proof.Safety Sys2Proof.Laws

/-! ### What a wake from Hold leaves (R311, R312) -/

/-- The state but the Mute network, the Cask and the signalled MSI-X vectors. -/
def beyondWake (s : State) : State := { beyondMute s with cask := {}, str := { s.str with msix := 0 } }

/-- The registers that change once the registers of Hold are formed. -/
def wakeRegs : List Reg := [.stAttn, .stDsc] ++ rowRegs

/-- Of the state, only what follows the power differs. -/
abbrev WakeOnly (s t : State) : Prop := Only beyondWake wakeRegs s t

theorem rowRegs_subset_wakeRegs : rowRegs ⊆ wakeRegs := List.subset_append_right ..

section Kept

variable {s t : State}

theorem MuteOnly.wakeOnly (h : MuteOnly s t) : WakeOnly s t :=
  h.coarsen (fun _ => rfl) (List.Subset.trans (List.subset_append_right upperRegs netRegs) rowRegs_subset_wakeRegs)

theorem CaskOnly.wakeOnly (h : CaskOnly s t) : WakeOnly s t :=
  ⟨by have g := congrArg beyondWake h.rest; exact g,
    h.regs.mono (List.Subset.trans (List.subset_append_left upperRegs netRegs) rowRegs_subset_wakeRegs)⟩

end Kept

theorem wakeOnly_wr (s : State) {r : Reg} {i j : Nat} (v : Word) (hr : r ∈ wakeRegs) (hi : i < r.info.ni) (hj : j < r.info.nj) :
    WakeOnly s (s.wr r i j v) := .wr rfl hr hi hj

theorem attn_wakeOnly (s : State) (reason func : Nat) : WakeOnly s (s.attn reason func) := by
  have hm : WakeOnly s (s.msixSig 2) := .ite (.of_regs_eq rfl rfl) (.refl ..)
  have wr (t : State) (v : Word) : WakeOnly t (t.wr .stAttn 0 0 v) := wakeOnly_wr t v (by decide) (by decide) (by decide)
  exact hm.trans (.ite ((wr _ _).trans (wr _ _)) (wr _ _))

theorem attnHeld_wakeOnly (s : State) : WakeOnly s (attnHeld s) := by
  unfold attnHeld
  extract_lets u
  exact (Only.when _ (attn_wakeOnly s 1 0) : WakeOnly s u).trans (.when _ (attn_wakeOnly u 4 _))

theorem attnDrop_wakeOnly (s : State) (reason : Nat) : WakeOnly s (attnDrop s reason) :=
  .ite ((wakeOnly_wr s _ (by decide) (by decide) (by decide)).trans (attnHeld_wakeOnly _)) (.refl ..)

/-- The STO inputs as they stand (R116). -/
theorem stoFresh_wakeOnly (s : State) : WakeOnly s (stoFresh s) := by
  have wr (t : State) {r : Reg} {v : Word} (hr : r ∈ [Reg.muSto, .fmFlt]) : WakeOnly t (t.wr r 0 0 v) :=
    wakeOnly_wr t v (List.mem_append_right _ (by
      have h : ∀ q ∈ [Reg.muSto, .fmFlt], q ∈ rowRegs := by decide
      exact h r hr)) (info_pos r).1 (info_pos r).2
  unfold stoFresh stoBits
  extract_lets u
  have hu : WakeOnly s u := (wr s (by decide)).trans (wr _ (by decide))
  exact hu.trans (.ite (.refl ..) ((wr u (by decide)).trans (wr _ (by decide))))

theorem tripFollow_wakeOnly (s : State) (j : Nat) : WakeOnly s (tripFollow s j) :=
  .ite (setSource_muteOnly ..).wakeOnly (.refl ..)

theorem rewriteEntry_caskOnly (s : State) (e : Nat) : CaskOnly s (rewriteEntry s e) := by
  unfold rewriteEntry
  refine .ite (setCask_caskOnly ..) ?_
  dsimp only
  exact .ite (setCask_caskOnly ..) (.refl ..)

theorem resumeWrites_caskOnly (s : State) : CaskOnly s (resumeWrites s) := by
  unfold resumeWrites
  extract_lets w r k u v x
  have hu : CaskOnly s u := setCask_caskOnly ..
  have hv : CaskOnly u v := caskOnly_wr u (r := .ckStat) (by decide) (by decide)
  have hx : CaskOnly v x := .foldl _ _ fun t y _ => dirShow_caskOnly ..
  have hr : CaskOnly x (r.foldl rewriteEntry x) := .foldl _ _ fun t e _ => rewriteEntry_caskOnly t e
  exact ((hu.trans hv).trans hx).trans (hr.trans (.ite (.refl ..) (setCask_caskOnly ..)))

theorem setPause_caskOnly (s : State) (warn cask : Bool) : CaskOnly s (setPause s warn cask) := by
  have wr (t : State) {v : Word} : CaskOnly t (t.wr .ckStat 0 0 v) := caskOnly_wr t (by decide) (by decide)
  unfold setPause
  extract_lets u v
  exact (wr s : CaskOnly s u).trans (.ite (((wr u).trans (wr _) : CaskOnly u v).trans (setCask_caskOnly ..))
    (.ite (resumeWrites_caskOnly u) (.refl ..)))

theorem pauses_caskOnly (s : State) : CaskOnly s (pauses s) := .ite (.refl ..) (setPause_caskOnly ..)

/-- The Boot ROM starts again: BOOTF is 0. -/
theorem bootAgain_spec (s : State) :
    (bootAgain s).bit .secStat 0 0 2 = false ∧ Only beyondWake (.secStat :: wakeRegs) s (bootAgain s) := by
  have hb : (s.clrB .secStat 0 0 2).bit .secStat 0 0 2 = false := by
    rw [State.bit, rd_clrB_same, bitOf_setBit _ _ _ _ (by decide)]
    simp
  have hc : Only beyondWake (.secStat :: wakeRegs) s (s.clrB .secStat 0 0 2) :=
    .wr rfl (List.mem_cons_self ..) (by decide) (by decide)
  unfold bootAgain
  generalize s.clrB .secStat 0 0 2 = c at hb hc ⊢
  split
  · have h := attnDrop_wakeOnly c 1
    exact ⟨by rw [h.bit 2 (by decide), hb], hc.trans (h.mono (List.subset_cons_self ..))⟩
  next h => exact ⟨by simpa using h, .refl ..⟩

/-! ### The wake -/

theorem restoreIrq_rest (s : State) : { restoreIrq s with regs := [], irq := {}, irqKeep := none } =
    { s with regs := [], irq := {}, irqKeep := none } := by
  unfold restoreIrq
  split <;> rfl

/-- SV0 starts again with WAKE `src` and LAST 6. -/
def runAgain (s : State) (src : Nat) : State :=
  (((powerGo (restoreIrq s) .run 0).setB .fmPstat 0 0 5).wrF .fmPstat 0 0 4 2 src).wrF .fmRstat 0 0 2 0 6

/-- What follows the power: the descriptor's re-application, safe torque off, trips, pins and Cask writes. -/
def followPower (s : State) (acc : Bool) : State :=
  pauses (settleAll ((stoFresh ((bootAgain s).when acc (·.setB .stDsc 0 0 1))).forN 16 tripFollow))

theorem followPower_spec (s : State) (acc : Bool) : (followPower s acc).bit .secStat 0 0 2 = false ∧
    Only beyondWake (.secStat :: wakeRegs) s (followPower s acc) := by
  obtain ⟨hb, hs⟩ := bootAgain_spec s
  have h : WakeOnly (bootAgain s) (followPower s acc) :=
    ((((Only.when acc (wakeOnly_wr _ _ (by decide) (by decide) (by decide))).trans (stoFresh_wakeOnly _)).trans
      (.forN _ fun t j _ => tripFollow_wakeOnly t j)).trans (settleAll_lanesOnly _).netOnly.muteOnly.wakeOnly).trans
      (pauses_caskOnly _).wakeOnly
  exact ⟨by rw [h.bit 2 (by decide), hb], hs.trans (h.mono (List.subset_cons_self ..))⟩

/-- The addresses of the SRAM banks that Hold keeps. -/
def keptAddr (s : State) (a : Nat) : Bool := anyN 4 (fun b => s.bit .fmPwr 0 0 (2 + b) &&
  decide (0x20000000 + 0x100000 * b ≤ a) && decide (a < 0x20000000 + 0x100000 * (b + 1)))

/-- The core domain is powered, without what Hold does not keep. -/
theorem holdWake_powers {s : State} (hp : s.fm.power = .hold) (hw : s.fm.wake ≠ 0) (hd : s.bit .pmuDstat 0 0 8 = false) :
    ∃ m : State, exec .holdWake s = .next (followPower (runAgain m s.fm.wake) (s.bit .stDsc 0 0 0)) ∧ m.cores = [] ∧ m.mem = s.mem ∧
      m.vld = s.vld.filter (fun e => keptAddr s (8 * e.1)) ∧ m.str.reapply = s.bit .stDsc 0 0 0 ∧ m.fm.wake = 0 := by
  have hgo : exec .holdWake s = execHoldWake s := rfl
  rw [hgo, execHoldWake, if_neg (by simp [hp, hw])]
  extract_lets src kept acc u f g m r p q b
  have hu : u = { s with regs := s.regs.filter (fun e => !(0x6A000000 ≤ e.1 && e.1 < 0x6B000000)), pmu := {} } := by
    simp only [u, resetPmu, hd, Bool.false_eq_true, if_false]
  refine ⟨m, rfl, rfl, ?_, ?_, rfl, rfl⟩
  · show u.mem = s.mem
    rw [hu]
  · show u.vld.filter _ = _
    rw [hu]
    rfl

theorem runAgain_rest (m : State) (src : Nat) : (runAgain m src).fm = { m.fm with power := .run } ∧ (runAgain m src).cores = m.cores ∧
    (runAgain m src).mem = m.mem ∧ (runAgain m src).vld = m.vld ∧ (runAgain m src).str = m.str := by
  have h := restoreIrq_rest m
  refine ⟨?_, ?_, ?_, ?_, ?_⟩
  · have g := congrArg (fun u => ({ u.fm with power := .run } : FmS)) h; exact g
  · have g := congrArg State.cores h; exact g
  · have g := congrArg State.mem h; exact g
  · have g := congrArg State.vld h; exact g
  · have g := congrArg State.str h; exact g

theorem runAgain_last (m : State) (src : Nat) : (runAgain m src).rdF .fmRstat 0 0 2 0 = 6 := by
  simp [State.rdF, runAgain, fld_setFld_same]

theorem runAgain_wake (m : State) {src : Nat} (h : src < 8) : (runAgain m src).rdF .fmPstat 0 0 4 2 = src := by
  rw [State.rdF, runAgain, rd_wrF_first _ _ _ _ (by decide), rd_wrF_same, fld_setFld_same _ _ _ _ (by decide)]
  exact Nat.mod_eq_of_lt h

/-- A table of the entries whose keys pass. -/
theorem tget_filter {α : Type} (d : Nat → α) (p : Nat → Bool) (t : Tbl α) (k : Nat) :
    tget d (t.filter (fun e => p e.1)) k = if p k then tget d t k else d k := by
  induction t with
  | nil => simp [tget]
  | cons e t ih =>
    by_cases hk : e.1 = k
    · cases hp : p k with
      | true => simp [tget, hk, hp]
      | false =>
        simp only [hp, Bool.false_eq_true, if_false] at ih
        simp [hk, hp, ih]
    · cases hp : p e.1 with
      | true => simp [tget, hk, hp, ih]
      | false => simp [tget, hk, hp, ih]

theorem anyN_eq_true (n : Nat) (p : Nat → Bool) : anyN n p = true ↔ ∃ i < n, p i = true := by
  simp [anyN]

theorem keptAddr_rom (s : State) : keptAddr s 0x10000000 = false := by
  rw [Bool.eq_false_iff, ne_eq, keptAddr, anyN_eq_true]
  rintro ⟨b, -, h⟩
  simp only [Bool.and_eq_true, decide_eq_true_eq] at h
  omega

theorem keptAddr_bank (s : State) {b : Nat} (hb : b < 4) : keptAddr s (0x20000000 + 0x100000 * b) = s.bit .fmPwr 0 0 (2 + b) := by
  rw [Bool.eq_iff_iff, keptAddr, anyN_eq_true]
  refine ⟨fun ⟨c, hc, h⟩ => ?_, fun h => ⟨b, hb, by simp [h]⟩⟩
  simp only [Bool.and_eq_true, decide_eq_true_eq] at h
  obtain ⟨⟨hbit, hlo⟩, hhi⟩ := h
  rwa [show b = c by omega]

theorem holdWake_wakes {s : State} (hp : s.fm.power = .hold) (hw : s.fm.wake ≠ 0) (h8 : s.fm.wake < 8)
    (hd : s.bit .pmuDstat 0 0 8 = false) : ∃ t, exec .holdWake s = .next t ∧ t.fm.power = .run ∧ t.fm.wake = 0 ∧
      t.rdF .fmRstat 0 0 2 0 = 6 ∧ t.bit .secStat 0 0 2 = false ∧ t.rdF .fmPstat 0 0 4 2 = s.fm.wake ∧ t.cores = [] ∧
      t.str.reapply = s.bit .stDsc 0 0 0 ∧ t.mem = s.mem ∧ t.vldAt 0x10000000 = 0 ∧
      ∀ b < 4, t.vldAt (0x20000000 + 0x100000 * b) =
        if s.bit .fmPwr 0 0 (2 + b) then s.vldAt (0x20000000 + 0x100000 * b) else 0 := by
  obtain ⟨m, hgo, hcores, hmem, hvld, hacc, hwake⟩ := holdWake_powers hp hw hd
  obtain ⟨hrfm, hrcores, hrmem, hrvld, hrstr⟩ := runAgain_rest m s.fm.wake
  have hlast := runAgain_last m s.fm.wake
  have hpstat := runAgain_wake m h8
  generalize runAgain m s.fm.wake = r at *
  obtain ⟨hbootf, h⟩ := followPower_spec r (s.bit .stDsc 0 0 0)
  generalize followPower r (s.bit .stDsc 0 0 0) = t at *
  have hfm : t.fm = { m.fm with power := .run } := by have g := congrArg State.fm h.rest; exact g.trans hrfm
  have htvld : t.vld = m.vld := by have g := congrArg State.vld h.rest; exact g.trans hrvld
  have hat (a : Nat) (ha : a % 8 = 0) : t.vldAt a = if keptAddr s a then s.vldAt a else 0 := by
    rw [State.vldAt, htvld, hvld, tget_filter _ (fun k => keptAddr s (8 * k)), show 8 * (a / 8) = a by omega, State.vldAt]
  refine ⟨t, hgo, by rw [hfm], by rw [hfm]; exact hwake, ?_, hbootf, ?_, ?_, ?_, ?_, ?_, fun b hb => ?_⟩
  · rw [h.rdF 2 0 (by decide), hlast]
  · rw [h.rdF 4 2 (by decide), hpstat]
  · have g := congrArg State.cores h.rest
    exact g.trans (hrcores.trans hcores)
  · have g := congrArg (fun u => u.str.reapply) h.rest
    exact g.trans ((congrArg StrS.reapply hrstr).trans hacc)
  · have g := congrArg State.mem h.rest
    exact g.trans (hrmem.trans hmem)
  · rw [hat _ (by decide), keptAddr_rom]
    rfl
  · rw [hat _ (by omega), keptAddr_bank s hb]

theorem holdWake_not {s : State} (h : s.fm.power ≠ .hold ∨ s.fm.wake = 0) : exec .holdWake s = .next s := by
  refine if_pos ?_
  rcases h with h | h
  · simp [h]
  · simp [h]

/-- Settles O50: each request and wake by its own branch, and what follows it leaves the power state's registers alone. -/
theorem powerStateCommandsComplete : Obligations.power_state_commands_complete := by
  unfold Obligations.power_state_commands_complete
  refine ⟨fun n v s hu hp => ⟨fmPwrRun_nothing n v hu hp, fmPwrIdle_request n v hu hp, fmPwrHold_request n v hu hp⟩, fun s => ?_⟩
  exact ⟨idleEntered_quiet, idleEntered_not, fun h => ⟨_, idleExit_power h, leaveIdle_runs s⟩, fun h => idleExit_cause h .wakePin,
    fun h => idleExit_cause h .stringWake, fun n h => idleExit_cause h (.irq n), fun c h => exec_idleExit_not h c,
    holdEntryComplete_enters, holdEntryComplete_not,
    fun hp hw => ⟨wakePin_notes hp hw, stringWake_notes hp hw, tbWakeCompare_notes hp hw⟩,
    holdWake_wakes, holdWake_not⟩

end Sys2Proof.Proofs
end

section
namespace Sys2Proof.Proofs
open Sys2Proof Sys2Proof.Machine Sys2Proof.Safety Sys2Proof.Laws

/-! ### TAP instructions (R338) -/

theorem tapTo_on {s : State} (h : s.fm.reset ≠ .off) (ir : Nat) (f : TapS → TapS) :
    tapTo s ir f = { s with tap := f { s.tap with ir := ir, extest := false } } := if_neg (by simpa using h)

/-- Where EXTEST drives pins. -/
theorem extestOn_iff {s : State} (h : s.tap.extest = true) : s.extestOn = true ↔ s.fm.reset = .none ∧ tapLimited s = false := by
  rw [tapLimited, Bool.or_eq_false_iff, decide_eq_false_iff_not, decide_eq_false_iff_not]
  simp [State.extestOn, secState, h, and_assoc]

theorem jtagExtest_selects {s : State} (h : s.fm.reset ≠ .off) :
    ∃ t, exec .jtagExtest s = .next t ∧ t.tap.ir = 0 ∧ (tapLimited s = true → t.tap.dr = 0) ∧ { t with tap := s.tap } = s ∧
      (∀ n own, t.atPin n own = if s.fm.reset = .none ∧ tapLimited s = false then Config.bsPin s.tap.boundary n else own) := by
  refine ⟨_, congrArg Host.Outcome.next (tapTo_on h _ _), rfl, fun hl => if_pos hl, rfl, fun n own => ?_⟩
  exact if_congr (extestOn_iff rfl) rfl rfl

/-! ### The 72 bits of a scan (R339) -/

/-- What the scan shifts in at each place. -/
theorem getLsbD_scanIn (op : BitVec 4) (addr data : Word) (tgt : BitVec 4) (j : Nat) : (scanIn op addr data tgt).getLsbD j =
    if j < 4 then op.getLsbD j else if j - 4 < 32 then addr.getLsbD (j - 4)
    else if j - 4 - 32 < 32 then data.getLsbD (j - 4 - 32) else tgt.getLsbD (j - 4 - 32 - 32) := by
  show (tgt ++ data ++ addr ++ op : BitVec (4 + 32 + 32 + 4)).getLsbD j = _
  rw [BitVec.getLsbD_append, BitVec.getLsbD_append, BitVec.getLsbD_append]

/-- What the scan captures at each place. -/
theorem getLsbD_scanOut (status poison : Nat) (data : Word) (j : Nat) : (scanOut status poison data).getLsbD j =
    if j < 4 then (BitVec.ofNat 4 status).getLsbD j else if j - 4 < 4 then (BitVec.ofNat 4 poison).getLsbD (j - 4)
    else if j - 4 - 4 < 32 then data.getLsbD (j - 4 - 4) else (0 : Word).getLsbD (j - 4 - 4 - 32) := by
  show ((0 : Word) ++ data ++ BitVec.ofNat 4 poison ++ BitVec.ofNat 4 status : BitVec (32 + 32 + 4 + 4)).getLsbD j = _
  rw [BitVec.getLsbD_append, BitVec.getLsbD_append, BitVec.getLsbD_append]

/-- A field is known by its bits. -/
theorem extractLsb'_eq {n w lo : Nat} {x : BitVec n} {y : BitVec w} (h : ∀ i < w, x.getLsbD (lo + i) = y.getLsbD i) :
    x.extractLsb' lo w = y :=
  BitVec.eq_of_getLsbD_eq fun i hi => by rw [BitVec.getLsbD_extractLsb', h i hi]; simp [hi]

theorem scanIn_op (op : BitVec 4) (addr data : Word) (tgt : BitVec 4) : (scanIn op addr data tgt).extractLsb' 0 4 = op :=
  extractLsb'_eq fun i hi => by rw [getLsbD_scanIn, if_pos (by omega), Nat.zero_add]

theorem scanIn_addr (op : BitVec 4) (addr data : Word) (tgt : BitVec 4) : scanAddr (scanIn op addr data tgt) = addr :=
  extractLsb'_eq fun i hi => by
    rw [getLsbD_scanIn, if_neg (by omega), if_pos (by omega), show 4 + i - 4 = i by omega]

theorem scanIn_data (op : BitVec 4) (addr data : Word) (tgt : BitVec 4) : scanData (scanIn op addr data tgt) = data :=
  extractLsb'_eq fun i hi => by
    rw [getLsbD_scanIn, if_neg (by omega), if_neg (by omega), if_pos (by omega), show 36 + i - 4 - 32 = i by omega]

theorem scanIn_tgt (op : BitVec 4) (addr data : Word) (tgt : BitVec 4) : scanTgt (scanIn op addr data tgt) = tgt :=
  extractLsb'_eq fun i hi => by
    rw [getLsbD_scanIn, if_neg (by omega), if_neg (by omega), if_neg (by omega), show 68 + i - 4 - 32 - 32 = i by omega]

theorem scanOp_scanIn (op : BitVec 4) (addr data : Word) (tgt : BitVec 4) : scanOp (scanIn op addr data tgt) = op.toNat :=
  congrArg BitVec.toNat (scanIn_op op addr data tgt)

theorem scanOut_fields {status poison : Nat} (hs : status < 16) (hp : poison < 16) (data : Word) :
    ((scanOut status poison data).extractLsb' 0 4).toNat = status ∧ ((scanOut status poison data).extractLsb' 4 4).toNat = poison ∧
      (scanOut status poison data).extractLsb' 8 32 = data ∧ (scanOut status poison data).extractLsb' 40 32 = 0 := by
  have h0 : (scanOut status poison data).extractLsb' 0 4 = BitVec.ofNat 4 status :=
    extractLsb'_eq fun i hi => by rw [getLsbD_scanOut, if_pos (by omega), Nat.zero_add]
  have h1 : (scanOut status poison data).extractLsb' 4 4 = BitVec.ofNat 4 poison :=
    extractLsb'_eq fun i hi => by
      rw [getLsbD_scanOut, if_neg (by omega), if_pos (by omega), show 4 + i - 4 = i by omega]
  refine ⟨by rw [h0, BitVec.toNat_ofNat, Nat.mod_eq_of_lt (by omega)], by rw [h1, BitVec.toNat_ofNat, Nat.mod_eq_of_lt (by omega)],
    extractLsb'_eq fun i hi => ?_, extractLsb'_eq fun i hi => ?_⟩
  · rw [getLsbD_scanOut, if_neg (by omega), if_neg (by omega), if_pos (by omega), show 8 + i - 4 - 4 = i by omega]
  · rw [getLsbD_scanOut, if_neg (by omega), if_neg (by omega), if_neg (by omega), show 40 + i - 4 - 4 - 32 = i by omega]

/-! ### The dispatch of an operation (R339, R340) -/

/-- The port after a scan that shifts in `x` and whose operation begins. -/
def scanned (s : State) (x : BitVec 72) : State := { s with tap := { s.tap with
  ir := 8, extest := false, scan := x, capture := scanOut s.tap.status s.tap.poison s.tap.data, opAt := some s.steady } }

/-- The port after an early scan. -/
def scannedEarly (s : State) (x : BitVec 72) : State :=
  { s with tap := { s.tap with ir := 8, extest := false, scan := x, capture := scanOut 1 0 0 } }

section Dispatch

variable {s : State} (hoff : s.fm.reset ≠ .off) {early : Bool}
include hoff

theorem dbgOp_busy (hb : dbgBusy s early = true) (x : BitVec 72) (f : State → State) :
    Host.Outcome.next (dbgOp s early x f) = (.next (scannedEarly s x) : Host.Outcome State Fault Refusal) := by
  unfold dbgOp
  rw [if_neg (by simpa using hoff)]
  dsimp only
  rw [hb]
  rfl

variable (hb : dbgBusy s early = false)
include hb

theorem dbgOp_free (x : BitVec 72) (f : State → State) : dbgOp s early x f =
    if dbgRefusal s (scanOp x) (inSec (scanAddr x).toNat) ≠ 0 then
      dbgDone (scanned s x) (dbgRefusal s (scanOp x) (inSec (scanAddr x).toNat)) 0 0
    else f (scanned s x) := by
  unfold dbgOp
  rw [if_neg (by simpa using hoff)]
  dsimp only
  rw [hb]
  rfl

/-- An operation that is refused. -/
theorem dbgOp_refused {op : BitVec 4} {addr data : Word} {tgt : BitVec 4} {st : Nat}
    (h : dbgRefusal s op.toNat (inSec addr.toNat) = st) (h0 : st ≠ 0) (f : State → State) :
    Host.Outcome.next (dbgOp s early (scanIn op addr data tgt) f) =
      (.next (dbgDone (scanned s (scanIn op addr data tgt)) st 0 0) : Host.Outcome State Fault Refusal) := by
  rw [dbgOp_free hoff hb, scanOp_scanIn, scanIn_addr, h, if_pos h0]

/-- An operation that acts. -/
theorem dbgOp_acts {op : BitVec 4} {addr data : Word} {tgt : BitVec 4} (h : dbgRefusal s op.toNat (inSec addr.toNat) = 0)
    (f : State → State) : Host.Outcome.next (dbgOp s early (scanIn op addr data tgt) f) =
      (.next (f (scanned s (scanIn op addr data tgt))) : Host.Outcome State Fault Refusal) := by
  rw [dbgOp_free hoff hb, scanOp_scanIn, scanIn_addr, h, if_neg (by decide)]

end Dispatch

/-- The status with which the operations but OP 3 are refused. -/
theorem dbgRefusal_denied {s : State} (h : (s.dark || tapLimited s) = true) {op : Nat} {sec : Bool}
    (hop : ¬ (op = 0 ∨ op = 8 ∨ op = 10 ∨ op = 11 ∨ (op = 1 ∧ sec))) (h3 : op ≠ 3) :
    dbgRefusal s op sec = if tapLimited s then 3 else 4 := by
  rw [dbgRefusal, if_neg hop, if_neg (fun hc => h3 hc.1)]
  cases hl : tapLimited s with
  | true => rfl
  | false =>
    rw [hl, Bool.or_false] at h
    rw [h]
    rfl

theorem dbgRefusal_attach {s : State} (h : (s.dark || tapLimited s) = true) (sec : Bool) :
    dbgRefusal s 3 sec = if s.fm.power = .hold then 4 else if tapLimited s then 3 else 4 := by
  by_cases hp : s.fm.power = .hold
  · simp [dbgRefusal, hp]
  · cases hl : tapLimited s with
    | true => simp [dbgRefusal, hp, hl]
    | false =>
      rw [hl, Bool.or_false] at h
      simp [dbgRefusal, hp, hl, h]

/-- OP 0, 8, 10 and 11 act always. -/
theorem dbgRefusal_open (s : State) {op : Nat} (hop : op = 0 ∨ op = 8 ∨ op = 10 ∨ op = 11) (sec : Bool) : dbgRefusal s op sec = 0 :=
  if_pos (by omega)

/-- Nothing is refused while the port is not limited and the core domain answers. -/
theorem dbgRefusal_none {s : State} (h : (s.dark || tapLimited s) = false) (op : Nat) (sec : Bool) : dbgRefusal s op sec = 0 := by
  obtain ⟨hd, hl⟩ := Bool.or_eq_false_iff.1 h
  have hp : s.fm.power ≠ .hold := fun hp => by simp [State.dark, hp] at hd
  simp [dbgRefusal, hd, hl, hp]

/-! ### Writes of SEC_OPEN by the port -/

theorem record_tap (s : State) (code src : Nat) (p0 p1 p2 p3 : Word) : (s.record code src p0 p1 p2 p3).tap = s.tap := by
  have g := congrArg State.tap (record_rest s code src p0 p1 p2 p3); exact g

theorem refuseOpen_tap (s : State) (r : Nat) : (refuseOpen s r).tap = s.tap := by
  unfold refuseOpen
  exact record_tap ..

theorem openGo_tap (s : State) : (openGo s).tap = s.tap := by
  unfold openGo
  dsimp only
  split_ifs
  · exact refuseOpen_tap ..
  · exact refuseOpen_tap ..
  · exact refuseOpen_tap ..
  · exact refuseOpen_tap ..
  · rfl

theorem challenge_tap (s : State) (random : BitVec 192) : (challenge s random).tap = s.tap := by
  unfold challenge
  split <;> rfl

theorem openWrite_tap (s : State) (v : Word) (random : BitVec 192) : (openWrite s v random).tap = s.tap :=
  (when_keeps State.tap _ (openGo_tap _)).trans (when_keeps State.tap _ (challenge_tap ..))

theorem openWrite_challenge {s : State} (h : secState s = 1) (random : BitVec 192) :
    (openWrite s 1 random).sec.chal = Config.serial ++ random ∧ (openWrite s 1 random).sec.chv = true := by
  have hgo : openWrite s 1 random = challenge s random := rfl
  rw [hgo, challenge, if_pos h]
  exact ⟨rfl, rfl⟩

theorem dbgWriteResponse_acts (addr data : Word) (random : BitVec 192) {s : State} (hoff : s.fm.reset ≠ .off) {early : Bool}
    (hb : dbgBusy s early = false) : ∃ t, exec (.dbgWriteResponse addr data random early) s = .next t ∧
      t.tap = (dbgDone (scanned s (scanIn 11 addr data 0)) 0 0 0).tap ∧
      (s.fm.reset = .none → bitOf addr 5 = false → tget (fun _ => 0) t.sec.resp (fld addr 4 0) = data) ∧
      (s.fm.reset = .none → bitOf addr 5 = true → data = 1 → secState s = 1 →
        t.sec.chal = Config.serial ++ random ∧ t.sec.chv = true) := by
  set u := scanned s (scanIn 11 addr data 0) with hu
  have hur : u.fm.reset = s.fm.reset := rfl
  refine ⟨_, dbgOp_acts hoff hb (dbgRefusal_open s (by decide) _) _, ?_⟩
  rw [← hu, hur]
  split_ifs with hr h5
  · exact ⟨rfl, fun hn => by simp [hn] at hr, fun hn => by simp [hn] at hr⟩
  · refine ⟨?_, fun _ hc => by simp [h5] at hc, fun _ _ hd hs => ?_⟩
    · simp only [dbgDone, openWrite_tap]
    · subst hd
      exact openWrite_challenge (s := u) hs random
  · exact ⟨rfl, fun _ _ => tget_tput_same .., fun _ hc => absurd hc h5⟩

end Sys2Proof.Proofs
end

section
namespace Sys2Proof.Proofs
open Sys2Proof Sys2Proof.Machine Sys2Proof.Safety Sys2Proof.Laws

/-! ### No access reads the debug port (R339) -/

/-- The state with another port. -/
def withTap (s : State) (x : TapS) : State := { s with tap := x }

/-! Registers and channels through another port -/

section Ops

variable (s : State) (x : TapS) (r : Reg) (i j : Nat)

@[simp] theorem bit_withTap (b : Nat) : (withTap s x).bit r i j b = s.bit r i j b := rfl
@[simp] theorem wr_withTap (v : Word) : (withTap s x).wr r i j v = withTap (s.wr r i j v) x := rfl
@[simp] theorem incF_withTap (hi lo : Nat) : (withTap s x).incF r i j hi lo = withTap (s.incF r i j hi lo) x := rfl
@[simp] theorem setB_withTap (b : Nat) : (withTap s x).setB r i j b = withTap (s.setB r i j b) x := rfl
@[simp] theorem fault_withTap (b : Nat) : (withTap s x).fault b = withTap (s.fault b) x := rfl
@[simp] theorem chan_withTap : (withTap s x).chan i j = s.chan i j := rfl
@[simp] theorem setChan_withTap (c : ChanS) : (withTap s x).setChan i j c = withTap (s.setChan i j c) x := rfl

end Ops

section Twin

variable {s : State} {x : TapS}

/-- Both branches of a choice that the port does not sway. -/
theorem withTap_ite {c c' : Prop} [Decidable c] [Decidable c'] (hc : c ↔ c') {t u t' u' : State} (ht : t = withTap t' x)
    (hu : u = withTap u' x) : (if c then t else u) = withTap (if c' then t' else u') x := by
  by_cases h : c'
  · rw [if_pos h, if_pos (hc.2 h), ht]
  · rw [if_neg h, if_neg (fun g => h (hc.1 g)), hu]

theorem withTap_when {b b' : Bool} (hb : b = b') {f g : State → State} {t : State} (h : f (withTap t x) = withTap (g t) x) :
    (withTap t x).when b f = withTap (t.when b' g) x :=
  withTap_ite (by rw [hb]) h rfl

theorem withTap_forN (n : Nat) {f : State → Nat → State} (h : ∀ s i, f (withTap s x) i = withTap (f s i) x) (s : State) :
    (withTap s x).forN n f = withTap (s.forN n f) x := by
  induction n with
  | zero => rfl
  | succ n ih => rw [forN_succ, forN_succ, ih, h]

end Twin

theorem rowBump_withTap (s : State) (x : TapS) (k c : Nat) : rowBump (withTap s x) k c = withTap (rowBump s k c) x :=
  withTap_ite Iff.rfl rfl rfl

theorem countRow_withTap (s : State) (x : TapS) (k cls e : Nat) (eng : Option Nat) :
    countRow (withTap s x) k cls e eng = withTap (countRow s k cls e eng) x :=
  withTap_forN 4 (fun t c => withTap_when rfl (rowBump_withTap t x k c)) s

theorem countRowMem_withTap (s : State) (x : TapS) (m who : Nat) :
    countRowMem (withTap s x) m who = withTap (countRowMem s m who) x :=
  withTap_ite Iff.rfl (withTap_ite Iff.rfl (countRow_withTap ..) (withTap_ite Iff.rfl rfl (countRow_withTap ..))) rfl

theorem awaitClear_withTap (s : State) (x : TapS) (a : Nat) : awaitClear (withTap s x) a = withTap (awaitClear s a) x := by
  unfold awaitClear
  split
  · exact withTap_ite Iff.rfl rfl rfl
  · rfl

theorem record_withTap (s : State) (x : TapS) (code src : Nat) (p0 p1 p2 p3 : Word) :
    (withTap s x).record code src p0 p1 p2 p3 = withTap (s.record code src p0 p1 p2 p3) x :=
  withTap_ite Iff.rfl rfl (withTap_ite Iff.rfl rfl rfl)

theorem countUe_withTap (s : State) (x : TapS) (m w : Nat) : countUe (withTap s x) m w = withTap (countUe s m w) x := by
  unfold countUe
  cases h : (s.incF .memEcnt m 0 23 16).bit .memStat m 0 8 <;>
    simp only [incF_withTap, bit_withTap, h, if_true, Bool.false_eq_true, if_false, wr_withTap, setB_withTap, record_withTap,
      fault_withTap]

theorem noteRead_withTap (s : State) (x : TapS) (a n : Nat) : noteRead (withTap s x) a n = withTap (noteRead s a n) x := by
  unfold noteRead
  split
  · rfl
  · extract_lets w has s1 s2 has' s1' s2'
    have hhas : has = has' := rfl
    have h1 : s1 = withTap s1' x := by
      simp only [s1, s1', hhas]
      exact withTap_when rfl rfl
    have h2 : s2 = withTap s2' x := by
      simp only [s2, s2', h1, hhas]
      refine withTap_when rfl ?_
      rw [countUe_withTap]
      rfl
    rw [h2, hhas]
    exact withTap_when rfl rfl

/-- A read whose result and effects the port does not sway: `p` on the state with the port, `q` on the state without it. -/
def TwinRead {α : Type} (x : TapS) (p q : α × State) : Prop := p = (q.1, withTap q.2 x)

section TwinRead

variable {α : Type} {x : TapS}

theorem TwinRead.ite {c c' : Prop} [Decidable c] [Decidable c'] (hc : c ↔ c') {t u t' u' : α × State} (ht : TwinRead x t t')
    (hu : TwinRead x u u') : TwinRead x (if c then t else u) (if c' then t' else u') := by
  by_cases h : c'
  · rw [if_pos h, if_pos (hc.2 h)]; exact ht
  · rw [if_neg h, if_neg (fun g => h (hc.1 g))]; exact hu

end TwinRead

theorem readMem_twin (s : State) (x : TapS) (a n : Nat) : TwinRead x (readMem (withTap s x) a n) (readMem s a n) := by
  unfold readMem
  rw [awaitClear_withTap, awaitClear_withTap]
  dsimp only
  rw [noteRead_withTap]
  refine Prod.ext rfl (withTap_ite Iff.rfl ?_ rfl)
  exact noteRead_withTap ..

theorem ckRead_clean {s : State} {e : Nat} {d : BitVec 64} (h : decodeEntry (s.ckData e) (s.ckErr e) = (.clean, d)) :
    ckRead s e = ((d, false), s) := by
  unfold ckRead
  rw [h]

theorem ckRead_single {s : State} {e : Nat} {d : BitVec 64} (h : decodeEntry (s.ckData e) (s.ckErr e) = (.single, d)) :
    ckRead s e = ((d, false), (s.incF .ckEcnt 0 0 15 0).ckRepair e) := by
  unfold ckRead
  rw [h]

theorem ckRead_double {s : State} {e : Nat} {d : BitVec 64} (h : decodeEntry (s.ckData e) (s.ckErr e) = (.double, d)) :
    ckRead s e = ((d, false), (s.incF .ckEcnt 0 0 15 0).ckRepair e) := by
  unfold ckRead
  rw [h]

/-- The address of an uncorrectable entry is kept with a flag (R250). -/
def ueaddrKept (s : State) (v : Word) : State := if s.bit .ckUeaddr 0 0 31 then s else s.wr .ckUeaddr 0 0 v

theorem ueaddrKept_withTap (s : State) (x : TapS) (v : Word) : ueaddrKept (withTap s x) v = withTap (ueaddrKept s v) x :=
  withTap_ite Iff.rfl rfl rfl

theorem ckRead_uncorrectable {s : State} {e : Nat} {d : BitVec 64}
    (h : decodeEntry (s.ckData e) (s.ckErr e) = (.uncorrectable, d)) : ckRead s e = ((d, true),
      (((ueaddrKept (s.incF .ckEcnt 0 0 23 16) (wd (e + 2 ^ 31))).setB .ckStat 0 0 8).record 0x0303 68 (wd e) 0 0 0).fault 2) := by
  unfold ckRead ueaddrKept
  rw [h]

theorem ckRead_twin (s : State) (x : TapS) (e : Nat) : TwinRead x (ckRead (withTap s x) e) (ckRead s e) := by
  rcases h : decodeEntry (s.ckData e) (s.ckErr e) with ⟨c, d⟩
  have h' : decodeEntry ((withTap s x).ckData e) ((withTap s x).ckErr e) = (c, d) := h
  unfold TwinRead
  cases c with
  | clean => rw [ckRead_clean h, ckRead_clean h']
  | single => rw [ckRead_single h, ckRead_single h']; rfl
  | double => rw [ckRead_double h, ckRead_double h']; rfl
  | uncorrectable =>
    rw [ckRead_uncorrectable h, ckRead_uncorrectable h', incF_withTap, ueaddrKept_withTap, setB_withTap, record_withTap, fault_withTap]

theorem irqEdge_withTap (s : State) (x : TapS) (id : Nat) : (withTap s x).irqEdge id = withTap (s.irqEdge id) x := by
  unfold State.irqEdge
  refine withTap_ite Iff.rfl rfl ?_
  rw [show (withTap s x).irqKeep = s.irqKeep from rfl]
  cases s.irqKeep with
  | none => rfl
  | some k => rfl

theorem gtTake_withTap (s : State) (x : TapS) (t c : Nat) (v : BitVec 64) : gtTake (withTap s x) t c v = withTap (gtTake s t c v) x := by
  unfold gtTake
  simp only [chan_withTap, incF_withTap, bit_withTap, setChan_withTap, setB_withTap, wr_withTap]
  exact withTap_ite Iff.rfl (withTap_when rfl (irqEdge_withTap ..)) (withTap_ite Iff.rfl rfl rfl)

theorem gtCaptureDue_withTap (s : State) (x : TapS) (t c : Nat) : gtCaptureDue (withTap s x) t c = withTap (gtCaptureDue s t c) x := by
  unfold gtCaptureDue
  rw [show (withTap s x).timeOk = s.timeOk from rfl]
  simp only [chan_withTap, setChan_withTap, gtTake_withTap]
  split <;> rfl

theorem readGtCapl_twin (s : State) (x : TapS) (t c : Nat) : TwinRead x (readGtCapl (withTap s x) 517 t c) (readGtCapl s 517 t c) := by
  unfold readGtCapl
  rw [show (withTap s x).chan t c = s.chan t c from rfl, withTap_forN _ (fun u _ => gtCaptureDue_withTap u x t c)]
  rfl

theorem readMpNext_withTap (s : State) (x : TapS) (c : Nat) : readMpNext (withTap s x) c = readMpNext s c := by
  have h : (fun m => (withTap s x).bit .memStat m 0 c && (withTap s x).bit .memCfg m 0 (c + 1)) =
      fun m => s.bit .memStat m 0 c && s.bit .memCfg m 0 (c + 1) := rfl
  unfold readMpNext
  rw [h]

theorem readReg_twin (s : State) (x : TapS) (r : Reg) (i j : Nat) :
    TwinRead x (readReg (withTap s x) 517 r i j) (readReg s 517 r i j) := by
  unfold readReg
  dsimp only
  rw [show (withTap s x).funcHeld r i = s.funcHeld r i from rfl]
  split
  · rfl
  cases r with
  | gtCapl => exact readGtCapl_twin ..
  | mpNext =>
    dsimp only [TwinRead]
    rw [readMpNext_withTap]
  | _ => rfl

theorem readWord_twin (s : State) (x : TapS) (a : Nat) : TwinRead x (readWord (withTap s x) 517 a) (readWord s 517 a) := by
  refine .ite Iff.rfl rfl ?_
  split
  · exact readReg_twin ..
  · rfl

theorem readPiece_twin (s : State) (x : TapS) (a n : Nat) :
    TwinRead x (readPiece (withTap s x) 517 a n) (readPiece s 517 a n) := by
  refine .ite Iff.rfl rfl (.ite Iff.rfl ?_ (.ite Iff.rfl ?_ ?_))
  · dsimp only
    rw [show ckRead (withTap s x) _ = _ from ckRead_twin s x _]
    rfl
  · dsimp only
    rw [show readWord (withTap s x) 517 a = _ from readWord_twin s x a]
    rfl
  · cases memOf a with
    | none => exact readMem_twin ..
    | some m =>
      dsimp only
      rw [countRowMem_withTap]
      exact readMem_twin ..

/-- One piece after another. -/
theorem readPieces_twin (x : TapS) (ps : List (Nat × Nat)) (bs : List (Byte × Bool)) (s : State) :
    TwinRead x (ps.foldl (fun acc p => (acc.1 ++ (readPiece acc.2 517 p.1 p.2).1, (readPiece acc.2 517 p.1 p.2).2)) (bs, withTap s x))
      (ps.foldl (fun acc p => (acc.1 ++ (readPiece acc.2 517 p.1 p.2).1, (readPiece acc.2 517 p.1 p.2).2)) (bs, s)) := by
  induction ps generalizing bs s with
  | nil => rfl
  | cons p ps ih =>
    rw [List.foldl_cons, List.foldl_cons]
    dsimp only
    rw [show readPiece (withTap s x) 517 p.1 p.2 = _ from readPiece_twin s x p.1 p.2]
    exact ih _ _

theorem busRead_twin (s : State) (x : TapS) (a n : Nat) : TwinRead x (busRead (withTap s x) 517 a n) (busRead s 517 a n) :=
  readPieces_twin x _ [] s

/-! ### The word read by the port (R244, R339) -/

/-- POISON has a bit for each poisoned byte. -/
theorem testBit_poison (p : Nat → Bool) {i : Nat} (hi : i < 4) :
    (((List.range 4).filter p).map (2 ^ ·)).sum.testBit i = p i := by
  have hs : (((List.range 4).filter p).map (2 ^ ·)).sum = (p 0).toNat + 2 * (p 1).toNat + 4 * (p 2).toNat + 8 * (p 3).toNat := by
    rw [show List.range 4 = [0, 1, 2, 3] from rfl]
    cases h0 : p 0 <;> cases h1 : p 1 <;> cases h2 : p 2 <;> cases h3 : p 3 <;> simp [h0, h1, h2, h3]
  rw [hs]
  interval_cases i <;> cases p 0 <;> cases p 1 <;> cases p 2 <;> cases p 3 <;> rfl

theorem dbgRead_acts (addr : Word) {s : State} (hoff : s.fm.reset ≠ .off) {early : Bool} (hb : dbgBusy s early = false)
    (hd : (s.dark || tapLimited s) = false) :
    (hostReach s .load addr.toNat 4 = false →
      exec (.dbgRead addr early) s = .next (dbgDone (scanned s (scanIn 1 addr 0 0)) 2 0 0)) ∧
    (hostReach s .load addr.toNat 4 = true → ∃ t, exec (.dbgRead addr early) s = .next t ∧
      t.tap = { (scanned s (scanIn 1 addr 0 0)).tap with
        status := 0, data := bytesWord (busRead s 517 addr.toNat 4).1, poison := t.tap.poison } ∧
      ∀ i < 4, t.tap.poison.testBit i = ((busRead s 517 addr.toNat 4).1.getD i (0, false)).2) := by
  set x := (scanned s (scanIn 1 addr 0 0)).tap with hx
  have hu : scanned s (scanIn 1 addr 0 0) = withTap s x := rfl
  have hgo := dbgOp_acts hoff hb (op := 1) (addr := addr) (data := 0) (tgt := 0) (dbgRefusal_none hd _ _) fun s =>
    if !hostReach s .load addr.toNat 4 then dbgDone s 2 0 0
    else dbgDone (busRead s 517 addr.toNat 4).2 0 (bytesWord (busRead s 517 addr.toNat 4).1)
      (((List.range 4).filter (fun i => ((busRead s 517 addr.toNat 4).1.getD i (0, false)).2)).map (2 ^ ·)).sum
  rw [hu, show busRead (withTap s x) 517 addr.toNat 4 = _ from busRead_twin s x addr.toNat 4,
    show hostReach (withTap s x) .load addr.toNat 4 = hostReach s .load addr.toNat 4 from rfl] at hgo
  refine ⟨fun h => ?_, fun h => ?_⟩
  · rw [h] at hgo
    exact hgo
  · rw [h] at hgo
    exact ⟨_, hgo, rfl, fun i hi => testBit_poison _ hi⟩

end Sys2Proof.Proofs
end

section
namespace Sys2Proof.Proofs
open Sys2Proof Sys2Proof.Machine Sys2Proof.Safety Sys2Proof.Laws

/-! ### Bytes of SRAM after a write (R235–R237) -/

/-- A byte is read from its word's valid bit, its data and its check bits. -/
theorem byteAt_congr {s t : State} {a : Nat} (hv : t.vldAt a = s.vldAt a) (hd : t.dataAt a = s.dataAt a) (hc : t.devAt a = s.devAt a) :
    t.byteAt a = s.byteAt a := by
  rw [State.byteAt, State.byteAt, hv, hd, hc]

/-- A clean byte stored in an open word. -/
theorem byteAt_putByte (s : State) (a b : Nat) (d : Byte) (hv : majority (s.vldAt a) = true) :
    (s.putByte a d 0).byteAt b = if b = a then (d, false) else s.byteAt b := by
  by_cases h : b = a
  · subst h
    have hdec : decodeByte d 0 = (.clean, d) := rfl
    have hvld : (s.putByte b d 0).vldAt b = s.vldAt b := rfl
    rw [if_pos rfl, State.byteAt, hvld, if_pos hv, dataAt_putByte, if_pos rfl, devAt_putByte, if_pos rfl, hdec]
    rfl
  · rw [if_neg h]
    exact byteAt_congr rfl (by rw [dataAt_putByte, if_neg h]) (by rw [devAt_putByte, if_neg h])

/-- The eight bytes of a word that opens. -/
def zeroWord (s : State) (a : Nat) : State := s.forN 8 (fun s i => s.putByte (a / 8 * 8 + i) 0 0)

theorem zeroWord_at (s : State) (a b : Nat) :
    ((zeroWord s a).vld = s.vld ∧ (zeroWord s a).regs = s.regs ∧ (zeroWord s a).tap = s.tap) ∧
    (b / 8 = a / 8 → (zeroWord s a).dataAt b = 0 ∧ (zeroWord s a).devAt b = 0) ∧
    (b / 8 ≠ a / 8 → (zeroWord s a).dataAt b = s.dataAt b ∧ (zeroWord s a).devAt b = s.devAt b) := by
  have hinv : (zeroWord s a).vld = s.vld ∧ (zeroWord s a).regs = s.regs ∧ (zeroWord s a).tap = s.tap :=
    forN_keeps_lt (fun u => u.vld = s.vld ∧ u.regs = s.regs ∧ u.tap = s.tap) (fun _ _ _ h => h) ⟨rfl, rfl, rfl⟩
  refine ⟨hinv, fun h => ?_, fun h => ?_⟩
  · have hd := (forN_each (n := 8) (f := fun s i => s.putByte (a / 8 * 8 + i) 0 0) (s := s) (fun _ => True)
      (fun u k => (u.dataAt (a / 8 * 8 + k), u.devAt (a / 8 * 8 + k))) (fun _ x => x = (0, 0)) trivial (fun _ _ _ _ => trivial)
      (fun u i k _ _ hne => by
        rw [dataAt_putByte, devAt_putByte, if_neg (by omega), if_neg (by omega)])
      (fun u i _ _ _ => by
        rw [dataAt_putByte, devAt_putByte, if_pos rfl, if_pos rfl])).2.1 (b % 8) (Nat.mod_lt _ (by decide))
    rw [show a / 8 * 8 + b % 8 = b by omega] at hd
    exact Prod.mk.injEq .. ▸ hd
  · exact forN_keeps_lt (fun u => u.dataAt b = s.dataAt b ∧ u.devAt b = s.devAt b) (fun u i _ hu => by
      rwa [dataAt_putByte, devAt_putByte, if_neg (by omega), if_neg (by omega)]) ⟨rfl, rfl⟩

/-- A word that opens reads as before, and its valid bit is set (R237). -/
theorem openWord_reads (s : State) (a : Nat) : ((s.openWord a).regs = s.regs ∧ (s.openWord a).tap = s.tap) ∧
    (∀ b, b / 8 = a / 8 → majority ((s.openWord a).vldAt b) = true) ∧ ∀ b, (s.openWord a).byteAt b = s.byteAt b := by
  cases hm : majority (s.vldAt a) with
  | true =>
    have hgo : s.openWord a = s := if_pos hm
    rw [hgo]
    exact ⟨⟨rfl, rfl⟩, fun b hb => by rw [State.vldAt, hb]; exact hm, fun _ => rfl⟩
  | false =>
    have hgo : s.openWord a = { zeroWord s a with vld := tput (fun _ => 0) (zeroWord s a).vld (a / 8) 7 } := if_neg (by simp [hm])
    have hz (b : Nat) := zeroWord_at s a b
    generalize zeroWord s a = z at hgo hz
    obtain ⟨⟨hvld, hregs, htap⟩, -, -⟩ := hz a
    have hopen (b : Nat) : (s.openWord a).vldAt b = if b / 8 = a / 8 then 7 else s.vldAt b := by
      rw [hgo]
      show tget (fun _ => 0) (tput (fun _ => 0) z.vld (a / 8) 7) (b / 8) = _
      rw [tget_tput, hvld]
      rfl
    refine ⟨by rw [hgo]; exact ⟨hregs, htap⟩, fun b hb => by rw [hopen, if_pos hb]; rfl, fun b => ?_⟩
    obtain ⟨-, hsame, hother⟩ := hz b
    by_cases hb : b / 8 = a / 8
    · obtain ⟨hd, hc⟩ := hsame hb
      have hd' : (s.openWord a).dataAt b = 0 := by rw [hgo]; exact hd
      have hc' : (s.openWord a).devAt b = 0 := by rw [hgo]; exact hc
      have hinv : majority (s.vldAt b) = false := by rw [State.vldAt, hb]; exact hm
      rw [State.byteAt, hopen, if_pos hb, hd', hc', State.byteAt, hinv]
      rfl
    · obtain ⟨hd, hc⟩ := hother hb
      refine byteAt_congr (by rw [hopen, if_neg hb]) ?_ ?_
      · rw [hgo]; exact hd
      · rw [hgo]; exact hc

/-- Clean bytes stored one after another in open words. -/
theorem storeBytes_reads (a : Nat) (bs : List (Byte × Bool)) (hclean : ∀ x ∈ bs, x.2 = false) (k : Nat) (s : State)
    (hv : ∀ i < bs.length, majority (s.vldAt (a + (k + i))) = true) :
    let t := (bs.zipIdx k).foldl (fun s p => s.storeByte (a + p.2) p.1) s
    (t.regs = s.regs ∧ t.tap = s.tap ∧ t.vld = s.vld) ∧ (∀ i (hi : i < bs.length), t.byteAt (a + (k + i)) = bs[i]) ∧
      ∀ b, b < a + k ∨ a + k + bs.length ≤ b → t.byteAt b = s.byteAt b := by
  induction bs generalizing k s with
  | nil => exact ⟨⟨rfl, rfl, rfl⟩, fun i hi => absurd hi (Nat.not_lt_zero i), fun _ _ => rfl⟩
  | cons x bs ih =>
    have hx : x.2 = false := hclean x (List.mem_cons_self ..)
    have hput : s.storeByte (a + k) x = s.putByte (a + k) x.1 0 := by
      rw [State.storeByte, hx]
      rfl
    have hxv : majority (s.vldAt (a + k)) = true := hv 0 (by simp)
    have hat (b : Nat) : (s.putByte (a + k) x.1 0).byteAt b = if b = a + k then x else s.byteAt b := by
      rw [byteAt_putByte _ _ _ _ hxv, ← hx]
    obtain ⟨hrest, hdone, hkept⟩ := ih (fun y hy => hclean y (List.mem_cons_of_mem _ hy)) (k + 1) (s.putByte (a + k) x.1 0)
      (fun i hi => by
        have h := hv (i + 1) (by simpa using hi)
        rw [show k + 1 + i = k + (i + 1) by omega]
        exact h)
    dsimp only
    rw [List.zipIdx_cons, List.foldl_cons]
    dsimp only
    rw [hput]
    refine ⟨hrest, fun i hi => ?_, fun b hb => ?_⟩
    · cases i with
      | zero =>
        rw [hkept _ (by omega), hat, if_pos (by omega)]
        rfl
      | succ i =>
        rw [show k + (i + 1) = k + 1 + i by omega, hdone i (by simpa using hi)]
        rfl
    · rw [List.length_cons] at hb
      rw [hkept b (by omega), hat, if_neg (by omega)]

/-- The SRAM banks clear no valid bits and have no flip armed. -/
theorem sramQuiet_bank {s : State} (h : sramQuiet s = true) {m : Nat} (hl : 1088 ≤ m) (hh : m < 1092) :
    s.bit .memStat m 0 7 = false ∧ s.rdF .memFlip m 0 12 0 = 0 := by
  have hm : m ∈ [1088, 1089, 1090, 1091] := by
    simp only [List.mem_cons, List.not_mem_nil, or_false]
    omega
  have hq := List.all_eq_true.1 h m hm
  simpa using hq

theorem sramQuiet_congr {s t : State} (h : t.regs = s.regs) (hq : sramQuiet s = true) : sramQuiet t = true := by
  rw [← hq]
  simp only [sramQuiet, State.bit, State.rdF, State.rd, h]

/-- A write of clean bytes within one word of a quiet bank. -/
theorem writePiece_sram {s : State} (hq : sramQuiet s = true) (who : Nat) {a : Nat} {bs : List (Byte × Bool)} (hlo : 0x20000000 ≤ a)
    (hhi : a < 0x20400000) (hword : a % 8 + bs.length ≤ 8) (hclean : ∀ x ∈ bs, x.2 = false) :
    let t := writePiece s who a bs
    (t.regs = s.regs ∧ t.tap = s.tap) ∧ (∀ i (hi : i < bs.length), t.byteAt (a + i) = bs[i]) ∧
      ∀ b, b < a ∨ a + bs.length ≤ b → t.byteAt b = s.byteAt b := by
  set m := 1088 + (a - 0x20000000) / 0x100000 with hm
  have hml : 1088 ≤ m := by omega
  have hmh : m < 1092 := by omega
  have hmem : memOf a = some m := by
    unfold memOf
    rw [if_neg (by omega), if_neg (by omega), if_pos ⟨hlo, hhi⟩]
  obtain ⟨hclr, hflip⟩ := sramQuiet_bank hq hml hmh
  have hcount : countRowMem s m who = s := if_neg (by omega)
  have hawait : awaitClear s a = s := awaitClear_idle (by rw [clring, hmem]; exact hclr)
  have hpiece : writePiece s who a bs = writeWord s who a bs := by
    rw [writePiece, if_neg (by simp [periph, hwWindow]; omega), hmem]
    rfl
  obtain ⟨⟨horegs, hotap⟩, hoopen, horead⟩ := openWord_reads s a
  obtain ⟨⟨hregs, htap, -⟩, hdone, hkept⟩ := storeBytes_reads a bs hclean 0 (s.openWord a)
    (fun i hi => hoopen _ (by omega))
  have hgo : writePiece s who a bs = (bs.zipIdx 0).foldl (fun s p => s.storeByte (a + p.2) p.1) (s.openWord a) := by
    rw [hpiece, writeWord, hmem]
    dsimp only
    rw [hcount, putWord, hawait, flipApply, hmem]
    refine if_neg fun hc => hc.1 ?_
    rw [State.rdF, State.rd, hregs, horegs]
    exact hflip
  dsimp only
  rw [hgo]
  refine ⟨⟨hregs.trans horegs, htap.trans hotap⟩, fun i hi => ?_, fun b hb => ?_⟩
  · have h := hdone i hi
    rwa [Nat.zero_add] at h
  · rw [hkept b (by omega), horead]

/-! ### A word written by the port (R339) -/

/-- A word written to quiet SRAM, in one piece or two. -/
theorem busWrite_sram {s : State} (hq : sramQuiet s = true) (who : Nat) {a : Nat} (hlo : 0x20000000 ≤ a) (hhi : a + 3 < 0x20400000)
    {bs : List (Byte × Bool)} (hlen : bs.length = 4) (hclean : ∀ x ∈ bs, x.2 = false) :
    (busWrite s who a bs).tap = s.tap ∧ (busWrite s who a bs).bytesAt a 4 = bs := by
  have hper : periph a = false := by
    simp [periph]
    omega
  suffices h : (busWrite s who a bs).tap = s.tap ∧ ∀ i (hi : i < bs.length), (busWrite s who a bs).byteAt (a + i) = bs[i] by
    refine ⟨h.1, List.ext_getElem (by simp [State.bytesAt, hlen]) fun i h1 h2 => ?_⟩
    rw [← h.2 i h2]
    simp [State.bytesAt]
  by_cases hone : a % 8 + 4 ≤ 8
  · have hpieces : pieces 8 4 a 4 = [(a, 4)] := by
      rw [pieces, if_neg (by decide), show Nat.min 4 (8 - a % 8) = 4 from Nat.min_eq_left (by omega)]
      rfl
    have hgo : busWrite s who a bs = writePiece s who a bs := by
      rw [busWrite, hper, hlen]
      simp only [Bool.false_eq_true, if_false, hpieces, List.foldl_cons, List.foldl_nil]
      rw [List.take_of_length_le (by omega)]
    obtain ⟨⟨-, htap⟩, hdone, -⟩ := writePiece_sram hq who hlo (by omega) (by omega : a % 8 + bs.length ≤ 8) hclean
    rw [hgo]
    exact ⟨htap, hdone⟩
  · set k := 8 - a % 8 with hk
    have hk4 : k < 4 := by omega
    have hpieces : pieces 8 4 a 4 = [(a, k), (a + k, 4 - k)] := by
      rw [pieces, if_neg (by decide), show Nat.min 4 (8 - a % 8) = k from Nat.min_eq_right (by omega)]
      dsimp only
      rw [pieces, if_neg (by omega), show Nat.min (4 - k) (8 - (a + k) % 8) = 4 - k from Nat.min_eq_left (by omega)]
      dsimp only
      rw [pieces, if_pos (by omega)]
    have hgo : busWrite s who a bs = writePiece (writePiece s who a (bs.take k)) who (a + k) (bs.drop k) := by
      rw [busWrite, hper, hlen]
      simp only [Bool.false_eq_true, if_false, hpieces, List.foldl_cons, List.foldl_nil]
      rw [List.take_of_length_le (l := bs.drop k) (by simp; omega)]
    obtain ⟨⟨hregs1, htap1⟩, hdone1, -⟩ := writePiece_sram hq who hlo (by omega)
      (show a % 8 + (bs.take k).length ≤ 8 by simp; omega) (fun x hx => hclean x (List.mem_of_mem_take hx))
    obtain ⟨⟨-, htap2⟩, hdone2, hkept2⟩ := writePiece_sram (sramQuiet_congr hregs1 hq) who (show 0x20000000 ≤ a + k by omega)
      (by omega) (show (a + k) % 8 + (bs.drop k).length ≤ 8 by simp; omega) (fun x hx => hclean x (List.mem_of_mem_drop hx))
    rw [hgo]
    refine ⟨htap2.trans htap1, fun i hi => ?_⟩
    by_cases hik : i < k
    · rw [hkept2 _ (Or.inl (by omega)), hdone1 i (by simp; omega), List.getElem_take]
    · have h := hdone2 (i - k) (by simp; omega)
      rw [show a + k + (i - k) = a + i by omega] at h
      rw [h, List.getElem_drop]
      congr 1
      omega

theorem loadValue_wordBytes (w : Word) : loadValue (wordBytes w false) false = (w, false) := by
  have hle : leNat ((wordBytes w false).map (·.1)) = w.toNat := by
    have hw := w.isLt
    simp [wordBytes, leNat, List.range_succ]
    omega
  have hany : (wordBytes w false).any (·.2) = false := by
    simp [wordBytes]
  unfold loadValue
  dsimp only
  rw [hle, hany]
  simp [wd]

/-- The port's word in SRAM reaches no further than SRAM. -/
theorem hostReach_sram {s : State} {a : Nat} (h : hostReach s .store a 4 = true) (hlo : 0x20000000 ≤ a) (hhi : a < 0x20400000) :
    a + 3 < 0x20400000 := by
  have hper : periph a = false := by
    simp [periph]
    omega
  rw [hostReach, hper, if_neg (by decide), List.all_eq_true] at h
  have h3 := h 3 (by decide)
  by_contra hge
  have hb : busOk s .store (a + 3) 1 = false := by
    unfold busOk
    rw [if_neg (by omega), if_neg (by simp [hwWindow]; omega), if_neg (by omega), if_neg (by omega), if_neg (by omega),
      if_neg (by omega)]
    simp [periph]
  rw [hb] at h3
  simp at h3

theorem dbgWrite_acts (addr data : Word) {s : State} (hoff : s.fm.reset ≠ .off) {early : Bool} (hb : dbgBusy s early = false)
    (hd : (s.dark || tapLimited s) = false) :
    (hostReach s .store addr.toNat 4 = false →
      exec (.dbgWrite addr data early) s = .next (dbgDone (scanned s (scanIn 2 addr data 0)) 2 0 0)) ∧
    (hostReach s .store addr.toNat 4 = true → 0x20000000 ≤ addr.toNat → addr.toNat < 0x20400000 → sramQuiet s = true →
      ∃ t, exec (.dbgWrite addr data early) s = .next t ∧ t.tap = (dbgDone (scanned s (scanIn 2 addr data 0)) 0 0 0).tap ∧
        loadValue (t.bytesAt addr.toNat 4) false = (data, false)) := by
  set u := scanned s (scanIn 2 addr data 0) with hu
  have hgo := dbgOp_acts hoff hb (op := 2) (addr := addr) (data := data) (tgt := 0) (dbgRefusal_none hd _ _) fun s =>
    if !hostReach s .store addr.toNat 4 then dbgDone s 2 0 0 else dbgDone (busWrite s 517 addr.toNat (wordBytes data false)) 0 0 0
  rw [← hu, show hostReach u .store addr.toNat 4 = hostReach s .store addr.toNat 4 from rfl] at hgo
  refine ⟨fun h => ?_, fun h hlo hhi hq => ?_⟩
  · rw [h] at hgo
    exact hgo
  · rw [h] at hgo
    obtain ⟨htap, hbytes⟩ := busWrite_sram (s := u) hq 517 hlo (hostReach_sram h hlo hhi) (bs := wordBytes data false) rfl
      (by simp [wordBytes])
    refine ⟨_, hgo, ?_, ?_⟩
    · show ({ (busWrite u 517 addr.toNat (wordBytes data false)).tap with status := 0, data := 0, poison := 0 } : TapS) = _
      rw [htap]
      rfl
    · show loadValue ((busWrite u 517 addr.toNat (wordBytes data false)).bytesAt addr.toNat 4) false = _
      rw [hbytes, loadValue_wordBytes]

end Sys2Proof.Proofs
end

section
namespace Sys2Proof.Proofs
open Sys2Proof Sys2Proof.Machine Sys2Proof.Safety Sys2Proof.Laws

/-! ### SEC_DBG (R341) -/

theorem setDbg_rest (s : State) (st : Nat) : { setDbg s st with regs := s.regs } = s := by
  unfold setDbg
  split <;> rfl

theorem setDbg_cores (s : State) (st : Nat) : (setDbg s st).cores = s.cores := by
  have g := congrArg State.cores (setDbg_rest s st); exact g

theorem setDbg_tap (s : State) (st : Nat) : (setDbg s st).tap = s.tap := by
  have g := congrArg State.tap (setDbg_rest s st); exact g

theorem setDbg_regs (s : State) (st : Nat) : KeepsRegs [.secDbg] s (setDbg s st) := by
  have wr (t : State) {v : Word} : KeepsRegs [.secDbg] t (t.wr .secDbg 0 0 v) := .wr v (by decide) (by decide) (by decide)
  unfold setDbg
  split
  · exact .refl s
  · exact (wr s).trans (wr _)

theorem setDbg_state (s : State) {st : Nat} (h : st < 4) : (setDbg s st).rdF .secDbg 0 0 1 0 = st := by
  unfold setDbg
  split
  next h0 => exact h0
  · rw [State.rdF, rd_setB_same, rd_wrF_same, fld_setBit_ne _ _ _ _ _ (by decide) (by decide), fld_setFld_same _ _ _ _ (by decide)]
    exact Nat.mod_eq_of_lt h

/-- A change of the state keeps SVH. -/
theorem setDbg_svh (s : State) (st : Nat) {b : Nat} (hl : 2 ≤ b) (hh : b < 6) :
    (setDbg s st).bit .secDbg 0 0 b = s.bit .secDbg 0 0 b := by
  unfold setDbg
  split
  · rfl
  · rw [State.bit, rd_setB_same, rd_wrF_same, bitOf_setBit _ _ _ _ (by omega), if_neg (by omega), bitOf_setFld _ _ _ _ _ (by omega),
      if_neg (by omega), State.bit]

/-! ### Cores halt and resume (R183, R339) -/

/-- The state but what a halt changes. -/
def beyondHalt (s : State) : State := (beyondRows s).1

/-- The cores of `l` are halted, or resume; of the rest only SEC_DBG's flags and what a row's slot starts differ. -/
structure HaltSet (b : Bool) (l : List Nat) (s t : State) : Prop where
  only : Only beyondHalt (.secDbg :: rowRegs) s t
  halted : ∀ j, (t.core j).halted = if j ∈ l then b else (s.core j).halted
  dbg : t.rdF .secDbg 0 0 1 0 = s.rdF .secDbg 0 0 1 0

namespace HaltSet

variable {b : Bool} {l : List Nat} {s t : State}

theorem tap (h : HaltSet b l s t) : t.tap = s.tap := by have g := congrArg State.tap h.only.rest; exact g

theorem foldl {f : State → Nat → State} (l : List Nat) (s : State) (h : ∀ t, ∀ c ∈ l, HaltSet b [c] t (f t c)) :
    HaltSet b l s (l.foldl f s) := by
  induction l generalizing s with
  | nil => exact ⟨.refl .., fun j => by simp, rfl⟩
  | cons c l ih =>
    have h1 := h s c (List.mem_cons_self ..)
    have h2 := ih (f s c) fun t d hd => h t d (List.mem_cons_of_mem _ hd)
    rw [List.foldl_cons]
    refine ⟨h1.only.trans h2.only, fun j => ?_, h2.dbg.trans h1.dbg⟩
    rw [h2.halted, h1.halted]
    by_cases hj : j ∈ l
    · simp [hj]
    · simp [hj]

end HaltSet

theorem RowsOnly.flags {s t : State} (h : RowsOnly s t) (c : Nat) :
    (t.core c).halted = (s.core c).halted ∧ (t.core c).stepOne = (s.core c).stepOne := by
  have g := congrFun (congrArg Prod.snd h.rest) c
  exact Prod.mk.injEq .. ▸ g

theorem RowsOnly.beyondHalt {s t : State} (h : RowsOnly s t) : beyondHalt t = beyondHalt s := congrArg Prod.fst h.rest

/-- A core's debug flags change. -/
def flagged (s : State) (c : Nat) (b : Bool) : State := s.setCore c { s.core c with halted := b, stepOne := false }

theorem flagged_halted (s : State) (c : Nat) (b : Bool) (j : Nat) :
    ((flagged s c b).core j).halted = if j = c then b else (s.core j).halted := by
  rw [flagged, core_setCore]
  split <;> rfl

theorem setHalt_sets (s : State) (c : Nat) (b : Bool) : HaltSet b [c] s (setHalt s c b) := by
  have hf (j : Nat) : ((flagged s c b).core j).halted = if j ∈ [c] then b else (s.core j).halted := by
    rw [flagged_halted]
    simp only [List.mem_singleton]
  by_cases h : 512 ≤ c
  · have hgo : setHalt s c b = (flagged s c b).wrB .secDbg 0 0 (2 + (c - 512)) b := if_pos h
    rw [hgo]
    refine ⟨⟨rfl, (KeepsRegs.of_regs_eq rfl : KeepsRegs _ s (flagged s c b)).trans
      (.wrB _ b (List.mem_cons_self ..) (by decide) (by decide))⟩, hf, ?_⟩
    rw [State.rdF, rd_wrB_same, fld_setBit_ne _ _ _ _ _ (by decide) (by omega)]
    rfl
  · have hgo : setHalt s c b =
        match slotOf (flagged s c b) c with | some x => tryStart (flagged s c b) (c / 8) x | none => flagged s c b :=
      if_neg h
    have hr : RowsOnly (flagged s c b) (setHalt s c b) := by
      rw [hgo]
      split
      · exact tryStart_rowsOnly ..
      · exact .refl ..
    refine ⟨⟨hr.beyondHalt.trans rfl, ((KeepsRegs.of_regs_eq rfl : KeepsRegs _ s (flagged s c b)).trans
      (hr.regs.mono (List.subset_cons_self ..)))⟩, fun j => by rw [(hr.flags j).1, hf], ?_⟩
    rw [hr.rdF 1 0 (by decide)]
    rfl

/-- A supervisor's SVH follows. -/
theorem setHalt_svh (s : State) {k : Nat} (hk : k < 4) (b : Bool) : (setHalt s (512 + k) b).bit .secDbg 0 0 (2 + k) = b := by
  have hgo : setHalt s (512 + k) b = (flagged s (512 + k) b).wrB .secDbg 0 0 (2 + (512 + k - 512)) b := if_pos (Nat.le_add_right ..)
  rw [hgo, Nat.add_sub_cancel_left, State.bit, rd_wrB_same, bitOf_setBit _ _ _ _ (by omega), if_pos rfl]

/-- A halted core resumes. -/
def resumeCore (s : State) (c : Nat) : State := if (s.core c).halted then setHalt s c false else s

theorem resumeCore_sets (s : State) (c : Nat) : HaltSet false [c] s (resumeCore s c) := by
  unfold resumeCore
  split
  · exact setHalt_sets s c false
  next h =>
    refine ⟨.refl .., fun j => ?_, rfl⟩
    split
    next hj => rw [List.mem_singleton.1 hj]; simpa using h
    · rfl

theorem haltAll_sets (s : State) (l : List Nat) : HaltSet true l s (l.foldl (fun s c => setHalt s c true) s) :=
  .foldl l s fun t c _ => setHalt_sets t c true

theorem resumeAll_sets (s : State) (l : List Nat) : HaltSet false l s (l.foldl resumeCore s) :=
  .foldl l s fun t c _ => resumeCore_sets t c

theorem dbgTargets_sv {tgt : BitVec 4} (h : tgt.toNat < 4) (addr : Word) : dbgTargets tgt addr = some [512 + tgt.toNat] := if_pos h

theorem dbgTargets_all (addr : Word) : dbgTargets 4 addr = some (List.range 516) := rfl

theorem dbgTargets_none {tgt : BitVec 4} (h8 : tgt ≠ 8) (h4 : 4 < tgt.toNat) (addr : Word) : dbgTargets tgt addr = none := by
  have h8' : tgt.toNat ≠ 8 := fun h => h8 (BitVec.eq_of_toNat_eq h)
  unfold dbgTargets
  rw [if_neg (by omega), if_neg (by omega), if_neg h8']

/-! ### The quiet halt (R41, R341) -/

/-- The cores and the port. -/
def coresTap (s : State) : Tbl CoreS × TapS := (s.cores, s.tap)

theorem LanesOnly.onlyCoresTap {s t : State} (h : LanesOnly s t) {rs : List Reg} (hs : laneRegs ⊆ rs) : Only coresTap rs s t :=
  ⟨by have g := congrArg coresTap h.rest; exact g, h.regs.mono hs⟩

theorem disableAll_coresTap (s : State) : Only coresTap (.lnCtl :: laneRegs) s (disableAll s) := by
  refine .forN s fun t n hn => ?_
  rw [disableLane_eq]
  refine .ite ?_ (.refl ..)
  have h1 : Only coresTap (.lnCtl :: laneRegs) t (t.clrB .lnCtl n 0 0) := .wr rfl (List.mem_cons_self ..) hn (by decide)
  have h2 : Only coresTap (.lnCtl :: laneRegs) (t.clrB .lnCtl n 0 0) ((t.clrB .lnCtl n 0 0).wr .lnOwed n 0 0) :=
    .wr rfl (by decide) hn (by decide)
  have h3 : Only coresTap (.lnCtl :: laneRegs) ((t.clrB .lnCtl n 0 0).wr .lnOwed n 0 0) (laneOff t n) := .of_regs_eq rfl rfl
  exact ((h1.trans h2).trans h3).trans ((settle_lanesOnly _ hn).onlyCoresTap (List.subset_cons_self ..))

theorem enterLf_coresTap (s : State) : Only coresTap (.tbStat :: laneRegs) s (enterLf s) := by
  have wr (t : State) {v : Word} : Only coresTap (.tbStat :: laneRegs) t (t.wr .tbStat 0 0 v) :=
    .wr rfl (List.mem_cons_self ..) (by decide) (by decide)
  unfold enterLf
  extract_lets u
  have hu : Only coresTap (.tbStat :: laneRegs) s u := ((wr s).trans (wr _)).trans (wr _)
  generalize hw : ({ u with sds := _, tb := _ } : State) = w
  have hc : Only coresTap (.tbStat :: laneRegs) u w := .of_regs_eq (by rw [← hw]; rfl) (by rw [← hw])
  exact (hu.trans hc).trans ((settleAll_lanesOnly w).onlyCoresTap (List.subset_cons_self ..))

theorem quietLf_coresTap (s : State) : Only coresTap (.tbStat :: laneRegs) s (quietLf s) := by
  unfold quietLf
  refine .ite (.ite ?_ (enterLf_coresTap s)) (.refl ..)
  have h : Only coresTap (.tbStat :: laneRegs) s { s with tb := { s.tb with leaving := false } } := .of_regs_eq rfl rfl
  exact h.trans (.wr rfl (List.mem_cons_self ..) (by decide) (by decide))

/-- With QHLF a locked loop stops in a quiet halt. -/
theorem quietLf_stops {s : State} (hq : s.rdF .secDbg 0 0 1 0 = 3) (hc : s.bit .tbCtl 0 0 2 = true)
    (hl : s.bit .tbStat 0 0 0 = true) : (quietLf s).bit .tbStat 0 0 1 = true ∧ (quietLf s).bit .tbStat 0 0 0 = false := by
  cases hlf : s.bit .tbStat 0 0 1 with
  | false =>
    rw [quietLf_enters hq hc hl hlf, State.bit, State.bit, (enterLf_spec s).1]
    simp [bitOf_setBit]
  | true =>
    set u : State := { s with tb := { s.tb with leaving := false } } with hu
    have hgo : quietLf s = u.clrB .tbStat 0 0 0 := by
      rw [quietLf, if_pos (by simp [hq, hc, hl]), if_pos hlf]
    have h1 : bitOf (u.rd .tbStat 0 0) 1 = true := hlf
    rw [hgo, State.bit, State.bit, rd_clrB_same, bitOf_setBit _ _ _ _ (by decide), bitOf_setBit _ _ _ _ (by decide)]
    exact ⟨h1, rfl⟩

/-- Every lane disabled, Halted-Quiet, and low-frequency time where QHLF asks for it. -/
def quietHalt (s : State) : State := quietLf (setDbg (disableAll s) 3)

theorem quietHalt_spec (s : State) : coresTap (quietHalt s) = coresTap s ∧ (quietHalt s).rdF .secDbg 0 0 1 0 = 3 ∧
    (∀ n < 192, (quietHalt s).bit .lnCtl n 0 0 = false) ∧
    (s.bit .tbStat 0 0 0 = true → s.bit .tbCtl 0 0 2 = true →
      (quietHalt s).bit .tbStat 0 0 1 = true ∧ (quietHalt s).bit .tbStat 0 0 0 = false) := by
  have hd := disableAll_coresTap s
  obtain ⟨⟨-, -, hstat⟩, hoff⟩ := disableAll_spec s
  have hs := setDbg_regs (disableAll s) 3
  have hst := setDbg_state (disableAll s) (show 3 < 4 by decide)
  have hct : coresTap (setDbg (disableAll s) 3) = coresTap (disableAll s) := Prod.ext (setDbg_cores ..) (setDbg_tap ..)
  have hq := quietLf_coresTap (setDbg (disableAll s) 3)
  refine ⟨(hq.rest.trans hct).trans hd.rest, (hq.rdF 1 0 (by decide)).trans hst, fun n hn => ?_, fun hl hc => ?_⟩
  · rw [quietHalt, hq.regs.bit 0 (by decide) hn (by decide), hs.bit 0 (by decide) hn (by decide), hoff n hn]
  · refine quietLf_stops hst ?_ ?_
    · rw [hs.bit 2 (by decide) (by decide) (by decide), hd.bit 2 (by decide), hc]
    · rw [hs.bit 0 (by decide) (by decide) (by decide), State.bit, hstat]
      exact hl

/-! ### Steps (R339) -/

/-- Every core of a list executes one instruction. -/
def stepAll (s : State) (l : List Nat) : State := l.foldl (fun s c => s.setCore c { s.core c with stepOne := true }) s

theorem stepAll_spec (s : State) (l : List Nat) : (stepAll s l).tap = s.tap ∧
    ∀ j, ((stepAll s l).core j).stepOne = (decide (j ∈ l) || (s.core j).stepOne) := by
  induction l generalizing s with
  | nil => exact ⟨rfl, fun j => by simp [stepAll]⟩
  | cons c l ih =>
    obtain ⟨htap, hstep⟩ := ih (s.setCore c { s.core c with stepOne := true })
    refine ⟨htap, fun j => ?_⟩
    have hgo : stepAll s (c :: l) = stepAll (s.setCore c { s.core c with stepOne := true }) l := rfl
    rw [hgo, hstep, core_setCore]
    by_cases hj : j = c
    · simp [hj]
    · simp [hj]

/-! ### A device reset by the port (R317) -/

theorem resetCore_reset (s : State) (rs : Word) : (resetCore s .device false false rs).fm.reset = .device := rfl

theorem resetCore_rstat (s : State) (rs : Word) : (resetCore s .device false false rs).rd .fmRstat 0 0 = rs := by
  unfold resetCore
  extract_lets c s1 b book sec cask fm fails dbg s2 a1 a2 a3 a4
  show a4.rd .fmRstat 0 0 = rs
  simp [a4, a3]

theorem fld_rstat (old : Word) {last : Nat} (h0 : last ≠ 0) (h8 : last < 8) {flag : Nat} (hf : 3 ≤ flag) :
    fld (rstat old last none flag) 2 0 = last := by
  rw [rstat, if_neg h0]
  dsimp only
  rw [fld_setFld_ne _ _ _ _ _ _ (by decide) (by decide), fld_setBit_ne _ _ _ _ _ (by decide) (by omega),
    fld_setFld_same _ _ _ _ (by decide)]
  exact Nat.mod_eq_of_lt h8

end Sys2Proof.Proofs
end

section
namespace Sys2Proof.Proofs
open Sys2Proof Sys2Proof.Machine Sys2Proof.Safety Sys2Proof.Laws

/-! ### The operations that change cores and the debug state (R339–R341) -/

/-- The port shows the result of an operation that leaves the port alone. -/
theorem dbgDone_tap {s t : State} (h : t.tap = s.tap) (st : Nat) (data : Word) (p : Nat) :
    (dbgDone t st data p).tap = (dbgDone s st data p).tap := by
  rw [dbgDone, dbgDone, h]

section Acts

variable {s : State} (hoff : s.fm.reset ≠ .off) {early : Bool} (hb : dbgBusy s early = false)
  (hd : (s.dark || tapLimited s) = false)
include hoff hb hd

theorem dbgAttach_acts : ∃ t, exec (.dbgAttach early) s = .next t ∧ t.tap = (dbgDone (scanned s (scanIn 3 0 0 0)) 0 0 0).tap ∧
    t.rdF .secDbg 0 0 1 0 = if s.rdF .secDbg 0 0 1 0 = 0 then 1 else s.rdF .secDbg 0 0 1 0 := by
  set u := scanned s (scanIn 3 0 0 0) with hu
  refine ⟨_, dbgOp_acts hoff hb (dbgRefusal_none hd _ _) _, ?_⟩
  rw [← hu, show s.rdF .secDbg 0 0 1 0 = u.rdF .secDbg 0 0 1 0 from rfl]
  split
  · exact ⟨dbgDone_tap (setDbg_tap u 1) 0 0 0, setDbg_state u (by decide)⟩
  · exact ⟨rfl, rfl⟩

theorem dbgDetach_acts : ∃ t, exec (.dbgDetach early) s = .next t ∧ t.tap = (dbgDone (scanned s (scanIn 4 0 0 0)) 0 0 0).tap ∧
    t.rdF .secDbg 0 0 1 0 = 0 ∧ ∀ c < 516, (t.core c).halted = false := by
  set u := scanned s (scanIn 4 0 0 0) with hu
  have h := resumeAll_sets u (List.range 516)
  generalize hv : (List.range 516).foldl resumeCore u = v at h
  have hgo : exec (.dbgDetach early) s = .next (dbgDone (setDbg v 0) 0 0 0) := by
    rw [← hv]
    exact dbgOp_acts hoff hb (dbgRefusal_none hd _ _) _
  refine ⟨_, hgo, dbgDone_tap ((setDbg_tap v 0).trans h.tap) 0 0 0, setDbg_state v (by decide), fun c hc => ?_⟩
  show (tget coreDef (setDbg v 0).cores c).halted = false
  rw [setDbg_cores]
  exact (h.halted c).trans (if_pos (List.mem_range.2 hc))

theorem dbgHalt_sv {tgt : BitVec 4} (addr : Word) (h4 : tgt.toNat < 4) : ∃ t, exec (.dbgHalt tgt addr early) s = .next t ∧
    t.tap = (dbgDone (scanned s (scanIn 5 addr 0 tgt)) 0 0 0).tap ∧ (t.core (512 + tgt.toNat)).halted = true ∧
    t.bit .secDbg 0 0 (2 + tgt.toNat) = true := by
  set u := scanned s (scanIn 5 addr 0 tgt) with hu
  have hne : tgt ≠ 4 := fun e => by subst e; exact absurd h4 (by decide)
  have h := setHalt_sets u (512 + tgt.toNat) true
  have hsvh := setHalt_svh u h4 true
  generalize hv : setHalt u (512 + tgt.toNat) true = v at h hsvh
  have hgo : exec (.dbgHalt tgt addr early) s = .next (dbgDone (if v.rdF .secDbg 0 0 1 0 = 3 then v else setDbg v 2) 0 0 0) := by
    refine (dbgOp_acts hoff hb (dbgRefusal_none hd _ _) _).trans ?_
    rw [dbgTargets_sv h4]
    dsimp only
    rw [if_neg hne, List.foldl_cons, List.foldl_nil, ← hu, hv]
  have hhalt : (v.core (512 + tgt.toNat)).halted = true := (h.halted _).trans (if_pos (List.mem_singleton.2 rfl))
  refine ⟨_, hgo, ?_⟩
  split
  · exact ⟨dbgDone_tap h.tap 0 0 0, hhalt, hsvh⟩
  · refine ⟨dbgDone_tap ((setDbg_tap v 2).trans h.tap) 0 0 0, ?_, (setDbg_svh v 2 (by omega) (by omega)).trans hsvh⟩
    show (tget coreDef (setDbg v 2).cores _).halted = true
    rw [setDbg_cores]
    exact hhalt

theorem dbgResume_sv {tgt : BitVec 4} (addr : Word) (h4 : tgt.toNat < 4) : ∃ t, exec (.dbgResume tgt addr early) s = .next t ∧
    t.tap = (dbgDone (scanned s (scanIn 6 addr 0 tgt)) 0 0 0).tap ∧ (t.core (512 + tgt.toNat)).halted = false := by
  set u := scanned s (scanIn 6 addr 0 tgt) with hu
  have h := resumeCore_sets u (512 + tgt.toNat)
  generalize hv : resumeCore u (512 + tgt.toNat) = v at h
  have hgo : exec (.dbgResume tgt addr early) s =
      .next (dbgDone (if anyHalted u && !anyHalted v then setDbg v 1 else v) 0 0 0) := by
    refine (dbgOp_acts hoff hb (dbgRefusal_none hd _ _) _).trans ?_
    rw [dbgTargets_sv h4, ← hv]
    rfl
  have hhalt : (v.core (512 + tgt.toNat)).halted = false := (h.halted _).trans (if_pos (List.mem_singleton.2 rfl))
  refine ⟨_, hgo, ?_⟩
  split
  · refine ⟨dbgDone_tap ((setDbg_tap v 1).trans h.tap) 0 0 0, ?_⟩
    show (tget coreDef (setDbg v 1).cores _).halted = false
    rw [setDbg_cores]
    exact hhalt
  · exact ⟨dbgDone_tap h.tap 0 0 0, hhalt⟩

/-- DBG_STEP of the cores `cs` that TGT and ADDR name. -/
theorem dbgStep_acts {tgt : BitVec 4} {addr : Word} {cs : List Nat} (ht : (dbgTargets tgt addr).getD [] = cs) :
    ∃ t, exec (.dbgStep tgt addr early) s = .next t ∧
      t.tap = (dbgDone (scanned s (scanIn 7 addr 0 tgt)) (if cs.any (fun c => (s.core c).halted) then 0 else 2) 0 0).tap ∧
      ∀ j ∈ cs, (t.core j).stepOne = ((s.core j).halted || (s.core j).stepOne) := by
  set u := scanned s (scanIn 7 addr 0 tgt) with hu
  have huc (c : Nat) : u.core c = s.core c := rfl
  have hgo : exec (.dbgStep tgt addr early) s = .next (if cs.filter (fun c => (s.core c).halted) = [] then dbgDone u 2 0 0
      else dbgDone (stepAll u (cs.filter (fun c => (s.core c).halted))) 0 0 0) := by
    refine (dbgOp_acts hoff hb (dbgRefusal_none hd _ _) _).trans ?_
    rw [ht]
    rfl
  obtain ⟨htap, hstep⟩ := stepAll_spec u (cs.filter (fun c => (s.core c).halted))
  have hany : cs.any (fun c => (s.core c).halted) = true ↔ cs.filter (fun c => (s.core c).halted) ≠ [] := by
    simp [List.filter_eq_nil_iff]
  refine ⟨_, hgo, ?_, fun j hj => ?_⟩
  · by_cases h : cs.filter (fun c => (s.core c).halted) = []
    · rw [if_pos h, if_neg (fun g => hany.1 g h)]
    · rw [if_neg h, if_pos (hany.2 h)]
      exact dbgDone_tap htap 0 0 0
  · by_cases h : cs.filter (fun c => (s.core c).halted) = []
    · have hj' : (s.core j).halted = false := by simpa using List.filter_eq_nil_iff.1 h j hj
      rw [if_pos h, hj', Bool.false_or]
      rfl
    · rw [if_neg h]
      refine (hstep j).trans ?_
      rw [huc]
      simp [hj]

theorem dbgStep_sv {tgt : BitVec 4} (addr : Word) (h4 : tgt.toNat < 4) : ∃ t, exec (.dbgStep tgt addr early) s = .next t ∧
    t.tap = (dbgDone (scanned s (scanIn 7 addr 0 tgt)) (if (s.core (512 + tgt.toNat)).halted then 0 else 2) 0 0).tap ∧
    (t.core (512 + tgt.toNat)).stepOne = ((s.core (512 + tgt.toNat)).halted || (s.core (512 + tgt.toNat)).stepOne) := by
  obtain ⟨t, hgo, htap, hstep⟩ := dbgStep_acts hoff hb hd (tgt := tgt) (addr := addr)
    (congrArg (Option.getD · []) (dbgTargets_sv h4 addr))
  refine ⟨t, hgo, ?_, hstep _ (List.mem_singleton.2 rfl)⟩
  rw [htap]
  simp

theorem dbgStep_all (addr : Word) : ∃ t, exec (.dbgStep 4 addr early) s = .next t ∧
    t.tap = (dbgDone (scanned s (scanIn 7 addr 0 4)) (if anyN 516 (fun c => (s.core c).halted) then 0 else 2) 0 0).tap ∧
    ∀ c < 516, (t.core c).stepOne = ((s.core c).halted || (s.core c).stepOne) := by
  obtain ⟨t, hgo, htap, hstep⟩ := dbgStep_acts hoff hb hd (tgt := 4) (addr := addr) (cs := List.range 516)
    (by rw [dbgTargets_all, Option.getD_some])
  exact ⟨t, hgo, by rw [anyN]; exact htap, fun c hc => hstep c (List.mem_range.2 hc)⟩

/-- DBG_HALT with TGT 4, of the cores `cs`. -/
theorem dbgHalt_quiet {tgt : BitVec 4} {addr : Word} {cs : List Nat} (h4 : tgt = 4) (ht : dbgTargets tgt addr = some cs) :
    ∃ t, exec (.dbgHalt tgt addr early) s = .next t ∧
      t.tap = (dbgDone (scanned s (scanIn 5 addr 0 tgt)) 0 0 0).tap ∧ t.rdF .secDbg 0 0 1 0 = 3 ∧
      (∀ c ∈ cs, (t.core c).halted = true) ∧ (∀ n < 192, t.bit .lnCtl n 0 0 = false) ∧
      (s.bit .tbStat 0 0 0 = true → s.bit .tbCtl 0 0 2 = true → t.bit .tbStat 0 0 1 = true ∧ t.bit .tbStat 0 0 0 = false) := by
  set u := scanned s (scanIn 5 addr 0 tgt) with hu
  have h := haltAll_sets u cs
  generalize hv : cs.foldl (fun s c => setHalt s c true) u = v at h
  obtain ⟨hct, hdbg, hlanes, hlf⟩ := quietHalt_spec v
  have hgo : exec (.dbgHalt tgt addr early) s = .next (dbgDone (quietHalt v) 0 0 0) := by
    refine (dbgOp_acts hoff hb (dbgRefusal_none hd _ _) _).trans ?_
    rw [ht]
    dsimp only
    rw [if_pos h4, ← hu, hv]
    rfl
  generalize quietHalt v = q at hct hdbg hlanes hlf hgo
  have hcores : q.cores = v.cores := congrArg Prod.fst hct
  have htap : q.tap = u.tap := (congrArg Prod.snd hct).trans h.tap
  refine ⟨_, hgo, dbgDone_tap htap 0 0 0, hdbg, fun c hc => ?_, hlanes, fun hl hq => hlf ?_ ?_⟩
  · show (tget coreDef q.cores c).halted = true
    rw [hcores]
    exact (h.halted c).trans (if_pos hc)
  · rw [h.only.bit 0 (by decide)]
    exact hl
  · rw [h.only.bit 2 (by decide)]
    exact hq

theorem dbgHalt_all (addr : Word) : ∃ t, exec (.dbgHalt 4 addr early) s = .next t ∧
    t.tap = (dbgDone (scanned s (scanIn 5 addr 0 4)) 0 0 0).tap ∧ t.rdF .secDbg 0 0 1 0 = 3 ∧
    (∀ c < 516, (t.core c).halted = true) ∧ (∀ n < 192, t.bit .lnCtl n 0 0 = false) ∧
    (s.bit .tbStat 0 0 0 = true → s.bit .tbCtl 0 0 2 = true → t.bit .tbStat 0 0 1 = true ∧ t.bit .tbStat 0 0 0 = false) := by
  obtain ⟨t, hgo, htap, hdbg, hhalt, hrest⟩ := dbgHalt_quiet hoff hb hd rfl (dbgTargets_all addr)
  exact ⟨t, hgo, htap, hdbg, fun c hc => hhalt c (List.mem_range.2 hc), hrest⟩

/-- A TGT outside the list is an error. -/
theorem dbgTarget_error {tgt : BitVec 4} (addr : Word) (h8 : tgt ≠ 8) (h4 : 4 < tgt.toNat) :
    exec (.dbgHalt tgt addr early) s = .next (dbgDone (scanned s (scanIn 5 addr 0 tgt)) 2 0 0) ∧
      exec (.dbgResume tgt addr early) s = .next (dbgDone (scanned s (scanIn 6 addr 0 tgt)) 2 0 0) ∧
      exec (.dbgStep tgt addr early) s = .next (dbgDone (scanned s (scanIn 7 addr 0 tgt)) 2 0 0) := by
  have hn := dbgTargets_none h8 h4 addr
  refine ⟨(dbgOp_acts hoff hb (dbgRefusal_none hd _ _) _).trans ?_, (dbgOp_acts hoff hb (dbgRefusal_none hd _ _) _).trans ?_,
    (dbgOp_acts hoff hb (dbgRefusal_none hd _ _) _).trans ?_⟩
  · rw [hn]
  · rw [hn]
  · rw [hn]
    rfl

theorem dbgReset_acts (data : Word) : ∃ t, exec (.dbgReset data early) s = .next t ∧ t.fm.reset = .device ∧
    t.rdF .fmRstat 0 0 2 0 = 5 ∧ t.fm.haltSv0 = bitOf data 0 := by
  set u := dbgDone (scanned s (scanIn 9 0 data 0)) 0 0 0 with hu
  have hdark : s.dark = false := (Bool.or_eq_false_iff.1 hd).1
  have hr : u.fm.reset = .none := by
    have h := (Bool.or_eq_false_iff.1 hdark).1
    show s.fm.reset = .none
    simpa using h
  have hreset : deviceReset u 5 11 = resetCore u .device false false (rstat (u.rd .fmRstat 0 0) 5 none 11) :=
    if_neg (by simp [hr])
  have hphase := resetCore_reset u (rstat (u.rd .fmRstat 0 0) 5 none 11)
  have hlast := resetCore_rstat u (rstat (u.rd .fmRstat 0 0) 5 none 11)
  rw [← hreset] at hphase hlast
  refine ⟨_, dbgOp_acts hoff hb (dbgRefusal_none hd _ _) _, hphase, ?_, rfl⟩
  show fld ((deviceReset u 5 11).rd .fmRstat 0 0) 2 0 = 5
  rw [hlast, fld_rstat _ (by decide) (by decide) (by decide)]

end Acts

/-- An operation outside 1–11. -/
theorem exec_dbgOpError {op : BitVec 4} (h : op = 0 ∨ 12 ≤ op.toNat) (early : Bool) (s : State) : exec (.dbgOpError op early) s =
    .next (dbgOp s early (scanIn op 0 0 0) fun s => dbgDone s (if op = 0 then 0 else 2) 0 0) := by
  refine if_neg fun hc => ?_
  rcases h with h | h
  · exact hc.1 h
  · omega

/-- An operation that the port's limits or the core domain deny. -/
theorem dbgOp_denied {s : State} (hoff : s.fm.reset ≠ .off) {early : Bool} (hb : dbgBusy s early = false)
    (hd : (s.dark || tapLimited s) = true) {op : BitVec 4} {addr data : Word} {tgt : BitVec 4}
    (hop : ¬ (op.toNat = 0 ∨ op.toNat = 8 ∨ op.toNat = 10 ∨ op.toNat = 11 ∨ (op.toNat = 1 ∧ inSec addr.toNat))) (h3 : op.toNat ≠ 3)
    (f : State → State) : Host.Outcome.next (dbgOp s early (scanIn op addr data tgt) f) =
      (.next (dbgDone (scanned s (scanIn op addr data tgt)) (if tapLimited s then 3 else 4) 0 0) : Host.Outcome State Fault Refusal) :=
  dbgOp_refused hoff hb (dbgRefusal_denied hd hop h3) (by split <;> decide) f

/-- Settles O52: each scan by the dispatch of its operation; no access reads the port, and no operation but its own changes it. -/
theorem debugCommandsComplete : Obligations.debug_commands_complete := by
  unfold Obligations.debug_commands_complete
  refine ⟨fun pins load s hoff => ⟨jtagExtest_selects hoff, ?_, ?_, ?_, ?_⟩, fun op addr data tgt st p hs hp => ?_,
    fun early addr data tgt op random s hoff => ⟨fun hb => ?_, fun hb hd => ?_, fun hb => ?_, fun hb hd => ?_⟩⟩
  · exact ⟨_, congrArg Host.Outcome.next (tapTo_on hoff _ _), rfl, rfl, rfl, rfl, rfl⟩
  · exact ⟨_, congrArg Host.Outcome.next (tapTo_on hoff _ _), rfl, rfl, rfl⟩
  · exact ⟨_, congrArg Host.Outcome.next (tapTo_on hoff _ _), rfl, rfl, rfl⟩
  · exact ⟨_, congrArg Host.Outcome.next (tapTo_on hoff _ _), rfl, rfl, rfl⟩
  · exact ⟨⟨scanOp_scanIn .., scanIn_addr .., scanIn_data .., scanIn_tgt ..⟩, scanOut_fields hs hp data⟩
  · exact ⟨dbgOp_busy hoff hb _ _, dbgOp_busy hoff hb _ _, dbgOp_busy hoff hb _ _, dbgOp_busy hoff hb _ _, dbgOp_busy hoff hb _ _,
      dbgOp_busy hoff hb _ _, dbgOp_busy hoff hb _ _, dbgOp_busy hoff hb _ _, dbgOp_busy hoff hb _ _, dbgOp_busy hoff hb _ _,
      dbgOp_busy hoff hb _ _, fun h => (exec_dbgOpError h early s).trans (dbgOp_busy hoff hb _ _)⟩
  · refine ⟨dbgOp_refused hoff hb (op := 3) (dbgRefusal_attach hd _) (by split_ifs <;> decide) _, dbgOp_denied hoff hb hd (by decide) (by decide) _,
      dbgOp_denied hoff hb hd (by simp) (by decide) _, dbgOp_denied hoff hb hd (by simp) (by decide) _,
      dbgOp_denied hoff hb hd (by simp) (by decide) _, dbgOp_denied hoff hb hd (by decide) (by decide) _,
      dbgOp_denied hoff hb hd (by simp) (by decide) _, fun ha => dbgOp_denied hoff hb hd (by simpa [inSec] using ha) (by decide) _,
      fun h12 => (exec_dbgOpError (.inr h12) early s).trans (dbgOp_denied hoff hb hd (by omega) (by omega) _)⟩
  · exact ⟨dbgOp_acts hoff hb (dbgRefusal_open s (by decide) _) _, dbgOp_acts hoff hb (dbgRefusal_open s (by decide) _) _,
      (exec_dbgOpError (.inl rfl) early s).trans (dbgOp_acts hoff hb (dbgRefusal_open s (by decide) _) _),
      dbgWriteResponse_acts addr data random hoff hb⟩
  · obtain ⟨hr0, hr⟩ := dbgRead_acts addr hoff hb hd
    obtain ⟨hw0, hw⟩ := dbgWrite_acts addr data hoff hb hd
    refine ⟨hr0, hr, hw0, hw, dbgAttach_acts hoff hb hd, dbgDetach_acts hoff hb hd,
      fun h4 => ⟨dbgHalt_sv hoff hb hd addr h4, dbgResume_sv hoff hb hd addr h4, dbgStep_sv hoff hb hd addr h4⟩,
      fun h4 => ?_, fun h8 h4 => dbgTarget_error hoff hb hd addr h8 h4, dbgReset_acts hoff hb hd data, fun h12 => ?_⟩
    · subst h4
      exact ⟨dbgHalt_all hoff hb hd addr, dbgStep_all hoff hb hd addr⟩
    · refine ((exec_dbgOpError (.inr h12) early s).trans (dbgOp_acts hoff hb (dbgRefusal_none hd _ _) _)).trans ?_
      rw [if_neg (fun h0 => by subst h0; exact absurd h12 (by decide))]
      rfl

end Sys2Proof.Proofs
end

section
namespace Sys2Proof.Proofs
open Sys2Proof Sys2Proof.Machine Sys2Proof.Safety Sys2Proof.Laws

/-! ### What leaves the lanes unchanged: one rule per operation -/

@[simp] theorem when_lanes (s : State) (b : Bool) (f : State → State) :
    (s.when b f).lanes = if b then (f s).lanes else s.lanes := by
  cases b <;> rfl

@[simp] theorem gate_lanes (s : State) (r : Reg) (i : Nat) (f : State → State) :
    (s.gate r i f).lanes = if s.regHeld r i then s.lanes else (f s).lanes := apply_ite ..

@[simp] theorem ite_lanes (c : Prop) [Decidable c] (s t : State) : (if c then s else t).lanes = if c then s.lanes else t.lanes :=
  apply_ite ..

@[simp] theorem foldl_lanes {α : Type} {f : State → α → State} (h : ∀ s a, (f s a).lanes = s.lanes) (l : List α) (s : State) :
    (l.foldl f s).lanes = s.lanes := by
  induction l generalizing s with
  | nil => rfl
  | cons a l ih => exact (ih _).trans (h s a)

@[simp] theorem forN_lanes {f : State → Nat → State} (h : ∀ s i, (f s i).lanes = s.lanes) (n : Nat) (s : State) :
    (s.forN n f).lanes = s.lanes := foldl_lanes h _ s

@[simp] theorem groupInputs_lanes {f : State → Nat → State} (h : ∀ s i, (f s i).lanes = s.lanes) (g : Nat) (s : State) :
    (groupInputs s g f).lanes = s.lanes := forN_lanes (fun s _ => h s _) 8 s

@[simp] theorem foldl2_lanes {α β : Type} {f : β × State → α → β × State} (h : ∀ x a, (f x a).2.lanes = x.2.lanes) (l : List α)
    (x : β × State) :
    (l.foldl f x).2.lanes = x.2.lanes := by
  induction l generalizing x with
  | nil => rfl
  | cons a l ih => exact (ih _).trans (h x a)

@[simp] theorem wr_lanes (s : State) (r : Reg) (i j : Nat) (v : Word) : (s.wr r i j v).lanes = s.lanes := rfl
@[simp] theorem wrF_lanes (s : State) (r : Reg) (i j hi lo v : Nat) : (s.wrF r i j hi lo v).lanes = s.lanes := rfl
@[simp] theorem wrB_lanes (s : State) (r : Reg) (i j b : Nat) (v : Bool) : (s.wrB r i j b v).lanes = s.lanes := rfl
@[simp] theorem setB_lanes (s : State) (r : Reg) (i j b : Nat) : (s.setB r i j b).lanes = s.lanes := rfl
@[simp] theorem clrB_lanes (s : State) (r : Reg) (i j b : Nat) : (s.clrB r i j b).lanes = s.lanes := rfl
@[simp] theorem incF_lanes (s : State) (r : Reg) (i j hi lo : Nat) : (s.incF r i j hi lo).lanes = s.lanes := rfl
@[simp] theorem wrCodes_lanes (s : State) (r : Reg) (i j : Nat) (v : Word) : (s.wrCodes r i j v).lanes = s.lanes := rfl
@[simp] theorem setCore_lanes (s : State) (n : Nat) (c : CoreS) : (s.setCore n c).lanes = s.lanes := rfl
@[simp] theorem setTrio_lanes (s : State) (t : Nat) (x : TrioS) : (s.setTrio t x).lanes = s.lanes := rfl
@[simp] theorem setTimer_lanes (s : State) (t : Nat) (x : TimerS) : (s.setTimer t x).lanes = s.lanes := rfl
@[simp] theorem setChan_lanes (s : State) (t c : Nat) (x : ChanS) : (s.setChan t c x).lanes = s.lanes := rfl
@[simp] theorem setSd_lanes (s : State) (i : Nat) (x : SdS) : (s.setSd i x).lanes = s.lanes := rfl
@[simp] theorem setSdg_lanes (s : State) (g : Nat) (x : SdG) : (s.setSdg g x).lanes = s.lanes := rfl
@[simp] theorem setAd_lanes (s : State) (k : Nat) (x : AdS) : (s.setAd k x).lanes = s.lanes := rfl
@[simp] theorem setGc_lanes (s : State) (n : Nat) (x : GcS) : (s.setGc n x).lanes = s.lanes := rfl
@[simp] theorem setSrc_lanes (s : State) (k : Nat) (b : Bool) : (s.setSrc k b).lanes = s.lanes := rfl
@[simp] theorem setEnc_lanes (s : State) (p : Nat) (x : EncS) : (s.setEnc p x).lanes = s.lanes := rfl
@[simp] theorem setSlot_lanes (s : State) (k x : Nat) (v : SlotS) : (s.setSlot k x v).lanes = s.lanes := rfl
@[simp] theorem setRow_lanes (s : State) (k : Nat) (x : RowS) : (s.setRow k x).lanes = s.lanes := rfl
@[simp] theorem setEact_lanes (s : State) (n : Nat) (x : EngAct) : (s.setEact n x).lanes = s.lanes := rfl
@[simp] theorem setMemS_lanes (s : State) (m : Nat) (x : MemS) : (s.setMemS m x).lanes = s.lanes := rfl
@[simp] theorem useFree_lanes (s : State) : (s.useFree).lanes = s.lanes := rfl

@[simp] theorem record_lanes (s : State) (code src : Nat) (p0 p1 p2 p3 : Word) :
    (s.record code src p0 p1 p2 p3).lanes = s.lanes := by
  simp [State.record]

@[simp] theorem irqEdge_lanes (s : State) (id : Nat) : (s.irqEdge id).lanes = s.lanes := by
  unfold State.irqEdge; (repeat' split) <;> rfl

@[simp] theorem fault_lanes (s : State) (b : Nat) : (s.fault b).lanes = s.lanes := rfl
@[simp] theorem msixSig_lanes (s : State) (n : Nat) : (s.msixSig n).lanes = s.lanes := by unfold State.msixSig; split <;> rfl
@[simp] theorem attn_lanes (s : State) (reason func : Nat) : (s.attn reason func).lanes = s.lanes := by simp [State.attn]
@[simp] theorem svBump_lanes (s : State) (n c : Nat) : (svBump s n c).lanes = s.lanes := by unfold svBump; split <;> rfl
@[simp] theorem rowBump_lanes (s : State) (k c : Nat) : (rowBump s k c).lanes = s.lanes := by unfold rowBump; split <;> rfl

@[simp] theorem countSvAt_lanes (priv : Bool) (s : State) (n cls e addr : Nat) :
    (countSvAt priv s n cls e addr).lanes = s.lanes := by
  simp [countSvAt]

@[simp] theorem countSv_lanes (s : State) (n cls e addr : Nat) : (countSv s n cls e addr).lanes = s.lanes := by simp [countSv]

@[simp] theorem countRow_lanes (s : State) (k cls e : Nat) (eng : Option Nat) : (countRow s k cls e eng).lanes = s.lanes := by
  simp [countRow]

@[simp] theorem countCore_lanes (s : State) (n cls e : Nat) (re : Option Nat) : (countCore s n cls e re).lanes = s.lanes := by
  unfold countCore; (repeat' split) <;> simp

@[simp] theorem countRowMem_lanes (s : State) (m who : Nat) : (countRowMem s m who).lanes = s.lanes := by simp [countRowMem]

@[simp] theorem countDone_lanes (own : Option Word) (priv : Bool) (s : State) (n : Nat) :
    (countDone own priv s n).lanes = s.lanes := by
  simp [countDone]

@[simp] theorem drawTag_lanes (s : State) (k : Nat) : (drawTag s k).lanes = s.lanes := rfl
@[simp] theorem setTags_lanes (s : State) (k : Nat) (ts : List TagRun) : (setTags s k ts).lanes = s.lanes := rfl

@[simp] theorem countIssue_lanes (s : State) (n idx pc waited : Nat) (done : Bool) :
    (countIssue s n idx pc waited done).lanes = s.lanes := by
  simp [countIssue]

@[simp] theorem dumpEvent_lanes (s : State) (src i : Nat) : (dumpEvent s src i).lanes = s.lanes := by simp [dumpEvent]

@[simp] theorem tagDone_lanes (s : State) (n idx : Nat) : (tagDone s n idx).lanes = s.lanes := by
  simp only [tagDone]; split <;> simp

@[simp] theorem dropTags_lanes (s : State) (n cut : Nat) : (dropTags s n cut).lanes = s.lanes := rfl
@[simp] theorem setStack_lanes (s : State) (n : Nat) (st : List (Nat × Nat)) : (s.setStack n st).lanes = s.lanes := rfl
@[simp] theorem setServ_lanes (s : State) (id v : Nat) : (s.setServ id v).lanes = s.lanes := rfl
@[simp] theorem clrEdge_lanes (s : State) (id : Nat) : (s.clrEdge id).lanes = s.lanes := rfl
@[simp] theorem irqClaim_lanes (s : State) (n : Nat) : (irqClaim s n).2.lanes = s.lanes := by unfold irqClaim; split <;> simp
@[simp] theorem stackFault_lanes (s : State) (n v top : Nat) : (stackFault s n v top).lanes = s.lanes := rfl

@[simp] theorem irqDone_lanes (s : State) (n v : Nat) : (irqDone s n v).lanes = s.lanes := by
  simp [irqDone]; (repeat' split) <;> simp_all

@[simp] theorem emptyStack_lanes (s : State) (n : Nat) : (emptyStack s n).lanes = s.lanes := by
  unfold emptyStack; exact foldl_lanes (by intros; rfl) ..

@[simp] theorem dropOwner_lanes (s : State) (n : Nat) : (dropOwner s n).lanes = s.lanes := by simp [dropOwner]
@[simp] theorem aexReport_lanes (s : State) (e bits : Nat) : (aexReport s e bits).lanes = s.lanes := by simp [aexReport]
@[simp] theorem resetIrq_lanes (s : State) : (resetIrq s).lanes = s.lanes := rfl
@[simp] theorem saveIrq_lanes (s : State) : (saveIrq s).lanes = s.lanes := rfl
@[simp] theorem restoreIrq_lanes (s : State) : (restoreIrq s).lanes = s.lanes := by unfold restoreIrq; split <;> rfl
@[simp] theorem swSet_lanes (s : State) (v : Word) : (swSet s v).lanes = s.lanes := by simp [swSet]
@[simp] theorem wrIrqAexr_lanes (s : State) (k : Nat) (v : Word) : (wrIrqAexr s k v).lanes = s.lanes := by simp [wrIrqAexr]
@[simp] theorem endVclr_lanes (s : State) (m : Nat) : (endVclr s m).lanes = s.lanes := by unfold endVclr; split <;> rfl

@[simp] theorem awaitClear_lanes (s : State) (a : Nat) : (awaitClear s a).lanes = s.lanes := by
  unfold awaitClear; split <;> simp

@[simp] theorem toRepair_lanes (s : State) (m w : Nat) : (toRepair s m w).lanes = s.lanes := rfl
@[simp] theorem countCe_lanes (s : State) (m w : Nat) : (countCe s m w).lanes = s.lanes := rfl
@[simp] theorem countUe_lanes (s : State) (m w : Nat) : (countUe s m w).lanes = s.lanes := by simp [countUe]
@[simp] theorem noteRead_lanes (s : State) (a n : Nat) : (noteRead s a n).lanes = s.lanes := by unfold noteRead; split <;> simp
@[simp] theorem readMem_lanes (s : State) (a n : Nat) : (readMem s a n).2.lanes = s.lanes := by simp [readMem]

@[simp] theorem readWords_lanes (f : Nat) : ∀ (s : State) (a n : Nat), (readWords f s a n).2.lanes = s.lanes := by
  induction f with
  | zero => exact fun _ _ _ => rfl
  | succ f ih => intro s a n; simp only [readWords]; split <;> simp [ih]

@[simp] theorem readLong_lanes (s : State) (a n : Nat) : (readLong s a n).2.lanes = s.lanes := readWords_lanes ..
@[simp] theorem putByte_lanes (s : State) (a : Nat) (d : Byte) (dev : BitVec 5) : (s.putByte a d dev).lanes = s.lanes := rfl

@[simp] theorem openWord_lanes (s : State) (a : Nat) : (s.openWord a).lanes = s.lanes := by
  unfold State.openWord; split
  · rfl
  · exact forN_lanes (by intros; rfl) ..

@[simp] theorem flipApply_lanes (s : State) (who a n : Nat) : (flipApply s who a n).lanes = s.lanes := by
  unfold flipApply; split <;> simp

@[simp] theorem putWord_lanes (s : State) (who a : Nat) (bs : List (Byte × Bool)) : (putWord s who a bs).lanes = s.lanes := by
  simp only [putWord, flipApply_lanes]
  exact (foldl_lanes (by intros; rfl) ..).trans (by simp)

@[simp] theorem writeWord_lanes (s : State) (who a : Nat) (bs : List (Byte × Bool)) :
    (writeWord s who a bs).lanes = s.lanes := by
  unfold writeWord; split <;> simp

@[simp] theorem writeMem_lanes (s : State) (who a : Nat) (bs : List (Byte × Bool)) : (writeMem s who a bs).lanes = s.lanes := by
  simp [writeMem]

@[simp] theorem clearAllValid_lanes (s : State) : (clearAllValid s).lanes = s.lanes := rfl

@[simp] theorem scrubByte_lanes (s : State) (a : Nat) : (scrubByte s a).lanes = s.lanes := by
  unfold scrubByte; (repeat' split) <;> rfl

@[simp] theorem scrubWord_lanes (s : State) (m w : Nat) (fresh : Bool) : (scrubWord s m w fresh).lanes = s.lanes := by
  simp [scrubWord]

@[simp] theorem lapEnd_lanes (s : State) (m : Nat) : (lapEnd s m).lanes = s.lanes := by simp [lapEnd]
@[simp] theorem wrMemCfg_lanes (s : State) (m : Nat) (v : Word) : (wrMemCfg s m v).lanes = s.lanes := by simp [wrMemCfg]

@[simp] theorem wrMemFlip_lanes (s : State) (who m : Nat) (v : Word) : (wrMemFlip s who m v).lanes = s.lanes := by
  simp [wrMemFlip]

@[simp] theorem ckPut_lanes (s : State) (e : Nat) (d : BitVec 64) (err : BitVec 80) : (s.ckPut e d err).lanes = s.lanes := rfl

@[simp] theorem ckRead_lanes (s : State) (e : Nat) : (ckRead s e).2.lanes = s.lanes := by
  fun_cases ckRead
  case case4 d u v _ =>
    have hv : v.lanes = s.lanes := by unfold v; rw [ite_lanes, wr_lanes]; exact ite_self _
    simp [hv]
  all_goals rfl

@[simp] theorem clearMirrors_lanes (s : State) (v : Nat) : (clearMirrors s v).lanes = s.lanes := by
  unfold clearMirrors; exact foldl_lanes (by intros; rfl) ..

@[simp] theorem copyHeader_lanes (s : State) (v : Nat) : (copyHeader s v).lanes = s.lanes := rfl
@[simp] theorem dirShow_lanes (s : State) (v st fc : Nat) : (dirShow s v st fc).lanes = s.lanes := by simp [dirShow]
@[simp] theorem dirGo_lanes (s : State) (v st fc : Nat) : (dirGo s v st fc).lanes = s.lanes := by simp [dirGo]
@[simp] theorem reject_lanes (s : State) : (reject s).lanes = s.lanes := rfl

@[simp] theorem wrCkDir_lanes (s : State) (v : Nat) (w : Word) : (wrCkDir s v w).lanes = s.lanes := by
  unfold wrCkDir; split <;> simp

@[simp] theorem wrCkDirr_lanes (s : State) (v : Nat) (w : Word) : (wrCkDirr s v w).lanes = s.lanes := by simp [wrCkDirr]
@[simp] theorem noteWrite_lanes (s : State) : (noteWrite s).lanes = s.lanes := rfl
@[simp] theorem eraseBlock_lanes (s : State) (b : Nat) : (eraseBlock s b).lanes = s.lanes := rfl
@[simp] theorem loadErr_lanes (s : State) (c : Nat) : (loadErr s c).lanes = s.lanes := rfl

@[simp] theorem loadFetch_lanes (s : State) (a n : Nat) : (loadFetch s a n).2.lanes = s.lanes := by
  unfold loadFetch; split <;> simp

@[simp] theorem loadEnd_lanes (s : State) : (loadEnd s).lanes = s.lanes := by simp only [loadEnd]; (repeat' split) <;> simp
@[simp] theorem loadHead_lanes (s : State) : (loadHead s).lanes = s.lanes := by simp [loadHead]
@[simp] theorem wrCkLdcnt_lanes (s : State) (w : Word) : (wrCkLdcnt s w).lanes = s.lanes := by simp [wrCkLdcnt]

@[simp] theorem wrCkLoadAddr_lanes (s : State) (r : Reg) (w : Word) : (wrCkLoadAddr s r w).lanes = s.lanes := by
  simp [wrCkLoadAddr]

@[simp] theorem takeFlip_lanes (s : State) : (takeFlip s).2.lanes = s.lanes := by unfold takeFlip; split <;> rfl
@[simp] theorem wrCkFlip_lanes (s : State) (r : Reg) (w : Word) : (wrCkFlip s r w).lanes = s.lanes := by simp [wrCkFlip]
@[simp] theorem wrCkCtl_lanes (s : State) (w : Word) : (wrCkCtl s w).lanes = s.lanes := by simp [wrCkCtl]

@[simp] theorem camRead_lanes (s : State) (a : Option Nat) (j : Nat) (mpos v : Word) :
    (camRead s a j mpos v).2.lanes = s.lanes := by
  unfold camRead
  split
  · rfl
  · split
    · rfl
    · exact (ckRead_lanes ..).trans (ckRead_lanes ..)

@[simp] theorem dropBlocks_lanes (s : State) : (dropBlocks s).lanes = s.lanes := by
  unfold dropBlocks; exact forN_lanes (by intros; rfl) ..

@[simp] theorem declineSwitch_lanes (s : State) (rsn : Nat) : (declineSwitch s rsn).lanes = s.lanes := by simp [declineSwitch]
@[simp] theorem armSwitch_lanes (s : State) (v : Nat) (c a : Word) : (armSwitch s v c a).lanes = s.lanes := by simp [armSwitch]
@[simp] theorem disarmSwitch_lanes (s : State) : (disarmSwitch s).lanes = s.lanes := by unfold disarmSwitch; split <;> simp
@[simp] theorem wrCkSwitch_lanes (s : State) (w : Word) : (wrCkSwitch s w).lanes = s.lanes := by simp [wrCkSwitch]

@[simp] theorem takeSwitch_lanes (s : State) : (takeSwitch s).lanes = s.lanes := by
  fun_cases takeSwitch
  case case2 v _ _ _ _ old u w x =>
    have hu : u.lanes = s.lanes := by unfold u old; (repeat' split) <;> simp
    exact (forN_lanes (by intros; rfl) _ x).trans hu
  all_goals rfl

@[simp] theorem checkpoint_lanes (s : State) : (checkpoint s).lanes = s.lanes := by simp [checkpoint]
@[simp] theorem rewriteEntry_lanes (s : State) (e : Nat) : (rewriteEntry s e).lanes = s.lanes := by simp [rewriteEntry]

@[simp] theorem rackEntry_lanes (s : State) (e : Nat) : (rackEntry s e).lanes = s.lanes := by
  unfold rackEntry
  split
  · rfl
  · simp
  · simp
  · rw [incF_lanes, fault_lanes, record_lanes, setB_lanes, wr_lanes]

@[simp] theorem rackLap_lanes (s : State) : (rackLap s).lanes = s.lanes := rfl
@[simp] theorem resumeWrites_lanes (s : State) : (resumeWrites s).lanes = s.lanes := by simp [resumeWrites]
@[simp] theorem setPause_lanes (s : State) (warn cask : Bool) : (setPause s warn cask).lanes = s.lanes := by simp [setPause]
@[simp] theorem stopLoad_lanes (s : State) : (stopLoad s).lanes = s.lanes := rfl
@[simp] theorem caskRegsReset_lanes (s : State) : (caskRegsReset s).lanes = s.lanes := rfl
@[simp] theorem resetCask_lanes (s : State) : (resetCask s).lanes = s.lanes := by simp [resetCask]
@[simp] theorem restoreDirectory_lanes (s : State) : (restoreDirectory s).lanes = s.lanes := by simp [restoreDirectory]
@[simp] theorem putBuf_lanes (s : State) (o : Nat) (ws : List Word) : (putBuf s o ws).lanes = s.lanes := rfl
@[simp] theorem takeRx_lanes (s : State) (ws : List Word) : (takeRx s ws).lanes = s.lanes := by simp [takeRx]

@[simp] theorem queueFrame_lanes (s : State) (p : Nat) (body : List Word) : (queueFrame s p body).lanes = s.lanes := by
  unfold queueFrame; split <;> rfl

@[simp] theorem sendResp_lanes (s : State) (r : HostResp) : (sendResp s r).lanes = s.lanes := by simp [sendResp]

@[simp] theorem respond_lanes (s : State) (path : Path) (r : HostResp) : (respond s path r).lanes = s.lanes := by
  unfold respond; split <;> simp

@[simp] theorem respondLate_lanes (s : State) (r : HostResp) : (respondLate s r).lanes = s.lanes := by simp [respondLate]
@[simp] theorem regionAfter_lanes (s : State) (r : Rec) (k : Nat) : (regionAfter s r k).lanes = s.lanes := rfl

@[simp] theorem writeNew_lanes (s : State) (r : Rec) (always : Bool) : (writeNew s r always).lanes = s.lanes := by
  simp [writeNew]

@[simp] theorem writeRec_lanes (s : State) (r : Rec) : (writeRec s r).lanes = s.lanes := by simp [writeRec]
@[simp] theorem recordsLost_lanes (s : State) : (recordsLost s).lanes = s.lanes := by simp [recordsLost]
@[simp] theorem eraseBlocks_lanes (s : State) (n : Nat) : (eraseBlocks s n).lanes = s.lanes := rfl
@[simp] theorem clearCounts_lanes (s : State) : (Machine.clearCounts s).lanes = s.lanes := rfl
@[simp] theorem findHead_lanes (s : State) : (findHead s).lanes = s.lanes := rfl
@[simp] theorem setBank_lanes (s : State) (b : Nat) (x : CbBank) : (s.setBank b x).lanes = s.lanes := rfl
@[simp] theorem wrCbRead_lanes (s : State) (who : Nat) (v : Word) : (wrCbRead s who v).lanes = s.lanes := by simp [wrCbRead]

@[simp] theorem clearAnswer_lanes (s : State) (asker : Option (BitVec 16)) (status : Nat) (ws : List Word) :
    (clearAnswer s asker status ws).lanes = s.lanes := by
  unfold clearAnswer; split <;> simp

@[simp] theorem refuseClear_lanes (s : State) (asker : Option (BitVec 16)) (n : Nat) :
    (refuseClear s asker n).lanes = s.lanes := by
  simp [refuseClear]

@[simp] theorem requestClear_lanes (s : State) (asker : Option (BitVec 16)) (ws : List Word) :
    (requestClear s asker ws).lanes = s.lanes := by
  simp [requestClear]

@[simp] theorem wrCbClear_lanes (s : State) (v : Word) : (wrCbClear s v).lanes = s.lanes := by simp [wrCbClear]
@[simp] theorem wrCbCsig_lanes (s : State) (w : Nat) (v : Word) : (wrCbCsig s w v).lanes = s.lanes := by simp [wrCbCsig]
@[simp] theorem resetBook_lanes (s : State) : (resetBook s).lanes = s.lanes := rfl
@[simp] theorem capNote_lanes (s : State) (e : Event) : (capNote s e).lanes = s.lanes := by simp [capNote]
@[simp] theorem adNote_lanes (s : State) (e : Event) : (adNote s e).lanes = s.lanes := by simp [adNote]
@[simp] theorem event_lanes (s : State) (e : Event) : (s.event e).lanes = s.lanes := by simp [State.event]
@[simp] theorem assertOn_lanes (s : State) (l k : Nat) : (assertOn s l k).lanes = s.lanes := by simp [assertOn]
@[simp] theorem mirror_lanes (s : State) (k : Nat) (b : Bool) : (mirror s k b).lanes = s.lanes := by simp [mirror]
@[simp] theorem srcEdge_lanes (s : State) (k : Nat) (b : Bool) : (srcEdge s k b).lanes = s.lanes := by simp [srcEdge]
@[simp] theorem stoBits_lanes (s : State) : (stoBits s).lanes = s.lanes := rfl
@[simp] theorem owe_lanes (s : State) (n : Nat) (d : Int) : (owe s n d).lanes = s.lanes := rfl
@[simp] theorem refreshed_lanes (s : State) (n : Nat) : (refreshed s n).lanes = s.lanes := rfl
@[simp] theorem setCount_lanes (s : State) (t c : Nat) (down : Bool) : (setCount s t c down).lanes = s.lanes := rfl
@[simp] theorem lnCommit_lanes (s : State) (n : Nat) (v : Word) : (lnCommit s n v).lanes = s.lanes := by simp [lnCommit]
@[simp] theorem wrHwCtl_lanes (s : State) (v : BitVec 16) : (wrHwCtl s v).lanes = s.lanes := by simp [wrHwCtl]

@[simp] theorem wrHwPerh_lanes (s : State) (n : Nat) (v : BitVec 16) : (wrHwPerh s n v).lanes = s.lanes := by
  unfold wrHwPerh; split <;> rfl

@[simp] theorem wrHwDutyh_lanes (s : State) (n : Nat) (v : BitVec 16) : (wrHwDutyh s n v).lanes = s.lanes := by
  unfold wrHwDutyh; split <;> rfl

@[simp] theorem noteBelow_lanes (s : State) (k : Nat) : (noteBelow s k).lanes = s.lanes := by unfold noteBelow; split <;> rfl
@[simp] theorem endRisk_lanes (s : State) (k : Nat) : (endRisk s k).lanes = s.lanes := by unfold endRisk; split <;> simp

@[simp] theorem compareFloor_lanes (s : State) (k : Nat) (pub : Bool) : (compareFloor s k pub).lanes = s.lanes := by
  simp only [compareFloor]; (repeat' split) <;> simp

@[simp] theorem rowLive_lanes (s : State) (k : Nat) : (rowLive s k).lanes = s.lanes := rfl
@[simp] theorem atMv_lanes (s : State) (mv : Nat) : (s.atMv mv).lanes = s.lanes := rfl

@[simp] theorem speedStep_lanes (s : State) (k mv : Nat) (step : Bool) : (speedStep s k mv step).lanes = s.lanes := by
  simp only [speedStep]; split <;> simp

@[simp] theorem lockLost_lanes (s : State) : (lockLost s).lanes = s.lanes := rfl
@[simp] theorem useNear_lanes (s : State) (t : Option (Nat × Bool)) : (useNear s t).lanes = s.lanes := by simp [useNear]

@[simp] theorem fallStep_lanes (s : State) (k mv : Nat) : (fallStep s k mv).lanes = s.lanes := by
  simp only [fallStep]; split <;> simp

@[simp] theorem warnStep_lanes (s : State) (k mv : Nat) : (warnStep s k mv).lanes = s.lanes := by
  simp only [warnStep]; split <;> simp

@[simp] theorem wrRwFloor_lanes (s : State) (k : Nat) (v : Word) : (wrRwFloor s k v).lanes = s.lanes := by
  simp only [wrRwFloor]; split <;> simp

@[simp] theorem resetSpeed_lanes (s : State) (k : Nat) : (resetSpeed s k).lanes = s.lanes := rfl
@[simp] theorem berr_lanes (s : State) (k : Nat) : (berr s k).lanes = s.lanes := rfl
@[simp] theorem wrRwTrios_lanes (s : State) (k : Nat) (v : Word) : (wrRwTrios s k v).lanes = s.lanes := by simp [wrRwTrios]

@[simp] theorem wrRwSlot_lanes (s : State) (r : Reg) (k x : Nat) (v : Word) : (wrRwSlot s r k x v).lanes = s.lanes := by
  simp [wrRwSlot]

@[simp] theorem newvBack_lanes (s : State) (k : Nat) (a : OpenAct) : (newvBack s k a).lanes = s.lanes := by
  unfold newvBack; split <;> rfl

@[simp] theorem indicate_lanes (s : State) (f : Nat → Nat → OpenAct → OpenAct) : (indicate s f).lanes = s.lanes := rfl
@[simp] theorem sdReady_lanes (s : State) (i : Nat) : (sdReady s i).lanes = s.lanes := rfl
@[simp] theorem epDone_lanes (s : State) (p : Nat) : (epDone s p).lanes = s.lanes := rfl

@[simp] theorem writeWords_lanes (s : State) (a : Nat) (ws : List (Word × Bool)) : (writeWords s a ws).lanes = s.lanes := by
  unfold writeWords; exact foldl_lanes (fun _ _ => by simp) ..

@[simp] theorem startEngine_lanes (s : State) (n entry : Nat) (point : BitVec 64) :
    (startEngine s n entry point).lanes = s.lanes := rfl

@[simp] theorem startAct_lanes (s : State) (k x : Nat) (a : OpenAct) (es : List Nat) (join : Bool) :
    (startAct s k x a es join).lanes = s.lanes := by
  simp [startAct]

@[simp] theorem applyHeld_lanes (s : State) (k : Nat) (ws : List (Nat × Word)) : (applyHeld s k ws).lanes = s.lanes := by
  simp [applyHeld]

@[simp] theorem disagree_lanes (s : State) (k x : Nat) (u v : List (Nat × Word) × Bool) :
    (disagree s k x u v).lanes = s.lanes := by
  simp [disagree]

@[simp] theorem judge_lanes (s : State) (k x : Nat) : (judge s k x).lanes = s.lanes := by simp only [judge]; split <;> simp
@[simp] theorem loseRole_lanes (s : State) (k x n : Nat) : (loseRole s k x n).lanes = s.lanes := rfl

@[simp] theorem roleRecord_lanes (s : State) (code k x n : Nat) : (roleRecord s code k x n).lanes = s.lanes := by
  simp [roleRecord]

@[simp] theorem failoverNote_lanes (s : State) (k x n : Nat) : (failoverNote s k x n).lanes = s.lanes := by simp [failoverNote]

@[simp] theorem takePrev_lanes (s : State) (k x n : Nat) : (takePrev s k x n).2.lanes = s.lanes := by
  simp only [takePrev]; (repeat' split) <;> simp

@[simp] theorem endRun_lanes (s : State) (k x : Nat) : (endRun s k x).lanes = s.lanes := by unfold endRun; split <;> rfl

@[simp] theorem checkerStore_lanes (s : State) (n addr : Nat) (v : Word) : (checkerStore s n addr v).lanes = s.lanes := by
  unfold checkerStore; split <;> simp

@[simp] theorem markLate_lanes (s : State) (n : Nat) : (markLate s n).lanes = s.lanes := by unfold markLate; split <;> rfl

@[simp] theorem wrRwSstat_lanes (s : State) (k x : Nat) (v : Word) : (wrRwSstat s k x v).lanes = s.lanes := by
  simp [wrRwSstat]; (repeat' split) <;> simp_all

@[simp] theorem sideDone_lanes (s : State) (n : Nat) (o : SideOp) : (sideDone s n o).lanes = s.lanes := by simp [sideDone]

@[simp] theorem undoCr_lanes (s : State) (n : Nat) (u : CrUndo) : (undoCr s n u).lanes = s.lanes := by
  unfold undoCr
  exact (foldl_lanes (by intros; rfl) ..).trans (foldl_lanes (by intros; rfl) ..)

@[simp] theorem wrCeCr_lanes (s : State) (n j : Nat) (v : Word) : (wrCeCr s n j v).lanes = s.lanes := by simp [wrCeCr]
@[simp] theorem encIndex_lanes (s : State) (p : Nat) (a b : Bool) : (encIndex s p a b).lanes = s.lanes := by simp [encIndex]

@[simp] theorem encCount_lanes (s : State) (p : Nat) (o n : Bool × Bool × Bool) : (encCount s p o n).lanes = s.lanes := by
  simp [encCount]

@[simp] theorem showHall_lanes (s : State) (p : Nat) : (showHall s p).lanes = s.lanes := by simp [showHall]
@[simp] theorem setLevels_lanes (s : State) (p t : Nat) (y : EncS) : (setLevels s p t y).lanes = s.lanes := by simp [setLevels]

@[simp] theorem takeEdges_lanes (s : State) (p : Nat) (g : List (Nat × Nat × Bool)) : (takeEdges s p g).lanes = s.lanes := by
  simp [takeEdges]

@[simp] theorem ripen_lanes (s : State) (p : Nat) : (ripen s p).lanes = s.lanes := by simp [ripen]
@[simp] theorem closeRx_lanes (s : State) (p rx : Nat) : (closeRx s p rx).lanes = s.lanes := by simp [closeRx]
@[simp] theorem holdRx_lanes (s : State) (p rx : Nat) : (holdRx s p rx).lanes = s.lanes := by simp [holdRx]
@[simp] theorem encLatch_lanes (s : State) (p : Nat) : (encLatch s p).lanes = s.lanes := by unfold encLatch; split_ifs <;> rfl
@[simp] theorem laneLatch_lanes (s : State) (n : Nat) : (laneLatch s n).lanes = s.lanes := by simp [laneLatch]
@[simp] theorem wrEpLat_lanes (s : State) (p : Nat) (v : Word) : (wrEpLat s p v).lanes = s.lanes := by simp [wrEpLat]
@[simp] theorem wrEpPos_lanes (s : State) (p : Nat) (v : Word) : (wrEpPos s p v).lanes = s.lanes := by simp [wrEpPos]
@[simp] theorem wrEpCfg_lanes (s : State) (p : Nat) (v : Word) : (wrEpCfg s p v).lanes = s.lanes := by simp [wrEpCfg]
@[simp] theorem wrEpSsi_lanes (s : State) (p : Nat) (v : Word) : (wrEpSsi s p v).lanes = s.lanes := by simp [wrEpSsi]

@[simp] theorem resetEnc_lanes (s : State) : (resetEnc s).lanes = s.lanes := by
  unfold resetEnc; exact forN_lanes (by intros; rfl) ..

@[simp] theorem answer_lanes (s : State) (who : Nat) (w : Word) : (s.answer who w).lanes = s.lanes := rfl
@[simp] theorem bitComes_lanes (s : State) (g : Nat) (x : Int) : (bitComes s g x).lanes = s.lanes := by simp [bitComes]

@[simp] theorem runBits_lanes (s : State) (g n : Nat) (x : Int) (p : Nat) : (runBits s g n x p).lanes = s.lanes := by
  unfold runBits; exact groupInputs_lanes (by intros; rfl) ..

@[simp] theorem sdBit_lanes (s : State) (g : Nat) : (sdBit s g).lanes = s.lanes := by unfold sdBit; (repeat' split) <;> simp

@[simp] theorem runFollow_lanes (s : State) (i : Nat) (was : Bool) : (runFollow s i was).lanes = s.lanes := by
  unfold runFollow; split <;> rfl

@[simp] theorem runSeen_lanes (s : State) (i e : Nat) (bits : List Bool) : (runSeen s i e bits).lanes = s.lanes := rfl
@[simp] theorem openWin_lanes (s : State) (n i : Nat) : (openWin s n i).lanes = s.lanes := by unfold openWin; split <;> rfl
@[simp] theorem openWins_lanes (s : State) (n : Nat) : (openWins s n).lanes = s.lanes := by simp [openWins]

@[simp] theorem mainWord_lanes (s : State) (i : Nat) (bits : List Bool) (merged : Bool) :
    (mainWord s i bits merged).lanes = s.lanes := by
  simp [mainWord]

@[simp] theorem refill_lanes (s : State) (i : Nat) : (refill s i).lanes = s.lanes := rfl
@[simp] theorem coarseStart_lanes (s : State) (i : Nat) : (coarseStart s i).lanes = s.lanes := rfl
@[simp] theorem sdRun_lanes (s : State) (g p : Nat) : (sdRun s g p).lanes = s.lanes := by simp [sdRun]

@[simp] theorem wrSdClk_lanes (s : State) (g : Nat) (v : Word) : (wrSdClk s g v).lanes = s.lanes := by
  unfold wrSdClk
  rw [gate_lanes]
  split
  · rfl
  · extract_lets old en v1 v2 s1 new s2 s3 s4 s5
    have h3 : s3.lanes = s.lanes := by unfold s3; split <;> rfl
    split_ifs
    · exact groupInputs_lanes (by intros; rfl) g s2
    · exact (groupInputs_lanes (fun _ _ => (coarseStart_lanes ..).trans (refill_lanes ..)) g s5).trans h3
    · rfl

@[simp] theorem wrSdFlt_lanes (s : State) (i : Nat) (v : Word) : (wrSdFlt s i v).lanes = s.lanes := by simp [wrSdFlt]
@[simp] theorem wrSdWin_lanes (s : State) (i : Nat) (v : Word) : (wrSdWin s i v).lanes = s.lanes := by simp [wrSdWin]
@[simp] theorem adStart_lanes (s : State) (k t : Nat) : (adStart s k t).lanes = s.lanes := rfl
@[simp] theorem adTrig_lanes (s : State) (k t : Nat) : (adTrig s k t).lanes = s.lanes := by simp [adTrig]

@[simp] theorem adNext_lanes (s : State) (k t : Nat) (cont : Bool) : (adNext s k t cont).lanes = s.lanes := by
  unfold adNext; split_ifs <;> rfl

@[simp] theorem wrAdCtl_lanes (s : State) (k : Nat) (v : Word) : (wrAdCtl s k v).lanes = s.lanes := by simp [wrAdCtl]

@[simp] theorem wrAdCfg_lanes (s : State) (r : Reg) (k j : Nat) (v : Word) : (wrAdCfg s r k j v).lanes = s.lanes := by
  simp [wrAdCfg]

@[simp] theorem wrAdStat_lanes (s : State) (k : Nat) (v : Word) : (wrAdStat s k v).lanes = s.lanes := by simp [wrAdStat]
@[simp] theorem readAdRes_lanes (s : State) (k j : Nat) : (readAdRes s k j).2.lanes = s.lanes := rfl
@[simp] theorem resetAd_lanes (s : State) : (resetAd s).lanes = s.lanes := rfl

@[simp] theorem gtChans_lanes (s : State) (t : Nat) (f : ChanS → ChanS) : (gtChans s t f).lanes = s.lanes := by
  unfold gtChans; exact forN_lanes (by intros; rfl) ..

@[simp] theorem gtSetCnt_lanes (s : State) (t n : Nat) : (gtSetCnt s t n).lanes = s.lanes := by simp [gtSetCnt]
@[simp] theorem gtReset_lanes (s : State) (t : Nat) : (gtReset s t).lanes = s.lanes := by simp [gtReset]
@[simp] theorem gtStart_lanes (s : State) (t : Nat) : (gtStart s t).lanes = s.lanes := by unfold gtStart; split <;> rfl
@[simp] theorem gtWrapSelf_lanes (s : State) (t : Nat) : (gtWrapSelf s t).lanes = s.lanes := by simp [gtWrapSelf]

@[simp] theorem gtLinks_lanes (f : Nat) : ∀ (s : State) (t e : Nat), (gtLinks f s t e).lanes = s.lanes := by
  induction f with
  | zero => exact fun _ _ _ => rfl
  | succ f ih =>
    intro s t e
    refine forN_lanes (fun s u => ?_) ..
    split <;> (try split_ifs) <;> simp [ih]

@[simp] theorem gtWrap_lanes (s : State) (t : Nat) : (gtWrap s t).lanes = s.lanes := by simp [gtWrap]
@[simp] theorem wrGtPer_lanes (s : State) (t : Nat) (v : Word) : (wrGtPer s t v).lanes = s.lanes := by simp [wrGtPer]
@[simp] theorem wrGtCtl_lanes (s : State) (t : Nat) (v : Word) : (wrGtCtl s t v).lanes = s.lanes := by simp [wrGtCtl]
@[simp] theorem wrGtCnt_lanes (s : State) (t : Nat) (v : Word) : (wrGtCnt s t v).lanes = s.lanes := by simp [wrGtCnt]
@[simp] theorem gtTake_lanes (s : State) (t c : Nat) (x : BitVec 64) : (gtTake s t c x).lanes = s.lanes := by simp [gtTake]

@[simp] theorem gtCaptureDue_lanes (s : State) (t c : Nat) : (gtCaptureDue s t c).lanes = s.lanes := by
  unfold gtCaptureDue; split <;> simp

@[simp] theorem wrGtCst_lanes (s : State) (t c : Nat) (v : Word) : (wrGtCst s t c v).lanes = s.lanes := by simp [wrGtCst]

@[simp] theorem readGtCapl_lanes (s : State) (who t c : Nat) : (readGtCapl s who t c).2.lanes = s.lanes := by
  simp only [readGtCapl]; (repeat' split) <;> simp

@[simp] theorem gtClose_lanes (s : State) (who t c : Nat) : (gtClose s who t c).lanes = s.lanes := rfl

@[simp] theorem readGtCaph_lanes (s : State) (who t c : Nat) : (readGtCaph s who t c).2.lanes = s.lanes := by
  unfold readGtCaph; split <;> rfl

@[simp] theorem noteWake_lanes (s : State) (src : Nat) : (noteWake s src).lanes = s.lanes := by unfold noteWake; split <;> rfl
@[simp] theorem passBoundary_lanes (s : State) : (passBoundary s).lanes = s.lanes := rfl
@[simp] theorem lfAdvance_lanes (s : State) : (lfAdvance s).lanes = s.lanes := rfl
@[simp] theorem runEdge_lanes (s : State) : (runEdge s).lanes = s.lanes := by unfold runEdge; split <;> simp
@[simp] theorem readTbNowl_lanes (s : State) (who : Nat) : (readTbNowl s who).2.lanes = s.lanes := rfl
@[simp] theorem wrTbWakeh_lanes (s : State) (v : Word) : (wrTbWakeh s v).lanes = s.lanes := by simp [wrTbWakeh]
@[simp] theorem takeOffset_lanes (s : State) (ofs : Int) : (takeOffset s ofs).lanes = s.lanes := by simp [takeOffset]
@[simp] theorem loadNow_lanes (s : State) (x : BitVec 64) : (loadNow s x).lanes = s.lanes := rfl
@[simp] theorem setFix_lanes (s : State) (n : Nat) (v : BitVec 64) : (s.setFix n v).lanes = s.lanes := rfl
@[simp] theorem readPmuFixl_lanes (s : State) (who n : Nat) : (readPmuFixl s who n).2.lanes = s.lanes := rfl
@[simp] theorem wrPmuTag_lanes (s : State) (k : Nat) (v : Word) : (wrPmuTag s k v).lanes = s.lanes := by simp [wrPmuTag]
@[simp] theorem wrPmuDctl_lanes (s : State) (v : Word) : (wrPmuDctl s v).lanes = s.lanes := by simp [wrPmuDctl]
@[simp] theorem wrPmuDbase_lanes (s : State) (v : Word) : (wrPmuDbase s v).lanes = s.lanes := by simp [wrPmuDbase]
@[simp] theorem tickCam_lanes (s : State) : (tickCam s).lanes = s.lanes := by simp [tickCam]

@[simp] theorem writePairs_lanes (s : State) (a : Nat) (ws : List Word) : (writePairs s a ws).lanes = s.lanes := by
  fun_induction writePairs <;> simp [*]

@[simp] theorem wrPmu_lanes (s : State) (r : Reg) (i j : Nat) (v : Word) : (wrPmu s r i j v).lanes = s.lanes := by
  unfold wrPmu; split <;> simp

@[simp] theorem resetPmu_lanes (s : State) : (resetPmu s).lanes = s.lanes := by simp [resetPmu]
@[simp] theorem attnHeld_lanes (s : State) : (attnHeld s).lanes = s.lanes := by simp [attnHeld]
@[simp] theorem attnClear_lanes (s : State) : (attnClear s).lanes = s.lanes := by simp [attnClear]
@[simp] theorem attnDrop_lanes (s : State) (reason : Nat) : (attnDrop s reason).lanes = s.lanes := by simp [attnDrop]
@[simp] theorem ringEase_lanes (s : State) : (ringEase s).lanes = s.lanes := by simp [ringEase]
@[simp] theorem setLooped_lanes (s : State) (b : Bool) : (setLooped s b).lanes = s.lanes := by simp [setLooped]
@[simp] theorem portDown_lanes (s : State) (p : Nat) : (portDown s p).lanes = s.lanes := by simp [portDown]
@[simp] theorem setLoop_lanes (s : State) (p : Nat) (b : Bool) : (setLoop s p b).lanes = s.lanes := rfl
@[simp] theorem moveQueue_lanes (s : State) (a b : Nat) : (moveQueue s a b).lanes = s.lanes := rfl
@[simp] theorem transmit_lanes (s : State) (fs : List QFrame) : (transmit s fs).lanes = s.lanes := rfl
@[simp] theorem sendOut_lanes (s : State) (fs : List QFrame) : (sendOut s fs).lanes = s.lanes := rfl
@[simp] theorem loopHeal_lanes (s : State) : (loopHeal s).lanes = s.lanes := by simp [loopHeal]
@[simp] theorem loopEntry_lanes (s : State) : (loopEntry s).lanes = s.lanes := by simp [loopEntry]

@[simp] theorem switchBoundary_lanes (s : State) (c : Word) : (switchBoundary s c).lanes = s.lanes := by
  unfold switchBoundary; split <;> simp

@[simp] theorem saWatch_lanes (s : State) : (saWatch s).lanes = s.lanes := by simp [saWatch]

@[simp] theorem switchResult_lanes (s : State) (c : Word) (ready : Bool) : (switchResult s c ready).lanes = s.lanes := by
  simp only [switchResult]; (repeat' split) <;> simp

@[simp] theorem switchInstant_lanes (s : State) (c m v : Word) (tm : BitVec 64) :
    (switchInstant s c m v tm).lanes = s.lanes := by
  unfold switchInstant; split <;> simp

@[simp] theorem takeFrame_lanes (s : State) (ws : List Word) : (takeFrame s ws).lanes = s.lanes := by simp [takeFrame]

@[simp] theorem headReturn_lanes (s : State) (p : Nat) (ws : List Word) (rtl : Nat) :
    (headReturn s p ws rtl).lanes = s.lanes := by
  simp [headReturn]

@[simp] theorem sendTune_lanes (s : State) : (sendTune s).lanes = s.lanes := by unfold sendTune; split_ifs <;> rfl
@[simp] theorem cycFrameSend_lanes (s : State) : (cycFrameSend s).lanes = s.lanes := by simp [cycFrameSend]

@[simp] theorem cycFrameReceive_lanes (p : Fin 2) (ws : List Word) (ta : Nat) (s : State) :
    (cycFrameReceive p ws ta s).lanes = s.lanes := by
  simp [cycFrameReceive]

@[simp] theorem forwardFrame_lanes (s : State) (p : Nat) (ws : List Word) : (forwardFrame s p ws).lanes = s.lanes := by
  simp [forwardFrame]

@[simp] theorem takeBulk_lanes (s : State) (body : List Word) : (takeBulk s body).lanes = s.lanes := by
  unfold takeBulk; split <;> rfl

@[simp] theorem sendBulkTx_lanes (s : State) : (sendBulkTx s).lanes = s.lanes := by simp [sendBulkTx]
@[simp] theorem sendOwn_lanes (s : State) (p : Nat) (q : QFrame) : (sendOwn s p q).lanes = s.lanes := rfl
@[simp] theorem sendForwarded_lanes (s : State) (p : Nat) (q : QFrame) : (sendForwarded s p q).lanes = s.lanes := rfl

@[simp] theorem queuedFrameSend_lanes (p : Fin 2) (s : State) : (queuedFrameSend p s).lanes = s.lanes := by
  unfold queuedFrameSend; (repeat' split) <;> simp

@[simp] theorem tune_lanes (s : State) : (tune s).lanes = s.lanes := by unfold tune; split_ifs <;> rfl
@[simp] theorem wrStCtl_lanes (s : State) (pcie : Bool) (v : Word) : (wrStCtl s pcie v).lanes = s.lanes := by simp [wrStCtl]
@[simp] theorem tuneFails_lanes (s : State) : (tuneFails s).lanes = s.lanes := rfl
@[simp] theorem wrStHost_lanes (s : State) (v : Word) : (wrStHost s v).lanes = s.lanes := by simp [wrStHost]
@[simp] theorem wrStAttn_lanes (s : State) (v : Word) : (wrStAttn s v).lanes = s.lanes := by simp [wrStAttn]
@[simp] theorem wrStCyct_lanes (s : State) (v : Word) : (wrStCyct s v).lanes = s.lanes := by simp [wrStCyct]

@[simp] theorem wrStMbo_lanes (s : State) (w : Nat) (v : Word) : (wrStMbo s w v).lanes = s.lanes := by
  simp [wrStMbo]; (repeat' split) <;> simp_all

@[simp] theorem pcieDown_lanes (s : State) : (pcieDown s).lanes = s.lanes := by unfold pcieDown; split <;> rfl
@[simp] theorem setKey_lanes (s : State) (i c : Nat) (k : BitVec 256) : (setKey s i c k).lanes = s.lanes := rfl
@[simp] theorem eraseSecrets_lanes (s : State) (m : List Nat) : (eraseSecrets s m).lanes = s.lanes := by simp [eraseSecrets]
@[simp] theorem overwriteStored_lanes (s : State) : (overwriteStored s).lanes = s.lanes := by simp [overwriteStored]
@[simp] theorem setDbg_lanes (s : State) (st : Nat) : (setDbg s st).lanes = s.lanes := by unfold setDbg; split <;> rfl
@[simp] theorem wrSecKcmd_lanes (s : State) (v : Word) : (wrSecKcmd s v).lanes = s.lanes := by simp [wrSecKcmd]
@[simp] theorem runImage_lanes (s : State) (entry : Nat) : (runImage s entry).lanes = s.lanes := rfl

@[simp] theorem tryBank_lanes (s : State) (b : Nat) : (tryBank s b).1.lanes = s.lanes := by
  simp only [tryBank]; (repeat' split) <;> simp

@[simp] theorem keptImage_lanes (s : State) : (keptImage s).2.lanes = s.lanes := by
  simp only [keptImage]; (repeat' split) <;> simp

@[simp] theorem wrSecBankw_lanes (s : State) (v : Word) : (wrSecBankw s v).lanes = s.lanes := by simp [wrSecBankw]
@[simp] theorem wrSecRoll_lanes (s : State) (v : Word) : (wrSecRoll s v).lanes = s.lanes := by simp [wrSecRoll]

@[simp] theorem wrSecSvrel_lanes (s : State) (who : Nat) (v : Word) : (wrSecSvrel s who v).lanes = s.lanes := by
  simp [wrSecSvrel]

@[simp] theorem wrSecReseal_lanes (s : State) (v : Word) : (wrSecReseal s v).lanes = s.lanes := by simp [wrSecReseal]

@[simp] theorem challenge_lanes (s : State) (random : BitVec 192) : (challenge s random).lanes = s.lanes := by
  unfold challenge; split <;> rfl

@[simp] theorem dropChallenge_lanes (s : State) : (dropChallenge s).lanes = s.lanes := rfl
@[simp] theorem refuseOpen_lanes (s : State) (r : Nat) : (refuseOpen s r).lanes = s.lanes := by simp [refuseOpen]
@[simp] theorem openGo_lanes (s : State) : (openGo s).lanes = s.lanes := by simp [openGo]

@[simp] theorem openWrite_lanes (s : State) (v : Word) (random : BitVec 192) : (openWrite s v random).lanes = s.lanes := by
  simp [openWrite]

@[simp] theorem wrSecOpen_lanes (s : State) (v : Word) (random : BitVec 192) : (wrSecOpen s v random).lanes = s.lanes := by
  simp [wrSecOpen]

@[simp] theorem respWrite_lanes (s : State) (i : Nat) (v : Word) : (respWrite s i v).lanes = s.lanes := rfl
@[simp] theorem eraseConf_lanes (s : State) : (eraseConf s).lanes = s.lanes := by simp [eraseConf]
@[simp] theorem resumeOpening_lanes (s : State) : (resumeOpening s).lanes = s.lanes := by simp [resumeOpening]
@[simp] theorem openingErase_lanes (s : State) : (openingErase s).lanes = s.lanes := by simp [openingErase]
@[simp] theorem resealAtPor_lanes (s : State) : (resealAtPor s).lanes = s.lanes := by simp [resealAtPor]

@[simp] theorem wrSec_lanes (s : State) (r : Reg) (who i : Nat) (v : Word) : (wrSec s r who i v).lanes = s.lanes := by
  unfold wrSec; (repeat' split) <;> simp

@[simp] theorem dropRegs_lanes (s : State) (lo hi : Nat) : (dropRegs s lo hi).lanes = s.lanes := rfl
@[simp] theorem cutBank_lanes (s : State) : (cutBank s).lanes = s.lanes := by unfold cutBank; split <;> simp
@[simp] theorem stoFresh_lanes (s : State) : (stoFresh s).lanes = s.lanes := by simp [stoFresh]
@[simp] theorem nmiAll_lanes (s : State) (k except : Nat) : (nmiAll s k except).lanes = s.lanes := by simp [nmiAll]
@[simp] theorem pauses_lanes (s : State) : (pauses s).lanes = s.lanes := by simp [pauses]
@[simp] theorem railMv_lanes (s : State) (r mv : Nat) : (railMv s r mv).lanes = s.lanes := by simp [railMv]
@[simp] theorem powerRefuse_lanes (s : State) (rsn : Nat) : (powerRefuse s rsn).lanes = s.lanes := rfl
@[simp] theorem powerGo_lanes (s : State) (p : PowerPhase) (st : Nat) : (powerGo s p st).lanes = s.lanes := rfl
@[simp] theorem bootAgain_lanes (s : State) : (bootAgain s).lanes = s.lanes := by simp [bootAgain]
@[simp] theorem resetSv_lanes (s : State) (n : Nat) : (resetSv s n).lanes = s.lanes := by simp [resetSv]

@[simp] theorem readReg_lanes (s : State) (who : Nat) (r : Reg) (i j : Nat) : (readReg s who r i j).2.lanes = s.lanes := by
  simp only [readReg]; (repeat' split) <;> simp

@[simp] theorem readWord_lanes (s : State) (who a : Nat) : (readWord s who a).2.lanes = s.lanes := by
  simp only [readWord]; (repeat' split) <;> simp

@[simp] theorem readPiece_lanes (s : State) (who a n : Nat) : (readPiece s who a n).2.lanes = s.lanes := by
  simp only [readPiece]
  split
  · rfl
  · split
    · exact ckRead_lanes ..
    · split
      · exact readWord_lanes ..
      · rw [readMem_lanes]
        split <;> simp

@[simp] theorem busRead_lanes (s : State) (who a n : Nat) : (busRead s who a n).2.lanes = s.lanes := by
  unfold busRead; exact foldl2_lanes (fun _ _ => by simp) ..

@[simp] theorem State.respond_lanes (s : State) (who : Nat) (r : Resp) : (s.respond who r).lanes = s.lanes := rfl

@[simp] theorem command_lanes (s : State) (c : HostCmd) (path : Path) (seq : BitVec 16) (cmd : Nat)
    {f : State → State × Nat × Nat × List Word} (h : (f s).1.lanes = s.lanes) :
    (command s c path seq cmd f).lanes = s.lanes := by
  simp only [command]
  (repeat' split) <;> simp_all

@[simp] theorem hostPoison_lanes (s : State) (src : Nat) (a : Nat) (bs : List (Byte × Bool)) :
    (hostPoison s src a bs).lanes = s.lanes := by
  simp [hostPoison]

@[simp] theorem clearGoverned_lanes (s : State) : (clearGoverned s).lanes = s.lanes := by
  unfold clearGoverned
  exact (forN_lanes (by intros; rfl) ..).trans ((forN_lanes (by intros; rfl) ..).trans (forN_lanes (by intros; rfl) ..))

@[simp] theorem applyEntry_lanes (s : State) (e : DEntry) : (applyEntry s e).lanes = s.lanes := by
  unfold applyEntry; split <;> rfl

@[simp] theorem answerDescriptor_lanes (s : State) (status : Nat) (ws : List Word) :
    (answerDescriptor s status ws).lanes = s.lanes := by
  simp [answerDescriptor]

@[simp] theorem unsupported_lanes (s : State) : (unsupported s).lanes = s.lanes := rfl

@[simp] theorem completions_lanes (s : State) (a : Nat) (bs : List (Byte × Bool)) : (completions s a bs).lanes = s.lanes := by
  simp [completions]

@[simp] theorem crSet_lanes (s : State) (c j : Nat) (v : Word) : (crSet s c j v).lanes = s.lanes := rfl

@[simp] theorem markCr_lanes (s : State) (c : Nat) (pend act : List Nat) : (markCr s c pend act).lanes = s.lanes := by
  unfold markCr; split <;> rfl

@[simp] theorem crWrite_lanes (s : State) (c j : Nat) (v : Word) : (crWrite s c j v).lanes = s.lanes := by
  unfold crWrite; split_ifs <;> rfl

@[simp] theorem crCommit_lanes (s : State) (c j : Nat) : (crCommit s c j).lanes = s.lanes := by unfold crCommit; split <;> simp
@[simp] theorem crSync_lanes (s : State) (c : Nat) : (crSync s c).lanes = s.lanes := by simp [crSync]

@[simp] theorem finishAll_lanes (s : State) (c : Nat) : (finishAll s c).lanes = s.lanes := by
  simp only [finishAll]; (repeat' split) <;> simp

@[simp] theorem writeFrame_lanes (s : State) (c sp : Nat) (ws : List Tagged) : (writeFrame s c sp ws).lanes = s.lanes := by
  unfold writeFrame; exact foldl_lanes (fun _ _ => by simp) ..

@[simp] theorem entryState_lanes (s : State) (n : Nat) : (entryState s n).lanes = s.lanes := by simp [entryState]
@[simp] theorem setAex_lanes (s : State) (c aex : Nat) : (setAex s c aex).lanes = s.lanes := by simp [setAex]
@[simp] theorem stall_lanes (s : State) (c : Nat) : (stall s c).lanes = s.lanes := rfl
@[simp] theorem hold_lanes (s : State) (c : Nat) : (hold s c).lanes = s.lanes := by simp [hold]
@[simp] theorem atMem_lanes (s : State) (c : Nat) : (atMem s c).lanes = s.lanes := rfl
@[simp] theorem endStep_lanes (s : State) (c : Nat) : (endStep s c).lanes = s.lanes := by simp [endStep]
@[simp] theorem finish_lanes (s : State) (c : Nat) (outs : List Out) : (finish s c outs).lanes = s.lanes := rfl

@[simp] theorem noteIssue_lanes (s : State) (c : Nat) (done : Bool) : (noteIssue s c done).lanes = s.lanes := by
  simp [noteIssue]

@[simp] theorem complete_lanes (s : State) (c : Nat) (outs : List Out) : (complete s c outs).lanes = s.lanes := by
  simp [complete]

@[simp] theorem preciseWait_lanes (s : State) (c d : Nat) : (preciseWait s c d).lanes = s.lanes := by
  unfold preciseWait; split <;> rfl

@[simp] theorem branchTo_lanes (s : State) (c target : Nat) (taken : Bool) (outs : List Out) :
    (branchTo s c target taken outs).lanes = s.lanes := by
  simp [branchTo]

@[simp] theorem reportAex_lanes (s : State) (n : Nat) : (reportAex s n).lanes = s.lanes := by simp [reportAex]

@[simp] theorem loadBytes_lanes (s : State) (c a n : Nat) (taken : List (Option (List (Byte × Bool)))) :
    (loadBytes s c a n taken).2.lanes = s.lanes := by
  unfold loadBytes; refine foldl2_lanes (fun x i => ?_) ..; split <;> simp

@[simp] theorem loadOut_lanes (s : State) (c a n rd d : Nat) (signed : Bool) (upd : Option (Nat × Word))
    (taken : List (Option (List (Byte × Bool)))) :
    (loadOut s c a n rd d signed upd taken).2.lanes = s.lanes := by
  unfold loadOut; exact loadBytes_lanes ..

@[simp] theorem atomicOut_lanes (s : State) (c a rd : Nat) (kind : FarKind) : (atomicOut s c a rd kind).2.lanes = s.lanes := by
  simp only [atomicOut]
  (repeat' split) <;> simp

@[simp] theorem farFinish_lanes (s : State) (c : Nat) : (farFinish s c).lanes = s.lanes := by
  unfold farFinish
  extract_lets k
  split
  · rfl
  · split
    · rfl
    · split
      next os s2 heq =>
      have h2 : s2.lanes = s.lanes := by
        split at heq
        · exact (congrArg (·.2.lanes) heq).symm.trans (loadOut_lanes ..)
        · exact (congrArg (·.2.lanes) heq).symm.trans (atomicOut_lanes ..)
      simp only [endStep_lanes]
      split_ifs <;> simp [h2]

@[simp] theorem leaveWfi_lanes (s : State) (c : Nat) : (leaveWfi s c).lanes = s.lanes := by simp [leaveWfi]
@[simp] theorem setLi_lanes (s : State) (c : Nat) (b : Bool) : (setLi s c b).lanes = s.lanes := rfl

@[simp] theorem tapTo_lanes (s : State) (ir : Nat) (f : TapS → TapS) : (tapTo s ir f).lanes = s.lanes := by
  unfold tapTo; split <;> rfl

@[simp] theorem dbgDone_lanes (s : State) (status : Nat) (data : Word) (poison : Nat) :
    (dbgDone s status data poison).lanes = s.lanes := rfl

@[simp] theorem dbgOp_lanes (s : State) (early : Bool) (x : BitVec 72) {f : State → State} (h : ∀ s, (f s).lanes = s.lanes) :
    (dbgOp s early x f).lanes = s.lanes := by
  unfold dbgOp
  simp only [ite_lanes, dbgDone_lanes, h, ite_self]

@[simp] theorem tickTrio_lanes (s : State) (t : Nat) : (tickTrio s t).lanes = s.lanes := by
  unfold tickTrio
  extract_lets
  split_ifs
  · rfl
  · rw [setCount_lanes, setTrio_lanes]
  · rfl

@[simp] theorem tickGt_lanes (s : State) (t : Nat) : (tickGt s t).lanes = s.lanes := by
  unfold tickGt
  extract_lets
  split_ifs <;> simp

@[simp] theorem tickFix_lanes (s : State) (n : Nat) : (tickFix s n).lanes = s.lanes := by
  unfold tickFix
  split <;> simp

end Sys2Proof.Proofs
end

section
namespace Sys2Proof.Proofs
open Sys2Proof Sys2Proof.Machine Sys2Proof.Safety Sys2Proof.Laws

/-! ### One pin at a time: the invariant, and the drive of a lane -/

/-- The two pins of a lane are not both on. -/
def OnePin (oH oL : Pin) : Prop := ¬ (oH = .on ∧ oL = .on)
/-- No lane of the table shows both its pins on (R81, R113). -/

structure PinsApart (l : Tbl LaneS) : Prop where
  lane : ∀ n, OnePin (tget (fun _ => {}) l n).outH (tget (fun _ => {}) l n).outL

theorem pinsApart_nil : PinsApart [] := ⟨fun _ => by simp [OnePin, tget]⟩

@[simp] theorem pinsApart_ite (c : Prop) [Decidable c] (l l' : Tbl LaneS) :
    PinsApart (if c then l else l') ↔ if c then PinsApart l else PinsApart l' := by
  split <;> rfl

theorem foldl_apart {α : Type} {f : State → α → State} (hf : ∀ s a, PinsApart s.lanes → PinsApart (f s a).lanes) (l : List α)
    {s : State} (h : PinsApart s.lanes) :
    PinsApart (l.foldl f s).lanes := foldl_keeps (fun s => PinsApart s.lanes) f hf l s h

theorem forN_apart {f : State → Nat → State} (hf : ∀ s i, PinsApart s.lanes → PinsApart (f s i).lanes) (n : Nat) {s : State}
    (h : PinsApart s.lanes) :
    PinsApart (s.forN n f).lanes := foldl_apart hf _ h

theorem gate_apart {s : State} {r : Reg} {i : Nat} {f : State → State} (h : PinsApart s.lanes) (hf : PinsApart (f s).lanes) :
    PinsApart (s.gate r i f).lanes := by
  unfold State.gate; split
  · exact h
  · exact hf

theorem when_apart {s : State} {b : Bool} {f : State → State} (h : PinsApart s.lanes) (hf : PinsApart (f s).lanes) :
    PinsApart (s.when b f).lanes := by
  cases b
  · exact h
  · exact hf

/-- A lane's entry changes: only its own pins matter. -/

theorem setLane_apart_of {s : State} (h : PinsApart s.lanes) (n : Nat) {x : LaneS} (hx : OnePin x.outH x.outL) :
    PinsApart (s.setLane n x).lanes := ⟨fun m => by
  simp only [State.setLane, tget_tput]
  split
  · exact hx
  · exact h.lane m⟩

/-- One pin is driven on only while the other is not on (R81, R113). -/

theorem drive_apart (dr df : Nat) (t e : Int) {l : LaneS} (h : OnePin l.outH l.outL) (d : Pin × Pin) :
    OnePin (drive dr df t e l d).outH (drive dr df t e l d).outL := by
  unfold drive
  extract_lets h1 l1 oH oL h2 l2
  rintro ⟨hH, hL⟩
  have hl1 : l1 = .on := by
    unfold l2 at hL
    split at hL
    · next hc => exact absurd hH hc.2.1
    · exact hL
  have hh1 : h1 = .on := by
    unfold h2 at hH
    split at hH
    · next hc => exact absurd hl1 hc.2.1
    · exact hH
  have hoH : l.outH = .on := by
    unfold h1 at hh1
    split at hh1
    · cases hh1
    · next hc => by_contra ho; exact hc ⟨hh1, ho⟩
  have hoL : l.outL = .on := by
    unfold l1 at hl1
    split at hl1
    · cases hl1
    · next hc => by_contra ho; exact hc ⟨hl1, ho⟩
  exact h ⟨hoH, hoL⟩

@[simp] theorem settleAt_apart {s : State} (h : PinsApart s.lanes) (n : Nat) (x : Int) : PinsApart (settleAt s n x).lanes :=
  setLane_apart_of h n (drive_apart _ _ _ _ (h.lane n) _)

theorem snd_apart {α : Type} {p : α × State} {a : α} {b : State} (heq : p = (a, b)) (h : PinsApart p.2.lanes) :
    PinsApart b.lanes := by subst heq; exact h

theorem fst_apart {α : Type} {p : State × α} {a : State} {b : α} (heq : p = (a, b)) (h : PinsApart p.1.lanes) :
    PinsApart a.lanes := by subst heq; exact h

end Sys2Proof.Proofs
end

section
namespace Sys2Proof.Proofs
open Sys2Proof Sys2Proof.Machine Sys2Proof.Safety Sys2Proof.Laws

/-! ### Mute, guard and the edges of a lane keep the pins apart (R81, R112, R113) -/

@[simp] theorem settle_apart {s : State} (h : PinsApart s.lanes) (n : Nat) : PinsApart (settle s n).lanes := settleAt_apart h ..

@[simp] theorem settleAll_apart {s : State} (h : PinsApart s.lanes) :
    PinsApart (settleAll s).lanes := forN_apart (fun _ n h => settle_apart h n) _ h

@[simp] theorem setTrips_apart {s : State} (h : PinsApart s.lanes) (n : Nat) (new : BitVec 96) :
    PinsApart (setTrips s n new).lanes := by
  unfold setTrips
  extract_lets l u
  split
  · exact h
  · refine settle_apart ?_ n
    unfold u
    split
    · rw [wr_lanes]
      exact setLane_apart_of h n (h.lane n)
    · exact setLane_apart_of h n (by split <;> exact h.lane n)

@[simp] theorem retrip_apart {s : State} (h : PinsApart s.lanes) :
    PinsApart (retrip s).lanes := forN_apart (fun _ n h => setTrips_apart h n _) _ h

@[simp] theorem boundaryTrips_apart {s : State} (h : PinsApart s.lanes) (t : Nat) :
    PinsApart (boundaryTrips s t).lanes := forN_apart (fun _ _ h => setTrips_apart h _ _) _ h

@[simp] theorem setSource_apart {s : State} (h : PinsApart s.lanes) (k : Nat) (b : Bool) :
    PinsApart (setSource s k b).lanes := by
  unfold setSource
  split
  · exact h
  · exact retrip_apart (by simp [h])

@[simp] theorem setSources_apart {s : State} (h : PinsApart s.lanes) (l : List (Nat × Bool)) :
    PinsApart (setSources s l).lanes :=
  retrip_apart (foldl_apart (fun _ _ h => by simp [h]) _ (foldl_apart (fun _ _ h => by simp [h]) _ h))

@[simp] theorem wrMuRoute_apart {s : State} (h : PinsApart s.lanes) (k w : Nat) (v : Word) :
    PinsApart (wrMuRoute s k w v).lanes := by
  unfold wrMuRoute
  refine gate_apart h ?_
  extract_lets old s1 new
  split
  · exact retrip_apart (forN_apart (fun _ _ h => by (repeat' split) <;> simp [h]) _ h)
  · exact h

@[simp] theorem wrMuMask_apart {s : State} (h : PinsApart s.lanes) (n w : Nat) (v : Word) :
    PinsApart (wrMuMask s n w v).lanes := gate_apart h (setTrips_apart (by simp [h]) ..)

@[simp] theorem wrMuLineMode_apart {s : State} (h : PinsApart s.lanes) (l : Nat) (v : Word) :
    PinsApart (wrMuLineMode s l v).lanes := by
  unfold wrMuLineMode
  refine gate_apart h ?_
  extract_lets old s1 new s2 s3
  have h1 : PinsApart s1.lanes := h
  have h3 : PinsApart s3.lanes := forN_apart (fun u n hu => by dsimp only; split <;> simp [hu]) _ h1
  split_ifs
  · exact h1
  · exact retrip_apart h1
  · exact retrip_apart (by simp [h1])
  · exact retrip_apart h3

@[simp] theorem muRelease_apart {s : State} (h : PinsApart s.lanes) (l : Nat) : PinsApart (muRelease s l).lanes := by
  unfold muRelease
  refine gate_apart h ?_
  extract_lets s1
  have h1 : PinsApart s1.lanes := h
  split_ifs
  · exact h
  · exact h
  · exact retrip_apart h1
  · exact forN_apart (fun _ n h => setTrips_apart h n _) _ h1

@[simp] theorem wrMuLine_apart {s : State} (h : PinsApart s.lanes) (l : Nat) (v : Word) :
    PinsApart (wrMuLine s l v).lanes := when_apart (wrMuLineMode_apart h ..) (muRelease_apart (wrMuLineMode_apart h ..) _)

@[simp] theorem wrMuSwtrip_apart {s : State} (h : PinsApart s.lanes) (v : Word) :
    PinsApart (wrMuSwtrip s v).lanes := gate_apart h (retrip_apart (forN_apart (fun _ _ h => by split <;> simp [h]) _
      (forN_apart (fun _ _ h => by split <;> simp [h]) _ h)))

@[simp] theorem tripFollow_apart {s : State} (h : PinsApart s.lanes) (j : Nat) : PinsApart (tripFollow s j).lanes := by
  unfold tripFollow; split <;> simp [h]

@[simp] theorem tripSample_apart {s : State} (h : PinsApart s.lanes) (j : Nat) : PinsApart (tripSample s j).lanes := by
  unfold tripSample
  extract_lets
  refine when_apart ?_ (setSource_apart ?_ ..) <;> exact h

@[simp] theorem wrMuTripcfg_apart {s : State} (h : PinsApart s.lanes) (j : Nat) (v : Word) :
    PinsApart (wrMuTripcfg s j v).lanes := gate_apart h (tripFollow_apart (by simp [h]) j)

@[simp] theorem gcFollow_apart {s : State} (h : PinsApart s.lanes) (n : Nat) : PinsApart (gcFollow s n).lanes := by
  unfold gcFollow
  extract_lets g lo hi
  (repeat' split) <;> simp [h]

@[simp] theorem wrGc_apart {s : State} (h : PinsApart s.lanes) (n : Nat) (mode : Bool) (v : Word) :
    PinsApart (wrGc s n mode v).lanes := by
  unfold wrGc
  refine gate_apart h ?_
  extract_lets r old v1 s1 new ch hen len cH cL cW g hi0 lo0
  split
  extract_lets s2 s3 s4 g2
  have h2 : PinsApart s2.lanes := h
  have h3 : PinsApart s3.lanes := when_apart h2 (setSource_apart h2 ..)
  have h4 : PinsApart s4.lanes := when_apart h3 (setSource_apart h3 ..)
  exact gcFollow_apart (by rw [wrB_lanes]; exact h4) n

@[simp] theorem disableLane_apart {s : State} (h : PinsApart s.lanes) (n : Nat) : PinsApart (disableLane s n).lanes := by
  unfold disableLane
  split
  · extract_lets u
    have hu : PinsApart u.lanes := by simp [u, h]
    refine settle_apart ?_ n
    exact setLane_apart_of hu n (hu.lane n)
  · exact h

@[simp] theorem disableAll_apart {s : State} (h : PinsApart s.lanes) :
    PinsApart (disableAll s).lanes := forN_apart (fun _ n h => disableLane_apart h n) _ h

@[simp] theorem rearmNow_apart {s : State} (h : PinsApart s.lanes) : PinsApart (rearmNow s).lanes := by
  unfold rearmNow
  split
  · exact settleAll_apart h
  · exact h

@[simp] theorem wrMuSto_apart {s : State} (h : PinsApart s.lanes) (v : Word) : PinsApart (wrMuSto s v).lanes := by
  unfold wrMuSto
  refine gate_apart h ?_
  extract_lets v' s1
  split
  · split
    · exact h
    · exact rearmNow_apart h
  · exact h

@[simp] theorem goSide_apart {s : State} (h : PinsApart s.lanes) (n : Nat) (high : Bool) (at' : Int) :
    PinsApart (goSide s n high at').lanes := by
  unfold goSide
  extract_lets same cut u l l1 pair l2
  have hu : PinsApart u.lanes := by simp [u, h]
  split
  · exact setLane_apart_of hu n (hu.lane n)
  · have hl : OnePin l2.outH l2.outL := by unfold l2; (repeat' split) <;> exact hu.lane n
    refine settleAt_apart ?_ n _
    exact setLane_apart_of hu n hl

@[simp] theorem restSide_apart {s : State} (h : PinsApart s.lanes) (n : Nat) (high : Bool) (at' : Int) :
    PinsApart (restSide s n high at').lanes := by
  unfold restSide
  extract_lets l low
  split
  · exact goSide_apart h n _ _
  · refine settleAt_apart ?_ n _
    exact setLane_apart_of h n (h.lane n)

@[simp] theorem followOvr_apart {s : State} (h : PinsApart s.lanes) (n : Nat) (now' : Nat) :
    PinsApart (followOvr s n now').lanes := by
  unfold followOvr
  extract_lets l sw iv u e l'
  have hu : PinsApart u.lanes := setLane_apart_of h n (h.lane n)
  split
  · exact hu
  · exact setLane_apart_of hu n (hu.lane n)

@[simp] theorem holdFall_apart {s : State} (h : PinsApart s.lanes) (n : Nat) : PinsApart (holdFall s n).lanes := by
  unfold holdFall
  extract_lets l m
  split
  · rw [setB_lanes]
    exact setLane_apart_of h n (h.lane n)
  · exact h

@[simp] theorem riseGo_apart {s : State} (h : PinsApart s.lanes) (n : Nat) {l : LaneS} (hl : OnePin l.outH l.outL) :
    PinsApart (riseGo s n l).lanes := by
  unfold riseGo
  extract_lets u x
  have hu : PinsApart u.lanes := by
    refine holdFall_apart (goSide_apart ?_ n _ _) n
    exact setLane_apart_of h n hl
  split
  · exact setLane_apart_of hu n (hu.lane n)
  · exact hu

@[simp] theorem omitHigh_apart {s : State} (h : PinsApart s.lanes) (n : Nat) : PinsApart (omitHigh s n).lanes := by
  unfold omitHigh
  extract_lets l m u
  have hu : PinsApart u.lanes := setLane_apart_of h n (h.lane n)
  split_ifs
  · exact hu
  · exact setLane_apart_of hu n (hu.lane n)
  · exact restSide_apart hu ..

@[simp] theorem riseCheck_apart {s : State} (h : PinsApart s.lanes) (n : Nat) : PinsApart (riseCheck s n).lanes := by
  unfold riseCheck
  extract_lets l t u w
  have hu : PinsApart u.lanes := by simp [u, h]
  split_ifs
  · exact setLane_apart_of h n (h.lane n)
  · exact riseGo_apart h n (h.lane n)
  · exact riseGo_apart hu n (h.lane n)
  · exact omitHigh_apart (setLane_apart_of (by simp [hu]) n (h.lane n)) n
  · exact omitHigh_apart (setLane_apart_of hu n (h.lane n)) n

@[simp] theorem edgeOvr_apart {s : State} (h : PinsApart s.lanes) (n : Nat) (at' : Nat) :
    PinsApart (edgeOvr s n at').lanes := by
  unfold edgeOvr
  split
  · exact h
  · exact followOvr_apart h ..

@[simp] theorem fallCheck_apart {s : State} (h : PinsApart s.lanes) (n : Nat) : PinsApart (fallCheck s n).lanes := by
  unfold fallCheck
  extract_lets l t u v
  have hu : PinsApart u.lanes := by simp [u, h]
  have hv : PinsApart v.lanes := by unfold v; split <;> simp [hu]
  split_ifs
  · refine goSide_apart ?_ n _ _
    exact setLane_apart_of h n (h.lane n)
  · exact setLane_apart_of h n (h.lane n)
  · refine goSide_apart ?_ n _ _
    exact setLane_apart_of h n (h.lane n)
  · refine goSide_apart ?_ n _ _
    exact setLane_apart_of hu n (h.lane n)
  · exact setLane_apart_of hv n (h.lane n)

@[simp] theorem beginLow_apart {s : State} (h : PinsApart s.lanes) (n off : Nat) (keep : Bool) :
    PinsApart (beginLow s n off keep).lanes := by
  unfold beginLow
  extract_lets l
  have hl : PinsApart (s.setLane n { l with offAt := some off }).lanes := setLane_apart_of h n (h.lane n)
  split_ifs
  · exact h
  · exact when_apart hl (by simp [hl])
  · exact restSide_apart h ..

end Sys2Proof.Proofs
end

section
namespace Sys2Proof.Proofs
open Sys2Proof Sys2Proof.Machine Sys2Proof.Safety Sys2Proof.Laws

/-! ### Periods, commits and the control registers of lanes and rows keep the pins apart -/

@[simp] theorem boundaryLane_apart {s : State} (h : PinsApart s.lanes) (tOld : Nat) (n : Nat) :
    PinsApart (boundaryLane tOld s n).lanes := by
  unfold boundaryLane
  extract_lets l t ti takes c u drv full off keep nref l1 sh l2 v e w minR r1 held x y z l3 l4 l5
  have hu : PinsApart u.lanes := by unfold u; split <;> simp [h]
  have hl : OnePin l2.outH l2.outL := by
    have h1 : OnePin l1.outH l1.outL := by unfold l1; split <;> exact h.lane n
    exact h1
  have hv : PinsApart v.lanes := setLane_apart_of hu n hl
  have hw : PinsApart w.lanes := when_apart hv (by simp [hv])
  have hx : PinsApart x.lanes := setLane_apart_of hw n hl
  have hy : PinsApart y.lanes := when_apart hx (by simp [hx])
  have hz : PinsApart z.lanes := by
    unfold z
    split_ifs
    · exact restSide_apart hy n _ _
    · exact beginLow_apart hy n _ _
    · exact hy
  split
  · refine settle_apart (setLane_apart_of hz n ?_) n
    unfold l5
    split <;> exact hz.lane n
  · refine settle_apart ?_ n
    exact setLane_apart_of hz n (hz.lane n)

@[simp] theorem boundaryAfter_apart {s : State} (h : PinsApart s.lanes) (t tOld : Nat) :
    PinsApart (boundaryAfter s t tOld).lanes := by
  unfold boundaryAfter
  extract_lets x u v w
  have hv : PinsApart v.lanes := by simp [v, u, h]
  exact boundaryTrips_apart (forN_apart (fun _ _ h => boundaryLane_apart h _ _) _ hv) t

@[simp] theorem boundary_apart {s : State} (h : PinsApart s.lanes) (t : Nat) :
    PinsApart (boundary s t).lanes := boundaryAfter_apart h t _

@[simp] theorem takeShadows_apart {s : State} (h : PinsApart s.lanes) (n : Nat) : PinsApart (takeShadows s n).lanes := by
  unfold takeShadows
  extract_lets l u x
  have hu : PinsApart u.lanes := setLane_apart_of h n (h.lane n)
  split <;> exact hu

@[simp] theorem noteEv_apart {s : State} (h : PinsApart s.lanes) (n : Nat) (kinds : List LaneEv) :
    PinsApart (noteEv s n kinds).lanes := setLane_apart_of h n (h.lane n)

@[simp] theorem shiftEdges_apart {s : State} (h : PinsApart s.lanes) (d : Int) (n : Nat) :
    PinsApart (shiftEdges d s n).lanes := by
  unfold shiftEdges
  extract_lets l e
  refine when_apart ?_ ?_
  · exact setLane_apart_of h n (h.lane n)
  · rw [setB_lanes]
    exact setLane_apart_of h n (h.lane n)

@[simp] theorem immPeriod_apart {s : State} (h : PinsApart s.lanes) (t : Nat) : PinsApart (immPeriod s t).1.lanes := by
  unfold immPeriod
  extract_lets x ud cnt down u moveTo
  have hm : ∀ (r : State) (el : Nat), PinsApart r.lanes → PinsApart (moveTo r el).lanes := fun r el hr =>
    forN_apart (fun _ _ h => shiftEdges_apart h _ _) _ (by simp [hr])
  split
  · exact h
  next p _ =>
    extract_lets s1 per x1 s2
    have h1 : PinsApart s1.lanes := by simp [s1, h]
    have h2 : PinsApart s2.lanes := by simp [s2, h1]
    split_ifs
    · exact h1
    · exact h
    · exact hm _ _ (by simp [h1])
    · exact hm _ _ (by simp [h1])
    · exact hm _ _ h1
    · exact h1
    · exact boundary_apart h2 t
    · rw [setCount_lanes]
      exact hm _ _ h2

@[simp] theorem lateEdges_apart {s : State} (h : PinsApart s.lanes) (n : Nat) : PinsApart (lateEdges s n).lanes := by
  unfold lateEdges
  split
  · exact h
  · extract_lets a l e passed rd fd late minF minR r0 f0 heldF heldR r1 f1 x u v
    have hu : PinsApart u.lanes := by
      refine when_apart ?_ ?_
      · exact setLane_apart_of h n (h.lane n)
      · rw [setB_lanes]
        exact setLane_apart_of h n (h.lane n)
    have hv : PinsApart v.lanes := when_apart hu (by simp [hu])
    exact when_apart hv (by simp [hv])

@[simp] theorem turnState_apart {s : State} (h : PinsApart s.lanes) (n : Nat) : PinsApart (turnState s n).lanes := by
  unfold turnState
  extract_lets a e l high rose falls m hold x
  split_ifs
  · exact h
  · rw [setB_lanes]
    exact setLane_apart_of h n (h.lane n)
  · refine riseCheck_apart ?_ n
    exact setLane_apart_of h n (h.lane n)
  · refine fallCheck_apart ?_ n
    exact setLane_apart_of h n (h.lane n)
  · refine goSide_apart ?_ n _ _
    exact setLane_apart_of h n (h.lane n)

/-- A fold that carries a value beside the state keeps the pins apart. -/

theorem foldl_fst_apart {α β : Type} {f : State × β → α → State × β}
    (hf : ∀ p a, PinsApart p.1.lanes → PinsApart (f p a).1.lanes) (l : List α) {p : State × β} (h : PinsApart p.1.lanes) :
    PinsApart (l.foldl f p).1.lanes := by
  induction l generalizing p with
  | nil => exact h
  | cons a l ih => exact ih (hf p a h)

@[simp] theorem commitLanes_apart {s : State} (h : PinsApart s.lanes) (lanes : List Nat) :
    PinsApart (commitLanes s lanes).1.lanes := by
  unfold commitLanes
  extract_lets u trios more
  have hu : PinsApart u.lanes := foldl_apart (fun _ n h => takeShadows_apart h n) _ h
  refine foldl_apart (fun _ n h => lateEdges_apart h n) _ (foldl_fst_apart (fun p t hp => ?_) _ hu)
  obtain ⟨s, tops, zeros⟩ := p
  have hi := immPeriod_apart hp t
  dsimp only
  split
  next s1 heq => exact fst_apart heq hi
  next s1 heq => exact fst_apart heq hi
  next s1 top heq =>
    have h1 : PinsApart s1.lanes := fst_apart heq hi
    have h2 := forN_apart (fun s j h => turnState_apart h (3 * t + j)) 3 h1
    split
    · exact h2
    · exact forN_apart (fun s j h => noteEv_apart h (3 * t + j) _) 3 h2

@[simp] theorem restLanes_apart {s : State} (h : PinsApart s.lanes) (t : Nat) : PinsApart (restLanes s t).lanes := by
  refine forN_apart (fun _ j h => ?_) _ h
  exact setLane_apart_of h (3 * t + j) (h.lane (3 * t + j))

@[simp] theorem trioStart_apart {s : State} (h : PinsApart s.lanes) (t : Nat) : PinsApart (trioStart s t).lanes := by
  unfold trioStart
  extract_lets src u v c0 ud per d0 c down w held el src' x a
  have hv : PinsApart v.lanes := restLanes_apart (by simp [u, h]) t
  split
  · exact boundary_apart hv t
  · refine forN_apart (fun r j hr => ?_) 3 (by simp [x, hv])
    extract_lets n e l y z
    have hy : PinsApart y.lanes := setLane_apart_of hr n (hr.lane n)
    have hz : PinsApart z.lanes := when_apart hy (by simp [hy])
    split
    · exact hz
    · exact restSide_apart hz n _ _

@[simp] theorem trioGo_apart {s : State} (h : PinsApart s.lanes) (t : Nat) : PinsApart (trioGo s t).lanes := by
  unfold trioGo
  split
  · exact trioStart_apart h t
  · simp [h]

@[simp] theorem startHeld_apart {s : State} (h : PinsApart s.lanes) :
    PinsApart (startHeld s).lanes := forN_apart (fun _ t h => when_apart h (trioStart_apart h t)) _ h

@[simp] theorem ovrStopped_apart {s : State} (h : PinsApart s.lanes) (n : Nat) : PinsApart (ovrStopped s n).lanes := by
  refine settle_apart ?_ n
  exact setLane_apart_of h n (h.lane n)

@[simp] theorem wrLnCtl_apart {s : State} (h : PinsApart s.lanes) (n : Nat) (v : Word) : PinsApart (wrLnCtl s n v).lanes := by
  unfold wrLnCtl
  refine gate_apart h ?_
  extract_lets old en wantEn newEn keepCfg run lead newRun cnt sync hi w u t v l x tr y z
  have hu : PinsApart u.lanes := by simp [u, h]
  have hx : PinsApart x.lanes := by
    unfold x
    split
    · exact hu
    · have hv : PinsApart v.lanes := by simp [v, hu]
      refine settle_apart ?_ n
      exact setLane_apart_of hv n (hv.lane n)
  split_ifs
  · exact hx
  · simp [hx]
  · exact trioGo_apart hx t
  · exact forN_apart (fun _ j h => ovrStopped_apart h (3 * t + j)) 3 (boundaryTrips_apart (restLanes_apart (by simp [hx]) t) t)

@[simp] theorem wrLnOvr_apart {s : State} (h : PinsApart s.lanes) (n : Nat) (v : Word) : PinsApart (wrLnOvr s n v).lanes := by
  unfold wrLnOvr
  refine gate_apart h ?_
  extract_lets u v
  have hu : PinsApart u.lanes := by simp [u, h]
  have hv : PinsApart v.lanes := when_apart hu (by simp [hu])
  split
  · exact settle_apart hv n
  · exact ovrStopped_apart hv n

@[simp] theorem wrLanePlain_apart {s : State} (h : PinsApart s.lanes) (r : Reg) (n : Nat) (v : Word) :
    PinsApart (wrLanePlain s r n v).lanes := by
  unfold wrLanePlain
  refine gate_apart h ?_
  split
  · split <;> simp [h]
  · split <;> simp [h]
  · split <;> simp [h]
  · exact settle_apart (by simp [h]) n
  · simp [h]

@[simp] theorem rowSrc_apart {s : State} (h : PinsApart s.lanes) (k : Nat) :
    PinsApart (rowSrc s k).lanes := setSource_apart h _ _

@[simp] theorem wrRwBind_apart {s : State} (h : PinsApart s.lanes) (k x : Nat) (v : Word) :
    PinsApart (wrRwBind s k x v).lanes := by
  unfold wrRwBind
  refine gate_apart h ?_
  extract_lets clash twin u v
  split
  · simp [h]
  · exact rowSrc_apart (by simp [v, u, h]) k

@[simp] theorem wrRwCtl_apart {s : State} (h : PinsApart s.lanes) (k : Nat) (v : Word) : PinsApart (wrRwCtl s k v).lanes := by
  unfold wrRwCtl
  refine gate_apart h ?_
  extract_lets en ok u new v w
  have hu : PinsApart u.lanes := by unfold u; split <;> simp [h]
  have hv : PinsApart v.lanes := by simp [v, hu]
  have hw : PinsApart w.lanes := by
    unfold w
    split
    · exact hv
    · exact forN_apart (fun _ _ h => foldl_apart (fun _ _ h => by simp [h]) _ (by simp [h])) 4 hv
  exact rowSrc_apart (by simp [hw]) k

@[simp] theorem consec_apart {s : State} (h : PinsApart s.lanes) (k x : Nat) :
    PinsApart (consec s k x).lanes := rowSrc_apart (by simp [h]) k

@[simp] theorem miss_apart {s : State} (h : PinsApart s.lanes) (k x : Nat) : PinsApart (miss s k x).lanes := by
  unfold miss
  extract_lets u src v
  have hu : PinsApart u.lanes := by simp [u, h]
  refine consec_apart ?_ k x
  unfold v
  split <;> exact hu

@[simp] theorem onTime_apart {s : State} (h : PinsApart s.lanes) (k x : Nat) :
    PinsApart (onTime s k x).lanes := rowSrc_apart (by simp [h]) k

@[simp] theorem trigger_apart {s : State} (h : PinsApart s.lanes) (k x : Nat) : PinsApart (trigger s k x).lanes := by
  unfold trigger
  extract_lets b u newv a v src
  split_ifs
  · exact h
  · exact consec_apart (by simp [h]) k x
  · have hu : PinsApart u.lanes := by simp [u, h]
    have hv : PinsApart v.lanes := by unfold v; split <;> simp [hu]
    simp [hv]

@[simp] theorem triggers_apart {s : State} (h : PinsApart s.lanes) (src : Nat) (p : Nat → Nat → Bool) :
    PinsApart (triggers s src p).lanes := by
  refine forN_apart (fun _ k h => forN_apart (fun _ x h => ?_) 4 h) 64 h
  split
  · exact trigger_apart h k x
  · exact h

@[simp] theorem laneTrigger_apart {s : State} (h : PinsApart s.lanes) (n : Nat) :
    PinsApart (laneTrigger s n).lanes := triggers_apart h _ _

@[simp] theorem adDone_apart {s : State} (h : PinsApart s.lanes) (c : Nat) : PinsApart (adDone s c).lanes := by
  unfold adDone
  extract_lets u
  have hu : PinsApart u.lanes := by simp [u, h]
  exact triggers_apart hu _ _

end Sys2Proof.Proofs
end

section
namespace Sys2Proof.Proofs
open Sys2Proof Sys2Proof.Machine Sys2Proof.Safety Sys2Proof.Laws

/-! ### Activations, checkers and engine stops keep the pins apart -/

@[simp] theorem takeRejoin_apart {s : State} (h : PinsApart s.lanes) (k x : Nat) : PinsApart (takeRejoin s k x).1.lanes := by
  unfold takeRejoin
  extract_lets b
  split
  · exact h
  · extract_lets b' u v
    refine rowSrc_apart ?_ k
    unfold v
    split <;> simp [u, h]

@[simp] theorem tryStart_apart {s : State} (h : PinsApart s.lanes) (k x : Nat) : PinsApart (tryStart s k x).lanes := by
  unfold tryStart
  split
  · exact h
  next a _ _ =>
    extract_lets busy
    split
    · exact h
    · split
      next s1 join heq =>
        have h1 := fst_apart heq (takeRejoin_apart h k x)
        extract_lets es
        split
        · exact h
        · simp [h1]

@[simp] theorem startWaiting_apart {s : State} (h : PinsApart s.lanes) :
    PinsApart (startWaiting s).lanes := forN_apart (fun _ k h => forN_apart (fun _ x h => tryStart_apart h k x) 4 h) 64 h

@[simp] theorem applyCommit_apart {s : State} (h : PinsApart s.lanes) (k x n : Nat) :
    PinsApart (applyCommit s k x n).lanes := by
  unfold applyCommit
  extract_lets e u v
  have hv : PinsApart v.lanes := by simp [v, u, h]
  split
  · exact onTime_apart hv k x
  · simp [hv]

@[simp] theorem takeOver_apart {s : State} (h : PinsApart s.lanes) (k x q : Nat) : PinsApart (takeOver s k x q).lanes := by
  unfold takeOver
  extract_lets e
  split
  · exact h
  · split_ifs
    · exact h
    · exact h
    · exact applyCommit_apart h k x q
    · exact onTime_apart h k x
    · exact h

@[simp] theorem failover_apart {s : State} (h : PinsApart s.lanes) (k x n : Nat) : PinsApart (failover s k x n).lanes := by
  unfold failover
  split
  next g s1 heq =>
    have h1 := snd_apart heq (by simp [h])
    extract_lets q u v w y z
    have hw : PinsApart w.lanes := by simp [w, v, u, h1]
    have hy : PinsApart y.lanes := by unfold y; split <;> simp [hw]
    refine rowSrc_apart ?_ k
    unfold z
    clear_value q
    split
    · exact takeOver_apart hy k x _
    · exact hy

@[simp] theorem standbyLost_apart {s : State} (h : PinsApart s.lanes) (k x n : Nat) :
    PinsApart (standbyLost s k x n).lanes := rowSrc_apart (by simp [h]) k

@[simp] theorem checkerFault_apart {s : State} (h : PinsApart s.lanes) (n : Nat) : PinsApart (checkerFault s n).lanes := by
  unfold checkerFault
  extract_lets k e r
  have hr : PinsApart r.lanes := by simp [r, h]
  split
  · exact h
  next x _ =>
    extract_lets v w y
    have hv : PinsApart v.lanes := by simp [v, hr]
    have hw : PinsApart w.lanes := by
      unfold w
      split
      · exact hv
      · split <;> simp [hv]
    have hy : PinsApart y.lanes := by
      unfold y
      split_ifs
      · exact failover_apart hr k x n
      · exact rowSrc_apart hw k
      · exact standbyLost_apart hr k x n
      · exact hr
    simp [hy]

@[simp] theorem prevEnds_apart {s : State} (h : PinsApart s.lanes) (k x n : Nat) (commit : Bool) :
    PinsApart (prevEnds s k x n commit).lanes := by
  unfold prevEnds
  split
  next g s1 heq =>
    have h1 := snd_apart heq (by simp [h])
    extract_lets e e1 u
    have hu : PinsApart u.lanes := by
      unfold u
      split
      · exact onTime_apart (by simp [h1]) k x
      · exact h1
    split
    · exact h1
    · split <;> simp [hu]

@[simp] theorem checkerCommit_apart {s : State} (h : PinsApart s.lanes) (n : Nat) : PinsApart (checkerCommit s n).lanes := by
  unfold checkerCommit
  extract_lets k e
  split
  · exact h
  next x _ =>
    extract_lets dead u both
    have hu : PinsApart u.lanes := by simp [u, h]
    split_ifs
    · exact h
    · simp [h]
    · exact prevEnds_apart (by simp [h]) k x n true
    · simp [hu]
    · rw [judge_lanes]
      exact applyCommit_apart (by simp [hu]) k x n
    · simp [hu]
    · simp [hu]
    · split
      · split <;> simp [hu]
      · simp [hu]
    · exact hu

@[simp] theorem checkerYield_apart {s : State} (h : PinsApart s.lanes) (n : Nat) : PinsApart (checkerYield s n).lanes := by
  unfold checkerYield
  extract_lets k e e'
  split
  · exact h
  next x _ =>
    extract_lets u v dead w
    have hu : PinsApart u.lanes := by
      unfold u
      split
      · exact prevEnds_apart h k x n false
      · exact h
    have hv : PinsApart v.lanes := by simp [v, hu]
    have hw : PinsApart w.lanes := by
      unfold w
      split
      · exact onTime_apart hv k x
      · exact hv
    split
    · exact h
    · exact tryStart_apart (by simp [hw]) k x

@[simp] theorem closeAct_apart {s : State} (h : PinsApart s.lanes) (k x : Nat) (a : OpenAct) (rest : List OpenAct) :
    PinsApart (closeAct s k x a rest).lanes := by
  unfold closeAct
  extract_lets b u v
  have hu : PinsApart u.lanes := by simp [u, h]
  refine tryStart_apart ?_ k x
  unfold v
  split
  · exact miss_apart hu k x
  · exact consec_apart (by simp [hu]) k x

@[simp] theorem pairDeadline_apart {s : State} (h : PinsApart s.lanes) (k x p q : Nat) :
    PinsApart (pairDeadline s k x p q).lanes := by
  unfold pairDeadline
  extract_lets u
  have hu : PinsApart u.lanes := by simp [u, h]
  split_ifs
  · exact miss_apart hu k x
  · exact miss_apart hu k x
  · exact hu
  · exact applyCommit_apart hu k x q
  · exact failover_apart hu k x p
  · exact hu
  · exact standbyLost_apart hu k x q
  · exact hu

@[simp] theorem runDeadline_apart {s : State} (h : PinsApart s.lanes) (k x : Nat) : PinsApart (runDeadline s k x).lanes := by
  unfold runDeadline
  extract_lets b u both
  have hu : PinsApart u.lanes := by simp [u, h]
  split
  · split_ifs
    · exact pairDeadline_apart hu k x _ _
    · exact miss_apart (by simp [hu]) k x
    · exact hu
  · split
    · exact miss_apart (by simp [hu]) k x
    · exact hu
  · exact hu

@[simp] theorem prevDeadline_apart {s : State} (h : PinsApart s.lanes) (k x : Nat) (e : HeldAct) :
    PinsApart (prevDeadline s k x e).lanes := by
  unfold prevDeadline
  split
  · simp [h]
  · exact failover_apart h ..

@[simp] theorem drainCe_apart {s : State} (h : PinsApart s.lanes) (n : Nat) (e : SbEntry) :
    PinsApart (drainCe s n e).lanes := by
  unfold drainCe
  split_ifs
  · exact checkerCommit_apart h n
  · simp [h]
  · simp [h]
  · simp [h]

@[simp] theorem drainAll_apart {s : State} (h : PinsApart s.lanes) (n : Nat) :
    PinsApart (drainAll s n).lanes := foldl_apart (fun _ e h => drainCe_apart h n e) _ (by simp [h])

@[simp] theorem stopped_apart {s : State} (h : PinsApart s.lanes) (n cause : Nat) (prec : Bool) (pc : Nat) (addr : Word) :
    PinsApart (stopped s n cause prec pc addr).lanes := by
  unfold stopped
  extract_lets f cnt u v c w y z
  have hy : PinsApart y.lanes := by simp [y, w, v, u, h]
  have hz : PinsApart z.lanes := checkerFault_apart (by simp [hy]) n
  split
  · exact tryStart_apart hz ..
  · exact hz

@[simp] theorem faultStop_apart {s : State} (h : PinsApart s.lanes) (n cause : Nat) (addr : Word) (aex : Nat) :
    PinsApart (faultStop s n cause addr aex).lanes := by
  unfold faultStop
  extract_lets pc u v c c' w y z
  have hv : PinsApart v.lanes := drainAll_apart (by unfold u; split <;> simp [h]) n
  have hw : PinsApart w.lanes := by simp [w, hv]
  have hy : PinsApart y.lanes := by unfold y; split <;> simp [hw]
  have hz : PinsApart z.lanes := by unfold z; split <;> simp [hy]
  exact stopped_apart hz n _ _ _ _

@[simp] theorem abandon_apart {s : State} (h : PinsApart s.lanes) (n cause : Nat) : PinsApart (abandon s n cause).lanes := by
  unfold abandon
  extract_lets c cut side first old c' undo u
  split
  · exact h
  · exact stopped_apart (by simp [u, h]) ..

@[simp] theorem rowReset_apart {s : State} (h : PinsApart s.lanes) (k : Nat) : PinsApart (rowReset s k).lanes := by
  unfold rowReset
  extract_lets lanes u lo v w y z a
  have hw : PinsApart w.lanes := forN_apart (fun _ _ h => by simp [h]) 8 (by simp [v, u, h])
  have hy : PinsApart y.lanes := forN_apart (fun _ _ h => by simp [h]) 4 hw
  have ha : PinsApart a.lanes := by
    refine foldl_apart (fun r n hr => settle_apart ?_ n) _ (by simp [z, hy])
    exact setLane_apart_of hr n (hr.lane n)
  rw [wrB_lanes]
  exact rowSrc_apart ha k

@[simp] theorem rowResetEnd_apart {s : State} (h : PinsApart s.lanes) (k : Nat) : PinsApart (rowResetEnd s k).lanes := by
  unfold rowResetEnd
  extract_lets u r v
  have hu : PinsApart u.lanes := by
    refine forN_apart (fun r n hr => ?_) _ h
    split
    · refine settle_apart ?_ n
      exact setLane_apart_of hr n (hr.lane n)
    · exact hr
  exact rowSrc_apart (by simp [v, hu]) k

end Sys2Proof.Proofs
end

section
namespace Sys2Proof.Proofs
open Sys2Proof Sys2Proof.Machine Sys2Proof.Safety Sys2Proof.Laws

/-! ### Converters, lane events, timers and low-frequency time keep the pins apart -/

@[simp] theorem coarseWord_apart {s : State} (h : PinsApart s.lanes) (i : Nat) (w : Int) :
    PinsApart (coarseWord s i w).lanes := by
  unfold coarseWord
  extract_lets hi lo u v w c x y z
  have hu : PinsApart u.lanes := by simp [u, h]
  have hv : PinsApart v.lanes := by unfold v; split <;> simp [hu]
  have hw : PinsApart w.lanes := by unfold w; split <;> simp [hv]
  have hy : PinsApart y.lanes := by simp [y, hw]
  have hz : PinsApart z.lanes := by simp [z, hw]
  split_ifs
  · exact setSource_apart hy _ _
  · exact hy
  · exact setSource_apart hz _ _
  · exact hz

theorem groupInputs_apart {f : State → Nat → State} (hf : ∀ s i, PinsApart s.lanes → PinsApart (f s i).lanes) {s : State}
    (h : PinsApart s.lanes) (g : Nat) :
    PinsApart (groupInputs s g f).lanes := forN_apart (fun _ _ h => hf _ _ h) _ h

@[simp] theorem clockError_apart {s : State} (h : PinsApart s.lanes) (g : Nat) (edge : Bool) :
    PinsApart (clockError s g edge).lanes := by
  unfold clockError
  extract_lets src u v
  have hv : PinsApart v.lanes := by simp [v, u, h]
  split
  · simp [u, h]
  · refine groupInputs_apart (fun r i hr => ?_) hv g
    extract_lets w
    have hw : PinsApart w.lanes := by simp [w, hr]
    split
    · exact setSource_apart hw _ _
    · exact hw

@[simp] theorem wrSdCflt_apart {s : State} (h : PinsApart s.lanes) (i : Nat) (v : Word) : PinsApart (wrSdCflt s i v).lanes := by
  unfold wrSdCflt
  refine gate_apart h ?_
  extract_lets old en v1 v2 was u
  have hu : PinsApart u.lanes := by simp [u, h]
  split_ifs
  · simp [hu]
  · exact hu
  · exact setSource_apart hu _ _

@[simp] theorem resetSensing_apart {s : State} (h : PinsApart s.lanes) :
    PinsApart (resetSensing s).lanes := forN_apart (fun _ _ h => setSource_apart h _ _) _ h

@[simp] theorem resetSensingEnd_apart {s : State} (h : PinsApart s.lanes) :
    PinsApart (resetSensingEnd s).lanes := forN_apart (fun _ _ h => setSource_apart h _ _) _ h

@[simp] theorem emitLane_apart {s : State} (h : PinsApart s.lanes) (n : Nat) : PinsApart (emitLane s n).lanes := by
  rw [emitLane, dumpEvent_lanes]
  exact laneTrigger_apart (by simp [h]) n

@[simp] theorem candidate_apart {s : State} (h : PinsApart s.lanes) (n : Nat) (kind : LaneEv) :
    PinsApart (candidate s n kind).lanes := by
  unfold candidate
  extract_lets u l
  have hu : PinsApart u.lanes := noteEv_apart h n _
  split_ifs
  · exact h
  · refine emitLane_apart ?_ n
    exact setLane_apart_of hu n (hu.lane n)
  · exact setLane_apart_of hu n (hu.lane n)

@[simp] theorem wrLnEvt_apart {s : State} (h : PinsApart s.lanes) (n : Nat) (v : Word) : PinsApart (wrLnEvt s n v).lanes := by
  unfold wrLnEvt
  refine gate_apart h ?_
  extract_lets u l v again
  have hu : PinsApart u.lanes := by simp [u, h]
  have hv : PinsApart v.lanes := setLane_apart_of hu n (hu.lane n)
  split
  · exact candidate_apart hv n _
  · exact hv

@[simp] theorem wrLane_apart {s : State} (h : PinsApart s.lanes) (r : Reg) (n : Nat) (v : Word) :
    PinsApart (wrLane s r n v).lanes := by
  unfold wrLane
  split
  · exact wrLnCtl_apart h n v
  · exact wrLnEvt_apart h n v
  · exact wrLnOvr_apart h n v
  · exact gate_apart h (by simp [h])
  · exact wrLanePlain_apart h r n v

@[simp] theorem stagedStore_apart {s : State} (h : PinsApart s.lanes) (addr : Nat) (v : Word) :
    PinsApart (stagedStore s addr v).lanes := by
  unfold stagedStore
  split
  · split
    · exact wrLane_apart h _ _ v
    · exact h
  · exact h

@[simp] theorem gtFire_apart {s : State} (h : PinsApart s.lanes) (t c : Nat) : PinsApart (gtFire s t c).lanes := by
  unfold gtFire
  extract_lets ch u v
  rw [gtLinks_lanes]
  exact triggers_apart (by simp [v, u, h]) _ _

@[simp] theorem wrGtCmp_apart {s : State} (h : PinsApart s.lanes) (t c : Nat) (v : Word) :
    PinsApart (wrGtCmp s t c v).lanes := by
  unfold wrGtCmp
  refine gate_apart h ?_
  extract_lets u ch v ch'
  have hv : PinsApart v.lanes := by simp [v, u, h]
  split
  · exact gtFire_apart (by simp [hv]) t c
  · exact hv

@[simp] theorem enterLf_apart {s : State} (h : PinsApart s.lanes) : PinsApart (enterLf s).lanes := by
  unfold enterLf
  extract_lets u
  refine settleAll_apart ?_
  simp [u, h]

@[simp] theorem quietLf_apart {s : State} (h : PinsApart s.lanes) : PinsApart (quietLf s).lanes := by
  unfold quietLf
  split_ifs
  · simp [h]
  · exact enterLf_apart h
  · exact h

@[simp] theorem lfLeave_apart {s : State} (h : PinsApart s.lanes) :
    PinsApart (lfLeave s).lanes := startHeld_apart (settleAll_apart (by simp [h]))

@[simp] theorem wrTbCtl_apart {s : State} (h : PinsApart s.lanes) (v : Word) : PinsApart (wrTbCtl s v).lanes := by
  unfold wrTbCtl
  refine gate_apart h ?_
  extract_lets u v
  have hu : PinsApart u.lanes := quietLf_apart (by simp [h])
  split
  · exact hu
  · simp [v, hu]

end Sys2Proof.Proofs
end

section
namespace Sys2Proof.Proofs
open Sys2Proof Sys2Proof.Machine Sys2Proof.Safety Sys2Proof.Laws

/-! ### Resets and the power phases keep the pins apart -/

@[simp] theorem resetCore_lanes (s : State) (phase : ResetPhase) (por cold : Bool) (rs : Word) :
    (resetCore s phase por cold rs).lanes = [] := by
  unfold resetCore
  extract_lets
  split
  · rw [findHead_lanes]
    rfl
  · rfl

theorem resetCore_apart (s : State) (phase : ResetPhase) (por cold : Bool) (rs : Word) :
    PinsApart (resetCore s phase por cold rs).lanes := by
  rw [resetCore_lanes]
  exact pinsApart_nil

@[simp] theorem powerOn_apart (s : State) (cause : PorCause) : PinsApart (powerOn s cause).lanes := by
  unfold powerOn
  split
  · rw [resealAtPor_lanes]
    exact resetCore_apart ..
  · extract_lets
    split <;> rw [resealAtPor_lanes] <;> exact resetCore_apart ..

@[simp] theorem deviceReset_apart {s : State} (h : PinsApart s.lanes) (last flag : Nat) :
    PinsApart (deviceReset s last flag).lanes := by
  unfold deviceReset
  split
  · exact h
  · exact resetCore_apart ..

@[simp] theorem wrFmCtl_apart {s : State} (h : PinsApart s.lanes) (v : Word) : PinsApart (wrFmCtl s v).lanes := by
  unfold wrFmCtl
  refine gate_apart h ?_
  extract_lets u
  have hu : PinsApart u.lanes := by simp [u, h]
  split
  · exact deviceReset_apart hu ..
  · exact hu

@[simp] theorem holdGc_apart {s : State} (h : PinsApart s.lanes) : PinsApart (holdGc s).lanes := by
  refine forN_apart (fun r n hr => ?_) 64 h
  extract_lets a b src u
  have hu : PinsApart u.lanes := by simp [u, hr]
  have hv : PinsApart (u.when a (setSource · (2 * n) true)).lanes := when_apart hu (setSource_apart hu _ _)
  exact when_apart hv (setSource_apart hv _ _)

@[simp] theorem resetGc_apart {s : State} (h : PinsApart s.lanes) : PinsApart (resetGc s).lanes := by
  rw [resetGc, dropRegs_lanes]
  exact holdGc_apart h

@[simp] theorem resetGcEnd_apart {s : State} (h : PinsApart s.lanes) : PinsApart (resetGcEnd s).lanes := by
  refine forN_apart (fun r n hr => ?_) 64 h
  exact setSource_apart (setSource_apart (by simp [hr]) _ _) _ _

@[simp] theorem leaveIdle_apart {s : State} (h : PinsApart s.lanes) :
    PinsApart (leaveIdle s).lanes := startWaiting_apart (by rw [setB_lanes, powerGo_lanes]; exact h)

@[simp] theorem powerRequest_apart {s : State} (h : PinsApart s.lanes) (req : Nat) : PinsApart (powerRequest s req).lanes := by
  unfold powerRequest
  extract_lets dbg u
  have hu : PinsApart u.lanes := forN_apart (fun _ _ h => by simp [h]) 64 h
  split_ifs
  · exact h
  · simp [h]
  · exact leaveIdle_apart h
  · exact h
  · simp [h]
  · simp [h]
  · simp [h]
  · exact h
  · simp [h]
  · exact settleAll_apart (by simp [hu])

@[simp] theorem wrFmPwr_apart {s : State} (h : PinsApart s.lanes) (who : Nat) (v : Word) :
    PinsApart (wrFmPwr s who v).lanes := by
  unfold wrFmPwr
  refine gate_apart h ?_
  extract_lets u
  have hu : PinsApart u.lanes := by simp [u, h]
  split
  · exact powerRequest_apart hu _
  · exact hu

@[simp] theorem fresetBegin_apart {s : State} (h : PinsApart s.lanes) (f : Nat) : PinsApart (fresetBegin s f).lanes := by
  unfold fresetBegin
  extract_lets u src v
  have hv : PinsApart v.lanes := by simp [v, u, h]
  split
  · exact rowReset_apart hv f
  · split
    · exact resetSensing_apart hv
    · simp [hv]
    · simp [hv]
    · exact resetGc_apart hv
    all_goals simp [hv]

@[simp] theorem freset_apart {s : State} (h : PinsApart s.lanes) (f : Nat) : PinsApart (freset s f).lanes := by
  unfold freset
  split
  · simp [h]
  · exact fresetBegin_apart h f

@[simp] theorem fresetWrite_apart {s : State} (h : PinsApart s.lanes) (v : Word) : PinsApart (fresetWrite s v).lanes := by
  unfold fresetWrite
  refine gate_apart h ?_
  extract_lets u
  have hu : PinsApart u.lanes := by simp [u, h]
  split
  · exact freset_apart hu _
  · exact hu

@[simp] theorem wrFmFreset_apart {s : State} (h : PinsApart s.lanes) (who : Nat) (v : Word) :
    PinsApart (wrFmFreset s who v).lanes := by
  unfold wrFmFreset
  split
  · exact fresetWrite_apart h v
  · exact h

end Sys2Proof.Proofs
end

section
namespace Sys2Proof.Proofs
open Sys2Proof Sys2Proof.Machine Sys2Proof.Safety Sys2Proof.Laws

/-! ### Register writes, buffered stores and exceptions keep the pins apart -/

@[simp] theorem writeReg_apart {s : State} (h : PinsApart s.lanes) (who : Nat) (r : Reg) (i j : Nat) (v : Word) :
    PinsApart (writeReg s who r i j v).lanes := by
  cases r
  case muSafe => exact gate_apart h (settle_apart (by simp [h]) i)
  all_goals
    dsimp only [writeReg]
    simp [h]

@[simp] theorem writeWordAt_apart {s : State} (h : PinsApart s.lanes) (who a : Nat) (v : Word) :
    PinsApart (writeWordAt s who a v).lanes := by
  unfold writeWordAt
  split
  · exact gate_apart h (by simp [h])
  · split
    · exact writeReg_apart h ..
    · exact h

@[simp] theorem writePiece_apart {s : State} (h : PinsApart s.lanes) (who a : Nat) (bs : List (Byte × Bool)) :
    PinsApart (writePiece s who a bs).lanes := by
  unfold writePiece
  split_ifs
  · exact writeWordAt_apart h ..
  · simp [h]
  · exact h

@[simp] theorem busWrite_apart {s : State} (h : PinsApart s.lanes) (who a : Nat) (bs : List (Byte × Bool)) :
    PinsApart (busWrite s who a bs).lanes := foldl_fst_apart (fun _ _ h => writePiece_apart h ..) _ h

@[simp] theorem resetSent_apart {s : State} (h : PinsApart s.lanes) (path : Path) : PinsApart (resetSent s path).lanes := by
  unfold resetSent
  extract_lets u
  have hu : PinsApart u.lanes := deviceReset_apart h ..
  split
  · exact h
  · simp [hu]

@[simp] theorem applyDescriptor_apart {s : State} (h : PinsApart s.lanes) (es : List DEntry) :
    PinsApart (applyDescriptor s es).lanes := by
  unfold applyDescriptor
  extract_lets u
  have hu : PinsApart u.lanes := by simp [u, h]
  exact settleAll_apart (by simp [hu])

@[simp] theorem drainEntry_apart {s : State} (h : PinsApart s.lanes) (c : Nat) (e : SbEntry) :
    PinsApart (drainEntry s c e).lanes := by
  unfold drainEntry
  split
  · exact drainCe_apart h c e
  · exact busWrite_apart (by simp [h]) ..

@[simp] theorem drainBuffer_apart {s : State} (h : PinsApart s.lanes) (c : Nat) : PinsApart (drainBuffer s c).lanes := by
  unfold drainBuffer
  extract_lets sb k u
  refine foldl_apart (fun _ _ h => ?_) _ (by simp [u, h])
  split
  · exact h
  · exact drainEntry_apart h c _

@[simp] theorem enterHandler_apart {s : State} (h : PinsApart s.lanes) (n code epc : Nat) (eaddr : Word) (sp : Nat)
    (spPoison : Bool) :
    PinsApart (enterHandler s n code epc eaddr sp spPoison).lanes := by
  unfold enterHandler
  extract_lets c ws u v w x y z k a b
  have hu : PinsApart u.lanes := drainBuffer_apart h c
  have hz : PinsApart z.lanes := by simp [z, y, x, v, hu]
  have hb : PinsApart b.lanes := by simp [b, a, hz]
  split
  · exact hu
  · split <;> simp [hb]

@[simp] theorem lockout_apart {s : State} (h : PinsApart s.lanes) (n : Nat) (sp : Word) : PinsApart (lockout s n sp).lanes := by
  unfold lockout
  extract_lets c u k v w
  have hu : PinsApart u.lanes := drainBuffer_apart (by simp [h]) c
  split
  · exact hu
  · simp [w, v, hu]

@[simp] theorem stackFail_apart {s : State} (h : PinsApart s.lanes) (n code resume : Nat) (sp : Word) :
    PinsApart (stackFail s n code resume sp).lanes := by
  unfold stackFail
  extract_lets c
  split
  · exact lockout_apart h ..
  · exact enterHandler_apart (by simp [h]) ..

@[simp] theorem takeException_apart {s : State} (h : PinsApart s.lanes) (n code epc : Nat) (eaddr : Word) (resume : Nat) :
    PinsApart (takeException s n code epc eaddr resume).lanes := by
  unfold takeException
  extract_lets sp
  split_ifs
  · exact h
  · exact enterHandler_apart (by simp [h]) ..
  · exact stackFail_apart (by simp [h]) ..

@[simp] theorem raise_apart {s : State} (h : PinsApart s.lanes) (c cause code : Nat) (ceAddr svAddr : Word) :
    PinsApart (raise s c cause code ceAddr svAddr).lanes := by
  unfold raise
  extract_lets pc
  split
  · exact faultStop_apart h ..
  · exact takeException_apart h ..

@[simp] theorem illegal_apart {s : State} (h : PinsApart s.lanes) (c : Nat) : PinsApart (illegal s c).lanes := raise_apart h ..

@[simp] theorem accessFault_apart {s : State} (h : PinsApart s.lanes) (c f : Nat) (a : Word) :
    PinsApart (accessFault s c f a).lanes := raise_apart h ..

@[simp] theorem poisonFault_apart {s : State} (h : PinsApart s.lanes) (c : Nat) (ceAddr svAddr : Word) :
    PinsApart (poisonFault s c ceAddr svAddr).lanes := raise_apart h ..

@[simp] theorem arithTrap_apart {s : State} (h : PinsApart s.lanes) (c aex : Nat) : PinsApart (arithTrap s c aex).lanes := by
  unfold arithTrap
  extract_lets u pc
  split
  · exact faultStop_apart h ..
  · exact takeException_apart (by simp [u, h]) ..

@[simp] theorem fetch_apart {s : State} (h : PinsApart s.lanes) (c : Nat) : PinsApart (fetch s c).1.lanes := by
  unfold fetch
  extract_lets k a f m
  split
  · exact h
  split
  · exact accessFault_apart h c _ _
  split
  · exact h
  split
  · simp [h]
  split
  next bs s1 heq =>
    have h1 := snd_apart heq (by simp [h])
    extract_lets s2
    have h2 : PinsApart s2.lanes := by unfold s2; split <;> simp [h, h1]
    split
    · exact poisonFault_apart h2 c _ _
    · exact h2

end Sys2Proof.Proofs
end

section
namespace Sys2Proof.Proofs
open Sys2Proof Sys2Proof.Machine Sys2Proof.Safety Sys2Proof.Laws

/-! ### The instructions of a core keep the pins apart -/

@[simp] theorem noteDone_lanes (s0 s : State) (c : Nat) : (noteDone s0 s c).lanes = s.lanes := by
  unfold noteDone
  split <;> simp

@[simp] theorem goFar_lanes (s0 s : State) (c : Nat) (o : FarOp) : (goFar s0 s c o).lanes = s.lanes := by simp [goFar]

theorem issue_apart {s : State} (h : PinsApart s.lanes) (c : Nat) (q : Need) {body : State → State}
    (hb : ∀ t, PinsApart t.lanes → PinsApart (body t).lanes) :
    PinsApart (issue s c q body).lanes := by
  unfold issue
  split
  · exact h
  split
  next s1 go heq =>
    have h1 : PinsApart s1.lanes := fst_apart heq (fetch_apart h c)
    split_ifs
    · simp [h1]
    · simp [h1]
    · simp [h1]
    · simp [h1]
    · simp [h1]
    · simp [hb s1 h1]

@[simp] theorem deliver_apart {s : State} (h : PinsApart s.lanes) (c rd d : Nat) (r : Res) (poison : Bool) :
    PinsApart (deliver s c rd d r poison).lanes := by
  unfold deliver
  extract_lets aex
  split
  · exact arithTrap_apart h ..
  · rw [preciseWait_lanes, complete_lanes, setAex_lanes]
    split <;> simp [h]

@[simp] theorem toUnit_apart {s : State} (h : PinsApart s.lanes) (c rd : Nat) (u : SideUnit) (r : Res) (poison : Bool) :
    PinsApart (toUnit s c rd u r poison).lanes := by
  unfold toUnit
  extract_lets aex k o u v
  have hu : PinsApart u.lanes := by simp [u, h]
  have hv : PinsApart v.lanes := by unfold v; split <;> simp [hu]
  split
  · exact arithTrap_apart h ..
  · simp [hv]

@[simp] theorem op2_apart {s : State} (h : PinsApart s.lanes) (c rd ra rb d : Nat) (f : Word → Word → Res) :
    PinsApart (op2 s c rd ra rb d f).lanes := issue_apart h c _ (fun _ ht => deliver_apart ht ..)

@[simp] theorem op1_apart {s : State} (h : PinsApart s.lanes) (c rd ra d : Nat) (f : Word → Res) :
    PinsApart (op1 s c rd ra d f).lanes := issue_apart h c _ (fun _ ht => deliver_apart ht ..)

@[simp] theorem op3_apart {s : State} (h : PinsApart s.lanes) (c rd ra rb d : Nat) (f : Word → Word → Word → Res) :
    PinsApart (op3 s c rd ra rb d f).lanes := issue_apart h c _ (fun _ ht => deliver_apart ht ..)

@[simp] theorem opSide_apart {s : State} (h : PinsApart s.lanes) (c rd ra rb : Nat) (u : SideUnit) (f : Word → Word → Res) :
    PinsApart (opSide s c rd ra rb u f).lanes := issue_apart h c _ (fun _ ht => toUnit_apart ht ..)

@[simp] theorem endYield_apart {s : State} (h : PinsApart s.lanes) (n : Nat) : PinsApart (endYield s n).lanes := by
  unfold endYield
  extract_lets k k' k''
  split
  · exact h
  · exact checkerYield_apart (by simp [h]) n

@[simp] theorem drainIrqc_apart (c : Nat) : ∀ (f : Nat) {s : State}, PinsApart s.lanes → PinsApart (drainIrqc c f s).lanes
  | 0, _, h => h
  | f + 1, s, h => by
    unfold drainIrqc
    split
    · exact h
    · split
      · exact h
      · exact drainIrqc_apart c f (drainEntry_apart (by simp [h]) c _)

@[simp] theorem beforeClaim_apart {s : State} (h : PinsApart s.lanes) (c : Nat) :
    PinsApart (beforeClaim s c).lanes := drainIrqc_apart c _ h

@[simp] theorem loadAt_apart {s : State} (h : PinsApart s.lanes) (c : Nat) (aw : Word) (n : Nat) (signed : Bool) (rd : Nat)
    (upd : Option (Nat × Word)) :
    PinsApart (loadAt s c aw n signed rd upd).lanes := by
  unfold loadAt
  extract_lets a f claims u sb hs u0 split d fwd sv v w x taken
  have hu : PinsApart u.lanes := by
    unfold u
    split
    · exact beforeClaim_apart h c
    · exact h
  have hx : PinsApart x.lanes := by simp [x, w, v, hu]
  split_ifs
  · exact accessFault_apart hu ..
  · exact hu
  · simp [hu]
  · simp [hu]
  · split
    next os y heq =>
      rw [complete_lanes]
      exact snd_apart heq (by simp [hx])
  · simp [hx]

@[simp] theorem atomicAt_apart {s : State} (h : PinsApart s.lanes) (c : Nat) (aw : Word) (rd : Nat) (kind : FarKind) :
    PinsApart (atomicAt s c aw rd kind).lanes := by
  unfold atomicAt
  extract_lets a f
  split_ifs
  · exact accessFault_apart h ..
  · simp [h]
  · simp [h]
  · split
    next os y heq =>
      rw [complete_lanes]
      exact snd_apart heq (by simp [h])
  · simp [h]

@[simp] theorem storeAt_apart {s : State} (h : PinsApart s.lanes) (c : Nat) (aw : Word) (n : Nat) (v : Tagged)
    (upd : Option (Nat × Word)) :
    PinsApart (storeAt s c aw n v upd).lanes := by
  unfold storeAt
  extract_lets a f k hs bs es u k'
  have hu : PinsApart u.lanes := by unfold u; split <;> simp [h]
  split_ifs
  · exact accessFault_apart h ..
  · exact poisonFault_apart h ..
  · simp [h]
  · simp [hu]

@[simp] theorem loadForm_apart {s : State} (h : PinsApart s.lanes) (c n : Nat) (signed : Bool) (rd ra : Nat) (imm : BitVec 16) :
    PinsApart (loadForm s c n signed rd ra imm).lanes := by
  refine issue_apart h c _ (fun t ht => ?_)
  extract_lets b a
  split
  · exact poisonFault_apart ht ..
  · exact loadAt_apart ht ..

@[simp] theorem storeForm_apart {s : State} (h : PinsApart s.lanes) (c n : Nat) (rd ra : Nat) (imm : BitVec 16) :
    PinsApart (storeForm s c n rd ra imm).lanes := by
  refine issue_apart h c _ (fun t ht => ?_)
  extract_lets b a
  split
  · exact poisonFault_apart ht ..
  · exact storeAt_apart ht ..

@[simp] theorem loadPost_apart {s : State} (h : PinsApart s.lanes) (c n : Nat) (signed : Bool) (rd ra : Nat) (imm : BitVec 16) :
    PinsApart (loadPost s c n signed rd ra imm).lanes := by
  refine issue_apart h c _ (fun t ht => ?_)
  extract_lets b
  split_ifs
  · exact illegal_apart ht c
  · exact poisonFault_apart ht ..
  · exact loadAt_apart ht ..

@[simp] theorem storePost_apart {s : State} (h : PinsApart s.lanes) (c n : Nat) (rd ra : Nat) (imm : BitVec 16) :
    PinsApart (storePost s c n rd ra imm).lanes := by
  refine issue_apart h c _ (fun t ht => ?_)
  extract_lets b
  split
  · exact poisonFault_apart ht ..
  · exact storeAt_apart ht ..

@[simp] theorem irqSettle_apart {s : State} (h : PinsApart s.lanes) : PinsApart (irqSettle s).lanes := by
  refine forN_apart (fun t r ht => ?_) 16 (forN_apart (fun _ n h => beforeClaim_apart h (512 + n)) 4 h)
  extract_lets c
  split <;> simp [ht]

@[simp] theorem branchForm_apart {s : State} (h : PinsApart s.lanes) (c ra : Nat) (off : BitVec 21) (onZero : Bool) :
    PinsApart (branchForm s c ra off onZero).lanes := by
  refine issue_apart h c _ (fun t ht => ?_)
  extract_lets a
  split
  · exact poisonFault_apart ht ..
  · simp [ht]

@[simp] theorem jumpForm_apart {s : State} (h : PinsApart s.lanes) (c : Nat) (rd : Option Nat) (ra : Nat) :
    PinsApart (jumpForm s c rd ra).lanes := by
  refine issue_apart h c _ (fun t ht => ?_)
  extract_lets a link
  split_ifs
  · exact poisonFault_apart ht ..
  · exact accessFault_apart ht ..
  · simp [ht]

@[simp] theorem directForm_apart {s : State} (h : PinsApart s.lanes) (c : Nat) (rd : Option Nat) (off : BitVec 21) :
    PinsApart (directForm s c rd off).lanes := issue_apart h c _ (fun t ht => by simp [ht])

@[simp] theorem svEret_apart {s : State} (h : PinsApart s.lanes) (n : Nat) : PinsApart (svEret s n).lanes := by
  unfold svEret
  extract_lets c pc s1 sp a s2
  have h1 : PinsApart s1.lanes := by simp [s1, h]
  have h2 : PinsApart s2.lanes := drainBuffer_apart h1 c
  split_ifs
  · exact h
  · exact stackFail_apart h1 ..
  · exact h
  · exact h2
  · split
    next ws s3 heq =>
      have h3 := snd_apart heq (by rw [foldl2_lanes (fun _ _ => by simp)]; exact h2)
      split
      · exact takeException_apart h3 ..
      · simp [h3]

@[simp] theorem longForm_apart {s : State} (h : PinsApart s.lanes) (c : Nat) (k : LongKind) (rd ra rb : Nat) :
    PinsApart (longForm s c k rd ra rb).lanes := by
  refine issue_apart h c _ (fun t ht => ?_)
  extract_lets d a b
  split_ifs
  · exact poisonFault_apart ht ..
  · exact poisonFault_apart ht ..
  · exact poisonFault_apart ht ..
  · exact accessFault_apart ht ..
  · exact accessFault_apart ht ..
  · simp [ht]
  · simp [ht]

@[simp] theorem setHalt_apart {s : State} (h : PinsApart s.lanes) (c : Nat) (b : Bool) : PinsApart (setHalt s c b).lanes := by
  unfold setHalt
  extract_lets k u
  have hu : PinsApart u.lanes := by simp [u, h]
  split
  · simp [hu]
  · split
    · exact tryStart_apart hu ..
    · exact hu

end Sys2Proof.Proofs
end

section
namespace Sys2Proof.Proofs
open Sys2Proof Sys2Proof.Machine Sys2Proof.Safety Sys2Proof.Laws

/-! ### Every command keeps the pins apart -/

/-- Where the outcome is a next state, that state's lanes keep their pins apart. -/
def NextApart (o : Host.Outcome State Fault Refusal) : Prop := ∀ t, o = .next t → PinsApart t.lanes

@[simp] theorem nextApart_next {t : State} : NextApart (.next t) ↔ PinsApart t.lanes :=
  ⟨fun h => h t rfl, fun h _ ht => by cases ht; exact h⟩

@[simp] theorem nextApart_ite (c : Prop) [Decidable c] (a b : Host.Outcome State Fault Refusal) :
    NextApart (if c then a else b) ↔ if c then NextApart a else NextApart b := by
  split <;> rfl

theorem NextApart.of_next {t : State} (h : PinsApart t.lanes) : NextApart (.next t) := nextApart_next.mpr h

theorem command_apart {s : State} (h : PinsApart s.lanes) (c : HostCmd) (path : Path) (seq : BitVec 16) (cmd : Nat)
    {f : State → State × Nat × Nat × List Word} (hf : PinsApart (f s).1.lanes) :
    PinsApart (command s c path seq cmd f).lanes := by
  unfold command
  extract_lets r
  split
  · exact h
  split
  · simp [h]
  split
  next s1 st len ws heq =>
    have h1 := fst_apart heq hf
    split
    · exact h1
    · simp [h1]

theorem dbgOp_apart {s : State} (h : PinsApart s.lanes) (early : Bool) (x : BitVec 72) {f : State → State}
    (hf : ∀ t, PinsApart t.lanes → PinsApart (f t).lanes) :
    PinsApart (dbgOp s early x f).lanes := by
  unfold dbgOp
  extract_lets busy src u r
  have hu : PinsApart u.lanes := h
  split_ifs
  · exact h
  · exact hu
  · exact hu
  · exact hf u hu

theorem withStr_apart {s : State} (h : PinsApart s.lanes) (x : StrS) : PinsApart ({ s with str := x } : State).lanes := h
/-- Where a step of a long instruction is done, the state it leaves keeps the pins apart. -/
def DoneApart (r : LongRes) : Prop := ∀ t d a m, r = .done t d a m → PinsApart t.lanes

theorem DoneApart.of_done {t : State} (h : PinsApart t.lanes) (d a : Tagged) (m : Nat) : DoneApart (.done t d a m) :=
  fun _ _ _ _ he => by cases he; exact h

theorem doneApart_fault (f : Nat) (x : Word) : DoneApart (.fault f x) := fun _ _ _ _ he => nomatch he
theorem doneApart_wait : DoneApart .wait := fun _ _ _ _ he => nomatch he

theorem longWork_apart {s : State} (h : PinsApart s.lanes) (c : Nat) (k : LongKind) (d a : Tagged) (left : Nat) :
    DoneApart (longWork s c k d a left) := by
  have hb (b n : Nat) : PinsApart (busRead s c b n).2.lanes := by simp [h]
  cases k <;> dsimp only [longWork]
  case bcpy =>
    split_ifs
    · exact doneApart_fault _ _
    · exact doneApart_fault _ _
    · exact doneApart_wait
    · exact .of_done (busWrite_apart (hb _ _) ..) _ _ _
  case bset =>
    split_ifs
    · exact doneApart_fault _ _
    · exact doneApart_wait
    · exact .of_done (busWrite_apart h ..) _ _ _
  case bcrc =>
    split_ifs
    · exact doneApart_fault _ _
    · exact doneApart_wait
    · exact .of_done (hb _ _) _ _ _
  case cload =>
    generalize (if 16777215 < a.1.toNat then 5 else stepJudge s (c - 512) .load (entryAddr a.1) 8) = fr
    split_ifs
    · exact doneApart_fault _ _
    · exact doneApart_fault _ _
    · exact doneApart_wait
    · exact .of_done (busWrite_apart (by simp [h]) ..) _ _ _

theorem execScrubStep_apart {s : State} (h : PinsApart s.lanes) (m : Fin 1092) : NextApart (execScrubStep m s) := by
  unfold execScrubStep
  (repeat' split) <;> simp [h]

theorem execScrubLapLimit_apart {s : State} (h : PinsApart s.lanes) (m : Fin 1092) : NextApart (execScrubLapLimit m s) := by
  simp [execScrubLapLimit, h]

theorem execSealComplete_apart {s : State} (h : PinsApart s.lanes) (v : Fin 8) : NextApart (execSealComplete v s) := by
  simp [execSealComplete, h]

theorem execEraseBlockDone_apart {s : State} (h : PinsApart s.lanes) (v : Fin 8) : NextApart (execEraseBlockDone v s) := by
  unfold execEraseBlockDone
  extract_lets left u w
  have hw : PinsApart w.lanes := by
    unfold w
    clear_value left
    split <;> simp [u, h]
  split_ifs
  · exact .of_next h
  · exact .of_next (by simp [hw])
  · exact .of_next hw

theorem execLoadEntryWrite_apart {s : State} (h : PinsApart s.lanes) : NextApart (execLoadEntryWrite s) := by
  unfold execLoadEntryWrite
  extract_lets n a d
  split
  · exact .of_next h
  split
  next bs s1 heq =>
    have h1 := snd_apart heq (by simp [h])
    extract_lets src
    split
    next x bad _ =>
      split
      · exact .of_next (by simp [h1])
      split
      next y s2 heq2 =>
        have h2 := snd_apart heq2 (by split <;> exact h1)
        split
        next flip s3 heq3 =>
          have h3 := snd_apart heq3 (by simp [h2])
          extract_lets u v w
          have hw : PinsApart w.lanes := by simp [w, v, u, h3]
          refine .of_next ?_
          split <;> simp [hw]

theorem execPrefetchComplete_apart {s : State} (h : PinsApart s.lanes) : NextApart (execPrefetchComplete s) := by
  unfold execPrefetchComplete
  split <;> simp [h]

theorem execRackingStep_apart {s : State} (h : PinsApart s.lanes) : NextApart (execRackingStep s) := by
  unfold execRackingStep
  extract_lets src e skip
  clear_value skip
  split
  · exact .of_next h
  split
  · exact .of_next (by simp [h])
  split
  next s1 nx heq =>
    have h1 := fst_apart heq (by split <;> simp [h])
    split <;> exact .of_next (by simp [h1])

theorem execCbRecordWrite_apart {s : State} (h : PinsApart s.lanes) : NextApart (execCbRecordWrite s) := by
  unfold execCbRecordWrite
  (repeat' split) <;> simp [h]

theorem execCbRepeatRewrite_apart {s : State} (h : PinsApart s.lanes) : NextApart (execCbRepeatRewrite s) := by
  simp [execCbRepeatRewrite, h]

theorem execCbOperatingSecond_apart {s : State} (h : PinsApart s.lanes) : NextApart (execCbOperatingSecond s) := by
  simp [execCbOperatingSecond, h]

theorem execCbReadReady_apart {s : State} (h : PinsApart s.lanes) (who : Requester) : NextApart (execCbReadReady who s) := by
  simp [execCbReadReady, h]

theorem execCbClearVerified_apart {s : State} (h : PinsApart s.lanes) : NextApart (execCbClearVerified s) := by
  unfold execCbClearVerified
  (repeat' split) <;> simp [h]

theorem execCbClearDone_apart {s : State} (h : PinsApart s.lanes) : NextApart (execCbClearDone s) := by
  unfold execCbClearDone
  split <;> simp [h]

theorem execTripPinEdge_apart {s : State} (h : PinsApart s.lanes) (j : Fin 16) (level : Bool) :
    NextApart (execTripPinEdge j level s) := by
  simp [execTripPinEdge, h]

theorem execGuardThresholdCrossing_apart {s : State} (h : PinsApart s.lanes) (n : Fin 64) (uv : Nat) :
    NextApart (execGuardThresholdCrossing n uv s) := by
  unfold execGuardThresholdCrossing
  extract_lets g
  split
  · exact .of_next (by simp [h])
  · exact .of_next (gcFollow_apart (by simp [h]) n)

theorem execGcSettleEnd_apart {s : State} (h : PinsApart s.lanes) (n : Fin 64) (part : GcPart) :
    NextApart (execGcSettleEnd n part s) := by
  unfold execGcSettleEnd
  extract_lets g g'
  split
  · exact .of_next h
  · exact .of_next (gcFollow_apart (by simp [h]) n)

theorem execStoAssert_apart {s : State} (h : PinsApart s.lanes) (pin : StoPin) : NextApart (execStoAssert pin s) := by
  unfold execStoAssert
  extract_lets src fm was u
  have hu : PinsApart u.lanes := h
  exact .of_next (settleAll_apart (by simp [hu]))

theorem execStoEnClearDone_apart {s : State} (h : PinsApart s.lanes) : NextApart (execStoEnClearDone s) := by
  simp [execStoEnClearDone, h]

theorem execStoDiscrepancy_apart {s : State} (h : PinsApart s.lanes) : NextApart (execStoDiscrepancy s) := by
  simp [execStoDiscrepancy, h]

theorem execLaneRisingEdge_apart {s : State} (h : PinsApart s.lanes) (n : Fin 192) : NextApart (execLaneRisingEdge n s) := by
  simp [execLaneRisingEdge, h]

theorem execLaneFallingEdge_apart {s : State} (h : PinsApart s.lanes) (n : Fin 192) : NextApart (execLaneFallingEdge n s) := by
  unfold execLaneFallingEdge
  extract_lets l u
  have hu : PinsApart u.lanes := edgeOvr_apart h _ _
  split
  · exact .of_next h
  split
  · split
    · exact .of_next (settle_apart (goSide_apart h _ _ _) _)
    · exact .of_next h
  · split
    · exact .of_next h
    · refine .of_next (settle_apart ?_ _)
      split
      · exact hu
      · exact fallCheck_apart hu _

theorem execStretchCheck_apart {s : State} (h : PinsApart s.lanes) (n : Fin 192) : NextApart (execStretchCheck n s) := by
  unfold execStretchCheck
  extract_lets l t m u
  split
  · have hu : PinsApart u.lanes := by simp [u, h]
    refine .of_next (goSide_apart ?_ _ _ _)
    exact setLane_apart_of hu n (h.lane n)
  · exact .of_next h

theorem execDeadTimeEnd_apart {s : State} (h : PinsApart s.lanes) (n : Fin 192) : NextApart (execDeadTimeEnd n s) := by
  unfold execDeadTimeEnd
  extract_lets l l' u
  split
  · exact .of_next h
  split
  · exact .of_next (settle_apart h _)
  · have hu : PinsApart u.lanes := when_apart h (by simp [h])
    have hl : OnePin l'.outH l'.outL := by unfold l'; (repeat' split) <;> exact h.lane n
    refine .of_next (settle_apart ?_ _)
    exact setLane_apart_of hu n hl

theorem execRefreshPulseEnd_apart {s : State} (h : PinsApart s.lanes) (n : Fin 192) : NextApart (execRefreshPulseEnd n s) := by
  unfold execRefreshPulseEnd
  extract_lets l u l'
  split
  · exact .of_next h
  · have hu : PinsApart u.lanes := when_apart h (by simp [h])
    have hl : OnePin l'.outH l'.outL := by unfold l'; (repeat' split) <;> exact h.lane n
    refine .of_next (settle_apart ?_ _)
    exact setLane_apart_of hu n hl

theorem execPeriodBoundary_apart {s : State} (h : PinsApart s.lanes) (t : Fin 64) : NextApart (execPeriodBoundary t s) := by
  simp [execPeriodBoundary, h]

theorem execTrioSyncStart_apart {s : State} (h : PinsApart s.lanes) (t : Fin 64) : NextApart (execTrioSyncStart t s) := by
  simp [execTrioSyncStart, h]

theorem execSpeedWindowEnd_apart {s : State} (h : PinsApart s.lanes) (k : Fin 64) (rate : BitVec 20) (mv : Nat) :
    NextApart (execSpeedWindowEnd k rate mv s) := by
  simp [execSpeedWindowEnd, h]

theorem execCamSetpointReady_apart {s : State} (h : PinsApart s.lanes) (k : Fin 64) (x : Fin 4) :
    NextApart (execCamSetpointReady k x s) := by
  unfold execCamSetpointReady
  extract_lets b before after
  split
  · exact .of_next h
  next a _ =>
    split
    · exact .of_next h
    split
    next c s1 heq =>
      have h1 := snd_apart heq (by simp [h])
      exact .of_next (by simp [h1])

theorem execActivationPoint_apart {s : State} (h : PinsApart s.lanes) (k : Fin 64) (x : Fin 4) :
    NextApart (execActivationPoint k x s) := by
  unfold execActivationPoint
  extract_lets b before after
  split
  · exact .of_next (tryStart_apart h _ _)
  · split
    · exact .of_next h
    · exact .of_next (tryStart_apart (by simp [h]) _ _)

theorem execDeadlineExpiry_apart {s : State} (h : PinsApart s.lanes) (k : Fin 64) (x : Fin 4) :
    NextApart (execDeadlineExpiry k x s) := by
  unfold execDeadlineExpiry
  extract_lets
  (repeat' split) <;> simp [h]

theorem execEncFilteredEdge_apart {s : State} (h : PinsApart s.lanes) (p : Fin 64) (a b z : Bool) :
    NextApart (execEncFilteredEdge p a b z s) := by
  simp [execEncFilteredEdge, h]

theorem execEncReceiverOpen_apart {s : State} (h : PinsApart s.lanes) (p : Fin 64) (rx : Fin 4) (fault : Bool) :
    NextApart (execEncReceiverOpen p rx s fault) := by
  simp [execEncReceiverOpen, h]

theorem execSsiFrameComplete_apart {s : State} (h : PinsApart s.lanes) (p : Fin 64) (data : Word) (parity : Bool) :
    NextApart (execSsiFrameComplete p data parity s) := by
  simp [execSsiFrameComplete, h]

theorem execSsiDataReturn_apart {s : State} (h : PinsApart s.lanes) (p : Fin 64) : NextApart (execSsiDataReturn p s) := by
  simp [execSsiDataReturn, h]

theorem execSsiTimeout_apart {s : State} (h : PinsApart s.lanes) (p : Fin 64) : NextApart (execSsiTimeout p s) := by
  simp [execSsiTimeout, h]

theorem execSdWordReady_apart {s : State} (h : PinsApart s.lanes) (i : Fin 192) (bits : List Bool) (merged : Bool) :
    NextApart (execSdWordReady i bits merged s) := by
  unfold execSdWordReady
  (repeat' split) <;> simp [h]

theorem execSdCoarseWord_apart {s : State} (h : PinsApart s.lanes) (i : Fin 192) (bits : List Bool) :
    NextApart (execSdCoarseWord i bits s) := by
  unfold execSdCoarseWord
  extract_lets n o x
  split
  · exact .of_next h
  · exact .of_next (coarseWord_apart (by simp [h]) _ _)

theorem execSdStuck_apart {s : State} (h : PinsApart s.lanes) (i : Fin 192) : NextApart (execSdStuck i s) := by
  simp [execSdStuck, h]

theorem execSdClockLoss_apart {s : State} (h : PinsApart s.lanes) (g : Fin 24) : NextApart (execSdClockLoss g s) := by
  simp [execSdClockLoss, h]

theorem execSdPeriodMeasured_apart {s : State} (h : PinsApart s.lanes) (g : Fin 24) (period : BitVec 13) :
    NextApart (execSdPeriodMeasured g period s) := by
  unfold execSdPeriodMeasured
  extract_lets u
  have hu : PinsApart u.lanes := by simp [u, h]
  split_ifs
  · exact .of_next h
  · exact .of_next (by simp [hu])
  · exact .of_next (clockError_apart hu _ _)

theorem execSdClockRecover_apart {s : State} (h : PinsApart s.lanes) (g : Fin 24) : NextApart (execSdClockRecover g s) := by
  unfold execSdClockRecover
  extract_lets src u v
  have hv : PinsApart v.lanes := by simp [v, u, h]
  split
  · exact .of_next h
  · exact .of_next (groupInputs_apart (fun _ _ h => by simp [h]) hv _)

theorem execAdTrigger_apart {s : State} (h : PinsApart s.lanes) (k : Fin 16) : NextApart (execAdTrigger k s) := by
  unfold execAdTrigger
  split <;> simp [h]

theorem execAdStepEnd_apart {s : State} (h : PinsApart s.lanes) (k : Fin 16) (uv : Nat) : NextApart (execAdStepEnd k uv s) := by
  unfold execAdStepEnd
  extract_lets k' x st w u a v y
  have hu : PinsApart u.lanes := by rw [wr_lanes]; exact h
  have hv : PinsApart v.lanes := by
    by_cases hd : u.bit .adCtl k' 0 6 = true
    · rw [show v = writeMem u unitWho _ _ from if_pos hd, writeMem_lanes]
      exact hu
    · rw [show v = u from if_neg hd]
      exact hu
  have hy : PinsApart y.lanes := by rw [setB_lanes, setAd_lanes]; exact hv
  split_ifs
  · exact .of_next h
  · exact .of_next (by rw [adNext_lanes, setAd_lanes]; exact hv)
  · exact .of_next (by rw [setAd_lanes]; exact hv)
  · exact .of_next (by rw [adNext_lanes]; exact adDone_apart hy _)

theorem execCommitRegister_apart {s : State} (h : PinsApart s.lanes) : NextApart (execCommitRegister s) := by
  unfold execCommitRegister
  split
  · exact .of_next h
  · exact .of_next h
  next c rest _ _ =>
    extract_lets u v
    have hv : PinsApart v.lanes := foldl_apart (fun _ _ h => stagedStore_apart h _ _) _ h
    split
    next s1 tops zeros heq =>
      have h1 := fst_apart heq (commitLanes_apart hv _)
      extract_lets w
      have hw : PinsApart w.lanes := foldl_apart (fun _ _ h => forN_apart (fun _ _ h => candidate_apart h _ _) 3 h) _ h1
      exact .of_next (foldl_apart (fun _ _ h => forN_apart (fun _ _ h => candidate_apart h _ _) 3 h) _ hw)

theorem execGtWrap_apart {s : State} (h : PinsApart s.lanes) (t : Fin 16) : NextApart (execGtWrap t s) := by
  simp [execGtWrap, h]

theorem execGtCompareMatch_apart {s : State} (h : PinsApart s.lanes) (t : Fin 16) (c : Fin 4) :
    NextApart (execGtCompareMatch t c s) := by
  simp [execGtCompareMatch, h]

theorem execGtCapture_apart {s : State} (h : PinsApart s.lanes) (t : Fin 16) (c : Fin 4) (rising : Bool) :
    NextApart (execGtCapture t c s rising) := by
  simp [execGtCapture, h]

theorem execGtCaplRead_apart {s : State} (h : PinsApart s.lanes) (who : Requester) (t : Fin 16) (c : Fin 4) :
    NextApart (execGtCaplRead who t c s) := by
  simp [execGtCaplRead, h]

theorem execGtCaphRead_apart {s : State} (h : PinsApart s.lanes) (who : Requester) (t : Fin 16) (c : Fin 4) :
    NextApart (execGtCaphRead who t c s) := by
  simp [execGtCaphRead, h]

theorem execPllLock_apart {s : State} (h : PinsApart s.lanes) (mv : Nat) : NextApart (execPllLock mv s) := by
  unfold execPllLock
  extract_lets u src src' v w
  have hu : PinsApart u.lanes := by simp [u, h]
  have hv : PinsApart v.lanes := hu
  have hw : PinsApart w.lanes := forN_apart (fun _ _ h => by simp [h]) 64 hv
  have hl : PinsApart (lockLost w).lanes := by rw [lockLost_lanes]; exact hw
  split
  · exact .of_next h
  · exact .of_next (quietLf_apart (when_apart hl (startHeld_apart hl)))

theorem execLowFrequencyEdge_apart {s : State} (h : PinsApart s.lanes) : NextApart (execLowFrequencyEdge s) := by
  simp [execLowFrequencyEdge, h]

theorem execTbWakeCompare_apart {s : State} (h : PinsApart s.lanes) : NextApart (execTbWakeCompare s) := by
  simp [execTbWakeCompare, h]

theorem execLfTimeExit_apart {s : State} (h : PinsApart s.lanes) : NextApart (execLfTimeExit s) := by
  unfold execLfTimeExit
  split
  · exact .of_next (lfLeave_apart (by simp [h]))
  · exact .of_next h

theorem execRefclkLoss_apart {s : State} (h : PinsApart s.lanes) : NextApart (execRefclkLoss s) := by simp [execRefclkLoss, h]

theorem execLfcntRunEnd_apart {s : State} (h : PinsApart s.lanes) (count : BitVec 24) :
    NextApart (execLfcntRunEnd count s) := by
  unfold execLfcntRunEnd
  split <;> simp [h]

theorem execLfCrystalFail_apart {s : State} (h : PinsApart s.lanes) : NextApart (execLfCrystalFail s) := by
  simp [execLfCrystalFail, h]

theorem execAlignmentLoad_apart {s : State} (h : PinsApart s.lanes) (ring : BitVec 64) :
    NextApart (execAlignmentLoad ring s) := by
  simp [execAlignmentLoad, h]

theorem execPmuCounterOverflow_apart {s : State} (h : PinsApart s.lanes) (row : Bool) (i : Fin 64) (c : Fin 8) :
    NextApart (execPmuCounterOverflow row i c s) := by
  simp [execPmuCounterOverflow, h]

theorem execPmuTagRecord_apart {s : State} (h : PinsApart s.lanes) (k : Fin 64) (rec : List Word) :
    NextApart (execPmuTagRecord k rec s) := by
  unfold execPmuTagRecord
  split
  · exact .of_next h
  next t rest _ =>
    extract_lets u hw w0 v w
    have hu : PinsApart u.lanes := by simp [u, h]
    have hv : PinsApart v.lanes := by rw [wr_lanes, wr_lanes]; exact hu
    have hw : PinsApart w.lanes := forN_apart (fun _ _ h => by rw [wr_lanes]; exact h) 3 hv
    split_ifs
    · exact .of_next h
    · exact .of_next (by simp [hu])
    · exact .of_next (forN_apart (fun _ _ h => by rw [wr_lanes]; exact h) 3 hw)

theorem execPmuDumpTrigger_apart {s : State} (h : PinsApart s.lanes) : NextApart (execPmuDumpTrigger s) := by
  simp [execPmuDumpTrigger, h]

theorem execPmuDumpWriteDone_apart {s : State} (h : PinsApart s.lanes) : NextApart (execPmuDumpWriteDone s) := by
  simp [execPmuDumpWriteDone, h]

theorem execStringPortUp_apart {s : State} (h : PinsApart s.lanes) (p : Fin 2) : NextApart (execStringPortUp p s) := by
  simp [execStringPortUp, h]

theorem execStringCycleBoundary_apart {s : State} (h : PinsApart s.lanes) : NextApart (execStringCycleBoundary s) := by
  simp [execStringCycleBoundary, h]

theorem execHeadPageLatch_apart {s : State} (h : PinsApart s.lanes) : NextApart (execHeadPageLatch s) := by
  unfold execHeadPageLatch
  extract_lets src u src' ws
  split
  · exact .of_next h
  · split <;> exact .of_next h

theorem execCycFrameReturn_apart {s : State} (h : PinsApart s.lanes) (ws : List Word) (rtl : Nat) (p : Fin 2) :
    NextApart (execCycFrameReturn ws rtl s p) := by
  simp [execCycFrameReturn, h]

theorem execBulkFrameReceive_apart {s : State} (h : PinsApart s.lanes) (p : Fin 2) (ws : List Word) :
    NextApart (execBulkFrameReceive p ws s) := by
  simp [execBulkFrameReceive, h]

theorem execEchoSend_apart {s : State} (h : PinsApart s.lanes) (p : Fin 2) (t1 : Nat) : NextApart (execEchoSend p t1 s) := by
  simp [execEchoSend, h]

theorem execEchoReceive_apart {s : State} (h : PinsApart s.lanes) (p : Fin 2) (t1 t2 t3 : Nat) :
    NextApart (execEchoReceive p t1 t2 t3 s) := by
  simp [execEchoReceive, h]

theorem execEchoReplyReceive_apart {s : State} (h : PinsApart s.lanes) (p : Fin 2) (t2 t3 t4 : Nat) (t1 : Nat) :
    NextApart (execEchoReplyReceive p t2 t3 t4 s t1) := by
  simp [execEchoReplyReceive, h]

theorem execTuneFrameReceive_apart {s : State} (h : PinsApart s.lanes) (counter : BitVec 8) (keep toomany : Bool) :
    NextApart (execTuneFrameReceive counter keep toomany s) := by
  simp [execTuneFrameReceive, h]

theorem execTuneReturn_apart {s : State} (h : PinsApart s.lanes) (counter : BitVec 8) (keep toomany : Bool) :
    NextApart (execTuneReturn counter keep toomany s) := by
  simp [execTuneReturn, h]

theorem execTuneTimeout_apart {s : State} (h : PinsApart s.lanes) : NextApart (execTuneTimeout s) := by
  simp [execTuneTimeout, h]

theorem execPcieLinkUp_apart {s : State} (h : PinsApart s.lanes) : NextApart (execPcieLinkUp s) := by simp [execPcieLinkUp, h]

theorem execSecureBoot_apart {s : State} (h : PinsApart s.lanes) : NextApart (execSecureBoot s) := by
  unfold execSecureBoot
  extract_lets c
  split
  · exact .of_next h
  split
  next e s1 heq =>
    have h1 := snd_apart heq (by simp [h])
    exact .of_next (by simp [h1])
  next s1 heq =>
    have h1 := snd_apart heq (by simp [h])
    extract_lets p
    split
    next s2 heq2 => exact .of_next (fst_apart heq2 (by simp [h1]))
    next s2 heq2 =>
      have h2 := fst_apart heq2 (by simp [h1])
      split
      next s3 heq3 => exact .of_next (fst_apart heq3 (by simp [h2]))
      next s3 heq3 =>
        have h3 := fst_apart heq3 (by simp [h2])
        extract_lets u
        have hu : PinsApart u.lanes := when_apart (by simp [h3]) (by simp [h3])
        exact .of_next (by simp [hu])

theorem execSecBankWriteDone_apart {s : State} (h : PinsApart s.lanes) : NextApart (execSecBankWriteDone s) := by
  unfold execSecBankWriteDone
  split <;> simp [h]

theorem execSecRollWrite_apart {s : State} (h : PinsApart s.lanes) (v : Word) (who : Requester) :
    NextApart (execSecRollWrite v s who) := by
  refine .of_next (when_apart h ?_)
  simp [h]

theorem execChallengeExpiry_apart {s : State} (h : PinsApart s.lanes) : NextApart (execChallengeExpiry s) := by
  simp [execChallengeExpiry, h]

theorem execOpeningVerified_apart {s : State} (h : PinsApart s.lanes) : NextApart (execOpeningVerified s) := by
  unfold execOpeningVerified
  split <;> simp [h]

theorem execOpenEntered_apart {s : State} (h : PinsApart s.lanes) : NextApart (execOpenEntered s) := by
  simp [execOpenEntered, h]

theorem execPowerOnReset_apart {s : State} (h : PinsApart s.lanes) (cause : PorCause) :
    NextApart (execPowerOnReset cause s) := by
  simp [execPowerOnReset, h]

theorem execResetEnd_apart {s : State} (h : PinsApart s.lanes) (vrefen : Bool) (extVrefUv : Nat) :
    NextApart (execResetEnd vrefen extVrefUv s) := by
  unfold execResetEnd
  extract_lets por down src fm u k v w y z
  have hu : PinsApart u.lanes := by simp [u, h]
  have hw : PinsApart w.lanes := by unfold w; split <;> simp [v, hu]
  have hy : PinsApart y.lanes := forN_apart (fun _ _ h => tripFollow_apart h _) 16 (by simp [hw])
  have hz : PinsApart z.lanes := by unfold z; split <;> simp [hy]
  split
  · exact .of_next h
  · exact .of_next (settleAll_apart (by simp [hz]))

theorem execSupplyWarningStart_apart {s : State} (h : PinsApart s.lanes) (rail : Fin 7) (mv : Nat) :
    NextApart (execSupplyWarningStart rail mv s) := by
  simp [execSupplyWarningStart, h]

theorem execSupplySample_apart {s : State} (h : PinsApart s.lanes) (rail : Fin 7) (mv : Nat) :
    NextApart (execSupplySample rail mv s) := by
  unfold execSupplySample
  split <;> simp [h]

theorem execSupplyEpisodeEnd_apart {s : State} (h : PinsApart s.lanes) (rail : Fin 7) (mv : Nat) :
    NextApart (execSupplyEpisodeEnd rail s mv) := by
  unfold execSupplyEpisodeEnd
  split <;> simp [h]

theorem execSupplyBelowResetLevel_apart {s : State} (h : PinsApart s.lanes) (rail : Fin 7) :
    NextApart (execSupplyBelowResetLevel rail s) := by
  unfold execSupplyBelowResetLevel
  split
  · exact .of_next h
  split
  · exact .of_next (powerOn_apart ..)
  extract_lets src u
  have hu : PinsApart u.lanes := h
  split
  · have ha : PinsApart (({ u with ads := [] } : State).forN 16 (fun s k => s.wrF .adStat k 0 1 0 0)).lanes :=
      forN_apart (fun _ _ h => by simp [h]) 16 hu
    exact .of_next (when_apart ha (holdGc_apart ha))
  · exact .of_next (by simp [hu])
  · exact .of_next (by simp [hu])

theorem execSupplyRestored_apart {s : State} (h : PinsApart s.lanes) (rail : Fin 7) :
    NextApart (execSupplyRestored rail s) := by
  unfold execSupplyRestored
  extract_lets was src u
  clear_value was
  have hu : PinsApart u.lanes := h
  split
  · split_ifs
    · exact .of_next hu
    · exact .of_next (by simp [hu])
    · exact .of_next (resetGcEnd_apart (resetGc_apart (by simp [hu])))
  · exact .of_next (by simp [hu])
  · exact .of_next hu

theorem execIdleEntered_apart {s : State} (h : PinsApart s.lanes) : NextApart (execIdleEntered s) := by
  simp [execIdleEntered, h]

theorem execIdleExit_apart {s : State} (h : PinsApart s.lanes) (cause : IdleCause) : NextApart (execIdleExit cause s) := by
  simp [execIdleExit, h]

theorem execWakePin_apart {s : State} (h : PinsApart s.lanes) : NextApart (execWakePin s) := by simp [execWakePin, h]

theorem execStringWakeSequence_apart {s : State} (h : PinsApart s.lanes) : NextApart (execStringWakeSequence s) := by
  simp [execStringWakeSequence, h]

theorem execHoldWake_apart {s : State} (h : PinsApart s.lanes) : NextApart (execHoldWake s) := by
  unfold execHoldWake
  extract_lets wk kept acc u src src' v w x y z
  have hv : PinsApart v.lanes := pinsApart_nil
  have hy : PinsApart y.lanes := by simp [y, x, w, hv]
  have hz : PinsApart z.lanes := when_apart (by simp [hy]) (by simp [hy])
  split
  · exact .of_next h
  · refine .of_next ?_
    rw [pauses_lanes]
    exact settleAll_apart (forN_apart (fun _ _ h => tripFollow_apart h _) 16 (by simp [hz]))

theorem execFresetEnd_apart {s : State} (h : PinsApart s.lanes) (f : Fin 80) : NextApart (execFresetEnd f s) := by
  unfold execFresetEnd
  (repeat' split) <;> simp [h]

theorem execPerstnAssert_apart {s : State} (h : PinsApart s.lanes) (level : Bool) : NextApart (execPerstnAssert level s) := by
  simp [execPerstnAssert, h]

theorem execHeartbeatProbe_apart {s : State} (h : PinsApart s.lanes) (silent : List (Fin 80)) :
    NextApart (execHeartbeatProbe silent s) := by
  simp [execHeartbeatProbe, h]

theorem execProbeTimeout_apart {s : State} (h : PinsApart s.lanes) (f : Fin 80) : NextApart (execProbeTimeout f s) := by
  simp [execProbeTimeout, h]

theorem execResetBoundExceeded_apart {s : State} (h : PinsApart s.lanes) (f : Option (Fin 80)) :
    NextApart (execResetBoundExceeded f s) := by
  unfold execResetBoundExceeded
  split <;> simp [h]

theorem execPmuFixlRead_apart {s : State} (h : PinsApart s.lanes) (who : Requester) (n : Fin 4) :
    NextApart (execPmuFixlRead who n s) := by
  simp [execPmuFixlRead, h]

theorem execCbReadWrite_apart {s : State} (h : PinsApart s.lanes) (who : Requester) (v : Word) :
    NextApart (execCbReadWrite who v s) := by
  simp [execCbReadWrite, h]

theorem execCbClearGo_apart {s : State} (h : PinsApart s.lanes) (who : Requester) (v : Word) :
    NextApart (execCbClearGo who v s) := by
  simp [execCbClearGo, h]

theorem execRegisterWrite_apart {s : State} (h : PinsApart s.lanes) (who : Requester) (addr : Word) (v : Word) :
    NextApart (execRegisterWrite who addr v s) := by
  unfold execRegisterWrite
  extract_lets a n f u
  have hu : PinsApart u.lanes := by simp [u, h]
  split_ifs
  · exact .of_next h
  · exact .of_next (by simp [h])
  · exact .of_next (by simp [hu])
  · exact .of_next (by simp [hu])
  · exact .of_next (by simp [hu])
  · exact .of_next (busWrite_apart hu ..)

theorem execRead_apart {s : State} (h : PinsApart s.lanes) (path : Path) (seq : BitVec 16) (addr : Word) (len : Nat) :
    NextApart (execRead path seq addr len s) := by
  refine .of_next (command_apart h _ _ _ _ ?_)
  extract_lets a f
  split_ifs
  · exact h
  · exact h
  · split
    next bs s1 heq =>
      have h1 := snd_apart heq (by simp [h])
      extract_lets ws
      split
      · simp [h1]
      · exact h1

theorem execWrite_apart {s : State} (h : PinsApart s.lanes) (path : Path) (seq : BitVec 16) (addr : Word) (bytes : List Byte) :
    NextApart (execWrite path seq addr bytes s) := by
  refine .of_next (command_apart h _ _ _ _ ?_)
  extract_lets a f
  split_ifs
  · exact h
  · exact h
  · exact busWrite_apart h ..

theorem execArm_apart {s : State} (h : PinsApart s.lanes) (path : Path) (seq : BitVec 16) (slot cyc ang : Word) :
    NextApart (execArm path seq slot cyc ang s) := by
  refine .of_next (command_apart h _ _ _ _ ?_)
  extract_lets u v
  have hu : PinsApart u.lanes := by simp [u, h]
  have hv : PinsApart v.lanes := writeReg_apart (writeReg_apart hu ..) ..
  simp [hv]

theorem execFreset_apart {s : State} (h : PinsApart s.lanes) (path : Path) (seq : BitVec 16) (arg : BitVec 16) :
    NextApart (execFreset path seq arg s) := .of_next (command_apart h _ _ _ _ (fresetWrite_apart h _))

theorem execDevreset_apart {s : State} (h : PinsApart s.lanes) (path : Path) (seq : BitVec 16) :
    NextApart (execDevreset path seq s) := by
  simp [execDevreset, h]

theorem execMbox_apart {s : State} (h : PinsApart s.lanes) (path : Path) (seq : BitVec 16) (ws : List Word) :
    NextApart (execMbox path seq ws s) := by
  refine .of_next (command_apart h _ _ _ _ ?_)
  extract_lets len u v w src
  have hu : PinsApart u.lanes := by
    rw [wr_lanes, wr_lanes]
    exact h
  have hv : PinsApart v.lanes := forN_apart (fun _ _ h => by simp [h]) 14 hu
  have hw : PinsApart w.lanes := by
    rw [setB_lanes]
    exact hv
  exact withStr_apart hw _

theorem execPower_apart {s : State} (h : PinsApart s.lanes) (path : Path) (seq : BitVec 16) (arg : BitVec 16) :
    NextApart (execPower path seq arg s) := by
  refine .of_next (command_apart h _ _ _ _ ?_)
  extract_lets was u
  have hu : PinsApart u.lanes := powerRequest_apart (by simp [h]) _
  split
  · exact hu
  · simp [hu]

theorem execCbclear_apart {s : State} (h : PinsApart s.lanes) (path : Path) (seq : BitVec 16) (ws : List Word) :
    NextApart (execCbclear path seq ws s) := by
  unfold execCbclear
  split <;> simp [h]

theorem execDsc_apart {s : State} (h : PinsApart s.lanes) (path : Path) (seq : BitVec 16) (first last : Bool)
    (bytes : List Byte) :
    NextApart (execDsc path seq first last bytes s) := by
  refine .of_next (command_apart h _ _ _ _ ?_)
  extract_lets have0 src u
  have hu : PinsApart u.lanes := h
  split_ifs
  · exact h
  · simp [hu]
  · exact hu

theorem execDescriptorJudged_apart {s : State} (h : PinsApart s.lanes) : NextApart (execDescriptorJudged s) := by
  unfold execDescriptorJudged
  split
  · exact .of_next h
  split
  · exact .of_next (by simp [h])
  next es _ =>
    have ha := applyDescriptor_apart h es
    generalize applyDescriptor s es = r at ha ⊢
    extract_lets u v src w
    have hu : PinsApart u.lanes := by
      rw [setB_lanes, clrB_lanes]
      exact ha
    have hv : PinsApart v.lanes := by
      rw [setB_lanes]
      exact hu
    have hw : PinsApart w.lanes := hv
    exact .of_next (by simp [hw])

theorem execDescriptorReapplied_apart {s : State} (h : PinsApart s.lanes) : NextApart (execDescriptorReapplied s) := by
  unfold execDescriptorReapplied
  extract_lets u src
  have hu : PinsApart u.lanes := by
    unfold u
    split
    · exact applyDescriptor_apart h _
    · exact h
  split
  · exact .of_next h
  · exact .of_next (by simp [hu])

theorem execPcieReadRequest_apart {s : State} (h : PinsApart s.lanes) (bar1 : Bool) (off : Word) (len : Nat) :
    NextApart (execPcieReadRequest bar1 off len s) := by
  unfold execPcieReadRequest
  split
  · exact .of_next h
  split
  · exact .of_next (by simp [h])
  · split
    · exact .of_next (by simp [h])
    split
    next bs s1 heq =>
      have h1 := snd_apart heq (by simp [h])
      exact .of_next (by simp [h1])

theorem execPcieWriteRequest_apart {s : State} (h : PinsApart s.lanes) (bar1 : Bool) (off : Word) (bytes : List Byte)
    (ep : Bool) :
    NextApart (execPcieWriteRequest bar1 off bytes ep s) := by
  unfold execPcieWriteRequest
  split
  · exact .of_next h
  split
  · exact .of_next (by simp [h])
  · split_ifs
    · exact .of_next h
    · exact .of_next (by simp [h])
    · exact .of_next (busWrite_apart (by simp [h]) ..)

theorem execSel_apart {s : State} (h : PinsApart s.lanes) (c : Core) (rd ra rb rc : Fin 32) :
    NextApart (execSel c rd ra rb rc s) := .of_next (issue_apart h _ _ fun _ ht => deliver_apart ht ..)

theorem execSideUnitResult_apart {s : State} (h : PinsApart s.lanes) (c : Core) (u : SideUnit) :
    NextApart (execSideUnitResult c u s) := by
  unfold execSideUnitResult
  extract_lets
  (repeat' split) <;> simp [h]

theorem execSwap_apart {s : State} (h : PinsApart s.lanes) (c : Core) (rd ra rb : Fin 32) :
    NextApart (execSwap c rd ra rb s) := by
  refine .of_next (issue_apart h _ _ fun t ht => ?_)
  extract_lets a b
  split
  · exact poisonFault_apart ht ..
  · exact atomicAt_apart ht ..

theorem execCas_apart {s : State} (h : PinsApart s.lanes) (c : Core) (rd ra rb : Fin 32) :
    NextApart (execCas c rd ra rb s) := by
  refine .of_next (issue_apart h _ _ fun t ht => ?_)
  extract_lets a b d
  split
  · exact poisonFault_apart ht ..
  · exact atomicAt_apart ht ..

theorem execIrqClaim_apart {s : State} (h : PinsApart s.lanes) (n : Fin 4) : NextApart (execIrqClaim n s) := by
  simp [execIrqClaim, h]

theorem execHoldEntryComplete_apart {s : State} (h : PinsApart s.lanes) : NextApart (execHoldEntryComplete s) := by
  unfold execHoldEntryComplete
  extract_lets u v w x src src'
  have hu : PinsApart u.lanes := enterLf_apart (by rw [saveIrq_lanes]; exact irqSettle_apart (by simp [h]))
  have hv : PinsApart v.lanes := by
    rw [setB_lanes, powerGo_lanes]
    exact hu
  have hw : PinsApart w.lanes := forN_apart (fun _ _ h => setSource_apart (setSource_apart (by simp [h]) _ _) _ _) 64 hv
  have hx : PinsApart x.lanes := by
    rw [pcieDown_lanes]
    exact hw
  clear_value x
  split
  · exact .of_next h
  · exact .of_next hx

theorem execStoreBufferDrain_apart {s : State} (h : PinsApart s.lanes) (c : Core) : NextApart (execStoreBufferDrain c s) := by
  unfold execStoreBufferDrain
  extract_lets n k
  split
  · exact .of_next h
  · split
    · exact .of_next h
    · exact .of_next (endYield_apart (drainEntry_apart (by simp [h]) ..) _)

theorem execYield_apart {s : State} (h : PinsApart s.lanes) (c : Core) : NextApart (execYield c s) := by
  refine .of_next (issue_apart h _ _ fun t ht => ?_)
  extract_lets u
  exact endYield_apart (by simp [u, ht]) _

theorem execCommit_apart {s : State} (h : PinsApart s.lanes) (c : Core) : NextApart (execCommit c s) := by
  refine .of_next (issue_apart h _ _ fun t ht => ?_)
  extract_lets k
  split <;> simp [ht]

theorem execSync_apart {s : State} (h : PinsApart s.lanes) (c : Core) :
    NextApart (execSync c s) := .of_next (issue_apart h _ _ fun _ ht => by simp [ht])

theorem execCheck_apart {s : State} (h : PinsApart s.lanes) (c : Core) :
    NextApart (execCheck c s) := .of_next (issue_apart h _ _ fun _ ht => by simp [ht])

theorem execMtcr_apart {s : State} (h : PinsApart s.lanes) (c : Core) (crn : Fin 64) (ra : Fin 32) :
    NextApart (execMtcr c crn ra s) := by
  refine .of_next (issue_apart h _ _ fun t ht => ?_)
  extract_lets a
  split
  · exact poisonFault_apart ht ..
  · simp [ht]

theorem execMfcr_apart {s : State} (h : PinsApart s.lanes) (c : Core) (rd : Fin 32) (crn : Fin 64) :
    NextApart (execMfcr c rd crn s) := .of_next (issue_apart h _ _ fun _ ht => by simp [ht])

theorem execSvc_apart {s : State} (h : PinsApart s.lanes) (c : Core) (code : BitVec 20) : NextApart (execSvc c code s) := by
  refine .of_next (issue_apart h _ _ fun t ht => ?_)
  extract_lets pc m u
  refine takeException_apart ?_ ..
  unfold u
  split <;> simp [ht]

theorem execWfi_apart {s : State} (h : PinsApart s.lanes) (c : Core) :
    NextApart (execWfi c s) := .of_next (issue_apart h _ _ fun _ ht => by simp [ht])

theorem execWfiEnd_apart {s : State} (h : PinsApart s.lanes) (n : Fin 4) : NextApart (execWfiEnd n s) := by simp [execWfiEnd, h]

theorem execFence_apart {s : State} (h : PinsApart s.lanes) (c : Core) :
    NextApart (execFence c s) := .of_next (issue_apart h _ _ fun _ ht => by simp [ht])

theorem execIllegalOpcode_apart {s : State} (h : PinsApart s.lanes) (c : Core) (w : Word) :
    NextApart (execIllegalOpcode c w s) := by
  unfold execIllegalOpcode
  extract_lets n
  split
  · exact .of_next h
  · exact .of_next (issue_apart h _ _ fun _ ht => illegal_apart ht _)

theorem execReservedOpcode_apart {s : State} (h : PinsApart s.lanes) (c : Core) (w : Word) :
    NextApart (execReservedOpcode c w s) := by
  unfold execReservedOpcode
  extract_lets n
  split
  · exact .of_next h
  · refine .of_next (issue_apart h _ _ fun t ht => ?_)
    extract_lets pc u v vec w
    split_ifs
    · exact raise_apart ht ..
    · exact illegal_apart ht _
    · simp [w, v, u, ht]

theorem execEret_apart {s : State} (h : PinsApart s.lanes) (c : Core) : NextApart (execEret c s) := by
  refine .of_next (issue_apart h _ _ fun t ht => ?_)
  extract_lets epc u
  split_ifs
  · exact svEret_apart ht _
  · exact illegal_apart ht _
  · simp [u, ht]

theorem execExceptionEntry_apart {s : State} (h : PinsApart s.lanes) (n : Fin 4) : NextApart (execExceptionEntry n s) := by
  unfold execExceptionEntry
  extract_lets c k u pc
  have hu : PinsApart u.lanes := by simp [u, h]
  split
  · exact .of_next h
  split
  · exact .of_next h
  split
  · exact .of_next h
  · extract_lets v
    have hv : PinsApart v.lanes := takeException_apart hu ..
    refine .of_next ?_
    split <;> simp [hv]

theorem execLongStep_apart {s : State} (h : PinsApart s.lanes) (n : Fin 4) : NextApart (execLongStep n s) := by
  unfold execLongStep
  extract_lets c k
  split
  · exact .of_next h
  next o _ =>
    extract_lets d a b
    split
    · exact .of_next h
    have hw := longWork_apart h c o.kind d a b.1.toNat
    split
    · exact .of_next h
    · exact .of_next (by simp [accessFault_apart h])
    next t d' a' m heq =>
      have ht := hw t d' a' m heq
      extract_lets u left k1 v src
      have hu : PinsApart u.lanes := by simp [u, ht]
      have hv : PinsApart v.lanes := by simp [v, hu]
      split_ifs
      · exact .of_next ht
      · exact .of_next (by simp [hv])
      · exact .of_next (by simp [hu])

theorem execDbgDetach_apart {s : State} (h : PinsApart s.lanes) (early : Bool) : NextApart (execDbgDetach s early) := by
  refine .of_next (dbgOp_apart h _ _ fun t ht => ?_)
  rw [dbgDone_lanes, setDbg_lanes]
  refine foldl_apart (fun u c hu => ?_) _ ht
  split
  · exact setHalt_apart hu ..
  · exact hu

theorem execDbgHalt_apart {s : State} (h : PinsApart s.lanes) (tgt : BitVec 4) (addr : Word) (early : Bool) :
    NextApart (execDbgHalt tgt addr s early) := by
  refine .of_next (dbgOp_apart h _ _ fun t ht => ?_)
  split
  · simp [ht]
  · extract_lets u v
    have hu : PinsApart u.lanes := foldl_apart (fun _ _ h => setHalt_apart h _ _) _ ht
    have hv : PinsApart v.lanes := by simp [v, disableAll_apart hu]
    split
    · simp [hv]
    · rw [dbgDone_lanes]
      split <;> simp [hu]

theorem execDbgResume_apart {s : State} (h : PinsApart s.lanes) (tgt : BitVec 4) (addr : Word) (early : Bool) :
    NextApart (execDbgResume tgt addr s early) := by
  refine .of_next (dbgOp_apart h _ _ fun t ht => ?_)
  split
  · simp [ht]
  · extract_lets was u
    have hu : PinsApart u.lanes := by
      refine foldl_apart (fun u c hu => ?_) _ ht
      split
      · exact setHalt_apart hu ..
      · exact hu
    rw [dbgDone_lanes]
    split <;> simp [hu]

theorem execDbgStep_apart {s : State} (h : PinsApart s.lanes) (tgt : BitVec 4) (addr : Word) (early : Bool) :
    NextApart (execDbgStep tgt addr s early) := by
  refine .of_next (dbgOp_apart h _ _ fun t ht => ?_)
  extract_lets cs
  split
  · simp [ht]
  · rw [dbgDone_lanes]
    exact foldl_apart (fun _ _ h => by simp [h]) _ ht

theorem execDbgStatus_apart {s : State} (h : PinsApart s.lanes) (early : Bool) :
    NextApart (execDbgStatus s early) := .of_next (dbgOp_apart h _ _ fun t ht => by simp [ht])

theorem execDbgReset_apart {s : State} (h : PinsApart s.lanes) (data : Word) (early : Bool) :
    NextApart (execDbgReset data s early) := by
  refine .of_next (dbgOp_apart h _ _ fun t ht => ?_)
  extract_lets u
  have hu : PinsApart u.lanes := deviceReset_apart (by simp [ht]) ..
  exact hu

theorem execDbgWrite_apart {s : State} (h : PinsApart s.lanes) (addr data : Word) (early : Bool) :
    NextApart (execDbgWrite addr data s early) := by
  refine .of_next (dbgOp_apart h _ _ fun t ht => ?_)
  split
  · simp [ht]
  · rw [dbgDone_lanes]
    exact busWrite_apart ht ..

theorem execDbgReadChallenge_apart {s : State} (h : PinsApart s.lanes) (addr : Word) (early : Bool) :
    NextApart (execDbgReadChallenge addr s early) := .of_next (dbgOp_apart h _ _ fun t ht => by simp [ht])

theorem execDbgOpError_apart {s : State} (h : PinsApart s.lanes) (op : BitVec 4) (early : Bool) :
    NextApart (execDbgOpError op s early) := by
  unfold execDbgOpError
  split
  · exact .of_next h
  · exact .of_next (dbgOp_apart h _ _ fun t ht => by simp [ht])

/-- Every command keeps the pins of every lane apart. -/

theorem exec_apart {s : State} (h : PinsApart s.lanes) (i : Instr) : NextApart (exec i s) := by
  cases i <;> dsimp only [exec]
  case suppliesRemoved => exact .of_next (resetCore_apart _ _ _ _ _)
  case scrubStep => exact execScrubStep_apart h _
  case scrubLapLimit => exact execScrubLapLimit_apart h _
  case sealComplete => exact execSealComplete_apart h _
  case eraseBlockDone => exact execEraseBlockDone_apart h _
  case loadEntryWrite => exact execLoadEntryWrite_apart h
  case prefetchComplete => exact execPrefetchComplete_apart h
  case rackingStep => exact execRackingStep_apart h
  case cbRecordWrite => exact execCbRecordWrite_apart h
  case cbRepeatRewrite => exact execCbRepeatRewrite_apart h
  case cbOperatingSecond => exact execCbOperatingSecond_apart h
  case cbReadReady => exact execCbReadReady_apart h _
  case cbClearVerified => exact execCbClearVerified_apart h
  case cbClearDone => exact execCbClearDone_apart h
  case tripPinEdge => exact execTripPinEdge_apart h _ _
  case guardThresholdCrossing => exact execGuardThresholdCrossing_apart h _ _
  case gcSettleEnd => exact execGcSettleEnd_apart h _ _
  case stoAssert => exact execStoAssert_apart h _
  case stoEnClearDone => exact execStoEnClearDone_apart h
  case stoDiscrepancy => exact execStoDiscrepancy_apart h
  case laneRisingEdge => exact execLaneRisingEdge_apart h _
  case laneFallingEdge => exact execLaneFallingEdge_apart h _
  case stretchCheck => exact execStretchCheck_apart h _
  case deadTimeEnd => exact execDeadTimeEnd_apart h _
  case refreshPulseEnd => exact execRefreshPulseEnd_apart h _
  case periodBoundary => exact execPeriodBoundary_apart h _
  case trioSyncStart => exact execTrioSyncStart_apart h _
  case speedWindowEnd => exact execSpeedWindowEnd_apart h _ _ _
  case camSetpointReady => exact execCamSetpointReady_apart h _ _
  case activationPoint => exact execActivationPoint_apart h _ _
  case deadlineExpiry => exact execDeadlineExpiry_apart h _ _
  case encFilteredEdge => exact execEncFilteredEdge_apart h _ _ _ _
  case encReceiverOpen => exact execEncReceiverOpen_apart h _ _ _
  case ssiFrameComplete => exact execSsiFrameComplete_apart h _ _ _
  case ssiDataReturn => exact execSsiDataReturn_apart h _
  case ssiTimeout => exact execSsiTimeout_apart h _
  case sdWordReady => exact execSdWordReady_apart h _ _ _
  case sdCoarseWord => exact execSdCoarseWord_apart h _ _
  case sdStuck => exact execSdStuck_apart h _
  case sdClockLoss => exact execSdClockLoss_apart h _
  case sdPeriodMeasured => exact execSdPeriodMeasured_apart h _ _
  case sdClockRecover => exact execSdClockRecover_apart h _
  case adTrigger => exact execAdTrigger_apart h _
  case adStepEnd => exact execAdStepEnd_apart h _ _
  case commitRegister => exact execCommitRegister_apart h
  case gtWrap => exact execGtWrap_apart h _
  case gtCompareMatch => exact execGtCompareMatch_apart h _ _
  case gtCapture => exact execGtCapture_apart h _ _ _
  case gtCaplRead => exact execGtCaplRead_apart h _ _ _
  case gtCaphRead => exact execGtCaphRead_apart h _ _ _
  case pllLock => exact execPllLock_apart h _
  case lowFrequencyEdge => exact execLowFrequencyEdge_apart h
  case tbWakeCompare => exact execTbWakeCompare_apart h
  case lfTimeExit => exact execLfTimeExit_apart h
  case refclkLoss => exact execRefclkLoss_apart h
  case lfcntRunEnd => exact execLfcntRunEnd_apart h _
  case lfCrystalFail => exact execLfCrystalFail_apart h
  case alignmentLoad => exact execAlignmentLoad_apart h _
  case pmuCounterOverflow => exact execPmuCounterOverflow_apart h _ _ _
  case pmuTagRecord => exact execPmuTagRecord_apart h _ _
  case pmuDumpTrigger => exact execPmuDumpTrigger_apart h
  case pmuDumpWriteDone => exact execPmuDumpWriteDone_apart h
  case stringPortUp => exact execStringPortUp_apart h _
  case stringCycleBoundary => exact execStringCycleBoundary_apart h
  case headPageLatch => exact execHeadPageLatch_apart h
  case cycFrameReturn => exact execCycFrameReturn_apart h _ _ _
  case bulkFrameReceive => exact execBulkFrameReceive_apart h _ _
  case echoSend => exact execEchoSend_apart h _ _
  case echoReceive => exact execEchoReceive_apart h _ _ _ _
  case echoReplyReceive => exact execEchoReplyReceive_apart h _ _ _ _ _
  case tuneFrameReceive => exact execTuneFrameReceive_apart h _ _ _
  case tuneReturn => exact execTuneReturn_apart h _ _ _
  case tuneTimeout => exact execTuneTimeout_apart h
  case pcieLinkUp => exact execPcieLinkUp_apart h
  case secureBoot => exact execSecureBoot_apart h
  case secBankWriteDone => exact execSecBankWriteDone_apart h
  case secRollWrite => exact execSecRollWrite_apart h _ _
  case challengeExpiry => exact execChallengeExpiry_apart h
  case openingVerified => exact execOpeningVerified_apart h
  case openEntered => exact execOpenEntered_apart h
  case powerOnReset => exact execPowerOnReset_apart h _
  case resetEnd => exact execResetEnd_apart h _ _
  case supplyWarningStart => exact execSupplyWarningStart_apart h _ _
  case supplySample => exact execSupplySample_apart h _ _
  case supplyEpisodeEnd => exact execSupplyEpisodeEnd_apart h _ _
  case supplyBelowResetLevel => exact execSupplyBelowResetLevel_apart h _
  case supplyRestored => exact execSupplyRestored_apart h _
  case idleEntered => exact execIdleEntered_apart h
  case idleExit => exact execIdleExit_apart h _
  case wakePin => exact execWakePin_apart h
  case stringWakeSequence => exact execStringWakeSequence_apart h
  case holdWake => exact execHoldWake_apart h
  case fresetEnd => exact execFresetEnd_apart h _
  case perstnAssert => exact execPerstnAssert_apart h _
  case heartbeatProbe => exact execHeartbeatProbe_apart h _
  case probeTimeout => exact execProbeTimeout_apart h _
  case resetBoundExceeded => exact execResetBoundExceeded_apart h _
  case pmuFixlRead => exact execPmuFixlRead_apart h _ _
  case cbReadWrite => exact execCbReadWrite_apart h _ _
  case cbClearGo => exact execCbClearGo_apart h _ _
  case registerWrite => exact execRegisterWrite_apart h _ _ _
  case read => exact execRead_apart h _ _ _ _
  case write => exact execWrite_apart h _ _ _ _
  case arm => exact execArm_apart h _ _ _ _ _
  case freset => exact execFreset_apart h _ _ _
  case devreset => exact execDevreset_apart h _ _
  case mbox => exact execMbox_apart h _ _ _
  case power => exact execPower_apart h _ _ _
  case cbclear => exact execCbclear_apart h _ _ _
  case dsc => exact execDsc_apart h _ _ _ _ _
  case descriptorJudged => exact execDescriptorJudged_apart h
  case descriptorReapplied => exact execDescriptorReapplied_apart h
  case pcieReadRequest => exact execPcieReadRequest_apart h _ _ _
  case pcieWriteRequest => exact execPcieWriteRequest_apart h _ _ _ _
  case sel => exact execSel_apart h _ _ _ _ _
  case sideUnitResult => exact execSideUnitResult_apart h _ _
  case swap => exact execSwap_apart h _ _ _ _
  case cas => exact execCas_apart h _ _ _ _
  case irqClaim => exact execIrqClaim_apart h _
  case holdEntryComplete => exact execHoldEntryComplete_apart h
  case storeBufferDrain => exact execStoreBufferDrain_apart h _
  case yield => exact execYield_apart h _
  case commit => exact execCommit_apart h _
  case sync => exact execSync_apart h _
  case check => exact execCheck_apart h _
  case mtcr => exact execMtcr_apart h _ _ _
  case mfcr => exact execMfcr_apart h _ _ _
  case svc => exact execSvc_apart h _ _
  case wfi => exact execWfi_apart h _
  case wfiEnd => exact execWfiEnd_apart h _
  case fence => exact execFence_apart h _
  case illegalOpcode => exact execIllegalOpcode_apart h _ _
  case reservedOpcode => exact execReservedOpcode_apart h _ _
  case eret => exact execEret_apart h _
  case exceptionEntry => exact execExceptionEntry_apart h _
  case longStep => exact execLongStep_apart h _
  case dbgDetach => exact execDbgDetach_apart h _
  case dbgHalt => exact execDbgHalt_apart h _ _ _
  case dbgResume => exact execDbgResume_apart h _ _ _
  case dbgStep => exact execDbgStep_apart h _ _ _
  case dbgStatus => exact execDbgStatus_apart h _
  case dbgReset => exact execDbgReset_apart h _ _
  case dbgWrite => exact execDbgWrite_apart h _ _ _
  case dbgReadChallenge => exact execDbgReadChallenge_apart h _ _
  case dbgOpError => exact execDbgOpError_apart h _ _
  all_goals
    refine .of_next ?_
    simp [h]

end Sys2Proof.Proofs
end

section
namespace Sys2Proof.Proofs
open Sys2Proof Sys2Proof.Machine Sys2Proof.Safety Sys2Proof.Laws

/-! ### O54: no lane ever shows both pins on (R81, R113) -/

theorem tick_apart {s : State} (h : PinsApart s.lanes) : PinsApart (tick s).lanes := by
  unfold tick
  extract_lets src u src' v
  have hu : PinsApart u.lanes := h
  have hv : PinsApart v.lanes := by
    refine forN_apart (fun _ _ h => by simp [h]) 4 (forN_apart (fun _ _ h => by simp [h]) 24 ?_)
    exact forN_apart (fun _ _ h => tripSample_apart h _) 16 hu
  split_ifs
  · exact h
  · exact hu
  · rw [tickCam_lanes]
    exact forN_apart (fun _ _ h => by simp [h]) 16 (forN_apart (fun _ _ h => by simp [h]) 64 hv)

theorem step_apart {s : State} (h : PinsApart s.lanes) : NextApart (step s) := by
  unfold step
  split
  · exact .of_next (tick_apart h)
  next i rest _ => exact exec_apart (s := { s with pending := rest }) h i

/-- Settles O54: every operation that writes a lane's entry either keeps its pins or drives them, and a drive switches a pin on
only while the other one is off (R81, R113). -/

theorem pinsNeverBothOn : Obligations.pins_never_both_on :=
  fun _ _ hs ht => (step_apart ⟨hs⟩ _ ht).lane

end Sys2Proof.Proofs
end

section
namespace Sys2Proof.Proofs
open Sys2Proof Sys2Proof.Machine Sys2Proof.Safety Sys2Proof.Laws

/-! ### O2: the empty-queue tick, refuted by a vintage slot outside the index (R112, R361)

A tick samples the TRIP pins before it looks for activations that wait for a cam read. `OpenAct.vint` is any `Nat`, so the
directory word that `camReads` reads can be any register above the directory, MU_TRIPCFG of a TRIP pin too. The sample of that
pin then ends the wait, and the counter keeps its value where the statement, which looks at the state before the tick, has it
count. -/

/-- A step on an empty queue is a tick. -/
theorem eq_tick_of_step {s t : State} (he : s.pending = []) (h : step s = .next t) : t = tick s := by
  rw [step, he] at h
  exact (Host.Outcome.next.inj h).symm

/-- No row waits for a cam read: nothing is counted. -/
theorem tickCam_idle {s : State} (h : ∀ k < 64, anyN 4 (fun x => (s.slot k x).acts.any (camWaits s k)) = false) :
    tickCam s = s := by
  refine forN_keeps_lt (· = s) (fun t k hk ht => ?_) rfl
  rw [ht, h k hk]
  rfl

/-- An activation whose directory word, for this vintage slot, is at 0x6E000048, the address of MU_TRIPCFG of TRIP2. -/
def strayVintage : OpenAct :=
  { trig := 0, since := 0, mpos := 0, vel := 0, vint := some 0x17FFFA, stale := false, newv := false, sd := 0, ep := false,
    ad := false, cam := false, setp := 0, setv := 0, camErr := false, camPoison := false }

/-- In row 0 that activation waits for its sixth cam read, and counter 0 selects such ticks; the source of TRIP2 is asserted
while its pin, which is filtered, is inactive. -/
def strayCam : State :=
  { State.reset with
    regs := [(Reg.tbStat.addr 0 0, 1), (Reg.stAttn.addr 0 0, 1), (Reg.pmuRctl.addr 0 0, 1), (Reg.pmuRevt.addr 0 0, 0x13),
      (Reg.muTripcfg.addr 2 0, 0xA), (Reg.rwCam.addr 0 0, 0xB)],
    slots := [(0, { acts := [strayVintage] })], srcs := [(322, true)] }

/-- `strayCam` in its tick after the samples of the TRIP pins. -/
def straySampled : State :=
  { strayCam with
    now := strayCam.now + 1,
    tb := { strayCam.tb with locked := strayCam.tb.locked + 1, ticks := strayCam.tb.ticks + 1 } }.forN 16 tripSample

/-- `strayCam` in its tick before the cam-wait counters look. -/
def strayCounted : State := (((straySampled.forN 24 sdBit).forN 4 tickFix).forN 64 tickTrio).forN 16 tickGt

theorem strayCam_due : strayCam.timeOk = true ∧ strayCam.dark = false ∧ strayCam.rd .pmuRcnt 0 0 = 0 ∧
    countsCam strayCam 0 0 = true := by decide +kernel

theorem tick_strayCam : tick strayCam = tickCam strayCounted := by
  rw [tick, if_neg (by decide +kernel), if_neg (by decide +kernel)]
  rfl

/-- The sample of TRIP2 has cleared MU_TRIPCFG.ACT, which takes the directory word from ten cam reads to two. -/
theorem strayCounted_waits :
    ∀ k < 64, anyN 4 (fun x => (strayCounted.slot k x).acts.any (camWaits strayCounted k)) = false := by decide +kernel

theorem strayCounted_count : strayCounted.rd .pmuRcnt 0 0 = 0 := by decide +kernel

theorem tick_strayCam_count : (tick strayCam).rd .pmuRcnt 0 0 = 0 := by
  rw [tick_strayCam, tickCam_idle strayCounted_waits, strayCounted_count]

/-- Refutes O2: row 0's counter is due in `strayCam`, yet it keeps its value in the tick. -/
theorem not_emptyQueueTicks : ¬ Obligations.empty_queue_ticks := by
  intro h
  obtain ⟨htime, hdark, hzero, hcounts⟩ := strayCam_due
  obtain ⟨t, ht, -, -, -, -, -, -, hcam, -⟩ := (h strayCam rfl).2.2 htime hdark
  have hkept : t.rd .pmuRcnt 0 0 = 0 := eq_tick_of_step rfl ht ▸ tick_strayCam_count
  have hone : t.rd .pmuRcnt 0 0 = 0 + 1 := by
    rw [(hcam 0 (by decide) 0 (by decide)).1, if_pos hcounts, hzero]
  rw [hkept] at hone
  exact absurd hone (by decide)

end Sys2Proof.Proofs
end

section
namespace Sys2Proof.Proofs
open Sys2Proof Sys2Proof.Machine Sys2Proof.Safety Sys2Proof.Laws

/-! ### Registers of the encoder ports -/

/-- The registers that each encoder port has. -/
def portRegs : List Reg := [.epCfg, .epPos, .epIdx, .epLat, .epLatp, .epSsi, .epStat]

theorem portRegs_dims : ∀ r ∈ portRegs, r.info.ni = 64 ∧ r.info.nj = 1 := by decide

section Port

variable (s : State) {r q : Reg} (p : Fin 64)

/-- A write to a register of a port leaves the port's others. -/
theorem rd_wr_port (v : Word) (h : q ≠ r) (hr : r ∈ portRegs) (hq : q ∈ portRegs) : (s.wr r p 0 v).rd q p 0 = s.rd q p 0 := by
  obtain ⟨hri, hrj⟩ := portRegs_dims r hr
  obtain ⟨hqi, hqj⟩ := portRegs_dims q hq
  exact rd_wr_other s v h (by omega) (by omega) (by omega) (by omega)

theorem bit_wr_port (v : Word) (b : Nat) (h : q ≠ r) (hr : r ∈ portRegs) (hq : q ∈ portRegs) :
    (s.wr r p 0 v).bit q p 0 b = s.bit q p 0 b := by
  rw [State.bit, rd_wr_port s p v h hr hq, State.bit]

theorem bit_wrB_port (c b : Nat) (v : Bool) (h : q ≠ r) (hr : r ∈ portRegs) (hq : q ∈ portRegs) :
    (s.wrB r p 0 c v).bit q p 0 b = s.bit q p 0 b := bit_wr_port s p _ b h hr hq

/-- A bit of a register after a write of one of its bits. -/
theorem bit_wrB_same (i j c b : Nat) (v : Bool) (hb : b < 32) :
    (s.wrB r i j c v).bit r i j b = if b = c then v else s.bit r i j b := by
  rw [State.bit, rd_wrB_same, bitOf_setBit _ _ _ _ hb, State.bit]

theorem bit_setB_same (i j c b : Nat) (hb : b < 32) :
    (s.setB r i j c).bit r i j b = (decide (b = c) || s.bit r i j b) := by
  rw [State.setB, bit_wrB_same s i j c b true hb]
  by_cases h : b = c <;> simp [h]

theorem bit_clrB_same (i j c b : Nat) (hb : b < 32) :
    (s.clrB r i j c).bit r i j b = (!decide (b = c) && s.bit r i j b) := by
  rw [State.clrB, bit_wrB_same s i j c b false hb]
  by_cases h : b = c <;> simp [h]

end Port

/-- A field is the same where its bits are. -/
theorem rdF_congr {s t : State} {r : Reg} {i j hi lo : Nat} (h : ∀ b, lo ≤ b → b ≤ hi → t.bit r i j b = s.bit r i j b) :
    t.rdF r i j hi lo = s.rdF r i j hi lo := fld_congr h

/-! ### Operations that change registers alone -/

theorem KeepsRegs.port {rs : List Reg} {s t : State} (h : KeepsRegs rs s t) (p : Fin 64) {r : Reg} (hr : r ∈ portRegs)
    (hs : r ∉ rs) : t.rd r p 0 = s.rd r p 0 := by
  obtain ⟨hi, hj⟩ := portRegs_dims r hr
  exact h r p 0 hs (by omega) (by omega)

theorem KeepsRegs.port_bit {rs : List Reg} {s t : State} (h : KeepsRegs rs s t) (p : Fin 64) {r : Reg} (b : Nat)
    (hr : r ∈ portRegs) (hs : r ∉ rs) : t.bit r p 0 b = s.bit r p 0 b := by
  rw [State.bit, h.port p hr hs, State.bit]

theorem KeepsRegs.port_rdF {rs : List Reg} {s t : State} (h : KeepsRegs rs s t) (p : Fin 64) {r : Reg} (hi lo : Nat)
    (hr : r ∈ portRegs) (hs : r ∉ rs) : t.rdF r p 0 hi lo = s.rdF r p 0 hi lo := by
  rw [State.rdF, h.port p hr hs, State.rdF]

/-- The state but the registers. -/
def beyondRegs (s : State) : State := { s with regs := [] }

theorem only_wr_port (s : State) (p : Fin 64) {r : Reg} (v : Word) (hr : r ∈ portRegs) :
    Only beyondRegs [r] s (s.wr r p 0 v) := by
  obtain ⟨hi, hj⟩ := portRegs_dims r hr
  exact .wr rfl (by simp) (by omega) (by omega)

theorem Only.rest_eq {rs : List Reg} {s t : State} (h : Only beyondRegs rs s t) : { t with regs := s.regs } = s := by
  have g := congrArg (fun u : State => { u with regs := s.regs }) h.rest
  exact g

theorem Only.enc {rs : List Reg} {s t : State} (h : Only beyondRegs rs s t) (q : Nat) : t.enc q = s.enc q := by
  have hs : t.encs = s.encs := by have g := congrArg State.encs h.rest; exact g
  rw [State.enc, hs, State.enc]

/-! ### The shown Hall state -/

theorem hallOf_lt : ∀ u v w, hallOf u v w < 8 := by decide

/-- `showHall` writes EP_STAT alone. -/
theorem showHall_only (s : State) (p : Fin 64) : Only beyondRegs [.epStat] s (showHall s p) :=
  (Only.when _ (only_wr_port s p _ (by decide))).trans (only_wr_port _ p _ (by decide))

theorem showHall_enc (s : State) (p : Fin 64) (q : Nat) : (showHall s p).enc q = s.enc q := (showHall_only s p).enc q

theorem showHall_rd (s : State) (p : Fin 64) {r : Reg} (hr : r ∈ portRegs) (hs : r ∉ [Reg.epStat]) :
    (showHall s p).rd r p 0 = s.rd r p 0 := (showHall_only s p).regs.port p hr hs

/-- EP_STAT before HALL is written: HERR as well, where the port runs and H is no state of the protocol (R122). -/
def hallChecked (s : State) (p : Nat) : State :=
  s.when (epEn s p && s.timeOk && epMode s p == 2 && (hallPos (hallOf (s.enc p).a (s.enc p).b (s.enc p).z)).isNone)
    (·.setB .epStat p 0 3)

theorem showHall_eq (s : State) (p : Fin 64) : showHall s p = (hallChecked s p).wrF .epStat p 0 13 11
    (if epMode s p = 2 then hallOf (s.enc p).a (s.enc p).b (s.enc p).z else 0) := by
  have hmode : epMode (hallChecked s p) p = epMode s p :=
    KeepsRegs.rdF (rs := [.epStat]) (.when _ (.setB 3 (by simp) p.isLt (by decide))) 2 1 (by simp) p.isLt (by decide)
  rw [← hmode]
  rfl

theorem showHall_hall (s : State) (p : Fin 64) : (showHall s p).rdF .epStat p 0 13 11 =
    if epMode s p = 2 then hallOf (s.enc p).a (s.enc p).b (s.enc p).z else 0 := by
  rw [showHall_eq, State.rdF, rd_wrF_same, fld_setFld_same _ _ _ _ (by decide)]
  refine Nat.mod_eq_of_lt ?_
  split
  · exact hallOf_lt ..
  · decide

/-- A bit of EP_STAT outside HALL, once H has been checked. -/
theorem showHall_bit_checked (s : State) (p : Fin 64) {b : Nat} (hb : b < 32) (h : b < 11 ∨ 13 < b) :
    (showHall s p).bit .epStat p 0 b = (hallChecked s p).bit .epStat p 0 b := by
  rw [showHall_eq, State.bit, rd_wrF_same, bitOf_setFld _ _ _ _ _ hb, if_neg (by omega), State.bit]

theorem showHall_bit (s : State) (p : Fin 64) {b : Nat} (hb : b < 32) (h : b < 11 ∨ 13 < b) (h3 : b ≠ 3) :
    (showHall s p).bit .epStat p 0 b = s.bit .epStat p 0 b := by
  rw [showHall_bit_checked s p hb h, hallChecked, State.when]
  split
  · rw [bit_setB_same _ _ _ _ _ hb, decide_eq_false h3, Bool.false_or]
  · rfl

/-- H of 0 or 7 sets HERR on a running port in Hall mode (R122). -/
theorem showHall_herr (s : State) (p : Fin 64) (hen : epEn s p = true) (ht : s.timeOk = true) (hm : epMode s p = 2)
    (hh : hallOf (s.enc p).a (s.enc p).b (s.enc p).z = 0 ∨ hallOf (s.enc p).a (s.enc p).b (s.enc p).z = 7) :
    (showHall s p).bit .epStat p 0 3 = true := by
  have hnone : (hallPos (hallOf (s.enc p).a (s.enc p).b (s.enc p).z)).isNone = true := by
    rcases hh with h | h <;> rw [h] <;> rfl
  rw [showHall_bit_checked s p (by decide) (by decide), hallChecked, State.when, if_pos (by simp [hen, ht, hm, hnone]),
    bit_setB_same _ _ _ _ _ (by decide)]
  rfl

end Sys2Proof.Proofs
end

section
namespace Sys2Proof.Proofs
open Sys2Proof Sys2Proof.Machine Sys2Proof.Safety Sys2Proof.Laws

/-! ### The samples and the levels that they settle (R120) -/

theorem mem_addEdge (e f : Nat × Nat × Bool) (l : List (Nat × Nat × Bool)) : f ∈ addEdge e l ↔ f = e ∨ f ∈ l := by
  induction l with
  | nil => simp [addEdge]
  | cons g l ih =>
    rw [addEdge]
    split
    · simp
    · simp only [List.mem_cons, ih]; tauto

/-- A settled level leaves the order of what `q` picks, where it is not picked itself. -/
theorem filter_addEdge (q : Nat × Nat × Bool → Bool) {e : Nat × Nat × Bool} (h : q e = false) (l : List (Nat × Nat × Bool)) :
    (addEdge e l).filter q = l.filter q := by
  induction l with
  | nil => simp [addEdge, h]
  | cons g l ih =>
    rw [addEdge]
    split
    · rw [List.filter_cons_of_neg (by simp [h])]
    · rw [List.filter_cons, List.filter_cons, ih]

/-- The level that receiver `rx` comes to by its settled levels. -/
def lastLevel (x : EncS) (rx : Nat) : Bool :=
  (((x.edges.filter (·.2.1 == rx)).getLast?).map (·.2.2)).getD (filtOf x rx)

/-- Samples of receiver `rx` at `pin` since tick `t` settle a level that was not settled before. -/
def settles (s : State) (p : Nat) (x : EncS) (rx t : Nat) (pin : Bool) : Prop :=
  x.openRx.getLsbD rx = false ∧ t + s.rdF .epCfg p 0 7 4 ≤ s.tb.ticks ∧ pin ≠ lastLevel x rx

section Settle

variable (s : State) (p : Nat) (x : EncS) (rx t : Nat) (pin : Bool)

theorem settleRx_eq : settleRx s p x rx t pin =
    if x.openRx.getLsbD rx || s.tb.ticks < t + s.rdF .epCfg p 0 7 4 || pin == lastLevel x rx then x
    else { x with edges := addEdge (filterTick s p t, rx, pin) x.edges } := rfl

theorem settleRx_settles (h : settles s p x rx t pin) :
    settleRx s p x rx t pin = { x with edges := addEdge (filterTick s p t, rx, pin) x.edges } := by
  obtain ⟨hopen, htick, hpin⟩ := h
  rw [settleRx_eq, if_neg (by simp [hopen, hpin, htick])]

theorem settleRx_unsettled (h : ¬ settles s p x rx t pin) : settleRx s p x rx t pin = x := by
  rw [settleRx_eq, if_pos]
  by_contra hc
  simp only [Bool.or_eq_true, decide_eq_true_eq, beq_iff_eq, not_or, Bool.not_eq_true, Nat.not_lt] at hc
  exact h ⟨hc.1.1, hc.1.2, hc.2⟩

theorem settleRx_rest : settleRx s p x rx t pin = { x with edges := (settleRx s p x rx t pin).edges } := by
  by_cases h : settles s p x rx t pin
  · rw [settleRx_settles s p x rx t pin h]
  · rw [settleRx_unsettled s p x rx t pin h]

theorem mem_settleRx (e : Nat × Nat × Bool) : e ∈ (settleRx s p x rx t pin).edges ↔
    e ∈ x.edges ∨ settles s p x rx t pin ∧ e = (filterTick s p t, rx, pin) := by
  by_cases h : settles s p x rx t pin
  · rw [settleRx_settles s p x rx t pin h, mem_addEdge, or_comm]
    simp [h]
  · rw [settleRx_unsettled s p x rx t pin h]
    simp [h]

/-- Another receiver's levels stay as they are. -/
theorem lastLevel_settleRx {j : Nat} (hj : rx ≠ j) : lastLevel (settleRx s p x rx t pin) j = lastLevel x j := by
  by_cases h : settles s p x rx t pin
  · rw [settleRx_settles s p x rx t pin h, lastLevel, filter_addEdge _ (by simpa using hj)]
    rfl
  · rw [settleRx_unsettled s p x rx t pin h]

theorem settles_settleRx {j : Nat} (hj : rx ≠ j) (u : Nat) (l : Bool) :
    settles s p (settleRx s p x rx t pin) j u l ↔ settles s p x j u l := by
  have hopen : (settleRx s p x rx t pin).openRx = x.openRx := by rw [settleRx_rest]
  rw [settles, settles, hopen, lastLevel_settleRx s p x rx t pin hj]

end Settle

/-- The first tick of the samples that agree with `new`, where `old` has been sampled since tick `t`. -/
def sinceTick (s : State) (x : EncS) (old new : Bool) (t : Nat) : Nat := if old = new then t else Nat.min (x.seen + 1) s.tb.ticks

/-- Port `x` with its receivers sampled at a, b, z, and the ticks since which their samples agree. -/
def sampled (s : State) (x : EncS) (a b z : Bool) : EncS :=
  { x with
    pins := (a, b, z), seen := s.tb.ticks,
    since := (sinceTick s x x.pins.1 a x.since.1, sinceTick s x x.pins.2.1 b x.since.2.1, sinceTick s x x.pins.2.2 z x.since.2.2) }

section Sample

variable (s : State) (p : Nat) (a b z : Bool)

theorem sampleRx_eq : sampleRx s p a b z =
    settleRx s p (settleRx s p (settleRx s p (sampled s (s.enc p) a b z) 0 (sampled s (s.enc p) a b z).since.1 a)
      1 (sampled s (s.enc p) a b z).since.2.1 b) 2 (sampled s (s.enc p) a b z).since.2.2 z := rfl

theorem sampleRx_rest : sampleRx s p a b z = { sampled s (s.enc p) a b z with edges := (sampleRx s p a b z).edges } := by
  rw [sampleRx_eq, settleRx_rest, settleRx_rest s p (settleRx ..), settleRx_rest s p (sampled ..)]

theorem mem_sampleRx (e : Nat × Nat × Bool) : let x := s.enc p
    e ∈ (sampleRx s p a b z).edges ↔ e ∈ x.edges ∨
      (settles s p x 0 (sinceTick s x x.pins.1 a x.since.1) a ∧ e = (filterTick s p (sinceTick s x x.pins.1 a x.since.1), 0, a)) ∨
      (settles s p x 1 (sinceTick s x x.pins.2.1 b x.since.2.1) b ∧
        e = (filterTick s p (sinceTick s x x.pins.2.1 b x.since.2.1), 1, b)) ∨
      (settles s p x 2 (sinceTick s x x.pins.2.2 z x.since.2.2) z ∧
        e = (filterTick s p (sinceTick s x x.pins.2.2 z x.since.2.2), 2, z)) := by
  intro x
  rw [sampleRx_eq, mem_settleRx, mem_settleRx, mem_settleRx, settles_settleRx _ _ _ _ _ _ (by decide),
    settles_settleRx _ _ _ _ _ _ (by decide), settles_settleRx _ _ _ _ _ _ (by decide), or_assoc, or_assoc]
  rfl

end Sample

/-! ### The filtered levels that settled levels become -/

/-- The level that `g` brings receiver `rx` to from `l`. -/
def levelAfter (g : List (Nat × Nat × Bool)) (rx : Nat) (l : Bool) : Bool :=
  (((g.filter (·.2.1 == rx)).getLast?).map (·.2.2)).getD l

theorem levelAfter_cons (e : Nat × Nat × Bool) (g : List (Nat × Nat × Bool)) (rx : Nat) (l : Bool) :
    levelAfter (e :: g) rx l = levelAfter g rx (if rx = e.2.1 then e.2.2 else l) := by
  by_cases h : e.2.1 = rx
  · rw [levelAfter, levelAfter, List.filter_cons_of_pos (by simpa using h), if_pos h.symm]
    cases hg : (g.filter (·.2.1 == rx)).getLast? with
    | none => simp [List.getLast?_cons, hg]
    | some f => simp [List.getLast?_cons, hg]
  · rw [levelAfter, levelAfter, List.filter_cons_of_neg (by simpa using h), if_neg (Ne.symm h)]

/-- Filtered levels that follow `g` in its order. -/
theorem foldl_setFilt (g : List (Nat × Nat × Bool)) (x : EncS) : g.foldl (fun y e => setFilt y e.2.1 e.2.2) x =
    { x with a := levelAfter g 0 x.a, b := levelAfter g 1 x.b, z := levelAfter g 2 x.z } := by
  induction g generalizing x with
  | nil => rfl
  | cons e g ih =>
    rw [List.foldl_cons, ih]
    simp only [levelAfter_cons, setFilt, eq_comm]

end Sys2Proof.Proofs
end

section
namespace Sys2Proof.Proofs
open Sys2Proof Sys2Proof.Machine Sys2Proof.Safety Sys2Proof.Laws

/-! ### The count of a change of levels (R122) -/

/-- By the protocol of mode `m`: the step, whether the change is an error, and the error's bit of EP_STAT. -/
def protocolStep (m : Nat) (o n : Bool × Bool × Bool) : Int × Bool × Nat :=
  match m with
  | 0 => ((quadStep o.1 o.2.1 n.1 n.2.1).1, (quadStep o.1 o.2.1 n.1 n.2.1).2, 2)
  | 2 => ((hallStep (hallOf o.1 o.2.1 o.2.2) (hallOf n.1 n.2.1 n.2.2)).1,
      (hallStep (hallOf o.1 o.2.1 o.2.2) (hallOf n.1 n.2.1 n.2.2)).2, 3)
  | 3 => ((pulseStep o.1 o.2.1 n.1 n.2.1).1, (pulseStep o.1 o.2.1 n.1 n.2.1).2, 4)
  | _ => (0, false, 0)

/-- A step in the direction that EP_CFG.INV gives it. -/
def directed (s : State) (p : Nat) (d : Int) : Int := if s.bit .epCfg p 0 3 then -d else d

/-- The error of a change is marked. -/
def marked (s : State) (p : Nat) (c : Int × Bool × Nat) : State := if c.2.1 then s.setB .epStat p 0 c.2.2 else s

/-- EP_POS and its direction after a step `d`. -/
def moved (s : State) (p : Nat) (d : Int) : State :=
  if d = 0 then s else (s.wr .epPos p 0 (s.rd .epPos p 0 + wdi d)).wrB .epStat p 0 10 (decide (0 < d))

/-- The port after a change counted as `c`, before an index. -/
def counted (s : State) (p : Nat) (c : Int × Bool × Nat) : State :=
  moved (marked s p c) p (directed (marked s p c) p c.1)

theorem encCount_eq (s : State) (p : Nat) (o n : Bool × Bool × Bool) : encCount s p o n =
    let t := counted s p (protocolStep (epMode s p) o n)
    if (epMode t p = 0 || epMode t p = 3) && !o.2.2 && n.2.2 then encIndex t p n.1 n.2.1 else t := by
  rfl

theorem quadStep_error : ∀ a b a' b', (quadStep a b a' b').2 = (a != a' && b != b') := by decide

theorem quadStep_same : ∀ a b, quadStep a b a b = (0, false) := by decide

theorem pulseStep_step : ∀ a b a' b', (pulseStep a b a' b').1 = if a = false ∧ a' = true then if b then 1 else -1 else 0 := by
  decide

theorem pulseStep_error : ∀ a b a' b', (pulseStep a b a' b').2 = (!a && a' && b != b') := by decide

/-- Levels that stay step nothing. -/
theorem protocolStep_same (m : Nat) (l : Bool × Bool × Bool) : (protocolStep m l l).1 = 0 := by
  unfold protocolStep
  split
  · rw [quadStep_same]
  · rw [hallStep, if_pos rfl]
  · rw [pulseStep_step, if_neg (by simp)]
  · rfl

theorem directed_zero (s : State) (p : Nat) : directed s p 0 = 0 := by simp [directed]

theorem directed_eq_zero {s : State} {p : Nat} {d : Int} : directed s p d = 0 ↔ d = 0 := by
  unfold directed
  split
  · exact neg_eq_zero
  · exact Iff.rfl

section Counted

variable (s : State) (p : Fin 64)

theorem marked_only (c : Int × Bool × Nat) : Only beyondRegs [.epStat] s (marked s p c) :=
  .ite (only_wr_port s p _ (by decide)) (.refl ..)

theorem marked_bit (c : Int × Bool × Nat) {b : Nat} (hb : b < 32) :
    (marked s p c).bit .epStat p 0 b = (s.bit .epStat p 0 b || c.2.1 && decide (b = c.2.2)) := by
  rw [marked]
  split
  next h => rw [bit_setB_same _ _ _ _ _ hb, h, Bool.true_and, Bool.or_comm]
  next h => rw [Bool.eq_false_of_not_eq_true h, Bool.false_and, Bool.or_false]

theorem directed_marked (c : Int × Bool × Nat) (d : Int) : directed (marked s p c) p d = directed s p d := by
  rw [directed, (marked_only s p c).regs.port_bit p 3 (by decide) (by decide), directed]

theorem moved_only (d : Int) : Only beyondRegs [.epStat, .epPos] s (moved s p d) :=
  .ite (.refl ..) (((only_wr_port s p _ (by decide)).mono (by decide)).trans ((only_wr_port _ p _ (by decide)).mono (by decide)))

theorem moved_pos (d : Int) : (moved s p d).rd .epPos p 0 = s.rd .epPos p 0 + wdi d := by
  rw [moved]
  split
  next h => rw [h]; exact (BitVec.add_zero _).symm
  · rw [State.wrB, rd_wr_port _ p _ (by decide) (by decide) (by decide), rd_wr_same]

theorem moved_bit (d : Int) {b : Nat} (hb : b < 32) (h : b ≠ 10) : (moved s p d).bit .epStat p 0 b = s.bit .epStat p 0 b := by
  rw [moved]
  split
  · rfl
  · rw [bit_wrB_same _ _ _ _ _ _ hb, if_neg h, bit_wr_port s p _ b (by decide) (by decide) (by decide)]

theorem moved_direction {d : Int} (h : d ≠ 0) : (moved s p d).bit .epStat p 0 10 = decide (0 < d) := by
  rw [moved, if_neg h, bit_wrB_same _ _ _ _ _ _ (by decide), if_pos rfl]

theorem counted_only (c : Int × Bool × Nat) : Only beyondRegs [.epStat, .epPos] s (counted s p c) :=
  ((marked_only s p c).mono (by decide)).trans (moved_only ..)

theorem counted_pos (c : Int × Bool × Nat) :
    (counted s p c).rd .epPos p 0 = s.rd .epPos p 0 + wdi (directed s p c.1) := by
  rw [counted, moved_pos, directed_marked, (marked_only s p c).regs.port p (by decide) (by decide)]

theorem counted_bit (c : Int × Bool × Nat) {b : Nat} (hb : b < 32) (h : b ≠ 10) :
    (counted s p c).bit .epStat p 0 b = (s.bit .epStat p 0 b || c.2.1 && decide (b = c.2.2)) := by
  rw [counted, moved_bit _ _ _ hb h, marked_bit s p c hb]

theorem counted_direction (c : Int × Bool × Nat) (h : c.1 ≠ 0) :
    (counted s p c).bit .epStat p 0 10 = decide (0 < directed s p c.1) := by
  rw [counted, moved_direction _ _ (directed_eq_zero.not.2 h), directed_marked]

theorem counted_cfg (c : Int × Bool × Nat) : (counted s p c).rd .epCfg p 0 = s.rd .epCfg p 0 :=
  (counted_only s p c).regs.port p (by decide) (by decide)

theorem counted_mode (c : Int × Bool × Nat) : epMode (counted s p c) p = epMode s p :=
  (counted_only s p c).regs.port_rdF p 2 1 (by decide) (by decide)

end Counted

/-! ### An index (R123) -/

/-- With IDXONCE, this index is the last before the next write of EP_CFG. -/
def oneShot (s : State) (p : Nat) : State :=
  if s.bit .epCfg p 0 11 then (s.clrB .epCfg p 0 11).setB .epStat p 0 14 else s

/-- The count copied to EP_IDX. -/
def indexCopied (s : State) (p : Nat) : State := (oneShot s p).wr .epIdx p 0 ((oneShot s p).rd .epPos p 0)

/-- IDXF set, or IDXOVR where it was. -/
def indexFlagged (s : State) (p : Nat) : State := if s.bit .epStat p 0 0 then s.setB .epStat p 0 1 else s.setB .epStat p 0 0

/-- A qualifying index before its event. -/
def indexed (s : State) (p : Nat) : State :=
  (indexFlagged (indexCopied s p) p).when ((indexFlagged (indexCopied s p) p).bit .epCfg p 0 10) (·.wr .epPos p 0 0)

theorem encIndex_eq (s : State) (p : Nat) (a b : Bool) : encIndex s p a b =
    if s.rdF .epCfg p 0 9 8 = 0 || (2 ≤ s.rdF .epCfg p 0 9 8 && !(a && b)) || s.bit .epStat p 0 14 then s
    else (indexed s p).event (.index p) := rfl

section Index

variable (s : State) (p : Fin 64)

theorem oneShot_only : Only beyondRegs [.epStat, .epCfg] s (oneShot s p) :=
  .ite (((only_wr_port s p _ (by decide)).mono (by decide)).trans ((only_wr_port _ p _ (by decide)).mono (by decide))) (.refl ..)

theorem oneShot_cfg {b : Nat} (hb : b < 32) (h : b ≠ 11) : (oneShot s p).bit .epCfg p 0 b = s.bit .epCfg p 0 b := by
  rw [oneShot]
  split
  · rw [State.setB, bit_wrB_port _ p _ _ _ (by decide) (by decide) (by decide), bit_clrB_same _ _ _ _ _ hb, decide_eq_false h,
      Bool.not_false, Bool.true_and]
  · rfl

theorem oneShot_stat {b : Nat} (hb : b < 32) (h : b ≠ 14) : (oneShot s p).bit .epStat p 0 b = s.bit .epStat p 0 b := by
  rw [oneShot]
  split
  · rw [bit_setB_same _ _ _ _ _ hb, decide_eq_false h, Bool.false_or, State.clrB,
      bit_wrB_port _ p _ _ _ (by decide) (by decide) (by decide)]
  · rfl

theorem indexCopied_only : Only beyondRegs [.epIdx] (oneShot s p) (indexCopied s p) := only_wr_port _ p _ (by decide)

theorem indexFlagged_only : Only beyondRegs [.epStat] s (indexFlagged s p) :=
  .ite (only_wr_port s p _ (by decide)) (only_wr_port s p _ (by decide))

theorem indexFlagged_idxf : (indexFlagged s p).bit .epStat p 0 0 = true := by
  rw [indexFlagged]
  split
  next h => rw [bit_setB_same _ _ _ _ _ (by decide), h, Bool.or_true]
  · rw [bit_setB_same _ _ _ _ _ (by decide)]; rfl

theorem indexFlagged_idxovr : (indexFlagged s p).bit .epStat p 0 1 = (s.bit .epStat p 0 1 || s.bit .epStat p 0 0) := by
  rw [indexFlagged]
  split
  next h => rw [bit_setB_same _ _ _ _ _ (by decide), h, Bool.or_true]; rfl
  next h => rw [bit_setB_same _ _ _ _ _ (by decide), Bool.eq_false_of_not_eq_true h, Bool.or_false]; rfl

theorem indexed_only : Only beyondRegs [.epPos] (indexFlagged (indexCopied s p) p) (indexed s p) :=
  .when _ (only_wr_port _ p _ (by decide))

theorem indexed_cfg {b : Nat} (hb : b < 32) (h : b ≠ 11) : (indexed s p).bit .epCfg p 0 b = s.bit .epCfg p 0 b := by
  rw [(indexed_only s p).regs.port_bit p b (by decide) (by decide),
    (indexFlagged_only _ p).regs.port_bit p b (by decide) (by decide),
    (indexCopied_only s p).regs.port_bit p b (by decide) (by decide), oneShot_cfg s p hb h]

theorem indexed_pos : (indexed s p).rd .epPos p 0 = if s.bit .epCfg p 0 10 then 0 else s.rd .epPos p 0 := by
  have hrst : (indexFlagged (indexCopied s p) p).bit .epCfg p 0 10 = s.bit .epCfg p 0 10 := by
    rw [(indexFlagged_only _ p).regs.port_bit p 10 (by decide) (by decide),
      (indexCopied_only s p).regs.port_bit p 10 (by decide) (by decide), oneShot_cfg s p (by decide) (by decide)]
  rw [indexed, hrst, State.when]
  split
  · exact rd_wr_same ..
  · rw [(indexFlagged_only _ p).regs.port p (by decide) (by decide), (indexCopied_only s p).regs.port p (by decide) (by decide),
      (oneShot_only s p).regs.port p (by decide) (by decide)]

theorem indexed_idx : (indexed s p).rd .epIdx p 0 = s.rd .epPos p 0 := by
  rw [(indexed_only s p).regs.port p (by decide) (by decide), (indexFlagged_only _ p).regs.port p (by decide) (by decide),
    indexCopied, rd_wr_same, (oneShot_only s p).regs.port p (by decide) (by decide)]

theorem indexed_idxf : (indexed s p).bit .epStat p 0 0 = true := by
  rw [(indexed_only s p).regs.port_bit p 0 (by decide) (by decide), indexFlagged_idxf]

theorem indexed_idxovr : (indexed s p).bit .epStat p 0 1 = (s.bit .epStat p 0 1 || s.bit .epStat p 0 0) := by
  rw [(indexed_only s p).regs.port_bit p 1 (by decide) (by decide), indexFlagged_idxovr,
    (indexCopied_only s p).regs.port_bit p 1 (by decide) (by decide),
    (indexCopied_only s p).regs.port_bit p 0 (by decide) (by decide), oneShot_stat s p (by decide) (by decide),
    oneShot_stat s p (by decide) (by decide)]

end Index

/-! ### What counting leaves -/

/-- The state but the registers, the capture channels and the converters. -/
def beyondCount (s : State) : State := { s with regs := [], chans := [], ads := [] }

/-- The registers that counting changes. -/
def countRegs : List Reg := [.epCfg, .epPos, .epIdx, .epStat]

theorem setChan_count (s : State) (i j : Nat) (x : ChanS) : Only beyondCount [] s (s.setChan i j x) := .of_regs_eq rfl rfl

theorem setAd_count (s : State) (k : Nat) (x : AdS) : Only beyondCount [] s (s.setAd k x) := .of_regs_eq rfl rfl

theorem event_count (s : State) (e : Event) : Only beyondCount [] s (s.event e) := by
  have hcap : Only beyondCount [] s (capNote s e) := .forN s fun t i _ => .ite (setChan_count ..) (.refl ..)
  have had (t : State) : Only beyondCount [] t (adNote t e) := .forN t fun u k _ => .ite (setAd_count ..) (.refl ..)
  exact .ite (hcap.trans (had _)) (.refl ..)

theorem Only.count {rs : List Reg} {s t : State} (h : Only beyondRegs rs s t) (hs : rs ⊆ countRegs) :
    Only beyondCount countRegs s t := h.coarsen (fun _ => rfl) hs

/-- Counting changes the port's registers and what notes an index; of EP_CFG it changes IDXONCE alone. -/
structure CountsOnly (p : Fin 64) (s t : State) : Prop where
  only : Only beyondCount countRegs s t
  cfg : ∀ b < 32, b ≠ 11 → t.bit .epCfg p 0 b = s.bit .epCfg p 0 b

theorem indexed_regs (s : State) (p : Fin 64) : Only beyondRegs countRegs s (indexed s p) :=
  ((((oneShot_only s p).mono (by decide)).trans ((indexCopied_only s p).mono (by decide))).trans
    ((indexFlagged_only _ p).mono (by decide))).trans ((indexed_only s p).mono (by decide))

theorem encIndex_countsOnly (s : State) (p : Fin 64) (a b : Bool) : CountsOnly p s (encIndex s p a b) := by
  rw [encIndex_eq]
  split
  · exact ⟨.refl .., fun _ _ _ => rfl⟩
  · refine ⟨((indexed_regs s p).count (by decide)).trans ((event_count ..).mono (by decide)), fun c hc h => ?_⟩
    rw [(event_count ..).regs.port_bit p c (by decide) (by decide), indexed_cfg s p hc h]

theorem encCount_countsOnly (s : State) (p : Fin 64) (o n : Bool × Bool × Bool) : CountsOnly p s (encCount s p o n) := by
  have hc : CountsOnly p s (counted s p (protocolStep (epMode s p) o n)) :=
    ⟨(counted_only ..).count (by decide), fun b _ _ => by rw [State.bit, counted_cfg, State.bit]⟩
  rw [encCount_eq]
  dsimp only
  split
  · have hi := encIndex_countsOnly (counted s p (protocolStep (epMode s p) o n)) p n.1 n.2.1
    exact ⟨hc.only.trans hi.only, fun b hb h => (hi.cfg b hb h).trans (hc.cfg b hb h)⟩
  · exact hc

/-- A change without an index. -/
theorem encCount_counted (s : State) (p : Fin 64) {o n : Bool × Bool × Bool}
    (h : (epMode s p ≠ 0 ∧ epMode s p ≠ 3) ∨ (o.2.2 = false → n.2.2 = false)) :
    encCount s p o n = counted s p (protocolStep (epMode s p) o n) := by
  rw [encCount_eq]
  dsimp only
  rw [if_neg]
  rintro hi
  simp only [counted_mode, Bool.and_eq_true, Bool.or_eq_true, decide_eq_true_eq, Bool.not_eq_true'] at hi
  obtain ⟨⟨hm, hz⟩, hz'⟩ := hi
  rcases h with h | h
  · omega
  · rw [h hz] at hz'
    exact Bool.false_ne_true hz'

/-- A rising edge of Z that qualifies at once (R123, IDXM 1). -/
theorem encCount_indexed (s : State) (p : Fin 64) {o n : Bool × Bool × Bool} (hm : epMode s p = 0) (hz : o.2.2 = false)
    (hz' : n.2.2 = true) (hi : s.rdF .epCfg p 0 9 8 = 1) (hh : s.bit .epStat p 0 14 = false) :
    encCount s p o n = (indexed (counted s p (protocolStep 0 o n)) p).event (.index p) := by
  have hidxm : (counted s p (protocolStep 0 o n)).rdF .epCfg p 0 9 8 = 1 := by rw [State.rdF, counted_cfg, ← hi, State.rdF]
  have hhold : (counted s p (protocolStep 0 o n)).bit .epStat p 0 14 = false := by
    rw [counted_bit _ _ _ (by decide) (by decide), hh]
    simp [protocolStep]
  rw [encCount_eq, hm]
  dsimp only
  rw [if_pos (by simp [counted_mode, hm, hz, hz']), encIndex_eq, if_neg (by simp [hidxm, hhold])]

end Sys2Proof.Proofs
end

section
namespace Sys2Proof.Proofs
open Sys2Proof Sys2Proof.Machine Sys2Proof.Safety Sys2Proof.Laws

/-! ### Filtered levels that come through the input delay (R120–R122) -/

/-- The changes between the levels of `x` and of `y`, at tick `t`, with the levels before. -/
def changes (x y : EncS) (t : Nat) : List (Nat × Nat × Bool) :=
  (List.range 3).filterMap fun rx => if filtOf x rx = filtOf y rx then none else some (t, rx, filtOf x rx)

theorem changes_tick {x y : EncS} {t : Nat} {e : Nat × Nat × Bool} (h : e ∈ changes x y t) : e.1 = t := by
  obtain ⟨rx, -, hrx⟩ := List.mem_filterMap.1 h
  split at hrx
  · cases hrx
  · cases hrx; rfl

/-- Port `p` at the levels of `y`, with the changes kept. -/
def levelsSet (s : State) (p t : Nat) (y : EncS) : State :=
  s.setEnc p { y with hist := (s.enc p).hist.filter (fun e => decide (s.tb.ticks ≤ e.1 + 400)) ++ changes (s.enc p) y t }

/-- The three filtered levels. -/
def levels (x : EncS) : Bool × Bool × Bool := (x.a, x.b, x.z)

theorem setLevels_eq (s : State) (p t : Nat) (y : EncS) : setLevels s p t y =
    if epEn s p then encCount (levelsSet s p t y) p (levels (s.enc p)) (levels y) else levelsSet s p t y := rfl

/-- The state but what an encoder port changes. -/
def beyondPorts (s : State) : State := { beyondCount s with encs := [] }

/-- What the ripening of port `p`'s levels leaves: all but what counts and the port's own entry. -/
structure LevelsOnly (p : Fin 64) (s t : State) : Prop where
  only : Only beyondPorts countRegs s t
  cfg : ∀ b < 32, b ≠ 11 → t.bit .epCfg p 0 b = s.bit .epCfg p 0 b
  other : ∀ q, q ≠ p.val → t.enc q = s.enc q

namespace LevelsOnly

variable {p : Fin 64} {s t u : State}

theorem refl (s : State) : LevelsOnly p s s := ⟨.refl .., fun _ _ _ => rfl, fun _ _ => rfl⟩

theorem trans (h : LevelsOnly p s t) (g : LevelsOnly p t u) : LevelsOnly p s u :=
  ⟨h.only.trans g.only, fun b hb hne => (g.cfg b hb hne).trans (h.cfg b hb hne),
    fun q hq => (g.other q hq).trans (h.other q hq)⟩

theorem tb (h : LevelsOnly p s t) : t.tb = s.tb := by have g := congrArg State.tb h.only.rest; exact g

theorem timeOk (h : LevelsOnly p s t) : t.timeOk = s.timeOk := by
  rw [State.timeOk, h.only.bit 0 (by decide), h.only.bit 1 (by decide), State.timeOk]

theorem cfg_field (h : LevelsOnly p s t) {hi lo : Nat} (hr : hi < 11) : t.rdF .epCfg p 0 hi lo = s.rdF .epCfg p 0 hi lo :=
  rdF_congr fun b _ hb => h.cfg b (by omega) (by omega)

theorem epMode (h : LevelsOnly p s t) : epMode t p = epMode s p := h.cfg_field (by decide)

theorem epEn (h : LevelsOnly p s t) : epEn t p = epEn s p := h.cfg 0 (by decide) (by decide)

end LevelsOnly

section Levels

variable (s : State) (p : Fin 64)

theorem setEnc_levelsOnly (x : EncS) : LevelsOnly p s (s.setEnc p x) :=
  ⟨.of_regs_eq rfl rfl, fun _ _ _ => rfl, fun q hq => by rw [enc_setEnc, if_neg hq]⟩

theorem CountsOnly.enc {s t : State} (h : CountsOnly p s t) (q : Nat) : t.enc q = s.enc q := by
  have hs : t.encs = s.encs := by have g := congrArg State.encs h.only.rest; exact g
  rw [State.enc, hs, State.enc]

theorem CountsOnly.levelsOnly {s t : State} (h : CountsOnly p s t) : LevelsOnly p s t :=
  ⟨h.only.coarsen (fun _ => rfl) (List.Subset.refl _), h.cfg, fun q _ => h.enc p q⟩

theorem setLevels_levelsOnly (t : Nat) (y : EncS) : LevelsOnly p s (setLevels s p t y) := by
  have hset : LevelsOnly p s (levelsSet s p t y) := setEnc_levelsOnly ..
  rw [setLevels_eq]
  split
  · exact hset.trans (encCount_countsOnly ..).levelsOnly
  · exact hset

theorem setLevels_enc (t : Nat) (y : EncS) : (setLevels s p t y).enc p =
    { y with hist := (s.enc p).hist.filter (fun e => decide (s.tb.ticks ≤ e.1 + 400)) ++ changes (s.enc p) y t } := by
  rw [setLevels_eq]
  split
  · rw [(encCount_countsOnly ..).enc]
    exact enc_setEnc_same ..
  · exact enc_setEnc_same ..

/-- A disabled port, or one in SSI mode, counts nothing. -/
theorem setLevels_pos_idle (t : Nat) (y : EncS) (h : epEn s p = false ∨ epMode s p = 1) :
    (setLevels s p t y).rd .epPos p 0 = s.rd .epPos p 0 := by
  rw [setLevels_eq]
  split
  next hen =>
    have hm : epMode (levelsSet s p t y) p = 1 := h.resolve_left (by simp [hen])
    rw [encCount_counted _ p (.inl (by omega)), counted_pos, hm]
    show _ + wdi (directed _ p 0) = _
    rw [directed_zero]
    exact BitVec.add_zero _
  · rfl

/-- Levels that stay count nothing. -/
theorem setLevels_pos_same (t : Nat) (y : EncS) (h : levels y = levels (s.enc p)) :
    (setLevels s p t y).rd .epPos p 0 = s.rd .epPos p 0 := by
  rw [setLevels_eq, h]
  split
  · rw [encCount_counted _ p (.inr id), counted_pos, protocolStep_same, directed_zero]
    exact BitVec.add_zero _
  · rfl

/-- A port that runs counts a change of levels. -/
theorem setLevels_counts (t : Nat) (y : EncS) (hen : epEn s p = true) :
    setLevels s p t y = encCount (levelsSet s p t y) p (levels (s.enc p)) (levels y) := by rw [setLevels_eq, if_pos hen]

/-! ### Levels of one tick -/

/-- Port `p` with the levels that `g` brings, the rest of the settled levels left. -/
def taken (x : EncS) (g : List (Nat × Nat × Bool)) : EncS :=
  { x with edges := x.edges.drop g.length, a := levelAfter g 0 x.a, b := levelAfter g 1 x.b, z := levelAfter g 2 x.z }

theorem takeEdges_eq (s : State) (p : Nat) (g : List (Nat × Nat × Bool)) :
    takeEdges s p g = setLevels s p ((g.head?.map (·.1)).getD 0) (taken (s.enc p) g) := by
  rw [takeEdges, foldl_setFilt]
  rfl

theorem takeEdges_levelsOnly (g : List (Nat × Nat × Bool)) : LevelsOnly p s (takeEdges s p g) := by
  rw [takeEdges_eq]
  exact setLevels_levelsOnly ..

theorem ripen_levelsOnly : LevelsOnly p s (ripen s p) := by
  rw [ripen]
  split
  · exact .refl s
  · exact foldl_keeps (LevelsOnly p s) _ (fun u g h => h.trans (takeEdges_levelsOnly u p g)) _ s (.refl s)

theorem takeEdges_openRx (g : List (Nat × Nat × Bool)) : ((takeEdges s p g).enc p).openRx = (s.enc p).openRx := by
  rw [takeEdges_eq, setLevels_enc]
  rfl

theorem ripen_openRx : ((ripen s p).enc p).openRx = (s.enc p).openRx := by
  rw [ripen]
  split
  · rfl
  · exact foldl_keeps (fun u => (u.enc p).openRx = (s.enc p).openRx) _ (fun u g h => (takeEdges_openRx u p g).trans h) _ s rfl

end Levels

/-- While no tick runs, or while every settled level is held back, no level ripens. -/
theorem ripen_none {s : State} {p : Nat} (h : s.timeOk = false ∨ ∀ e ∈ (s.enc p).edges, s.tb.ticks < e.1) : ripen s p = s := by
  rw [ripen]
  rcases h with h | h
  · simp [h]
  · have hnone : (s.enc p).edges.filter (fun e => decide (e.1 ≤ s.tb.ticks)) = [] :=
      List.filter_eq_nil_iff.2 fun e he => by simpa using h e he
    rw [hnone, List.splitBy_nil, List.foldl_nil, ite_self]

/-- The levels of one tick are one group. -/
theorem splitBy_tick {τ : Nat} {g m : List (Nat × Nat × Bool)} (hg : g ≠ []) (hτ : ∀ e ∈ g, e.1 = τ)
    (hm : ∀ e ∈ m, τ < e.1) :
    (g ++ m).splitBy (·.1 == ·.1) = g :: m.splitBy (·.1 == ·.1) := by
  have hchain : g.IsChain fun e f => (e.1 == f.1) = true :=
    (List.pairwise_of_forall_mem_list fun e he f hf => by simp [hτ e he, hτ f hf]).isChain
  rw [List.splitBy_append, List.splitBy_of_isChain hg hchain, List.singleton_append]
  intro e he f hf
  have h1 := hτ e (List.mem_of_mem_getLast? he)
  have h2 := hm f (List.mem_of_mem_head? hf)
  simpa using by omega

end Sys2Proof.Proofs
end

section
namespace Sys2Proof.Proofs
open Sys2Proof Sys2Proof.Machine Sys2Proof.Safety Sys2Proof.Laws

/-! ### What the port does with the first levels that ripen (R122, R123) -/

/-- The settled levels of port `p` begin with `g`, all of tick `τ`, which is due; `rest` is later. -/
structure FirstDue (s : State) (p τ : Nat) (g rest : List (Nat × Nat × Bool)) : Prop where
  time : s.timeOk = true
  due : τ ≤ s.tb.ticks
  nonempty : g ≠ []
  edges : (s.enc p).edges = g ++ rest
  tick : ∀ e ∈ g, e.1 = τ
  later : ∀ e ∈ rest, τ < e.1

namespace FirstDue

variable {s : State} {p : Fin 64} {τ : Nat} {g rest : List (Nat × Nat × Bool)} (h : FirstDue s p τ g rest)
include h

theorem takeEdges_eq : takeEdges s p g = setLevels s p τ (taken (s.enc p) g) := by
  have hhead : (g.head?.map (·.1)).getD 0 = τ := by
    obtain ⟨e, l, rfl⟩ := List.exists_cons_of_ne_nil h.nonempty
    exact h.tick e (by simp)
  rw [Proofs.takeEdges_eq, hhead]

theorem taken_edges : (taken (s.enc p) g).edges = rest := by
  show (s.enc p).edges.drop g.length = rest
  rw [h.edges, List.drop_left]

theorem enc_edges : ((takeEdges s p g).enc p).edges = rest := by
  rw [h.takeEdges_eq, setLevels_enc]
  exact h.taken_edges

theorem enc_eq : (takeEdges s p g).enc p = { taken (s.enc p) g with edges := rest, hist := ((takeEdges s p g).enc p).hist } := by
  rw [h.takeEdges_eq, setLevels_enc, ← h.taken_edges]

theorem hist_tick {e : Nat × Nat × Bool} (he : e ∈ ((takeEdges s p g).enc p).hist) : e ∈ (s.enc p).hist ∨ e.1 = τ := by
  rw [h.takeEdges_eq, setLevels_enc] at he
  rcases List.mem_append.1 he with hold | hnew
  · exact .inl (List.mem_of_mem_filter hold)
  · exact .inr (changes_tick hnew)

/-- The later levels ripen after the first (R120). -/
theorem ripen_eq : ripen s p = ripen (takeEdges s p g) p := by
  have hl := takeEdges_levelsOnly s p g
  have hall : g.filter (fun e => decide (e.1 ≤ s.tb.ticks)) = g :=
    List.filter_eq_self.2 fun e he => by simpa [h.tick e he] using h.due
  have hlater : ∀ e ∈ rest.filter (fun e => decide (e.1 ≤ s.tb.ticks)), τ < e.1 := fun e he =>
    h.later e (List.mem_of_mem_filter he)
  rw [ripen, ripen, hl.timeOk, hl.tb, h.enc_edges, h.edges, List.filter_append, hall, splitBy_tick h.nonempty h.tick hlater,
    List.foldl_cons]
  simp [h.time]

end FirstDue

section Counting

variable (s : State) (p : Fin 64) (t : Nat) (y : EncS)

/-- A running port's count of a change that is no index. -/
theorem setLevels_counted (hen : epEn s p = true)
    (h : (epMode s p ≠ 0 ∧ epMode s p ≠ 3) ∨ ((s.enc p).z = false → y.z = false)) :
    setLevels s p t y = counted (levelsSet s p t y) p (protocolStep (epMode s p) (levels (s.enc p)) (levels y)) := by
  rw [setLevels_counts s p t y hen]
  exact encCount_counted (levelsSet s p t y) p h

theorem setLevels_quadrature (hen : epEn s p = true) (hm : epMode s p = 0) (hz : (s.enc p).z = y.z) :
    (setLevels s p t y).rd .epPos p 0 =
      s.rd .epPos p 0 + wdi (directed s p (quadStep (s.enc p).a (s.enc p).b y.a y.b).1) ∧
    (setLevels s p t y).bit .epStat p 0 2 = (s.bit .epStat p 0 2 || (s.enc p).a != y.a && (s.enc p).b != y.b) ∧
    ((quadStep (s.enc p).a (s.enc p).b y.a y.b).1 ≠ 0 → (setLevels s p t y).bit .epStat p 0 10 =
      decide (0 < directed s p (quadStep (s.enc p).a (s.enc p).b y.a y.b).1)) := by
  rw [setLevels_counted s p t y hen (.inr fun hx => hz ▸ hx), hm]
  refine ⟨counted_pos .., ?_, fun hd => counted_direction (levelsSet s p t y) p (protocolStep 0 _ _) hd⟩
  rw [counted_bit _ p _ (by decide) (by decide), ← quadStep_error]
  exact congrArg (s.bit .epStat p 0 2 || ·) (Bool.and_true _)

theorem setLevels_hall (hen : epEn s p = true) (hm : epMode s p = 2) :
    let d := hallStep (hallOf (s.enc p).a (s.enc p).b (s.enc p).z) (hallOf y.a y.b y.z)
    (setLevels s p t y).rd .epPos p 0 = s.rd .epPos p 0 + wdi (directed s p d.1) ∧
    (setLevels s p t y).bit .epStat p 0 3 = (s.bit .epStat p 0 3 || d.2) := by
  rw [setLevels_counted s p t y hen (.inl (by omega)), hm]
  refine ⟨counted_pos .., ?_⟩
  rw [counted_bit _ p _ (by decide) (by decide)]
  exact congrArg (s.bit .epStat p 0 3 || ·) (Bool.and_true _)

theorem setLevels_pulse (hen : epEn s p = true) (hm : epMode s p = 3) (hz : (s.enc p).z = y.z) :
    (setLevels s p t y).rd .epPos p 0 = s.rd .epPos p 0 +
      wdi (directed s p (if (s.enc p).a = false ∧ y.a = true then if (s.enc p).b then 1 else -1 else 0)) ∧
    (setLevels s p t y).bit .epStat p 0 4 = (s.bit .epStat p 0 4 || !(s.enc p).a && y.a && (s.enc p).b != y.b) := by
  rw [setLevels_counted s p t y hen (.inr fun hx => hz ▸ hx), hm, ← pulseStep_step, ← pulseStep_error]
  refine ⟨counted_pos .., ?_⟩
  rw [counted_bit _ p _ (by decide) (by decide)]
  exact congrArg (s.bit .epStat p 0 4 || ·) (Bool.and_true _)

/-- The index of port `p` is noted by the channels that select it (R53, R123). -/
theorem indexEvent_due {s u : State} {rs : List Reg} (h : Only beyondRegs rs s u) (hr : Reg.tbStat ∉ rs) (hc : Reg.gtCcfg ∉ rs)
    (ht : s.timeOk = true) (m : Fin 16) (c : Fin 4) : ((u.event (.index p)).chan m c).due =
      (s.chan m c).due ++ (if capSelects s m c (.index p) then [s.now] else []) := by
  have htime : u.timeOk = true := by rw [← ht, State.timeOk, h.bit 0 hr, h.bit 1 hr, State.timeOk]
  have hchans : u.chans = s.chans := by have g := congrArg State.chans h.rest; exact g
  have hnow : u.now = s.now := by have g := congrArg State.now h.rest; exact g
  have hsel : capSelects u m c (.index p) = capSelects s m c (.index p) := by
    have hf (hi lo : Nat) : u.rdF .gtCcfg m c hi lo = s.rdF .gtCcfg m c hi lo := h.regs.rdF hi lo hc m.isLt c.isLt
    simp only [capSelects, hf]
  rw [event_due u m c _ htime, State.chan, hchans, hsel, ← State.chan]
  simp only [capTime, hnow]

theorem setLevels_index (hen : epEn s p = true) (hm : epMode s p = 0) (hz : (s.enc p).z = false) (hz' : y.z = true)
    (hi : s.rdF .epCfg p 0 9 8 = 1) (hh : s.bit .epStat p 0 14 = false) : setLevels s p t y =
      (indexed (counted (levelsSet s p t y) p (protocolStep 0 (levels (s.enc p)) (levels y))) p).event (.index p) := by
  rw [setLevels_counts s p t y hen]
  exact encCount_indexed (levelsSet s p t y) p hm hz hz' hi hh

end Counting

section Indexing

variable (s : State) (p : Fin 64) (c : Int × Bool × Nat)

/-- The port after a count and its index. -/
theorem counted_indexed_event (h0 : c.2.2 ≠ 0) (h1 : c.2.2 ≠ 1) :
    let pos := s.rd .epPos p 0 + wdi (directed s p c.1)
    let t := (indexed (counted s p c) p).event (.index p)
    t.rd .epIdx p 0 = pos ∧ t.rd .epPos p 0 = (if s.bit .epCfg p 0 10 then 0 else pos) ∧ t.bit .epStat p 0 0 = true ∧
      t.bit .epStat p 0 1 = (s.bit .epStat p 0 1 || s.bit .epStat p 0 0) := by
  have hev := (event_count (indexed (counted s p c) p) (.index p)).regs
  have hcfg : (counted s p c).bit .epCfg p 0 10 = s.bit .epCfg p 0 10 := by rw [State.bit, counted_cfg, State.bit]
  intro pos t
  refine ⟨?_, ?_, ?_, ?_⟩
  · rw [hev.port p (by decide) (by decide), indexed_idx, counted_pos]
  · rw [hev.port p (by decide) (by decide), indexed_pos, counted_pos, hcfg]
  · rw [hev.port_bit p 0 (by decide) (by decide), indexed_idxf]
  · rw [hev.port_bit p 1 (by decide) (by decide), indexed_idxovr, counted_bit s p c (by decide) (by decide),
      counted_bit s p c (by decide) (by decide), decide_eq_false (Ne.symm h0), decide_eq_false (Ne.symm h1), Bool.and_false,
      Bool.or_false, Bool.or_false]

end Indexing

end Sys2Proof.Proofs
end

section
namespace Sys2Proof.Proofs
open Sys2Proof Sys2Proof.Machine Sys2Proof.Safety Sys2Proof.Laws

/-! ### Edges at the receivers (R120, R122) -/

theorem exec_encFilteredEdge_off {p : Fin 64} {a b z : Bool} {s : State} (h : encOn s = false) :
    exec (.encFilteredEdge p a b z) s = .next s := if_pos (by simp [h])

theorem exec_encFilteredEdge_on {p : Fin 64} {a b z : Bool} {s : State} (h : encOn s = true) :
    exec (.encFilteredEdge p a b z) s = .next (showHall (ripen (s.setEnc p (sampleRx s p a b z)) p) p) := if_neg (by simp [h])

theorem exists_lt_three {P : Nat → Prop} : (∃ rx < 3, P rx) ↔ P 0 ∨ P 1 ∨ P 2 := by
  constructor
  · rintro ⟨rx, hrx, h⟩
    interval_cases rx
    · exact .inl h
    · exact .inr (.inl h)
    · exact .inr (.inr h)
  · rintro (h | h | h)
    · exact ⟨0, by decide, h⟩
    · exact ⟨1, by decide, h⟩
    · exact ⟨2, by decide, h⟩

section Shown

variable {s u : State} {p : Fin 64} (h : LevelsOnly p s u)
include h

theorem showHall_after_hall : (showHall u p).rdF .epStat p 0 13 11 =
    if epMode s p = 2 then hallOf ((showHall u p).enc p).a ((showHall u p).enc p).b ((showHall u p).enc p).z else 0 := by
  rw [showHall_hall, showHall_enc, h.epMode]

theorem showHall_after_herr (hen : epEn s p = true) (ht : s.timeOk = true) (hm : epMode s p = 2)
    (hh : hallOf ((showHall u p).enc p).a ((showHall u p).enc p).b ((showHall u p).enc p).z = 0 ∨
      hallOf ((showHall u p).enc p).a ((showHall u p).enc p).b ((showHall u p).enc p).z = 7) :
    (showHall u p).bit .epStat p 0 3 = true := by
  rw [showHall_enc] at hh
  exact showHall_herr u p (by rw [h.epEn, hen]) (by rw [h.timeOk, ht]) (by rw [h.epMode, hm]) hh

end Shown

/-! ### A receiver's fault and its end (R121) -/

theorem getLsbD_oneHot : ∀ rx : Fin 4, ∀ r < 4, ((1 : BitVec 4) <<< (rx : Nat)).getLsbD r = decide (r = rx) := by decide

theorem getLsbD_set (x : BitVec 4) (rx : Fin 4) {r : Nat} (hr : r < 4) :
    (x ||| ((1 : BitVec 4) <<< (rx : Nat))).getLsbD r = (x.getLsbD r || decide (r = rx)) := by
  rw [BitVec.getLsbD_or, getLsbD_oneHot rx r hr]

theorem getLsbD_clear (x : BitVec 4) (rx : Fin 4) {r : Nat} (hr : r < 4) :
    (x &&& ~~~((1 : BitVec 4) <<< (rx : Nat))).getLsbD r = (x.getLsbD r && !decide (r = rx)) := by
  rw [BitVec.getLsbD_and, BitVec.getLsbD_not, getLsbD_oneHot rx r hr, decide_eq_true hr, Bool.true_and]

/-- Port `x` with receiver `rx` held at its level from before the fault. -/
def held (s : State) (x : EncS) (rx : Nat) : EncS :=
  { setFilt x rx (levelBefore s x rx) with
    openRx := x.openRx ||| ((1 : BitVec 4) <<< rx), edges := x.edges.filter (·.2.1 != rx),
    dFrom := if rx = 3 then s.tb.ticks - 400 else x.dFrom }

theorem holdRx_open {s : State} {p rx : Nat} (h : (s.enc p).openRx.getLsbD rx = true) : holdRx s p rx = s := if_pos h

theorem holdRx_closed {s : State} {p rx : Nat} (h : (s.enc p).openRx.getLsbD rx = false) : holdRx s p rx =
    setLevels (ripen s p) p (ripen s p).tb.ticks (held (ripen s p) ((ripen s p).enc p) rx) := if_neg (by simp [h])

section Fault

variable (s : State) (p : Fin 64) (rx : Fin 4)

theorem holdRx_openRx {r : Nat} (hr : r < 4) :
    ((holdRx s p rx).enc p).openRx.getLsbD r = ((s.enc p).openRx.getLsbD r || decide (r = rx)) := by
  cases h : (s.enc p).openRx.getLsbD rx with
  | true =>
    rw [holdRx_open h]
    by_cases hrx : r = rx
    · rw [hrx, h, Bool.true_or]
    · simp [hrx]
  | false =>
    rw [holdRx_closed h, setLevels_enc, ← ripen_openRx s p]
    exact getLsbD_set _ rx hr

/-- The port with a receiver that has been noted as open. -/
def faulted (s : State) (p rx : Nat) : State := (holdRx s p rx).setB .epStat p 0 5

theorem exec_encReceiverOpen_off (fault : Bool) (h : encOn s = false) : exec (.encReceiverOpen p rx fault) s = .next s :=
  if_pos (by simp [h])

theorem exec_encReceiverOpen_faulted (hon : encOn s = true) (hen : epEn s p = true) (hu : rxUsed s p rx = true)
    (ht : s.timeOk = true) : exec (.encReceiverOpen p rx true) s = .next (showHall (faulted s p rx) p) := by
  show execEncReceiverOpen p rx s true = _
  rw [execEncReceiverOpen, if_neg (by simp [hon]), if_neg (by simp), if_pos (by simp [hen, hu, ht])]
  rfl

theorem exec_encReceiverOpen_ignored (hon : encOn s = true) (h : epEn s p = false ∨ rxUsed s p rx = false ∨ s.timeOk = false) :
    exec (.encReceiverOpen p rx true) s = .next s := by
  show execEncReceiverOpen p rx s true = _
  rw [execEncReceiverOpen, if_neg (by simp [hon]), if_neg (by simp), if_neg]
  rcases h with h | h | h <;> simp [h]

theorem exec_encReceiverOpen_cleared (hon : encOn s = true) :
    exec (.encReceiverOpen p rx false) s = .next (closeRx s p rx) := by
  show execEncReceiverOpen p rx s false = _
  rw [execEncReceiverOpen, if_neg (by simp [hon])]
  exact if_pos rfl

theorem faulted_only : Only beyondRegs [.epStat] (holdRx s p rx) (faulted s p rx) := only_wr_port _ p _ (by decide)

theorem faulted_enc (q : Nat) : (showHall (faulted s p rx) p).enc q = (holdRx s p rx).enc q := by
  rw [showHall_enc, (faulted_only s p rx).enc]

theorem faulted_pos : (showHall (faulted s p rx) p).rd .epPos p 0 = (holdRx s p rx).rd .epPos p 0 := by
  rw [showHall_rd _ p (by decide) (by decide), (faulted_only s p rx).regs.port p (by decide) (by decide)]

theorem faulted_open : (showHall (faulted s p rx) p).bit .epStat p 0 5 = true := by
  rw [showHall_bit _ p (by decide) (by decide) (by decide), faulted, bit_setB_same _ _ _ _ _ (by decide)]
  rfl

/-- A level `r` of the held port. -/
def keptLevel (s : State) (x : EncS) (rx r : Nat) : Bool := if r = rx then levelBefore s x r else filtOf x r

theorem levels_held (x : EncS) : levels (held s x rx) = (keptLevel s x rx 0, keptLevel s x rx 1, keptLevel s x rx 2) := by
  fin_cases rx <;> rfl

theorem holdRx_enc (hc : (s.enc p).openRx.getLsbD rx = false) (he : ∀ e ∈ (s.enc p).edges, s.tb.ticks < e.1) :
    (holdRx s p rx).enc p = { held s (s.enc p) rx with hist := ((holdRx s p rx).enc p).hist } := by
  rw [holdRx_closed hc, ripen_none (.inr he), setLevels_enc]

theorem holdRx_pos (hc : (s.enc p).openRx.getLsbD rx = false) (he : ∀ e ∈ (s.enc p).edges, s.tb.ticks < e.1)
    (hk : ∀ r < 3, keptLevel s (s.enc p) rx r = filtOf (s.enc p) r) : (holdRx s p rx).rd .epPos p 0 = s.rd .epPos p 0 := by
  rw [holdRx_closed hc, ripen_none (.inr he)]
  refine setLevels_pos_same s p _ _ ?_
  rw [levels_held, hk 0 (by decide), hk 1 (by decide), hk 2 (by decide)]
  rfl

/-- Port `x` once the fault of receiver `rx` has cleared at tick `t`. -/
def cleared (x : EncS) (rx t : Nat) : EncS :=
  { x with
    openRx := x.openRx &&& ~~~((1 : BitVec 4) <<< rx),
    since := (if rx = 0 then t else x.since.1, if rx = 1 then t else x.since.2.1, if rx = 2 then t else x.since.2.2),
    dSince := if rx = 3 then t else x.dSince, dPast := if rx = 3 then x.dPast ++ [(x.dFrom, t)] else x.dPast }

theorem closeRx_closed {s : State} {p rx : Nat} (h : (s.enc p).openRx.getLsbD rx = false) : closeRx s p rx = s :=
  if_pos (by simp [h])

theorem closeRx_open {s : State} {p rx : Nat} (h : (s.enc p).openRx.getLsbD rx = true) :
    closeRx s p rx = s.setEnc p (cleared (s.enc p) rx s.tb.ticks) := if_neg (by simp [h])

theorem closeRx_openRx {r : Nat} (hr : r < 4) :
    ((closeRx s p rx).enc p).openRx.getLsbD r = ((s.enc p).openRx.getLsbD r && !decide (r = rx)) := by
  cases h : (s.enc p).openRx.getLsbD rx with
  | true =>
    rw [closeRx_open h, enc_setEnc_same]
    exact getLsbD_clear _ rx hr
  | false =>
    rw [closeRx_closed h]
    by_cases hrx : r = rx
    · rw [hrx, h, Bool.false_and]
    · simp [hrx]

/-- What the end of a fault leaves of the port. -/
theorem closeRx_levels : let x := s.enc p; let y := (closeRx s p rx).enc p
    y.a = x.a ∧ y.b = x.b ∧ y.z = x.z ∧ y.d = x.d ∧ y.pins = x.pins := by
  cases h : (s.enc p).openRx.getLsbD rx with
  | true =>
    rw [closeRx_open h, enc_setEnc_same]
    exact ⟨rfl, rfl, rfl, rfl, rfl⟩
  | false =>
    rw [closeRx_closed h]
    exact ⟨rfl, rfl, rfl, rfl, rfl⟩

theorem closeRx_since (h : (s.enc p).openRx.getLsbD rx = true) : let y := (closeRx s p rx).enc p
    (rx.val = 0 → y.since.1 = s.tb.ticks) ∧ (rx.val = 1 → y.since.2.1 = s.tb.ticks) ∧
      (rx.val = 2 → y.since.2.2 = s.tb.ticks) ∧ (rx.val = 3 → y.dSince = s.tb.ticks) := by
  rw [closeRx_open h, enc_setEnc_same]
  exact ⟨fun h => if_pos h, fun h => if_pos h, fun h => if_pos h, fun h => if_pos h⟩

theorem closeRx_rest : { closeRx s p rx with encs := s.encs } = s := by
  cases h : (s.enc p).openRx.getLsbD rx with
  | true => rw [closeRx_open h]; rfl
  | false => rw [closeRx_closed h]

end Fault

end Sys2Proof.Proofs
end

section
namespace Sys2Proof.Proofs
open Sys2Proof Sys2Proof.Machine Sys2Proof.Safety Sys2Proof.Laws

/-! ### Driver C (R126, R127) -/

theorem ssiClock_extest {s : State} {p : Nat} (h : s.extestOn = true) : ssiClock s p = Config.bsPin s.tap.boundary (410 + p) :=
  if_pos h

theorem ssiClock_off {s : State} {p : Nat} (hx : s.extestOn = false) (h : epEn s p = false ∨ epMode s p ≠ 1 ∨ encOn s = false) :
    ssiClock s p = none := by
  rw [ssiClock, State.atPin, if_neg (by simp [hx]), if_pos]
  rcases h with h | h | h <;> simp [h]

theorem ssiClock_driven {s : State} {p : Nat} (hx : s.extestOn = false) (hen : epEn s p = true) (hm : epMode s p = 1)
    (hon : encOn s = true) : ssiClock s p =
      some (!((s.enc p).frame && decide (ssiTicks s p < ssiLen s p) && decide (ssiTicks s p % ssiDiv s p < ssiDiv s p / 2))) := by
  rw [ssiClock, State.atPin, if_neg (by simp [hx]), if_neg (by simp [hen, hm, hon])]

theorem ssiDiv_ge (s : State) (p : Nat) : 40 ≤ ssiDiv s p := Nat.le_max_left ..

/-- A frame's first tick is low. -/
theorem ssiClock_begins {s : State} {p : Nat} (hx : s.extestOn = false) (hen : epEn s p = true) (hm : epMode s p = 1)
    (hon : encOn s = true) (hf : (s.enc p).frame = true) (ht : (s.enc p).t0 = s.tb.ticks) : ssiClock s p = some false := by
  have hdiv := ssiDiv_ge s p
  have hzero : ssiTicks s p = 0 := by rw [ssiTicks, ht, Nat.sub_self]
  have hlen : 0 < ssiLen s p := Nat.mul_pos (by unfold ssiCycles; omega) (by omega)
  rw [ssiClock_driven hx hen hm hon, hf, hzero, Nat.zero_mod, decide_eq_true hlen, decide_eq_true (by omega)]
  rfl

/-! ### A latch trigger (R124, R126) -/

theorem encLatch_disabled {s : State} {p : Nat} (h : epEn s p = false) : encLatch s p = s := if_pos (by simp [h])

theorem encLatch_position {s : State} {p : Nat} (hen : epEn s p = true) (hon : encOn s = true) (hm : epMode s p ≠ 1) :
    encLatch s p = (s.wr .epLatp p 0 (s.rd .epPos p 0)).setB .epStat p 0 8 := by
  rw [encLatch, if_neg (by simp [hen, hon]), if_neg hm]

theorem encLatch_skipped {s : State} {p : Nat} (hen : epEn s p = true) (hon : encOn s = true) (hm : epMode s p = 1)
    (hb : s.bit .epStat p 0 9 = true) : encLatch s p = s.setB .epStat p 0 7 := by
  rw [encLatch, if_neg (by simp [hen, hon]), if_pos hm, if_pos hb]

/-- Port `p` with a frame that begins now. -/
def frameBegun (s : State) (p : Nat) : State := s.setEnc p { s.enc p with frame := true, t0 := s.tb.ticks, dPast := [] }

theorem encLatch_frame {s : State} {p : Nat} (hen : epEn s p = true) (hon : encOn s = true) (hm : epMode s p = 1)
    (hb : s.bit .epStat p 0 9 = false) : encLatch s p = (frameBegun s p).setB .epStat p 0 9 := by
  rw [encLatch, if_neg (by simp [hen, hon]), if_pos hm, if_neg (by simp [hb])]
  rfl

theorem encLatch_keeps (s : State) (p : Fin 64) : KeepsRegs [.epStat, .epLatp] s (encLatch s p) := by
  unfold encLatch
  split_ifs
  · exact .refl s
  · exact .setB _ (by decide) p.isLt (by decide)
  · exact (KeepsRegs.of_regs_eq rfl).trans (.setB _ (by decide) p.isLt (by decide))
  · exact (KeepsRegs.wr _ (by decide) p.isLt (by decide)).trans (.setB _ (by decide) p.isLt (by decide))

section Swlat

variable {s : State} (p : Fin 64) (v : Word)

/-- EP_LAT's lane written. -/
def latLoaded (s : State) (p : Nat) (v : Word) : State := s.wrCodes .epLat p 0 (setBit v 8 true)

theorem latLoaded_only (s : State) : Only beyondRegs [.epLat] s (latLoaded s p v) := only_wr_port s p _ (by decide)

theorem latLoaded_lane (s : State) : (latLoaded s p v).rdF .epLat p 0 7 0 = fld v 7 0 := by
  rw [State.rdF, latLoaded, rd_wrCodes_same, show Reg.epLat.masks p 0 = Reg.epLat.info from rfl,
    fld_applyWrite _ _ _ _ (by decide) (by decide), fld_setBit_ne _ _ _ _ _ (by decide) (by decide)]

theorem encOn_congr {s t : State} (h : t.fm = s.fm) : encOn t = encOn s := by simp only [encOn, State.inRst, State.dark, h]

theorem up_encOn (hu : up s = true) : encOn s = true := by simp [encOn, up_inRst hu, up_dark hu]

theorem exec_epSwlat (hu : up s = true) : exec (.epSwlat p v) s = .next (encLatch (latLoaded s p v) p) := by
  obtain ⟨ht, -⟩ := (up_iff s).1 hu
  show Host.Outcome.next (wrEpLat s p (setBit v 8 true)) = _
  rw [wrEpLat, up_gate hu, State.when, if_pos (by rw [bitOf_setBit _ _ _ _ (by decide), ht]; rfl)]
  rfl

theorem latLoaded_en (s : State) : epEn (latLoaded s p v) p = epEn s p :=
  (latLoaded_only p v s).regs.port_bit p 0 (by decide) (by decide)

theorem latLoaded_mode (s : State) : epMode (latLoaded s p v) p = epMode s p :=
  (latLoaded_only p v s).regs.port_rdF p 2 1 (by decide) (by decide)

theorem latLoaded_encOn (s : State) : encOn (latLoaded s p v) = encOn s := encOn_congr rfl

theorem epSwlat_lane : (encLatch (latLoaded s p v) p).rdF .epLat p 0 7 0 = fld v 7 0 := by
  rw [(encLatch_keeps _ p).port_rdF p 7 0 (by decide) (by decide), latLoaded_lane]

theorem epSwlat_disabled (hen : epEn s p = false) : { encLatch (latLoaded s p v) p with regs := s.regs } = s ∧
    (encLatch (latLoaded s p v) p).rd .epStat p 0 = s.rd .epStat p 0 := by
  rw [encLatch_disabled (by rw [latLoaded_en, hen])]
  exact ⟨(latLoaded_only p v s).rest_eq, (latLoaded_only p v s).regs.port p (by decide) (by decide)⟩

theorem epSwlat_latches (hu : up s = true) (hen : epEn s p = true) (hm : epMode s p ≠ 1) :
    (encLatch (latLoaded s p v) p).rd .epLatp p 0 = s.rd .epPos p 0 ∧ (encLatch (latLoaded s p v) p).bit .epStat p 0 8 = true := by
  rw [encLatch_position (by rw [latLoaded_en, hen]) (by rw [latLoaded_encOn, up_encOn hu]) (by rwa [latLoaded_mode])]
  constructor
  · rw [State.setB, State.wrB, rd_wr_port _ p _ (by decide) (by decide) (by decide), rd_wr_same,
      (latLoaded_only p v s).regs.port p (by decide) (by decide)]
  · rw [bit_setB_same _ _ _ _ _ (by decide)]; rfl

theorem epSwlat_skips (hu : up s = true) (hen : epEn s p = true) (hm : epMode s p = 1) (hb : s.bit .epStat p 0 9 = true) :
    (encLatch (latLoaded s p v) p).bit .epStat p 0 7 = true ∧ (encLatch (latLoaded s p v) p).enc p = s.enc p := by
  rw [encLatch_skipped (by rw [latLoaded_en, hen]) (by rw [latLoaded_encOn, up_encOn hu]) (by rwa [latLoaded_mode])
    (by rw [(latLoaded_only p v s).regs.port_bit p 9 (by decide) (by decide), hb])]
  refine ⟨?_, rfl⟩
  rw [bit_setB_same _ _ _ _ _ (by decide)]; rfl

theorem epSwlat_begins (hu : up s = true) (hen : epEn s p = true) (hm : epMode s p = 1) (hb : s.bit .epStat p 0 9 = false) :
    let t := encLatch (latLoaded s p v) p
    t.bit .epStat p 0 9 = true ∧ t.enc p = { s.enc p with frame := true, t0 := s.tb.ticks, dPast := [] } ∧
      (s.extestOn = false → ssiClock t p = some false) := by
  have hl := latLoaded_only p v s
  have hon : encOn (latLoaded s p v) = true := by rw [latLoaded_encOn, up_encOn hu]
  have ht : encLatch (latLoaded s p v) p = (frameBegun (latLoaded s p v) p).setB .epStat p 0 9 :=
    encLatch_frame (by rw [latLoaded_en, hen]) hon (by rwa [latLoaded_mode])
      (by rw [hl.regs.port_bit p 9 (by decide) (by decide), hb])
  have henc : (encLatch (latLoaded s p v) p).enc p = { s.enc p with frame := true, t0 := s.tb.ticks, dPast := [] } := by
    rw [ht]
    exact enc_setEnc_same ..
  have hk : KeepsRegs [.epStat, .epLatp, .epLat] s (encLatch (latLoaded s p v) p) :=
    (hl.regs.mono (by decide)).trans ((encLatch_keeps _ p).mono (by decide))
  refine ⟨?_, henc, fun hx => ssiClock_begins ?_ ?_ ?_ ?_ ?_ ?_⟩
  · rw [ht, bit_setB_same _ _ _ _ _ (by decide)]; rfl
  · have hstate := hk.rdF (r := .secState) (i := 0) (j := 0) 1 0 (by decide) (by decide) (by decide)
    have htap : (encLatch (latLoaded s p v) p).tap = s.tap ∧ (encLatch (latLoaded s p v) p).fm = s.fm := by rw [ht]; exact ⟨rfl, rfl⟩
    rw [State.extestOn, hstate, htap.1, htap.2]
    exact hx
  · exact (hk.port_bit p 0 (by decide) (by decide)).trans hen
  · exact (hk.port_rdF p 2 1 (by decide) (by decide)).trans hm
  · rw [ht]; exact hon
  · rw [henc]
  · rw [henc, ht]; rfl

end Swlat

/-! ### EP_POS and EP_CFG (R119, R123, R125) -/

section Writes

variable {s : State} (p : Fin 64) (v : Word)

theorem exec_epPosWrite_ssi (hu : up s = true) (hm : epMode s p = 1) : exec (.epPosWrite p v) s = .next s := by
  show Host.Outcome.next (wrEpPos s p v) = _
  rw [wrEpPos, up_gate hu, if_pos hm]

theorem exec_epPosWrite (hu : up s = true) (hm : epMode s p ≠ 1) : exec (.epPosWrite p v) s = .next (s.wr .epPos p 0 v) := by
  show Host.Outcome.next (wrEpPos s p v) = _
  rw [wrEpPos, up_gate hu, if_neg hm]

/-- The word written to EP_CFG, where EN waits for a descriptor (R119). -/
def cfgGated (s : State) (p : Nat) (v : Word) : Word := if s.acc then v else setBit v 0 (s.bit .epCfg p 0 0)

/-- The word that a write of `v` brings to EP_CFG: MODE and FILT keep while EN is 1 (R119). -/
def cfgWord (s : State) (p : Nat) (v : Word) : Word :=
  if s.bit .epCfg p 0 0 then
    setFld (setFld (cfgGated s p v) 2 1 (s.rdF .epCfg p 0 2 1)) 7 4 (s.rdF .epCfg p 0 7 4)
  else cfgGated s p v

/-- EP_CFG written and IDXHOLD cleared. -/
def cfgWritten (s : State) (p : Nat) (v : Word) : State := (s.wrCodes .epCfg p 0 (cfgWord s p v)).clrB .epStat p 0 14

theorem exec_epCfgWrite (hu : up s = true) : exec (.epCfgWrite p v) s = .next (showHall (cfgWritten s p v) p) :=
  congrArg Host.Outcome.next (up_gate hu ..)

theorem fld_cfgGated (s : State) {hi lo : Nat} (hh : hi < 32) (hl : 0 < lo) : fld (cfgGated s p v) hi lo = fld v hi lo := by
  rw [cfgGated]
  split
  · rfl
  · exact fld_setBit_ne _ _ _ _ _ hh (.inl hl)

theorem cfgWord_en (s : State) : bitOf (cfgWord s p v) 0 = if s.acc then bitOf v 0 else epEn s p := by
  have hg : bitOf (cfgGated s p v) 0 = if s.acc then bitOf v 0 else epEn s p := by
    rw [cfgGated]
    split
    · rfl
    · rw [bitOf_setBit _ _ _ _ (by decide), if_pos rfl, epEn]
  rw [cfgWord]
  split
  · rw [bitOf_setFld _ _ _ _ _ (by decide), if_neg (by decide), bitOf_setFld _ _ _ _ _ (by decide), if_neg (by decide), hg]
  · exact hg

theorem cfgWord_mode (s : State) : fld (cfgWord s p v) 2 1 = if epEn s p then epMode s p else fld v 2 1 := by
  rw [cfgWord, epEn]
  split
  · rw [fld_setFld_ne _ _ _ _ _ _ (by decide) (by decide), fld_setFld_same _ _ _ _ (by decide)]
    exact Nat.mod_eq_of_lt (fld_lt ..)
  · exact fld_cfgGated p v s (by decide) (by decide)

theorem cfgWord_filt (s : State) : fld (cfgWord s p v) 7 4 = if epEn s p then s.rdF .epCfg p 0 7 4 else fld v 7 4 := by
  rw [cfgWord, epEn]
  split
  · rw [fld_setFld_same _ _ _ _ (by decide)]
    exact Nat.mod_eq_of_lt (fld_lt ..)
  · exact fld_cfgGated p v s (by decide) (by decide)

theorem cfgWritten_field (s : State) {hi lo : Nat} (hh : hi < 13) (hf : rwField Reg.epCfg.info hi lo = true) :
    (showHall (cfgWritten s p v) p).rdF .epCfg p 0 hi lo = fld (cfgWord s p v) hi lo := by
  rw [State.rdF, showHall_rd _ p (by decide) (by decide), cfgWritten, State.clrB, State.wrB,
    rd_wr_port _ p _ (by decide) (by decide) (by decide), rd_wrCodes_same]
  exact fld_applyWrite _ _ _ _ (by omega) hf

/-- A bit is its field of one bit. -/
theorem bitOf_eq_testBit (w : Word) (b : Nat) : bitOf w b = (fld w b b).testBit 0 := by
  rw [testBit_fld]
  simp

theorem cfgWritten_en (s : State) : epEn (showHall (cfgWritten s p v) p) p = if s.acc then bitOf v 0 else epEn s p := by
  rw [epEn, State.bit, bitOf_eq_testBit, ← State.rdF, cfgWritten_field p v s (by decide) (by decide), ← bitOf_eq_testBit, cfgWord_en]

theorem cfgWritten_hold (s : State) : (showHall (cfgWritten s p v) p).bit .epStat p 0 14 = false := by
  rw [showHall_bit _ p (by decide) (by decide) (by decide), cfgWritten, bit_clrB_same _ _ _ _ _ (by decide)]
  rfl

theorem cfgWritten_rest (s : State) : { showHall (cfgWritten s p v) p with regs := s.regs } = s := by
  have h : Only beyondRegs portRegs s (showHall (cfgWritten s p v) p) :=
    (((only_wr_port s p _ (by decide)).mono (by decide)).trans ((only_wr_port _ p _ (by decide)).mono (by decide))).trans
      ((showHall_only _ p).mono (by decide))
  exact h.rest_eq

end Writes

end Sys2Proof.Proofs
end

section
namespace Sys2Proof.Proofs
open Sys2Proof Sys2Proof.Machine Sys2Proof.Safety Sys2Proof.Laws

/-! ### The bits of an SSI frame (R121, R126) -/

section Bits

variable (held : Nat → Bool)

theorem heldBits_length (l : Bool) (j : Nat) (bs : List Bool) : (heldBits held l j bs).length = bs.length := by
  induction bs generalizing l j with
  | nil => rfl
  | cons b bs ih => simp [heldBits, ih]

/-- A bit that is held repeats the one before it, the first one the level of D. -/
theorem heldBits_getD (l : Bool) (j : Nat) (bs : List Bool) {i : Nat} (hi : i < bs.length) :
    (heldBits held l j bs).getD i false = if held (j + i) = false then bs.getD i false
      else if i = 0 then l else (heldBits held l j bs).getD (i - 1) false := by
  induction bs generalizing l j i with
  | nil => simp at hi
  | cons b bs ih =>
    cases i with
    | zero => cases h : held j <;> simp [heldBits, h]
    | succ i =>
      have hrec := ih (if held j then l else b) (j + 1) (i := i) (by simpa using hi)
      rw [show j + 1 + i = j + (i + 1) by omega] at hrec
      rw [heldBits, List.getD_cons_succ, List.getD_cons_succ, hrec, if_neg (Nat.succ_ne_zero i), Nat.add_sub_cancel]
      cases i with
      | zero => rfl
      | succ i => rfl

end Bits

theorem bitsNat_append (bs : List Bool) (b : Bool) : bitsNat (bs ++ [b]) = 2 * bitsNat bs + b2n b := by
  simp [bitsNat]

theorem b2n_eq_toNat (b : Bool) : b2n b = b.toNat := by cases b <;> rfl

theorem bitsNat_lt (bs : List Bool) : bitsNat bs < 2 ^ bs.length := by
  induction bs using List.reverseRecOn with
  | nil => decide
  | append_singleton bs b ih =>
    have hb : b2n b < 2 := by cases b <;> decide
    rw [bitsNat_append, List.length_append, List.length_singleton, pow_succ]
    omega

/-- The first bit is the most significant. -/
theorem testBit_bitsNat (bs : List Bool) {i : Nat} (hi : i < bs.length) :
    (bitsNat bs).testBit (bs.length - 1 - i) = bs.getD i false := by
  induction bs using List.reverseRecOn with
  | nil => simp at hi
  | append_singleton bs b ih =>
    rw [List.length_append, List.length_singleton] at hi
    rw [bitsNat_append, List.length_append, List.length_singleton, Nat.add_sub_cancel, b2n_eq_toNat]
    rcases Nat.lt_or_ge i bs.length with h | h
    · rw [show bs.length - i = (bs.length - 1 - i) + 1 by omega, Nat.testBit_succ, List.getD_append _ _ _ _ h, ← ih h]
      have hb := Bool.toNat_lt b
      rw [show (2 * bitsNat bs + b.toNat) / 2 = bitsNat bs by omega]
    · obtain rfl : i = bs.length := by omega
      rw [Nat.sub_self, List.getD_append_right _ _ _ _ le_rfl, Nat.sub_self]
      cases b <;> simp [Nat.testBit_zero, Nat.add_mod]

/-! ### The end of an SSI frame (R126) -/

/-- A frame has a parity bit. -/
def hasParity (s : State) (p : Nat) : Bool := s.rdF .epSsi p 0 15 14 == 1 || s.rdF .epSsi p 0 15 14 == 2

theorem ssiLen_eq (s : State) (p : Nat) : ssiLen s p = (s.rdF .epSsi p 0 4 0 + 2 +
    (if s.rdF .epSsi p 0 15 14 = 1 ∨ s.rdF .epSsi p 0 15 14 = 2 then 1 else 0)) * Nat.max 40 (s.rdF .epSsi p 0 12 5) := by
  have hpar : b2n (hasParity s p) = if s.rdF .epSsi p 0 15 14 = 1 ∨ s.rdF .epSsi p 0 15 14 = 2 then 1 else 0 :=
    if_congr (by simp [hasParity]) rfl rfl
  rw [← hpar]
  rfl

section Frame

variable (s : State) (p : Nat) (data : Word) (par : Bool)

/-- The bits that the encoder sends: the data, the most significant first, and the parity. -/
def sentBits : List Bool :=
  (List.range (s.rdF .epSsi p 0 4 0 + 1)).map (fun j => bitOf data (s.rdF .epSsi p 0 4 0 + 1 - 1 - j)) ++ [par]

/-- The bits that the port samples. -/
def frameBits : List Bool :=
  heldBits (fun j => dHeld (s.enc p) (ssiSample s p j)) (s.enc p).d 0 ((sentBits s p data par).take (ssiCycles s p - 1))

/-- The data of a frame as a number. -/
def frameRaw : Nat := bitsNat ((frameBits s p data par).take (s.rdF .epSsi p 0 4 0 + 1))

/-- The word that a frame gives, out of Gray code if EP_SSI.GRAY is 1. -/
def frameWord : Word :=
  wd (if s.bit .epSsi p 0 13 then grayToBin 5 (frameRaw s p data par) else frameRaw s p data par)

/-- The ones of data and parity are odd in number. -/
def frameOdd : Bool :=
  (ones (wd (frameRaw s p data par)) + b2n ((frameBits s p data par).getD (s.rdF .epSsi p 0 4 0 + 1) false)) % 2 == 1

/-- EP_SSI.PAR calls for another parity than the frame has. -/
def frameBad : Bool :=
  match s.rdF .epSsi p 0 15 14 with
  | 1 => frameOdd s p data par
  | 2 => !frameOdd s p data par
  | _ => false

/-- Port `p` at `x`, with a frame's word `w` and its error. -/
def frameDone (s : State) (p : Nat) (x : EncS) (w : Word) (bad : Bool) : State :=
  epDone ((((if bad then (s.setEnc p x).setB .epStat p 0 6 else s.setEnc p x).wr .epPos p 0 w).wr .epLatp p 0 w).setB .epStat p 0 8) p

theorem exec_ssiFrameComplete_runs (p : Fin 64)
    (h : (s.enc p).frame = false ∨ (encOn s && s.timeOk) = false ∨ ssiTicks s p < ssiLen s p) :
    exec (.ssiFrameComplete p data par) s = .next s := by
  refine if_pos ?_
  rcases h with h | h | h
  · simp [h]
  · rcases (Bool.and_eq_false_iff).1 h with h | h <;> simp [h]
  · simp [h]

theorem exec_ssiFrameComplete_ends (p : Fin 64) (hf : (s.enc p).frame = true) (hl : (encOn s && s.timeOk) = true)
    (ht : ssiLen s p ≤ ssiTicks s p) : exec (.ssiFrameComplete p data par) s = .next (frameDone s p
      { s.enc p with frame := false, d := (frameBits s p data par).getLast?.getD (s.enc p).d, dSince := s.tb.ticks }
      (frameWord s p data par) (frameBad s p data par)) := by
  obtain ⟨hon, htime⟩ := Bool.and_eq_true_iff.1 hl
  exact if_neg (by simp [hf, hon, htime, ht])

theorem sentBits_length : (sentBits s p data par).length = s.rdF .epSsi p 0 4 0 + 2 := by simp [sentBits]

theorem sentBits_data {i : Nat} (hi : i ≤ s.rdF .epSsi p 0 4 0) :
    (sentBits s p data par).getD i false = bitOf data (s.rdF .epSsi p 0 4 0 - i) := by
  rw [sentBits, List.getD_append _ _ _ _ (by simp; omega), List.getD_eq_getElem _ _ (by simp; omega)]
  simp

theorem sentBits_parity : (sentBits s p data par).getD (s.rdF .epSsi p 0 4 0 + 1) false = par := by
  rw [sentBits, List.getD_append_right _ _ _ _ (by simp)]
  simp

theorem getD_take {l : List Bool} {i n : Nat} (h : i < n) : (l.take n).getD i false = l.getD i false := by
  rw [List.getD_eq_getElem?_getD, List.getElem?_take_of_lt h, List.getD_eq_getElem?_getD]

theorem cycles_sampled : ssiCycles s p - 1 = s.rdF .epSsi p 0 4 0 + 1 + b2n (hasParity s p) := by
  show s.rdF .epSsi p 0 4 0 + 2 + b2n (hasParity s p) - 1 = _
  omega

theorem b2n_le (b : Bool) : b2n b ≤ 1 := by cases b <;> decide

theorem sampledBits_length : ((sentBits s p data par).take (ssiCycles s p - 1)).length =
    s.rdF .epSsi p 0 4 0 + 1 + b2n (hasParity s p) := by
  have h := b2n_le (hasParity s p)
  rw [List.length_take, sentBits_length, cycles_sampled]
  omega

theorem frameBits_length : (frameBits s p data par).length = s.rdF .epSsi p 0 4 0 + 1 + b2n (hasParity s p) := by
  rw [frameBits, heldBits_length, sampledBits_length]

/-- Each sampled bit is the one sent, or where D is held the one before it. -/
theorem frameBits_getD {i : Nat} (hi : i < s.rdF .epSsi p 0 4 0 + 1 + b2n (hasParity s p)) :
    (frameBits s p data par).getD i false =
      if dHeld (s.enc p) (ssiSample s p i) = false then (sentBits s p data par).getD i false
      else if i = 0 then (s.enc p).d else (frameBits s p data par).getD (i - 1) false := by
  have h := heldBits_getD (fun j => dHeld (s.enc p) (ssiSample s p j)) (s.enc p).d 0
    ((sentBits s p data par).take (ssiCycles s p - 1)) (by rwa [sampledBits_length])
  rw [Nat.zero_add, getD_take (by rwa [cycles_sampled])] at h
  exact h

theorem frameData_length : ((frameBits s p data par).take (s.rdF .epSsi p 0 4 0 + 1)).length = s.rdF .epSsi p 0 4 0 + 1 := by
  rw [List.length_take, frameBits_length]
  omega

theorem frameRaw_lt : frameRaw s p data par < 2 ^ (s.rdF .epSsi p 0 4 0 + 1) := by
  have h := bitsNat_lt ((frameBits s p data par).take (s.rdF .epSsi p 0 4 0 + 1))
  rwa [frameData_length] at h

theorem testBit_frameRaw {i : Nat} (hi : i ≤ s.rdF .epSsi p 0 4 0) :
    (frameRaw s p data par).testBit (s.rdF .epSsi p 0 4 0 - i) = (frameBits s p data par).getD i false := by
  have h := testBit_bitsNat ((frameBits s p data par).take (s.rdF .epSsi p 0 4 0 + 1)) (i := i)
    (by rw [frameData_length]; omega)
  rwa [frameData_length, Nat.add_sub_cancel, getD_take (by omega)] at h

theorem frameRaw_bits {i : Nat} (hi : i ≤ s.rdF .epSsi p 0 4 0) :
    (frameRaw s p data par).testBit (s.rdF .epSsi p 0 4 0 - i) =
      if dHeld (s.enc p) (ssiSample s p i) = false then bitOf data (s.rdF .epSsi p 0 4 0 - i)
      else if i = 0 then (s.enc p).d else (frameRaw s p data par).testBit (s.rdF .epSsi p 0 4 0 - (i - 1)) := by
  rw [testBit_frameRaw s p data par hi, frameBits_getD s p data par (by omega), sentBits_data s p data par hi,
    testBit_frameRaw s p data par (i := i - 1) (by omega)]

/-- The parity bit as sampled: held, it repeats the last data bit. -/
theorem frameParity (h : hasParity s p = true) : (frameBits s p data par).getD (s.rdF .epSsi p 0 4 0 + 1) false =
    if dHeld (s.enc p) (ssiSample s p (s.rdF .epSsi p 0 4 0 + 1)) then (frameRaw s p data par).testBit 0 else par := by
  have hlast := testBit_frameRaw s p data par le_rfl
  rw [Nat.sub_self] at hlast
  rw [frameBits_getD s p data par (by rw [h]; exact Nat.lt_succ_self _), sentBits_parity, Nat.add_sub_cancel, ← hlast,
    if_neg (Nat.succ_ne_zero _)]
  cases dHeld (s.enc p) (ssiSample s p (s.rdF .epSsi p 0 4 0 + 1)) <;> rfl

/-- The number of ones in the data and the parity bit. -/
def parityOnes : Nat := ones (wd (frameRaw s p data par)) +
  b2n (if dHeld (s.enc p) (ssiSample s p (s.rdF .epSsi p 0 4 0 + 1)) then (frameRaw s p data par).testBit 0 else par)

theorem frameOdd_eq (h : hasParity s p = true) : frameOdd s p data par = decide (parityOnes s p data par % 2 = 1) := by
  rw [frameOdd, frameParity s p data par h]
  rfl

theorem frameBad_even (h : s.rdF .epSsi p 0 15 14 = 1) : frameBad s p data par = decide (parityOnes s p data par % 2 = 1) := by
  rw [frameBad, h]
  exact frameOdd_eq s p data par (by simp [hasParity, h])

theorem frameBad_odd (h : s.rdF .epSsi p 0 15 14 = 2) : frameBad s p data par = decide (parityOnes s p data par % 2 = 0) := by
  rw [frameBad, h]
  show (!frameOdd s p data par) = _
  rw [frameOdd_eq s p data par (by simp [hasParity, h]), ← decide_not]
  exact decide_eq_decide.2 (by omega)

theorem frameBad_none (h : s.rdF .epSsi p 0 15 14 = 0 ∨ s.rdF .epSsi p 0 15 14 = 3) : frameBad s p data par = false := by
  rw [frameBad]
  rcases h with h | h
  · rw [h]; rfl
  · rw [h]; rfl

end Frame

section Done

variable (s : State) (p : Fin 64) (x : EncS) (w : Word) (bad : Bool)

theorem frameDone_enc : (frameDone s p x w bad).enc p = x := by
  have h : (frameDone s p x w bad).encs = (s.setEnc p x).encs := by
    cases bad
    · rfl
    · rfl
  rw [State.enc, h, ← State.enc, enc_setEnc_same]

theorem epDone_rd (s : State) (p : Nat) (r : Reg) (i j : Nat) : (epDone s p).rd r i j = s.rd r i j := rfl

theorem epDone_bit (s : State) (p : Nat) (r : Reg) (i j b : Nat) : (epDone s p).bit r i j b = s.bit r i j b := rfl

theorem frameDone_latp : (frameDone s p x w bad).rd .epLatp p 0 = w := by
  rw [frameDone, epDone_rd, State.setB, State.wrB, rd_wr_port _ p _ (by decide) (by decide) (by decide), rd_wr_same]

theorem frameDone_pos : (frameDone s p x w bad).rd .epPos p 0 = w := by
  rw [frameDone, epDone_rd, State.setB, State.wrB, rd_wr_port _ p _ (by decide) (by decide) (by decide),
    rd_wr_port _ p _ (by decide) (by decide) (by decide), rd_wr_same]

theorem frameDone_bit {b : Nat} (hb : b < 32) :
    (frameDone s p x w bad).bit .epStat p 0 b = (decide (b = 8) || (decide (b = 6) && bad) || s.bit .epStat p 0 b) := by
  rw [frameDone, epDone_bit, bit_setB_same _ _ _ _ _ hb, bit_wr_port _ p _ b (by decide) (by decide) (by decide),
    bit_wr_port _ p _ b (by decide) (by decide) (by decide)]
  cases bad
  · rw [Bool.and_false, Bool.or_false]; rfl
  · rw [Bool.and_true, Bool.or_assoc]
    exact congrArg (decide (b = 8) || ·) (bit_setB_same _ _ _ _ _ hb)

end Done

/-! ### The return of D, and its time-out (R126) -/

theorem ssiWaits_eq (s : State) (p : Nat) :
    ssiWaits s p = (s.bit .epStat p 0 9 && !(s.enc p).frame && (encOn s && s.timeOk)) := by
  rw [ssiWaits, Bool.and_assoc]

theorem ssiWaits_false {s : State} {p : Nat}
    (h : s.bit .epStat p 0 9 = false ∨ (s.enc p).frame = true ∨ (encOn s && s.timeOk) = false) : ssiWaits s p = false := by
  rw [ssiWaits_eq]
  rcases h with h | h | h <;> simp [h]

theorem ssiWaits_true {s : State} {p : Nat} (hb : s.bit .epStat p 0 9 = true) (hf : (s.enc p).frame = false)
    (hl : (encOn s && s.timeOk) = true) : ssiWaits s p = true := by
  rw [ssiWaits_eq, hb, hf, hl]
  rfl

theorem dHigh_eq (s : State) (p : Nat) : dHigh s p = ((s.enc p).d ||
    (!(s.enc p).openRx.getLsbD 3 && decide (s.rdF .epCfg p 0 7 4 + 4 ≤ s.tb.ticks - (s.enc p).dSince))) := by
  have h : filterDone s p (s.enc p).dSince = decide (s.rdF .epCfg p 0 7 4 + 4 ≤ s.tb.ticks - (s.enc p).dSince) :=
    decide_eq_decide.2 (by unfold filterTick; omega)
  rw [dHigh, h]

section Return

variable {s : State} (p : Fin 64)

/-- D has returned high. -/
def dReturned (s : State) (p : Nat) : State := (s.setEnc p { s.enc p with d := true }).clrB .epStat p 0 9

/-- D has not returned in time. -/
def dTimedOut (s : State) (p : Nat) : State := (s.setB .epStat p 0 6).clrB .epStat p 0 9

theorem exec_ssiDataReturn (hw : ssiWaits s p = true) (hd : dHigh s p = true) :
    exec (.ssiDataReturn p) s = .next (dReturned s p) := if_pos (by simp [hw, hd])

theorem exec_ssiDataReturn_low (hd : dHigh s p = false) : exec (.ssiDataReturn p) s = .next s := if_neg (by simp [hd])

theorem exec_ssiDataReturn_idle (hw : ssiWaits s p = false) : exec (.ssiDataReturn p) s = .next s := if_neg (by simp [hw])

theorem exec_ssiTimeout (hw : ssiWaits s p = true) (ht : ssiLen s p + 10000 ≤ ssiTicks s p) :
    exec (.ssiTimeout p) s = .next (dTimedOut s p) := if_pos (by simp [hw, ht])

theorem exec_ssiTimeout_early (ht : ssiTicks s p < ssiLen s p + 10000) : exec (.ssiTimeout p) s = .next s :=
  if_neg (by simp; omega)

theorem exec_ssiTimeout_idle (hw : ssiWaits s p = false) : exec (.ssiTimeout p) s = .next s := if_neg (by simp [hw])

theorem dReturned_bit (s : State) {b : Nat} (hb : b < 32) :
    (dReturned s p).bit .epStat p 0 b = (!decide (b = 9) && s.bit .epStat p 0 b) := bit_clrB_same _ _ _ _ _ hb

theorem dTimedOut_bit (s : State) {b : Nat} (hb : b < 32) :
    (dTimedOut s p).bit .epStat p 0 b = (!decide (b = 9) && (decide (b = 6) || s.bit .epStat p 0 b)) := by
  rw [dTimedOut, bit_clrB_same _ _ _ _ _ hb, bit_setB_same _ _ _ _ _ hb]

end Return

end Sys2Proof.Proofs
end

section
namespace Sys2Proof.Proofs
open Sys2Proof Sys2Proof.Machine Sys2Proof.Safety Sys2Proof.Laws

/-! ### The statement on the encoder ports -/

/-- An edge at the receivers: what settles, and the port after what ripens (R120–R122). -/
theorem encFilteredEdge_on (p : Fin 64) (a b z : Bool) (s : State) (hon : encOn s = true) :
    ∃ t, exec (.encFilteredEdge p a b z) s = .next t ∧ t.enc p = (ripen (s.setEnc p (sampleRx s p a b z)) p).enc p ∧
      t.rd .epPos p 0 = (ripen (s.setEnc p (sampleRx s p a b z)) p).rd .epPos p 0 ∧ (∀ q, q ≠ p.val → t.enc q = s.enc q) ∧
      t.rdF .epStat p 0 13 11 = (if epMode s p = 2 then hallOf (t.enc p).a (t.enc p).b (t.enc p).z else 0) ∧
      (epEn s p = true → s.timeOk = true → epMode s p = 2 →
        hallOf (t.enc p).a (t.enc p).b (t.enc p).z = 0 ∨ hallOf (t.enc p).a (t.enc p).b (t.enc p).z = 7 →
          t.bit .epStat p 0 3 = true) := by
  have hl : LevelsOnly p s (ripen (s.setEnc p (sampleRx s p a b z)) p) := (setEnc_levelsOnly s p _).trans (ripen_levelsOnly ..)
  exact ⟨_, exec_encFilteredEdge_on hon, showHall_enc .., showHall_rd _ p (by decide) (by decide),
    fun q hq => (showHall_enc ..).trans (hl.other q hq), showHall_after_hall hl, showHall_after_herr hl⟩

/-- The levels that the samples settle, receiver by receiver (R120). -/
theorem mem_sampleRx_iff (p : Nat) (s : State) (since : Nat → Nat) (pin : Nat → Bool) (e : Nat × Nat × Bool)
    (h0 : since 0 = sinceTick s (s.enc p) (s.enc p).pins.1 (pin 0) (s.enc p).since.1)
    (h1 : since 1 = sinceTick s (s.enc p) (s.enc p).pins.2.1 (pin 1) (s.enc p).since.2.1)
    (h2 : since 2 = sinceTick s (s.enc p) (s.enc p).pins.2.2 (pin 2) (s.enc p).since.2.2) :
    e ∈ (sampleRx s p (pin 0) (pin 1) (pin 2)).edges ↔ e ∈ (s.enc p).edges ∨ ∃ rx < 3, (s.enc p).openRx.getLsbD rx = false ∧
      since rx + s.rdF .epCfg p 0 7 4 ≤ s.tb.ticks ∧ pin rx ≠ lastLevel (s.enc p) rx ∧
        e = (since rx + s.rdF .epCfg p 0 7 4 + 4, rx, pin rx) := by
  have h := mem_sampleRx s p (pin 0) (pin 1) (pin 2) e
  simp only [← h0, ← h1, ← h2, settles, filterTick, and_assoc] at h
  rw [h, exists_lt_three]

/-- The levels of the first tick that is due, and what the port counts at them (R120–R123). -/
theorem firstDue_counts {s : State} {p : Fin 64} {τ : Nat} {g rest : List (Nat × Nat × Bool)} (h : FirstDue s p τ g rest) :
    let x := s.enc p
    let y := taken x g
    let t := takeEdges s p g
    (epEn s p = false ∨ epMode s p = 1 → t.rd .epPos p 0 = s.rd .epPos p 0) ∧
    (epEn s p = true → epMode s p = 0 → x.z = y.z →
      t.rd .epPos p 0 = s.rd .epPos p 0 + wdi (directed s p (quadStep x.a x.b y.a y.b).1) ∧
      t.bit .epStat p 0 2 = (s.bit .epStat p 0 2 || x.a != y.a && x.b != y.b) ∧
      ((quadStep x.a x.b y.a y.b).1 ≠ 0 → t.bit .epStat p 0 10 = decide (0 < directed s p (quadStep x.a x.b y.a y.b).1))) ∧
    (epEn s p = true → epMode s p = 2 →
      t.rd .epPos p 0 = s.rd .epPos p 0 + wdi (directed s p (hallStep (hallOf x.a x.b x.z) (hallOf y.a y.b y.z)).1) ∧
      t.bit .epStat p 0 3 = (s.bit .epStat p 0 3 || (hallStep (hallOf x.a x.b x.z) (hallOf y.a y.b y.z)).2)) ∧
    (epEn s p = true → epMode s p = 3 → x.z = y.z →
      t.rd .epPos p 0 = s.rd .epPos p 0 + wdi (directed s p (if x.a = false ∧ y.a = true then if x.b then 1 else -1 else 0)) ∧
      t.bit .epStat p 0 4 = (s.bit .epStat p 0 4 || !x.a && y.a && x.b != y.b)) := by
  rw [h.takeEdges_eq]
  exact ⟨setLevels_pos_idle s p τ _, setLevels_quadrature s p τ _, setLevels_hall s p τ _, setLevels_pulse s p τ _⟩

/-- An index with the first levels that are due (R123). -/
theorem firstDue_index {s : State} {p : Fin 64} {τ : Nat} {g rest : List (Nat × Nat × Bool)} (h : FirstDue s p τ g rest)
    (hen : epEn s p = true) (hm : epMode s p = 0) (hz : (s.enc p).z = false) (hz' : (taken (s.enc p) g).z = true)
    (hi : s.rdF .epCfg p 0 9 8 = 1) (hh : s.bit .epStat p 0 14 = false) :
    let x := s.enc p
    let y := taken x g
    let t := takeEdges s p g
    let pos := s.rd .epPos p 0 + wdi (directed s p (quadStep x.a x.b y.a y.b).1)
    t.rd .epIdx p 0 = pos ∧ t.rd .epPos p 0 = (if s.bit .epCfg p 0 10 then 0 else pos) ∧ t.bit .epStat p 0 0 = true ∧
      t.bit .epStat p 0 1 = (s.bit .epStat p 0 1 || s.bit .epStat p 0 0) ∧
      ∀ m < 16, ∀ c < 4, (t.chan m c).due = (s.chan m c).due ++ (if capSelects s m c (.index p) then [s.now] else []) := by
  rw [h.takeEdges_eq, setLevels_index s p τ _ hen hm hz hz' hi hh]
  let u := levelsSet s p τ (taken (s.enc p) g)
  let c := protocolStep 0 (levels (s.enc p)) (levels (taken (s.enc p) g))
  obtain ⟨hidx, hpos, hidxf, hovr⟩ := counted_indexed_event u p c (show 2 ≠ 0 by decide) (show 2 ≠ 1 by decide)
  refine ⟨hidx, hpos, hidxf, hovr, fun m hm c' hc' => ?_⟩
  have hregs : Only beyondRegs countRegs u (indexed (counted u p c) p) :=
    ((counted_only u p c).mono (by decide)).trans (indexed_regs ..)
  exact indexEvent_due p hregs (by decide) (by decide) h.time ⟨m, hm⟩ ⟨c', hc'⟩

/-- A receiver of a running port is open (R121). -/
theorem receiver_faulted (p : Fin 64) (rx : Fin 4) (s : State) (hon : encOn s = true) (hen : epEn s p = true)
    (hu : rxUsed s p rx = true) (ht : s.timeOk = true) :
    let x := s.enc p
    ∃ t, exec (.encReceiverOpen p rx true) s = .next t ∧ t.bit .epStat p 0 5 = true ∧ (t.enc p).openRx.getLsbD rx = true ∧
      (∀ r < 4, r ≠ rx.val → (t.enc p).openRx.getLsbD r = x.openRx.getLsbD r) ∧
      (x.openRx.getLsbD rx = true → t.enc p = x ∧ t.rd .epPos p 0 = s.rd .epPos p 0) ∧
      (x.openRx.getLsbD rx = false → (∀ e ∈ x.edges, s.tb.ticks < e.1) →
        let kept := keptLevel s x rx
        (t.enc p).a = kept 0 ∧ (t.enc p).b = kept 1 ∧ (t.enc p).z = kept 2 ∧ (t.enc p).d = x.d ∧
          (t.enc p).edges = x.edges.filter (·.2.1 != rx.val) ∧ (rx.val = 3 → (t.enc p).dFrom = s.tb.ticks - 400) ∧
          ((∀ r < 3, kept r = filtOf x r) → t.rd .epPos p 0 = s.rd .epPos p 0)) := by
  intro x
  refine ⟨_, exec_encReceiverOpen_faulted s p rx hon hen hu ht, faulted_open .., ?_, fun r hr hne => ?_, fun ho => ?_, fun hc he => ?_⟩
  · rw [faulted_enc, holdRx_openRx s p rx rx.isLt, decide_eq_true rfl, Bool.or_true]
  · rw [faulted_enc, holdRx_openRx s p rx hr, decide_eq_false hne, Bool.or_false]
  · rw [faulted_enc, faulted_pos, holdRx_open ho]
    exact ⟨rfl, rfl⟩
  · have hlev := levels_held s rx x
    simp only [levels, Prod.mk.injEq] at hlev
    obtain ⟨ha, hb, hz⟩ := hlev
    rw [faulted_enc, faulted_pos, holdRx_enc s p rx hc he]
    exact ⟨ha, hb, hz, rfl, rfl, fun h3 => if_pos h3, holdRx_pos s p rx hc he⟩

/-- A receiver's fault is over (R121). -/
theorem receiver_cleared (p : Fin 64) (rx : Fin 4) (s : State) (hon : encOn s = true) :
    let x := s.enc p
    ∃ t, exec (.encReceiverOpen p rx false) s = .next t ∧ (t.enc p).openRx.getLsbD rx = false ∧
      (∀ r < 4, r ≠ rx.val → (t.enc p).openRx.getLsbD r = x.openRx.getLsbD r) ∧
      (t.enc p).a = x.a ∧ (t.enc p).b = x.b ∧ (t.enc p).z = x.z ∧ (t.enc p).d = x.d ∧ (t.enc p).pins = x.pins ∧
      (x.openRx.getLsbD rx = true →
        (rx.val = 0 → (t.enc p).since.1 = s.tb.ticks) ∧ (rx.val = 1 → (t.enc p).since.2.1 = s.tb.ticks) ∧
        (rx.val = 2 → (t.enc p).since.2.2 = s.tb.ticks) ∧ (rx.val = 3 → (t.enc p).dSince = s.tb.ticks)) ∧
      { t with encs := s.encs } = s := by
  intro x
  obtain ⟨ha, hb, hz, hd, hpins⟩ := closeRx_levels s p rx
  refine ⟨_, exec_encReceiverOpen_cleared s p rx hon, ?_, fun r hr hne => ?_, ha, hb, hz, hd, hpins, closeRx_since s p rx,
    closeRx_rest s p rx⟩
  · rw [closeRx_openRx s p rx rx.isLt, decide_eq_true rfl, Bool.not_true, Bool.and_false]
  · rw [closeRx_openRx s p rx hr, decide_eq_false hne, Bool.not_false, Bool.and_true]

/-- A write of EP_LAT with SWLAT (R124, R126). -/
theorem epSwlat_triggers (p : Fin 64) (v : Word) (s : State) (hu : up s = true) :
    ∃ t, exec (.epSwlat p v) s = .next t ∧ t.rdF .epLat p 0 7 0 = fld v 7 0 ∧
      (epEn s p = false ∨ s.timeOk = false → { t with regs := s.regs } = s ∧ t.rd .epStat p 0 = s.rd .epStat p 0) ∧
      (epEn s p = true → s.timeOk = true → epMode s p ≠ 1 → t.rd .epLatp p 0 = s.rd .epPos p 0 ∧ t.bit .epStat p 0 8 = true) ∧
      (epEn s p = true → s.timeOk = true → epMode s p = 1 → s.bit .epStat p 0 9 = true →
        t.bit .epStat p 0 7 = true ∧ t.enc p = s.enc p) ∧
      (epEn s p = true → s.timeOk = true → epMode s p = 1 → s.bit .epStat p 0 9 = false → t.bit .epStat p 0 9 = true ∧
        t.enc p = { s.enc p with frame := true, t0 := s.tb.ticks, dPast := [] } ∧
          (s.extestOn = false → ssiClock t p = some false)) := by
  obtain ⟨ht, -⟩ := (up_iff s).1 hu
  exact ⟨_, exec_epSwlat p v hu, epSwlat_lane p v,
    fun h => epSwlat_disabled p v (h.resolve_right (by simp [ht])), fun hen _ => epSwlat_latches p v hu hen,
    fun hen _ => epSwlat_skips p v hu hen, fun hen _ => epSwlat_begins p v hu hen⟩

/-- A write of EP_CFG (R119, R123). -/
theorem epCfgWrite_applies (p : Fin 64) (v : Word) (s : State) (hu : up s = true) :
    ∃ t, exec (.epCfgWrite p v) s = .next t ∧ epEn t p = (if s.acc then bitOf v 0 else epEn s p) ∧
      epMode t p = (if epEn s p then epMode s p else fld v 2 1) ∧
      t.rdF .epCfg p 0 7 4 = (if epEn s p then s.rdF .epCfg p 0 7 4 else fld v 7 4) ∧ t.bit .epStat p 0 14 = false ∧
      { t with regs := s.regs } = s :=
  ⟨_, exec_epCfgWrite p v hu, cfgWritten_en p v s,
    (cfgWritten_field p v s (by decide) (by decide)).trans (cfgWord_mode p v s),
    (cfgWritten_field p v s (by decide) (by decide)).trans (cfgWord_filt p v s), cfgWritten_hold p v s, cfgWritten_rest p v s⟩

theorem ssiClock_shape (p : Nat) (s : State) (hx : s.extestOn = false) (hen : epEn s p = true) (hm : epMode s p = 1)
    (hon : encOn s = true) : ssiClock s p = some (decide ((s.enc p).frame = true → ssiTicks s p < ssiLen s p →
      ssiDiv s p / 2 ≤ ssiTicks s p % ssiDiv s p)) := by
  rw [ssiClock_driven hx hen hm hon]
  refine congrArg some (Bool.eq_iff_iff.2 ?_)
  simp only [Bool.not_eq_true', Bool.and_eq_false_imp, Bool.and_eq_true, decide_eq_true_eq, decide_eq_false_iff_not, Nat.not_lt,
    and_imp]

/-- The end of an SSI frame (R126). -/
theorem ssiFrame_completes (p : Fin 64) (data : Word) (par : Bool) (s : State) (hf : (s.enc p).frame = true)
    (hl : (encOn s && s.timeOk) = true) (ht : ssiLen s p ≤ ssiTicks s p) :
    let x := s.enc p
    let bits := s.rdF .epSsi p 0 4 0
    let held (j : Nat) : Bool := dHeld x (ssiSample s p j)
    ∃ t raw, exec (.ssiFrameComplete p data par) s = .next t ∧ (t.enc p).frame = false ∧ t.bit .epStat p 0 8 = true ∧
      raw < 2 ^ (bits + 1) ∧ (∀ i ≤ bits, raw.testBit (bits - i) = (if held i = false then bitOf data (bits - i)
        else if i = 0 then x.d else raw.testBit (bits - (i - 1)))) ∧
      t.rd .epLatp p 0 = t.rd .epPos p 0 ∧ (s.bit .epSsi p 0 13 = false → t.rd .epPos p 0 = wd raw) ∧
      (s.bit .epSsi p 0 13 = true → t.rd .epPos p 0 = wd (grayToBin 5 raw)) ∧
      let pb := if held (bits + 1) then raw.testBit 0 else par
      (s.rdF .epSsi p 0 15 14 = 1 → t.bit .epStat p 0 6 = (s.bit .epStat p 0 6 || decide ((ones (wd raw) + b2n pb) % 2 = 1))) ∧
      (s.rdF .epSsi p 0 15 14 = 2 → t.bit .epStat p 0 6 = (s.bit .epStat p 0 6 || decide ((ones (wd raw) + b2n pb) % 2 = 0))) ∧
      (s.rdF .epSsi p 0 15 14 = 0 ∨ s.rdF .epSsi p 0 15 14 = 3 → t.bit .epStat p 0 6 = s.bit .epStat p 0 6) := by
  intro x bits held
  refine ⟨_, frameRaw s p data par, exec_ssiFrameComplete_ends s data par p hf hl ht, ?_, ?_, frameRaw_lt s p data par,
    fun i hi => frameRaw_bits s p data par hi, ?_, fun hg => ?_, fun hg => ?_, fun h => ?_, fun h => ?_, fun h => ?_⟩
  · rw [frameDone_enc]
  · rw [frameDone_bit _ _ _ _ _ (by decide)]; rfl
  · rw [frameDone_latp, frameDone_pos]
  · rw [frameDone_pos, frameWord, hg]; rfl
  · rw [frameDone_pos, frameWord, hg]; rfl
  · rw [frameDone_bit _ _ _ _ _ (by decide), frameBad_even s p data par h, Bool.or_comm]; rfl
  · rw [frameDone_bit _ _ _ _ _ (by decide), frameBad_odd s p data par h, Bool.or_comm]; rfl
  · rw [frameDone_bit _ _ _ _ _ (by decide), frameBad_none s p data par h]; rfl

/-- Settles O59: each command by its own branch; levels ripen tick by tick, and the statement follows the first tick that is due. -/
theorem encoderCommandsComplete : Obligations.encoder_commands_complete := by
  unfold Obligations.encoder_commands_complete
  refine ⟨fun p a b z s => ⟨exec_encFilteredEdge_off, fun hon => ?_⟩, fun p s h => ripen_none h,
    fun p τ g rest s ht hτ hg he hgτ hrest _ => ?_,
    fun p rx s hon => ⟨receiver_faulted p rx s hon, exec_encReceiverOpen_ignored s p rx hon, receiver_cleared p rx s hon⟩,
    fun p rx fault s hoff => exec_encReceiverOpen_off s p rx fault hoff, fun p v s hu => ?_, fun p data par s => ?_⟩
  · intro x y k first since pin last
    exact ⟨sampleRx_rest s p a b z, fun e => mem_sampleRx_iff p s since pin e rfl rfl rfl, encFilteredEdge_on p a b z s hon⟩
  · intro x lv y t sgn
    have h : FirstDue s p τ g rest := ⟨ht, hτ, hg, he, hgτ, hrest⟩
    obtain ⟨hidle, hquad, hhall, hpulse⟩ := firstDue_counts h
    exact ⟨h.ripen_eq, h.enc_eq, fun e => h.hist_tick, (takeEdges_levelsOnly s p g).other, hidle, hquad, hhall, hpulse,
      firstDue_index h⟩
  · exact ⟨epSwlat_triggers p v s hu, exec_epPosWrite_ssi p v hu,
      fun hm => ⟨_, exec_epPosWrite p v hu hm, rd_wr_same .., rfl⟩, epCfgWrite_applies p v s hu⟩
  · intro x div bits len n held live
    have hlen : len = ssiLen s p := (ssiLen_eq s p).symm
    rw [hlen]
    refine ⟨ssiClock_extest, ssiClock_off, ssiClock_shape p s, exec_ssiFrameComplete_runs s data par p,
      ssiFrame_completes p data par s, fun hb hf hl => ?_,
      fun h => ⟨exec_ssiDataReturn_idle p (ssiWaits_false h), exec_ssiTimeout_idle p (ssiWaits_false h)⟩⟩
    have hw := ssiWaits_true hb hf hl
    intro high
    have hhigh : dHigh s p = high := dHigh_eq s p
    refine ⟨fun h => ⟨_, exec_ssiDataReturn p hw (hhigh.trans h), dReturned_bit p s (by decide), ?_, enc_setEnc_same .., rfl⟩,
      fun h => exec_ssiDataReturn_low p (hhigh.trans h),
      fun h => ⟨_, exec_ssiTimeout p hw h, dTimedOut_bit p s (by decide), dTimedOut_bit p s (by decide), rfl⟩,
      fun h => exec_ssiTimeout_early p h⟩
    exact dReturned_bit p s (by decide)

end Sys2Proof.Proofs
end

section
namespace Sys2Proof.Pipeline
open Sys2Proof Sys2Proof.Machine Sys2Proof.Safety Sys2Proof.Laws
open Sys2Proof.Proofs hiding stepped zeroWord

/-! ### States that the statements on faults, forwarding and pending copies leave out -/

/-- The device in Run with the loop locked, engine 0 and supervisor 0 as given, supervisor 0 privileged. -/
def runningDevice (engine supervisor : CoreS) : State :=
  { State.reset with
    regs := [(Reg.tbStat.addr 0 0, 1), (Reg.stAttn.addr 0 0, 1), (Reg.svCr.addr 0 2, 1)]
    cores := [(0, engine), (512, supervisor)] }

/-- Engine 0 stands at an address that is no instruction's. -/
def misalignedFetch : State := runningDevice { mode := .active, pc := 1 } {}

/-- The command names a word that is no reserved opcode, so it has no effect, the fetch included (R157, log entry 19). -/
theorem misalignedFetch_unmoved : exec (.reservedOpcode (.ce 0) 0) misalignedFetch = .next misalignedFetch := rfl

/-- Refutes O24: the clause on fetches speaks of every instruction command, and so of a RESERVED_OPCODE whose word is none; that
command changes nothing, where the statement has the engine stopped for its misaligned fetch. -/
theorem not_accessFaultsAndPoison : ¬ Obligations.access_faults_and_poison := by
  unfold Obligations.access_faults_and_poison
  rintro ⟨-, hfetch, -⟩
  obtain ⟨t, ht, hf⟩ := (hfetch (.ce 0) (.reservedOpcode (.ce 0) 0) misalignedFetch rfl (by decide +kernel)
    ⟨fun _ => rfl, fun h => absurd h (by decide)⟩ rfl rfl rfl rfl).1 (by decide +kernel)
  rw [misalignedFetch_unmoved] at ht
  obtain rfl : misalignedFetch = t := by simpa using ht
  have hstop : (misalignedFetch.core 0).mode = .stopped := (hf.1 (by decide)).1
  exact absurd hstop (by decide)

/-- Supervisor 0 has buffered a completion and reads IRQ_CLAIM. -/
def bufferedClaim : State := runningDevice {}
  { mode := .active, pc := 0, base := [(1, (wd claimAddr, false))]
    sb := [{ idx := 0, commit := false, addr := claimAddr, bytes := wordBytes 0 false }] }

/-- The read of IRQ_CLAIM drains the buffer first and then goes out as a far access (R136, R227). -/
theorem bufferedClaim_goes_far :
    ((after (.lw (.sv 0) 2 1 0) bufferedClaim).core 512).far.isSome = true := by decide +kernel

/-- Refutes O18: a supervisor's load of IRQ_CLAIM, which an entry of its store buffer holds, is served by the interrupt controller
and not by the buffer. -/
theorem not_nearLoadsComplete : ¬ Obligations.near_loads_complete := by
  unfold Obligations.near_loads_complete
  rintro ⟨-, -, hforward, -⟩
  obtain ⟨t, ht, -, hstep, -⟩ := hforward (.sv 0) 2 1 0 (wordBytes 0 false) bufferedClaim (by decide +kernel)
    (by decide +kernel) (.lw (.sv 0) 2 1 0, 4, false) (by simp) (by decide +kernel) (by decide +kernel) (by decide +kernel)
    (by decide +kernel)
  have hfar : (t.core 512).far = none := congrArg CoreS.far hstep
  have hgone := bufferedClaim_goes_far
  rw [after_eq ht, hfar] at hgone
  exact absurd hgone (by decide)

/-- Supervisor 0 has a pending copy of AEX that clears DZ. -/
def pendingClear : State := { runningDevice {} { mode := .active } with crPend := [(64 * 512 + 1, some 1)] }

/-- The clears of several writes of AEX add up in the pending copy (R202). -/
theorem pendingClear_adds : crPending (after (.mtcr (.sv 0) 1 0) pendingClear) 512 1 = some 1 := by decide +kernel

/-- Refutes O27: a supervisor's MTCR of 0 to AEX leaves the pending clear of an earlier one, where the statement has the pending copy
hold what this MTCR writes. -/
theorem not_controlRegistersComplete : ¬ Obligations.control_registers_complete := by
  unfold Obligations.control_registers_complete
  intro h
  obtain ⟨hmtcr, -⟩ := h (.sv 0) 0 0 1 pendingClear (by decide +kernel) (fun _ => by decide +kernel)
  obtain ⟨t, ht, -, -, hpend, -⟩ := hmtcr (by decide)
  have h0 : crPending t 512 1 = some 0 := hpend (by decide)
  have h1 := pendingClear_adds
  rw [after_eq ht, h0] at h1
  exact absurd h1 (by decide)

end Sys2Proof.Pipeline
end

section
namespace Sys2Proof.Pipeline
open Sys2Proof Sys2Proof.Machine Sys2Proof.Safety Sys2Proof.Laws
open Sys2Proof.Proofs hiding stepped zeroWord

/-! ### What the counting of the PMU leaves (R357–R364) -/

theorem coreNum_lt (c : Core) : coreNum c < 516 := by
  cases c with
  | ce n => exact (show n.val < 516 by omega)
  | sv v => exact (show 512 + v.val < 516 by omega)

/-- The address lies in the block of the PMU. -/
def inPmu (a : Nat) : Prop := 0x6A000000 ≤ a ∧ a < 0x6B000000

/-- The registers of the PMU lie in its block. -/
theorem addr_inPmu {r : Reg} {i j : Nat} (hr : r ∈ blockRegs 0x6A) (hi : i < r.info.ni) (hj : j < r.info.nj) :
    inPmu (r.addr i j) := by
  have hblock : ∀ q ∈ blockRegs 0x6A, q ≠ .ceCr ∧ q ≠ .svCr ∧ q.info.base / 0x1000000 = 0x6A := by decide
  obtain ⟨hc, hs, hb⟩ := hblock r hr
  obtain ⟨-, -, hfit, -⟩ := index_line r hc hs
  have h1 : r.info.si * i ≤ r.info.si * (r.info.ni - 1) := Nat.mul_le_mul_left _ (by omega)
  have h2 : r.info.sj * j ≤ r.info.sj * (r.info.nj - 1) := Nat.mul_le_mul_left _ (by omega)
  rw [addr_eq hc]
  exact ⟨by omega, by omega⟩

/-- Another register of the index lies outside the PMU's block. -/
theorem addr_not_inPmu {r : Reg} {i j : Nat} (hr : r.info.base / 0x1000000 ≠ 0x6A) (hc : r ≠ .ceCr) (hs : r ≠ .svCr)
    (hi : i < r.info.ni) (hj : j < r.info.nj) : ¬ inPmu (r.addr i j) := by
  obtain ⟨-, -, hfit, -⟩ := index_line r hc hs
  have h1 : r.info.si * i ≤ r.info.si * (r.info.ni - 1) := Nat.mul_le_mul_left _ (by omega)
  have h2 : r.info.sj * j ≤ r.info.sj * (r.info.nj - 1) := Nat.mul_le_mul_left _ (by omega)
  rw [addr_eq hc]
  rintro ⟨h3, h4⟩
  omega

theorem addr_ceCr (n j : Nat) : Reg.ceCr.addr n j = 0x6F000400 + n / 8 * 0x1000 + n % 8 * 0x100 + 4 * j := rfl

theorem addr_svCr (n j : Nat) : Reg.svCr.addr n j = 0x100000000 + 256 * n + 4 * j := rfl

/-- Where the control registers of engines and of supervisors lie. -/
theorem crKey_ge (n j : Nat) : 0x6F000400 ≤ crKey n j := by
  unfold crKey crReg crIdx
  split
  · rw [addr_ceCr]; omega
  · rw [addr_svCr]; omega

theorem crKey_not_inPmu (n j : Nat) : ¬ inPmu (crKey n j) := fun h => absurd (crKey_ge n j) (Nat.not_le.2 (h.2.trans (by decide)))

/-- The control registers of one core are told apart by their numbers. -/
theorem crKey_inj {n i j : Nat} (h : crKey n i = crKey n j) : i = j := by
  unfold crKey crReg crIdx at h
  split at h
  · rw [addr_ceCr, addr_ceCr] at h; omega
  · rw [addr_svCr, addr_svCr] at h; omega

/-- Of the state, only what the PMU keeps differs. -/
structure PmuOnly (s t : State) : Prop where
  rest : { t with regs := s.regs, pmu := s.pmu } = s
  regs : regsKept s t []

namespace PmuOnly

variable {s t u : State}

theorem refl (s : State) : PmuOnly s s := ⟨rfl, fun _ _ _ => rfl⟩

theorem trans (h : PmuOnly s t) (g : PmuOnly t u) : PmuOnly s u := by
  refine ⟨?_, fun a ha hx => (g.regs a ha hx).trans (h.regs a ha hx)⟩
  have e := congrArg (fun v : State => { v with regs := s.regs, pmu := s.pmu }) g.rest
  exact e.trans h.rest

/-- A write of one of its registers. -/
theorem wr (s : State) {r : Reg} {i j : Nat} (v : Word) (hr : r ∈ blockRegs 0x6A) (hi : i < r.info.ni) (hj : j < r.info.nj) :
    PmuOnly s (s.wr r i j v) := by
  refine ⟨rfl, fun a ha _ => tget_tput_ne _ _ _ _ _ fun e => ha ?_⟩
  rw [e]
  exact addr_inPmu hr hi hj

theorem pmu (s : State) (x : PmuS) : PmuOnly s { s with pmu := x } := ⟨rfl, fun _ _ _ => rfl⟩

theorem when (b : Bool) {f : State → State} (h : PmuOnly s (f s)) : PmuOnly s (s.when b f) := by
  cases b
  · exact refl s
  · exact h

theorem ite {p : Prop} [Decidable p] (ht : PmuOnly s t) (hu : PmuOnly s u) : PmuOnly s (if p then t else u) := by
  split
  · exact ht
  · exact hu

theorem forN {n : Nat} {f : State → Nat → State} (s : State) (h : ∀ t i, i < n → PmuOnly t (f t i)) : PmuOnly s (s.forN n f) :=
  forN_keeps_lt (PmuOnly s) (fun t i hi ht => ht.trans (h t i hi)) (refl s)

theorem cores (h : PmuOnly s t) : t.cores = s.cores := (congrArg State.cores h.rest :)
theorem fm (h : PmuOnly s t) : t.fm = s.fm := (congrArg State.fm h.rest :)
theorem mem (h : PmuOnly s t) : t.mem = s.mem := (congrArg State.mem h.rest :)
theorem chk (h : PmuOnly s t) : t.chk = s.chk := (congrArg State.chk h.rest :)
theorem vld (h : PmuOnly s t) : t.vld = s.vld := (congrArg State.vld h.rest :)
theorem crPend (h : PmuOnly s t) : t.crPend = s.crPend := (congrArg State.crPend h.rest :)

theorem core (h : PmuOnly s t) (n : Nat) : t.core n = s.core n := by rw [State.core, h.cores, State.core]

theorem rd (h : PmuOnly s t) {r : Reg} {i j : Nat} (ha : ¬ inPmu (r.addr i j)) : t.rd r i j = s.rd r i j :=
  h.regs _ ha (by simp)

end PmuOnly

theorem svBump_pmuOnly (s : State) {n c : Nat} (hn : n < 4) (hc : c < 8) : PmuOnly s (svBump s n c) := by
  have wr (t : State) {r : Reg} {j : Nat} (v : Word) (hr : r ∈ [Reg.pmuCnt, .pmuOvf, .pmuSkid]) (hj : j < r.info.nj) :
      PmuOnly t (t.wr r n j v) := by
    have hin : ∀ q ∈ [Reg.pmuCnt, .pmuOvf, .pmuSkid], q ∈ blockRegs 0x6A ∧ q.info.ni = 4 := by decide
    obtain ⟨hb, hni⟩ := hin r hr
    exact .wr t v hb (hni ▸ hn) hj
  exact .ite (((wr s (r := .pmuCnt) 0 (by decide) hc).trans (wr _ (r := .pmuOvf) (j := 0) _ (by decide) (by decide))).trans
    (wr _ (r := .pmuSkid) (j := 0) _ (by decide) (by decide))) (wr s (r := .pmuCnt) _ (by decide) hc)

theorem countSvAt_pmuOnly (priv : Bool) (s : State) {n : Nat} (hn : n < 4) (cls e a : Nat) :
    PmuOnly s (countSvAt priv s n cls e a) :=
  .ite (.refl s) (.forN s fun t _ hc => .when _ (svBump_pmuOnly t hn hc))

theorem countSv_pmuOnly (s : State) {n : Nat} (hn : n < 4) (cls e a : Nat) : PmuOnly s (countSv s n cls e a) :=
  countSvAt_pmuOnly _ s hn cls e a

theorem rowBump_pmuOnly (s : State) {k c : Nat} (hk : k < 64) (hc : c < 4) : PmuOnly s (rowBump s k c) :=
  .ite ((PmuOnly.wr s (r := .pmuRcnt) 0 (by decide) hk hc).trans (.wr _ (r := .pmuRctl) (j := 0) _ (by decide) hk (by decide)))
    (.wr s (r := .pmuRcnt) _ (by decide) hk hc)

theorem countRow_pmuOnly (s : State) {k : Nat} (hk : k < 64) (cls e : Nat) (eng : Option Nat) :
    PmuOnly s (countRow s k cls e eng) :=
  .forN s fun t _ hc => .when _ (rowBump_pmuOnly t hk hc)

theorem countRowMem_pmuOnly (s : State) (m who : Nat) : PmuOnly s (countRowMem s m who) := by
  unfold countRowMem
  split
  next hm => exact .ite (countRow_pmuOnly s (by omega) ..) (.ite (.refl s) (countRow_pmuOnly s (by omega) ..))
  · exact .refl s

theorem countCore_pmuOnly (s : State) {n : Nat} (hn : n < 516) (cls e : Nat) (re : Option Nat) :
    PmuOnly s (countCore s n cls e re) := by
  unfold countCore
  split
  · exact countSv_pmuOnly s (by omega) ..
  · cases re with
    | none => exact .refl s
    | some re => exact countRow_pmuOnly s (by omega) ..

theorem setTags_pmuOnly (s : State) (k : Nat) (ts : List TagRun) : PmuOnly s (setTags s k ts) := .pmu s _

theorem countIssue_pmuOnly (s : State) {n : Nat} (hn : n < 512) (idx pc waited : Nat) (done : Bool) :
    PmuOnly s (countIssue s n idx pc waited done) := by
  have hrow : PmuOnly s (countRow s (n / 8) 0 0 (some n)) := countRow_pmuOnly s (by omega) ..
  unfold countIssue
  refine hrow.trans (.ite ?_ (.refl _))
  exact .ite ((setTags_pmuOnly _ _ _).trans (.pmu _ _)) (.pmu _ _)

theorem tagDone_pmuOnly (s : State) (n idx : Nat) : PmuOnly s (tagDone s n idx) := by
  unfold tagDone
  extract_lets mine
  split
  · exact .refl s
  · exact setTags_pmuOnly ..

theorem dropTags_pmuOnly (s : State) (n cut : Nat) : PmuOnly s (dropTags s n cut) := setTags_pmuOnly ..

theorem countDone_pmuOnly (own : Option Word) (priv : Bool) (s : State) {n : Nat} (hn : n < 4) :
    PmuOnly s (countDone own priv s n) := by
  unfold countDone
  extract_lets w t
  have ht : PmuOnly s t := .ite (.wr s (r := .pmuSkid) (j := 0) _ (by decide) hn (by decide)) (.refl s)
  exact ht.trans (countSvAt_pmuOnly _ _ hn _ _ _)

theorem noteIssue_pmuOnly (s : State) (c : Nat) (done : Bool) : PmuOnly s (noteIssue s c done) := by
  unfold noteIssue
  extract_lets k
  split
  next h => exact countIssue_pmuOnly s h ..
  · exact .refl s

theorem noteDone_pmuOnly (s0 s : State) {c : Nat} (hc : c < 516) : PmuOnly s (noteDone s0 s c) := by
  unfold noteDone
  split
  next h => exact countDone_pmuOnly _ _ s (by omega)
  · exact .refl s

/-! ### What only one core changes -/

theorem onlyCore_refl (s : State) (n : Nat) (xs : List Nat) : onlyCore s s n xs := ⟨rfl, fun _ _ => rfl, fun _ _ _ => rfl⟩

theorem onlyCore_trans {s t u : State} {n : Nat} {xs : List Nat} (h : onlyCore s t n xs) (g : onlyCore t u n xs) :
    onlyCore s u n xs := by
  obtain ⟨h1, h2, h3⟩ := h
  obtain ⟨g1, g2, g3⟩ := g
  refine ⟨?_, fun m hm => (g2 m hm).trans (h2 m hm), fun a ha hx => (g3 a ha hx).trans (h3 a ha hx)⟩
  have e := congrArg (fun v : State => { v with cores := s.cores, regs := s.regs, pmu := s.pmu }) g1
  exact e.trans h1

theorem onlyCore_mono {s t : State} {n : Nat} {xs ys : List Nat} (h : onlyCore s t n xs) (hs : xs ⊆ ys) : onlyCore s t n ys :=
  ⟨h.1, h.2.1, fun a ha hx => h.2.2 a ha fun hm => hx (hs hm)⟩

theorem PmuOnly.onlyCore {s t : State} (h : PmuOnly s t) (n : Nat) (xs : List Nat) : onlyCore s t n xs := by
  refine ⟨?_, fun m _ => h.core m, fun a ha _ => h.regs a ha (by simp)⟩
  have e := congrArg (fun v : State => { v with cores := s.cores }) h.rest
  exact e

theorem setCore_onlyCore (s : State) (n : Nat) (k : CoreS) (xs : List Nat) : onlyCore s (s.setCore n k) n xs := by
  refine ⟨rfl, fun m hm => ?_, fun _ _ _ => rfl⟩
  rw [core_setCore, if_neg hm]

theorem crSet_onlyCore (s : State) (n j : Nat) (v : Word) {xs : List Nat} (h : crKey n j ∈ xs) : onlyCore s (crSet s n j v) n xs :=
  ⟨rfl, fun _ _ => rfl, fun _ _ hx => tget_tput_ne _ _ _ _ _ fun e => hx (e ▸ h)⟩

theorem markCr_onlyCore (s : State) (n : Nat) (pend act : List Nat) (xs : List Nat) : onlyCore s (markCr s n pend act) n xs := by
  unfold markCr
  split
  · exact onlyCore_refl ..
  · exact setCore_onlyCore ..

theorem onlyCore_rd {s t : State} {n : Nat} {xs : List Nat} (h : onlyCore s t n xs) {r : Reg} {i j : Nat}
    (ha : ¬ inPmu (r.addr i j)) (hx : r.addr i j ∉ xs) : t.rd r i j = s.rd r i j := h.2.2 _ ha hx

/-- A control register that is no counter of the PMU and not among those changed. -/
theorem onlyCore_crAct {s t : State} {n m : Nat} {xs : List Nat} (h : onlyCore s t n xs) {j : Nat} (hj : ¬ (512 ≤ m ∧ 24 ≤ j ∧ j < 32))
    (hx : crKey m j ∉ xs) : crAct t m j = crAct s m j := by
  unfold crAct
  rw [if_neg hj, if_neg hj]
  exact onlyCore_rd h (crKey_not_inPmu m j) hx

theorem PmuOnly.crAct {s t : State} (h : PmuOnly s t) {m j : Nat} (hj : ¬ (512 ≤ m ∧ 24 ≤ j ∧ j < 32)) :
    crAct t m j = crAct s m j := onlyCore_crAct (h.onlyCore 0 []) hj (by simp)

theorem crAct_eq (s : State) {n j : Nat} (hj : ¬ (512 ≤ n ∧ 24 ≤ j ∧ j < 32)) : crAct s n j = s.rd (crReg n) (crIdx n) j := if_neg hj

theorem crAct_crSet_same (s : State) {n j : Nat} (v : Word) (hj : ¬ (512 ≤ n ∧ 24 ≤ j ∧ j < 32)) : crAct (crSet s n j v) n j = v := by
  rw [crAct_eq _ hj, crSet, rd_wr_same]

theorem crAct_crSet_ne (s : State) {n i j : Nat} (v : Word) (h : j ≠ i) (hj : ¬ (512 ≤ n ∧ 24 ≤ j ∧ j < 32)) :
    crAct (crSet s n i v) n j = crAct s n j :=
  onlyCore_crAct (crSet_onlyCore s n i v (xs := [crKey n i]) (by simp)) hj (by simpa using fun e => h (crKey_inj e))

@[simp] theorem core_crSet (s : State) (n j m : Nat) (v : Word) : (crSet s n j v).core m = s.core m := rfl

theorem precise_congr {s t : State} {c : Nat} (h : crAct t c 1 = crAct s c 1) : precise t c = precise s c := by
  rw [precise, h, precise]

end Sys2Proof.Pipeline
end

section
namespace Sys2Proof.Pipeline
open Sys2Proof Sys2Proof.Machine Sys2Proof.Safety Sys2Proof.Laws
open Sys2Proof.Proofs hiding stepped zeroWord

/-! ### The general registers of a core (R129–R131, R153) -/

theorem seen_zero (k : CoreS) : seen k 0 = (0, false) := rfl

/-- A register is read from the flight, the register file and the count of instructions alone. -/
theorem seen_congr {k l : CoreS} (hi : l.infl = k.infl) (hb : l.base = k.base) (hs : l.seq = k.seq) (r : Nat) :
    seen l r = seen k r := by
  unfold seen
  rw [hi, hb, hs]

theorem base_regPut (k : CoreS) (r j : Nat) (v : Word) (p : Bool) : tget (fun _ => (0, false)) (regPut k r v p).base j =
    if r ≠ 0 ∧ j = r then (v, p) else tget (fun _ => (0, false)) k.base j := by
  unfold regPut
  by_cases h : r = 0
  · simp [h]
  · simp only [h, if_false, ne_eq, not_false_eq_true, true_and, tget_tput]

/-- A write of a general register changes the register file alone. -/
theorem regPut_rest (k : CoreS) (r : Nat) (v : Word) (p : Bool) : { regPut k r v p with base := k.base } = k := by
  unfold regPut
  split <;> rfl

/-- The results `ps`, newest first, written to the register file. -/
def written (k : CoreS) (ps : List Producer) : CoreS := ps.foldr (fun p c => regPut c p.reg p.val p.poison) k

theorem written_rest (k : CoreS) (ps : List Producer) : { written k ps with base := k.base } = k := by
  induction ps with
  | nil => rfl
  | cons p ps ih =>
    have e := congrArg (fun c : CoreS => { c with base := k.base }) (regPut_rest (written k ps) p.reg p.val p.poison)
    exact e.trans ih

/-- The newest of the results written to a register is what it holds. -/
theorem written_base (k : CoreS) (ps : List Producer) {r : Nat} (hr : r ≠ 0) :
    tget (fun _ => (0, false)) (written k ps).base r =
      match ps.find? (fun p => p.reg == r) with
      | some p => (p.val, p.poison)
      | none => tget (fun _ => (0, false)) k.base r := by
  induction ps with
  | nil => rfl
  | cons p ps ih =>
    show tget _ (regPut (written k ps) p.reg p.val p.poison).base r = _
    rw [base_regPut, List.find?_cons]
    by_cases h : p.reg = r
    · rw [if_pos ⟨h ▸ hr, h.symm⟩, beq_iff_eq.2 h]
    · rw [if_neg fun e => h e.2.symm, beq_eq_false_iff_ne.2 h]
      exact ih

/-- The results that stay in flight, and those that leave it. -/
def staying (k : CoreS) : List Producer :=
  (k.infl.reverse.dropWhile (fun p => decide (p.idx + Nat.max p.d 4 ≤ k.seq))).reverse

def leaving (k : CoreS) : List Producer :=
  (k.infl.reverse.takeWhile (fun p => decide (p.idx + Nat.max p.d 4 ≤ k.seq))).reverse

theorem staying_append_leaving (k : CoreS) : staying k ++ leaving k = k.infl := by
  rw [staying, leaving, ← List.reverse_append, List.takeWhile_append_dropWhile, List.reverse_reverse]

theorem leaving_due {k : CoreS} {p : Producer} (h : p ∈ leaving k) : p.idx + Nat.max p.d 4 ≤ k.seq := by
  have h' := List.mem_takeWhile_imp (List.mem_reverse.1 h)
  simpa using h'

theorem retire_eq (k : CoreS) : retire k = { written k (leaving k) with infl := staying k } := by
  have hdrop : k.infl.drop (staying k).length = leaving k := by
    rw [← staying_append_leaving k, List.drop_left]
  show ({ (k.infl.drop (staying k).length).foldr (fun p c => regPut c p.reg p.val p.poison) k with infl := staying k } : CoreS) = _
  rw [hdrop]
  rfl

theorem retire_rest (k : CoreS) : { retire k with base := k.base, infl := k.infl } = k := by
  rw [retire_eq]
  have e := congrArg (fun c : CoreS => { c with infl := k.infl }) (written_rest k (leaving k))
  exact e

/-- Leaving the flight changes no register's value. -/
theorem seen_retire (k : CoreS) (r : Nat) : seen (retire k) r = seen k r := by
  by_cases hr : r = 0
  · subst hr; rfl
  have hseq : (retire k).seq = k.seq := (congrArg CoreS.seq (retire_rest k) :)
  have hinfl : (retire k).infl = staying k := by rw [retire_eq]
  have hbase : (retire k).base = (written k (leaving k)).base := by rw [retire_eq]
  have hfind : (leaving k).find? (fun p => p.reg == r && decide (p.idx + p.d ≤ k.seq)) = (leaving k).find? (fun p => p.reg == r) := by
    refine List.find?_congr fun p hp => ?_
    have hd := leaving_due hp
    have hmax : p.d ≤ Nat.max p.d 4 := Nat.le_max_left ..
    simp [show p.idx + p.d ≤ k.seq by omega]
  unfold seen
  rw [if_neg hr, if_neg hr, hseq, hinfl, hbase, written_base _ _ hr]
  conv_rhs => rw [← staying_append_leaving k, List.find?_append, hfind]
  cases (staying k).find? (fun p => p.reg == r && decide (p.idx + p.d ≤ k.seq)) <;> rfl

/-- The newest result stays in flight until its instruction is past W. -/
theorem retire_head {k : CoreS} {p : Producer} (h : k.infl.head? = some p) (hp : k.seq < p.idx + 4) :
    (retire k).infl.head? = some p := by
  have hinfl : (retire k).infl = staying k := by rw [retire_eq]
  have happ := staying_append_leaving k
  rw [hinfl]
  cases hs : staying k with
  | cons q qs =>
    rw [hs, List.cons_append] at happ
    rw [← happ] at h
    exact h
  | nil =>
    rw [hs, List.nil_append] at happ
    rw [← happ] at h
    have hd := leaving_due (List.mem_of_mem_head? (Option.mem_def.2 h))
    have hmax : 4 ≤ Nat.max p.d 4 := Nat.le_max_right ..
    omega

/-! ### What an instruction delivers (R130, R131) -/

/-- The producer that a result becomes. -/
def producer (k : CoreS) (o : Out) : Producer := { idx := k.seq, d := o.d, reg := o.reg, val := o.val, poison := o.poison }

theorem produce_nil (k : CoreS) : produce k [] = k := rfl

theorem produce_append (k : CoreS) (os : List Out) (o : Out) :
    produce k (os ++ [o]) = if o.reg = 0 then produce k os else { produce k os with infl := producer k o :: (produce k os).infl } := by
  unfold produce
  rw [List.foldl_append]
  simp only [List.foldl_cons, List.foldl_nil, producer]
  split <;> rfl

theorem produce_rest (k : CoreS) (os : List Out) : { produce k os with infl := k.infl } = k := rfl

/-- What the next instruction of `k` reads, were `k`'s one to deliver nothing. -/
def next (k : CoreS) : CoreS := { k with seq := k.seq + 1 }

/-- `l` is `k` after an instruction that is no branch and that delivered `os`. -/
structure Completed (k l : CoreS) (os : List Out) : Prop where
  step : { l with base := k.base, infl := k.infl, undo := k.undo, stepOne := k.stepOne } =
    { k with seq := k.seq + 1, pc := nextPc k, pcs := (k.pc :: k.pcs).take 3, slot := none, held := false, waited := 0, atM := false,
             skid := none }
  regs : ∀ r, seen l r = seen (next (produce k os)) r
  head : ∀ p, (produce k os).infl.head? = some p → p.idx = k.seq → l.infl.head? = some p

/-- The core after `finish`. -/
def finished (k : CoreS) (os : List Out) : CoreS :=
  retire (advance { produce k os with seq := k.seq + 1, pcs := (k.pc :: k.pcs).take 3, held := false, atM := false, skid := none,
                                      waited := 0, undo := k.undo.filter (fun u => decide (k.seq < u.idx + 3)) })

theorem finish_eq (s : State) (c : Nat) (os : List Out) : finish s c os = s.setCore c (finished (s.core c) os) := rfl

theorem advance_eq (k : CoreS) : advance k = { k with pc := nextPc k, slot := none } := by
  unfold advance nextPc
  cases h : k.slot with
  | none => simp only [Option.getD_none]
  | some t => rfl

theorem finished_completed (k : CoreS) (os : List Out) : Completed k (finished k os) os := by
  unfold finished
  rw [advance_eq]
  generalize hl : ({ produce k os with seq := k.seq + 1, pcs := (k.pc :: k.pcs).take 3, held := false, atM := false, skid := none,
                                       waited := 0, undo := k.undo.filter (fun u => decide (k.seq < u.idx + 3)) } : CoreS) = l
  have hseq : l.seq = k.seq + 1 := by rw [← hl]
  have hinfl : l.infl = (produce k os).infl := by rw [← hl]
  have hbase : l.base = k.base := by rw [← hl]; rfl
  refine ⟨?_, fun r => ?_, fun p hp hidx => ?_⟩
  · have e := congrArg (fun c : CoreS => { c with base := k.base, infl := k.infl, undo := k.undo, stepOne := k.stepOne })
      (retire_rest { l with pc := nextPc l, slot := none })
    rw [← hl] at e ⊢
    exact e
  · rw [seen_retire]
    exact seen_congr (k := next (produce k os)) hinfl hbase hseq r
  · refine retire_head (show l.infl.head? = some p by rw [hinfl, hp]) ?_
    show l.seq < p.idx + 4
    omega

/-- The core after `finish` depends on nothing that `endStep` or the wait under PRECISE changes. -/
theorem Completed.congr {k l k' l' : CoreS} {os : List Out} (h : Completed k l os) (hi : l'.infl = l.infl) (hb : l'.base = l.base)
    (hs : l'.seq = l.seq) (ki : k'.infl = k.infl) (kb : k'.base = k.base) (ks : k'.seq = k.seq)
    (step : { l' with base := k'.base, infl := k'.infl, undo := k'.undo, stepOne := k'.stepOne } =
      { k' with seq := k'.seq + 1, pc := nextPc k', pcs := (k'.pc :: k'.pcs).take 3, slot := none, held := false, waited := 0,
                atM := false, skid := none }) : Completed k' l' os := by
  have hprod : (produce k' os).infl = (produce k os).infl := by
    unfold produce
    rw [ki, ks]
  refine ⟨step, fun r => ?_, fun p hp hidx => ?_⟩
  · rw [seen_congr hi hb hs, h.regs]
    exact (seen_congr (k := next (produce k os)) (l := next (produce k' os)) hprod kb (congrArg (· + 1) ks) r).symm
  · rw [hi]
    exact h.head p (hprod ▸ hp) (hidx.trans ks)

end Sys2Proof.Pipeline
end

section
namespace Sys2Proof.Pipeline
open Sys2Proof Sys2Proof.Machine Sys2Proof.Safety Sys2Proof.Laws
open Sys2Proof.Proofs hiding stepped zeroWord

/-! ### Registers after an instruction's results (R129–R131) -/

/-- The newest result of a register counts once it is past its distance. -/
theorem seen_cons {k : CoreS} {r : Nat} (hr : r ≠ 0) (p : Producer) (l : List Producer) (n : Nat) :
    seen { k with infl := p :: l, seq := n } r =
      if p.reg = r ∧ p.idx + p.d ≤ n then (p.val, p.poison) else seen { k with infl := l, seq := n } r := by
  unfold seen
  simp only [if_neg hr]
  by_cases h : p.reg = r ∧ p.idx + p.d ≤ n
  · rw [if_pos h, List.find?_cons_of_pos (by simp [h.1, h.2])]
  · rw [if_neg h, List.find?_cons_of_neg (by simpa using h)]

/-- A result shows at once if its distance is 1; a later one is in flight. -/
theorem seen_produce_snoc (k : CoreS) (os : List Out) (o : Out) (r : Nat) : seen (next (produce k (os ++ [o]))) r =
    if o.reg ≠ 0 ∧ r = o.reg ∧ o.d ≤ 1 then (o.val, o.poison) else seen (next (produce k os)) r := by
  rw [produce_append]
  by_cases h0 : o.reg = 0
  · simp [h0]
  rw [if_neg h0]
  by_cases hr : r = 0
  · subst hr
    rw [if_neg fun h => h0 h.2.1.symm]
    rfl
  have hcons := seen_cons (k := produce k os) hr (producer k o) (produce k os).infl (k.seq + 1)
  have hd : (producer k o).idx + (producer k o).d ≤ k.seq + 1 ↔ o.d ≤ 1 := by
    show k.seq + o.d ≤ k.seq + 1 ↔ _
    omega
  exact hcons.trans (if_congr ⟨fun h => ⟨h0, h.1.symm, hd.1 h.2⟩, fun h => ⟨h.2.1.symm, hd.2 h.2.2⟩⟩ rfl rfl)

/-- The file, the flight and the count of instructions of `l` are those of `k`. -/
def SameRegs (k l : CoreS) : Prop := l.infl = k.infl ∧ l.base = k.base ∧ l.seq = k.seq

theorem SameRegs.refl (k : CoreS) : SameRegs k k := ⟨rfl, rfl, rfl⟩

theorem SameRegs.next {k l : CoreS} (h : SameRegs k l) (r : Nat) : seen (next l) r = seen { k with seq := k.seq + 1 } r :=
  seen_congr (k := { k with seq := k.seq + 1 }) (l := Pipeline.next l) h.1 h.2.1 (congrArg (· + 1) h.2.2) r

theorem head_produce_snoc (k : CoreS) (os : List Out) (o : Out) (h : o.reg ≠ 0) :
    (produce k (os ++ [o])).infl.head? = some (producer k o) := by
  rw [produce_append, if_neg h]
  rfl

/-! ### The end of an instruction (R339, R361) -/

theorem endStep_onlyCore (s : State) (c : Nat) (xs : List Nat) : onlyCore s (endStep s c) c xs := by
  unfold endStep
  extract_lets k
  split
  · exact setCore_onlyCore ..
  · exact onlyCore_refl ..

/-- A debug step is over where its instruction neither waits nor is under way. -/
theorem endStep_core {s : State} {c : Nat} (hh : (s.core c).held = false) (hf : (s.core c).far = none) (hl : (s.core c).long = none) :
    (endStep s c).core c = { s.core c with stepOne := false } := by
  unfold endStep
  by_cases hs : (s.core c).stepOne = true
  · rw [if_pos ⟨hs, by simp [hh], by simp [hf, hl]⟩, core_setCore_same]
  · rw [if_neg fun h => hs h.1, ← Bool.not_eq_true _ |>.mp hs]

theorem endStep_held {s : State} {c : Nat} (hh : (s.core c).held = true) : endStep s c = s := by
  unfold endStep
  simp [hh]

theorem endStep_far {s : State} {c : Nat} (hf : (s.core c).far.isSome = true) : endStep s c = s := by
  unfold endStep
  rw [Option.isSome_iff_ne_none] at hf
  simp [hf]

/-- What an issued instruction leaves whose own work makes `b` of the state: `k` is the core before its results `os`, and what it
did besides has been done. -/
structure Performed (b t : State) (c : Nat) (k : CoreS) (os : List Out) : Prop where
  step : stepped k (t.core c)
  regs : ∀ r, reg t c r = seen (next (produce k os)) r
  head : ∀ p, (produce k os).infl.head? = some p → p.idx = k.seq → (t.core c).infl.head? = some p
  frame : onlyCore b t c []

/-- The end of an instruction that neither waits nor is under way. -/
theorem ended (s : State) {b : State} {c : Nat} (hc : c < 516) (hh : (b.core c).held = false) (hf : (b.core c).far = none)
    (hl : (b.core c).long = none) : (endStep (noteDone s b c) c).core c = { b.core c with stepOne := false } ∧
      onlyCore b (endStep (noteDone s b c) c) c [] := by
  have hp : PmuOnly b (noteDone s b c) := noteDone_pmuOnly s b hc
  have hcore : (noteDone s b c).core c = b.core c := hp.core c
  refine ⟨?_, onlyCore_trans (hp.onlyCore c []) (endStep_onlyCore _ c [])⟩
  rw [endStep_core (by rw [hcore, hh]) (by rw [hcore, hf]) (by rw [hcore, hl]), hcore]

/-- The end of an instruction that has completed. -/
theorem performed_end (s : State) {b : State} {c : Nat} (hc : c < 516) {k : CoreS} {os : List Out} (h : Completed k (b.core c) os)
    (hf : k.far = none) (hl : k.long = none) : Performed b (endStep (noteDone s b c) c) c k os := by
  obtain ⟨hend, hframe⟩ := ended s (b := b) hc (congrArg CoreS.held h.step :) ((congrArg CoreS.far h.step :).trans hf)
    ((congrArg CoreS.long h.step :).trans hl)
  refine ⟨?_, fun r => ?_, fun p hp' hidx => ?_, hframe⟩
  · rw [hend]
    have e := congrArg (fun l : CoreS => { l with stepOne := false }) h.step
    exact e
  · rw [reg, hend, ← h.regs]
    exact seen_congr rfl rfl rfl r
  · rw [hend]
    exact h.head p hp' hidx

/-- The part of the state that `onlyCore` lets differ does not matter to what holds the core. -/
theorem stepped_congr {k k' l : CoreS} (h : stepped k l) (e : { k' with base := k.base, infl := k.infl, undo := k.undo } = k) :
    stepped k' l := by
  have e' : { k with base := k'.base, infl := k'.infl, undo := k'.undo } = k' :=
    (congrArg (fun c : CoreS => { c with base := k'.base, infl := k'.infl, undo := k'.undo }) e).symm
  have g := congrArg (fun c : CoreS => { c with base := k'.base, infl := k'.infl, undo := k'.undo }) h
  have f := congrArg (fun c : CoreS => ({ c with seq := c.seq + 1, pc := nextPc c, pcs := (c.pc :: c.pcs).take 3, slot := none, held := false, waited := 0, atM := false, skid := none, stepOne := false } : CoreS)) e'
  exact g.trans f

/-- The registers behind an instruction that delivers nothing, or one result at once. -/
theorem regsSet_nil {s t : State} {c : Nat} {k : CoreS} (h : ∀ r, reg t c r = seen (next (produce k [])) r)
    (hk : SameRegs (s.core c) k) : regsSet s t c 0 (0, false) := by
  intro r
  rw [h, produce_nil]
  by_cases hr : r = 0
  · subst hr; rfl
  · rw [if_neg hr, if_neg hr, hk.next]

theorem regsSet_now {s t : State} {c : Nat} {k : CoreS} {rd : Nat} {v : Word} {p : Bool}
    (h : ∀ r, reg t c r = seen (next (produce k [{ reg := rd, d := 1, val := v, poison := p }])) r)
    (hk : SameRegs (s.core c) k) : regsSet s t c rd (v, p) := by
  intro r
  rw [h, ← List.nil_append [_], seen_produce_snoc, produce_nil]
  by_cases hr : r = 0
  · subst hr
    rw [if_neg fun e => e.1 e.2.1.symm]
    rfl
  · rw [if_neg hr, hk.next]
    refine if_congr ⟨fun e => e.2.1, fun e => ⟨fun h0 => hr (e.trans h0), e, le_rfl⟩⟩ rfl rfl

namespace Performed

variable {s b t : State} {c : Nat} {k : CoreS}

theorem regsSet_nil (h : Performed b t c k []) (hk : SameRegs (s.core c) k) : regsSet s t c 0 (0, false) :=
  Pipeline.regsSet_nil h.regs hk

theorem regsSet_now {rd : Nat} {v : Word} {p : Bool} (h : Performed b t c k [{ reg := rd, d := 1, val := v, poison := p }])
    (hk : SameRegs (s.core c) k) : regsSet s t c rd (v, p) :=
  Pipeline.regsSet_now h.regs hk

theorem regsSet_late {rd d : Nat} {v : Word} {p : Bool} (h : Performed b t c k [{ reg := rd, d := d, val := v, poison := p }])
    (hk : SameRegs (s.core c) k) (hd : 1 < d) : regsSet s t c 0 (0, false) := by
  intro r
  rw [h.regs, ← List.nil_append [_], seen_produce_snoc, produce_nil, if_neg fun e => absurd e.2.2 (Nat.not_le.2 hd)]
  by_cases hr : r = 0
  · subst hr; rfl
  · rw [if_neg hr, if_neg hr, hk.next]

theorem head_snoc {os : List Out} {rd d : Nat} {v : Word} {p : Bool}
    (h : Performed b t c k (os ++ [{ reg := rd, d := d, val := v, poison := p }])) (hk : SameRegs (s.core c) k) (hr : rd ≠ 0) :
    (t.core c).infl.head? = some { idx := (s.core c).seq, d := d, reg := rd, val := v, poison := p } := by
  rw [h.head _ (head_produce_snoc k os _ hr) rfl, producer, hk.2.2]

theorem delivers {rd d : Nat} {v : Word} {p : Bool} (h : Performed b t c k [{ reg := rd, d := d, val := v, poison := p }])
    (hk : SameRegs (s.core c) k) (hd : 1 ≤ d) : Safety.delivers s t c rd d (v, p) := by
  refine ⟨fun h1 => ?_, fun h1 => ⟨h.regsSet_late hk (by omega), fun hr => h.head_snoc (os := []) hk hr⟩⟩
  subst h1
  exact h.regsSet_now hk

end Performed

/-- The register and the word of a base update. -/
def updReg (upd : Option (Nat × Word)) : Nat := match upd with | some u => u.1 | none => 0
def updWord (upd : Option (Nat × Word)) : Word := match upd with | some u => u.2 | none => 0

/-- The base update of a post-modify load, with the loaded value behind it in flight (R165, R166). -/
theorem Performed.regsSet_upd {s b t : State} {c : Nat} {k : CoreS} {upd : Option (Nat × Word)} {rd d : Nat} {v : Word} {p : Bool}
    (h : Performed b t c k (updOut upd ++ [{ reg := rd, d := d, val := v, poison := p }]))
    (hk : SameRegs (s.core c) k) (hd : 1 < d) : regsSet s t c (updReg upd) (updWord upd, false) := by
  intro r
  rw [h.regs, seen_produce_snoc, if_neg fun e => absurd e.2.2 (Nat.not_le.2 hd)]
  by_cases hr : r = 0
  · subst hr; rfl
  rw [if_neg hr]
  cases upd with
  | none => rw [updReg, if_neg hr, show updOut none = [] from rfl, produce_nil, hk.next]
  | some u =>
    rw [show updOut (some u) = [] ++ [{ reg := u.1, d := 1, val := u.2 }] from rfl, seen_produce_snoc, produce_nil, hk.next]
    exact if_congr ⟨fun e => e.2.1, fun e => ⟨fun h0 => hr (e.trans h0), e, le_rfl⟩⟩ rfl rfl

/-! ### The issue of an instruction (R128–R134, R157) -/

/-- An instruction that needs nothing but its registers issues. -/
theorem issue_plain {s : State} {c : Nat} (rs : List Nat) (body : State → State) (h : issues s c = true) :
    issue s c { regs := rs } body = endStep (noteDone s (body s) c) c :=
  issue_issues { regs := rs } body h (by simp) (by simp) (by simp) (by simp) (by simp)

/-- One that may not stand in a delay slot. -/
theorem issue_noSlot {s : State} {c : Nat} (rs : List Nat) (body : State → State) (h : issues s c = true)
    (hs : (s.core c).slot = none) :
    issue s c { regs := rs, noSlot := true } body = endStep (noteDone s (body s) c) c :=
  issue_issues { regs := rs, noSlot := true } body h (fun _ => hs) (by simp) (by simp) (by simp) (by simp)

/-- An instruction's own work at issue, which completes it (`finish` after `noteIssue`). -/
theorem complete_core (s : State) (c : Nat) (os : List Out) : (complete s c os).core c = finished (s.core c) os := by
  rw [complete, finish_eq, core_setCore_same, (noteIssue_pmuOnly s c true).core]

theorem complete_onlyCore (s : State) (c : Nat) (os : List Out) (xs : List Nat) : onlyCore s (complete s c os) c xs :=
  onlyCore_trans ((noteIssue_pmuOnly s c true).onlyCore c xs) (setCore_onlyCore ..)

theorem complete_completed (s : State) (c : Nat) (os : List Out) : Completed (s.core c) ((complete s c os).core c) os := by
  rw [complete_core]
  exact finished_completed ..

end Sys2Proof.Pipeline
end

section
namespace Sys2Proof.Pipeline
open Sys2Proof Sys2Proof.Machine Sys2Proof.Safety Sys2Proof.Laws
open Sys2Proof.Proofs hiding stepped zeroWord

/-! ### A result with its AEX bits (R146, R148, R150) -/

/-- Noting what an imprecise fault would restore touches nothing else of the core. -/
theorem core_markCr (s : State) (c : Nat) (pend act : List Nat) : ∃ us, (markCr s c pend act).core c = { s.core c with undo := us } := by
  unfold markCr
  split
  · exact ⟨(s.core c).undo, rfl⟩
  · exact ⟨_, core_setCore_same ..⟩

theorem crAct_markCr (s : State) (c m j : Nat) (pend act : List Nat) (hj : ¬ (512 ≤ m ∧ 24 ≤ j ∧ j < 32)) :
    crAct (markCr s c pend act) m j = crAct s m j :=
  onlyCore_crAct (markCr_onlyCore s c pend act []) hj (by simp)

theorem setAex_onlyCore (s : State) {c : Nat} (hc : c < 516) (aex : Nat) : onlyCore s (setAex s c aex) c [crKey c 1] := by
  unfold setAex
  split
  · exact onlyCore_refl ..
  · have h1 := crSet_onlyCore s c 1 (crAct s c 1 ||| wd aex) (xs := [crKey c 1]) (by simp)
    extract_lets t
    split
    · exact onlyCore_trans h1 ((countSv_pmuOnly t (n := c - 512) (by omega) 0 3 0).onlyCore c _)
    · exact h1

theorem core_setAex (s : State) {c : Nat} (hc : c < 516) (aex m : Nat) : (setAex s c aex).core m = s.core m := by
  unfold setAex
  split
  · rfl
  · extract_lets t
    split
    · exact (countSv_pmuOnly t (n := c - 512) (by omega) 0 3 0).core m
    · rfl

theorem not_counter_one (c : Nat) : ¬ (512 ≤ c ∧ 24 ≤ 1 ∧ 1 < 32) := by omega

theorem crAct_setAex (s : State) {c : Nat} (hc : c < 516) (aex : Nat) : crAct (setAex s c aex) c 1 = crAct s c 1 ||| wd aex := by
  unfold setAex
  split
  next h => rw [h]; exact (BitVec.or_zero).symm
  · extract_lets t
    have ht : crAct t c 1 = crAct s c 1 ||| wd aex := crAct_crSet_same s _ (not_counter_one c)
    split
    · exact ((countSv_pmuOnly t (n := c - 512) (by omega) 0 3 0).crAct (not_counter_one c)).trans ht
    · exact ht

/-- The bits of an arithmetic condition leave PRECISE. -/
theorem precise_setAex (s : State) {c aex : Nat} (hc : c < 516) (h : aex < 16) : precise (setAex s c aex) c = precise s c := by
  have hbit : (wd aex).getLsbD 16 = false := by
    rw [wd, BitVec.getLsbD_ofNat, Nat.testBit_eq_false_of_lt (show aex < 2 ^ 16 by omega), Bool.and_false]
  have hor : bitOf (crAct s c 1 ||| wd aex) 16 = bitOf (crAct s c 1) 16 := by
    show (crAct s c 1 ||| wd aex).toNat.testBit 16 = (crAct s c 1).toNat.testBit 16
    rw [BitVec.testBit_toNat, BitVec.testBit_toNat, BitVec.getLsbD_or, hbit, Bool.or_false]
  rw [precise, crAct_setAex s hc, hor, precise]

/-- The wait that PRECISE sets behind a result of distance 3. -/
theorem core_preciseWait (s : State) (c d : Nat) :
    (preciseWait s c d).core c = { s.core c with wait := if d = 3 ∧ precise s c = true then 2 else (s.core c).wait } := by
  unfold preciseWait
  by_cases h : d = 3 ∧ precise s c = true
  · rw [if_pos (by simp [h.1, h.2]), core_setCore_same, if_pos h]
  · rw [if_neg (by simpa using fun hp hd => h ⟨hd, hp⟩), if_neg h]

theorem preciseWait_onlyCore (s : State) (c d : Nat) (xs : List Nat) : onlyCore s (preciseWait s c d) c xs := by
  unfold preciseWait
  split
  · exact setCore_onlyCore ..
  · exact onlyCore_refl ..

/-- The AEX bits `aex` of an instruction, and what an imprecise fault would restore of them. -/
def withAex (s : State) (c aex : Nat) : State := setAex (if aex = 0 then s else markCr s c [] [1]) c aex

/-- An instruction whose condition does not trap delivers its result. -/
theorem deliver_eq {s : State} {c rd d : Nat} {r : Res} {poison : Bool} (h : noTrap s c r.aex poison = true) :
    deliver s c rd d r poison =
      preciseWait (complete (withAex s c (if poison then 0 else r.aex)) c
        [{ reg := rd, d := d, val := r.val, poison := poison }]) c d := by
  refine if_neg ?_
  unfold noTrap imprecise at h
  cases poison
  · simp only [Bool.or_false, Bool.or_eq_true, Bool.not_eq_true', beq_iff_eq] at h
    rcases h with h | h <;> simp [h]
  · simp

theorem withAex_core (s : State) {c : Nat} (hc : c < 516) (aex : Nat) : ∃ us, (withAex s c aex).core c = { s.core c with undo := us } := by
  unfold withAex
  rw [core_setAex _ hc]
  split
  · exact ⟨_, rfl⟩
  · exact core_markCr ..

theorem marked_onlyCore (s : State) (c aex : Nat) (xs : List Nat) : onlyCore s (if aex = 0 then s else markCr s c [] [1]) c xs := by
  split
  · exact onlyCore_refl ..
  · exact markCr_onlyCore ..

theorem withAex_onlyCore (s : State) {c : Nat} (hc : c < 516) (aex : Nat) : onlyCore s (withAex s c aex) c [crKey c 1] :=
  onlyCore_trans (marked_onlyCore s c aex _) (setAex_onlyCore _ hc aex)

theorem crAct_marked (s : State) (c aex : Nat) : crAct (if aex = 0 then s else markCr s c [] [1]) c 1 = crAct s c 1 :=
  onlyCore_crAct (marked_onlyCore s c aex []) (not_counter_one c) (by simp)

theorem crAct_withAex (s : State) {c : Nat} (hc : c < 516) (aex : Nat) : crAct (withAex s c aex) c 1 = crAct s c 1 ||| wd aex := by
  rw [withAex, crAct_setAex _ hc, crAct_marked]

theorem precise_withAex (s : State) {c aex : Nat} (hc : c < 516) (ha : aex < 16) : precise (withAex s c aex) c = precise s c := by
  rw [withAex, precise_setAex _ hc ha, precise_congr (crAct_marked s c aex)]

theorem crAct_complete (s : State) (c : Nat) (os : List Out) : crAct (complete s c os) c 1 = crAct s c 1 :=
  onlyCore_crAct (complete_onlyCore s c os []) (not_counter_one c) (by simp)

/-- An instruction that completes and, under PRECISE, holds the next. -/
theorem preciseWait_completed (s : State) (c d : Nat) (os : List Out) :
    Completed { s.core c with wait := if d = 3 ∧ precise s c = true then 2 else (s.core c).wait }
      ((preciseWait (complete s c os) c d).core c) os := by
  have hdone := complete_completed s c os
  have hwait : ((complete s c os).core c).wait = (s.core c).wait := (congrArg CoreS.wait hdone.step :)
  rw [core_preciseWait, precise_congr (crAct_complete s c os), hwait]
  generalize (if d = 3 ∧ precise s c = true then 2 else (s.core c).wait) = w
  refine hdone.congr rfl rfl rfl rfl rfl rfl ?_
  have e := congrArg (fun l : CoreS => { l with wait := w }) hdone.step
  exact e

theorem deliver_arith_beside {s : State} {c rd d : Nat} {r : Res} {poison : Bool} (hfar : (s.core c).far = none)
    (hlong : (s.core c).long = none) (hc : c < 516) (hd : 1 ≤ d) (ha : r.aex < 16) (h : noTrap s c r.aex poison = true) :
    arith s (endStep (noteDone s (deliver s c rd d r poison) c) c) c rd d r.val r.aex poison := by
  rw [deliver_eq h]
  have hax : (if poison then 0 else r.aex) < 16 := by split <;> omega
  have hact : crAct (withAex s c (if poison then 0 else r.aex)) c 1 = crAct s c 1 ||| (if poison then 0 else wd r.aex) := by
    rw [crAct_withAex s hc]
    cases poison <;> rfl
  have hprec := precise_withAex s hc hax
  have honly := withAex_onlyCore s hc (if poison then 0 else r.aex)
  obtain ⟨us, hus⟩ := withAex_core s hc (if poison then 0 else r.aex)
  generalize withAex s c (if poison then 0 else r.aex) = s1 at *
  have hdone := preciseWait_completed s1 c d [{ reg := rd, d := d, val := r.val, poison := poison }]
  rw [hus, hprec] at hdone
  have honly' : onlyCore s1 (preciseWait (complete s1 c [{ reg := rd, d := d, val := r.val, poison := poison }]) c d) c [] :=
    onlyCore_trans (complete_onlyCore ..) (preciseWait_onlyCore ..)
  generalize preciseWait (complete s1 c [{ reg := rd, d := d, val := r.val, poison := poison }]) c d = b at *
  have hperf := performed_end s hc hdone hfar hlong
  have hframe := onlyCore_trans honly' hperf.frame
  refine ⟨hperf.delivers ⟨rfl, rfl, rfl⟩ hd, ?_, stepped_congr hperf.step rfl, onlyCore_trans honly (onlyCore_mono hframe (by simp))⟩
  rw [onlyCore_crAct hframe (not_counter_one c) (by simp), hact]

theorem deliver_arith {s : State} {c rd d : Nat} {r : Res} {poison : Bool} (hi : issues s c = true) (hc : c < 516) (hd : 1 ≤ d)
    (ha : r.aex < 16) (h : noTrap s c r.aex poison = true) :
    arith s (endStep (noteDone s (deliver s c rd d r poison) c) c) c rd d r.val r.aex poison := by
  obtain ⟨-, -, -, hfar, hlong, -⟩ := issues_core hi
  exact deliver_arith_beside hfar hlong hc hd ha h

/-- A condition whose bits are 0 never traps. -/
theorem noTrap_zero (s : State) (c : Nat) (poison : Bool) : noTrap s c 0 poison = true := by simp [noTrap]

/-- One source. -/
theorem op1_arith {s : State} {c : Nat} (rd ra d : Nat) (f : Word → Res) (h : issues s c = true) (hc : c < 516) (hd : 1 ≤ d)
    (ha : (f (reg s c ra).1).aex < 16) (ht : noTrap s c (f (reg s c ra).1).aex (reg s c ra).2 = true) :
    arith s (op1 s c rd ra d f) c rd d (f (reg s c ra).1).val (f (reg s c ra).1).aex (reg s c ra).2 := by
  unfold op1
  rw [issue_plain _ _ h]
  exact deliver_arith h hc hd ha ht

/-- Two sources. -/
theorem op2_arith {s : State} {c : Nat} (rd ra rb d : Nat) (f : Word → Word → Res) (h : issues s c = true) (hc : c < 516) (hd : 1 ≤ d)
    (ha : (f (reg s c ra).1 (reg s c rb).1).aex < 16)
    (ht : noTrap s c (f (reg s c ra).1 (reg s c rb).1).aex ((reg s c ra).2 || (reg s c rb).2) = true) :
    arith s (op2 s c rd ra rb d f) c rd d (f (reg s c ra).1 (reg s c rb).1).val (f (reg s c ra).1 (reg s c rb).1).aex
      ((reg s c ra).2 || (reg s c rb).2) := by
  unfold op2
  rw [issue_plain _ _ h]
  exact deliver_arith h hc hd ha ht

/-- Two sources and the destination as a third. -/
theorem op3_arith {s : State} {c : Nat} (rd ra rb d : Nat) (f : Word → Word → Word → Res) (h : issues s c = true) (hc : c < 516)
    (hd : 1 ≤ d) (ha : (f (reg s c ra).1 (reg s c rb).1 (reg s c rd).1).aex < 16)
    (ht : noTrap s c (f (reg s c ra).1 (reg s c rb).1 (reg s c rd).1).aex ((reg s c ra).2 || (reg s c rb).2 || (reg s c rd).2) = true) :
    arith s (op3 s c rd ra rb d f) c rd d (f (reg s c ra).1 (reg s c rb).1 (reg s c rd).1).val
      (f (reg s c ra).1 (reg s c rb).1 (reg s c rd).1).aex ((reg s c ra).2 || (reg s c rb).2 || (reg s c rd).2) := by
  unfold op3
  rw [issue_plain _ _ h]
  exact deliver_arith h hc hd ha ht

/-- Two sources, a value alone. -/
theorem op2_value {s : State} {c : Nat} (rd ra rb d : Nat) (f : Word → Word → Word) (h : issues s c = true) (hc : c < 516)
    (hd : 1 ≤ d) : arith s (op2 s c rd ra rb d fun a b => { val := f a b }) c rd d (f (reg s c ra).1 (reg s c rb).1) 0
      ((reg s c ra).2 || (reg s c rb).2) :=
  op2_arith rd ra rb d (fun a b => { val := f a b }) h hc hd (Nat.zero_lt_succ 15) (noTrap_zero ..)

/-- One source, a value alone. -/
theorem op1_value {s : State} {c : Nat} (rd ra d : Nat) (f : Word → Word) (h : issues s c = true) (hc : c < 516) (hd : 1 ≤ d) :
    arith s (op1 s c rd ra d fun a => { val := f a }) c rd d (f (reg s c ra).1) 0 (reg s c ra).2 :=
  op1_arith rd ra d (fun a => { val := f a }) h hc hd (Nat.zero_lt_succ 15) (noTrap_zero ..)

end Sys2Proof.Pipeline
end

section
namespace Sys2Proof.Pipeline
open Sys2Proof Sys2Proof.Machine Sys2Proof.Safety Sys2Proof.Laws
open Sys2Proof.Proofs hiding stepped zeroWord

/-! ### The words of integer results (R160, R161) -/

theorem wd_b2n (b : Bool) : wd (b2n b) = if b then 1 else 0 := by cases b <;> rfl

theorem toNat_wd (n : Nat) : (wd n).toNat = n % 2 ^ 32 := BitVec.toNat_ofNat ..

theorem toNat_wdi (z : Int) : ((wdi z).toNat : Int) = z % 2 ^ 32 := by
  rw [wdi, BitVec.toNat_ofInt]
  exact Int.toNat_of_nonneg (Int.emod_nonneg _ (by decide))

/-- A product of two sign-extended words, modulo 2^64. -/
theorem toNat_mul_signExtend (a b : Word) : ((a.signExtend 64 * b.signExtend 64).toNat : Int) = a.toInt * b.toInt % 2 ^ 64 := by
  have h := BitVec.toInt_mul (a.signExtend 64) (b.signExtend 64)
  rw [BitVec.toInt_signExtend_of_le (by decide), BitVec.toInt_signExtend_of_le (by decide)] at h
  have hm : ((a.signExtend 64 * b.signExtend 64).toInt) % 2 ^ 64 = a.toInt * b.toInt % 2 ^ 64 := by
    rw [h]
    exact Int.bmod_emod
  rw [← hm, BitVec.toInt_eq_toNat_bmod]
  have hlt := (a.signExtend 64 * b.signExtend 64).isLt
  have he := Int.bmod_emod (x := ((a.signExtend 64 * b.signExtend 64).toNat : Int)) (m := 2 ^ 64)
  omega

theorem wdi_mulh (a b : Word) : wdi (sgn a * sgn b / 2 ^ 32) = ((a.signExtend 64 * b.signExtend 64) >>> 32).truncate 32 := by
  have h := toNat_mul_signExtend a b
  have hw := toNat_wdi (sgn a * sgn b / 2 ^ 32)
  refine BitVec.eq_of_toNat_eq ?_
  rw [BitVec.truncate_eq_setWidth, BitVec.toNat_setWidth, BitVec.toNat_ushiftRight, Nat.shiftRight_eq_div_pow]
  rw [sgn, sgn] at hw ⊢
  generalize a.toInt * b.toInt = z at h hw ⊢
  omega

theorem wd_mulhu (a b : Word) : wd (a.toNat * b.toNat / 2 ^ 32) = ((a.zeroExtend 64 * b.zeroExtend 64) >>> 32).truncate 32 := by
  refine BitVec.eq_of_toNat_eq ?_
  have ha := a.isLt
  have hb := b.isLt
  have hab : a.toNat * b.toNat < 2 ^ 64 := by nlinarith
  rw [toNat_wd, BitVec.truncate_eq_setWidth, BitVec.toNat_setWidth, BitVec.toNat_ushiftRight, Nat.shiftRight_eq_div_pow, BitVec.toNat_mul,
    BitVec.zeroExtend_eq_setWidth, BitVec.toNat_setWidth, BitVec.zeroExtend_eq_setWidth, BitVec.toNat_setWidth,
    Nat.mod_eq_of_lt (a := a.toNat) (by omega), Nat.mod_eq_of_lt (a := b.toNat) (by omega), Nat.mod_eq_of_lt hab]

theorem slt_iff (a b : Word) : a.slt b = decide (sgn a < sgn b) := BitVec.slt_eq_decide ..

theorem sgn_inj {a b : Word} (h : sgn a = sgn b) : a = b := BitVec.eq_of_toInt_eq h

/-- The smaller of two words; where they are equal it is either. -/
theorem min_word (a b : Word) : (if sgn b < sgn a then b else a) = if a.slt b then a else b := by
  rw [slt_iff]
  simp only [decide_eq_true_eq]
  split_ifs with h1 h2 h2
  · omega
  · rfl
  · rfl
  · exact sgn_inj (by omega)

theorem max_word (a b : Word) : (if sgn a < sgn b then b else a) = if a.slt b then b else a := by
  rw [slt_iff]
  simp only [decide_eq_true_eq]

theorem wd_clz32 (a : Word) : wd (clz32 a) = wd (32 - a.toNat.size) := by
  unfold clz32
  by_cases h : a = 0
  · rw [if_pos h, h]; rfl
  · have hn : a.toNat ≠ 0 := fun e => h (BitVec.eq_of_toNat_eq e)
    have hs : a.toNat.size = Nat.log2 a.toNat + 1 := by
      refine le_antisymm (Nat.size_le.2 (Nat.lt_log2_self)) (Nat.lt_size.2 ?_)
      exact Nat.log2_self_le hn
    rw [if_neg h, hs, Nat.sub_add_eq 32 _ 1, Nat.sub_right_comm]

theorem zImm_shift (imm : BitVec 16) : zImm imm <<< 16 = imm ++ (0 : BitVec 16) := by
  refine BitVec.eq_of_toNat_eq ?_
  have h := imm.isLt
  rw [zImm, BitVec.toNat_shiftLeft, BitVec.zeroExtend_eq_setWidth, BitVec.toNat_setWidth, BitVec.toNat_append, Nat.shiftLeft_eq,
    Nat.shiftLeft_eq]
  show imm.toNat % 2 ^ 32 * 2 ^ 16 % 2 ^ 32 = imm.toNat * 2 ^ 16 ||| 0
  rw [Nat.or_zero, Nat.mod_eq_of_lt (a := imm.toNat) (by omega), Nat.mod_eq_of_lt (by omega)]

/-! ### The integer instructions (R160, R161) -/

section
variable {c : Core} {s : State}

/-- Two sources, a value alone, as an outcome. -/
theorem op2_gives {rd ra rb d : Nat} {f : Word → Word → Word} {v : Word} (h : issues s (coreNum c) = true) (hd : 1 ≤ d)
    (hv : f (reg s (coreNum c) ra).1 (reg s (coreNum c) rb).1 = v) :
    ∃ t, (.next (op2 s (coreNum c) rd ra rb d fun a b => { val := f a b }) : Host.Outcome State Fault Refusal) = .next t ∧
      arith s t (coreNum c) rd d v 0 ((reg s (coreNum c) ra).2 || (reg s (coreNum c) rb).2) :=
  ⟨_, rfl, hv ▸ op2_value rd ra rb d f h (coreNum_lt c) hd⟩

/-- One source, a value alone, as an outcome. -/
theorem op1_gives {rd ra d : Nat} {f : Word → Word} {v : Word} (h : issues s (coreNum c) = true) (hd : 1 ≤ d)
    (hv : f (reg s (coreNum c) ra).1 = v) :
    ∃ t, (.next (op1 s (coreNum c) rd ra d fun a => { val := f a }) : Host.Outcome State Fault Refusal) = .next t ∧
      arith s t (coreNum c) rd d v 0 (reg s (coreNum c) ra).2 :=
  ⟨_, rfl, hv ▸ op1_value rd ra d f h (coreNum_lt c) hd⟩

/-- SEL takes the register that its condition names, and its poison from all three (R161). -/
theorem sel_arith (rd ra rb rc : Fin 32) (h : issues s (coreNum c) = true) : ∃ t, exec (.sel c rd ra rb rc) s = .next t ∧
    arith s t (coreNum c) rd 1 (if (reg s (coreNum c) rc).1 = 0 then (reg s (coreNum c) rb).1 else (reg s (coreNum c) ra).1) 0
      ((reg s (coreNum c) ra).2 || (reg s (coreNum c) rb).2 || (reg s (coreNum c) rc).2) := by
  refine ⟨_, rfl, ?_⟩
  rw [issue_plain _ _ h]
  exact deliver_arith h (coreNum_lt c) le_rfl (Nat.zero_lt_succ 15) (noTrap_zero ..)

theorem integer_two (h : issues s (coreNum c) = true) (rd ra rb : Fin 32) :
    let n := coreNum c
    let a := (reg s n ra).1
    let b := (reg s n rb).1
    ∀ x ∈ [(Instr.add c rd ra rb, 1, a + b), (.sub c rd ra rb, 1, a - b), (.and c rd ra rb, 1, a &&& b),
        (.or c rd ra rb, 1, a ||| b), (.xor c rd ra rb, 1, a ^^^ b), (.sll c rd ra rb, 1, a <<< (b.toNat % 32)),
        (.srl c rd ra rb, 1, a >>> (b.toNat % 32)), (.sra c rd ra rb, 1, a.sshiftRight (b.toNat % 32)),
        (.min c rd ra rb, 1, if a.slt b then a else b), (.max c rd ra rb, 1, if a.slt b then b else a),
        (.mul c rd ra rb, 3, a * b),
        (.mulh c rd ra rb, 3, ((a.signExtend 64 * b.signExtend 64) >>> 32).truncate 32),
        (.mulhu c rd ra rb, 3, ((a.zeroExtend 64 * b.zeroExtend 64) >>> 32).truncate 32)],
      ∃ t, exec x.1 s = .next t ∧ arith s t n rd x.2.1 x.2.2 0 ((reg s n ra).2 || (reg s n rb).2) := by
  simp only [List.forall_mem_cons, List.not_mem_nil, false_imp_iff, implies_true, and_true]
  exact ⟨op2_gives (f := (· + ·)) h le_rfl rfl, op2_gives (f := (· - ·)) h le_rfl rfl, op2_gives (f := (· &&& ·)) h le_rfl rfl,
    op2_gives (f := (· ||| ·)) h le_rfl rfl, op2_gives (f := (· ^^^ ·)) h le_rfl rfl,
    op2_gives (f := fun a b => a <<< shAmt b) h le_rfl rfl, op2_gives (f := fun a b => a >>> shAmt b) h le_rfl rfl,
    op2_gives (f := fun a b => a.sshiftRight (shAmt b)) h le_rfl rfl, op2_gives h le_rfl (min_word ..), op2_gives h le_rfl (max_word ..),
    op2_gives (f := (· * ·)) h (by decide) rfl, op2_gives h (by decide) (wdi_mulh ..), op2_gives h (by decide) (wd_mulhu ..)⟩

theorem integer_one (h : issues s (coreNum c) = true) (rd ra : Fin 32) (imm : BitVec 16) (aux : BitVec 5) :
    let n := coreNum c
    let a := (reg s n ra).1
    ∀ x ∈ [(Instr.addi c rd ra imm, a + imm.signExtend 32), (.andi c rd ra imm, a &&& imm.zeroExtend 32),
        (.ori c rd ra imm, a ||| imm.zeroExtend 32), (.xori c rd ra imm, a ^^^ imm.zeroExtend 32),
        (.slli c rd ra aux, a <<< aux.toNat), (.srli c rd ra aux, a >>> aux.toNat),
        (.srai c rd ra aux, a.sshiftRight aux.toNat), (.clz c rd ra, wd (32 - a.toNat.size))],
      ∃ t, exec x.1 s = .next t ∧ arith s t n rd 1 x.2 0 (reg s n ra).2 := by
  simp only [List.forall_mem_cons, List.not_mem_nil, false_imp_iff, implies_true, and_true]
  exact ⟨op1_gives (f := (· + sImm imm)) h le_rfl rfl, op1_gives (f := (· &&& zImm imm)) h le_rfl rfl,
    op1_gives (f := (· ||| zImm imm)) h le_rfl rfl, op1_gives (f := (· ^^^ zImm imm)) h le_rfl rfl,
    op1_gives (f := (· <<< aux.toNat)) h le_rfl rfl, op1_gives (f := (· >>> aux.toNat)) h le_rfl rfl,
    op1_gives (f := (·.sshiftRight aux.toNat)) h le_rfl rfl, op1_gives h le_rfl (wd_clz32 _)⟩

theorem compare_two (h : issues s (coreNum c) = true) (rd ra rb : Fin 32) :
    let n := coreNum c
    let a := (reg s n ra).1
    let b := (reg s n rb).1
    ∀ x ∈ [(Instr.ceq c rd ra rb, a == b), (.clt c rd ra rb, a.slt b), (.cltu c rd ra rb, a.ult b)],
      ∃ t, exec x.1 s = .next t ∧ arith s t n rd 1 (if x.2 then 1 else 0) 0 ((reg s n ra).2 || (reg s n rb).2) := by
  simp only [List.forall_mem_cons, List.not_mem_nil, false_imp_iff, implies_true, and_true]
  refine ⟨op2_gives h le_rfl (wd_b2n _), op2_gives h le_rfl ?_, op2_gives h le_rfl (wd_b2n _)⟩
  rw [slt_iff]
  exact wd_b2n _

theorem compare_one (h : issues s (coreNum c) = true) (rd ra : Fin 32) (imm : BitVec 16) :
    let n := coreNum c
    let a := (reg s n ra).1
    ∀ x ∈ [(Instr.ceqi c rd ra imm, a == imm.signExtend 32), (.clti c rd ra imm, a.slt (imm.signExtend 32)),
        (.cltui c rd ra imm, a.ult (imm.signExtend 32))],
      ∃ t, exec x.1 s = .next t ∧ arith s t n rd 1 (if x.2 then 1 else 0) 0 (reg s n ra).2 := by
  simp only [List.forall_mem_cons, List.not_mem_nil, false_imp_iff, implies_true, and_true]
  refine ⟨op1_gives h le_rfl (wd_b2n _), op1_gives h le_rfl ?_, op1_gives h le_rfl (wd_b2n _)⟩
  rw [slt_iff]
  exact wd_b2n _

end

/-- Settles O11: every form is `op1`, `op2` or SEL, whose result `deliver_arith` describes; the words agree one by one. -/
theorem integerInstructionsComplete : Obligations.integer_instructions_complete := by
  refine ⟨fun c rd ra rb imm aux s h => ⟨integer_two h rd ra rb, integer_one h rd ra imm aux, ?_⟩,
    fun c rd ra rb rc imm s h => ⟨compare_two h rd ra rb, compare_one h rd ra imm, sel_arith rd ra rb rc h⟩⟩
  exact op1_gives (ra := 0) h le_rfl (zImm_shift imm)

/-! ### G0 and the other registers (R129) -/

/-- A result for G0 is none. -/
theorem regsSet_zero {s t : State} {n : Nat} {v w : Tagged} (h : regsSet s t n 0 v) : regsSet s t n 0 w := by
  intro r
  rw [h r]
  by_cases hr : r = 0
  · rw [if_pos hr, if_pos hr]
  · rw [if_neg hr, if_neg hr, if_neg hr, if_neg hr]

/-- Settles O35: G0 is no register of the file, and OR of a register with itself copies its word and its poison. -/
theorem generalRegisters : Obligations.general_registers := by
  refine ⟨fun s n => rfl, fun c ra rb rc s h => ?_, fun c rd ra s h hrd => ?_⟩
  · obtain ⟨t, ht, hdel, -⟩ := sel_arith 0 ra rb rc h
    exact ⟨t, ht, regsSet_zero (hdel.1 rfl)⟩
  · obtain ⟨t, ht, hdel, -⟩ := op2_gives (rd := rd) (ra := ra) (rb := ra) (f := (· ||| ·)) h le_rfl rfl
    refine ⟨t, ht, ?_⟩
    have hr := hdel.1 rfl rd
    have hne : (rd : Nat) ≠ 0 := fun e => hrd (Fin.ext e)
    rw [hr, if_neg hne, if_pos rfl, BitVec.or_self, Bool.or_self]

end Sys2Proof.Pipeline
end

section
namespace Sys2Proof.Pipeline
open Sys2Proof Sys2Proof.Machine Sys2Proof.Safety Sys2Proof.Laws
open Sys2Proof.Proofs hiding stepped zeroWord

/-! ### Saturated and rounded results (R148, R160, R162) -/

/-- A value limited to 32 bits is changed exactly where it lies outside them. -/
theorem satRes_eq (v : Int) (bit : Nat) :
    satRes v bit = { val := wdi (max (-2 ^ 31) (min (2 ^ 31 - 1) v)), aex := if -2 ^ 31 ≤ v ∧ v < 2 ^ 31 then 0 else bit } := by
  have hs : sat32 v = max (-2 ^ 31) (min (2 ^ 31 - 1) v) := rfl
  have hiff : sat32 v = v ↔ -2 ^ 31 ≤ v ∧ v < 2 ^ 31 := by rw [hs]; omega
  rw [satRes, hs]
  rw [hs] at hiff
  simp only [hiff]

theorem satRes16_eq (v : Int) (bit : Nat) :
    satRes16 v bit = { val := wdi (max (-2 ^ 15) (min (2 ^ 15 - 1) v)), aex := if -2 ^ 15 ≤ v ∧ v < 2 ^ 15 then 0 else bit } := by
  have hs : sat16 v = max (-2 ^ 15) (min (2 ^ 15 - 1) v) := rfl
  have hiff : sat16 v = v ↔ -2 ^ 15 ≤ v ∧ v < 2 ^ 15 := by rw [hs]; omega
  rw [satRes16, hs]
  rw [hs] at hiff
  simp only [hiff]

section
variable {c : Core} {s : State} {rd ra rb d : Nat} {r : Res}

/-- The AEX bits of a value limited to `n + 1` bits. -/
def limitBits (n : Nat) (v : Int) (bit : Nat) : Nat := if -2 ^ n ≤ v ∧ v < 2 ^ n then 0 else bit

/-- A value limited to `n + 1` bits. -/
def limited (n : Nat) (v : Int) : Word := wdi (max (-2 ^ n) (min (2 ^ n - 1) v))

theorem limitBits_lt {n : Nat} {v : Int} {bit : Nat} (h : bit < 16) : limitBits n v bit < 16 := by
  unfold limitBits
  split <;> omega

theorem op2_limited {n : Nat} {f : Word → Word → Res} {v : Int} {bit : Nat} (h : issues s (coreNum c) = true) (hd : 1 ≤ d)
    (hb : bit < 16) (hf : f (reg s (coreNum c) ra).1 (reg s (coreNum c) rb).1 = { val := limited n v, aex := limitBits n v bit })
    (ht : noTrap s (coreNum c) (limitBits n v bit) ((reg s (coreNum c) ra).2 || (reg s (coreNum c) rb).2) = true) :
    ∃ t, (.next (op2 s (coreNum c) rd ra rb d f) : Host.Outcome State Fault Refusal) = .next t ∧
      arith s t (coreNum c) rd d (limited n v) (limitBits n v bit) ((reg s (coreNum c) ra).2 || (reg s (coreNum c) rb).2) := by
  have g := op2_arith (s := s) (c := coreNum c) rd ra rb d f h (coreNum_lt c) hd
  rw [hf] at g
  exact ⟨_, rfl, g (limitBits_lt hb) ht⟩

theorem op3_limited {n : Nat} {f : Word → Word → Word → Res} {v : Int} {bit : Nat} (h : issues s (coreNum c) = true) (hd : 1 ≤ d)
    (hb : bit < 16) (hf : f (reg s (coreNum c) ra).1 (reg s (coreNum c) rb).1 (reg s (coreNum c) rd).1 =
      { val := limited n v, aex := limitBits n v bit })
    (ht : noTrap s (coreNum c) (limitBits n v bit)
      ((reg s (coreNum c) ra).2 || (reg s (coreNum c) rb).2 || (reg s (coreNum c) rd).2) = true) :
    ∃ t, (.next (op3 s (coreNum c) rd ra rb d f) : Host.Outcome State Fault Refusal) = .next t ∧
      arith s t (coreNum c) rd d (limited n v) (limitBits n v bit)
        ((reg s (coreNum c) ra).2 || (reg s (coreNum c) rb).2 || (reg s (coreNum c) rd).2) := by
  have g := op3_arith (s := s) (c := coreNum c) rd ra rb d f h (coreNum_lt c) hd
  rw [hf] at g
  exact ⟨_, rfl, g (limitBits_lt hb) ht⟩

end

theorem saturating_integer {c : Core} {s : State} (h : issues s (coreNum c) = true) (rd ra rb : Fin 32) :
    let n := coreNum c
    let a := (reg s n ra).1.toInt
    let b := (reg s n rb).1.toInt
    let p := (reg s n ra).2 || (reg s n rb).2
    ∀ x ∈ [(Instr.addo c rd ra rb, a + b, 4), (.subo c rd ra rb, a - b, 4), (.adds c rd ra rb, a + b, 8), (.subs c rd ra rb, a - b, 8)],
      noTrap s n (limitBits 31 x.2.1 x.2.2) p = true →
        ∃ t, exec x.1 s = .next t ∧ arith s t n rd 1 (limited 31 x.2.1) (limitBits 31 x.2.1 x.2.2) p := by
  simp only [List.forall_mem_cons, List.not_mem_nil, false_imp_iff, implies_true, and_true]
  exact ⟨op2_limited (f := fun a b => satRes (sgn a + sgn b) aexOvf) h le_rfl (by decide) (satRes_eq ..),
    op2_limited (f := fun a b => satRes (sgn a - sgn b) aexOvf) h le_rfl (by decide) (satRes_eq ..),
    op2_limited (f := fun a b => satRes (sgn a + sgn b) aexQsat) h le_rfl (by decide) (satRes_eq ..),
    op2_limited (f := fun a b => satRes (sgn a - sgn b) aexQsat) h le_rfl (by decide) (satRes_eq ..)⟩

theorem q31_multiply {c : Core} {s : State} (h : issues s (coreNum c) = true) (rd ra rb : Fin 32) :
    let n := coreNum c
    let q := ((reg s n ra).1.toInt * (reg s n rb).1.toInt + 2 ^ 30) / 2 ^ 31
    let d := (reg s n rd).1.toInt
    let p := (reg s n ra).2 || (reg s n rb).2
    let p3 := p || (reg s n rd).2
    ∀ x ∈ [(Instr.qmul c rd ra rb, q, 4, p), (.qmuls c rd ra rb, q, 8, p), (.qmac c rd ra rb, d + q, 4, p3),
        (.qmacs c rd ra rb, d + q, 8, p3)],
      noTrap s n (limitBits 31 x.2.1 x.2.2.1) x.2.2.2 = true →
        ∃ t, exec x.1 s = .next t ∧ arith s t n rd 3 (limited 31 x.2.1) (limitBits 31 x.2.1 x.2.2.1) x.2.2.2 := by
  simp only [List.forall_mem_cons, List.not_mem_nil, false_imp_iff, implies_true, and_true]
  exact ⟨op2_limited (f := fun a b => qMul a b aexOvf) h (by decide) (by decide) (satRes_eq ..),
    op2_limited (f := fun a b => qMul a b aexQsat) h (by decide) (by decide) (satRes_eq ..),
    op3_limited (f := fun a b d => qMac a b d aexOvf) h (by decide) (by decide) (satRes_eq ..),
    op3_limited (f := fun a b d => qMac a b d aexQsat) h (by decide) (by decide) (satRes_eq ..)⟩

theorem q15_multiply {c : Core} {s : State} (h : issues s (coreNum c) = true) (rd ra rb : Fin 32) :
    let n := coreNum c
    let q := (((reg s n ra).1.truncate 16).toInt * ((reg s n rb).1.truncate 16).toInt + 2 ^ 14) / 2 ^ 15
    let e := ((reg s n rd).1.truncate 16).toInt
    let p := (reg s n ra).2 || (reg s n rb).2
    let p3 := p || (reg s n rd).2
    ∀ x ∈ [(Instr.hmul c rd ra rb, q, 4, p), (.hmuls c rd ra rb, q, 8, p), (.hmac c rd ra rb, e + q, 4, p3),
        (.hmacs c rd ra rb, e + q, 8, p3)],
      noTrap s n (limitBits 15 x.2.1 x.2.2.1) x.2.2.2 = true →
        ∃ t, exec x.1 s = .next t ∧ arith s t n rd 3 (limited 15 x.2.1) (limitBits 15 x.2.1 x.2.2.1) x.2.2.2 := by
  simp only [List.forall_mem_cons, List.not_mem_nil, false_imp_iff, implies_true, and_true]
  exact ⟨op2_limited (f := fun a b => hMul a b aexOvf) h (by decide) (by decide) (satRes16_eq ..),
    op2_limited (f := fun a b => hMul a b aexQsat) h (by decide) (by decide) (satRes16_eq ..),
    op3_limited (f := fun a b d => hMac a b d aexOvf) h (by decide) (by decide) (satRes16_eq ..),
    op3_limited (f := fun a b d => hMac a b d aexQsat) h (by decide) (by decide) (satRes16_eq ..)⟩

/-- Settles O12: every form delivers `satRes` or `satRes16` of its exact value. -/
theorem saturatingInstructionsComplete : Obligations.saturating_instructions_complete :=
  ⟨fun _ rd ra rb _ h => saturating_integer h rd ra rb,
    fun _ rd ra rb _ h => ⟨q31_multiply h rd ra rb, q15_multiply h rd ra rb⟩⟩

end Sys2Proof.Pipeline
end

section
namespace Sys2Proof.Pipeline
open Sys2Proof Sys2Proof.Machine Sys2Proof.Safety Sys2Proof.Laws
open Sys2Proof.Proofs hiding stepped zeroWord

/-! ### The AEX bits of binary32 results (R148, R163) -/

/-- The bits are among those that trap under PRECISE: OVF, INV and DZ, and not QSAT (R148, R150). -/
def aexTraps (r : Res) : Prop := r.aex < 8

/-- The bits are those of R148. -/
def aexFits (r : Res) : Prop := r.aex < 16

theorem aexTraps.fits {r : Res} (h : aexTraps r) : aexFits r := Nat.lt_trans h (by decide : 8 < 16)

theorem aexTraps_value (v : Word) : aexTraps { val := v } := Nat.zero_lt_succ 7

theorem aexTraps_invalid : aexTraps invalid := by unfold aexTraps; decide

theorem aexTraps_ite {p : Prop} [Decidable p] {q r : Res} (hq : aexTraps q) (hr : aexTraps r) : aexTraps (if p then q else r) := by
  split
  · exact hq
  · exact hr

theorem aexTraps_nanRes (xs : List FVal) : aexTraps (nanRes xs) := aexTraps_ite aexTraps_invalid (aexTraps_value _)

theorem aexTraps_fAddV (x y : FVal) : aexTraps (fAddV x y) := by
  unfold fAddV
  refine aexTraps_ite (aexTraps_nanRes _) ?_
  split
  · exact aexTraps_ite (aexTraps_value _) aexTraps_invalid
  · exact aexTraps_value _
  · exact aexTraps_value _
  · exact aexTraps_value _
  · exact aexTraps_invalid

theorem aexTraps_fMul (a b : Word) : aexTraps (fMul a b) := by
  unfold fMul
  extract_lets x y
  refine aexTraps_ite (aexTraps_nanRes _) ?_
  split
  · exact aexTraps_invalid
  · exact aexTraps_value _

theorem aexTraps_fMa (a b d : Word) : aexTraps (fMa a b d) := by
  unfold fMa
  extract_lets x y z
  refine aexTraps_ite (aexTraps_nanRes _) ?_
  split
  · exact aexTraps_invalid
  · exact aexTraps_ite (aexTraps_nanRes _) (aexTraps_fAddV ..)

theorem snanBit_lt (x y : FVal) : snanBit x y < 8 := by
  unfold snanBit
  split <;> decide

theorem aexTraps_fMinMax (big : Bool) (a b : Word) : aexTraps (fMinMax big a b) :=
  aexTraps_ite (snanBit_lt ..) (aexTraps_ite (snanBit_lt ..) (aexTraps_ite (snanBit_lt ..) (snanBit_lt ..)))

theorem aexTraps_fCmp (rel : FVal → FVal → Bool) (a b : Word) : aexTraps (fCmp rel a b) := snanBit_lt ..

theorem aexTraps_fFtoi (a : Word) : aexTraps (fFtoi a) := by
  unfold fFtoi
  extract_lets beyond
  have hb (s : Bool) : aexTraps (beyond s) := (by decide : (2 : Nat) < 8)
  split
  · exact aexTraps_ite (aexTraps_ite (aexTraps_value _) (hb _)) (aexTraps_ite (aexTraps_value _) (hb _))
  · exact hb _
  · exact (by decide : (2 : Nat) < 8)

theorem aexFits_satRes (v : Int) : aexFits (satRes v aexQsat) := by
  unfold aexFits satRes
  dsimp only
  split <;> decide

theorem aexFits_fToq (a : Word) : aexFits (fToq a) := by
  unfold fToq
  split
  · exact aexFits_satRes _
  · exact (by decide : (8 : Nat) < 16)
  · exact (by decide : (2 : Nat) < 16)

/-! ### Subtraction is the addition of the negative (R163) -/

theorem getLsbD_sign (b : Word) (i : Nat) : (b ^^^ 0x80000000).getLsbD i = (b.getLsbD i != decide (i = 31)) := by
  rw [BitVec.getLsbD_xor, show (0x80000000 : Word) = BitVec.twoPow 32 31 from by decide, BitVec.getLsbD_twoPow]
  by_cases h : i = 31
  · subst h; simp
  · simp [h, Ne.symm h]

theorem bitOf_sign (b : Word) (i : Nat) : bitOf (b ^^^ 0x80000000) i = (bitOf b i != decide (i = 31)) := by
  unfold bitOf
  rw [BitVec.testBit_toNat, BitVec.testBit_toNat, getLsbD_sign]

theorem fld_sign (b : Word) {hi lo : Nat} (h : hi < 31) : fld (b ^^^ 0x80000000) hi lo = fld b hi lo := by
  refine fld_congr fun i _ hi => ?_
  rw [bitOf_sign, decide_eq_false (by omega), Bool.bne_false]

/-- The sign bit flipped gives the negative. -/
theorem fval_sign (b : Word) : fval (b ^^^ 0x80000000) = negV (fval b) := by
  unfold fval
  rw [bitOf_sign, bitOf_sign, fld_sign b (by decide), fld_sign b (by decide)]
  extract_lets n1 x f n2
  have hn : n1 = !n2 := by simp [n1, n2]
  rw [hn]
  split
  · split
    · rfl
    · cases bitOf b 22 <;> rfl
  · split <;> rfl

theorem fSub_eq (a b : Word) : fSub a b = fAdd a (b ^^^ 0x80000000) := by rw [fSub, fAdd, fval_sign]

/-! ### The binary32 instructions (R163) -/

section
variable {c : Core} {s : State}

theorem op2_float {f : Word → Word → Res} (r : Res) {rd ra rb : Fin 32} (h : issues s (coreNum c) = true)
    (hf : f (reg s (coreNum c) ra).1 (reg s (coreNum c) rb).1 = r) (ha : aexFits r)
    (ht : noTrap s (coreNum c) r.aex ((reg s (coreNum c) ra).2 || (reg s (coreNum c) rb).2) = true) :
    ∃ t, (.next (op2 s (coreNum c) rd ra rb 3 f) : Host.Outcome State Fault Refusal) = .next t ∧
      arith s t (coreNum c) rd 3 r.val r.aex ((reg s (coreNum c) ra).2 || (reg s (coreNum c) rb).2) := by
  subst hf
  exact ⟨_, rfl, op2_arith rd ra rb 3 f h (coreNum_lt c) (by decide) ha ht⟩

theorem op1_float {f : Word → Res} (r : Res) {rd ra : Fin 32} (h : issues s (coreNum c) = true)
    (hf : f (reg s (coreNum c) ra).1 = r) (ha : aexFits r) (ht : noTrap s (coreNum c) r.aex (reg s (coreNum c) ra).2 = true) :
    ∃ t, (.next (op1 s (coreNum c) rd ra 3 f) : Host.Outcome State Fault Refusal) = .next t ∧
      arith s t (coreNum c) rd 3 r.val r.aex (reg s (coreNum c) ra).2 := by
  subst hf
  exact ⟨_, rfl, op1_arith rd ra 3 f h (coreNum_lt c) (by decide) ha ht⟩

theorem float_two (h : issues s (coreNum c) = true) (rd ra rb : Fin 32) :
    let n := coreNum c
    let a := (reg s n ra).1
    let b := (reg s n rb).1
    let p := (reg s n ra).2 || (reg s n rb).2
    ∀ x ∈ [(Instr.fadd c rd ra rb, fAdd a b), (.fsub c rd ra rb, fAdd a (b ^^^ 0x80000000)), (.fmul c rd ra rb, fMul a b),
        (.fmin c rd ra rb, fMinMax false a b), (.fmax c rd ra rb, fMinMax true a b), (.fceq c rd ra rb, fCeq a b),
        (.fclt c rd ra rb, fClt a b), (.fcle c rd ra rb, fCle a b)],
      noTrap s n x.2.aex p = true → ∃ t, exec x.1 s = .next t ∧ arith s t n rd 3 x.2.val x.2.aex p := by
  simp only [List.forall_mem_cons, List.not_mem_nil, false_imp_iff, implies_true, and_true]
  exact ⟨op2_float (fAdd _ _) h rfl (aexTraps_fAddV ..).fits, op2_float (fAdd _ (_ ^^^ _)) h (fSub_eq ..) (aexTraps_fAddV ..).fits,
    op2_float (fMul _ _) h rfl (aexTraps_fMul ..).fits, op2_float (fMinMax false _ _) h rfl (aexTraps_fMinMax ..).fits,
    op2_float (fMinMax true _ _) h rfl (aexTraps_fMinMax ..).fits, op2_float (fCeq _ _) h rfl (aexTraps_fCmp ..).fits,
    op2_float (fClt _ _) h rfl (aexTraps_fCmp ..).fits, op2_float (fCle _ _) h rfl (aexTraps_fCmp ..).fits⟩

theorem float_one (h : issues s (coreNum c) = true) (rd ra : Fin 32) :
    let n := coreNum c
    let a := (reg s n ra).1
    let p := (reg s n ra).2
    ∀ x ∈ [(Instr.fitof c rd ra, fItof a), (.fftoi c rd ra, fFtoi a), (.ftoq c rd ra, fToq a), (.qtof c rd ra, fQtof a)],
      noTrap s n x.2.aex p = true → ∃ t, exec x.1 s = .next t ∧ arith s t n rd 3 x.2.val x.2.aex p := by
  simp only [List.forall_mem_cons, List.not_mem_nil, false_imp_iff, implies_true, and_true]
  exact ⟨op1_float (fItof _) h rfl (aexTraps_value _).fits, op1_float (fFtoi _) h rfl (aexTraps_fFtoi _).fits,
    op1_float (fToq _) h rfl (aexFits_fToq _), op1_float (fQtof _) h rfl (aexTraps_value _).fits⟩

theorem fma_arith (h : issues s (coreNum c) = true) (rd ra rb : Fin 32) :
    let n := coreNum c
    let r := fMa (reg s n ra).1 (reg s n rb).1 (reg s n rd).1
    let p := (reg s n ra).2 || (reg s n rb).2 || (reg s n rd).2
    noTrap s n r.aex p = true → ∃ t, exec (.fma c rd ra rb) s = .next t ∧ arith s t n rd 3 r.val r.aex p :=
  fun ht => ⟨_, rfl, op3_arith rd ra rb 3 fMa h (coreNum_lt c) (by decide) (aexTraps_fMa ..).fits ht⟩

end

/-- Settles O13: every form delivers the result of its function, and FSUB adds the negative. -/
theorem floatInstructionsComplete : Obligations.float_instructions_complete :=
  fun _ rd ra rb _ h => ⟨float_two h rd ra rb, fma_arith h rd ra rb, float_one h rd ra,
    op1_gives (f := (· &&& 0x7FFFFFFF)) h le_rfl rfl, op1_gives (f := (· ^^^ 0x80000000)) h le_rfl rfl⟩

end Sys2Proof.Pipeline
end

section
namespace Sys2Proof.Pipeline
open Sys2Proof Sys2Proof.Machine Sys2Proof.Safety Sys2Proof.Laws
open Sys2Proof.Proofs hiding stepped zeroWord

/-! ### Branches (R131, R132, R169) -/

/-- A branch that the core takes or passes: the core goes on in the delay slot, the link is written at once. -/
theorem branchTo_branched {s : State} {c : Nat} (hi : issues s c = true) (hc : c < 516)
    (hslot : (s.core c).slot = none) (x : Nat) (taken : Bool) (os : List Out) :
    let t := endStep (noteDone s (branchTo s c x taken os) c) c
    branched (s.core c) (t.core c) (if taken then x else ((s.core c).pc + 8) % 2 ^ 32) ∧
      (∀ r, reg t c r = seen (next (produce (s.core c) os)) r) ∧ onlyCore s t c [] := by
  obtain ⟨-, -, -, hfar, hlong, -⟩ := issues_core hi
  have hdone := complete_completed s c os
  have honly := complete_onlyCore s c os []
  generalize hx : (if taken then x else ((s.core c).pc + 8) % 2 ^ 32) = y
  have hb : branchTo s c x taken os = (if taken && decide (512 ≤ c)
      then countSv ((complete s c os).setCore c { (complete s c os).core c with slot := some y }) (c - 512) 2 0 0
      else (complete s c os).setCore c { (complete s c os).core c with slot := some y }) := by rw [← hx]; rfl
  rw [hb]
  generalize complete s c os = m at *
  have hp : PmuOnly (m.setCore c { m.core c with slot := some y }) (if taken && decide (512 ≤ c)
      then countSv (m.setCore c { m.core c with slot := some y }) (c - 512) 2 0 0
      else m.setCore c { m.core c with slot := some y }) := by
    split
    next h =>
      have h5 : 512 ≤ c := by simpa using (Bool.and_eq_true_iff.1 h).2
      exact countSv_pmuOnly _ (by omega) ..
    · exact .refl _
  generalize (if taken && decide (512 ≤ c) then _ else _) = b at hp ⊢
  have hcore : b.core c = { m.core c with slot := some y } := by rw [hp.core, core_setCore_same]
  obtain ⟨hend, hframe⟩ := ended s (b := b) hc (by rw [hcore]; exact (congrArg CoreS.held hdone.step :))
    (by rw [hcore]; exact (congrArg CoreS.far hdone.step :).trans hfar)
    (by rw [hcore]; exact (congrArg CoreS.long hdone.step :).trans hlong)
  have hall : onlyCore s (endStep (noteDone s b c) c) c [] :=
    onlyCore_trans honly (onlyCore_trans (setCore_onlyCore ..) (onlyCore_trans (hp.onlyCore c []) hframe))
  refine ⟨?_, fun r => ?_, hall⟩
  · have e := congrArg (fun l : CoreS => { l with slot := some y, stepOne := false }) hdone.step
    have hpc : nextPc (s.core c) = ((s.core c).pc + 4) % 2 ^ 32 := by rw [nextPc, hslot]; rfl
    rw [hpc] at e
    rw [hend, hcore]
    exact e
  · rw [reg, hend, hcore, ← hdone.regs]
    exact seen_congr rfl rfl rfl r

theorem branch_gives {s : State} {c : Nat} (hi : issues s c = true) (hc : c < 516) (hslot : (s.core c).slot = none) (rs : List Nat)
    (x : Nat) (taken : Bool) :
    let t := issue s c { regs := rs, noSlot := true } fun u => branchTo u c x taken []
    branched (s.core c) (t.core c) (if taken then x else ((s.core c).pc + 8) % 2 ^ 32) ∧ regsSet s t c 0 (0, false) ∧ onlyCore s t c [] := by
  intro t
  have ht : t = endStep (noteDone s (branchTo s c x taken []) c) c := issue_noSlot rs _ hi hslot
  obtain ⟨h1, h2, h3⟩ := branchTo_branched hi hc hslot x taken []
  rw [ht]
  exact ⟨h1, regsSet_nil h2 (.refl _), h3⟩

theorem call_gives {s : State} {c : Nat} (hi : issues s c = true) (hc : c < 516) (hslot : (s.core c).slot = none) (rs : List Nat)
    (x rd : Nat) (link : Word) :
    let t := issue s c { regs := rs, noSlot := true } fun u => branchTo u c x true [{ reg := rd, d := 1, val := link }]
    branched (s.core c) (t.core c) x ∧ regsSet s t c rd (link, false) ∧ onlyCore s t c [] := by
  intro t
  have ht : t = endStep (noteDone s (branchTo s c x true [{ reg := rd, d := 1, val := link }]) c) c := issue_noSlot rs _ hi hslot
  obtain ⟨h1, h2, h3⟩ := branchTo_branched hi hc hslot x true [{ reg := rd, d := 1, val := link }]
  rw [ht]
  exact ⟨h1, regsSet_now h2 (.refl _), h3⟩

/-- The work of an issued instruction is what it does in the state it issues in. -/
theorem issue_congr {s : State} {c : Nat} {q : Need} {f g : State → State} (hi : issues s c = true) (h : f s = g s) :
    issue s c q f = issue s c q g := by
  unfold issue
  rw [fetch_issues hi]
  simp only [h]

theorem branchTarget_eq (pc : Nat) (off : BitVec 21) : branchTarget pc off = (wd pc + (off.signExtend 32 <<< 2)).toNat := by
  rw [branchTarget, wd, BitVec.shiftLeft_eq_mul_twoPow, BitVec.mul_comm]
  rfl

/-- The result of a call: its link, where it has a register for it. -/
def linkOuts (rd : Option Nat) (link : Word) : List Out :=
  match rd with
  | some r => [{ reg := r, d := 1, val := link }]
  | none => []

theorem branchForm_eq {s : State} {c ra : Nat} (hi : issues s c = true) (ha : (reg s c ra).2 = false) (off : BitVec 21) (z : Bool) :
    branchForm s c ra off z = issue s c { regs := [ra], noSlot := true } fun u =>
      branchTo u c (wd (s.core c).pc + (off.signExtend 32 <<< 2)).toNat (((reg s c ra).1 == 0) == z) [] :=
  issue_congr hi ((if_neg (by rw [ha]; exact Bool.false_ne_true)).trans
    (congrArg (fun x => branchTo s c x (((reg s c ra).1 == 0) == z) []) (branchTarget_eq ..)))

theorem jumpForm_eq {s : State} {c ra : Nat} (hi : issues s c = true) (ha : (reg s c ra).2 = false) (h4 : (reg s c ra).1.toNat % 4 = 0)
    (rd : Option Nat) :
    jumpForm s c rd ra = issue s c { regs := ra :: rd.toList, noSlot := true } fun u => branchTo u c (reg s c ra).1.toNat true
      (linkOuts rd (wd ((s.core c).pc + 8))) :=
  issue_congr hi ((if_neg (by rw [ha]; exact Bool.false_ne_true)).trans ((if_neg (not_not.2 h4)).trans rfl))

theorem directForm_eq {s : State} {c : Nat} (hi : issues s c = true) (off : BitVec 21) (rd : Option Nat) :
    directForm s c rd off = issue s c { regs := rd.toList, noSlot := true } fun u =>
      branchTo u c (wd (s.core c).pc + (off.signExtend 32 <<< 2)).toNat true (linkOuts rd (wd ((s.core c).pc + 8))) :=
  issue_congr hi (congrArg (fun x => branchTo s c x true (linkOuts rd (wd ((s.core c).pc + 8)))) (branchTarget_eq ..))

/-- Settles O25: each form is `branchTo` with its target and its link. -/
theorem branchesComplete : Obligations.branches_complete := by
  intro c rd ra off s hi n k a dest past hslot
  have hc := coreNum_lt c
  refine ⟨fun ha => ?_, ?_, ?_, fun ha h4 => ⟨?_, ?_⟩⟩
  · simp only [List.forall_mem_cons, List.not_mem_nil, false_imp_iff, implies_true, and_true]
    refine ⟨⟨_, rfl, ?_⟩, ⟨_, rfl, ?_⟩⟩
    · rw [branchForm_eq hi ha off true, beq_true]
      exact branch_gives hi hc hslot [ra] dest ((reg s n ra).1 == 0)
    · rw [branchForm_eq hi ha off false, beq_false]
      exact branch_gives hi hc hslot [ra] dest ((reg s n ra).1 != 0)
  · refine ⟨_, rfl, ?_⟩
    rw [directForm_eq hi off none]
    exact branch_gives hi hc hslot _ dest true
  · refine ⟨_, rfl, ?_⟩
    rw [directForm_eq hi off (some rd.val)]
    exact call_gives hi hc hslot _ dest rd _
  · refine ⟨_, rfl, ?_⟩
    rw [jumpForm_eq hi ha h4 none]
    exact branch_gives hi hc hslot _ _ true
  · refine ⟨_, rfl, ?_⟩
    rw [jumpForm_eq hi ha h4 (some rd.val)]
    exact call_gives hi hc hslot _ _ rd _

end Sys2Proof.Pipeline
end

section
namespace Sys2Proof.Pipeline
open Sys2Proof Sys2Proof.Machine Sys2Proof.Safety Sys2Proof.Laws
open Sys2Proof.Proofs hiding stepped zeroWord

/-! ### An instruction that a side unit may hold (R133, R134) -/

/-- What `issuesBeside` says of the core. -/
theorem beside_core {s : State} {c : Nat} (h : issuesBeside s c = true) :
    up s = true ∧ (s.core c).mode = .active ∧ (s.core c).halted = false ∧ (s.core c).far = none ∧ (s.core c).long = none ∧
      (s.core c).yielding = false ∧ (s.core c).wait = 0 ∧ (c < 512 ∨ dueEntry s (c - 512) = none) := by
  simp only [issuesBeside, atIssue, Bool.and_eq_true, Option.isNone_iff_eq_none, beq_iff_eq, Bool.not_eq_true', Bool.or_eq_true,
    decide_eq_true_eq] at h
  obtain ⟨⟨⟨⟨⟨⟨⟨⟨h1, h2⟩, h3⟩, h4⟩, h5⟩, h6⟩, h7⟩, h8⟩, -⟩ := h
  exact ⟨h1, h2, h3, h4, h5, h6, h7, h8⟩

theorem ready_beside {s : State} {c : Nat} (h : issuesBeside s c = true) : ready s c = true := by
  obtain ⟨hu, hm, hh, hf, hl, hy, -, hd⟩ := beside_core h
  have hoff := up_coreOff hu c
  rcases hd with h1 | h1 <;> simp [ready, hoff, hm, hh, hf, hl, hy, h1]

theorem fetch_beside {s : State} {c : Nat} (h : issuesBeside s c = true) : fetch s c = (s, true) :=
  fetch_clean (Bool.and_eq_true_iff.1 h).2

/-- An instruction that a register, a unit or CHECK's need of quiet units holds waits. -/
theorem issue_holds {s : State} {c : Nat} (rs : List Nat) (u : Option SideUnit) (q : Bool) (body : State → State)
    (h : issuesBeside s c = true) (hz : hazard s c { regs := rs, unit := u, quiet := q } = true) :
    issue s c { regs := rs, unit := u, quiet := q } body = hold s c := by
  unfold issue
  rw [ready_beside h, fetch_beside h]
  simp only [Bool.not_true, Bool.false_eq_true, if_false, Bool.false_and, Bool.or_self, hz, if_true]

theorem issue_holds_ce {s : State} {c : Nat} (body : State → State) (hc : c < 512)
    (h : issuesBeside s c = true) (hz : hazard s c { ceOnly := true, quiet := true } = true) :
    issue s c { ceOnly := true, quiet := true } body = hold s c := by
  unfold issue
  rw [ready_beside h, fetch_beside h]
  simp only [Bool.not_true, Bool.false_eq_true, if_false, Bool.false_and, Bool.true_and, Bool.or_false,
    decide_eq_false (Nat.not_le.2 hc), hz, if_true]

theorem issue_beside {s : State} {c : Nat} (rs : List Nat) (body : State → State) (h : issuesBeside s c = true)
    (hz : hazard s c { regs := rs } = false) : issue s c { regs := rs } body = endStep (noteDone s (body s) c) c := by
  unfold issue
  rw [ready_beside h, fetch_beside h]
  simp only [Bool.not_true, Bool.false_eq_true, if_false, Bool.false_and, Bool.or_self, hz]

/-- What the wait of a step leaves of the core. -/
theorem hold_core (s : State) {c : Nat} (hc : c < 516) : ∃ sk, (hold s c).core c =
    { s.core c with held := true, wait := (s.core c).wait - 1, waited := (s.core c).waited + 1, skid := sk } := by
  unfold hold
  extract_lets t k u
  have hu : u.core c = { s.core c with held := true, wait := (s.core c).wait - 1, waited := (s.core c).waited + 1 } := by
    rw [(countCore_pmuOnly _ hc 0 1 (some 1)).core c, core_setCore_same]
    show { t.core c with waited := (t.core c).waited + 1 } = _
    rw [show t.core c = _ from core_setCore_same ..]
  split
  · exact ⟨(s.core c).skid, hu⟩
  · refine ⟨ownSkid t u c (u.core c).skid, ?_⟩
    rw [core_setCore_same]
    exact congrArg (fun l : CoreS => { l with skid := ownSkid t u c (u.core c).skid }) hu

theorem hold_onlyCore (s : State) {c : Nat} (hc : c < 516) (xs : List Nat) : onlyCore s (hold s c) c xs := by
  unfold hold
  extract_lets t k u
  have hu : onlyCore s u c xs := onlyCore_trans (setCore_onlyCore s c _ xs)
    (onlyCore_trans (setCore_onlyCore t c _ xs) ((countCore_pmuOnly _ hc 0 1 (some 1)).onlyCore c xs))
  split
  · exact hu
  · exact onlyCore_trans hu (setCore_onlyCore ..)

theorem hold_waits (s : State) {c : Nat} (hc : c < 516) : waits s (hold s c) c := by
  obtain ⟨sk, hk⟩ := hold_core s hc
  refine ⟨by rw [hk], by rw [hk], by rw [hk], by rw [hk], by rw [hk], by rw [hk], fun r => ?_, hold_onlyCore s hc []⟩
  rw [reg, hk]
  exact seen_congr rfl rfl rfl r

/-! ### Side units (R133, R164) -/

/-- The integer square root takes the largest bits whose square fits. -/
theorem isqrtBits_eq (n : Nat) : ∀ k r, r * r ≤ n → n < (r + 2 ^ k) * (r + 2 ^ k) → isqrtBits n k r = Nat.sqrt n
  | 0, r, h1, h2 => by
    rw [isqrtBits]
    exact Nat.eq_sqrt.2 ⟨h1, h2⟩
  | k + 1, r, h1, h2 => by
    have hpow : r + 2 ^ (k + 1) = r + 2 ^ k + 2 ^ k := by rw [pow_succ]; omega
    rw [isqrtBits]
    split
    next h => exact isqrtBits_eq n k _ h (by rw [← hpow]; exact h2)
    next h => exact isqrtBits_eq n k r h1 (Nat.not_le.1 h)

theorem isqrt_sqrt (n : Nat) (h : n < 2 ^ 32) : isqrt 16 n = Nat.sqrt n :=
  isqrtBits_eq n 16 0 (Nat.zero_le n) (by simpa using h)

/-- What a side-unit instruction puts into its unit. -/
def sideOp (k : CoreS) (rd : Nat) (r : Res) (p : Bool) : SideOp :=
  { dest := rd, val := r.val, poison := p, aex := if p then 0 else r.aex, pc := k.pc, idx := k.seq }

/-- The core with `o` in its unit. -/
def withUnit (k : CoreS) (u : SideUnit) (o : SideOp) : CoreS :=
  match u with
  | .divide => { k with divU := some o }
  | .cordic => { k with corU := some o }

theorem toUnit_performed {s : State} {c rd : Nat} {u : SideUnit} {r : Res} {p : Bool} (hi : issues s c = true) (hc : c < 516)
    (ht : noTrap s c r.aex p = true) :
    let t := endStep (noteDone s (toUnit s c rd u r p) c) c
    stepped (withUnit (s.core c) u (sideOp (s.core c) rd r p)) (t.core c) ∧ regsSet s t c 0 (0, false) ∧ onlyCore s t c [] := by
  obtain ⟨-, -, -, hfar, hlong, -⟩ := issues_core hi
  generalize hk : withUnit (s.core c) u (sideOp (s.core c) rd r p) = k
  have hq : { k with divU := (s.core c).divU, corU := (s.core c).corU } = s.core c := by rw [← hk]; cases u <;> rfl
  generalize hm : (if 512 ≤ c then countSv (s.setCore c k) (c - 512) 0 2 0 else s.setCore c k) = m
  have hp : PmuOnly (s.setCore c k) m := by
    rw [← hm]
    split
    · exact countSv_pmuOnly _ (by omega) ..
    · exact .refl _
  have hmc : m.core c = k := by rw [hp.core, core_setCore_same]
  have hto : toUnit s c rd u r p = complete m c [] := by
    unfold toUnit
    rw [if_neg]
    · rw [← hm, ← hk]
      cases u <;> rfl
    · unfold noTrap imprecise at ht
      cases p
      · simp only [Bool.or_false, Bool.or_eq_true, Bool.not_eq_true', beq_iff_eq] at ht
        rcases ht with ht | ht <;> simp [ht]
      · simp
  have hdone := complete_completed m c []
  rw [hmc] at hdone
  have hperf := performed_end s hc hdone ((congrArg CoreS.far hq :).trans hfar) ((congrArg CoreS.long hq :).trans hlong)
  rw [hto]
  refine ⟨hperf.step, hperf.regsSet_nil ⟨(congrArg CoreS.infl hq :), (congrArg CoreS.base hq :), (congrArg CoreS.seq hq :)⟩, ?_⟩
  exact onlyCore_trans (setCore_onlyCore ..) (onlyCore_trans (hp.onlyCore c [])
    (onlyCore_trans (complete_onlyCore ..) hperf.frame))

theorem opSide_performed {s : State} {c rd ra rb : Nat} {u : SideUnit} {f : Word → Word → Res} {r : Res} {p : Bool}
    (hi : issues s c = true) (hc : c < 516) (hf : f (reg s c ra).1 (reg s c rb).1 = r) (hp : ((reg s c ra).2 || (reg s c rb).2) = p)
    (ht : noTrap s c r.aex p = true) :
    let t := opSide s c rd ra rb u f
    stepped (withUnit (s.core c) u (sideOp (s.core c) rd r p)) (t.core c) ∧ regsSet s t c 0 (0, false) ∧ onlyCore s t c [] := by
  subst hf hp
  have hs : opSide s c rd ra rb u f = endStep (noteDone s (toUnit s c rd u (f (reg s c ra).1 (reg s c rb).1)
      ((reg s c ra).2 || (reg s c rb).2)) c) c :=
    issue_issues _ _ hi (by simp) (by simp) (by simp) (by simp) (by simp)
  rw [hs]
  exact toUnit_performed hi hc ht

theorem addInfl_find {f : Producer → Bool} (p : Producer) (l : List Producer) (h : f p = false) :
    (addInfl p l).find? f = l.find? f := by
  induction l with
  | nil => simp [addInfl, h]
  | cons q t ih =>
    rw [addInfl]
    split
    · rw [List.find?_cons, List.find?_cons, ih]
    · rw [List.find?_cons, h]

theorem addInfl_find_self {f : Producer → Bool} (p : Producer) (l : List Producer) (h : f p = true) (hl : ∀ q ∈ l, f q = false) :
    (addInfl p l).find? f = some p := by
  induction l with
  | nil => simp [addInfl, h]
  | cons q t ih =>
    rw [addInfl]
    split
    · rw [List.find?_cons, hl q (by simp)]
      exact ih fun x hx => hl x (by simp [hx])
    · rw [List.find?_cons, h]

/-- A side unit's result shows in its register, whatever its instruction's place. -/
theorem seen_sideWrite (k : CoreS) (o : SideOp) (hidx : o.idx ≤ k.seq) (hfree : ∀ p ∈ k.infl, p.reg ≠ o.dest) (r : Nat) :
    seen (sideWrite k o) r = if r = 0 then (0, false) else if r = o.dest then (o.val, o.poison) else seen k r := by
  by_cases hr : r = 0
  · subst hr; rfl
  rw [if_neg hr]
  unfold sideWrite
  by_cases hd : o.dest = 0
  · rw [if_pos hd, if_neg fun e => hr (e.trans hd)]
  rw [if_neg hd]
  unfold seen
  simp only [if_neg hr]
  by_cases he : r = o.dest
  · subst he
    rw [addInfl_find_self _ _ (by simpa using hidx) (fun q hq => by simp [hfree q hq]), if_pos rfl]
  · rw [addInfl_find _ _ (by simp [Ne.symm he]), if_neg he]

theorem sideWrite_rest (k : CoreS) (o : SideOp) : { sideWrite k o with infl := k.infl } = k := by
  unfold sideWrite
  split <;> rfl

/-- What is in the unit `u`. -/
def inUnit (k : CoreS) (u : SideUnit) : Option SideOp :=
  match u with
  | .divide => k.divU
  | .cordic => k.corU

/-- The core with the unit `u` free. -/
def freed (k : CoreS) (u : SideUnit) : CoreS :=
  match u with
  | .divide => { k with divU := none }
  | .cordic => { k with corU := none }

theorem freed_rest (k : CoreS) (u : SideUnit) : { freed k u with divU := k.divU, corU := k.corU } = k := by cases u <;> rfl

/-- The core after the result `o` of its unit `u`. -/
def sideWritten (k : CoreS) (u : SideUnit) (o : SideOp) : CoreS := keepAex (retire (sideWrite (freed k u) o)) o.idx o.aex

theorem sideWritten_rest (k : CoreS) (u : SideUnit) (o : SideOp) :
    { sideWritten k u o with base := k.base, infl := k.infl, undo := k.undo } = freed k u := by
  have h1 := congrArg (fun c : CoreS => { c with infl := k.infl, base := k.base, undo := k.undo })
    (retire_rest (sideWrite (freed k u) o))
  have h2 := congrArg (fun c : CoreS => { c with base := k.base, undo := k.undo }) (sideWrite_rest (freed k u) o)
  have h3 : { freed k u with base := k.base, infl := k.infl, undo := k.undo } = freed k u := by cases u <;> rfl
  have hi : (freed k u).infl = k.infl := (congrArg CoreS.infl (freed_rest k u) :)
  rw [hi] at h2
  exact h1.trans (h2.trans h3)

theorem sideUnitResult_eq {c : Core} {u : SideUnit} {o : SideOp} {s : State} (hdark : s.dark = false)
    (hu : inUnit (s.core (coreNum c)) u = some o) (hy : (s.core (coreNum c)).yielding = false) :
    exec (.sideUnitResult c u) s =
      .next (setAex (s.setCore (coreNum c) (sideWritten (s.core (coreNum c)) u o)) (coreNum c) o.aex) := by
  have hc := coreNum_lt c
  have hexec : exec (.sideUnitResult c u) s =
      .next (endYield (setAex (s.setCore (coreNum c) (sideWritten (s.core (coreNum c)) u o)) (coreNum c) o.aex) (coreNum c)) := by
    show execSideUnitResult c u s = _
    unfold execSideUnitResult
    dsimp only
    rw [hdark, if_neg Bool.false_ne_true]
    show (match inUnit (s.core (coreNum c)) u with | none => _ | some _ => _) = _
    rw [hu]
    cases u <;> rfl
  have hyield : ((setAex (s.setCore (coreNum c) (sideWritten (s.core (coreNum c)) u o)) (coreNum c) o.aex).core (coreNum c)).yielding =
      false := by
    rw [core_setAex _ hc, core_setCore_same]
    have h := (congrArg CoreS.yielding (sideWritten_rest (s.core (coreNum c)) u o) :)
    exact h.trans ((congrArg CoreS.yielding (freed_rest (s.core (coreNum c)) u) :).trans hy)
  rw [hexec, endYield, hyield]
  rfl

/-- A side unit's result reaches its register and AEX, and the unit is free (R133, log entry 58). -/
theorem sideUnitResult_completes {c : Core} {u : SideUnit} {o : SideOp} {s : State} (hdark : s.dark = false)
    (hu : inUnit (s.core (coreNum c)) u = some o) (hy : (s.core (coreNum c)).yielding = false) (hidx : o.idx ≤ (s.core (coreNum c)).seq)
    (hfree : ∀ p ∈ (s.core (coreNum c)).infl, p.reg ≠ o.dest) :
    ∃ t, exec (.sideUnitResult c u) s = .next t ∧ inUnit (t.core (coreNum c)) u = none ∧
      (∀ r, reg t (coreNum c) r = if r = 0 then (0, false) else if r = o.dest then (o.val, o.poison) else reg s (coreNum c) r) ∧
      crAct t (coreNum c) 1 = crAct s (coreNum c) 1 ||| wd o.aex ∧ (t.core (coreNum c)).pc = (s.core (coreNum c)).pc ∧
      (t.core (coreNum c)).seq = (s.core (coreNum c)).seq ∧ onlyCore s t (coreNum c) [crKey (coreNum c) 1] := by
  have hc := coreNum_lt c
  refine ⟨_, sideUnitResult_eq hdark hu hy, ?_⟩
  generalize coreNum c = n at *
  generalize hk : s.core n = k at *
  have hrest := sideWritten_rest k u o
  have hcore : (setAex (s.setCore n (sideWritten k u o)) n o.aex).core n = sideWritten k u o := by
    rw [core_setAex _ hc, core_setCore_same]
  have hfr := freed_rest k u
  rw [hcore]
  refine ⟨?_, fun r => ?_, ?_, ?_, ?_, onlyCore_trans (setCore_onlyCore s n _ _) (setAex_onlyCore _ hc o.aex)⟩
  · have h := congrArg (fun l : CoreS => inUnit l u) hrest
    cases u <;> exact h
  · have hs : seen (sideWritten k u o) r = seen (sideWrite (freed k u) o) r :=
      (seen_congr (k := retire (sideWrite (freed k u) o)) rfl rfl rfl r).trans (seen_retire ..)
    have hinfl : (freed k u).infl = k.infl := (congrArg CoreS.infl hfr :)
    have hseq : (freed k u).seq = k.seq := (congrArg CoreS.seq hfr :)
    have hf : seen (freed k u) r = seen k r := seen_congr hinfl (congrArg CoreS.base hfr :) hseq r
    rw [reg, hcore, hs, seen_sideWrite _ _ (hseq ▸ hidx) (hinfl ▸ hfree), hf, reg, hk]
  · exact crAct_setAex _ hc o.aex
  · exact (congrArg CoreS.pc hrest :).trans (congrArg CoreS.pc hfr :)
  · exact (congrArg CoreS.seq hrest :).trans (congrArg CoreS.seq hfr :)

/-! ### Instructions beside a unit under way (R133, R134) -/

/-- A register of a unit under way is busy. -/
theorem busy_inUnit {k : CoreS} {u : SideUnit} {o : SideOp} (hu : inUnit k u = some o) (h0 : o.dest ≠ 0) : busy k o.dest = true := by
  cases u with
  | divide => simp [busy, h0, show k.divU = some o from hu]
  | cordic => simp [busy, h0, show k.corU = some o from hu]

theorem unitBusy_inUnit {k : CoreS} {u : SideUnit} {o : SideOp} (hu : inUnit k u = some o) : unitBusy k u = true := by
  cases u with
  | divide => simp [unitBusy, show k.divU = some o from hu]
  | cordic => simp [unitBusy, show k.corU = some o from hu]

theorem units_inUnit {k : CoreS} {u : SideUnit} {o : SideOp} (hu : inUnit k u = some o) : (k.divU.isSome || k.corU.isSome) = true := by
  cases u with
  | divide => simp [show k.divU = some o from hu]
  | cordic => simp [show k.corU = some o from hu]

theorem hazard_reg {s : State} {c : Nat} {u : SideUnit} {o : SideOp} {rs : List Nat} (hu : inUnit (s.core c) u = some o)
    (h0 : o.dest ≠ 0) (hm : o.dest ∈ rs) : hazard s c { regs := rs } = true := by
  have hb : rs.any (busy (s.core c)) = true := List.any_eq_true.2 ⟨_, hm, busy_inUnit hu h0⟩
  simp [hazard, hb]

theorem hazard_unit {s : State} {c : Nat} {u : SideUnit} {o : SideOp} (rs : List Nat) (hu : inUnit (s.core c) u = some o) :
    hazard s c { regs := rs, unit := some u } = true := by
  have hb : unitBusy (s.core c) u = true := unitBusy_inUnit hu
  simp [hazard, hb]

theorem hazard_quiet {s : State} {c : Nat} {u : SideUnit} {o : SideOp} (hu : inUnit (s.core c) u = some o) :
    hazard s c { ceOnly := true, quiet := true } = true := by
  unfold hazard
  dsimp only
  rw [units_inUnit hu]
  simp

theorem hazard_none {s : State} {c : Nat} {rs : List Nat} (h : issuesBeside s c = true) (hp : imprecise s c = true)
    (hb : ∀ r ∈ rs, busy (s.core c) r = false) : hazard s c { regs := rs } = false := by
  obtain ⟨-, -, -, -, -, -, hw, -⟩ := beside_core h
  have hp' : precise s c = false := by simpa [imprecise] using hp
  have hany : rs.any (busy (s.core c)) = false := List.any_eq_false.2 fun r hr => by simp [hb r hr]
  simp [hazard, hany, hp', hw]

section
variable {c : Core} {u : SideUnit} {o : SideOp} {s : State}

/-- An instruction that names a busy register waits. -/
theorem waits_reg {rs : List Nat} (body : State → State) (h : issuesBeside s (coreNum c) = true)
    (hu : inUnit (s.core (coreNum c)) u = some o) (h0 : o.dest ≠ 0) (hm : o.dest ∈ rs) :
    ∃ t, (.next (issue s (coreNum c) { regs := rs } body) : Host.Outcome State Fault Refusal) = .next t ∧ waits s t (coreNum c) := by
  refine ⟨_, rfl, ?_⟩
  rw [issue_holds rs none false body h (hazard_reg hu h0 hm)]
  exact hold_waits s (coreNum_lt c)

/-- An instruction for a busy unit waits. -/
theorem waits_unit {rd ra rb : Nat} {f : Word → Word → Res} (h : issuesBeside s (coreNum c) = true)
    (hu : inUnit (s.core (coreNum c)) u = some o) :
    ∃ t, (.next (opSide s (coreNum c) rd ra rb u f) : Host.Outcome State Fault Refusal) = .next t ∧ waits s t (coreNum c) := by
  refine ⟨_, rfl, ?_⟩
  rw [opSide, issue_holds _ (some u) false _ h (hazard_unit _ hu)]
  exact hold_waits s (coreNum_lt c)

theorem waits_check (h : issuesBeside s (coreNum c) = true) (hu : inUnit (s.core (coreNum c)) u = some o) (hc : coreNum c < 512) :
    ∃ t, exec (.check c) s = .next t ∧ waits s t (coreNum c) := by
  refine ⟨_, rfl, ?_⟩
  rw [issue_holds_ce _ hc h (hazard_quiet hu)]
  exact hold_waits s (coreNum_lt c)

theorem add_beside {rd ra rb : Fin 32} (h : issuesBeside s (coreNum c) = true) (hp : imprecise s (coreNum c) = true)
    (hb : ∀ r ∈ [rd, ra, rb], busy (s.core (coreNum c)) r = false) :
    ∃ t, exec (.add c rd ra rb) s = .next t ∧ arith s t (coreNum c) rd 1 ((reg s (coreNum c) ra).1 + (reg s (coreNum c) rb).1) 0
      ((reg s (coreNum c) ra).2 || (reg s (coreNum c) rb).2) := by
  obtain ⟨-, -, -, hfar, hlong, -⟩ := beside_core h
  refine ⟨_, rfl, ?_⟩
  rw [op2, issue_beside _ _ h (hazard_none h hp (by simpa using hb))]
  exact deliver_arith_beside hfar hlong (coreNum_lt c) le_rfl (Nat.zero_lt_succ 15) (noTrap_zero ..)

theorem waits_named (rd ra rb : Fin 32) (imm : BitVec 16) (h : issuesBeside s (coreNum c) = true)
    (hu : inUnit (s.core (coreNum c)) u = some o) :
    ∀ x ∈ [(Instr.add c rd ra rb, [rd, ra, rb]), (.addi c rd ra imm, [rd, ra]), (.mul c rd ra rb, [rd, ra, rb]),
        (.fadd c rd ra rb, [rd, ra, rb]), (.qmac c rd ra rb, [rd, ra, rb]), (.lw c rd ra imm, [rd, ra]),
        (.sw c rd ra imm, [rd, ra]), (.swap c rd ra rb, [rd, ra, rb]), (.lui c rd imm, [rd])],
      o.dest ≠ 0 → o.dest ∈ x.2.map (·.val) → ∃ t, exec x.1 s = .next t ∧ waits s t (coreNum c) := by
  simp only [List.forall_mem_cons, List.not_mem_nil, false_imp_iff, implies_true, and_true]
  have two (body : State → State) (h0 : o.dest ≠ 0) (hm : o.dest ∈ [rd, ra, rb].map (fun r : Fin 32 => r.val)) :=
    waits_reg (rs := [rd.val, ra, rb]) body h hu h0 hm
  have one (body : State → State) (h0 : o.dest ≠ 0) (hm : o.dest ∈ [rd, ra].map (fun r : Fin 32 => r.val)) :=
    waits_reg (rs := [rd.val, ra]) body h hu h0 hm
  exact ⟨two _, one _, two _, two _, two _, one _, one _, two _, fun h0 hm =>
    waits_reg (rs := [rd.val, 0]) _ h hu h0 (by simp at hm; simp [hm])⟩

theorem waits_busyUnit (rd ra rb : Fin 32) (h : issuesBeside s (coreNum c) = true) (hu : inUnit (s.core (coreNum c)) u = some o) :
    ∀ i ∈ (match u with
        | .divide => [Instr.div c rd ra rb, .divu c rd ra rb, .sqrt c rd ra, .fdiv c rd ra rb, .fsqrt c rd ra, .recip c rd ra]
        | .cordic => [.sin c rd ra, .cos c rd ra, .atan2 c rd ra rb]),
      ∃ t, exec i s = .next t ∧ waits s t (coreNum c) := by
  cases u <;> simp only [List.forall_mem_cons, List.not_mem_nil, false_imp_iff, implies_true, and_true]
  · exact ⟨waits_unit h hu, waits_unit h hu, waits_unit h hu, waits_unit h hu, waits_unit h hu, waits_unit h hu⟩
  · exact ⟨waits_unit h hu, waits_unit h hu, waits_unit h hu⟩

theorem opSide_gives {rd ra rb : Nat} {f : Word → Word → Res} (r : Res) (p : Bool) (h : issues s (coreNum c) = true)
    (hf : f (reg s (coreNum c) ra).1 (reg s (coreNum c) rb).1 = r)
    (hp : ((reg s (coreNum c) ra).2 || (reg s (coreNum c) rb).2) = p) (ht : noTrap s (coreNum c) r.aex p = true) :
    ∃ t, (.next (opSide s (coreNum c) rd ra rb u f) : Host.Outcome State Fault Refusal) = .next t ∧
      stepped (withUnit (s.core (coreNum c)) u (sideOp (s.core (coreNum c)) rd r p)) (t.core (coreNum c)) ∧
        regsSet s t (coreNum c) 0 (0, false) ∧ onlyCore s t (coreNum c) [] :=
  ⟨_, rfl, opSide_performed h (coreNum_lt c) hf hp ht⟩

end

theorem trigRes_aex (x : Int) (d : Fin 17) : (trigRes x d).aex = 0 := by
  unfold trigRes
  split <;> rfl

theorem atan2Res_aex (a b : Word) : (atan2Res a b).aex = 0 := by
  unfold atan2Res
  extract_lets y x
  split_ifs <;> rfl

theorem sides_start {c : Core} {s : State} (h : issues s (coreNum c) = true) (rd ra rb : Fin 32) :
    let n := coreNum c
    let k := s.core n
    let a := (reg s n ra).1
    let b := (reg s n rb).1
    let pa := (reg s n ra).2
    let pb := (reg s n rb).2
    (∀ x ∈ [(Instr.div c rd ra rb, sDiv a b, pa || pb), (.divu c rd ra rb, uDiv a b, pa || pb),
        (.sqrt c rd ra, { val := wd (Nat.sqrt a.toNat), aex := 0 }, pa), (.fdiv c rd ra rb, fDiv a b, pa || pb),
        (.fsqrt c rd ra, fSqrt a, pa), (.recip c rd ra, fDiv 0x3F800000 a, pa)],
      noTrap s n x.2.1.aex x.2.2 = true →
      ∃ t, exec x.1 s = .next t ∧ stepped (withUnit k .divide (sideOp k rd x.2.1 x.2.2)) (t.core n) ∧
        regsSet s t n 0 (0, false) ∧ onlyCore s t n []) ∧
    (∀ x ∈ [(Instr.sin c rd ra, sinRes a, pa), (.cos c rd ra, cosRes a, pa), (.atan2 c rd ra rb, atan2Res a b, pa || pb)],
      ∃ t, exec x.1 s = .next t ∧ stepped (withUnit k .cordic (sideOp k rd x.2.1 x.2.2)) (t.core n) ∧
        regsSet s t n 0 (0, false) ∧ onlyCore s t n []) := by
  simp only [List.forall_mem_cons, List.not_mem_nil, false_imp_iff, implies_true, and_true]
  have hsqrt : ({ val := wd (isqrt 16 (reg s (coreNum c) ra).1.toNat) } : Res) =
      { val := wd (Nat.sqrt (reg s (coreNum c) ra).1.toNat), aex := 0 } := by rw [isqrt_sqrt _ (reg s (coreNum c) ra).1.isLt]
  have trig {r : Res} (p : Bool) (hr : r.aex = 0) : noTrap s (coreNum c) r.aex p = true := by rw [hr]; exact noTrap_zero ..
  exact ⟨⟨opSide_gives _ _ h rfl rfl, opSide_gives _ _ h rfl rfl, opSide_gives (ra := ra) (f := fun a _ => { val := wd (isqrt 16 a.toNat) }) { val := wd (Nat.sqrt (reg s (coreNum c) ra).1.toNat), aex := 0 } _
      h hsqrt (Bool.or_self _),
    opSide_gives _ _ h rfl rfl, opSide_gives (ra := ra) _ _ h rfl (Bool.or_self _), opSide_gives (ra := ra) _ _ h rfl (Bool.or_self _)⟩,
    opSide_gives (ra := ra) _ _ h rfl (Bool.or_self _) (trig _ (trigRes_aex ..)),
    opSide_gives (ra := ra) _ _ h rfl (Bool.or_self _) (trig _ (trigRes_aex ..)),
    opSide_gives _ _ h rfl rfl (trig _ (atan2Res_aex ..))⟩

/-- Settles O17: `toUnit` fills the unit, the result's delivery empties it, and in between its hazards hold what they name. -/
theorem sideUnitInstructionsComplete : Obligations.side_unit_instructions_complete := by
  refine ⟨fun c rd ra rb s h => sides_start h rd ra rb, fun c u o s hdark hu hy hidx hfree => ?_, fun c u o rd ra rb imm s h hu => ?_⟩
  · have hu' : inUnit (s.core (coreNum c)) u = some o := by cases u <;> exact hu
    obtain ⟨t, ht, hfree', hrest⟩ := sideUnitResult_completes hdark hu' hy hidx hfree
    exact ⟨t, ht, by cases u <;> exact hfree', hrest⟩
  · have hu' : inUnit (s.core (coreNum c)) u = some o := by cases u <;> exact hu
    exact ⟨waits_named rd ra rb imm h hu', waits_busyUnit rd ra rb h hu', waits_check h hu', add_beside h⟩

end Sys2Proof.Pipeline
end

section
namespace Sys2Proof.Pipeline
open Sys2Proof Sys2Proof.Machine Sys2Proof.Safety Sys2Proof.Laws
open Sys2Proof.Proofs hiding stepped zeroWord

/-! ### An instruction that waits at M (R134, R138, R139) -/

theorem noteDone_same {s0 s : State} {c : Nat} (h : (s.core c).seq = (s0.core c).seq) : noteDone s0 s c = s := by
  unfold noteDone
  rw [h, if_neg (by omega)]

theorem atMem_core (s : State) (c : Nat) : (atMem s c).core c = { s.core c with atM := true } := core_setCore_same ..

/-- An issued instruction that its target holds waits. -/
theorem held_waits {s : State} {c : Nat} (hc : c < 516) :
    waits s (endStep (noteDone s (atMem (hold s c) c) c) c) c := by
  obtain ⟨sk, hk⟩ := hold_core s hc
  have hm : (atMem (hold s c) c).core c =
      { s.core c with held := true, wait := (s.core c).wait - 1, waited := (s.core c).waited + 1, skid := sk, atM := true } := by
    rw [atMem_core, hk]
  rw [noteDone_same (by rw [hm]), endStep_held (by rw [hm])]
  refine ⟨by rw [hm], by rw [hm], by rw [hm], by rw [hm], by rw [hm], by rw [hm], fun r => ?_,
    onlyCore_trans (hold_onlyCore s hc []) (setCore_onlyCore ..)⟩
  rw [reg, hm]
  exact seen_congr rfl rfl rfl r

/-! ### Stores (R134, R138, R141) -/

/-- The entry of `m` bytes at `a`, from byte `i` of the word on. -/
def storeEntry (idx : Nat) (v : Tagged) (a i m : Nat) : SbEntry :=
  { idx := idx, commit := false, addr := a,
    bytes := (List.range m).map (fun j => (BitVec.ofNat 8 (v.1.toNat / 2 ^ (8 * (i + j))), v.2)) }

/-- The entries of a store of `n` bytes at `a`. -/
def storeEntries (idx : Nat) (v : Tagged) (a n : Nat) : List SbEntry :=
  if a % 4 + n ≤ 4 then [storeEntry idx v a 0 n]
  else [storeEntry idx v a 0 (4 - a % 4), storeEntry idx v ((a + (4 - a % 4)) % 2 ^ 32) (4 - a % 4) (n - (4 - a % 4))]

theorem halves_eq (a n : Nat) : halves a n =
    if a % 4 + n ≤ 4 then [(a, n)] else [(a, 4 - a % 4), ((a + (4 - a % 4)) % 2 ^ 32, n - (4 - a % 4))] := by
  unfold halves
  exact if_congr (by omega) rfl rfl

theorem storeEntries_length (idx : Nat) (v : Tagged) (a n : Nat) : (storeEntries idx v a n).length = (halves a n).length := by
  rw [halves_eq, storeEntries]
  split <;> rfl

theorem wordBytes_slice (v : Tagged) {i m n : Nat} (h : i + m ≤ n) (hn : n ≤ 4) : ((storeBytes v n).drop i).take m =
    (List.range m).map (fun j => (BitVec.ofNat 8 (v.1.toNat / 2 ^ (8 * (i + j))), v.2)) := by
  refine List.ext_getElem (by simp [storeBytes, wordBytes]; omega) fun j h1 h2 => ?_
  simp [storeBytes, wordBytes]

/-- How `storeAt` cuts its bytes into entries. -/
theorem storeEntries_fold (idx : Nat) (v : Tagged) (a : Nat) {n : Nat} (hn : n ≤ 4) :
    ((halves a n).foldl (fun (acc : List SbEntry × List (Byte × Bool)) h =>
      (acc.1 ++ [{ idx := idx, commit := false, addr := h.1, bytes := acc.2.take h.2 }], acc.2.drop h.2)) ([], storeBytes v n)).1 =
      storeEntries idx v a n := by
  rw [halves_eq, storeEntries]
  split
  next h =>
    have h1 := wordBytes_slice v (i := 0) (m := n) (n := n) (by omega) hn
    rw [List.drop_zero] at h1
    simp only [List.foldl_cons, List.foldl_nil, List.nil_append, h1, storeEntry]
  next h =>
    have h1 := wordBytes_slice v (i := 0) (m := 4 - a % 4) (n := n) (by omega) hn
    have h2 := wordBytes_slice v (i := 4 - a % 4) (m := n - (4 - a % 4)) (n := n) (by omega) hn
    rw [List.drop_zero] at h1
    simp only [List.foldl_cons, List.foldl_nil, List.nil_append, List.cons_append, h1, h2, storeEntry]

/-- A store may put these bytes here. -/
def storeMay (s : State) (c : Nat) (aw : Word) (n : Nat) (v : Tagged) : Prop :=
  judge1 s c .store aw.toNat n = 0 ∧ (v.2 && poisonBarred c aw.toNat) = false

theorem storeAt_full {s : State} {c n : Nat} {aw : Word} {v : Tagged} (upd : Option (Nat × Word)) (h : storeMay s c aw n v)
    (hroom : sbCap c < (s.core c).sb.length + (halves aw.toNat n).length) : storeAt s c aw n v upd = atMem (hold s c) c := by
  obtain ⟨hj, hp⟩ := h
  unfold storeAt
  dsimp only
  rw [if_neg (fun e => e hj), hp, if_neg Bool.false_ne_true, if_pos hroom]

/-- The state of a store between its counting and its completion. -/
def storeBuffered (s : State) (c : Nat) (aw : Word) (n : Nat) (v : Tagged) : State :=
  let m := if 512 ≤ c ∧ isSplit aw.toNat n then countSv s (c - 512) 1 3 aw.toNat else s
  m.setCore c { m.core c with sb := (s.core c).sb ++ storeEntries (s.core c).seq v aw.toNat n }

theorem storeAt_room {s : State} {c n : Nat} {aw : Word} {v : Tagged} (upd : Option (Nat × Word)) (hn : n ≤ 4)
    (h : storeMay s c aw n v) (hroom : (s.core c).sb.length + (halves aw.toNat n).length ≤ sbCap c) :
    storeAt s c aw n v upd = complete (storeBuffered s c aw n v) c (updOut upd) := by
  obtain ⟨hj, hp⟩ := h
  unfold storeAt
  dsimp only
  rw [if_neg (fun e => e hj), hp, if_neg Bool.false_ne_true, if_neg (Nat.not_lt.2 hroom), storeEntries_fold _ v _ hn]
  rfl

theorem storeBuffered_core {s : State} {c : Nat} (hc : c < 516) (aw : Word) (n : Nat) (v : Tagged) :
    (storeBuffered s c aw n v).core c = { s.core c with sb := (s.core c).sb ++ storeEntries (s.core c).seq v aw.toNat n } ∧
      onlyCore s (storeBuffered s c aw n v) c [] := by
  have hp : PmuOnly s (if 512 ≤ c ∧ isSplit aw.toNat n then countSv s (c - 512) 1 3 aw.toNat else s) :=
    .ite (countSv_pmuOnly s (by omega) 1 3 aw.toNat) (.refl s)
  unfold storeBuffered
  dsimp only
  generalize (if 512 ≤ c ∧ isSplit aw.toNat n then countSv s (c - 512) 1 3 aw.toNat else s) = m at hp ⊢
  exact ⟨by rw [core_setCore_same, hp.core], onlyCore_trans (hp.onlyCore c []) (setCore_onlyCore ..)⟩

theorem storeAt_performed {s : State} {c n : Nat} {aw : Word} {v : Tagged} (upd : Option (Nat × Word)) (hi : issues s c = true)
    (hc : c < 516) (hn : n ≤ 4) (h : storeMay s c aw n v)
    (hroom : (s.core c).sb.length + (halves aw.toNat n).length ≤ sbCap c) :
    Performed (complete (storeBuffered s c aw n v) c (updOut upd)) (endStep (noteDone s (storeAt s c aw n v upd) c) c) c
        { s.core c with sb := (s.core c).sb ++ storeEntries (s.core c).seq v aw.toNat n } (updOut upd) ∧
      onlyCore s (endStep (noteDone s (storeAt s c aw n v upd) c) c) c [] := by
  obtain ⟨-, -, -, hfar, hlong, -⟩ := issues_core hi
  obtain ⟨hcore, honly⟩ := storeBuffered_core (s := s) hc aw n v
  rw [storeAt_room upd hn h hroom]
  have hdone := complete_completed (storeBuffered s c aw n v) c (updOut upd)
  rw [hcore] at hdone
  have hperf := performed_end s hc hdone hfar hlong
  exact ⟨hperf, onlyCore_trans honly (onlyCore_trans (complete_onlyCore ..) hperf.frame)⟩

theorem regsSet_updOut {s t : State} {c : Nat} {k : CoreS} (upd : Option (Nat × Word))
    (h : ∀ r, reg t c r = seen (next (produce k (updOut upd))) r) (hk : SameRegs (s.core c) k) :
    regsSet s t c (updReg upd) (updWord upd, false) := by
  cases upd with
  | none => exact regsSet_nil h hk
  | some u => exact regsSet_now h hk

theorem store_gives {s : State} {c n rd : Nat} {aw : Word} (upd : Option (Nat × Word)) (hi : issues s c = true) (hc : c < 516) (hn : n ≤ 4)
    (rs : List Nat) (body : State → State) (hbody : body s = storeAt s c aw n (reg s c rd) upd)
    (h : storeMay s c aw n (reg s c rd)) :
    let t := issue s c { regs := rs } body
    let es := storeEntries (s.core c).seq (reg s c rd) aw.toNat n
    ((s.core c).sb.length + es.length ≤ sbCap c → regsSet s t c (updReg upd) (updWord upd, false) ∧
      stepped { s.core c with sb := (s.core c).sb ++ es } (t.core c) ∧ onlyCore s t c []) ∧
    (sbCap c < (s.core c).sb.length + es.length → waits s t c) := by
  rw [issue_plain rs body hi, hbody]
  dsimp only
  rw [storeEntries_length]
  refine ⟨fun hroom => ?_, fun hfull => ?_⟩
  · obtain ⟨hperf, honly⟩ := storeAt_performed upd hi hc hn h hroom
    exact ⟨regsSet_updOut upd hperf.regs ⟨rfl, rfl, rfl⟩, hperf.step, honly⟩
  · rw [storeAt_full upd h hfull]
    exact held_waits hc

section
variable {c : Core} {s : State} {rd ra : Fin 32} {imm : BitVec 16}

theorem storeForm_gives (n : Nat) (hi : issues s (coreNum c) = true) (hb : (baseAddr s (coreNum c) ra).2 = false) (hn : n ≤ 4)
    (h : storeMay s (coreNum c) ((baseAddr s (coreNum c) ra).1 + imm.signExtend 32) n (reg s (coreNum c) rd)) :
    let t := storeForm s (coreNum c) n rd ra imm
    let es := storeEntries (s.core (coreNum c)).seq (reg s (coreNum c) rd) ((baseAddr s (coreNum c) ra).1 + imm.signExtend 32).toNat n
    ((s.core (coreNum c)).sb.length + es.length ≤ sbCap (coreNum c) → regsSet s t (coreNum c) 0 (0, false) ∧
      stepped { s.core (coreNum c) with sb := (s.core (coreNum c)).sb ++ es } (t.core (coreNum c)) ∧ onlyCore s t (coreNum c) []) ∧
    (sbCap (coreNum c) < (s.core (coreNum c)).sb.length + es.length → waits s t (coreNum c)) :=
  store_gives none hi (coreNum_lt c) hn _ _ (if_neg (by rw [hb]; exact Bool.false_ne_true)) h

theorem storePost_gives (n : Nat) (hi : issues s (coreNum c) = true) (hb : (baseAddr s (coreNum c) ra).2 = false) (hn : n ≤ 4)
    (h : storeMay s (coreNum c) (baseAddr s (coreNum c) ra).1 n (reg s (coreNum c) rd)) :
    let t := storePost s (coreNum c) n rd ra imm
    let es := storeEntries (s.core (coreNum c)).seq (reg s (coreNum c) rd) (baseAddr s (coreNum c) ra).1.toNat n
    ((s.core (coreNum c)).sb.length + es.length ≤ sbCap (coreNum c) →
      regsSet s t (coreNum c) ra (postAddr s (coreNum c) (baseAddr s (coreNum c) ra).1 imm (n / 2), false) ∧
      stepped { s.core (coreNum c) with sb := (s.core (coreNum c)).sb ++ es } (t.core (coreNum c)) ∧ onlyCore s t (coreNum c) []) ∧
    (sbCap (coreNum c) < (s.core (coreNum c)).sb.length + es.length → waits s t (coreNum c)) :=
  store_gives (some (ra.val, postAddr s (coreNum c) (baseAddr s (coreNum c) ra).1 imm (n / 2))) hi (coreNum_lt c) hn _ _
    (if_neg (by rw [hb]; exact Bool.false_ne_true)) h

/-- A store whose data may stand at its address. -/
theorem storeMay_of {aw : Word} {n : Nat} {v : Tagged} (hj : judge1 s (coreNum c) .store aw.toNat n = 0)
    (hv : v.2 = true → periph aw.toNat = false ∧ (512 ≤ coreNum c → hwWindow aw.toNat = false)) : storeMay s (coreNum c) aw n v := by
  refine ⟨hj, ?_⟩
  cases hp : v.2 with
  | false => rfl
  | true =>
    obtain ⟨h1, h2⟩ := hv hp
    unfold poisonBarred
    by_cases hc : 512 ≤ coreNum c
    · simp [h1, h2 hc]
    · simp [h1, hc]

end

/-- Settles O21: every form is `storeAt` at its address with its base update. -/
theorem storesComplete : Obligations.stores_complete := by
  intro c rd ra imm s hi n b v k hb
  simp only [List.forall_mem_cons, List.not_mem_nil, false_imp_iff, implies_true, and_true]
  have form (m : Nat) (hm : m ≤ 4) (hj : judge1 s n .store (b + imm.signExtend 32).toNat m = 0)
      (hv : v.2 = true → periph (b + imm.signExtend 32).toNat = false ∧ (512 ≤ n → hwWindow (b + imm.signExtend 32).toNat = false)) :=
    storeForm_gives m hi hb hm (storeMay_of hj hv)
  have post (m : Nat) (hm : m ≤ 4) (hj : judge1 s n .store b.toNat m = 0)
      (hv : v.2 = true → periph b.toNat = false ∧ (512 ≤ n → hwWindow b.toNat = false)) :=
    storePost_gives (imm := imm) m hi hb hm (storeMay_of hj hv)
  refine ⟨fun hj hv => ?_, fun hj hv => ?_, fun hj hv => ?_, fun hj hv => ?_, fun hj hv => ?_⟩
  · obtain ⟨h1, h2⟩ := form 1 (by decide) hj hv
    exact ⟨fun hr => ⟨_, rfl, h1 hr⟩, fun hr => ⟨_, rfl, h2 hr⟩⟩
  · obtain ⟨h1, h2⟩ := form 2 (by decide) hj hv
    exact ⟨fun hr => ⟨_, rfl, h1 hr⟩, fun hr => ⟨_, rfl, h2 hr⟩⟩
  · obtain ⟨h1, h2⟩ := form 4 (by decide) hj hv
    exact ⟨fun hr => ⟨_, rfl, h1 hr⟩, fun hr => ⟨_, rfl, h2 hr⟩⟩
  · obtain ⟨h1, h2⟩ := post 2 (by decide) hj hv
    exact ⟨fun hr => ⟨_, rfl, h1 hr⟩, fun hr => ⟨_, rfl, h2 hr⟩⟩
  · obtain ⟨h1, h2⟩ := post 4 (by decide) hj hv
    exact ⟨fun hr => ⟨_, rfl, h1 hr⟩, fun hr => ⟨_, rfl, h2 hr⟩⟩

end Sys2Proof.Pipeline
end

section
namespace Sys2Proof.Pipeline
open Sys2Proof Sys2Proof.Machine Sys2Proof.Safety Sys2Proof.Laws
open Sys2Proof.Proofs hiding stepped zeroWord

/-! ### Bytes written to a protected memory (R235–R237) -/

/-- Of the state, only bytes of memory, their check bits and the valid bits differ. -/
def MemOnly (s t : State) : Prop := { t with mem := s.mem, chk := s.chk, vld := s.vld } = s

namespace MemOnly

variable {s t u : State}

theorem refl (s : State) : MemOnly s s := rfl

theorem trans (h : MemOnly s t) (g : MemOnly t u) : MemOnly s u := by
  have e := congrArg (fun v : State => { v with mem := s.mem, chk := s.chk, vld := s.vld }) g
  exact e.trans h

theorem regs (h : MemOnly s t) : t.regs = s.regs := (congrArg State.regs h :)
theorem cores (h : MemOnly s t) : t.cores = s.cores := (congrArg State.cores h :)
theorem core (h : MemOnly s t) (n : Nat) : t.core n = s.core n := by rw [State.core, h.cores, State.core]
theorem rd (h : MemOnly s t) (r : Reg) (i j : Nat) : t.rd r i j = s.rd r i j := by rw [State.rd, h.regs, State.rd]
theorem rdF (h : MemOnly s t) (r : Reg) (i j hi lo : Nat) : t.rdF r i j hi lo = s.rdF r i j hi lo := by rw [State.rdF, h.rd, State.rdF]

end MemOnly

theorem putByte_memOnly (s : State) (a : Nat) (d : Byte) (dev : BitVec 5) : MemOnly s (s.putByte a d dev) := rfl

theorem vld_memOnly (s : State) (v : List (Nat × BitVec 3)) : MemOnly s { s with vld := v } := rfl

theorem openWord_memOnly (s : State) (a : Nat) : MemOnly s (s.openWord a) := by
  unfold State.openWord
  split
  · exact .refl s
  · have h : MemOnly s (s.forN 8 fun s i => s.putByte (a / 8 * 8 + i) 0 0) :=
      forN_keeps_lt (MemOnly s) (fun t i _ ht => ht.trans (putByte_memOnly t _ 0 0)) (.refl s)
    exact h.trans (vld_memOnly _ _)

/-- A byte stored in an open word reads as it was stored, poison as poison. -/
theorem byteAt_storeByte (s : State) (a b : Nat) (x : Byte × Bool) (hv : majority (s.vldAt a) = true) :
    (s.storeByte a x).byteAt b = if b = a then x else s.byteAt b := by
  by_cases h : b = a
  · subst h
    have hvld : (s.storeByte b x).vldAt b = s.vldAt b := rfl
    rw [if_pos rfl, State.byteAt, hvld, if_pos hv, State.storeByte, dataAt_putByte, if_pos rfl, devAt_putByte, if_pos rfl]
    obtain ⟨d, p⟩ := x
    cases p
    · have hdec : decodeByte d 0 = (.clean, d) := rfl
      exact congrArg (fun x : ByteClass × Byte => (x.2, x.1 == .poison || x.1 == .uncorrectable)) hdec
    · have hdec : decodeByte d 0x1F = (.poison, d) := rfl
      simp only [if_true]
      rw [hdec]
      rfl
  · rw [if_neg h]
    exact byteAt_congr rfl (by rw [State.storeByte, dataAt_putByte, if_neg h]) (by rw [State.storeByte, devAt_putByte, if_neg h])

/-- Bytes stored one after another in open words. -/
theorem storeBytes_stand (a : Nat) (bs : List (Byte × Bool)) (k : Nat) (s : State)
    (hv : ∀ i < bs.length, majority (s.vldAt (a + (k + i))) = true) :
    let t := (bs.zipIdx k).foldl (fun s p => s.storeByte (a + p.2) p.1) s
    MemOnly s t ∧ (∀ i (hi : i < bs.length), t.byteAt (a + (k + i)) = bs[i]) ∧
      ∀ b, b < a + k ∨ a + k + bs.length ≤ b → t.byteAt b = s.byteAt b := by
  induction bs generalizing k s with
  | nil => exact ⟨.refl s, fun i hi => absurd hi (Nat.not_lt_zero i), fun _ _ => rfl⟩
  | cons x bs ih =>
    have hat (b : Nat) := byteAt_storeByte s (a + k) b x (hv 0 (by simp))
    obtain ⟨hrest, hdone, hkept⟩ := ih (k + 1) (s.storeByte (a + k) x) (fun i hi => by
      have h := hv (i + 1) (by simpa using hi)
      rw [show k + (i + 1) = k + 1 + i by omega] at h
      exact h)
    dsimp only
    rw [List.zipIdx_cons, List.foldl_cons]
    refine ⟨(putByte_memOnly s _ _ _).trans hrest, fun i hi => ?_, fun b hb => ?_⟩
    · cases i with
      | zero =>
        rw [hkept _ (by omega), hat, if_pos (by omega)]
        rfl
      | succ i =>
        rw [show k + (i + 1) = k + 1 + i by omega, hdone i (by simpa using hi)]
        rfl
    · rw [List.length_cons] at hb
      rw [hkept b (by omega), hat, if_neg (by omega)]

/-- Memory `m` serves accesses and no test flip is armed in it (R238, R245). -/
def memQuiet (s : State) (m : Nat) : Prop := s.bit .memStat m 0 7 = false ∧ s.rdF .memFlip m 0 12 0 = 0

/-- `t` is `s` with the bytes `bs` at `a`, in the memories alone. -/
structure Stored (s t : State) (a : Nat) (bs : List (Byte × Bool)) : Prop where
  only : MemOnly s t
  at_ : ∀ i (hi : i < bs.length), t.byteAt (a + i) = bs[i]
  else_ : ∀ b, b < a ∨ a + bs.length ≤ b → t.byteAt b = s.byteAt b

theorem clring_eq {s : State} {a m : Nat} (h : memOf a = some m) : clring s a = s.bit .memStat m 0 7 := by
  rw [clring, h]

/-- A write of a quiet memory opens the word and stores its bytes. -/
theorem putWord_quiet {s : State} {a m : Nat} {bs : List (Byte × Bool)} (who : Nat) (hm : memOf a = some m) (hq : memQuiet s m)
    (hword : a % 8 + bs.length ≤ 8) :
    putWord s who a bs = (bs.zipIdx 0).foldl (fun s p => s.storeByte (a + p.2) p.1) (s.openWord a) := by
  obtain ⟨hclr, hflip⟩ := hq
  have hawait : awaitClear s a = s := awaitClear_idle (by rw [clring_eq hm, hclr])
  obtain ⟨-, hopen, -⟩ := openWord_reads s a
  obtain ⟨honly, -⟩ := storeBytes_stand a bs 0 (s.openWord a) (fun i hi => hopen _ (by omega))
  rw [putWord, hawait, flipApply, hm]
  refine if_neg fun hc => hc.1 ?_
  rw [((openWord_memOnly s a).trans honly).rdF, hflip]

/-- Bytes put into one word of a quiet memory. -/
theorem putWord_stored {s : State} {a m : Nat} {bs : List (Byte × Bool)} (who : Nat) (hm : memOf a = some m) (hq : memQuiet s m)
    (hword : a % 8 + bs.length ≤ 8) : Stored s (putWord s who a bs) a bs := by
  obtain ⟨-, hopen, hread⟩ := openWord_reads s a
  obtain ⟨honly, hdone, hkept⟩ := storeBytes_stand a bs 0 (s.openWord a) (fun i hi => hopen _ (by omega))
  rw [putWord_quiet who hm hq hword]
  refine ⟨(openWord_memOnly s a).trans honly, fun i hi => ?_, fun b hb => ?_⟩
  · have h := hdone i hi
    rwa [Nat.zero_add] at h
  · rw [hkept b (by omega), hread]

/-! ### The count of an access (R361) changes no memory -/

theorem PmuOnly.byteAt {s t : State} (h : PmuOnly s t) (a : Nat) : t.byteAt a = s.byteAt a := by
  refine byteAt_congr ?_ ?_ ?_
  · rw [State.vldAt, h.vld, State.vldAt]
  · rw [State.dataAt, h.mem, State.dataAt]
  · rw [State.devAt, h.chk, State.devAt]

theorem PmuOnly.bytesAt {s t : State} (h : PmuOnly s t) (a n : Nat) : t.bytesAt a n = s.bytesAt a n := by
  simp only [State.bytesAt, h.byteAt]

theorem PmuOnly.classAt {s t : State} (h : PmuOnly s t) (a : Nat) : t.classAt a = s.classAt a := by
  rw [State.classAt, State.vldAt, h.vld, State.dataAt, h.mem, State.devAt, h.chk, State.classAt, State.vldAt, State.dataAt, State.devAt]

theorem memOf_lt {a m : Nat} (h : memOf a = some m) : m < 1092 := by
  unfold memOf at h
  split_ifs at h <;> (injection h; omega)

/-- Where the protected memories lie. -/
theorem memOf_bounds {a m : Nat} (h : memOf a = some m) : 0x10000000 ≤ a ∧ a < 0x20400000 := by
  unfold memOf at h
  split_ifs at h <;> omega

/-- The registers of the memories are none of the PMU. -/
theorem PmuOnly.memReg {s t : State} (h : PmuOnly s t) {r : Reg} (hr : r = .memStat ∨ r = .memFlip) {m : Nat} (hm : m < 1092) :
    t.rd r m 0 = s.rd r m 0 := by
  rcases hr with rfl | rfl
  · exact h.rd (addr_not_inPmu (by decide) (by decide) (by decide) hm (by decide))
  · exact h.rd (addr_not_inPmu (by decide) (by decide) (by decide) hm (by decide))

theorem PmuOnly.memQuiet {s t : State} (h : PmuOnly s t) {m : Nat} (hm : m < 1092) : memQuiet t m ↔ memQuiet s m := by
  unfold Pipeline.memQuiet
  rw [State.bit, h.memReg (.inl rfl) hm, State.bit, State.rdF, h.memReg (.inr rfl) hm, State.rdF]

theorem PmuOnly.clring {s t : State} (h : PmuOnly s t) (a : Nat) : clring t a = clring s a := by
  unfold Machine.clring
  cases hm : memOf a with
  | none => rfl
  | some m =>
    show t.bit .memStat m 0 7 = s.bit .memStat m 0 7
    rw [State.bit, h.memReg (.inl rfl) (memOf_lt hm), State.bit]

/-- `t` is `s` with the bytes `bs` at `a`, and what the PMU counted of it. -/
structure Written (s t : State) (a : Nat) (bs : List (Byte × Bool)) : Prop where
  frame : onlyCore { s with mem := t.mem, chk := t.chk, vld := t.vld } t 0 [] ∧ t.cores = s.cores
  at_ : ∀ i (hi : i < bs.length), t.byteAt (a + i) = bs[i]
  else_ : ∀ b, b < a ∨ a + bs.length ≤ b → t.byteAt b = s.byteAt b

theorem written_of {s u t : State} {a : Nat} {bs : List (Byte × Bool)} (hp : PmuOnly s u) (h : Stored u t a bs) :
    Written s t a bs := by
  refine ⟨⟨⟨?_, fun m _ => ?_, fun x hx _ => ?_⟩, by rw [h.only.cores, hp.cores]⟩, h.at_, fun b hb => ?_⟩
  · have h1 := congrArg (fun v : State => { v with cores := s.cores, regs := s.regs, pmu := s.pmu, mem := t.mem, chk := t.chk, vld := t.vld }) h.only
    have h2 := congrArg (fun v : State => { v with mem := t.mem, chk := t.chk, vld := t.vld }) hp.rest
    have hc := congrArg (fun v : State => { v with cores := s.cores }) h2
    exact h1.trans hc
  · show t.core m = s.core m
    rw [h.only.core, hp.core]
  · show tget regDef t.regs x = tget regDef s.regs x
    rw [h.only.regs]
    exact hp.regs x hx (by simp)
  · rw [h.else_ b hb, hp.byteAt]

theorem writeWord_written {s : State} {a m : Nat} {bs : List (Byte × Bool)} (who : Nat) (hm : memOf a = some m) (hq : memQuiet s m)
    (hword : a % 8 + bs.length ≤ 8) : Written s (writeWord s who a bs) a bs := by
  have hp := countRowMem_pmuOnly s m who
  have hgo : writeWord s who a bs = putWord (countRowMem s m who) who a bs := by rw [writeWord, hm]
  rw [hgo]
  exact written_of hp (putWord_stored who hm ((hp.memQuiet (memOf_lt hm)).2 hq) hword)

theorem writeMem_written {s : State} {a m : Nat} {bs : List (Byte × Bool)} (who : Nat) (hm : memOf a = some m) (hq : memQuiet s m)
    (hword : a % 8 + bs.length ≤ 8) : Written s (writeMem s who a bs) a bs := by
  have hgo : writeMem s who a bs = writeWord s who a bs := if_pos (by omega)
  rw [hgo]
  exact writeWord_written who hm hq hword

theorem not_periph {a m : Nat} (h : memOf a = some m) : periph a = false ∧ hwWindow a = false := by
  obtain ⟨h1, h2⟩ := memOf_bounds h
  simp only [periph, hwWindow, Bool.and_eq_false_iff, decide_eq_false_iff_not]
  omega

/-- A range within one multiple of `w` is one piece. -/
theorem pieces_one {w a n : Nat} (h0 : 0 < n) (h : a % w + n ≤ w) : pieces w n a n = [(a, n)] := by
  have hmin : Nat.min n (w - a % w) = n := Nat.min_eq_left (by omega)
  have hnil (f b : Nat) : pieces w f b 0 = [] := by cases f <;> rfl
  obtain ⟨f, rfl⟩ := Nat.exists_eq_succ_of_ne_zero (Nat.ne_of_gt h0)
  rw [pieces, if_neg (by omega)]
  dsimp only
  rw [hmin, Nat.sub_self, hnil]

theorem busWrite_written {s : State} {a m : Nat} {bs : List (Byte × Bool)} (who : Nat) (hm : memOf a = some m) (hq : memQuiet s m)
    (hne : bs ≠ []) (hword : a % 8 + bs.length ≤ 8) : Written s (busWrite s who a bs) a bs := by
  obtain ⟨hper, hhw⟩ := not_periph hm
  have hgo : busWrite s who a bs = writeWord s who a bs := by
    rw [busWrite, hper, if_neg Bool.false_ne_true, pieces_one (List.length_pos_iff.2 hne) hword]
    simp only [List.foldl_cons, List.foldl_nil, List.take_length]
    rw [writePiece, hper, hhw, hm]
    rfl
  rw [hgo]
  exact writeWord_written who hm hq hword

theorem Written.trans_pmu {s u t : State} {a : Nat} {bs : List (Byte × Bool)} (hp : PmuOnly s u) (h : Written u t a bs) :
    Written s t a bs := by
  obtain ⟨⟨h1, h2, h3⟩, hc⟩ := h.frame
  refine ⟨⟨⟨?_, fun m hm => (h2 m hm).trans (hp.core m), fun x hx hn => (h3 x hx hn).trans (hp.regs x hx (by simp))⟩, hc.trans hp.cores⟩,
    h.at_, fun b hb => (h.else_ b hb).trans (hp.byteAt b)⟩
  have e1 := congrArg (fun v : State => { v with cores := s.cores, regs := s.regs, pmu := s.pmu }) h1
  have e2 := congrArg (fun v : State => { v with cores := s.cores, mem := t.mem, chk := t.chk, vld := t.vld }) hp.rest
  exact e1.trans e2

/-! ### The store buffer drains (R138) -/

theorem ceData_split {n a : Nat} (h1 : 0x4000 ≤ a) : ceData n a % 8 = a % 8 := by
  have h := memBase_mod (2 * n + 1)
  unfold ceData
  omega

/-- An entry that is data for a memory. -/
theorem drainEntry_written {s : State} {c m : Nat} {e : SbEntry} (hc : c < 516) (hcommit : e.commit = false) (hne : e.bytes ≠ [])
    (hm : memOf (busAddr c e.addr) = some m) (hq : memQuiet s m) (hword : busAddr c e.addr % 8 + e.bytes.length ≤ 8) :
    Written s (drainEntry s c e) (busAddr c e.addr) e.bytes := by
  have hb := memOf_bounds hm
  by_cases h5 : c < 512
  · have hdrain : drainEntry s c e = if 0x60000000 ≤ e.addr then _ else if e.addr < 0x8000 then writeMem s c (ceData c e.addr) e.bytes
        else writeMem s c e.addr e.bytes := (if_pos h5).trans (if_neg (by rw [hcommit]; exact Bool.false_ne_true))
    have hgo : drainEntry s c e = writeMem s c (busAddr c e.addr) e.bytes := by
      by_cases h8 : e.addr < 0x8000
      · have ha : busAddr c e.addr = ceData c e.addr := if_pos ⟨h5, h8⟩
        rw [hdrain, ha, if_neg (by omega), if_pos h8]
      · have ha : busAddr c e.addr = e.addr := if_neg fun h => h8 h.2
        rw [ha] at hb
        rw [hdrain, ha, if_neg (by omega), if_neg h8]
    rw [hgo]
    exact writeMem_written c hm hq hword
  · have ha : busAddr c e.addr = e.addr := if_neg fun h => h5 h.1
    rw [ha] at hm hword ⊢
    have hp : PmuOnly s (countSv s (c - 512) 1 1 e.addr) := countSv_pmuOnly s (by omega) ..
    have hgo : drainEntry s c e = busWrite (countSv s (c - 512) 1 1 e.addr) c e.addr e.bytes := if_neg h5
    rw [hgo]
    exact (busWrite_written c hm ((hp.memQuiet (memOf_lt hm)).2 hq) hne hword).trans_pmu hp

theorem core_congr {s t : State} (h : t.cores = s.cores) (n : Nat) : t.core n = s.core n := by rw [State.core, h, State.core]

/-- Settles O22: the entry's bytes are put into their word of a quiet memory, and only the PMU's counters see it besides. -/
theorem storeBufferDrains : Obligations.store_buffer_drains := by
  intro c e rest m s n a hsb hoff hy hcommit h4 hmem hword hwhere hne hsv hclr hflip
  have hc := coreNum_lt c
  have hpos : 0 < e.bytes.length := List.length_pos_iff.2 hne
  have hm : memOf a = some m := hmem 0 hpos
  have hfit : a % 8 + e.bytes.length ≤ 8 := by omega
  have hclr' : clring s a = false := by rw [clring_eq hm, hclr]
  have hw : Written (s.setCore n { s.core n with sb := rest }) (drainEntry (s.setCore n { s.core n with sb := rest }) n e) a e.bytes :=
    drainEntry_written hc hcommit hne hm ⟨hclr, hflip⟩ hfit
  generalize hu : drainEntry (s.setCore n { s.core n with sb := rest }) n e = u at hw
  obtain ⟨⟨hrest, -, hregs⟩, hcores⟩ := hw.frame
  have hcore (j : Nat) : u.core j = (s.setCore n { s.core n with sb := rest }).core j := core_congr hcores j
  have hcn : u.core n = { s.core n with sb := rest } := by rw [hcore, core_setCore_same]
  have hexec : exec (.storeBufferDrain c) s = .next u := by
    have hend : endYield u n = u := if_pos (by rw [hcn]; simp [hy])
    show execStoreBufferDrain c s = _
    unfold execStoreBufferDrain
    dsimp only
    rw [hsb]
    dsimp only
    rw [hoff, hcommit, hclr', if_neg (by simp), hu, hend]
  refine ⟨u, hexec, hcn, fun j hj => by rw [hcore, core_setCore, if_neg hj], fun i hi => ?_, fun x hx => hw.else_ x hx, ?_, hregs⟩
  · rw [hw.at_ i hi, List.getElem?_eq_getElem hi]
  · have h := congrArg (fun v : State => { v with mem := s.mem, chk := s.chk, vld := s.vld, cores := s.cores }) hrest
    exact h

end Sys2Proof.Pipeline
end

section
namespace Sys2Proof.Pipeline
open Sys2Proof Sys2Proof.Machine Sys2Proof.Safety Sys2Proof.Laws
open Sys2Proof.Proofs hiding stepped zeroWord

/-! ### What a read counts (R239, R240) -/

/-- What is seen of memory `m`'s error registers, its repair slot and the fault register. -/
structure MemSeen where
  ceCount : Nat
  ueCount : Nat
  poCount : Nat
  ceAddr : Word
  ueAddr : Word
  ce : Bool
  ue : Bool
  po : Bool
  held : Bool
  repair : Option Nat
  flt : Bool

/-- The view that the words of these registers give. -/
def seenOf (cnt cea uea stat : Word) (rep : Option Nat) (flt : Word) : MemSeen :=
  { ceCount := fld cnt 15 0, ueCount := fld cnt 23 16, poCount := fld cnt 31 24, ceAddr := cea, ueAddr := uea, ce := bitOf stat 0,
    ue := bitOf stat 1, po := bitOf stat 2, held := bitOf stat 8, repair := rep, flt := bitOf flt 2 }

def memSeen (s : State) (m : Nat) : MemSeen :=
  seenOf (s.rd .memEcnt m 0) (s.rd .memCeaddr m 0) (s.rd .memUeaddr m 0) (s.rd .memStat m 0) (s.memS m).repair (s.rd .fmFlt 0 0)

/-- The registers of a memory's errors are told apart. -/
theorem rd_wr_errors (s : State) {r q : Reg} {m : Nat} (v : Word) (hm : m < 1092)
    (hr : r ∈ [Reg.memEcnt, .memCeaddr, .memUeaddr, .memStat]) (hq : q ∈ [Reg.memEcnt, .memCeaddr, .memUeaddr, .memStat])
    (h : q ≠ r) : (s.wr r m 0 v).rd q m 0 = s.rd q m 0 := by
  have hin : ∀ x ∈ [Reg.memEcnt, .memCeaddr, .memUeaddr, .memStat], x.info.ni = 1092 ∧ 0 < x.info.nj := by decide
  exact rd_wr_other s v h ((hin r hr).1 ▸ hm) (hin r hr).2 ((hin q hq).1 ▸ hm) (hin q hq).2

theorem rd_flt_wr_errors (s : State) {r : Reg} {m : Nat} (v : Word) (hm : m < 1092)
    (hr : r ∈ [Reg.memEcnt, .memCeaddr, .memUeaddr, .memStat]) : (s.wr r m 0 v).rd .fmFlt 0 0 = s.rd .fmFlt 0 0 := by
  have hin : ∀ x ∈ [Reg.memEcnt, .memCeaddr, .memUeaddr, .memStat], x.info.ni = 1092 ∧ 0 < x.info.nj ∧ Reg.fmFlt ≠ x := by decide
  exact rd_wr_other s v (hin r hr).2.2 ((hin r hr).1 ▸ hm) (hin r hr).2.1 (by decide) (by decide)

theorem rd_errors_wr_flt (s : State) {q : Reg} {m : Nat} (v : Word) (hm : m < 1092)
    (hq : q ∈ [Reg.memEcnt, .memCeaddr, .memUeaddr, .memStat]) : (s.wr .fmFlt 0 0 v).rd q m 0 = s.rd q m 0 := by
  have hin : ∀ x ∈ [Reg.memEcnt, .memCeaddr, .memUeaddr, .memStat], x.info.ni = 1092 ∧ 0 < x.info.nj ∧ x ≠ Reg.fmFlt := by decide
  exact rd_wr_other s v (hin q hq).2.2 (by decide) (by decide) ((hin q hq).1 ▸ hm) (hin q hq).2.1

theorem rd_errors_record (s : State) {q : Reg} {m : Nat} (code src : Nat) (p0 p1 p2 p3 : Word) (hm : m < 1092)
    (hq : q ∈ [Reg.memEcnt, .memCeaddr, .memUeaddr, .memStat]) : (s.record code src p0 p1 p2 p3).rd q m 0 = s.rd q m 0 := by
  have hin : ∀ x ∈ [Reg.memEcnt, .memCeaddr, .memUeaddr, .memStat], x.info.ni = 1092 ∧ 0 < x.info.nj ∧ x ∉ [Reg.cbStat] := by decide
  exact keepsRegs_record s code src p0 p1 p2 p3 q m 0 (hin q hq).2.2 ((hin q hq).1 ▸ hm) (hin q hq).2.1

/-- The word of an error count that has gone up. -/
def counted (w : Word) (hi lo : Nat) : Word := setFld w hi lo (Nat.min (fld w hi lo + 1) (2 ^ (hi + 1 - lo) - 1))

theorem fld_counted_same (w : Word) {hi lo : Nat} (hh : hi < 32) :
    fld (counted w hi lo) hi lo = Nat.min (fld w hi lo + 1) (2 ^ (hi + 1 - lo) - 1) := by
  have hmin : Nat.min (fld w hi lo + 1) (2 ^ (hi + 1 - lo) - 1) ≤ 2 ^ (hi + 1 - lo) - 1 := Nat.min_le_right ..
  have hpos : 0 < 2 ^ (hi + 1 - lo) := by positivity
  rw [counted, fld_setFld_same _ _ _ _ hh, Nat.mod_eq_of_lt (by omega)]

theorem fld_counted_ne (w : Word) {hi lo hi' lo' : Nat} (hh : hi' < 32) (h : hi < lo' ∨ hi' < lo) :
    fld (counted w hi lo) hi' lo' = fld w hi' lo' := fld_setFld_ne _ _ _ _ _ _ hh h

theorem seenOf_ce (cnt cea uea stat : Word) (rep : Option Nat) (flt : Word) (w : Nat) :
    seenOf (counted cnt 15 0) (wd w) uea (setBit stat 0 true) (some (rep.getD w)) flt =
      { seenOf cnt cea uea stat rep flt with
        ceCount := Nat.min (fld cnt 15 0 + 1) 65535, ceAddr := wd w, ce := true, repair := some (rep.getD w) } := by
  unfold seenOf
  rw [fld_counted_same _ (by decide), fld_counted_ne _ (by decide) (by decide), fld_counted_ne _ (by decide) (by decide)]
  simp [bitOf_setBit]

theorem seenOf_ue (cnt cea uea stat : Word) (rep : Option Nat) (flt : Word) (w : Nat) :
    seenOf (counted cnt 23 16) cea (if bitOf stat 8 then uea else wd w) (setBit (if bitOf stat 8 then stat else setBit stat 8 true) 1 true)
        (some (rep.getD w)) (setBit flt 2 true) =
      { seenOf cnt cea uea stat rep flt with
        ueCount := Nat.min (fld cnt 23 16 + 1) 255, ueAddr := if bitOf stat 8 then uea else wd w, ue := true, held := true,
        repair := some (rep.getD w), flt := true } := by
  unfold seenOf
  rw [fld_counted_same _ (by decide), fld_counted_ne _ (by decide) (by decide), fld_counted_ne _ (by decide) (by decide)]
  by_cases h : bitOf stat 8 = true <;> simp [bitOf_setBit, h]

theorem seenOf_po (cnt cea uea stat : Word) (rep : Option Nat) (flt : Word) :
    seenOf (counted cnt 31 24) cea uea (setBit stat 2 true) rep flt =
      { seenOf cnt cea uea stat rep flt with poCount := Nat.min (fld cnt 31 24 + 1) 255, po := true } := by
  unfold seenOf
  rw [fld_counted_same _ (by decide), fld_counted_ne _ (by decide) (by decide), fld_counted_ne _ (by decide) (by decide)]
  simp [bitOf_setBit]

theorem toRepair_memS (s : State) (m w : Nat) :
    (toRepair s m w).memS m = { s.memS m with repair := some ((s.memS m).repair.getD w) } := by
  have h := tget_tput_same (fun _ => {}) s.mems m ({ s.memS m with repair := some ((s.memS m).repair.getD w) } : MemS)
  exact h

theorem countUe_rest (s : State) (m w : Nat) : { countUe s m w with regs := s.regs, book := s.book } = s := by
  unfold countUe
  extract_lets t u
  have ht : { t with regs := s.regs } = s := rfl
  have hu : { u with regs := s.regs } = s := by
    show { (if t.bit .memStat m 0 8 then t else (t.wr .memUeaddr m 0 (wd w)).setB .memStat m 0 8) with regs := s.regs } = s
    split <;> exact ht
  have hr := record_rest (u.setB .memStat m 0 1) 0x0301 0x54 (wd m) (wd w) 0 0
  have e := congrArg (fun v : State => { v with regs := s.regs, book := s.book }) hr
  have f := congrArg (fun v : State => { v with book := s.book }) hu
  exact e.trans f

/-- The count and the flag of one kind of error. -/
theorem memSeen_note (s : State) {m hi lo b : Nat} (hm : m < 1092) :
    memSeen ((s.incF .memEcnt m 0 hi lo).setB .memStat m 0 b) m =
      seenOf (counted (s.rd .memEcnt m 0) hi lo) (s.rd .memCeaddr m 0) (s.rd .memUeaddr m 0) (setBit (s.rd .memStat m 0) b true)
        (s.memS m).repair (s.rd .fmFlt 0 0) := by
  have other (u : State) {r q : Reg} (v : Word) := rd_wr_errors u (r := r) (q := q) v hm
  have fault (u : State) {r : Reg} (v : Word) := rd_flt_wr_errors u (r := r) v hm
  unfold memSeen State.incF State.wrF State.setB State.wrB
  simp (disch := decide) only [other, fault, rd_wr_same]
  rfl

/-- A correction is counted and offered to the repair slot (R239). -/
theorem memSeen_ce (s : State) {m : Nat} (hm : m < 1092) (w : Nat) : memSeen (toRepair (countCe s m w) m w) m =
    { memSeen s m with ceCount := Nat.min ((memSeen s m).ceCount + 1) 65535, ceAddr := wd w, ce := true,
                       repair := some ((memSeen s m).repair.getD w) } := by
  have other (u : State) {r q : Reg} (v : Word) := rd_wr_errors u (r := r) (q := q) v hm
  have fault (u : State) {r : Reg} (v : Word) := rd_flt_wr_errors u (r := r) v hm
  have hrep : ((toRepair (countCe s m w) m w).memS m).repair = some ((s.memS m).repair.getD w) :=
    congrArg MemS.repair (toRepair_memS ..)
  have hseen : memSeen (toRepair (countCe s m w) m w) m = seenOf (counted (s.rd .memEcnt m 0) 15 0) (wd w) (s.rd .memUeaddr m 0)
      (setBit (s.rd .memStat m 0) 0 true) (some ((s.memS m).repair.getD w)) (s.rd .fmFlt 0 0) := by
    unfold memSeen
    rw [hrep]
    show seenOf ((countCe s m w).rd .memEcnt m 0) ((countCe s m w).rd .memCeaddr m 0) ((countCe s m w).rd .memUeaddr m 0)
      ((countCe s m w).rd .memStat m 0) _ ((countCe s m w).rd .fmFlt 0 0) = _
    unfold countCe State.incF State.wrF State.setB State.wrB
    simp (disch := decide) only [other, fault, rd_wr_same]
    rfl
  rw [hseen]
  exact seenOf_ce ..

/-- An uncorrectable byte is counted, recorded and offered to the repair slot (R240). -/
theorem memSeen_ue (s : State) {m : Nat} (hm : m < 1092) (w : Nat) : memSeen (toRepair (countUe s m w) m w) m =
    { memSeen s m with ueCount := Nat.min ((memSeen s m).ueCount + 1) 255,
                       ueAddr := if (memSeen s m).held then (memSeen s m).ueAddr else wd w, ue := true, held := true,
                       repair := some ((memSeen s m).repair.getD w), flt := true } := by
  have other (u : State) {r q : Reg} (v : Word) := rd_wr_errors u (r := r) (q := q) v hm
  have fault (u : State) {r : Reg} (v : Word) := rd_flt_wr_errors u (r := r) v hm
  have hrec (u : State) (q : Reg) (p0 p1 : Word) := rd_errors_record u (q := q) 0x0301 0x54 p0 p1 0 0 hm
  have hflt (u : State) (q : Reg) (v : Word) := rd_errors_wr_flt u (q := q) v hm
  have hrep : ((toRepair (countUe s m w) m w).memS m).repair = some (((countUe s m w).memS m).repair.getD w) :=
    congrArg MemS.repair (toRepair_memS ..)
  have hmems : (countUe s m w).memS m = s.memS m := by
    rw [State.memS, (congrArg State.mems (countUe_rest s m w) :), State.memS]
  have hseen : memSeen (toRepair (countUe s m w) m w) m = seenOf (counted (s.rd .memEcnt m 0) 23 16) (s.rd .memCeaddr m 0)
      (if bitOf (s.rd .memStat m 0) 8 then s.rd .memUeaddr m 0 else wd w)
      (setBit (if bitOf (s.rd .memStat m 0) 8 then s.rd .memStat m 0 else setBit (s.rd .memStat m 0) 8 true) 1 true)
      (some ((s.memS m).repair.getD w)) (setBit (s.rd .fmFlt 0 0) 2 true) := by
    unfold memSeen
    rw [hrep, hmems]
    show seenOf ((countUe s m w).rd .memEcnt m 0) ((countUe s m w).rd .memCeaddr m 0) ((countUe s m w).rd .memUeaddr m 0)
      ((countUe s m w).rd .memStat m 0) _ ((countUe s m w).rd .fmFlt 0 0) = _
    have hheld : (s.incF .memEcnt m 0 23 16).bit .memStat m 0 8 = bitOf (s.rd .memStat m 0) 8 := by
      unfold State.incF State.wrF State.bit
      rw [other _ _ (by decide) (by decide) (by decide)]
    unfold countUe
    dsimp only
    rw [hheld]
    unfold State.fault State.incF State.wrF State.setB State.wrB
    cases bitOf (s.rd .memStat m 0) 8 with
    | true =>
      simp (disch := decide) only [if_true, other, fault, hrec, hflt, rd_wr_same, rd_record_first]
      rfl
    | false =>
      simp (disch := decide) only [Bool.false_eq_true, if_false, other, fault, hrec, hflt, rd_wr_same, rd_record_first]
      rfl
  rw [hseen]
  exact seenOf_ue ..

/-- Poison is counted (R240). -/
theorem memSeen_po (s : State) {m : Nat} (hm : m < 1092) : memSeen ((s.incF .memEcnt m 0 31 24).setB .memStat m 0 2) m =
    { memSeen s m with poCount := Nat.min ((memSeen s m).poCount + 1) 255, po := true } :=
  (memSeen_note s hm).trans (seenOf_po ..)

/-- The state after the counts and flags of a read of word `w` of memory `m` with bytes of these kinds. -/
def noted (s : State) (m w : Nat) (ce ue po : Bool) : State :=
  ((s.when ce fun s => toRepair (countCe s m w) m w).when ue fun s => toRepair (countUe s m w) m w).when po
    fun s => (s.incF .memEcnt m 0 31 24).setB .memStat m 0 2

/-- Of the `k` bytes at `a` one is of class `x`. -/
def hasClass (s : State) (a k : Nat) (x : ByteClass) : Bool := (List.range k).any (fun i => s.classAt (a + i) == x)

theorem noteRead_eq {s : State} {a m : Nat} (h : memOf a = some m) (k : Nat) : noteRead s a k =
    noted s m (a / 8 * 8) (hasClass s a k .corrected) (hasClass s a k .uncorrectable) (hasClass s a k .poison) := by
  unfold noteRead
  rw [h]
  rfl

/-- What a read leaves besides its counts: the registers of the memories, the repair slots and the book aside, nothing. -/
theorem noted_rest (s : State) (m w : Nat) (ce ue po : Bool) :
    { noted s m w ce ue po with regs := s.regs, mems := s.mems, book := s.book } = s := by
  have h1 : { s.when ce (fun s => toRepair (countCe s m w) m w) with regs := s.regs, mems := s.mems, book := s.book } = s := by
    cases ce <;> rfl
  unfold noted
  generalize s.when ce (fun s => toRepair (countCe s m w) m w) = s1 at h1 ⊢
  have h2 : { s1.when ue (fun s => toRepair (countUe s m w) m w) with regs := s.regs, mems := s.mems, book := s.book } = s := by
    cases ue with
    | false => exact h1
    | true =>
      have e := congrArg (fun v : State => { v with regs := s.regs, mems := s.mems, book := s.book }) (countUe_rest s1 m w)
      exact e.trans h1
  generalize s1.when ue (fun s => toRepair (countUe s m w) m w) = s2 at h2 ⊢
  cases po <;> exact h2

theorem noted_book (s : State) (m w : Nat) (ce po : Bool) : (noted s m w ce false po).book = s.book := by
  cases ce <;> cases po <;> rfl

/-- What is seen after a read. -/
def readSeen (v : MemSeen) (w : Nat) (ce ue po : Bool) : MemSeen :=
  { ceCount := if ce then Nat.min (v.ceCount + 1) 65535 else v.ceCount
    ueCount := if ue then Nat.min (v.ueCount + 1) 255 else v.ueCount
    poCount := if po then Nat.min (v.poCount + 1) 255 else v.poCount
    ceAddr := if ce then wd w else v.ceAddr
    ueAddr := if ue && !v.held then wd w else v.ueAddr
    ce := v.ce || ce
    ue := v.ue || ue
    po := v.po || po
    held := v.held || ue
    repair := if ce || ue then some (v.repair.getD w) else v.repair
    flt := v.flt || ue }

theorem readSeen_none (v : MemSeen) (w : Nat) : readSeen v w false false false = v := by
  simp [readSeen]

theorem memSeen_noted (s : State) {m : Nat} (hm : m < 1092) (w : Nat) (ce ue po : Bool) :
    memSeen (noted s m w ce ue po) m = readSeen (memSeen s m) w ce ue po := by
  have h1 : memSeen (s.when ce fun s => toRepair (countCe s m w) m w) m = readSeen (memSeen s m) w ce false false := by
    cases ce with
    | false => exact (readSeen_none ..).symm
    | true => exact (memSeen_ce s hm w).trans (by simp [readSeen])
  unfold noted
  generalize s.when ce (fun s => toRepair (countCe s m w) m w) = s1 at h1 ⊢
  have h2 : memSeen (s1.when ue fun s => toRepair (countUe s m w) m w) m = readSeen (memSeen s m) w ce ue false := by
    cases ue with
    | false => exact h1
    | true =>
      refine (memSeen_ue s1 hm w).trans ?_
      rw [h1]
      cases ce <;> cases hh : (memSeen s m).held <;> simp [readSeen, hh]
  generalize s1.when ue (fun s => toRepair (countUe s m w) m w) = s2 at h2 ⊢
  cases po with
  | false => exact h2
  | true =>
    refine (memSeen_po s2 hm).trans ?_
    rw [h2]
    simp [readSeen]

/-- A read counts what its bytes are (R239, R240). -/
theorem noteRead_wordRead {s : State} {a k : Nat} : wordRead s (noteRead s a k) a k := by
  intro m hm
  have hseen := memSeen_noted s (memOf_lt hm) (a / 8 * 8) (hasClass s a k .corrected) (hasClass s a k .uncorrectable) (hasClass s a k .poison)
  have hrest := noted_rest s m (a / 8 * 8) (hasClass s a k .corrected) (hasClass s a k .uncorrectable) (hasClass s a k .poison)
  have hbook : hasClass s a k .uncorrectable = false → (noted s m (a / 8 * 8) (hasClass s a k .corrected)
      (hasClass s a k .uncorrectable) (hasClass s a k .poison)).book = s.book := fun h => by rw [h]; exact noted_book ..
  rw [noteRead_eq hm]
  refine ⟨congrArg MemSeen.ceCount hseen, congrArg MemSeen.ueCount hseen, congrArg MemSeen.poCount hseen, congrArg MemSeen.ceAddr hseen,
    congrArg MemSeen.ueAddr hseen, congrArg MemSeen.ce hseen, congrArg MemSeen.ue hseen, congrArg MemSeen.po hseen,
    congrArg MemSeen.held hseen, congrArg MemSeen.repair hseen, congrArg MemSeen.flt hseen, hbook, fun x => ⟨?_, ?_⟩⟩
  · rw [State.dataAt, (congrArg State.mem hrest :), State.dataAt]
  · rw [State.devAt, (congrArg State.chk hrest :), State.devAt]

end Sys2Proof.Pipeline
end

section
namespace Sys2Proof.Pipeline
open Sys2Proof Sys2Proof.Machine Sys2Proof.Safety Sys2Proof.Laws
open Sys2Proof.Proofs hiding stepped zeroWord

/-! ### Bytes read from a protected memory (R197, R234–R240) -/

/-- The `n` bytes at `a` lie in one 8-byte word of memory `m`, which serves accesses. -/
structure InWord (s : State) (a n m : Nat) : Prop where
  mem : memOf a = some m
  pos : 0 < n
  word : a % 8 + n ≤ 8
  serves : clring s a = false

theorem readMem_eq {s : State} {a n m : Nat} (h : InWord s a n m) : readMem s a n = (s.bytesAt a n, noteRead s a n) := by
  have hend : clring s (a + (n - 1)) = false := by
    have hm : memOf (a + (n - 1)) = memOf a := memOf_word (by have := h.word; have := h.pos; omega)
    rw [clring, hm]
    exact h.serves
  have hmin : Nat.min n (8 - a % 8) = n := Nat.min_eq_left (by have := h.word; omega)
  unfold readMem
  dsimp only
  rw [awaitClear_idle h.serves, awaitClear_idle hend, hmin, if_neg (Nat.lt_irrefl n)]

theorem busRead_eq {s : State} {a n m : Nat} (who : Nat) (h : InWord s a n m) :
    busRead s who a n = (s.bytesAt a n, noteRead (countRowMem s m who) a n) := by
  obtain ⟨hper, hhw⟩ := not_periph h.mem
  have hb := memOf_bounds h.mem
  have hp := countRowMem_pmuOnly s m who
  have hpiece : readPiece s who a n = readMem (countRowMem s m who) a n := by
    unfold readPiece
    rw [if_neg (by omega), if_neg (by omega), hper, hhw, if_neg (by decide), h.mem]
  have hread := readMem_eq (s := countRowMem s m who) ⟨h.mem, h.pos, h.word, (hp.clring a).trans h.serves⟩
  unfold busRead
  rw [hper, if_neg Bool.false_ne_true, pieces_one h.pos h.word]
  simp only [List.foldl_cons, List.foldl_nil, hpiece, hread, List.nil_append, hp.bytesAt]

/-- A read of clean bytes is counted by the PMU alone. -/
theorem noteRead_clean {s : State} {a k : Nat} (h : ∀ i < k, s.classAt (a + i) = .clean) : noteRead s a k = s := by
  cases hm : memOf a with
  | none => unfold noteRead; rw [hm]
  | some m =>
    have hno (x : ByteClass) (hx : x ≠ .clean) : hasClass s a k x = false :=
      List.any_eq_false.2 fun i hi => by simp [h i (List.mem_range.1 hi), hx.symm]
    rw [noteRead_eq hm, hno _ (by decide), hno _ (by decide), hno _ (by decide)]
    rfl

theorem busRead_clean {s : State} {a n m : Nat} (who : Nat) (h : InWord s a n m) (hc : ∀ i < n, s.classAt (a + i) = .clean) :
    busRead s who a n = (s.bytesAt a n, countRowMem s m who) := by
  have hp := countRowMem_pmuOnly s m who
  rw [busRead_eq who h, noteRead_clean fun i hi => (hp.classAt _).trans (hc i hi)]

/-! ### The bytes of a load, half by half (R139, R141) -/

/-- One half of a load: the buffer's bytes, or those of its target. -/
def halfRead (c : Nat) (taken : List (Option (List (Byte × Bool)))) (acc : List (Byte × Bool) × State) (h : (Nat × Nat) × Nat) :
    List (Byte × Bool) × State :=
  match taken.getD h.2 none with
  | some bs => (acc.1 ++ bs, acc.2)
  | none => (acc.1 ++ (busRead acc.2 c (busAddr c h.1.1) h.1.2).1, (busRead acc.2 c (busAddr c h.1.1) h.1.2).2)

theorem loadBytes_eq (s : State) (c a n : Nat) (taken : List (Option (List (Byte × Bool)))) :
    loadBytes s c a n taken = ((halves a n).zipIdx).foldl (halfRead c taken) ([], s) := rfl

/-- The `n` bytes at `a` are clean bytes of one word that its memory serves. -/
def CleanWord (s : State) (a n : Nat) : Prop := (∃ m, InWord s a n m) ∧ ∀ i < n, s.classAt (a + i) = .clean

theorem CleanWord.pmu {s t : State} (h : PmuOnly s t) {a n : Nat} (g : CleanWord s a n) : CleanWord t a n := by
  obtain ⟨⟨m, hm, hpos, hword, hserves⟩, hc⟩ := g
  exact ⟨⟨m, hm, hpos, hword, (h.clring a).trans hserves⟩, fun i hi => (h.classAt _).trans (hc i hi)⟩

theorem CleanWord.setCore {s : State} {a n : Nat} (g : CleanWord s a n) (c : Nat) (k : CoreS) : CleanWord (s.setCore c k) a n := by
  obtain ⟨⟨m, hm, hpos, hword, hserves⟩, hc⟩ := g
  exact ⟨⟨m, hm, hpos, hword, hserves⟩, hc⟩

theorem halfRead_clean {s : State} {c : Nat} (taken : List (Option (List (Byte × Bool)))) (acc : List (Byte × Bool))
    {h : (Nat × Nat) × Nat} (hc : CleanWord s (busAddr c h.1.1) h.1.2) : ∃ u, PmuOnly s u ∧
      halfRead c taken (acc, s) h = (acc ++ (taken.getD h.2 none).getD (s.bytesAt (busAddr c h.1.1) h.1.2), u) := by
  unfold halfRead
  cases taken.getD h.2 none with
  | some bs => exact ⟨s, .refl s, rfl⟩
  | none =>
    obtain ⟨⟨m, hin⟩, hclean⟩ := hc
    refine ⟨countRowMem s m c, countRowMem_pmuOnly s m c, ?_⟩
    dsimp only
    rw [busRead_clean c hin hclean]
    rfl

theorem halfReads_clean {c : Nat} (taken : List (Option (List (Byte × Bool)))) (l : List ((Nat × Nat) × Nat)) (acc : List (Byte × Bool))
    (s : State) (hc : ∀ h ∈ l, CleanWord s (busAddr c h.1.1) h.1.2) : ∃ u, PmuOnly s u ∧ l.foldl (halfRead c taken) (acc, s) =
      (acc ++ l.flatMap (fun h => (taken.getD h.2 none).getD (s.bytesAt (busAddr c h.1.1) h.1.2)), u) := by
  induction l generalizing acc s with
  | nil => exact ⟨s, .refl s, by simp⟩
  | cons h l ih =>
    obtain ⟨t, hst, ht⟩ := halfRead_clean taken acc (hc h (by simp))
    obtain ⟨u, htu, hu⟩ := ih _ t fun x hx => (hc x (by simp [hx])).pmu hst
    refine ⟨u, hst.trans htu, ?_⟩
    rw [List.foldl_cons, ht, hu, List.flatMap_cons, List.append_assoc]
    simp only [hst.bytesAt]

theorem loadBytes_clean {s : State} {c a n : Nat} (taken : List (Option (List (Byte × Bool))))
    (hc : ∀ h ∈ halves a n, CleanWord s (busAddr c h.1) h.2) : ∃ u, PmuOnly s u ∧ loadBytes s c a n taken =
      (((halves a n).zipIdx).flatMap (fun h => (taken.getD h.2 none).getD (s.bytesAt (busAddr c h.1.1) h.1.2)), u) := by
  obtain ⟨u, hp, hu⟩ := halfReads_clean taken (halves a n).zipIdx [] s fun h hh => hc h.1 (List.fst_mem_of_mem_zipIdx hh)
  exact ⟨u, hp, by rw [loadBytes_eq, hu, List.nil_append]⟩

/-! ### A far access completes (R136) -/

theorem finished_stepOne (k : CoreS) (os : List Out) : (finished k os).stepOne = k.stepOne := by
  unfold finished
  rw [advance_eq]
  exact (congrArg CoreS.stepOne (retire_rest _) :)

theorem endStep_idle {s : State} {c : Nat} (h : (s.core c).stepOne = false) : endStep s c = s := by
  unfold endStep
  exact if_neg fun e => by simp [h] at e

theorem stepOne_false {k : CoreS} (h : k.stepOne = false) : { k with stepOne := false } = k := by
  rw [← h]

/-- The state after the access `o` has been performed, which makes `u` of the state and gives `os`. -/
def farDone (s u : State) (c : Nat) (o : FarOp) (os : List Out) : State :=
  let t := finish (if c < 512 then tagDone u c (s.core c).seq else u) c os
  endStep (if 512 ≤ c then countDone o.skid (svPriv s (c - 512)) t (c - 512) else t) c

theorem farDone_performed {s u : State} {c : Nat} {k : CoreS} (o : FarOp) (os : List Out) (hc : c < 516) (hk : u.core c = k)
    (hs : k.stepOne = false) : Performed u (farDone s u c o os) c k os := by
  subst hk
  unfold farDone
  dsimp only
  have h1 : PmuOnly u (if c < 512 then tagDone u c (s.core c).seq else u) := .ite (tagDone_pmuOnly ..) (.refl u)
  generalize (if c < 512 then tagDone u c (s.core c).seq else u) = w at h1 ⊢
  have ht : (finish w c os).core c = finished (u.core c) os := by rw [finish_eq, core_setCore_same, h1.core]
  have hframe : onlyCore w (finish w c os) c [] := setCore_onlyCore ..
  generalize finish w c os = t at ht hframe ⊢
  have h2 : PmuOnly t (if 512 ≤ c then countDone o.skid (svPriv s (c - 512)) t (c - 512) else t) :=
    .ite (countDone_pmuOnly _ _ t (by omega)) (.refl t)
  generalize (if 512 ≤ c then countDone o.skid (svPriv s (c - 512)) t (c - 512) else t) = v at h2 ⊢
  have hv : v.core c = finished (u.core c) os := (h2.core c).trans ht
  have hso : (finished (u.core c) os).stepOne = false := by rw [finished_stepOne, hs]
  have hdone := finished_completed (u.core c) os
  rw [endStep_idle (by rw [hv, hso])]
  refine ⟨?_, fun r => ?_, fun p hp hidx => ?_, onlyCore_trans (h1.onlyCore c []) (onlyCore_trans hframe (h2.onlyCore c []))⟩
  · have e := congrArg (fun l : CoreS => { l with stepOne := false }) hdone.step
    rw [hv, ← stepOne_false hso]
    exact e
  · rw [reg, hv, hdone.regs]
  · rw [hv]
    exact hdone.head p hp hidx

/-- The core `c` may finish its outstanding access `o` now. -/
def mayFinish (s : State) (c : Nat) (o : FarOp) : Prop :=
  coreOff s c = false ∧ (s.core c).far = some o ∧ clring s (busAddr c o.addr) = false ∧
    (decide (512 ≤ c) && o.addr == claimAddr && claimBefore s (c - 512) o.order) = false

theorem farFinish_load {s : State} {c n : Nat} {o : FarOp} {signed : Bool} (h : mayFinish s c o) (hk : o.kind = .load n signed) :
    farFinish s c =
      let x := loadOut (s.setCore c { s.core c with far := none }) c o.addr n o.rd o.d signed o.upd o.taken
      farDone s x.2 c o x.1 := by
  obtain ⟨hoff, hfar, hclr, hcl⟩ := h
  unfold farFinish
  dsimp only
  rw [hfar]
  dsimp only
  rw [hoff, hclr, hcl, if_neg (by decide), hk]
  rfl

/-- What a load makes of its bytes. -/
theorem loadOut_eq {s u : State} {c a n rd d : Nat} {signed : Bool} {upd : Option (Nat × Word)}
    {taken : List (Option (List (Byte × Bool)))} {bs : List (Byte × Bool)} (h : loadBytes s c a n taken = (bs, u)) :
    loadOut s c a n rd d signed upd taken =
      (updOut upd ++ [{ reg := rd, d := d, val := (loadValue bs signed).1, poison := (loadValue bs signed).2 }], u) := by
  unfold loadOut
  rw [h]

/-- An address of a memory seen by its core outside the engine's own view. -/
theorem busAddr_far {c a : Nat} (h : 0x8000 ≤ a) : busAddr c a = a := if_neg fun e => absurd e.2 (Nat.not_lt.2 h)

theorem claimAddr_eq : claimAddr = 0x65002000 := by decide

/-- A load of a memory is no read of IRQ_CLAIM. -/
theorem mayFinish_of {s : State} {c : Nat} {o : FarOp} (hoff : coreOff s c = false) (hfar : (s.core c).far = some o)
    (hlo : 0x8000 ≤ o.addr) (hhi : o.addr < 0x40000000) (hclr : clring s o.addr = false) : mayFinish s c o := by
  refine ⟨hoff, hfar, by rw [busAddr_far hlo, hclr], ?_⟩
  have hne : (o.addr == claimAddr) = false := by
    rw [claimAddr_eq]
    exact beq_eq_false_iff_ne.2 (by omega)
  rw [hne, Bool.and_false, Bool.false_and]

/-- The halves of a load that its memories serve clean. -/
theorem halves_clean {s : State} {a k : Nat} (hk : k = 1 ∨ k = 2 ∨ k = 4) (hlo : 0x10000000 ≤ a) (hhi : a + k ≤ 0x40000000)
    (hm : ∀ i < k, (memOf (a + i)).isSome = true) (h1 : clring s a = false) (h2 : clring s (a + (k - 1)) = false)
    (hc : ∀ i < k, s.classAt (a + i) = .clean) : ∀ h ∈ halves a k, 0x8000 ≤ h.1 ∧ CleanWord s h.1 h.2 := by
  have word {b n : Nat} (i : Nat) (hb : b = a + i) (hn : 0 < n) (hin : i + n ≤ k) (hw : b % 8 + n ≤ 8) (hs : clring s b = false) :
      0x8000 ≤ b ∧ CleanWord s b n := by
    subst hb
    obtain ⟨m, hm'⟩ := Option.isSome_iff_exists.1 (hm i (by omega))
    refine ⟨by omega, ⟨m, hm', hn, hw, hs⟩, fun j hj => ?_⟩
    rw [Nat.add_assoc]
    exact hc (i + j) (by omega)
  rw [halves_eq]
  split
  next hone =>
    intro h hh
    rw [List.mem_singleton.1 hh]
    exact word 0 rfl (by omega) (by omega) (by omega) h1
  next hsplit =>
    have hmod : (a + (4 - a % 4)) % 2 ^ 32 = a + (4 - a % 4) := Nat.mod_eq_of_lt (by omega)
    intro h hh
    rw [List.mem_cons, List.mem_singleton, hmod] at hh
    rcases hh with rfl | rfl
    · exact word 0 rfl (by omega) (by omega) (by omega) h1
    · refine word (4 - a % 4) rfl (by omega) (by omega) (by omega) ?_
      have hsame : memOf (a + (k - 1)) = memOf (a + (4 - a % 4)) := by
        have h := memOf_word (a := a + (4 - a % 4)) (k := k - 1 - (4 - a % 4)) (by omega)
        rwa [show a + (4 - a % 4) + (k - 1 - (4 - a % 4)) = a + (k - 1) by omega] at h
      rw [clring, ← hsame]
      exact h2

/-- A far load of clean bytes completes (R136, R139, R141). -/
theorem farLoad_clean {c : Nat} {o : FarOp} {k : Nat} {signed : Bool} {s : State} (hc : c < 516) (hoff : coreOff s c = false)
    (hfar : (s.core c).far = some o) (hstep : (s.core c).stepOne = false) (hkind : o.kind = .load k signed) (hd : 1 < o.d)
    (hk : k = 1 ∨ k = 2 ∨ k = 4) (hlo : 0x10000000 ≤ o.addr) (hhi : o.addr + k ≤ 0x40000000)
    (hm : ∀ i < k, (memOf (o.addr + i)).isSome = true) (h1 : clring s o.addr = false) (h2 : clring s (o.addr + (k - 1)) = false)
    (hclean : ∀ i < k, s.classAt (o.addr + i) = .clean) :
    let v := loadValue (((halves o.addr k).zipIdx).flatMap (fun h => (o.taken.getD h.2 none).getD (s.bytesAt h.1.1 h.1.2))) signed
    onlyCore s (farFinish s c) c [] ∧ stepped { s.core c with far := none } ((farFinish s c).core c) ∧
      regsSet s (farFinish s c) c (updReg o.upd) (updWord o.upd, false) ∧
      (o.rd ≠ 0 → ((farFinish s c).core c).infl.head? =
        some { idx := (s.core c).seq, d := o.d, reg := o.rd, val := v.1, poison := v.2 }) := by
  have hhalf := halves_clean hk hlo hhi hm h1 h2 hclean
  generalize hs1 : s.setCore c { s.core c with far := none } = s1
  have hbytes (a n : Nat) : s1.bytesAt a n = s.bytesAt a n := by rw [← hs1]; rfl
  have hcw : ∀ h ∈ halves o.addr k, CleanWord s1 (busAddr c h.1) h.2 := fun h hh => by
    obtain ⟨hge, hcl⟩ := hhalf h hh
    rw [busAddr_far hge, ← hs1]
    exact hcl.setCore ..
  obtain ⟨u, hp, hu⟩ := loadBytes_clean o.taken hcw
  have hflat : ((halves o.addr k).zipIdx).flatMap (fun h => (o.taken.getD h.2 none).getD (s1.bytesAt (busAddr c h.1.1) h.1.2)) =
      ((halves o.addr k).zipIdx).flatMap (fun h => (o.taken.getD h.2 none).getD (s.bytesAt h.1.1 h.1.2)) :=
    List.flatMap_congr fun h hh => by rw [busAddr_far (hhalf h.1 (List.fst_mem_of_mem_zipIdx hh)).1, hbytes]
  rw [hflat] at hu
  dsimp only
  generalize ((halves o.addr k).zipIdx).flatMap (fun h => (o.taken.getD h.2 none).getD (s.bytesAt h.1.1 h.1.2)) = bs at hu ⊢
  have hfin : farFinish s c = farDone s u c o
      (updOut o.upd ++ [{ reg := o.rd, d := o.d, val := (loadValue bs signed).1, poison := (loadValue bs signed).2 }]) := by
    rw [farFinish_load (mayFinish_of hoff hfar (by omega) (by omega) h1) hkind, hs1]
    dsimp only
    rw [loadOut_eq hu]
  have hcore : u.core c = { s.core c with far := none } := by rw [hp.core, ← hs1, core_setCore_same]
  have hperf := farDone_performed o (updOut o.upd ++ [{ reg := o.rd, d := o.d, val := (loadValue bs signed).1, poison := (loadValue bs signed).2 }])
    (s := s) hc hcore hstep
  have hsame : SameRegs (s.core c) { s.core c with far := none } := ⟨rfl, rfl, rfl⟩
  rw [hfin]
  refine ⟨?_, hperf.step, hperf.regsSet_upd hsame hd, fun hr => hperf.head_snoc hsame hr⟩
  refine onlyCore_trans ?_ (onlyCore_trans (hp.onlyCore c []) hperf.frame)
  rw [← hs1]
  exact setCore_onlyCore ..

/-! ### A far load whose read is counted (R239, R240) -/

theorem hasClass_congr {s t : State} (h : ∀ a, t.classAt a = s.classAt a) (a k : Nat) (x : ByteClass) : hasClass t a k x = hasClass s a k x := by
  simp only [hasClass, h]

/-- What only one core changes leaves the memories and the book. -/
theorem onlyCore_memSeen {s t : State} {n : Nat} (h : onlyCore s t n []) {m : Nat} (hm : m < 1092) : memSeen t m = memSeen s m := by
  have hrd {r : Reg} (hr : r ∈ [Reg.memEcnt, .memCeaddr, .memUeaddr, .memStat]) : t.rd r m 0 = s.rd r m 0 := by
    have hin : ∀ x ∈ [Reg.memEcnt, .memCeaddr, .memUeaddr, .memStat],
        x.info.base / 0x1000000 ≠ 0x6A ∧ x ≠ .ceCr ∧ x ≠ .svCr ∧ x.info.ni = 1092 ∧ 0 < x.info.nj := by decide
    obtain ⟨h1, h2, h3, h4, h5⟩ := hin r hr
    exact onlyCore_rd h (addr_not_inPmu h1 h2 h3 (h4 ▸ hm) h5) (by simp)
  have hflt : t.rd .fmFlt 0 0 = s.rd .fmFlt 0 0 :=
    onlyCore_rd h (addr_not_inPmu (by decide) (by decide) (by decide) (by decide) (by decide)) (by simp)
  have hmems : t.memS m = s.memS m := by rw [State.memS, (congrArg State.mems h.1 :), State.memS]
  unfold memSeen
  rw [hrd (by decide), hrd (by decide), hrd (by decide), hrd (by decide), hflt, hmems]

theorem onlyCore_classAt {s t : State} {n : Nat} (h : onlyCore s t n []) (a : Nat) : t.classAt a = s.classAt a := by
  rw [State.classAt, State.vldAt, (congrArg State.vld h.1 :), State.dataAt, (congrArg State.mem h.1 :), State.devAt,
    (congrArg State.chk h.1 :), State.classAt, State.vldAt, State.dataAt, State.devAt]

/-- A read between what only a core changes. -/
theorem wordRead_within {s u t : State} {n m a k : Nat} (h1 : onlyCore s u n []) (h2 : onlyCore (noteRead u a k) t m []) :
    wordRead s t a k := by
  intro j hj
  have hlt := memOf_lt hj
  have hcl (x : ByteClass) : hasClass u a k x = hasClass s a k x := hasClass_congr (onlyCore_classAt h1) a k x
  have hnote := noteRead_eq (s := u) hj k
  rw [hcl, hcl, hcl] at hnote
  have hseen := memSeen_noted u hlt (a / 8 * 8) (hasClass s a k .corrected) (hasClass s a k .uncorrectable) (hasClass s a k .poison)
  have hrest := noted_rest u j (a / 8 * 8) (hasClass s a k .corrected) (hasClass s a k .uncorrectable) (hasClass s a k .poison)
  have hbook : hasClass s a k .uncorrectable = false → (noted u j (a / 8 * 8) (hasClass s a k .corrected)
      (hasClass s a k .uncorrectable) (hasClass s a k .poison)).book = u.book := fun h => by rw [h]; exact noted_book ..
  rw [← hnote, onlyCore_memSeen h1 hlt, ← onlyCore_memSeen h2 hlt] at hseen
  rw [← hnote] at hrest hbook
  refine ⟨congrArg MemSeen.ceCount hseen, congrArg MemSeen.ueCount hseen, congrArg MemSeen.poCount hseen, congrArg MemSeen.ceAddr hseen,
    congrArg MemSeen.ueAddr hseen, congrArg MemSeen.ce hseen, congrArg MemSeen.ue hseen, congrArg MemSeen.po hseen,
    congrArg MemSeen.held hseen, congrArg MemSeen.repair hseen, congrArg MemSeen.flt hseen, fun h => ?_, fun x => ⟨?_, ?_⟩⟩
  · exact (congrArg State.book h2.1 :).trans ((hbook h).trans (congrArg State.book h1.1 :))
  · rw [State.dataAt, (congrArg State.mem h2.1 :), (congrArg State.mem hrest :), (congrArg State.mem h1.1 :), State.dataAt]
  · rw [State.devAt, (congrArg State.chk h2.1 :), (congrArg State.chk hrest :), (congrArg State.chk h1.1 :), State.devAt]

theorem noteRead_cores (s : State) (a k : Nat) : (noteRead s a k).cores = s.cores := by
  cases hm : memOf a with
  | none => unfold noteRead; rw [hm]
  | some m =>
    rw [noteRead_eq hm]
    exact (congrArg State.cores (noted_rest ..) :)

theorem getD_none {l : List (Option (List (Byte × Bool)))} (h : ∀ x ∈ l, x = none) (i : Nat) : l.getD i none = none := by
  rw [List.getD_eq_getElem?_getD]
  cases hx : l[i]? with
  | none => rfl
  | some x => exact h x (List.mem_of_getElem? hx)

theorem farLoad_counted {c : Nat} {o : FarOp} {k : Nat} {signed : Bool} {s : State} (hc : c < 516) (hoff : coreOff s c = false)
    (hfar : (s.core c).far = some o) (hstep : (s.core c).stepOne = false) (hkind : o.kind = .load k signed)
    (hupd : o.upd = none) (hk : k = 1 ∨ k = 2 ∨ k = 4) (hone : o.addr % 4 + k ≤ 4) (htaken : ∀ h ∈ o.taken, h = none)
    (hlo : 0x10000000 ≤ o.addr) (hm : (memOf o.addr).isSome = true) (hclr : clring s o.addr = false) :
    let v := loadValue (s.bytesAt o.addr k) signed
    wordRead s (farFinish s c) o.addr k ∧ stepped { s.core c with far := none } ((farFinish s c).core c) ∧
      (o.rd ≠ 0 → ((farFinish s c).core c).infl.head? =
        some { idx := (s.core c).seq, d := o.d, reg := o.rd, val := v.1, poison := v.2 }) ∧
      ∀ j, j ≠ c → (farFinish s c).core j = s.core j := by
  obtain ⟨m, hm⟩ := Option.isSome_iff_exists.1 hm
  have hb := memOf_bounds hm
  generalize hs1 : s.setCore c { s.core c with far := none } = s1
  have ho1 : onlyCore s s1 c [] := hs1 ▸ setCore_onlyCore ..
  have hin : InWord s1 o.addr k m := hs1 ▸ ⟨hm, by omega, by omega, hclr⟩
  have hbytes : s1.bytesAt o.addr k = s.bytesAt o.addr k := by rw [← hs1]; rfl
  have hp := countRowMem_pmuOnly s1 m c
  generalize hw : countRowMem s1 m c = w at hp
  have hload : loadBytes s1 c o.addr k o.taken = (s.bytesAt o.addr k, noteRead w o.addr k) := by
    rw [loadBytes_eq, halves_eq, if_pos hone]
    show halfRead c o.taken ([], s1) ((o.addr, k), 0) = _
    unfold halfRead
    rw [getD_none htaken]
    dsimp only
    rw [busAddr_far (by omega), busRead_eq c hin, hw, hbytes]
    rfl
  dsimp only
  generalize s.bytesAt o.addr k = bs at hload ⊢
  have hfin : farFinish s c = farDone s (noteRead w o.addr k) c o
      [{ reg := o.rd, d := o.d, val := (loadValue bs signed).1, poison := (loadValue bs signed).2 }] := by
    rw [farFinish_load (mayFinish_of hoff hfar (by omega) (by omega) hclr) hkind, hs1]
    dsimp only
    rw [loadOut_eq hload, hupd]
    rfl
  have hcores (j : Nat) : (noteRead w o.addr k).core j = s1.core j := (core_congr (noteRead_cores ..) j).trans (hp.core j)
  have hperf := farDone_performed o [{ reg := o.rd, d := o.d, val := (loadValue bs signed).1, poison := (loadValue bs signed).2 }]
    (s := s) (u := noteRead w o.addr k) (k := { s.core c with far := none }) hc (by rw [hcores, ← hs1, core_setCore_same]) hstep
  rw [hfin]
  refine ⟨wordRead_within (onlyCore_trans ho1 (hp.onlyCore c [])) hperf.frame, hperf.step, fun hr => hperf.head_snoc (s := s) (os := []) ⟨rfl, rfl, rfl⟩ hr, fun j hj => ?_⟩
  rw [hperf.frame.2.1 j hj, hcores, ← hs1, core_setCore, if_neg hj]

/-! ### A far load of a peripheral register (R135, R136) -/

theorem loadValue_word (w : Word) (p : Bool) : loadValue (wordBytes w p) false = (w, p) := by
  have hv := congrArg Prod.fst (loadValue_wordBytes w)
  refine Prod.ext ?_ ?_
  · exact hv
  · cases p <;> rfl

theorem periph_bounds {a : Nat} (h : periph a = true) : 0x60000000 ≤ a ∧ a < 0x70000000 := by
  simpa [periph] using h

theorem busRead_periph (s : State) (who : Nat) {a : Nat} (h : periph a = true) (h4 : a % 4 = 0) :
    busRead s who a 4 = (wordBytes (readWord s who a).1 (bankPoison s who a), (readWord s who a).2) := by
  obtain ⟨h1, h2⟩ := periph_bounds h
  have hpiece : readPiece s who a 4 = (wordBytes (readWord s who a).1 (bankPoison s who a), (readWord s who a).2) := by
    unfold readPiece
    rw [if_neg (by omega), if_neg (by omega), h, if_pos (Bool.true_or _)]
    rfl
  unfold busRead
  rw [h, if_pos rfl, pieces_one (by decide) (by omega)]
  simp only [List.foldl_cons, List.foldl_nil, hpiece, List.nil_append]

theorem memOf_periph {a : Nat} (h : periph a = true) : memOf a = none := by
  cases hm : memOf a with
  | none => rfl
  | some m => exact absurd ((not_periph hm).1) (by rw [h]; decide)

theorem farLoad_periph {c : Nat} {o : FarOp} {s : State} (hc : c < 516) (hoff : coreOff s c = false)
    (hfar : (s.core c).far = some o) (hstep : (s.core c).stepOne = false) (hkind : o.kind = .load 4 false)
    (hupd : o.upd = none) (htaken : ∀ h ∈ o.taken, h = none) (hper : periph o.addr = true) (h4 : o.addr % 4 = 0)
    (hclaim : o.addr = claimAddr → 512 ≤ c → claimBefore s (c - 512) o.order = false)
    (hcores : (readWord (s.setCore c { s.core c with far := none }) c o.addr).2.cores = (s.setCore c { s.core c with far := none }).cores) :
    let s1 := s.setCore c { s.core c with far := none }
    let x := readWord s1 c o.addr
    onlyCore x.2 (farFinish s c) c [] ∧ stepped (s1.core c) ((farFinish s c).core c) ∧
      (o.rd ≠ 0 → ((farFinish s c).core c).infl.head? =
        some { idx := (s.core c).seq, d := o.d, reg := o.rd, val := x.1, poison := bankPoison s1 c o.addr }) := by
  obtain ⟨hb1, hb2⟩ := periph_bounds hper
  have hmay : mayFinish s c o := by
    refine ⟨hoff, hfar, by rw [busAddr_far (by omega), clring, memOf_periph hper], ?_⟩
    by_cases hcl : o.addr = claimAddr
    · by_cases h5 : 512 ≤ c
      · simp [hclaim hcl h5]
      · simp [h5]
    · simp [hcl]
  dsimp only
  generalize hs1 : s.setCore c { s.core c with far := none } = s1 at hcores ⊢
  have hload : loadBytes s1 c o.addr 4 o.taken =
      (wordBytes (readWord s1 c o.addr).1 (bankPoison s1 c o.addr), (readWord s1 c o.addr).2) := by
    rw [loadBytes_eq, halves_eq, if_pos (by omega)]
    show halfRead c o.taken ([], s1) ((o.addr, 4), 0) = _
    unfold halfRead
    rw [getD_none htaken]
    dsimp only
    rw [busAddr_far (by omega), busRead_periph s1 c hper h4]
    rfl
  generalize readWord s1 c o.addr = x at hcores hload ⊢
  have hfin : farFinish s c = farDone s x.2 c o [{ reg := o.rd, d := o.d, val := x.1, poison := bankPoison s1 c o.addr }] := by
    rw [farFinish_load hmay hkind, hs1]
    dsimp only
    rw [loadOut_eq hload, hupd, loadValue_word]
    rfl
  have hc1 : s1.core c = { s.core c with far := none } := by rw [← hs1, core_setCore_same]
  have hperf := farDone_performed o [{ reg := o.rd, d := o.d, val := x.1, poison := bankPoison s1 c o.addr }]
    (s := s) (u := x.2) (k := s1.core c) hc (core_congr hcores c) (by rw [hc1, hstep])
  rw [hfin]
  exact ⟨hperf.frame, hperf.step, fun hr => hperf.head_snoc (s := s) (os := []) (by rw [hc1]; exact ⟨rfl, rfl, rfl⟩) hr⟩

/-! ### A load goes out (R136, R139, R226) -/

theorem PmuOnly.steady {s t : State} (h : PmuOnly s t) : t.steady = s.steady := by
  rw [State.steady, (congrArg State.now h.rest :), (congrArg State.tb h.rest :), State.steady]

theorem PmuOnly.timeOk {s t : State} (h : PmuOnly s t) : t.timeOk = s.timeOk := by
  have hst : t.rd .tbStat 0 0 = s.rd .tbStat 0 0 :=
    h.rd (addr_not_inPmu (by decide) (by decide) (by decide) (by decide) (by decide))
  rw [State.timeOk, State.bit, State.bit, hst, State.timeOk, State.bit, State.bit]

theorem PmuOnly.claimOrder {s t : State} (h : PmuOnly s t) : claimOrder t = claimOrder s := by
  have hout (m : Nat) : claimOut t m = claimOut s m := by rw [claimOut, h.core, claimOut]
  unfold Machine.claimOrder
  rw [funext hout, h.timeOk, h.steady]

/-- What the access of an issued instruction leaves while it is outstanding. -/
theorem goFar_core {s0 s : State} (c : Nat) (o : FarOp) : ∃ q, (goFar s0 s c o).core c =
      { s.core c with held := false, atM := false, skid := none, waited := 0,
                      far := some { o with pc := (s.core c).pc, since := s.steady, order := claimOrder s, skid := q } } ∧
    onlyCore s (goFar s0 s c o) c [] := by
  have hp := noteIssue_pmuOnly s c false
  unfold goFar
  dsimp only
  refine ⟨ownSkid s0 (noteIssue s c false) c (s.core c).skid, ?_, onlyCore_trans (hp.onlyCore c []) (setCore_onlyCore ..)⟩
  rw [core_setCore_same, hp.core, hp.steady, hp.claimOrder]

/-- An instruction whose access is outstanding has not completed. -/
theorem far_issue {s b : State} {c : Nat} {k : CoreS} (hk : b.core c = k) (hseq : k.seq = (s.core c).seq)
    (hf : k.far.isSome = true) : endStep (noteDone s b c) c = b := by
  subst hk
  rw [noteDone_same hseq, endStep_far hf]

theorem beforeClaim_none {s : State} {c : Nat} (h : irqcBuffered s c = false) : beforeClaim s c = s := by
  unfold beforeClaim
  cases (s.core c).sb.length with
  | zero => rfl
  | succ f =>
    unfold drainIrqc
    split
    · rfl
    · rw [h]
      rfl

/-- A load that goes out: what `loadAt` requires of it. -/
structure GoesOut (s : State) (c a n : Nat) : Prop where
  judged : judge1 s c .load a n = 0
  on : coreOff s c = false
  far : near c a = false
  free : ∀ h ∈ halves a n, forward (s.core c).sb h.1 h.2 ≠ .wait
  asks : ∃ h ∈ halves a n, forward (s.core c).sb h.1 h.2 = .none
  serves : ∀ h ∈ halves a n, clring s (busAddr c h.1) = false
  alone : irqcBuffered s c = false

/-- The access of a load. -/
def loadOp (c a n rd : Nat) (signed : Bool) (upd : Option (Nat × Word)) (s : State) : FarOp :=
  { kind := .load n signed, addr := a, rd := rd, d := if isSplit a n then 4 else 3, pc := 0, upd := upd, taken := takenHalves s c a n }

/-- The events of a load that goes out have been counted. -/
def loadCounted (s : State) (c a n : Nat) : State :=
  let hs := halves a n
  let sv := decide (512 ≤ c)
  (((s.when sv fun s => countSv s (c - 512) 1 0 a).when (sv && isSplit a n) fun s => countSv s (c - 512) 1 3 a).when
    (sv && hs.any (fun h => forward (s.core c).sb h.1 h.2 != .none)) fun s => countSv s (c - 512) 1 4 a)

theorem loadCounted_pmuOnly (s : State) {c : Nat} (hc : c < 516) (a n : Nat) : PmuOnly s (loadCounted s c a n) := by
  unfold loadCounted
  dsimp only
  exact (PmuOnly.when _ (countSv_pmuOnly s (by omega) ..)).trans ((PmuOnly.when _ (countSv_pmuOnly _ (by omega) ..)).trans
    (.when _ (countSv_pmuOnly _ (by omega) ..)))

theorem loadAt_goesOut {s : State} {c n : Nat} {aw : Word} (h : GoesOut s c aw.toNat n) (signed : Bool) (rd : Nat)
    (upd : Option (Nat × Word)) : loadAt s c aw n signed rd upd =
      goFar s ((loadCounted s c aw.toNat n).when (decide (512 ≤ c)) fun s => countSv s (c - 512) 1 2 aw.toNat) c
        (loadOp c aw.toNat n rd signed upd (loadCounted s c aw.toNat n)) := by
  have hclaims : (if judge1 s c .load aw.toNat n = 0 ∧ (decide (512 ≤ c) && aw.toNat == claimAddr && n == 4) = true
      then beforeClaim s c else s) = s := by
    rw [beforeClaim_none h.alone, ite_self]
  have hwait : (halves aw.toNat n).any (fun x => forward (s.core c).sb x.1 x.2 == .wait) = false :=
    List.any_eq_false.2 fun x hx => by simpa using h.free x hx
  have hclr : (halves aw.toNat n).any (fun x => clring s (busAddr c x.1)) = false :=
    List.any_eq_false.2 fun x hx => by simpa using h.serves x hx
  have hall : (halves aw.toNat n).all (fun x => forward (s.core c).sb x.1 x.2 != .none) = false := by
    obtain ⟨x, hx, hn⟩ := h.asks
    exact List.all_eq_false.2 ⟨x, hx, by simp [hn]⟩
  unfold loadAt
  dsimp only
  rw [hclaims, h.judged, if_neg (fun e => e rfl), h.on, if_neg (by decide), hwait, if_neg (by decide), hclr, h.alone, Bool.and_false,
    Bool.false_or, if_neg (by decide), hall, h.far, if_neg (by decide)]
  rfl

end Sys2Proof.Pipeline
end

section
namespace Sys2Proof.Pipeline
open Sys2Proof Sys2Proof.Machine Sys2Proof.Safety Sys2Proof.Laws
open Sys2Proof.Proofs hiding stepped zeroWord

/-! ### Far loads (R131, R136, R139, R141) -/

theorem splitDistance (a n : Nat) : (if isSplit a n then 4 else 3) = if a % 4 + n ≤ 4 then 3 else 4 := by
  unfold isSplit
  by_cases h : a % 4 + n ≤ 4
  · rw [if_pos h, decide_eq_false (by omega), if_neg Bool.false_ne_true]
  · rw [if_neg h, decide_eq_true (by omega), if_pos rfl]

theorem takenHalves_congr {s t : State} {c : Nat} (h : t.core c = s.core c) (a n : Nat) : takenHalves t c a n = takenHalves s c a n := by
  unfold takenHalves
  rw [h]

/-- The core of a load whose access is outstanding. -/
def loading (s : State) (c a n rd : Nat) (signed : Bool) (upd : Option (Nat × Word)) (q : Option Word) : CoreS :=
  { s.core c with held := false, atM := false, skid := none, waited := 0,
                  far := some { kind := .load n signed, addr := a, rd := rd, d := if a % 4 + n ≤ 4 then 3 else 4, pc := (s.core c).pc,
                                upd := upd, since := s.steady, order := claimOrder s, skid := q, taken := takenHalves s c a n } }

theorem load_goesOut {s : State} {c n : Nat} {aw : Word} {signed : Bool} {rd : Nat} {upd : Option (Nat × Word)} (hi : issues s c = true)
    (hc : c < 516) (rs : List Nat) (body : State → State) (hbody : body s = loadAt s c aw n signed rd upd)
    (h : GoesOut s c aw.toNat n) : let t := issue s c { regs := rs } body
    onlyCore s t c [] ∧ ∃ q, t.core c = loading s c aw.toNat n rd signed upd q := by
  have hp := loadCounted_pmuOnly s hc aw.toNat n
  have hp' : PmuOnly s ((loadCounted s c aw.toNat n).when (decide (512 ≤ c)) fun s => countSv s (c - 512) 1 2 aw.toNat) :=
    hp.trans (.when _ (countSv_pmuOnly _ (by omega) ..))
  rw [issue_plain rs body hi, hbody, loadAt_goesOut h]
  dsimp only
  generalize (loadCounted s c aw.toNat n).when (decide (512 ≤ c)) (fun s => countSv s (c - 512) 1 2 aw.toNat) = u at hp' ⊢
  obtain ⟨q, hcore, honly⟩ := goFar_core (s0 := s) (s := u) c (loadOp c aw.toNat n rd signed upd (loadCounted s c aw.toNat n))
  have htaken : takenHalves (loadCounted s c aw.toNat n) c aw.toNat n = takenHalves s c aw.toNat n := takenHalves_congr (hp.core c) ..
  rw [hp'.core, hp'.steady, hp'.claimOrder, loadOp, htaken, splitDistance] at hcore
  rw [loadOp, htaken] at honly
  rw [loadOp, htaken, splitDistance, far_issue hcore rfl rfl]
  rw [splitDistance] at honly
  exact ⟨onlyCore_trans (hp'.onlyCore c []) honly, q, hcore⟩

section
variable {c : Core} {s : State} {rd ra : Fin 32} {imm : BitVec 16}

theorem loadForm_goesOut (n : Nat) (signed : Bool) (hi : issues s (coreNum c) = true) (hb : (baseAddr s (coreNum c) ra).2 = false)
    (h : GoesOut s (coreNum c) ((baseAddr s (coreNum c) ra).1 + imm.signExtend 32).toNat n) :
    let t := loadForm s (coreNum c) n signed rd ra imm
    onlyCore s t (coreNum c) [] ∧ ∃ q, t.core (coreNum c) =
      loading s (coreNum c) ((baseAddr s (coreNum c) ra).1 + imm.signExtend 32).toNat n rd signed none q :=
  load_goesOut hi (coreNum_lt c) _ _ (if_neg (by rw [hb]; exact Bool.false_ne_true)) h

theorem loadPost_goesOut (n : Nat) (signed : Bool) (hi : issues s (coreNum c) = true) (hb : (baseAddr s (coreNum c) ra).2 = false)
    (hne : rd ≠ ra) (h : GoesOut s (coreNum c) (baseAddr s (coreNum c) ra).1.toNat n) :
    let t := loadPost s (coreNum c) n signed rd ra imm
    onlyCore s t (coreNum c) [] ∧ ∃ q, t.core (coreNum c) =
      loading s (coreNum c) (baseAddr s (coreNum c) ra).1.toNat n rd signed
        (some (ra.val, postAddr s (coreNum c) (baseAddr s (coreNum c) ra).1 imm (n / 2))) q :=
  load_goesOut hi (coreNum_lt c) _ _
    ((if_neg fun e => hne (Fin.ext e)).trans (if_neg (by rw [hb]; exact Bool.false_ne_true))) h

end

/-- Settles O20: a far load goes out by `goFar`, and `farFinish` delivers what its halves hold. -/
theorem farLoadsComplete : Obligations.far_loads_complete := by
  refine ⟨?_, ?_, ?_, ?_⟩
  · intro c rd ra imm s hi n b hb
    have hon : coreOff s n = false := up_coreOff (issues_core hi).1 n
    simp only [List.forall_mem_cons, List.not_mem_nil, false_imp_iff, implies_true, and_true]
    refine ⟨?_, ?_, ?_, ?_, ?_, ?_, ?_⟩
    · exact fun _ hj hn hw ha hs hal => ⟨_, rfl, loadForm_goesOut 1 true hi hb ⟨hj, hon, hn, hw, ha, hs, hal⟩⟩
    · exact fun _ hj hn hw ha hs hal => ⟨_, rfl, loadForm_goesOut 1 false hi hb ⟨hj, hon, hn, hw, ha, hs, hal⟩⟩
    · exact fun _ hj hn hw ha hs hal => ⟨_, rfl, loadForm_goesOut 2 true hi hb ⟨hj, hon, hn, hw, ha, hs, hal⟩⟩
    · exact fun _ hj hn hw ha hs hal => ⟨_, rfl, loadForm_goesOut 2 false hi hb ⟨hj, hon, hn, hw, ha, hs, hal⟩⟩
    · exact fun _ hj hn hw ha hs hal => ⟨_, rfl, loadForm_goesOut 4 false hi hb ⟨hj, hon, hn, hw, ha, hs, hal⟩⟩
    · exact fun hne hj hn hw ha hs hal =>
        ⟨_, rfl, loadPost_goesOut 2 true hi hb (hne (Option.some_ne_none _)) ⟨hj, hon, hn, hw, ha, hs, hal⟩⟩
    · exact fun hne hj hn hw ha hs hal =>
        ⟨_, rfl, loadPost_goesOut 4 false hi hb (hne (Option.some_ne_none _)) ⟨hj, hon, hn, hw, ha, hs, hal⟩⟩
  · intro c o k signed s n hoff hfar hstep hkind hd _ hk hlo hhi hm h1 h2 hclean
    obtain ⟨g1, g2, g3, g4⟩ := farLoad_clean (coreNum_lt c) hoff hfar hstep hkind hd hk hlo hhi hm h1 h2 hclean
    refine ⟨_, rfl, g1, g2, ?_, g4⟩
    cases hu : o.upd <;> (rw [hu] at g3; exact g3)
  · intro c o k signed s n hoff hfar hstep hkind _ hupd hk hone htaken hlo hm hclr
    exact ⟨_, rfl, farLoad_counted (coreNum_lt c) hoff hfar hstep hkind hupd hk hone htaken hlo hm hclr⟩
  · intro c o s n s1 x hoff hfar hstep hkind _ hupd htaken hper h4 hclaim hcores
    exact ⟨_, rfl, farLoad_periph (coreNum_lt c) hoff hfar hstep hkind hupd htaken hper h4 hclaim hcores⟩

end Sys2Proof.Pipeline
end

section
namespace Sys2Proof.Pipeline
open Sys2Proof Sys2Proof.Machine Sys2Proof.Safety Sys2Proof.Laws
open Sys2Proof.Proofs hiding stepped zeroWord

/-! ### SWAP and CAS (R131, R136, R146, R168) -/

/-- What an atomic stores where it does, whether it does, and the poison that its result has besides its bytes'. -/
def swapOf : FarKind → Tagged
  | .swap b bp => (b, bp)
  | .cas b bp _ _ => (b, bp)
  | .load .. => (0, false)

def swaps (kind : FarKind) (old : Word) : Bool :=
  match kind with
  | .swap .. => true
  | .cas _ _ d _ => old == d
  | .load .. => false

def swapPoison : FarKind → Bool
  | .cas _ _ _ dp => dp
  | _ => false

/-- An aligned word of a quiet memory, clean. -/
structure AtomicWord (s : State) (a m : Nat) : Prop where
  mem : memOf a = some m
  aligned : a % 4 = 0
  quiet : memQuiet s m
  clean : ∀ i < 4, s.classAt (a + i) = .clean

theorem AtomicWord.inWord {s : State} {a m : Nat} (h : AtomicWord s a m) : InWord s a 4 m :=
  ⟨h.mem, by decide, by have := h.aligned; omega, by rw [clring_eq h.mem]; exact h.quiet.1⟩

theorem loadValue_clean {s : State} {a n : Nat} (h : ∀ i < n, s.classAt (a + i) = .clean) (signed : Bool) :
    (loadValue (s.bytesAt a n) signed).2 = false := by
  refine List.any_eq_false.2 fun x hx => ?_
  obtain ⟨i, hi, rfl⟩ := List.mem_map.1 hx
  rw [byteAt_clean (h i (List.mem_range.1 hi))]
  exact Bool.false_ne_true

theorem storeBytes_getElem (v : Tagged) (i : Nat) (h : i < (storeBytes v 4).length) :
    (storeBytes v 4)[i] = (BitVec.ofNat 8 (v.1.toNat / 2 ^ (8 * i)), v.2) := by
  simp [storeBytes, wordBytes]

/-- What an atomic makes of the state: the bytes of its operand, where it stores it. -/
structure Swapped (s t : State) (a : Nat) (v : Tagged) (done : Bool) : Prop where
  frame : onlyCore { s with mem := t.mem, chk := t.chk, vld := t.vld } t 0 [] ∧ t.cores = s.cores
  at_ : ∀ i < 4, t.byteAt (a + i) = if done then (BitVec.ofNat 8 (v.1.toNat / 2 ^ (8 * i)), v.2) else s.byteAt (a + i)
  else_ : ∀ y, y < a ∨ a + 4 ≤ y → t.byteAt y = s.byteAt y

theorem swapped_none {s t : State} (h : PmuOnly s t) (a : Nat) (v : Tagged) : Swapped s t a v false := by
  have hs : ({ s with mem := t.mem, chk := t.chk, vld := t.vld } : State) = s := by rw [h.mem, h.chk, h.vld]
  refine ⟨⟨?_, h.cores⟩, fun i _ => h.byteAt _, fun y _ => h.byteAt y⟩
  rw [hs]
  exact h.onlyCore 0 []

theorem swapped_word {s t u : State} {a m : Nat} (who : Nat) (h : PmuOnly s u) (hw : AtomicWord s a m) (v : Tagged)
    (ht : t = putWord u who a (storeBytes v 4)) : Swapped s t a v true := by
  subst ht
  have hst := putWord_stored (s := u) (bs := storeBytes v 4) who hw.mem ((h.memQuiet (memOf_lt hw.mem)).2 hw.quiet)
    (by have := hw.aligned; simp [storeBytes, wordBytes]; omega)
  have hwr := written_of h hst
  have hlen : (storeBytes v 4).length = 4 := by simp [storeBytes, wordBytes]
  refine ⟨hwr.frame, fun i hi => ?_, fun y hy => hwr.else_ y (by rw [hlen]; exact hy)⟩
  rw [if_pos rfl, hwr.at_ i (by rw [hlen]; exact hi), storeBytes_getElem]

/-- The one access of an atomic (R168). -/
theorem atomicOut_swapped {s : State} {c a m : Nat} (rd : Nat) {kind : FarKind} (hw : AtomicWord s (busAddr c a) m)
    (hk : ∀ n sg, kind ≠ .load n sg) :
    let old := (loadValue (s.bytesAt (busAddr c a) 4) false).1
    (atomicOut s c a rd kind).1 = [{ reg := rd, d := 3, val := old, poison := swapPoison kind }] ∧
      Swapped s (atomicOut s c a rd kind).2 (busAddr c a) (swapOf kind) (swaps kind old) := by
  have hp := countRowMem_pmuOnly s m c
  have hread := busRead_clean c hw.inWord hw.clean
  have hpois := loadValue_clean hw.clean false
  unfold atomicOut
  rw [hread]
  dsimp only
  rw [hpois]
  generalize (loadValue (s.bytesAt (busAddr c a) 4) false).1 = old
  cases kind with
  | load n sg => exact absurd rfl (hk n sg)
  | swap b bp => exact ⟨rfl, swapped_word c hp hw (b, bp) rfl⟩
  | cas b bp d dp =>
    refine ⟨rfl, ?_⟩
    by_cases hd : old = d
    · have hsw : swaps (.cas b bp d dp) old = true := beq_iff_eq.2 hd
      rw [hsw]
      exact swapped_word c hp hw (b, bp) (if_pos hd)
    · have hsw : swaps (.cas b bp d dp) old = false := beq_eq_false_iff_ne.2 hd
      rw [hsw]
      dsimp only
      rw [if_neg hd]
      exact swapped_none hp _ _

/-- What an atomic leaves of the state that it meets, behind what only its core and the PMU see. -/
theorem Swapped.within {s u v t : State} {a c : Nat} {x : Tagged} {done : Bool} (h : Swapped u v a x done)
    (h1 : onlyCore s u c []) (h2 : onlyCore v t c []) :
    (∀ i < 4, t.byteAt (a + i) = if done then (BitVec.ofNat 8 (x.1.toNat / 2 ^ (8 * i)), x.2) else s.byteAt (a + i)) ∧
      (∀ y, y < a ∨ a + 4 ≤ y → t.byteAt y = s.byteAt y) ∧
      onlyCore { s with mem := t.mem, chk := t.chk, vld := t.vld } t c [] := by
  have same {p q : State} (g : onlyCore p q c []) (y : Nat) : q.byteAt y = p.byteAt y :=
    byteAt_congr (by rw [State.vldAt, (congrArg State.vld g.1 :), State.vldAt])
      (by rw [State.dataAt, (congrArg State.mem g.1 :), State.dataAt]) (by rw [State.devAt, (congrArg State.chk g.1 :), State.devAt])
  refine ⟨fun i hi => by rw [same h2, h.at_ i hi, same h1], fun y hy => by rw [same h2, h.else_ y hy, same h1], ?_, fun j hj => ?_, fun k hk hx => ?_⟩
  · have e1 := congrArg (fun w : State => { w with cores := s.cores, regs := s.regs, pmu := s.pmu, mem := t.mem, chk := t.chk, vld := t.vld }) h1.1
    have e2 := congrArg (fun w : State => { w with cores := s.cores, regs := s.regs, pmu := s.pmu, mem := t.mem, chk := t.chk, vld := t.vld }) h.frame.1.1
    have e3 := congrArg (fun w : State => { w with cores := s.cores, regs := s.regs, pmu := s.pmu, mem := t.mem, chk := t.chk, vld := t.vld }) h2.1
    exact e3.trans (e2.trans e1)
  · exact (h2.2.1 j hj).trans ((core_congr h.frame.2 j).trans (h1.2.1 j hj))
  · exact (h2.2.2 k hk (by simp)).trans ((h.frame.1.2.2 k hk (by simp)).trans (h1.2.2 k hk (by simp)))

/-! ### Atomics on the own data memory -/

/-- The atomic at `aw` is performed at once. -/
theorem atomicAt_near {s : State} {c : Nat} {aw : Word} (rd : Nat) (kind : FarKind) (hj : judge1 s c .atomic aw.toNat 4 = 0)
    (hsb : ∀ e ∈ (s.core c).sb, overlaps e aw.toNat 4 = false) (hclr : clring s (busAddr c aw.toNat) = false)
    (hnear : near c aw.toNat = true) :
    atomicAt s c aw rd kind = complete (atomicOut s c aw.toNat rd kind).2 c (atomicOut s c aw.toNat rd kind).1 := by
  have hany : (s.core c).sb.any (overlaps · aw.toNat 4) = false := List.any_eq_false.2 fun e he => by simp [hsb e he]
  unfold atomicAt
  dsimp only
  rw [hj, if_neg (fun e => e rfl), hany, if_neg Bool.false_ne_true, hclr, if_neg Bool.false_ne_true, hnear, if_pos rfl]

theorem atomicAt_far {s : State} {c : Nat} {aw : Word} (rd : Nat) (kind : FarKind) (hj : judge1 s c .atomic aw.toNat 4 = 0)
    (hsb : ∀ e ∈ (s.core c).sb, overlaps e aw.toNat 4 = false) (hclr : clring s (busAddr c aw.toNat) = false)
    (hfar : near c aw.toNat = false) :
    atomicAt s c aw rd kind = goFar s (s.when (decide (512 ≤ c)) (fun s => countSv s (c - 512) 1 2 aw.toNat)) c
      { kind := kind, addr := aw.toNat, rd := rd, d := 3, pc := 0, upd := none } := by
  have hany : (s.core c).sb.any (overlaps · aw.toNat 4) = false := List.any_eq_false.2 fun e he => by simp [hsb e he]
  unfold atomicAt
  dsimp only
  rw [hj, if_neg (fun e => e rfl), hany, if_neg Bool.false_ne_true, hclr, if_neg Bool.false_ne_true, hfar, if_neg Bool.false_ne_true]

/-- The place of an address of the own data memory. -/
theorem ceData_eq {n a : Nat} (hn : n < 512) (h1 : 0x4000 ≤ a) (h2 : a < 0x8000) :
    busAddr n a = ceData n a ∧ memOf (ceData n a) = some (2 * n + 1) ∧ ceData n a % 8 = a % 8 := by
  refine ⟨if_pos ⟨hn, h2⟩, ?_, ceData_split h1⟩
  have hb : memBase (2 * n + 1) = 0x11000000 + n * 0x8000 + 0x4000 := by
    unfold memBase
    rw [if_pos (by omega), show (2 * n + 1) / 2 = n by omega, show (2 * n + 1) % 2 = 1 by omega]
  unfold ceData memOf
  rw [hb, if_neg (by omega), if_pos (by omega)]
  congr 1
  omega

theorem judge_near_atomic {s : State} {n a : Nat} (hn : n < 512) (h1 : 0x4000 ≤ a) (h2 : a < 0x8000) (h4 : a % 4 = 0) :
    judge1 s n .atomic a 4 = 0 := by
  have hhalves : halves a 4 = [(a, 4)] := by rw [halves_eq, if_pos (by omega)]
  have hhw : (hwWindow a || hwWindow (a + 4 - 1)) = false := by
    simp only [hwWindow, Bool.or_eq_false_iff, Bool.and_eq_false_iff, decide_eq_false_iff_not]
    omega
  have hok : ceOk s n .atomic a 4 = true := by
    unfold ceOk
    rw [if_neg (by omega), if_pos h2]
    rfl
  rw [judge1, if_pos hn, ceJudge]
  simp only [hhalves, List.any_cons, List.any_nil, List.all_cons, List.all_nil, Bool.or_false, hhw, h4, hok]
  rfl

/-- What an atomic has done, and its result. -/
def atomicDone (s t : State) (c a rd : Nat) (kind : FarKind) (k : CoreS) (old : Word) : Prop :=
  delivers s t c rd 3 (old, swapPoison kind) ∧ stepped k (t.core c) ∧
    (∀ i < 4, t.byteAt (a + i) = if swaps kind old then (BitVec.ofNat 8 ((swapOf kind).1.toNat / 2 ^ (8 * i)), (swapOf kind).2)
      else s.byteAt (a + i)) ∧
    (∀ y, y < a ∨ a + 4 ≤ y → t.byteAt y = s.byteAt y) ∧ onlyCore { s with mem := t.mem, chk := t.chk, vld := t.vld } t c []

theorem atomic_near {s : State} {n rd : Nat} {aw : Word} {kind : FarKind} (hi : issues s n = true) (hn : n < 512)
    (h1 : 0x4000 ≤ aw.toNat) (h2 : aw.toNat < 0x8000) (h4 : aw.toNat % 4 = 0)
    (hsb : ∀ e ∈ (s.core n).sb, overlaps e aw.toNat 4 = false) (hclr : clring s (ceData n aw.toNat) = false)
    (hclean : ∀ i < 4, s.classAt (ceData n aw.toNat + i) = .clean) (hflip : s.rdF .memFlip (2 * n + 1) 0 12 0 = 0)
    (hk : ∀ m sg, kind ≠ .load m sg) (rs : List Nat) (body : State → State) (hbody : body s = atomicAt s n aw rd kind) :
    atomicDone s (issue s n { regs := rs } body) n (ceData n aw.toNat) rd kind (s.core n)
      (loadValue (s.bytesAt (ceData n aw.toNat) 4) false).1 := by
  obtain ⟨-, -, -, hfar, hlong, -⟩ := issues_core hi
  obtain ⟨hbus, hmem, hmod⟩ := ceData_eq hn h1 h2
  have hnear : near n aw.toNat = true := by simp [near, hn, h2]
  have hw : AtomicWord s (busAddr n aw.toNat) (2 * n + 1) := by
    rw [hbus]
    exact ⟨hmem, by omega, ⟨by rw [← clring_eq hmem]; exact hclr, hflip⟩, hclean⟩
  obtain ⟨hout, hsw⟩ := atomicOut_swapped rd hw hk
  rw [issue_plain rs body hi, hbody, atomicAt_near rd kind (judge_near_atomic hn h1 h2 h4) hsb (by rw [hbus]; exact hclr) hnear, hout]
  rw [hbus] at hsw ⊢
  generalize (atomicOut s n aw.toNat rd kind).2 = v at hsw ⊢
  have hv : v.core n = s.core n := core_congr hsw.frame.2 n
  have hdone := complete_completed v n [{ reg := rd, d := 3, val := (loadValue (s.bytesAt (ceData n aw.toNat) 4) false).1, poison := swapPoison kind }]
  rw [hv] at hdone
  have hperf := performed_end s (c := n) (by omega) hdone hfar hlong
  exact ⟨hperf.delivers ⟨rfl, rfl, rfl⟩ (by decide), hperf.step,
    hsw.within (onlyCore_refl s n []) (onlyCore_trans (complete_onlyCore ..) hperf.frame)⟩

/-! ### Far atomics -/

theorem atomic_goesOut {s : State} {c rd : Nat} {aw : Word} {kind : FarKind} (hi : issues s c = true) (hc : c < 516)
    (hj : judge1 s c .atomic aw.toNat 4 = 0) (hsb : ∀ e ∈ (s.core c).sb, overlaps e aw.toNat 4 = false)
    (hclr : clring s (busAddr c aw.toNat) = false) (hfar : near c aw.toNat = false) (rs : List Nat) (body : State → State)
    (hbody : body s = atomicAt s c aw rd kind) : let t := issue s c { regs := rs } body
    onlyCore s t c [] ∧ ∃ q, t.core c =
      { s.core c with held := false, atM := false, skid := none, waited := 0,
                      far := some { kind := kind, addr := aw.toNat, rd := rd, d := 3, pc := (s.core c).pc, upd := none,
                                    since := s.steady, order := claimOrder s, skid := q } } := by
  have hp : PmuOnly s (s.when (decide (512 ≤ c)) fun s => countSv s (c - 512) 1 2 aw.toNat) := .when _ (countSv_pmuOnly _ (by omega) ..)
  rw [issue_plain rs body hi, hbody, atomicAt_far rd kind hj hsb hclr hfar]
  generalize (s.when (decide (512 ≤ c)) fun s => countSv s (c - 512) 1 2 aw.toNat) = u at hp ⊢
  obtain ⟨q, hcore, honly⟩ := goFar_core (s0 := s) (s := u) c { kind := kind, addr := aw.toNat, rd := rd, d := 3, pc := 0, upd := none }
  rw [hp.core, hp.steady, hp.claimOrder] at hcore
  dsimp only
  rw [far_issue hcore rfl rfl]
  exact ⟨onlyCore_trans (hp.onlyCore c []) honly, q, hcore⟩

theorem farFinish_atomic {s : State} {c : Nat} {o : FarOp} (h : mayFinish s c o) (hk : ∀ n sg, o.kind ≠ .load n sg) :
    farFinish s c =
      let x := atomicOut (s.setCore c { s.core c with far := none }) c o.addr o.rd o.kind
      farDone s x.2 c o x.1 := by
  obtain ⟨hoff, hfar, hclr, hcl⟩ := h
  unfold farFinish
  dsimp only
  rw [hfar]
  dsimp only
  rw [hoff, hclr, hcl, if_neg (by decide)]
  cases hkind : o.kind with
  | load n sg => exact absurd hkind (hk n sg)
  | swap b bp => rfl
  | cas b bp d dp => rfl

theorem AtomicWord.setCore {s : State} {a m : Nat} (h : AtomicWord s a m) (c : Nat) (k : CoreS) : AtomicWord (s.setCore c k) a m :=
  ⟨h.mem, h.aligned, h.quiet, h.clean⟩

theorem atomic_finishes {s : State} {c m : Nat} {o : FarOp} (hc : c < 516) (hoff : coreOff s c = false)
    (hfar : (s.core c).far = some o) (hstep : (s.core c).stepOne = false) (hlo : 0x10000000 ≤ o.addr) (hhi : o.addr < 0x40000000)
    (hw : AtomicWord s o.addr m) (hk : ∀ n sg, o.kind ≠ .load n sg) :
    atomicDone s (farFinish s c) c o.addr o.rd o.kind { s.core c with far := none } (loadValue (s.bytesAt o.addr 4) false).1 := by
  have hbus : busAddr c o.addr = o.addr := busAddr_far (by omega)
  have hw1 : AtomicWord (s.setCore c { s.core c with far := none }) (busAddr c o.addr) m := by
    rw [hbus]
    exact hw.setCore ..
  obtain ⟨hout, hsw⟩ := atomicOut_swapped o.rd hw1 hk
  rw [farFinish_atomic (mayFinish_of hoff hfar (by omega) hhi (by rw [clring_eq hw.mem]; exact hw.quiet.1)) hk]
  dsimp only
  rw [hout]
  rw [hbus] at hsw ⊢
  generalize (atomicOut (s.setCore c { s.core c with far := none }) c o.addr o.rd o.kind).2 = v at hsw ⊢
  have hv : v.core c = { s.core c with far := none } := by rw [core_congr hsw.frame.2, core_setCore_same]
  have hperf := farDone_performed (s := s) o
    [{ reg := o.rd, d := 3, val := (loadValue (s.bytesAt o.addr 4) false).1, poison := swapPoison o.kind }] hc hv hstep
  exact ⟨hperf.delivers ⟨rfl, rfl, rfl⟩ (by decide), hperf.step, hsw.within (setCore_onlyCore ..) hperf.frame⟩

/-- Settles O23: both instructions are `atomicAt`, whose one access `atomicOut` is. -/
theorem atomicsComplete : Obligations.atomics_complete := by
  refine ⟨?_, ?_, ?_⟩
  · intro n rd ra rb s hi hb a m old b d h1 h2 h4 hsb hclr hclean hflip
    simp only [List.forall_mem_cons, List.not_mem_nil, false_imp_iff, implies_true, and_true]
    have hn : (n : Nat) < 512 := n.isLt
    exact ⟨⟨_, rfl, atomic_near (kind := .swap b.1 b.2) hi hn h1 h2 h4 hsb hclr hclean hflip (fun _ _ e => nomatch e) _ _
        (if_neg (ne_true_of_eq_false hb))⟩,
      _, rfl, atomic_near (kind := .cas b.1 b.2 d.1 d.2) hi hn h1 h2 h4 hsb hclr hclean hflip (fun _ _ e => nomatch e) _ _
        (if_neg (ne_true_of_eq_false hb))⟩
  · intro c rd ra rb s hi n hb a b d hj hfar hsb hclr
    simp only [List.forall_mem_cons, List.not_mem_nil, false_imp_iff, implies_true, and_true]
    exact ⟨⟨_, rfl, atomic_goesOut hi (coreNum_lt c) hj hsb hclr hfar _ _ (if_neg (ne_true_of_eq_false hb))⟩,
      _, rfl, atomic_goesOut hi (coreNum_lt c) hj hsb hclr hfar _ _ (if_neg (ne_true_of_eq_false hb))⟩
  · intro c o b d bp dp m s n old hoff hfar hstep hlo hhi h4 hm hclr hclean hflip
    have hw : AtomicWord s o.addr m := ⟨hm, h4, ⟨by rw [← clring_eq hm]; exact hclr, hflip⟩, hclean⟩
    simp only [List.forall_mem_cons, List.not_mem_nil, false_imp_iff, implies_true, and_true]
    have done (hk : ∀ n sg, o.kind ≠ .load n sg) := atomic_finishes (coreNum_lt c) hoff hfar hstep hlo hhi hw hk
    refine ⟨fun hk => ⟨_, rfl, ?_⟩, fun hk => ⟨_, rfl, ?_⟩⟩
    · have h := done (by rw [hk]; exact fun _ _ e => nomatch e)
      rw [hk] at h
      exact h
    · have h := done (by rw [hk]; exact fun _ _ e => nomatch e)
      rw [hk] at h
      exact h

end Sys2Proof.Pipeline
end

section
namespace Sys2Proof.Pipeline
open Sys2Proof Sys2Proof.Machine Sys2Proof.Safety Sys2Proof.Laws
open Sys2Proof.Proofs hiding stepped zeroWord

/-! ### What the agreement checker leaves (R183–R192) -/

/-- The cores, their pending control registers, and the open activations of every slot. -/
def checkView (s : State) : Tbl CoreS × Tbl (Option Word) × (Nat → List OpenAct) :=
  (s.cores, s.crPend, fun i => (tget (fun _ => {}) s.slots i).acts)

/-- The registers that the checker writes. -/
def checkRegs : List Reg := [.rwSstat, .rwDis, .rwMiss, .pmuRcnt, .pmuRctl] ++ netRegs

/-- Cores, pending control registers, open activations and the registers that are not the checker's are as they were. -/
abbrev CheckerOnly (s t : State) : Prop := Only checkView checkRegs s t

theorem checkerOnly_wr (s : State) {r : Reg} {i j : Nat} (v : Word) (hr : r ∈ checkRegs) (hi : i < r.info.ni) (hj : j < r.info.nj) :
    CheckerOnly s (s.wr r i j v) := .wr rfl hr hi hj

theorem record_checkerOnly (s : State) (code src : Nat) (p0 p1 p2 p3 : Word) : CheckerOnly s (s.record code src p0 p1 p2 p3) := by
  have h := record_rest s code src p0 p1 p2 p3
  exact ⟨(congrArg checkView h :), KeepsRegs.mono (keepsRegs_record s code src p0 p1 p2 p3) (by decide)⟩

theorem rowSrc_checkerOnly (s : State) (k : Nat) : CheckerOnly s (rowSrc s k) := by
  have h : MuteOnly s (rowSrc s k) := setSource_muteOnly ..
  exact ⟨(congrArg checkView h.rest :), h.regs.mono (by decide)⟩

theorem setEact_checkerOnly (s : State) (n : Nat) (v : EngAct) : CheckerOnly s (s.setEact n v) := .of_regs_eq rfl rfl

/-- A change of a slot that leaves its open activations. -/
theorem setSlot_checkerOnly (s : State) (k x : Nat) {b : SlotS} (h : b.acts = (s.slot k x).acts) : CheckerOnly s (s.setSlot k x b) := by
  refine .of_regs_eq (Prod.ext rfl (Prod.ext rfl (funext fun i => ?_))) rfl
  show (tget (fun _ => {}) (tput (fun _ => {}) s.slots (4 * k + x) b) i).acts = (tget (fun _ => {}) s.slots i).acts
  rw [tget_tput]
  split
  next hi => rw [h, hi, State.slot]
  · rfl

section
variable {k x : Nat} (hk : k < 64) (hx : x < 4)
include hk

theorem rowBump_checkerOnly (s : State) {c : Nat} (hc : c < 4) : CheckerOnly s (rowBump s k c) := by
  have h (t : State) (v : Word) : CheckerOnly t (t.wr .pmuRcnt k c v) := checkerOnly_wr t v (by decide) hk hc
  exact .ite ((h s _).trans (checkerOnly_wr _ _ (by decide) hk (by decide))) (h s _)

theorem countRow_checkerOnly (s : State) (cls e : Nat) (eng : Option Nat) : CheckerOnly s (countRow s k cls e eng) :=
  .forN s fun t _ hc => .when _ (rowBump_checkerOnly hk t hc)

theorem applyHeld_checkerOnly (s : State) (ws : List (Nat × Word)) : CheckerOnly s (applyHeld s k ws) := by
  have h : CheckerOnly s { s with commits := s.commits ++ [{ lanes := rowLanes s k, stores := ws }] } := .of_regs_eq rfl rfl
  exact h.trans (countRow_checkerOnly hk _ 2 0 none)

include hx

theorem sstat_checkerOnly (s : State) (v : Word) : CheckerOnly s (s.wr .rwSstat k x v) := checkerOnly_wr s v (by decide) hk hx

theorem miss_checkerOnly (s : State) (v : Word) : CheckerOnly s (s.wr .rwMiss k x v) := checkerOnly_wr s v (by decide) hk hx

theorem dis_checkerOnly (s : State) (v : Word) : CheckerOnly s (s.wr .rwDis k x v) := checkerOnly_wr s v (by decide) hk hx

theorem onTime_checkerOnly (s : State) : CheckerOnly s (onTime s k x) := (sstat_checkerOnly hk hx s _).trans (rowSrc_checkerOnly ..)

theorem applyCommit_checkerOnly (s : State) (n : Nat) : CheckerOnly s (applyCommit s k x n) := by
  unfold applyCommit
  extract_lets e u w
  have hu : CheckerOnly s u := .of_regs_eq rfl rfl
  have hw : CheckerOnly u w := (setEact_checkerOnly ..).trans (countRow_checkerOnly hk ..)
  exact (hu.trans hw).trans (.ite (onTime_checkerOnly hk hx _) (sstat_checkerOnly hk hx _ _))

theorem disagree_checkerOnly (s : State) (u v : List (Nat × Word) × Bool) : CheckerOnly s (disagree s k x u v) := by
  refine .ite (.refl ..) ?_
  have h1 (t : State) : CheckerOnly t (countRow ((t.setB .rwSstat k x 4).incF .rwDis k x 23 16) k 2 2 none) :=
    ((sstat_checkerOnly hk hx t _).trans (dis_checkerOnly hk hx _ _)).trans (countRow_checkerOnly hk ..)
  exact (((h1 s).trans (dis_checkerOnly hk hx _ _)).trans (dis_checkerOnly hk hx _ _)).trans (record_checkerOnly ..)

theorem judge_checkerOnly (s : State) : CheckerOnly s (judge s k x) := by
  unfold judge
  extract_lets b ended s1
  have h1 : CheckerOnly s s1 := setSlot_checkerOnly s k x rfl
  split
  · exact .refl ..
  · extract_lets ep eq
    refine .ite (.refl ..) ?_
    exact h1.trans (disagree_checkerOnly hk hx ..)

omit hk hx in
theorem loseRole_checkerOnly (s : State) (n : Nat) : CheckerOnly s (loseRole s k x n) := by
  refine setSlot_checkerOnly s k x ?_
  split <;> rfl

omit hk hx in
theorem takePrev_checkerOnly (s : State) (n : Nat) : CheckerOnly s (takePrev s k x n).2 := by
  unfold takePrev
  extract_lets b
  split
  · split
    · exact setSlot_checkerOnly s k x rfl
    · exact .refl ..
  · exact .refl ..

theorem failoverNote_checkerOnly (s : State) (n : Nat) : CheckerOnly s (failoverNote s k x n) :=
  (((sstat_checkerOnly hk hx s _).trans (miss_checkerOnly hk hx _ _)).trans (countRow_checkerOnly hk ..)).trans (record_checkerOnly ..)

theorem takeOver_checkerOnly (s : State) (q : Nat) : CheckerOnly s (takeOver s k x q) := by
  unfold takeOver
  extract_lets e
  split
  · exact .refl ..
  · exact .ite (.refl ..) (.ite (.ite (.refl ..) (applyCommit_checkerOnly hk hx s q)) (.ite (onTime_checkerOnly hk hx s) (.refl ..)))

theorem failover_checkerOnly (s : State) (n : Nat) : CheckerOnly s (failover s k x n) := by
  unfold failover
  split
  next g s1 heq =>
    have h1 : CheckerOnly s s1 := by
      have h := takePrev_checkerOnly (k := k) (x := x) s n
      rwa [heq] at h
    extract_lets q s2 s3 s4 s5 s6
    have h2 : CheckerOnly s1 s2 := loseRole_checkerOnly s1 n
    have h3 : CheckerOnly s2 s3 := (sstat_checkerOnly hk hx s2 _).trans (sstat_checkerOnly hk hx _ _)
    have h4 : CheckerOnly s3 s4 := failoverNote_checkerOnly hk hx s3 n
    have h5 : CheckerOnly s4 s5 := by
      unfold s5
      split
      · exact applyHeld_checkerOnly hk ..
      · exact .refl ..
    have h6 : CheckerOnly s5 s6 := by
      unfold s6
      clear_value q
      split
      · exact takeOver_checkerOnly hk hx ..
      · exact .refl ..
    exact (((((h1.trans h2).trans h3).trans h4).trans h5).trans h6).trans (rowSrc_checkerOnly s6 k)

theorem standbyLost_checkerOnly (s : State) (n : Nat) : CheckerOnly s (standbyLost s k x n) := by
  unfold standbyLost
  extract_lets s1 b s2
  have h1 : CheckerOnly s s1 := (loseRole_checkerOnly s n).trans (sstat_checkerOnly hk hx _ _)
  have h2 : CheckerOnly s1 s2 := setSlot_checkerOnly s1 k x rfl
  have h3 : CheckerOnly s2 (roleRecord (s2.setB .rwSstat k x 3) 0x0205 k x n) :=
    (sstat_checkerOnly hk hx s2 _).trans (record_checkerOnly ..)
  exact ((h1.trans h2).trans h3).trans (rowSrc_checkerOnly ..)

omit hk hx in
theorem endRun_checkerOnly (s : State) : CheckerOnly s (endRun s k x) := .ite (.refl ..) (setSlot_checkerOnly s k x rfl)

theorem prevEnds_checkerOnly (s : State) (n : Nat) (commit : Bool) : CheckerOnly s (prevEnds s k x n commit) := by
  unfold prevEnds
  split
  next g s1 heq =>
    have h1 : CheckerOnly s s1 := by
      have h := takePrev_checkerOnly (k := k) (x := x) s n
      rwa [heq] at h
    extract_lets e e1 s2
    have h1' : CheckerOnly s1 (applyHeld (s1.setEact n { e1 with applied := true }) k e.staged) := (setEact_checkerOnly ..).trans (applyHeld_checkerOnly hk ..)
    have h2 : CheckerOnly s1 s2 := .ite (h1'.trans (onTime_checkerOnly hk hx _)) (.refl ..)
    split
    · exact h1
    · exact (h1.trans h2).trans (disagree_checkerOnly hk hx ..)

end

theorem slotOf_lt {s : State} {n x : Nat} (h : slotOf s n = some x) : x < 4 := by
  simpa using List.mem_of_find?_eq_some h

/-- A fault of an engine reaches the checker (R18, R189). -/
theorem checkerFault_checkerOnly (s : State) {n : Nat} (hn : n < 512) : CheckerOnly s (checkerFault s n) := by
  unfold checkerFault
  extract_lets k e s1
  have hk : k < 64 := by omega
  have h1 : CheckerOnly s s1 := setEact_checkerOnly ..
  split
  · exact .refl ..
  next x hx =>
    have hx' := slotOf_lt hx
    extract_lets s2 s3 s4
    have h2 : CheckerOnly s1 s2 := loseRole_checkerOnly s1 n
    have h3 : CheckerOnly s2 s3 := by
      unfold s3
      split
      · exact .refl ..
      · exact .ite ((sstat_checkerOnly hk hx' ..).trans (record_checkerOnly ..)) (failoverNote_checkerOnly hk hx' ..)
    have h4 : CheckerOnly s1 s4 := .ite (.ite (failover_checkerOnly hk hx' ..) ((h2.trans h3).trans (rowSrc_checkerOnly ..)))
      (.ite (standbyLost_checkerOnly hk hx' ..) (.refl ..))
    exact (h1.trans h4).trans (endRun_checkerOnly ..)

/-- A slot with no open activation starts none (R183). -/
theorem tryStart_none {s : State} {k x : Nat} (h : (s.slot k x).acts = []) : tryStart s k x = s := by
  unfold tryStart
  rw [h]

/-- The end of an engine's part in an activation, where its slot has no other open (R188, R192). -/
theorem checkerYield_checkerOnly {s : State} {n : Nat} (hn : n < 512) (ha : ∀ x < 4, (s.slot (n / 8) x).acts = []) :
    CheckerOnly s (checkerYield s n) := by
  unfold checkerYield
  extract_lets k e e'
  have hk : k < 64 := by omega
  split
  · exact .refl ..
  next x hx =>
    have hx' := slotOf_lt hx
    refine .ite (.refl ..) ?_
    extract_lets s1 s2 dead s3
    have h1 : CheckerOnly s s1 := .ite (prevEnds_checkerOnly hk hx' ..) (.refl ..)
    have h2 : CheckerOnly s1 s2 := setEact_checkerOnly ..
    have h3 : CheckerOnly s2 s3 := .ite (onTime_checkerOnly hk hx' _) (.refl ..)
    have h4 : CheckerOnly s (endRun (judge s3 k x) k x) :=
      (((h1.trans h2).trans h3).trans (judge_checkerOnly hk hx' _)).trans (endRun_checkerOnly _)
    have hacts : ((endRun (judge s3 k x) k x).slot k x).acts = [] :=
      (congrFun (congrArg (fun v => v.2.2) h4.rest) (4 * k + x)).trans (ha x hx')
    rw [tryStart_none hacts]
    exact h4

theorem CheckerOnly.core {s t : State} (h : CheckerOnly s t) (m : Nat) : t.core m = s.core m := by
  have hc : t.cores = s.cores := (congrArg Prod.fst h.rest :)
  rw [State.core, hc, State.core]

theorem CheckerOnly.crPend {s t : State} (h : CheckerOnly s t) : t.crPend = s.crPend := (congrArg (fun v => v.2.1) h.rest :)

/-- The control registers of an engine are none of the checker's. -/
theorem CheckerOnly.ceCr {s t : State} (h : CheckerOnly s t) {n j : Nat} (hn : n < 512) (hj : j < 64) :
    t.rd .ceCr n j = s.rd .ceCr n j := h.regs .ceCr n j (by decide) hn hj

end Sys2Proof.Pipeline
end

section
namespace Sys2Proof.Pipeline
open Sys2Proof Sys2Proof.Machine Sys2Proof.Safety Sys2Proof.Laws
open Sys2Proof.Proofs hiding stepped zeroWord

/-! ### A slot that starts leaves an engine that is not Idle (R183) -/

/-- Engine `n` and its control registers are as they were. -/
structure EngineKept (n : Nat) (s t : State) : Prop where
  core : t.core n = s.core n
  cr : ∀ j < 64, t.rd .ceCr n j = s.rd .ceCr n j

namespace EngineKept

variable {n : Nat} {s t u : State}

theorem refl (n : Nat) (s : State) : EngineKept n s s := ⟨rfl, fun _ _ => rfl⟩

theorem trans (h : EngineKept n s t) (g : EngineKept n t u) : EngineKept n s u :=
  ⟨g.core.trans h.core, fun j hj => (g.cr j hj).trans (h.cr j hj)⟩

theorem of_regs_eq (hc : t.core n = s.core n) (h : t.regs = s.regs) : EngineKept n s t :=
  ⟨hc, fun j _ => by rw [State.rd, h, State.rd]⟩

theorem of_cores_eq (hc : t.cores = s.cores) (h : t.regs = s.regs) : EngineKept n s t :=
  of_regs_eq (by rw [State.core, hc, State.core]) h

theorem ite {p : Prop} [Decidable p] (ht : EngineKept n s t) (hu : EngineKept n s u) : EngineKept n s (if p then t else u) := by
  split
  · exact ht
  · exact hu

theorem foldl {α : Type} {f : State → α → State} (l : List α) (s : State) (h : ∀ t, ∀ x ∈ l, EngineKept n t (f t x)) :
    EngineKept n s (l.foldl f s) := by
  induction l generalizing s with
  | nil => exact refl ..
  | cons x l ih => exact (h s x (by simp)).trans (ih _ fun t y hy => h t y (by simp [hy]))

end EngineKept

theorem PmuOnly.engineKept {s t : State} (h : PmuOnly s t) {n : Nat} (hn : n < 512) : EngineKept n s t := by
  refine ⟨h.core n, fun j _ => h.rd ?_⟩
  have hk := crKey_not_inPmu n j
  rwa [crKey, crReg, crIdx, if_pos hn, if_pos hn] at hk

section
variable {n : Nat} (hn : n < 512)
include hn

theorem CheckerOnly.engineKept {s t : State} (h : CheckerOnly s t) : EngineKept n s t := ⟨h.core n, fun _ hj => h.ceCr hn hj⟩

/-- A write of a register of the index. -/
theorem wr_engineKept (s : State) {r : Reg} {i j : Nat} (v : Word) (hr : r ≠ .ceCr) (hi : i < r.info.ni) (hj : j < r.info.nj) :
    EngineKept n s (s.wr r i j v) := ⟨rfl, fun _ hm => rd_wr_other s v hr.symm hi hj hn hm⟩

theorem awaitClear_engineKept (s : State) (a : Nat) : EngineKept n s (awaitClear s a) := by
  unfold awaitClear
  split
  next m hm =>
    have h1 : EngineKept n s (clearValid s m) := .of_cores_eq rfl rfl
    exact .ite (h1.trans (wr_engineKept hn _ _ (by decide) (memOf_lt hm) (by decide))) (.refl ..)
  · exact .refl ..

theorem flipApply_engineKept (s : State) (who a l : Nat) : EngineKept n s (flipApply s who a l) := by
  unfold flipApply
  split
  · exact .refl ..
  next m hm =>
    have hi := memOf_lt hm
    have hput (t : State) (b : Nat) (d : Byte) (dev : BitVec 5) : EngineKept n t (t.putByte b d dev) := .of_cores_eq rfl rfl
    exact .ite ((((hput ..).trans (wr_engineKept hn _ _ (by decide) hi (by decide))).trans
      (wr_engineKept hn _ _ (by decide) hi (by decide))).trans (wr_engineKept hn _ _ (by decide) hi (by decide))) (.refl ..)

theorem writeWord_engineKept (s : State) (who a : Nat) (bs : List (Byte × Bool)) : EngineKept n s (writeWord s who a bs) := by
  have hc : EngineKept n s (match memOf a with | some m => countRowMem s m who | none => s) := by
    split
    · exact (countRowMem_pmuOnly ..).engineKept hn
    · exact .refl ..
  have hput (t : State) : EngineKept n t (putWord t who a bs) := by
    have hopen (u : State) : EngineKept n u (u.openWord a) := .of_cores_eq (openWord_memOnly u a).cores (openWord_memOnly u a).regs
    have hput (u : State) : EngineKept n u ((bs.zipIdx).foldl (fun s p => s.storeByte (a + p.2) p.1) u) :=
      .foldl _ _ fun u x _ => .of_cores_eq rfl rfl
    exact (((awaitClear_engineKept hn t a).trans (hopen _)).trans (hput _)).trans (flipApply_engineKept hn ..)
  exact hc.trans (hput _)

theorem writeMem_engineKept (s : State) (who a : Nat) (bs : List (Byte × Bool)) : EngineKept n s (writeMem s who a bs) :=
  .ite (writeWord_engineKept hn ..) ((writeWord_engineKept hn ..).trans (writeWord_engineKept hn ..))

theorem rowSrc_engineKept (s : State) (k : Nat) : EngineKept n s (rowSrc s k) := (rowSrc_checkerOnly s k).engineKept hn

theorem takeRejoin_engineKept (s : State) {k x : Nat} (hk : k < 64) (hx : x < 4) : EngineKept n s (takeRejoin s k x).1 := by
  have wr (t : State) (v : Word) : EngineKept n t (t.wr .rwSstat k x v) := wr_engineKept hn t v (by decide) hk hx
  unfold takeRejoin
  extract_lets b
  split
  · exact .refl ..
  · extract_lets b' u v
    have hu : EngineKept n s u := .of_cores_eq rfl rfl
    have hv : EngineKept n u v := .ite (wr ..) ((wr ..).trans (wr ..))
    exact (hu.trans hv).trans (rowSrc_engineKept hn ..)

omit hn in
/-- The start of one engine leaves another. -/
theorem startEngine_engineKept (s : State) {m : Nat} (hm : n ≠ m) (entry : Nat) (point : BitVec 64) :
    EngineKept n s (startEngine s m entry point) :=
  .of_regs_eq ((core_setCore ..).trans (if_neg hm)) rfl

theorem startAct_engineKept (s : State) {k x : Nat} (hk : k < 64) (a : OpenAct) {es : List Nat} (join : Bool) (hes : n ∉ es) :
    EngineKept n s (startAct s k x a es join) := by
  unfold startAct
  extract_lets b0 b count ws pb block entry s1 s2 s3 began
  have h1 : EngineKept n s s1 := .foldl _ _ fun t m _ => .ite (.refl ..) (.of_cores_eq rfl rfl)
  have h2 : EngineKept n s1 s2 := .foldl _ _ fun t m hm =>
    (((EngineKept.foldl _ _ fun u p _ => writeMem_engineKept hn ..).trans (.foldl _ _ fun u p _ => writeMem_engineKept hn ..)).trans
      (startEngine_engineKept _ (fun e : n = m => hes (e.symm ▸ hm)) _ _)).trans ((countRow_checkerOnly hk ..).engineKept hn)
  have h3 : EngineKept n s2 s3 := .ite (wr_engineKept hn _ _ (by decide) hk (by decide)) (.refl ..)
  have h4 (t : State) (v : SlotS) : EngineKept n t (t.setSlot k x v) := .of_cores_eq rfl rfl
  exact ((h1.trans h2).trans h3).trans (h4 ..)

/-- An engine that is not Idle takes no activation (R183). -/
theorem tryStart_engineKept (s : State) {k x : Nat} (hk : k < 64) (hx : x < 4) (hm : (s.core n).mode ≠ .idle) :
    EngineKept n s (tryStart s k x) := by
  unfold tryStart
  split
  · exact .refl ..
  next a _ _ =>
    extract_lets busy
    refine .ite (.refl ..) ?_
    split
    next s1 join heq =>
      have h1 : EngineKept n s s1 := by
        have h := takeRejoin_engineKept hn s hk hx
        rwa [heq] at h
      extract_lets es
      refine .ite (.refl ..) (h1.trans (startAct_engineKept hn s1 hk a join ?_))
      intro hmem
      have hable : able s1 n = true := (List.mem_filter.1 hmem).2
      rw [able, h1.core, Bool.and_eq_true, beq_iff_eq] at hable
      exact hm hable.1

/-! ### Engine stops (R152, R153) -/

omit hn in
theorem slotOf_congr {s t : State} (h : ∀ x < 4, t.rd .rwBind (n / 8) x = s.rd .rwBind (n / 8) x) : slotOf t n = slotOf s n :=
  List.find?_congr fun x hx => by rw [h x (by simpa using hx)]

end

/-- An engine's core behind a stop. -/
def stopCore (k : CoreS) : CoreS :=
  { k with
    mode := .stopped, held := false, atM := false, wait := 0, waited := 0, undo := [], yielding := false, slot := none, pcs := [] }

/-- Engine `n` stops: its core, the cause and its addresses, and its other control registers; where it serves no slot, no memory
changes. -/
structure Stops (s t : State) (n cause : Nat) (prec : Bool) (pc : Nat) (addr : Word) : Prop where
  core : t.core n = stopCore (s.core n)
  cause : fld (t.rd .ceCr n 6) 5 0 = (1 + 2 * cause + 32 * b2n prec) % 64
  pc : t.rd .ceCr n 7 = wd (pc % 0x4000)
  addr : t.rd .ceCr n 8 = addr
  cr : ∀ j < 6, t.rd .ceCr n j = s.rd .ceCr n j
  mem : slotOf s n = none → t.mem = s.mem

/-- The low bits of CE_FSTAT, below its count. -/
theorem fld_fstat (a cnt : Nat) : fld (wd (a + 256 * cnt)) 5 0 = a % 64 := by
  unfold fld wd
  rw [BitVec.toNat_ofNat]
  omega

/-- The control registers of a fault and the stopped core. -/
def stopMark (s : State) (n cause : Nat) (prec : Bool) (pc : Nat) (addr : Word) : State :=
  let f := wd (1 + 2 * cause + 32 * b2n prec + 256 * Nat.min (fld (s.rd .ceCr n 6) 15 8 + 1) 255)
  let u := ((s.wr .ceCr n 6 f).wr .ceCr n 7 (wd (pc % 0x4000))).wr .ceCr n 8 addr
  u.setCore n (stopCore (u.core n))

theorem rd_ceCr_wr (s : State) (n i j : Nat) (v : Word) : (s.wr .ceCr n i v).rd .ceCr n j = if j = i then v else s.rd .ceCr n j := by
  by_cases h : j = i
  · rw [if_pos h, h, rd_wr_same]
  · rw [if_neg h]
    refine rd_wr_ne _ _ _ _ _ _ _ _ ?_
    rw [addr_ceCr, addr_ceCr]
    omega

/-- The control registers of an engine lie above the bindings of its row. -/
theorem rwBind_wr_ceCr (s : State) (n i x : Nat) (v : Word) (hx : x < 4) :
    (s.wr .ceCr n i v).rd .rwBind (n / 8) x = s.rd .rwBind (n / 8) x := by
  have hb : Reg.rwBind.addr (n / 8) x = 0x6F000100 + 4096 * (n / 8) + 64 * x := rfl
  refine rd_wr_ne _ _ _ _ _ _ _ _ ?_
  rw [addr_ceCr, hb]
  omega

theorem rd_ceCr_wr3 (s : State) (n j : Nat) (u v w : Word) : (((s.wr .ceCr n 6 u).wr .ceCr n 7 v).wr .ceCr n 8 w).rd .ceCr n j =
    if j = 8 then w else if j = 7 then v else if j = 6 then u else s.rd .ceCr n j :=
  (rd_ceCr_wr ..).trans (if_congr Iff.rfl rfl ((rd_ceCr_wr ..).trans (if_congr Iff.rfl rfl (rd_ceCr_wr ..))))

theorem stopMark_stops (s : State) (n cause : Nat) (prec : Bool) (pc : Nat) (addr : Word) :
    Stops s (stopMark s n cause prec pc addr) n cause prec pc addr := by
  unfold stopMark
  dsimp only
  have hfst := fld_fstat (1 + 2 * cause + 32 * b2n prec) (Nat.min (fld (s.rd .ceCr n 6) 15 8 + 1) 255)
  generalize wd (1 + 2 * cause + 32 * b2n prec + 256 * Nat.min (fld (s.rd .ceCr n 6) 15 8 + 1) 255) = f at hfst
  have hu (j : Nat) := rd_ceCr_wr3 s n j f (wd (pc % 0x4000)) addr
  have hcore : (((s.wr .ceCr n 6 f).wr .ceCr n 7 (wd (pc % 0x4000))).wr .ceCr n 8 addr).core n = s.core n := rfl
  have hmem : (((s.wr .ceCr n 6 f).wr .ceCr n 7 (wd (pc % 0x4000))).wr .ceCr n 8 addr).mem = s.mem := rfl
  generalize ((s.wr .ceCr n 6 f).wr .ceCr n 7 (wd (pc % 0x4000))).wr .ceCr n 8 addr = u at hu hcore hmem
  have hrd (j : Nat) : (u.setCore n (stopCore (u.core n))).rd .ceCr n j = u.rd .ceCr n j := rfl
  refine ⟨?_, ?_, (hrd 7).trans (hu 7), (hrd 8).trans (hu 8), fun j hj => ?_, fun _ => hmem⟩
  · rw [core_setCore_same, hcore]
  · rw [hrd, hu 6]
    exact hfst
  · rw [hrd, hu j, if_neg (by omega), if_neg (by omega), if_neg (by omega)]

/-- The slot of an engine that has stopped starts what it can (R183). -/
def restart (s : State) (n : Nat) : State := match slotOf s n with | some x => tryStart s (n / 8) x | none => s

theorem restart_none {s : State} {n : Nat} (h : slotOf s n = none) : restart s n = s := by
  unfold restart
  rw [h]

theorem restart_engineKept (s : State) {n : Nat} (hn : n < 512) (hm : (s.core n).mode ≠ .idle) : EngineKept n s (restart s n) := by
  unfold restart
  split
  next x hx => exact tryStart_engineKept hn s (by omega) (slotOf_lt hx) hm
  · exact .refl ..

theorem stopped_eq (s : State) (n cause : Nat) (prec : Bool) (pc : Nat) (addr : Word) :
    stopped s n cause prec pc addr = restart (checkerFault ((countRow (stopMark s n cause prec pc addr) (n / 8) 0 3 (some n)).record
      0x0202 (n / 8) (wd n) (wd cause) (wd (pc % 0x4000)) addr) n) n := rfl

/-- STOPPED (R152, R153). -/
theorem stopped_stops (s : State) {n : Nat} (hn : n < 512) (cause : Nat) (prec : Bool) (pc : Nat) (addr : Word) :
    Stops s (stopped s n cause prec pc addr) n cause prec pc addr := by
  have hk : n / 8 < 64 := by omega
  have h0 := stopMark_stops s n cause prec pc addr
  have hbind0 : ∀ x < 4, (stopMark s n cause prec pc addr).rd .rwBind (n / 8) x = s.rd .rwBind (n / 8) x := fun x hx => by
    show (((s.wr .ceCr n 6 _).wr .ceCr n 7 _).wr .ceCr n 8 _).rd .rwBind (n / 8) x = _
    rw [rwBind_wr_ceCr _ _ _ _ _ hx, rwBind_wr_ceCr _ _ _ _ _ hx, rwBind_wr_ceCr _ _ _ _ _ hx]
  rw [stopped_eq]
  generalize stopMark s n cause prec pc addr = u at h0 hbind0
  have hcount := countRow_pmuOnly u hk 0 3 (some n)
  have hcountc := countRow_checkerOnly hk u 0 3 (some n)
  generalize countRow u (n / 8) 0 3 (some n) = v at hcount hcountc
  have hrec := record_rest v 0x0202 (n / 8) (wd n) (wd cause) (wd (pc % 0x4000)) addr
  have hrecc := record_checkerOnly v 0x0202 (n / 8) (wd n) (wd cause) (wd (pc % 0x4000)) addr
  generalize v.record 0x0202 (n / 8) (wd n) (wd cause) (wd (pc % 0x4000)) addr = w at hrec hrecc
  have hw : CheckerOnly u w := hcountc.trans hrecc
  have hslot : slotOf w n = slotOf s n := slotOf_congr fun x hx => (hw.regs .rwBind (n / 8) x (by decide) hk hx).trans (hbind0 x hx)
  have hfault : CheckerOnly u (checkerFault w n) := hw.trans (checkerFault_checkerOnly w hn)
  have hend : EngineKept n u (restart (checkerFault w n) n) := by
    refine (hfault.engineKept hn).trans (restart_engineKept _ hn ?_)
    rw [hfault.core, h0.core]
    exact fun e => CoreMode.noConfusion e
  refine ⟨hend.core.trans h0.core, ?_, ?_, ?_, fun j hj => ?_, fun hno => ?_⟩
  · rw [hend.cr 6 (by decide), h0.cause]
  · rw [hend.cr 7 (by decide), h0.pc]
  · rw [hend.cr 8 (by decide), h0.addr]
  · rw [hend.cr j (by omega), h0.cr j hj]
  · have hid : checkerFault w n = w := by
      unfold checkerFault
      rw [hslot, hno]
    rw [hid, restart_none (hslot.trans hno)]
    exact ((congrArg State.mem hrec :).trans hcount.mem).trans (h0.mem hno)

end Sys2Proof.Pipeline
end

section
namespace Sys2Proof.Pipeline
open Sys2Proof Sys2Proof.Machine Sys2Proof.Safety Sys2Proof.Laws
open Sys2Proof.Proofs hiding stepped zeroWord

/-! ### Engine traps and stops (R144, R151–R153, R157) -/

theorem flushInfl_eq (k : CoreS) : flushInfl k = { written k k.infl with infl := [] } := rfl

theorem written_nil (k : CoreS) : written k [] = k := rfl

theorem flushInfl_nil {k : CoreS} (h : k.infl = []) : flushInfl k = k := by
  rw [flushInfl_eq, h, written_nil, ← h]

/-- The results in flight are written, and nothing else of the core changes. -/
theorem flushInfl_rest (k : CoreS) : { flushInfl k with base := k.base, infl := k.infl } = k := by
  have h := congrArg (fun c : CoreS => { c with infl := k.infl }) (written_rest k k.infl)
  exact h

/-- The engine as a precise fault finds it: nothing in flight, its side units idle. -/
def drained (k : CoreS) : CoreS := { flushInfl { k with sb := [] } with divU := none, corU := none }

/-- The AEX bits of an arithmetic trap. -/
def trapAex (s : State) (n aex : Nat) : State := if aex = 0 then s else s.wr .ceCr n 1 (s.rd .ceCr n 1 ||| wd aex)

theorem core_trapAex (s : State) (n aex m : Nat) : (trapAex s n aex).core m = s.core m := by
  unfold trapAex
  split <;> rfl

theorem rd_trapAex (s : State) (n aex : Nat) : (trapAex s n aex).rd .ceCr n 1 = s.rd .ceCr n 1 ||| wd aex := by
  unfold trapAex
  split
  next h => rw [h]; exact (BitVec.or_zero).symm
  · exact rd_wr_same ..

/-- The end of one side unit's operation, where one is under way. -/
def unitEnd (o : Option SideOp) (s : State) (n : Nat) : State := match o with | some o => sideDone s n o | none => s

theorem unitEnd_none {o : Option SideOp} (h : o = none) (s : State) (n : Nat) : unitEnd o s n = s := by
  rw [h, unitEnd]

theorem faultStop_eq (s : State) (n cause : Nat) (addr : Word) (aex : Nat) : faultStop s n cause addr aex =
    (let u := drainAll (trapAex s n aex) n
     let v := u.setCore n { flushInfl (u.core n) with divU := none, corU := none }
     stopped (unitEnd (u.core n).corU (unitEnd (u.core n).divU v n) n) n cause true (s.core n).pc addr) := rfl

/-- A precise fault of an engine with an empty store buffer and idle side units (R152). -/
theorem faultStop_stops {s : State} {n : Nat} (hn : n < 512) (cause : Nat) (addr : Word) (aex : Nat) (hsb : (s.core n).sb = [])
    (hd : (s.core n).divU = none) (hu : (s.core n).corU = none) : ∃ u, u.core n = drained (s.core n) ∧
      u.rd .ceCr n 1 = s.rd .ceCr n 1 ||| wd aex ∧ Stops u (faultStop s n cause addr aex) n cause true (s.core n).pc addr := by
  have hcore := core_trapAex s n aex n
  have hrd := rd_trapAex s n aex
  rw [faultStop_eq]
  generalize trapAex s n aex = v at hcore hrd
  have hdrain : drainAll v n = v.setCore n { s.core n with sb := [] } := by
    rw [drainAll, hcore, hsb]
    rfl
  dsimp only
  rw [hdrain, core_setCore_same]
  dsimp only
  rw [unitEnd_none hd, unitEnd_none hu]
  have hstop := stopped_stops ((v.setCore n { s.core n with sb := [] }).setCore n (drained (s.core n))) hn cause true (s.core n).pc addr
  exact ⟨(v.setCore n { s.core n with sb := [] }).setCore n (drained (s.core n)), core_setCore_same ..,
    by rw [rd_setCore, rd_setCore, hrd], hstop⟩

/-- The end of the instruction of an engine that a fault has stopped. -/
structure Faulted (s t : State) (n cause aex : Nat) : Prop where
  core : t.core n = { stopCore (drained (s.core n)) with stepOne := false }
  cause : fld (t.rd .ceCr n 6) 5 0 = (1 + 2 * cause + 32) % 64
  pc : t.rd .ceCr n 7 = wd ((s.core n).pc % 0x4000)
  aex : t.rd .ceCr n 1 = s.rd .ceCr n 1 ||| wd aex

theorem Faulted.mode {s t : State} {n cause aex : Nat} (h : Faulted s t n cause aex) : (t.core n).mode = .stopped := by
  rw [h.core]
  rfl

/-- An engine's precise fault at issue, whatever the performance monitor counts behind it. -/
theorem faulted {s b : State} {n cause aex : Nat} {addr : Word} (hi : issues s n = true) (hn : n < 512) (hsb : (s.core n).sb = [])
    (hb : PmuOnly (faultStop s n cause addr aex) b) : Faulted s (endStep b n) n cause aex := by
  obtain ⟨-, -, -, hfar, hlong, -, hd, hu, -⟩ := issues_core hi
  obtain ⟨u, hcore, hrd, hstop⟩ := faultStop_stops hn cause addr aex hsb hd hu
  have hrest := flushInfl_rest { s.core n with sb := [] }
  have hcb : b.core n = stopCore (drained (s.core n)) := by rw [hb.core, hstop.core, hcore]
  have hend : (endStep b n).core n = { b.core n with stepOne := false } := by
    refine endStep_core ?_ ?_ ?_
    · rw [hcb]; rfl
    · rw [hcb]; exact (congrArg CoreS.far hrest).trans hfar
    · rw [hcb]; exact (congrArg CoreS.long hrest).trans hlong
  have hcr (j : Nat) : (endStep b n).rd .ceCr n j = (faultStop s n cause addr aex).rd .ceCr n j := by
    have hk := crKey_not_inPmu n j
    rw [crKey, crReg, crIdx, if_pos hn, if_pos hn] at hk
    exact (onlyCore_rd (endStep_onlyCore b n []) hk (by simp)).trans (hb.rd hk)
  refine ⟨by rw [hend, hcb], ?_, (hcr 7).trans hstop.pc, ?_⟩
  · rw [hcr, hstop.cause]
    rfl
  · rw [hcr, hstop.cr 1 (by decide), hrd]

theorem illegal_eq (s : State) {n : Nat} (hn : n < 512) : illegal s n = faultStop s n 1 0 0 := if_pos hn

/-- A word that is no instruction stops an engine (R157). -/
theorem illegal_faulted {s : State} {n : Nat} (hi : issues s n = true) (hn : n < 512) (hsb : (s.core n).sb = []) :
    Faulted s (endStep (noteDone s (illegal s n) n) n) n 1 0 := by
  rw [illegal_eq s hn]
  exact faulted hi hn hsb (noteDone_pmuOnly _ _ (by omega))

theorem illegalOpcode_faulted {n : Fin 512} {w : Word} {s : State} (hi : issues s n = true) (hsb : (s.core n).sb = [])
    (hw : judgeWord (.ce n) w = none) : ∃ t, exec (.illegalOpcode (.ce n) w) s = .next t ∧ Faulted s t n 1 0 := by
  refine ⟨_, ?_, illegal_faulted hi n.isLt hsb⟩
  have hhere : illegalHere s (.ce n) w = true := by
    rw [illegalHere, hw]
  show execIllegalOpcode (.ce n) w s = _
  rw [execIllegalOpcode, hhere]
  exact congrArg Host.Outcome.next (issue_plain (c := n) [] (illegal · n) hi)

/-- An instruction that may not stand in a delay slot is illegal there (R132, R157). -/
theorem issue_inSlot {s : State} {c : Nat} (rs : List Nat) (body : State → State) (h : issues s c = true)
    (hs : (s.core c).slot ≠ none) : issue s c { regs := rs, noSlot := true } body = endStep (illegal s c) c := by
  unfold issue
  rw [ready_issues h, fetch_issues h]
  have hsome : (s.core c).slot.isSome = true := Option.isSome_iff_ne_none.2 hs
  simp [hsome]

/-- The work of a reserved opcode (R151, R157). -/
def reservedWork (n : Nat) (w : Word) (s : State) : State :=
  if 512 ≤ n then raise s n 1 3 0 w
  else if !bitOf (crAct s n 3) 31 || bitOf (crAct s n 4) 31 then illegal s n
  else
    let u := markCr s n [] [4, 5]
    let u := crSet (crSet u n 4 (setBit (setFld (crAct u n 4) 13 2 ((s.core n).pc / 4)) 31 true)) n 5 w
    let v := complete u n []
    v.setCore n { v.core n with pc := 4 * fld (crAct u n 3) 13 2 }

/-- A reserved opcode of an engine that may not go to its vector is illegal (R151, R157). -/
theorem reservedOpcode_faulted {n : Fin 512} {w : Word} {s : State} (hi : issues s n = true) (hsb : (s.core n).sb = [])
    (hw : judgeWord (.ce n) w = some (.reservedOpcode (.ce n) w))
    (hv : bitOf (crAct s n 3) 31 = false ∨ bitOf (crAct s n 4) 31 = true) :
    ∃ t, exec (.reservedOpcode (.ce n) w) s = .next t ∧ Faulted s t n 1 0 := by
  have hbad : (!bitOf (crAct s n 3) 31 || bitOf (crAct s n 4) 31) = true := by
    rcases hv with h | h <;> simp [h]
  have hn : ¬ 512 ≤ n.val := by omega
  have hexec : exec (.reservedOpcode (.ce n) w) s = .next (issue s n { noSlot := true } (reservedWork n w)) := if_neg (by simp [hw])
  rw [hexec]
  by_cases hslot : (s.core n).slot = none
  · refine ⟨_, rfl, ?_⟩
    have hwork : reservedWork n w s = illegal s n := (if_neg hn).trans (if_pos hbad)
    rw [issue_noSlot [] _ hi hslot, hwork]
    exact illegal_faulted hi n.isLt hsb
  · refine ⟨_, rfl, ?_⟩
    rw [issue_inSlot [] _ hi hslot, illegal_eq s n.isLt]
    exact faulted hi n.isLt hsb (.refl _)

end Sys2Proof.Pipeline
end

section
namespace Sys2Proof.Pipeline
open Sys2Proof Sys2Proof.Machine Sys2Proof.Safety Sys2Proof.Laws
open Sys2Proof.Proofs hiding stepped zeroWord

/-! ### An instruction that goes on at an address of its own (R151) -/

/-- The instruction completes without a result, and the core goes on at `p`. -/
def goTo (u : State) (n p : Nat) : State := (complete u n []).setCore n { (complete u n []).core n with pc := p }

/-- Core `n` is one instruction further, at `p`, with its registers as they were. -/
structure Moved (s u t : State) (n p : Nat) : Prop where
  pc : (t.core n).pc = p
  mode : (t.core n).mode = (s.core n).mode
  seq : (t.core n).seq = (s.core n).seq + 1
  regs : regsSet s t n 0 (0, false)
  frame : onlyCore u t n []

theorem goTo_moved {s u : State} {n p : Nat} {us : List CrUndo} (hi : issues s n = true) (hn : n < 516)
    (hcore : u.core n = { s.core n with undo := us }) : Moved s u (endStep (noteDone s (goTo u n p) n) n) n p := by
  obtain ⟨-, -, -, hfar, hlong, -⟩ := issues_core hi
  have hdone := finished_completed (u.core n) []
  have hb : (goTo u n p).core n = { finished (u.core n) [] with pc := p } := by
    rw [goTo, core_setCore_same, complete_core]
  have hstep := hdone.step
  rw [hcore] at hstep hb
  obtain ⟨hend, hframe⟩ := ended s (b := goTo u n p) hn (by rw [hb]; exact (congrArg CoreS.held hstep :))
    (by rw [hb]; exact (congrArg CoreS.far hstep :).trans hfar) (by rw [hb]; exact (congrArg CoreS.long hstep :).trans hlong)
  rw [hb] at hend
  refine ⟨by rw [hend], ?_, ?_, ?_, ?_⟩
  · rw [hend]; exact (congrArg CoreS.mode hstep :)
  · rw [hend]; exact (congrArg CoreS.seq hstep :)
  · refine regsSet_nil (k := u.core n) (fun r => ?_) (by rw [hcore]; exact ⟨rfl, rfl, rfl⟩)
    rw [reg, hend, ← hdone.regs, hcore]
    exact seen_congr rfl rfl rfl r
  · exact onlyCore_trans (onlyCore_trans (complete_onlyCore u n [] []) (setCore_onlyCore ..)) hframe

/-- A reserved opcode goes to the emulation vector of its engine (R151). -/
theorem reservedOpcode_emulated {n : Fin 512} {w : Word} {s : State} (hi : issues s n = true) (hslot : (s.core n).slot = none)
    (hw : judgeWord (.ce n) w = some (.reservedOpcode (.ce n) w)) (hvec : bitOf (crAct s n 3) 31 = true)
    (hidle : bitOf (crAct s n 4) 31 = false) :
    ∃ t, exec (.reservedOpcode (.ce n) w) s = .next t ∧ (t.core n).pc = 4 * fld (crAct s n 3) 13 2 ∧
      bitOf (crAct t n 4) 31 = true ∧ fld (crAct t n 4) 13 2 = (s.core n).pc / 4 % 2 ^ 12 ∧ crAct t n 5 = w ∧
      (t.core n).mode = .active ∧ regsSet s t n 0 (0, false) ∧ onlyCore s t n [crKey n 4, crKey n 5] := by
  obtain ⟨-, hmode, -⟩ := issues_core hi
  have hcr (j : Nat) : ¬ (512 ≤ n.val ∧ 24 ≤ j ∧ j < 32) := by omega
  have hn : ¬ 512 ≤ n.val := by omega
  have hexec : exec (.reservedOpcode (.ce n) w) s = .next (issue s n { noSlot := true } (reservedWork n w)) := if_neg (by simp [hw])
  rw [hexec, issue_noSlot [] _ hi hslot]
  refine ⟨_, rfl, ?_⟩
  obtain ⟨us, hus⟩ := core_markCr s n [] [4, 5]
  have hmark := markCr_onlyCore s n [] [4, 5] [crKey n 4, crKey n 5]
  have hact (j : Nat) := crAct_markCr s n n j [] [4, 5] (hcr j)
  have hwork : reservedWork n w s = goTo (crSet (crSet (markCr s n [] [4, 5]) n 4
      (setBit (setFld (crAct (markCr s n [] [4, 5]) n 4) 13 2 ((s.core n).pc / 4)) 31 true)) n 5 w) n
      (4 * fld (crAct (crSet (crSet (markCr s n [] [4, 5]) n 4
        (setBit (setFld (crAct (markCr s n [] [4, 5]) n 4) 13 2 ((s.core n).pc / 4)) 31 true)) n 5 w) n 3) 13 2) :=
    (if_neg hn).trans (if_neg (by simp [hvec, hidle]))
  rw [hwork]
  generalize markCr s n [] [4, 5] = u at hus hmark hact
  rw [crAct_crSet_ne _ _ (by decide) (hcr 3), crAct_crSet_ne _ _ (by decide) (hcr 3), hact, hact]
  have h5 : crAct (crSet (crSet u n 4 (setBit (setFld (crAct s n 4) 13 2 ((s.core n).pc / 4)) 31 true)) n 5 w) n 5 = w :=
    crAct_crSet_same _ _ (hcr 5)
  have h4 : crAct (crSet (crSet u n 4 (setBit (setFld (crAct s n 4) 13 2 ((s.core n).pc / 4)) 31 true)) n 5 w) n 4 =
      setBit (setFld (crAct s n 4) 13 2 ((s.core n).pc / 4)) 31 true := by
    rw [crAct_crSet_ne _ _ (by decide) (hcr 4), crAct_crSet_same _ _ (hcr 4)]
  have hframe : onlyCore s (crSet (crSet u n 4 (setBit (setFld (crAct s n 4) 13 2 ((s.core n).pc / 4)) 31 true)) n 5 w) n
      [crKey n 4, crKey n 5] :=
    onlyCore_trans hmark (onlyCore_trans (crSet_onlyCore _ _ _ _ (by simp)) (crSet_onlyCore _ _ _ _ (by simp)))
  have hcore : (crSet (crSet u n 4 (setBit (setFld (crAct s n 4) 13 2 ((s.core n).pc / 4)) 31 true)) n 5 w).core n =
      { s.core n with undo := us } := hus
  generalize crSet (crSet u n 4 (setBit (setFld (crAct s n 4) 13 2 ((s.core n).pc / 4)) 31 true)) n 5 w = v at h4 h5 hframe hcore
  have h := goTo_moved (p := 4 * fld (crAct s n 3) 13 2) hi (show n.val < 516 by omega) hcore
  have hkeep (j : Nat) := onlyCore_crAct h.frame (hcr j) (List.not_mem_nil (a := crKey n j))
  refine ⟨h.pc, ?_, ?_, (hkeep 5).trans h5, h.mode.trans hmode, h.regs, onlyCore_trans hframe (onlyCore_mono h.frame (by simp))⟩
  · rw [hkeep, h4, bitOf_setBit _ _ _ _ (by decide), if_pos rfl]
  · rw [hkeep, h4, fld_setBit_ne _ _ _ _ _ (by decide) (by decide), fld_setFld_same _ _ _ _ (by decide)]

/-! ### Imprecise faults (R153) -/

/-- Cores, memory and the bindings of engine `n`'s row are as they were. -/
structure BindingKept (n : Nat) (s t : State) : Prop where
  cores : t.cores = s.cores
  mem : t.mem = s.mem
  bind : ∀ x < 4, t.rd .rwBind (n / 8) x = s.rd .rwBind (n / 8) x

theorem BindingKept.refl (n : Nat) (s : State) : BindingKept n s s := ⟨rfl, rfl, fun _ _ => rfl⟩

theorem BindingKept.trans {n : Nat} {s t u : State} (h : BindingKept n s t) (g : BindingKept n t u) : BindingKept n s u :=
  ⟨g.cores.trans h.cores, g.mem.trans h.mem, fun x hx => (g.bind x hx).trans (h.bind x hx)⟩

theorem BindingKept.foldl {α : Type} {n : Nat} {f : State → α → State} (h : ∀ t x, BindingKept n t (f t x)) (l : List α) (s : State) :
    BindingKept n s (l.foldl f s) := by
  induction l generalizing s with
  | nil => exact .refl ..
  | cons x l ih => exact (h s x).trans (ih _)

theorem undoCr_bindingKept (s : State) (n : Nat) (u : CrUndo) : BindingKept n s (undoCr s n u) := by
  have hpend : BindingKept n s (u.pend.foldl (fun s e => { s with crPend := tput (fun _ => none) s.crPend (64 * n + e.1) e.2 }) s) :=
    .foldl (f := fun s e => { s with crPend := tput (fun _ => none) s.crPend (64 * n + e.1) e.2 })
      (fun _ _ => ⟨rfl, rfl, fun _ _ => rfl⟩) u.pend s
  refine hpend.trans (.foldl (f := fun s e => s.wr .ceCr n e.1 e.2) (fun t e => ⟨rfl, rfl, fun x hx => ?_⟩) u.act _)
  exact rwBind_wr_ceCr t n e.1 x e.2 hx

/-- The core of an engine whose instructions from number `cut` on are abandoned. -/
def abandoned (k : CoreS) (cut : Nat) : CoreS :=
  { k with
    infl := k.infl.filter (fun p => decide (p.idx < cut)), divU := none, corU := none, far := none,
    sb := k.sb.filter (fun e => decide (e.idx < cut)) }

/-- The pc that an imprecise fault records. -/
def abandonPc (c : CoreS) : Nat :=
  let cut := c.seq - inPipe c
  let side := (c.divU.toList ++ c.corU.toList).foldl (fun (b : Option SideOp) o =>
    match b with | none => some o | some p => if o.idx < p.idx then some o else some p) none
  let first := ((c.pcs.take (inPipe c)).getLast?).getD c.pc
  match side with
  | some o => if o.idx < cut then o.pc else first
  | none => first

/-- The control registers that the abandoned instructions changed, restored. -/
def abandonCr (s : State) (n : Nat) : State :=
  let c := s.core n
  let cut := c.seq - inPipe c
  dropTags ((c.undo.filter (fun u => decide (cut ≤ u.idx))).foldl (undoCr · n ·) (s.setCore n (flushInfl (abandoned c cut)))) n cut

theorem abandon_eq {s : State} {n : Nat} (cause : Nat) (hn : n < 512) (hm : (s.core n).mode = .active) (hd : s.dark = false) :
    abandon s n cause = stopped (abandonCr s n) n cause false (abandonPc (s.core n)) 0 :=
  if_neg (by simp only [hm, hd, ne_eq, not_true_eq_false, false_or, Bool.false_eq_true, or_false]; omega)

/-- An imprecise fault stops its engine (R153). -/
theorem abandon_stops {s : State} {n : Nat} (cause : Nat) (hn : n < 512) (hm : (s.core n).mode = .active) (hd : s.dark = false) :
    ∃ u, BindingKept n (s.setCore n (flushInfl (abandoned (s.core n) ((s.core n).seq - inPipe (s.core n))))) u ∧
      Stops u (abandon s n cause) n cause false (abandonPc (s.core n)) 0 := by
  rw [abandon_eq cause hn hm hd]
  refine ⟨abandonCr s n, ?_, stopped_stops _ hn ..⟩
  unfold abandonCr
  dsimp only
  have hundo (l : List CrUndo) (t : State) : BindingKept n t (l.foldl (undoCr · n ·) t) :=
    .foldl (fun t u => undoCr_bindingKept t n u) l t
  refine (hundo ((s.core n).undo.filter (fun u => decide ((s.core n).seq - inPipe (s.core n) ≤ u.idx))) _).trans ?_
  have h (t : State) (cut : Nat) : PmuOnly t (dropTags t n cut) := dropTags_pmuOnly t n cut
  exact ⟨(h ..).cores, (h ..).mem, fun x hx => (h ..).rd (addr_not_inPmu (by decide) (by decide) (by decide) (show n / 8 < 64 by omega) hx)⟩

/-- What the abandoned instructions of an engine leave in its register file (R153, log entry 38). -/
theorem abandoned_base (k : CoreS) (cut : Nat) {r : Nat} (hr : r ≠ 0) :
    tget (fun _ => (0, false)) (flushInfl (abandoned k cut)).base r =
      match k.infl.find? (fun p => p.reg == r && decide (p.idx < cut)) with
      | some p => (p.val, p.poison)
      | none => tget (fun _ => (0, false)) k.base r := by
  refine (written_base (abandoned k cut) _ hr).trans ?_
  have hfind : (abandoned k cut).infl.find? (fun p => p.reg == r) = k.infl.find? (fun p => p.reg == r && decide (p.idx < cut)) :=
    List.find?_filter.trans (List.find?_congr fun p _ => Bool.eq_iff_iff.2 (by simp [and_comm]))
  rw [hfind]
  rfl

theorem imprecise_stops {s : State} {n : Nat} (cause : Nat) (hc : cause = 6 ∨ cause = 7) (hn : n < 512)
    (hm : (s.core n).mode = .active) (hh : (s.core n).halted = false) (hd : s.dark = false) :
    let k := s.core n
    let cut := k.seq - (if k.far.isSome || k.atM then 0 else 3 - k.waited)
    let t := abandon s n cause
    (t.core n).mode = .stopped ∧ fld (t.rd .ceCr n 6) 5 0 = 1 + 2 * cause ∧ t.rd .ceCr n 8 = 0 ∧
      (t.core n).divU = none ∧ (t.core n).corU = none ∧ (t.core n).far = none ∧
      (slotOf s n = none → t.mem = s.mem ∧ (t.core n).sb = k.sb.filter (fun e => decide (e.idx < cut))) ∧
      ∀ r, r ≠ 0 → (t.core n).infl = [] ∧ tget (fun _ => (0, false)) (t.core n).base r =
        (match k.infl.find? (fun p => p.reg == r && decide (p.idx < cut)) with
          | some p => (p.val, p.poison)
          | none => tget (fun _ => (0, false)) k.base r) := by
  intro k cut t
  have hcut : (s.core n).seq - inPipe (s.core n) = cut := by
    unfold inPipe
    rw [hh]
    simp [cut, k]
  obtain ⟨u, hkept, hstop⟩ := abandon_stops cause hn hm hd
  rw [hcut] at hkept
  have hcore : t.core n = stopCore (flushInfl (abandoned k cut)) := by
    rw [hstop.core, State.core, hkept.cores]
    exact congrArg stopCore (core_setCore_same ..)
  have hrest := flushInfl_rest (abandoned k cut)
  have hslot : slotOf u n = slotOf s n := slotOf_congr fun x hx => hkept.bind x hx
  refine ⟨by rw [hcore]; rfl, ?_, hstop.addr, ?_, ?_, ?_, fun hno => ⟨(hstop.mem (hslot.trans hno)).trans hkept.mem, ?_⟩, fun r hr => ⟨?_, ?_⟩⟩
  · rw [hstop.cause]
    rcases hc with rfl | rfl <;> rfl
  · rw [hcore]; exact (congrArg CoreS.divU hrest :)
  · rw [hcore]; exact (congrArg CoreS.corU hrest :)
  · rw [hcore]; exact (congrArg CoreS.far hrest :)
  · rw [hcore]; exact (congrArg CoreS.sb hrest :)
  · rw [hcore]; rfl
  · rw [hcore]; exact abandoned_base k cut hr

/-- A stopped engine takes no imprecise fault, and in Hold and in a reset none does (R153, R307). -/
theorem abandon_none {s : State} {n : Nat} (cause : Nat) (h : (s.core n).mode ≠ .active ∨ s.dark = true) : abandon s n cause = s :=
  if_pos (by rcases h with h | h <;> simp [h])

/-! ### The clear of STOP (R144) -/

/-- The word that a write of 1 leaves in CE_FSTAT. -/
theorem applyWrite_fstat (w : Word) : applyWrite (ceCrInfo 6) false w 1 = w &&& ~~~1 := by
  show ((w &&& ~~~(0 ||| 0)) ||| (1 &&& (0 ||| 0))) &&& ~~~(1 &&& 1) ||| (1 &&& 0) = w &&& ~~~1
  rw [show (~~~(0 ||| 0) : Word) = BitVec.allOnes 32 from rfl, BitVec.and_allOnes, show (1 &&& (0 ||| 0) : Word) = 0 from rfl,
    show (~~~(1 &&& 1) : Word) = ~~~1 from rfl, show (1 &&& 0 : Word) = 0#32 from rfl, show (0 : Word) = 0#32 from rfl, BitVec.or_zero, BitVec.or_zero]

theorem stopClear_idle {s : State} {n : Nat} (hu : up s = true) (hm : (s.core n).mode = .stopped) :
    wrCeCr s n 6 1 = (s.wr .ceCr n 6 (s.rd .ceCr n 6 &&& ~~~1)).setCore n { s.core n with mode := .idle } := by
  have hquiet : ceQuiet s n = true := by
    rw [ceQuiet, hm]
    rfl
  unfold wrCeCr
  rw [up_gate hu, hquiet]
  have hw : s.wrCodes .ceCr n 6 1 = s.wr .ceCr n 6 (s.rd .ceCr n 6 &&& ~~~1) := congrArg (s.wr .ceCr n 6) (applyWrite_fstat _)
  rw [hw]
  exact (if_neg (by decide)).trans (if_pos ⟨rfl, by decide, hm⟩)

theorem stopClear_completes {s : State} {n : Fin 512} (hu : up s = true) (hm : (s.core n).mode = .stopped) :
    ∃ t, exec (.ceStopClear n) s = .next t ∧ (t.core n).mode = .idle ∧ t.bit .ceCr n 6 0 = false ∧
      t.rdF .ceCr n 6 31 1 = s.rdF .ceCr n 6 31 1 ∧ onlyCore s t n [crKey n 6] := by
  refine ⟨(s.wr .ceCr n 6 (s.rd .ceCr n 6 &&& ~~~1)).setCore n { s.core n with mode := .idle },
    congrArg Host.Outcome.next (stopClear_idle hu hm), ?_, ?_, ?_, ?_⟩
  · rw [core_setCore_same]
  · rw [State.bit, rd_setCore, rd_wr_same]
    simp [bitOf_eq_getLsbD]
  · rw [State.rdF, rd_setCore, rd_wr_same, State.rdF]
    refine fld_congr fun b h1 h2 => ?_
    rw [bitOf_eq_getLsbD, bitOf_eq_getLsbD, BitVec.getLsbD_and, BitVec.getLsbD_not, show (1 : Word) = BitVec.ofNat 32 1 from rfl,
      BitVec.getLsbD_ofNat, Nat.testBit_eq_false_of_lt (show 1 < 2 ^ b from Nat.one_lt_two_pow (by omega))]
    simp [show b < 32 by omega]
  · refine onlyCore_trans (t := s.wr .ceCr n 6 (s.rd .ceCr n 6 &&& ~~~1)) ?_ (setCore_onlyCore ..)
    have h := crSet_onlyCore s n 6 (s.rd .ceCr n 6 &&& ~~~1) (xs := [crKey n 6]) (by simp)
    rwa [crSet, crReg, crIdx, if_pos n.isLt, if_pos n.isLt] at h

/-- Settles O32: a precise fault of an engine is FAULT_STOP with nothing to drain; an imprecise one abandons what is not yet past W. -/
theorem engineTrapsAndStops : Obligations.engine_traps_and_stops := by
  unfold Obligations.engine_traps_and_stops
  refine ⟨fun n w s hi hsb => ⟨fun hslot hw hvec hidle => reservedOpcode_emulated hi hslot hw hvec hidle, fun hw => ?_, fun hw hv => ?_⟩,
    fun n s => ⟨fun hm hh hd x hx => ?_, fun x hx h => ?_, fun hh hs => ?_, fun hu hm => stopClear_completes hu hm⟩⟩
  · obtain ⟨t, ht, hf⟩ := illegalOpcode_faulted hi hsb hw
    exact ⟨t, ht, hf.mode, hf.cause, hf.pc⟩
  · obtain ⟨t, ht, hf⟩ := reservedOpcode_faulted hi hsb hw hv
    exact ⟨t, ht, hf.mode, hf.cause, hf.pc⟩
  · simp only [List.mem_cons, List.not_mem_nil, or_false] at hx
    rcases hx with rfl | rfl
    · refine ⟨abandon s n 6, congrArg Host.Outcome.next (if_neg (by simp [hh])), imprecise_stops 6 (.inl rfl) n.isLt hm hh hd⟩
    · refine ⟨abandon s n 7, congrArg Host.Outcome.next (if_neg (by simp [hh])), imprecise_stops 7 (.inr rfl) n.isLt hm hh hd⟩
  · simp only [List.mem_cons, List.not_mem_nil, or_false] at hx
    rcases hx with rfl | rfl
    · exact congrArg Host.Outcome.next ((congrArg (fun u => ite _ s u) (abandon_none 6 h)).trans (ite_self s))
    · exact congrArg Host.Outcome.next ((congrArg (fun u => ite _ s u) (abandon_none 7 h)).trans (ite_self s))
  · exact congrArg Host.Outcome.next (if_pos (by simp [hh, hs]))

end Sys2Proof.Pipeline
end

section
namespace Sys2Proof.Pipeline
open Sys2Proof Sys2Proof.Machine Sys2Proof.Safety Sys2Proof.Laws
open Sys2Proof.Proofs hiding stepped zeroWord

/-! ### The class of bytes put into memory (R235, R237) -/

theorem classAt_congr {s t : State} {a : Nat} (hv : t.vldAt a = s.vldAt a) (hd : t.dataAt a = s.dataAt a) (hc : t.devAt a = s.devAt a) :
    t.classAt a = s.classAt a := by
  rw [State.classAt, State.classAt, hv, hd, hc]

/-- A byte stored without poison in an open word is clean. -/
theorem classAt_storeByte (s : State) (a b : Nat) {x : Byte × Bool} (hv : majority (s.vldAt a) = true) (hx : x.2 = false) :
    (s.storeByte a x).classAt b = if b = a then .clean else s.classAt b := by
  by_cases h : b = a
  · subst h
    have hvld : (s.storeByte b x).vldAt b = s.vldAt b := rfl
    rw [if_pos rfl, State.classAt, hvld, if_pos hv, State.storeByte, dataAt_putByte, if_pos rfl, devAt_putByte, if_pos rfl, hx]
    rfl
  · rw [if_neg h]
    exact classAt_congr rfl (by rw [State.storeByte, dataAt_putByte, if_neg h]) (by rw [State.storeByte, devAt_putByte, if_neg h])

/-- As `classAt_storeByte`, of the other bytes, poison or not. -/
theorem classAt_storeByte_ne (s : State) {a b : Nat} (x : Byte × Bool) (h : b ≠ a) : (s.storeByte a x).classAt b = s.classAt b :=
  classAt_congr rfl (by rw [State.storeByte, dataAt_putByte, if_neg h]) (by rw [State.storeByte, devAt_putByte, if_neg h])

theorem storeBytes_class (a : Nat) (bs : List (Byte × Bool)) (k : Nat) (s : State)
    (hv : ∀ i < bs.length, majority (s.vldAt (a + (k + i))) = true) :
    let t := (bs.zipIdx k).foldl (fun s p => s.storeByte (a + p.2) p.1) s
    (∀ i (hi : i < bs.length), bs[i].2 = false → t.classAt (a + (k + i)) = .clean) ∧
      ∀ b, b < a + k ∨ a + k + bs.length ≤ b → t.classAt b = s.classAt b := by
  induction bs generalizing k s with
  | nil => exact ⟨fun i hi => absurd hi (Nat.not_lt_zero i), fun _ _ => rfl⟩
  | cons x bs ih =>
    obtain ⟨hdone, hkept⟩ := ih (k + 1) (s.storeByte (a + k) x) (fun i hi => by
      have h := hv (i + 1) (by simpa using hi)
      rw [show k + (i + 1) = k + 1 + i by omega] at h
      exact h)
    dsimp only
    rw [List.zipIdx_cons, List.foldl_cons]
    refine ⟨fun i hi hclean => ?_, fun b hb => ?_⟩
    · cases i with
      | zero =>
        exact (hkept _ (by omega)).trans ((classAt_storeByte s (a + k) _ (hv 0 (by simp)) hclean).trans (if_pos (by omega)))
      | succ i =>
        rw [show k + (i + 1) = k + 1 + i by omega]
        exact hdone i (by simpa using hi) hclean
    · rw [List.length_cons] at hb
      rw [hkept b (by omega), classAt_storeByte_ne _ _ (by omega)]

/-- A word that opens leaves the class of every byte of another word. -/
theorem openWord_class (s : State) {a b : Nat} (h : b / 8 ≠ a / 8) : (s.openWord a).classAt b = s.classAt b := by
  cases hm : majority (s.vldAt a) with
  | true =>
    have hgo : s.openWord a = s := if_pos hm
    rw [hgo]
  | false =>
    have hgo : s.openWord a = { Proofs.zeroWord s a with vld := tput (fun _ => 0) (Proofs.zeroWord s a).vld (a / 8) 7 } :=
      if_neg (by simp [hm])
    obtain ⟨⟨hvld, -, -⟩, -, hother⟩ := zeroWord_at s a b
    obtain ⟨hd, hc⟩ := hother h
    rw [hgo]
    generalize Proofs.zeroWord s a = z at hvld hd hc
    refine classAt_congr ?_ hd hc
    show tget (fun _ => 0) (tput (fun _ => 0) z.vld (a / 8) 7) (b / 8) = _
    rw [tget_tput, if_neg h, hvld, State.vldAt]

/-! ### A frame in supervisor SRAM (R206) -/

/-- The address lies in supervisor SRAM. -/
def inSram (a : Nat) : Prop := 0x20000000 ≤ a ∧ a < 0x20400000

theorem sram_mem {s : State} (hq : sramQuiet s = true) {a : Nat} (ha : inSram a) :
    ∃ m, memOf a = some m ∧ 1088 ≤ m ∧ memQuiet s m := by
  obtain ⟨h1, h2⟩ := ha
  have hm : memOf a = some (1088 + (a - 0x20000000) / 0x100000) := by
    rw [memOf, if_neg (by omega), if_neg (by omega), if_pos ⟨h1, h2⟩]
  exact ⟨_, hm, by omega, sramQuiet_bank hq (by omega) (by omega)⟩

theorem sram_clring {s : State} (hq : sramQuiet s = true) {a : Nat} (ha : inSram a) : clring s a = false := by
  obtain ⟨m, hm, -, hclr, -⟩ := sram_mem hq ha
  rw [clring_eq hm, hclr]

/-- One word of SRAM with new bytes. -/
theorem sram_written {s : State} (hq : sramQuiet s = true) (who : Nat) {a : Nat} {bs : List (Byte × Bool)} (ha : inSram a)
    (hal : a % 8 = 0) (hlen : bs.length = 8) :
    Stored s (writeMem s who a bs) a bs ∧
      (∀ i (hi : i < bs.length), bs[i].2 = false → (writeMem s who a bs).classAt (a + i) = .clean) ∧
      ∀ b, b < a ∨ a + 8 ≤ b → (writeMem s who a bs).classAt b = s.classAt b := by
  obtain ⟨m, hm, hge, hquiet⟩ := sram_mem hq ha
  have hcount : countRowMem s m who = s := if_neg (by omega)
  have hgo : writeMem s who a bs = putWord s who a bs := by
    refine (if_pos (by omega)).trans ?_
    rw [writeWord, hm]
    exact congrArg (putWord · who a bs) hcount
  have hput : putWord s who a bs = (bs.zipIdx 0).foldl (fun s p => s.storeByte (a + p.2) p.1) (s.openWord a) :=
    putWord_quiet who hm hquiet (by omega)
  obtain ⟨-, hopen, -⟩ := openWord_reads s a
  obtain ⟨hdone, hkept⟩ := storeBytes_class a bs 0 (s.openWord a) (fun i hi => hopen _ (by omega))
  rw [hgo]
  refine ⟨putWord_stored who hm hquiet (by omega), fun i hi hx => ?_, fun b hb => ?_⟩
  · rw [hput]
    have h := hdone i hi hx
    rwa [Nat.zero_add] at h
  · rw [hput, hkept b (by omega), openWord_class s (by omega)]

/-- Byte `x` of a frame of the words `ws`. -/
def frameByte (ws : List Tagged) (x : Nat) : Byte × Bool :=
  let w := ws.getD (x / 4) (0, false)
  (wordBytes w.1 w.2).getD (x % 4) (0, false)

/-- Two words of a frame, as they are written. -/
def framePair (ws : List Tagged) (i : Nat) : List (Byte × Bool) :=
  let a := ws.getD (2 * i) (0, false)
  let b := ws.getD (2 * i + 1) (0, false)
  wordBytes a.1 a.2 ++ wordBytes b.1 b.2

theorem wordBytes_length (w : Word) (p : Bool) : (wordBytes w p).length = 4 := rfl

theorem framePair_length (ws : List Tagged) (i : Nat) : (framePair ws i).length = 8 := rfl

theorem framePair_get (ws : List Tagged) (i : Nat) {j : Nat} (hj : j < (framePair ws i).length) :
    (framePair ws i)[j] = frameByte ws (8 * i + j) := by
  have hj' : j < 8 := hj
  unfold frameByte
  dsimp only
  by_cases h : j < 4
  · rw [show (8 * i + j) / 4 = 2 * i by omega, show (8 * i + j) % 4 = j by omega]
    have h4 : j < (wordBytes (ws.getD (2 * i) (0, false)).1 (ws.getD (2 * i) (0, false)).2).length := h
    rw [List.getD_eq_getElem _ _ h4]
    exact List.getElem_append_left h4
  · rw [show (8 * i + j) / 4 = 2 * i + 1 by omega, show (8 * i + j) % 4 = j - 4 by omega]
    have h4 : j - 4 < (wordBytes (ws.getD (2 * i + 1) (0, false)).1 (ws.getD (2 * i + 1) (0, false)).2).length := by
      rw [wordBytes_length]; omega
    rw [List.getD_eq_getElem _ _ h4]
    exact List.getElem_append_right (by rw [wordBytes_length]; omega)

/-- The first `n` bytes of a frame stand at `sp`, and nothing else of the state differs. -/
structure Framed (s t : State) (sp n : Nat) (ws : List Tagged) : Prop where
  only : MemOnly s t
  at_ : ∀ x < n, t.byteAt (sp + x) = frameByte ws x
  clean : ∀ x < n, (frameByte ws x).2 = false → t.classAt (sp + x) = .clean
  else_ : ∀ b, b < sp ∨ sp + n ≤ b → t.byteAt b = s.byteAt b

/-- The first `k` pairs of a frame are written. -/
theorem framed {s : State} (hq : sramQuiet s = true) (c : Nat) {sp : Nat} (ws : List Tagged) (hal : sp % 8 = 0) (hlo : 0x20000000 ≤ sp)
    (k : Nat) (hhi : sp + 8 * k ≤ 0x20400000) :
    Framed s ((List.range k).foldl (fun s i => writeMem s c (sp + 8 * i) (framePair ws i)) s) sp (8 * k) ws := by
  induction k with
  | zero => exact ⟨.refl s, fun x hx => absurd hx (by omega), fun x hx => absurd hx (by omega), fun _ _ => rfl⟩
  | succ k ih =>
    have h := ih (by omega)
    rw [List.range_succ, List.foldl_append]
    generalize (List.range k).foldl (fun s i => writeMem s c (sp + 8 * i) (framePair ws i)) s = u at h ⊢
    rw [List.foldl_cons, List.foldl_nil]
    have hqu : sramQuiet u = true := sramQuiet_congr h.only.regs hq
    obtain ⟨hst, hclean, hclass⟩ := sram_written hqu c (a := sp + 8 * k) (bs := framePair ws k) ⟨by omega, by omega⟩ (by omega)
      (framePair_length ..)
    have hlen := framePair_length ws k
    refine ⟨h.only.trans hst.only, fun x hx => ?_, fun x hx hp => ?_, fun b hb => ?_⟩
    · by_cases hk : x < 8 * k
      · rw [hst.else_ _ (by omega), h.at_ x hk]
      · have hj : x - 8 * k < (framePair ws k).length := by omega
        have e := hst.at_ (x - 8 * k) hj
        rw [framePair_get, show sp + 8 * k + (x - 8 * k) = sp + x by omega, show 8 * k + (x - 8 * k) = x by omega] at e
        exact e
    · by_cases hk : x < 8 * k
      · rw [hclass _ (by omega), h.clean x hk hp]
      · have hj : x - 8 * k < (framePair ws k).length := by omega
        have e := hclean (x - 8 * k) hj (by rw [framePair_get, show 8 * k + (x - 8 * k) = x by omega, hp])
        rwa [show sp + 8 * k + (x - 8 * k) = sp + x by omega] at e
    · rw [hst.else_ b (by omega), h.else_ b (by omega)]

/-- The frame of an entry. -/
theorem writeFrame_framed {s : State} (hq : sramQuiet s = true) (c : Nat) {sp : Nat} (ws : List Tagged) (hal : sp % 8 = 0)
    (hlo : 0x20000000 ≤ sp) (hhi : sp + 64 ≤ 0x20400000) : Framed s (writeFrame s c sp ws) sp 64 ws :=
  framed hq c ws hal hlo 8 hhi

/-- A word of tagged bytes reads as it was written. -/
theorem loadValue_tagged (w : Word) (p : Bool) : loadValue (wordBytes w p) false = (w, p) := by
  have h := loadValue_wordBytes w
  have hdata : (wordBytes w p).map (·.1) = (wordBytes w false).map (·.1) := rfl
  have hany : (wordBytes w p).any (·.2) = p := by
    simp [wordBytes, List.range_succ]
  unfold loadValue at h ⊢
  simp only [Bool.false_eq_true, if_false] at h ⊢
  rw [hany, hdata]
  have hfst := congrArg Prod.fst h
  exact Prod.ext hfst rfl

/-- A word of a frame. -/
theorem frame_word {t : State} {sp n : Nat} {ws : List Tagged} (h : ∀ x < n, t.byteAt (sp + x) = frameByte ws x) {i : Nat}
    (hi : 4 * i + 4 ≤ n) :
    loadValue (t.bytesAt (sp + 4 * i) 4) false = ws.getD i (0, false) := by
  have hb : t.bytesAt (sp + 4 * i) 4 = wordBytes (ws.getD i (0, false)).1 (ws.getD i (0, false)).2 := by
    have hj (j : Nat) (hj : j < 4) : t.byteAt (sp + 4 * i + j) =
        (wordBytes (ws.getD i (0, false)).1 (ws.getD i (0, false)).2).getD j (0, false) := by
      rw [show sp + 4 * i + j = sp + (4 * i + j) by omega, h _ (by omega), frameByte, show (4 * i + j) / 4 = i by omega, show (4 * i + j) % 4 = j by omega]
    have e : t.bytesAt (sp + 4 * i) 4 =
      [t.byteAt (sp + 4 * i + 0), t.byteAt (sp + 4 * i + 1), t.byteAt (sp + 4 * i + 2), t.byteAt (sp + 4 * i + 3)] := rfl
    rw [e, hj 0 (by decide), hj 1 (by decide), hj 2 (by decide), hj 3 (by decide)]
    rfl
  rw [hb, loadValue_tagged]

end Sys2Proof.Pipeline
end

section
namespace Sys2Proof.Pipeline
open Sys2Proof Sys2Proof.Machine Sys2Proof.Safety Sys2Proof.Laws
open Sys2Proof.Proofs hiding stepped zeroWord

/-! ### The state in which a supervisor enters a handler (R204, R206) -/

/-- Core `c` at rest: nothing in flight, its side units idle, its store buffer and its pending control registers empty. -/
structure AtRest (s : State) (c : Nat) : Prop where
  infl : (s.core c).infl = []
  sb : (s.core c).sb = []
  divU : (s.core c).divU = none
  corU : (s.core c).corU = none
  pend : ∀ j < 64, crPending s c j = none

theorem atRest_of {s : State} {c : Nat} (h : settled s c = true) (hd : (s.core c).divU = none) (hu : (s.core c).corU = none) :
    AtRest s c := by
  simp only [settled, Bool.and_eq_true, List.isEmpty_iff, List.all_eq_true, Option.isNone_iff_eq_none, List.mem_range] at h
  obtain ⟨⟨hi, hs⟩, hp⟩ := h
  exact ⟨hi, hs, hd, hu, hp⟩

theorem issues_atRest {s : State} {c : Nat} (hi : issues s c = true) (h : settled s c = true) : AtRest s c := by
  obtain ⟨-, -, -, -, -, -, hd, hu, -⟩ := issues_core hi
  exact atRest_of h hd hu

theorem AtRest.congr {s t : State} {c : Nat} (h : AtRest s c) (hc : t.core c = s.core c) (hp : t.crPend = s.crPend) : AtRest t c :=
  ⟨by rw [hc]; exact h.infl, by rw [hc]; exact h.sb, by rw [hc]; exact h.divU, by rw [hc]; exact h.corU,
    fun j hj => by rw [crPending, hp]; exact h.pend j hj⟩

/-- Without pending copies SYNC changes nothing (R172). -/
theorem crSync_none {s : State} {c : Nat} (h : ∀ j < 64, crPending s c j = none) : crSync s c = s :=
  forN_keeps_lt (fun t => t = s) (fun t j hj ht => by subst ht; unfold crCommit; rw [h j hj]) rfl

/-- With nothing in flight a register reads as the file has it. -/
theorem reg_baseReg {s : State} {c r : Nat} (h : (s.core c).infl = []) (hr : r ≠ 0) : reg s c r = baseReg s c r := by
  rw [reg, seen, if_neg hr, h]
  rfl

/-- The entry of a core at rest finds the core as it is. -/
theorem entryState_eq {s : State} {n : Nat} (h : AtRest s (512 + n)) :
    entryState s n = s.setCore (512 + n) (s.core (512 + n)) := by
  have hk : ({ flushInfl (s.core (512 + n)) with divU := none, corU := none } : CoreS) = s.core (512 + n) := by
    have hd := h.divU
    have hu := h.corU
    rw [flushInfl_nil h.infl]
    generalize s.core (512 + n) = k at hd hu
    cases k
    simp_all
  have hfin : finishAll s (512 + n) = s.setCore (512 + n) (s.core (512 + n)) := by
    have e : finishAll s (512 + n) = unitEnd (s.core (512 + n)).corU (unitEnd (s.core (512 + n)).divU
      (s.setCore (512 + n) { flushInfl (s.core (512 + n)) with divU := none, corU := none }) (512 + n)) (512 + n) := rfl
    rw [e, unitEnd_none h.divU, unitEnd_none h.corU, hk]
  rw [entryState, hfin]
  exact crSync_none fun j hj => h.pend j hj

theorem core_setCore_self (s : State) (c m : Nat) : (s.setCore c (s.core c)).core m = s.core m := by
  rw [core_setCore]
  split
  next h => rw [h]
  · rfl

/-- A frame that passes the check of R210 lies in supervisor SRAM. -/
theorem stackOk_sram {s : State} {n sp : Nat} (hn : n < 4) (h : stackOk s n (sp : Int) = true) :
    sp % 8 = 0 ∧ 0x20000000 ≤ sp ∧ sp + 64 ≤ 0x20400000 := by
  unfold stackOk emArea at h
  dsimp only at h
  split at h <;> simp only [Bool.and_eq_true, beq_iff_eq, decide_eq_true_eq] at h <;> omega

theorem emArea_sram {n : Nat} (hn : n < 4) : inSram (emArea n) := by
  unfold inSram emArea
  omega

/-- ST behind an entry (R206 step 5). -/
theorem bitOf_entrySt (st : Word) (code : Nat) {b : Nat} (hb : b < 32) : bitOf (entrySt st code) b =
    if b = 0 then true else if b = 1 ∨ b = 3 ∨ b = 5 then false
      else if b = 6 ∧ code = 12 ∨ b = 4 ∧ code = 11 then true else bitOf st b := by
  have hbase : bitOf (setBit (setBit (setBit (setBit st 0 true) 1 false) 3 false) 5 false) b =
      if b = 0 then true else if b = 1 ∨ b = 3 ∨ b = 5 then false else bitOf st b := by
    rw [bitOf_setBit _ _ _ _ hb, bitOf_setBit _ _ _ _ hb, bitOf_setBit _ _ _ _ hb, bitOf_setBit _ _ _ _ hb]
    grind
  unfold entrySt
  dsimp only
  generalize setBit (setBit (setBit (setBit st 0 true) 1 false) 3 false) 5 false = w at hbase
  by_cases h12 : code = 12
  · rw [if_pos h12, if_neg (by omega), bitOf_setBit _ _ _ _ hb, hbase]
    grind
  · rw [if_neg h12]
    by_cases h11 : code = 11
    · rw [if_pos h11, bitOf_setBit _ _ _ _ hb, hbase]
      grind
    · rw [if_neg h11, hbase]
      grind

/-- A supervisor's core in its handler. -/
def entryCore (k : CoreS) (pc code sp : Nat) (eaddr : Word) (poison : Bool) : CoreS :=
  { regPut k 31 (wd (sp + 64)) poison with
    pc := pc, slot := none, long := none, far := none, held := false, atM := false, skid := none, wait := 0, waited := 0,
    mode := .active, stepOne := false, nmi := if code = 12 then k.nmi - 2 ^ eaddr.toNat else k.nmi, psf := k.psf && decide (code ≠ 10) }

/-- The control registers that an entry writes. -/
def entryKeys (c : Nat) : List Nat := [crKey c 4, crKey c 5, crKey c 6, crKey c 7, crKey c 11, crKey c 2]

/-- Supervisor `n` has entered the handler of `code`: its core, its control registers, the frame at `sp`, and nothing else. -/
structure Entry (s t : State) (n code epc : Nat) (eaddr : Word) (sp : Nat) (poison : Bool) : Prop where
  coreOf : t.core (512 + n) =
    entryCore (s.core (512 + n)) (crAct s (512 + n) 3 + wd (0x40 * code)).toNat code sp eaddr poison
  epcOf : crAct t (512 + n) 4 = wd epc
  estOf : crAct t (512 + n) 5 = setBit (crAct s (512 + n) 2) 5 (s.core (512 + n)).slot.isSome
  causeOf : crAct t (512 + n) 6 = wd code
  eaddrOf : crAct t (512 + n) 7 = eaddr
  etgtOf : crAct t (512 + n) 11 = wd ((s.core (512 + n)).slot.getD 0)
  stOf : crAct t (512 + n) 2 = entrySt (crAct s (512 + n) 2) code
  at_ : ∀ x < 64, t.byteAt (sp + x) = frameByte (frameWords s n epc code eaddr) x
  clean : ∀ x < 64, (frameByte (frameWords s n epc code eaddr) x).2 = false → t.classAt (sp + x) = .clean
  else_ : ∀ b, b < sp ∨ sp + 64 ≤ b → t.byteAt b = s.byteAt b
  only : onlyCore { s with mem := t.mem, chk := t.chk, vld := t.vld } t (512 + n) (entryKeys (512 + n))

/-- The control registers of an entry, written one after another. -/
def entryCr (s : State) (c : Nat) (ws : List Tagged) (code : Nat) : State :=
  let w (j : Nat) : Word := (ws.getD j (0, false)).1
  let s := crSet (crSet (crSet s c 4 (w 0)) c 5 (w 1)) c 6 (w 2)
  let s := crSet (crSet s c 7 (w 3)) c 11 (w 4)
  crSet s c 2 (entrySt (crAct s c 2) code)

theorem entryCr_act (s : State) {c : Nat} (ws : List Tagged) (code : Nat) {j : Nat} (hj : j < 24) :
    crAct (entryCr s c ws code) c j =
      if j = 2 then entrySt (crAct s c 2) code else if j = 11 then (ws.getD 4 (0, false)).1 else if j = 7 then (ws.getD 3 (0, false)).1
      else if j = 6 then (ws.getD 2 (0, false)).1 else if j = 5 then (ws.getD 1 (0, false)).1
      else if j = 4 then (ws.getD 0 (0, false)).1 else crAct s c j := by
  have hset (u : State) (i j : Nat) (v : Word) (hj : j < 24) : crAct (crSet u c i v) c j = if j = i then v else crAct u c j := by
    by_cases h : j = i
    · subst h
      rw [if_pos rfl, crAct_crSet_same _ _ (by omega)]
    · rw [if_neg h, crAct_crSet_ne _ _ h (by omega)]
  unfold entryCr
  dsimp only
  rw [hset _ _ _ _ hj, hset _ _ _ _ hj, hset _ _ _ _ hj, hset _ _ _ _ hj, hset _ _ _ _ hj, hset _ _ _ _ hj,
    hset _ 11 2 _ (by decide), hset _ 7 2 _ (by decide), hset _ 6 2 _ (by decide), hset _ 5 2 _ (by decide), hset _ 4 2 _ (by decide)]
  rfl

theorem entryCr_onlyCore (s : State) (c : Nat) (ws : List Tagged) (code : Nat) : onlyCore s (entryCr s c ws code) c (entryKeys c) := by
  have h (u : State) {j : Nat} (v : Word) (hj : crKey c j ∈ entryKeys c) := crSet_onlyCore u c j v hj
  unfold entryCr
  dsimp only
  refine onlyCore_trans ?_ (h _ (j := 2) _ (by simp [entryKeys]))
  refine onlyCore_trans ?_ (h _ (j := 11) _ (by simp [entryKeys]))
  refine onlyCore_trans ?_ (h _ (j := 7) _ (by simp [entryKeys]))
  refine onlyCore_trans ?_ (h _ (j := 6) _ (by simp [entryKeys]))
  exact onlyCore_trans (h _ (j := 4) _ (by simp [entryKeys])) (h _ (j := 5) _ (by simp [entryKeys]))

/-- What the performance monitor counts of an entry (R361, R363). -/
def entryCount (s : State) (n code : Nat) : State :=
  let s := countSv (s.clrB .pmuSkid n 0 7) n 3 0 0
  if code = 13 then countSv s n 3 1 0 else s

theorem entryCount_pmuOnly (s : State) {n : Nat} (hn : n < 4) (code : Nat) : PmuOnly s (entryCount s n code) := by
  have h1 : PmuOnly s (s.clrB .pmuSkid n 0 7) := .wr s _ (by decide) hn (by decide)
  have h2 := h1.trans (countSv_pmuOnly (s.clrB .pmuSkid n 0 7) hn 3 0 0)
  unfold entryCount
  dsimp only
  split
  · exact h2.trans (countSv_pmuOnly _ hn 3 1 0)
  · exact h2

/-- The core of a handler in place of the interrupted one. -/
def entryPut (s : State) (c code sp : Nat) (eaddr : Word) (poison : Bool) : State :=
  s.setCore c (entryCore (s.core c) (crAct s c 3 + wd (0x40 * code)).toNat code sp eaddr poison)

theorem enterHandler_eq (s : State) (n code epc : Nat) (eaddr : Word) (sp : Nat) (poison : Bool) :
    enterHandler s n code epc eaddr sp poison =
      if coreOff (drainBuffer s (512 + n)) (512 + n) then drainBuffer s (512 + n)
      else entryCount (entryPut (entryCr (writeFrame (drainBuffer s (512 + n)) (512 + n) sp (frameWords s n epc code eaddr)) (512 + n)
        (frameWords s n epc code eaddr) code) (512 + n) code sp eaddr poison) n code := rfl

/-- The buffer of a core that has nothing in it drains to the core as it is. -/
theorem drainBuffer_nil {s : State} {c : Nat} (h : (s.core c).sb = []) : drainBuffer s c = s.setCore c (s.core c) := by
  have hk : ({ s.core c with sb := [] } : CoreS) = s.core c := by rw [← h]
  rw [drainBuffer, h]
  exact congrArg (s.setCore c) hk

theorem entryCr_core (s : State) (c : Nat) (ws : List Tagged) (code m : Nat) : (entryCr s c ws code).core m = s.core m := by
  simp only [entryCr, core_crSet]

theorem MemOnly.crAct {s t : State} (h : MemOnly s t) (c j : Nat) : crAct t c j = crAct s c j := by
  unfold Machine.crAct
  rw [h.rd, h.rd]

/-- What lies between two states that differ in memories and one core's own. -/
theorem onlyCore_of_memOnly {s u v t : State} {c : Nat} {xs : List Nat} (h1 : onlyCore s u c xs) (h2 : MemOnly u v)
    (h3 : onlyCore v t c xs) : onlyCore { s with mem := t.mem, chk := t.chk, vld := t.vld } t c xs := by
  obtain ⟨r1, c1, k1⟩ := h1
  obtain ⟨r3, c3, k3⟩ := h3
  refine ⟨?_, fun m hm => ((c3 m hm).trans (h2.core m)).trans (c1 m hm), fun x hx hn => ?_⟩
  · have e3 := congrArg (fun w : State => { w with cores := s.cores, regs := s.regs, pmu := s.pmu }) r3
    have e2 := congrArg (fun w : State => { w with cores := s.cores, regs := s.regs, pmu := s.pmu, mem := t.mem, chk := t.chk, vld := t.vld }) h2
    have e1 := congrArg (fun w : State => { w with mem := t.mem, chk := t.chk, vld := t.vld }) r1
    have e3' := congrArg (fun w : State => { w with mem := t.mem, chk := t.chk, vld := t.vld }) e3
    exact (e3'.trans e2).trans e1
  · rw [k3 x hx hn, h2.regs]
    exact k1 x hx hn

end Sys2Proof.Pipeline
end

section
namespace Sys2Proof.Pipeline
open Sys2Proof Sys2Proof.Machine Sys2Proof.Safety Sys2Proof.Laws
open Sys2Proof.Proofs hiding stepped zeroWord

/-! ### A supervisor at rest enters a handler (R204, R206) -/

/-- The words of a frame come from the core and ST alone. -/
theorem frameWords_congr {s t : State} {n : Nat} (hc : t.core (512 + n) = s.core (512 + n))
    (h2 : crAct t (512 + n) 2 = crAct s (512 + n) 2) (epc code : Nat) (eaddr : Word) :
    frameWords t n epc code eaddr = frameWords s n epc code eaddr := by
  unfold frameWords baseReg
  dsimp only
  rw [hc, h2]

/-- The control registers and the core of a handler, behind its frame. -/
theorem entry_of_framed {s u v : State} {n sp : Nat} (code epc : Nat) (eaddr : Word) (poison : Bool) (hn : n < 4)
    (hu : onlyCore s u (512 + n) (entryKeys (512 + n))) (hcore : u.core (512 + n) = s.core (512 + n))
    (hact : ∀ j < 24, crAct u (512 + n) j = crAct s (512 + n) j) (hbyte : ∀ b, u.byteAt b = s.byteAt b)
    (hv : Framed u v sp 64 (frameWords s n epc code eaddr)) :
    Entry s (entryCount (entryPut (entryCr v (512 + n) (frameWords s n epc code eaddr) code) (512 + n) code sp eaddr poison) n code)
      n code epc eaddr sp poison := by
  have hws : (frameWords s n epc code eaddr).getD 0 (0, false) = (wd epc, false) ∧
      (frameWords s n epc code eaddr).getD 1 (0, false) = (setBit (crAct s (512 + n) 2) 5 (s.core (512 + n)).slot.isSome, false) ∧
      (frameWords s n epc code eaddr).getD 2 (0, false) = (wd code, false) ∧
      (frameWords s n epc code eaddr).getD 3 (0, false) = (eaddr, false) ∧
      (frameWords s n epc code eaddr).getD 4 (0, false) = (wd ((s.core (512 + n)).slot.getD 0), false) := ⟨rfl, rfl, rfl, rfl, rfl⟩
  obtain ⟨h0, h1, h2, h3, h4⟩ := hws
  generalize hfw : frameWords s n epc code eaddr = ws at hv h0 h1 h2 h3 h4 ⊢
  have hvact (j : Nat) (hj : j < 24) : crAct v (512 + n) j = crAct s (512 + n) j := (hv.only.crAct ..).trans (hact j hj)
  have hcr (j : Nat) (hj : j < 24) := entryCr_act v (c := 512 + n) ws code hj
  have hcrOnly := entryCr_onlyCore v (512 + n) ws code
  have hcrCore : (entryCr v (512 + n) ws code).core (512 + n) = s.core (512 + n) :=
    (entryCr_core ..).trans ((hv.only.core _).trans hcore)
  generalize entryCr v (512 + n) ws code = w at hcr hcrOnly hcrCore
  have hput : (entryPut w (512 + n) code sp eaddr poison).core (512 + n) =
      entryCore (s.core (512 + n)) (crAct s (512 + n) 3 + wd (0x40 * code)).toNat code sp eaddr poison := by
    rw [entryPut, core_setCore_same, hcrCore, hcr 3 (by decide), ← hvact 3 (by decide)]
    rfl
  have hputAct (j : Nat) : crAct (entryPut w (512 + n) code sp eaddr poison) (512 + n) j = crAct w (512 + n) j := rfl
  have hputOnly : onlyCore w (entryPut w (512 + n) code sp eaddr poison) (512 + n) (entryKeys (512 + n)) := setCore_onlyCore ..
  generalize entryPut w (512 + n) code sp eaddr poison = x at hput hputAct hputOnly
  have hcount := entryCount_pmuOnly x hn code
  generalize entryCount x n code = t at hcount
  have hvt : onlyCore v t (512 + n) (entryKeys (512 + n)) := onlyCore_trans (onlyCore_trans hcrOnly hputOnly) (hcount.onlyCore ..)
  have htact (j : Nat) (hj : j < 24) : crAct t (512 + n) j = crAct w (512 + n) j := (hcount.crAct (by omega)).trans (hputAct j)
  have hvld : t.vld = v.vld := (congrArg State.vld hvt.1 :)
  have hmem : t.mem = v.mem := (congrArg State.mem hvt.1 :)
  have hchk : t.chk = v.chk := (congrArg State.chk hvt.1 :)
  have htbyte (b : Nat) : t.byteAt b = v.byteAt b :=
    byteAt_congr (by rw [State.vldAt, hvld, State.vldAt]) (by rw [State.dataAt, hmem, State.dataAt]) (by rw [State.devAt, hchk, State.devAt])
  have htclass (b : Nat) : t.classAt b = v.classAt b :=
    classAt_congr (by rw [State.vldAt, hvld, State.vldAt]) (by rw [State.dataAt, hmem, State.dataAt]) (by rw [State.devAt, hchk, State.devAt])
  refine ⟨?_, ?_, ?_, ?_, ?_, ?_, ?_, fun y hy => ?_, fun y hy hp => ?_, fun b hb => ?_, onlyCore_of_memOnly hu hv.only hvt⟩
  · rw [hcount.core, hput]
  · rw [htact 4 (by decide), hcr 4 (by decide)]; exact congrArg Prod.fst h0
  · rw [htact 5 (by decide), hcr 5 (by decide)]; exact congrArg Prod.fst h1
  · rw [htact 6 (by decide), hcr 6 (by decide)]; exact congrArg Prod.fst h2
  · rw [htact 7 (by decide), hcr 7 (by decide)]; exact congrArg Prod.fst h3
  · rw [htact 11 (by decide), hcr 11 (by decide)]; exact congrArg Prod.fst h4
  · rw [htact 2 (by decide), hcr 2 (by decide), ← hvact 2 (by decide)]; rfl
  · rw [htbyte, hfw, hv.at_ y hy]
  · rw [htclass, hv.clean y hy (hfw ▸ hp)]
  · rw [htbyte, hv.else_ b hb, hbyte]

/-- A core at rest takes an exception whose frame passes the check of R210. -/
theorem takeException_entry {s : State} {n : Nat} (code epc : Nat) (eaddr : Word) (resume : Nat) (hn : n < 4)
    (hoff : coreOff s (512 + n) = false) (hrest : AtRest s (512 + n)) (hq : sramQuiet s = true)
    (hok : stackOk s n (reg s (512 + n) 31).1.toNat = true) :
    Entry s (takeException s n code epc eaddr resume) n code epc eaddr (reg s (512 + n) 31).1.toNat (reg s (512 + n) 31).2 := by
  have hst := entryState_eq hrest
  obtain ⟨hal, hlo, hhi⟩ := stackOk_sram hn hok
  have hcore := core_setCore_self s (512 + n)
  have hsame := setCore_onlyCore s (512 + n) (s.core (512 + n)) (entryKeys (512 + n))
  have hsp : entrySp s n = reg s (512 + n) 31 := by
    rw [entrySp, hst, reg_baseReg hrest.infl (by decide), baseReg, baseReg, hcore]
  have hwaits : entryWaits s n = false := by
    rw [entryWaits, hst, hsp]
    exact Bool.or_eq_false_iff.2 ⟨sram_clring (s := s.setCore _ _) hq ⟨hlo, by omega⟩, sram_clring (s := s.setCore _ _) hq (emArea_sram hn)⟩
  have hfits : entryFits s n = true := by
    rw [entryFits, hst, hsp]
    exact hok
  have hgo : takeException s n code epc eaddr resume = enterHandler (s.setCore (512 + n) (s.core (512 + n))) n code epc eaddr
      (reg s (512 + n) 31).1.toNat (reg s (512 + n) 31).2 := by
    unfold takeException
    rw [hwaits, hfits, hsp, hst]
    rfl
  have hself := core_setCore_self (s.setCore (512 + n) (s.core (512 + n))) (512 + n)
  have hdrain := drainBuffer_nil (s := s.setCore (512 + n) (s.core (512 + n))) (c := 512 + n) (by rw [hcore]; exact hrest.sb)
  have hws := frameWords_congr (s := s) (t := s.setCore (512 + n) (s.core (512 + n))) (n := n) (hcore (512 + n)) rfl epc code eaddr
  rw [hgo, enterHandler_eq, hdrain, hws]
  have hoff' : coreOff ((s.setCore (512 + n) (s.core (512 + n))).setCore (512 + n)
      ((s.setCore (512 + n) (s.core (512 + n))).core (512 + n))) (512 + n) = false := hoff
  have hq' : sramQuiet ((s.setCore (512 + n) (s.core (512 + n))).setCore (512 + n)
      ((s.setCore (512 + n) (s.core (512 + n))).core (512 + n))) = true := hq
  have hframe := writeFrame_framed hq' (512 + n) (frameWords s n epc code eaddr) hal hlo hhi
  rw [hoff', if_neg Bool.false_ne_true]
  exact entry_of_framed code epc eaddr _ hn (onlyCore_trans hsame (setCore_onlyCore ..)) ((hself _).trans (hcore _)) (fun _ _ => rfl)
    (fun _ => rfl) hframe

/-- The bookkeeping at the end of the instruction leaves the handler entered. -/
theorem Entry.ended {s t t' : State} {n code epc sp : Nat} {eaddr : Word} {p : Bool} (h : Entry s t n code epc eaddr sp p)
    (hp : PmuOnly t t') : Entry s (endStep t' (512 + n)) n code epc eaddr sp p := by
  have hcore : (endStep t' (512 + n)).core (512 + n) = t.core (512 + n) := by
    have hc : t'.core (512 + n) = t.core (512 + n) := hp.core _
    rw [endStep_core (by rw [hc, h.coreOf]; rfl) (by rw [hc, h.coreOf]; rfl) (by rw [hc, h.coreOf]; rfl), hc, h.coreOf]
    rfl
  have hframe : onlyCore t (endStep t' (512 + n)) (512 + n) [] := onlyCore_trans (hp.onlyCore _ _) (endStep_onlyCore ..)
  generalize endStep t' (512 + n) = u at hcore hframe ⊢
  have hact (j : Nat) (hj : j < 24) : crAct u (512 + n) j = crAct t (512 + n) j := onlyCore_crAct hframe (by omega) (by simp)
  have hvld : u.vld = t.vld := (congrArg State.vld hframe.1 :)
  have hmem : u.mem = t.mem := (congrArg State.mem hframe.1 :)
  have hchk : u.chk = t.chk := (congrArg State.chk hframe.1 :)
  have hbyte (b : Nat) : u.byteAt b = t.byteAt b :=
    byteAt_congr (by rw [State.vldAt, hvld, State.vldAt]) (by rw [State.dataAt, hmem, State.dataAt]) (by rw [State.devAt, hchk, State.devAt])
  refine ⟨hcore.trans h.coreOf, (hact 4 (by decide)).trans h.epcOf, (hact 5 (by decide)).trans h.estOf, (hact 6 (by decide)).trans h.causeOf,
    (hact 7 (by decide)).trans h.eaddrOf, (hact 11 (by decide)).trans h.etgtOf, (hact 2 (by decide)).trans h.stOf,
    fun x hx => (hbyte _).trans (h.at_ x hx), fun x hx hp => (onlyCore_classAt hframe _).trans (h.clean x hx hp),
    fun b hb => (hbyte b).trans (h.else_ b hb), ?_⟩
  rw [hvld, hmem, hchk]
  exact onlyCore_trans h.only (onlyCore_mono hframe (by simp))

theorem Entry.entered {s t : State} {n code epc sp : Nat} {eaddr : Word} {p : Bool} (h : Entry s t n code epc eaddr sp p)
    (hrest : AtRest s (512 + n)) : Safety.entered s t n code epc eaddr sp := by
  have hws : frameWords s n epc code eaddr =
      [(wd epc, false), (setBit (crAct s (512 + n) 2) 5 (s.core (512 + n)).slot.isSome, false), (wd code, false), (eaddr, false),
        (wd ((s.core (512 + n)).slot.getD 0), false)] ++ (List.range 10).map (fun r => reg s (512 + n) (r + 1)) ++ [reg s (512 + n) 31] := by
    unfold frameWords
    dsimp only
    rw [← reg_baseReg hrest.infl (by decide), List.map_congr_left fun i _ => (reg_baseReg hrest.infl (Nat.succ_ne_zero i)).symm]
  have hreg (r : Nat) : reg t (512 + n) r = if r = 31 then (wd (sp + 64), p) else reg s (512 + n) r := by
    have hinfl : (t.core (512 + n)).infl = [] := by
      rw [h.coreOf]
      exact (congrArg CoreS.infl (regPut_rest (s.core (512 + n)) 31 (wd (sp + 64)) p) :).trans hrest.infl
    by_cases hr : r = 0
    · subst hr; rfl
    · rw [reg_baseReg hinfl hr, reg_baseReg hrest.infl hr, baseReg, h.coreOf]
      exact (base_regPut ..).trans (if_congr ⟨fun e => e.2, fun e => ⟨by decide, e⟩⟩ rfl rfl)
  refine ⟨by rw [h.coreOf]; rfl, by rw [h.coreOf]; rfl, by rw [h.coreOf]; rfl, h.epcOf, h.estOf, h.causeOf, h.eaddrOf, h.etgtOf,
    fun b hb => ?_, ?_, fun r hr => ?_, fun i hi => ?_, h.else_, h.only.2.1⟩
  · rw [h.stOf]
    exact bitOf_entrySt _ _ hb
  · rw [hreg, if_pos rfl]
  · rw [hreg, if_neg (by omega)]
  · rw [← hws]
    exact frame_word h.at_ (by omega)

end Sys2Proof.Pipeline
end

section
namespace Sys2Proof.Pipeline
open Sys2Proof Sys2Proof.Machine Sys2Proof.Safety Sys2Proof.Laws
open Sys2Proof.Proofs hiding stepped zeroWord

/-! ### Arithmetic traps under PRECISE (R148, R150, R203) -/

theorem aexTraps_sDiv (a b : Word) : aexTraps (sDiv a b) :=
  aexTraps_ite (by decide : (1 : Nat) < 8) (aexTraps_ite (by decide : (4 : Nat) < 8) (aexTraps_value _))

theorem aexTraps_uDiv (a b : Word) : aexTraps (uDiv a b) := aexTraps_ite (by decide : (1 : Nat) < 8) (aexTraps_value _)

theorem aexTraps_fDiv (a b : Word) : aexTraps (fDiv a b) := by
  unfold fDiv
  extract_lets x y
  refine aexTraps_ite (aexTraps_nanRes _) ?_
  clear_value x y
  split
  · exact aexTraps_invalid
  · exact aexTraps_value _
  · exact aexTraps_value _
  · exact aexTraps_ite (aexTraps_ite aexTraps_invalid (by decide : (1 : Nat) < 8)) (aexTraps_ite (aexTraps_value _) (aexTraps_value _))
  · exact aexTraps_invalid

theorem aexTraps_fSqrt (a : Word) : aexTraps (fSqrt a) := by
  unfold fSqrt
  split
  · refine aexTraps_ite (aexTraps_value _) (aexTraps_ite aexTraps_invalid ?_)
    split
    exact aexTraps_value _
  · exact aexTraps_ite aexTraps_invalid (aexTraps_value _)
  · exact aexTraps_value _
  · exact aexTraps_invalid

/-! ### What a change of a core's own registers leaves -/

theorem crKey_eq_iff {n i j : Nat} : crKey n i = crKey n j ↔ i = j := ⟨crKey_inj, congrArg _⟩

theorem coreOff_congr {s t : State} (h : t.fm = s.fm) (c : Nat) : coreOff t c = coreOff s c := by
  unfold coreOff State.dark State.inRst
  rw [h]

theorem onlyCore_byteAt {s t : State} {n : Nat} {xs : List Nat} (h : onlyCore s t n xs) (b : Nat) : t.byteAt b = s.byteAt b := by
  have hvld : t.vld = s.vld := (congrArg State.vld h.1 :)
  have hmem : t.mem = s.mem := (congrArg State.mem h.1 :)
  have hchk : t.chk = s.chk := (congrArg State.chk h.1 :)
  exact byteAt_congr (by rw [State.vldAt, hvld, State.vldAt]) (by rw [State.dataAt, hmem, State.dataAt])
    (by rw [State.devAt, hchk, State.devAt])

/-- Keys of control registers alone. -/
def controlKeys (xs : List Nat) : Prop := ∀ k ∈ xs, 0x6F000400 ≤ k

theorem controlKeys_one (n j : Nat) : controlKeys [crKey n j] := fun k hk => by
  obtain rfl : k = crKey n j := by simpa using hk
  exact crKey_ge n j

theorem onlyCore_sramQuiet {s t : State} {n : Nat} {xs : List Nat} (h : onlyCore s t n xs) (hx : controlKeys xs) :
    sramQuiet t = sramQuiet s := by
  have hrd {r : Reg} (hr : r = .memStat ∨ r = .memFlip) {m : Nat} (hm : m ∈ [1088, 1089, 1090, 1091]) : t.rd r m 0 = s.rd r m 0 := by
    have haddr : ∀ r ∈ [Reg.memStat, .memFlip], ∀ m ∈ [1088, 1089, 1090, 1091], 0x6B000000 ≤ r.addr m 0 ∧ r.addr m 0 < 0x6F000400 := by
      decide
    obtain ⟨h1, h2⟩ := haddr r (by simpa using hr) m hm
    exact onlyCore_rd h (fun hp => absurd hp.2 (by omega)) (fun hm => absurd (hx _ hm) (by omega))
  simp only [sramQuiet, State.bit, State.rdF, List.all_cons, List.all_nil, hrd (.inl rfl) (m := 1088) (by simp),
    hrd (.inl rfl) (m := 1089) (by simp), hrd (.inl rfl) (m := 1090) (by simp), hrd (.inl rfl) (m := 1091) (by simp),
    hrd (.inr rfl) (m := 1088) (by simp), hrd (.inr rfl) (m := 1089) (by simp), hrd (.inr rfl) (m := 1090) (by simp),
    hrd (.inr rfl) (m := 1091) (by simp)]

/-! ### The trap (R150, R203) -/

/-- A condition bit of R150 is among the low three. -/
theorem and_seven {aex : Nat} (h : aex < 8) (h0 : aex ≠ 0) : aex &&& 7 ≠ 0 := by
  rwa [Nat.and_two_pow_sub_one_eq_mod aex 3, Nat.mod_eq_of_lt h]

theorem and_low4 (w : Word) : w &&& 0xF = wd (fld w 3 0) := by
  refine BitVec.eq_of_toNat_eq ?_
  rw [BitVec.toNat_and, show (0xF : Word).toNat = 2 ^ 4 - 1 from rfl, Nat.and_two_pow_sub_one_eq_mod, wd, BitVec.toNat_ofNat, fld,
    Nat.shiftRight_zero]
  omega

/-- The entry of a handler shows the state before a change of AEX as it shows the one behind it. -/
theorem entered_congr {s s' t : State} {n code epc sp : Nat} {eaddr : Word} (hcore : ∀ m, s'.core m = s.core m)
    (h2 : crAct s' (512 + n) 2 = crAct s (512 + n) 2) (h3 : crAct s' (512 + n) 3 = crAct s (512 + n) 3)
    (hb : ∀ x, s'.byteAt x = s.byteAt x) (h : entered s' t n code epc eaddr sp) : entered s t n code epc eaddr sp := by
  unfold entered reg at h ⊢
  simpa only [hcore, h2, h3, hb] using h

/-- What a trap of the condition bits `aex` leaves, on an engine and on a supervisor. -/
structure Trapped (s t : State) (n rd aex : Nat) : Prop where
  engine : n < 512 → (s.core n).sb = [] → (t.core n).mode = .stopped ∧ fld (t.rd .ceCr n 6) 5 0 = 1 + 2 * 5 + 32 ∧
    t.rd .ceCr n 1 = s.rd .ceCr n 1 ||| wd aex ∧ ((s.core n).infl = [] → reg t n rd = reg s n rd)
  supervisor : 512 ≤ n → settled s n = true → sramQuiet s = true → stackOk s (n - 512) (reg s n 31).1.toNat = true →
    crAct t n 1 = crAct s n 1 ||| wd aex ∧
      entered s t (n - 512) 8 (s.core n).pc (wd (fld (crAct s n 1 ||| wd aex) 3 0)) (reg s n 31).1.toNat

theorem arithTrap_engine {s : State} {n rd aex : Nat} (hi : issues s n = true) (hn : n < 512) (hsb : (s.core n).sb = []) :
    let t := endStep (noteDone s (arithTrap s n aex) n) n
    (t.core n).mode = .stopped ∧ fld (t.rd .ceCr n 6) 5 0 = 1 + 2 * 5 + 32 ∧
      t.rd .ceCr n 1 = s.rd .ceCr n 1 ||| wd aex ∧ ((s.core n).infl = [] → reg t n rd = reg s n rd) := by
  have hgo : arithTrap s n aex = faultStop s n 5 0 aex := if_pos hn
  have h := faulted (b := noteDone s (arithTrap s n aex) n) (cause := 5) (addr := 0) (aex := aex) hi hn hsb
    (hgo ▸ noteDone_pmuOnly s (arithTrap s n aex) (by omega))
  refine ⟨h.mode, h.cause, h.aex, fun hinfl => ?_⟩
  have hflush := flushInfl_nil (k := { s.core n with sb := [] }) hinfl
  rw [reg, h.core, drained, hflush, reg]
  exact seen_congr rfl rfl rfl rd

theorem arithTrap_supervisor {s : State} {n aex : Nat} (hi : issues s (512 + n) = true) (hn : n < 4) (hset : settled s (512 + n) = true)
    (hq : sramQuiet s = true) (hok : stackOk s n (reg s (512 + n) 31).1.toNat = true) :
    let t := endStep (noteDone s (arithTrap s (512 + n) aex) (512 + n)) (512 + n)
    crAct t (512 + n) 1 = crAct s (512 + n) 1 ||| wd aex ∧
      entered s t n 8 (s.core (512 + n)).pc (wd (fld (crAct s (512 + n) 1 ||| wd aex) 3 0)) (reg s (512 + n) 31).1.toNat := by
  have hc : 512 + n < 516 := by omega
  have hgo : arithTrap s (512 + n) aex = takeException (setAex s (512 + n) aex) n 8 ((setAex s (512 + n) aex).core (512 + n)).pc
      (crAct (setAex s (512 + n) aex) (512 + n) 1 &&& 0xF) ((setAex s (512 + n) aex).core (512 + n)).pc := by
    refine (if_neg (by omega)).trans ?_
    rw [Nat.add_sub_cancel_left]
  have hcore := core_setAex s hc aex
  have hact1 := crAct_setAex s hc aex
  have honly := setAex_onlyCore s hc aex
  have hpend : (setAex s (512 + n) aex).crPend = s.crPend := (congrArg State.crPend honly.1 :)
  rw [hgo, hact1, hcore]
  generalize setAex s (512 + n) aex = u at hcore hact1 honly hpend
  have hact (j : Nat) (hj : j < 24) (h1 : j ≠ 1) : crAct u (512 + n) j = crAct s (512 + n) j :=
    onlyCore_crAct honly (by omega) (by simpa using fun e => h1 (crKey_inj e))
  have hreg : reg u (512 + n) 31 = reg s (512 + n) 31 := by rw [reg, hcore, reg]
  have hrest := (issues_atRest hi hset).congr (hcore _) hpend
  have hup : coreOff u (512 + n) = false := by
    have hfm : u.fm = s.fm := (congrArg State.fm honly.1 :)
    rw [coreOff_congr hfm]
    exact up_coreOff (issues_core hi).1 _
  have hqu : sramQuiet u = true := (onlyCore_sramQuiet honly (controlKeys_one _ _)).trans hq
  have hoku : stackOk u n (reg u (512 + n) 31).1.toNat = true := by
    rw [hreg, ← hok]
    unfold stackOk
    dsimp only
    rw [hact 2 (by decide) (by decide), hact 8 (by decide) (by decide), hact 9 (by decide) (by decide)]
  have hbyte := onlyCore_byteAt honly
  have h := (takeException_entry 8 (s.core (512 + n)).pc ((crAct s (512 + n) 1 ||| wd aex) &&& 0xF) (s.core (512 + n)).pc hn hup hrest
    hqu hoku).ended (noteDone_pmuOnly s _ hc)
  rw [← and_low4, ← hreg]
  refine ⟨?_, entered_congr hcore (hact 2 (by decide) (by decide)) (hact 3 (by decide) (by decide)) hbyte (h.entered hrest)⟩
  rw [onlyCore_crAct h.only (not_counter_one _) (by simp [entryKeys, crKey_eq_iff])]
  exact hact1

/-- A trap at issue. -/
theorem arithTrap_trapped {s : State} {n aex : Nat} (hi : issues s n = true) (hn : n < 516) (rd : Nat) :
    Trapped s (endStep (noteDone s (arithTrap s n aex) n) n) n rd aex := by
  refine ⟨fun h hsb => arithTrap_engine hi h hsb, fun h => ?_⟩
  obtain ⟨v, rfl⟩ : ∃ v, n = 512 + v := ⟨n - 512, by omega⟩
  rw [Nat.add_sub_cancel_left]
  exact fun hset hq hok => arithTrap_supervisor hi (by omega) hset hq hok

theorem deliver_trap {s : State} {n rd d : Nat} {r : Res} {p : Bool} (hp : p = false) (h8 : aexTraps r) (h0 : r.aex ≠ 0)
    (hpr : precise s n = true) : deliver s n rd d r p = arithTrap s n r.aex := by
  subst hp
  exact if_pos (by simpa [hpr] using and_seven h8 h0)

theorem toUnit_trap {s : State} {n rd : Nat} {u : SideUnit} {r : Res} {p : Bool} (hp : p = false) (h8 : aexTraps r) (h0 : r.aex ≠ 0)
    (hpr : precise s n = true) : toUnit s n rd u r p = arithTrap s n r.aex := by
  subst hp
  exact if_pos (by simpa [hpr] using and_seven h8 h0)

section
variable {c : Core} {s : State} {rd ra rb d aex : Nat}

/-- The step of an instruction that sets the bits `aex` traps with them. -/
def trapsWith (s t : State) (c : Core) (rd aex : Nat) : Prop :=
  aex ≠ 0 → ∃ u, (.next t : Host.Outcome State Fault Refusal) = .next u ∧ Trapped s u (coreNum c) rd aex

variable (h : issues s (coreNum c) = true) (hpr : precise s (coreNum c) = true)
include h hpr

theorem op1_traps {f : Word → Res} (hp : (reg s (coreNum c) ra).2 = false) (h8 : aexTraps (f (reg s (coreNum c) ra).1))
    (ha : aex ≠ 0 → (f (reg s (coreNum c) ra).1).aex = aex) : trapsWith s (op1 s (coreNum c) rd ra d f) c rd aex := by
  intro h0
  have hr := ha h0
  subst hr
  refine ⟨_, rfl, ?_⟩
  rw [op1, issue_plain _ _ h, deliver_trap hp h8 h0 hpr]
  exact arithTrap_trapped h (coreNum_lt c) rd

theorem op2_traps {f : Word → Word → Res} (hp : ((reg s (coreNum c) ra).2 || (reg s (coreNum c) rb).2) = false)
    (h8 : aexTraps (f (reg s (coreNum c) ra).1 (reg s (coreNum c) rb).1))
    (ha : (f (reg s (coreNum c) ra).1 (reg s (coreNum c) rb).1).aex = aex) : trapsWith s (op2 s (coreNum c) rd ra rb d f) c rd aex := by
  subst ha
  refine fun h0 => ⟨_, rfl, ?_⟩
  rw [op2, issue_plain _ _ h, deliver_trap hp h8 h0 hpr]
  exact arithTrap_trapped h (coreNum_lt c) rd

theorem op3_traps {f : Word → Word → Word → Res}
    (hp : ((reg s (coreNum c) ra).2 || (reg s (coreNum c) rb).2 || (reg s (coreNum c) rd).2) = false)
    (h8 : aexTraps (f (reg s (coreNum c) ra).1 (reg s (coreNum c) rb).1 (reg s (coreNum c) rd).1))
    (ha : (f (reg s (coreNum c) ra).1 (reg s (coreNum c) rb).1 (reg s (coreNum c) rd).1).aex = aex) :
    trapsWith s (op3 s (coreNum c) rd ra rb d f) c rd aex := by
  subst ha
  refine fun h0 => ⟨_, rfl, ?_⟩
  rw [op3, issue_plain _ _ h, deliver_trap hp h8 h0 hpr]
  exact arithTrap_trapped h (coreNum_lt c) rd

theorem opSide_traps {u : SideUnit} {f : Word → Word → Res} (hp : ((reg s (coreNum c) ra).2 || (reg s (coreNum c) rb).2) = false)
    (h8 : aexTraps (f (reg s (coreNum c) ra).1 (reg s (coreNum c) rb).1))
    (ha : (f (reg s (coreNum c) ra).1 (reg s (coreNum c) rb).1).aex = aex) : trapsWith s (opSide s (coreNum c) rd ra rb u f) c rd aex := by
  subst ha
  refine fun h0 => ⟨_, rfl, ?_⟩
  have hs : opSide s (coreNum c) rd ra rb u f = endStep (noteDone s (toUnit s (coreNum c) rd u
      (f (reg s (coreNum c) ra).1 (reg s (coreNum c) rb).1) ((reg s (coreNum c) ra).2 || (reg s (coreNum c) rb).2)) (coreNum c)) (coreNum c) :=
    issue_issues _ _ h (by simp) (by simp) (by simp) (by simp) (by simp)
  rw [hs, toUnit_trap hp h8 h0 hpr]
  exact arithTrap_trapped h (coreNum_lt c) rd

theorem ftoq_traps (hp : (reg s (coreNum c) ra).2 = false) :
    trapsWith s (op1 s (coreNum c) rd ra 3 fToq) c rd (if (fToq (reg s (coreNum c) ra).1).aex = 2 then 2 else 0) := by
  by_cases h2 : (fToq (reg s (coreNum c) ra).1).aex = 2
  · rw [if_pos h2]
    exact op1_traps h hpr hp (by unfold aexTraps; omega) fun _ => h2
  · rw [if_neg h2]
    exact fun h0 => absurd rfl h0

end

theorem aexTraps_satRes (v : Int) : aexTraps (satRes v aexOvf) := by
  unfold aexTraps satRes
  dsimp only
  split <;> decide

theorem aexTraps_satRes16 (v : Int) : aexTraps (satRes16 v aexOvf) := by
  unfold aexTraps satRes16
  dsimp only
  split <;> decide

theorem satRes_aex (v : Int) : (satRes v aexOvf).aex = if -2 ^ 31 ≤ v ∧ v < 2 ^ 31 then 0 else 4 := congrArg Res.aex (satRes_eq v aexOvf)

theorem satRes16_aex (v : Int) : (satRes16 v aexOvf).aex = if -2 ^ 15 ≤ v ∧ v < 2 ^ 15 then 0 else 4 := congrArg Res.aex (satRes16_eq v aexOvf)

theorem sDiv_aex (a b : Word) : (sDiv a b).aex = if b = 0 then 1 else if a = 0x80000000 ∧ b = 0xFFFFFFFF then 4 else 0 := by
  unfold sDiv
  split
  · rfl
  · split <;> rfl

theorem uDiv_aex (a b : Word) : (uDiv a b).aex = if b = 0 then 1 else 0 := by
  unfold uDiv
  split <;> rfl

/-- Settles O33: `deliver` and `toUnit` hand every condition of R150 to the trap, which stops an engine and enters a handler. -/
theorem preciseArithmeticTraps : Obligations.precise_arithmetic_traps := by
  unfold Obligations.precise_arithmetic_traps
  intro c rd ra rb s hi hpr n a b d half q hq out hpoison x hx h0
  obtain ⟨hab, hd⟩ := Bool.or_eq_false_iff.1 hpoison
  obtain ⟨ha, hb⟩ := Bool.or_eq_false_iff.1 hab
  have haa : ((reg s n ra).2 || (reg s n ra).2) = false := by rw [Bool.or_self, ha]
  have key : ∃ t, exec x.1 s = .next t ∧ Trapped s t n rd x.2 := by
    revert x
    simp only [List.forall_mem_cons, List.not_mem_nil, false_imp_iff, implies_true, and_true]
    exact ⟨op2_traps (f := fun a b => satRes (sgn a + sgn b) aexOvf) hi hpr hab (aexTraps_satRes _) (satRes_aex _),
      op2_traps (f := fun a b => satRes (sgn a - sgn b) aexOvf) hi hpr hab (aexTraps_satRes _) (satRes_aex _),
      op2_traps (f := fun a b => qMul a b aexOvf) hi hpr hab (aexTraps_satRes _) (satRes_aex _),
      op3_traps (f := fun a b d => qMac a b d aexOvf) hi hpr hpoison (aexTraps_satRes _) (satRes_aex _),
      op2_traps (f := fun a b => hMul a b aexOvf) hi hpr hab (aexTraps_satRes16 _) (satRes16_aex _),
      op3_traps (f := fun a b d => hMac a b d aexOvf) hi hpr hpoison (aexTraps_satRes16 _) (satRes16_aex _),
      opSide_traps (f := sDiv) hi hpr hab (aexTraps_sDiv ..) (sDiv_aex ..),
      opSide_traps (f := uDiv) hi hpr hab (aexTraps_uDiv ..) (uDiv_aex ..),
      opSide_traps (f := fDiv) hi hpr hab (aexTraps_fDiv ..) (rfl),
      opSide_traps (ra := ra) (f := fun a _ => fSqrt a) hi hpr haa (aexTraps_fSqrt _) (rfl),
      opSide_traps (ra := ra) (f := fun a _ => fRecip a) hi hpr haa (aexTraps_fDiv ..) (rfl),
      op2_traps (f := fAdd) hi hpr hab (aexTraps_fAddV ..) (rfl),
      op2_traps (f := fSub) hi hpr hab (fSub_eq _ _ ▸ aexTraps_fAddV ..) (congrArg Res.aex (fSub_eq ..)),
      op2_traps (f := fMul) hi hpr hab (aexTraps_fMul ..) (rfl),
      op3_traps (f := fMa) hi hpr hpoison (aexTraps_fMa ..) (rfl),
      op2_traps (f := fMinMax false) hi hpr hab (aexTraps_fMinMax ..) (rfl),
      op2_traps (f := fMinMax true) hi hpr hab (aexTraps_fMinMax ..) (rfl),
      op2_traps (f := fCeq) hi hpr hab (aexTraps_fCmp ..) (rfl),
      op2_traps (f := fClt) hi hpr hab (aexTraps_fCmp ..) (rfl),
      op2_traps (f := fCle) hi hpr hab (aexTraps_fCmp ..) (rfl),
      op1_traps (f := fFtoi) hi hpr ha (aexTraps_fFtoi _) (fun _ => rfl),
      ftoq_traps hi hpr ha⟩
  obtain ⟨t, ht, h⟩ := key
  exact ⟨fun h1 h2 => ⟨t, ht, h.engine h1 h2⟩, fun h1 h2 h3 h4 => ⟨t, ht, h.supervisor h1 h2 h3 h4⟩⟩

end Sys2Proof.Pipeline
end

section
namespace Sys2Proof.Pipeline
open Sys2Proof Sys2Proof.Machine Sys2Proof.Safety Sys2Proof.Laws
open Sys2Proof.Proofs hiding stepped zeroWord

/-! ### The return from an exception (R151, R206–R208) -/

/-- Word `i` of the frame at `a`. -/
def frameAt (s : State) (a i : Nat) : Tagged := loadValue (s.bytesAt (a + 4 * i) 4) false

/-- One step of the read of a frame. -/
def frameStep (a : Nat) (acc : List Tagged × State) (i : Nat) : List Tagged × State :=
  (acc.1 ++ [loadValue (readMem acc.2 (a + 4 * i) 4).1 false], (readMem acc.2 (a + 4 * i) 4).2)

/-- A frame of clean bytes in supervisor SRAM. -/
structure CleanFrame (s : State) (a : Nat) : Prop where
  quiet : sramQuiet s = true
  aligned : a % 8 = 0
  low : 0x20000000 ≤ a
  high : a + 64 ≤ 0x20400000
  clean : ∀ i < 64, s.classAt (a + i) = .clean

namespace CleanFrame

variable {s : State} {a : Nat}

theorem read (h : CleanFrame s a) {i : Nat} (hi : i < 16) : readMem s (a + 4 * i) 4 = (s.bytesAt (a + 4 * i) 4, s) := by
  have hlo := h.low
  have hhi := h.high
  have hal := h.aligned
  have hin : inSram (a + 4 * i) := ⟨by omega, by omega⟩
  obtain ⟨m, hm, -⟩ := sram_mem h.quiet hin
  rw [readMem_eq ⟨hm, by decide, by omega, sram_clring h.quiet hin⟩, noteRead_clean fun j hj => ?_]
  have hc := h.clean (4 * i + j) (by omega)
  rwa [← Nat.add_assoc] at hc

theorem words (h : CleanFrame s a) (m : Nat) (hm : m ≤ 16) :
    (List.range m).foldl (frameStep a) ([], s) = ((List.range m).map (frameAt s a), s) := by
  induction m with
  | zero => rfl
  | succ m ih =>
    have hstep : frameStep a ((List.range m).map (frameAt s a), s) m = ((List.range m).map (frameAt s a) ++ [frameAt s a m], s) := by
      unfold frameStep
      rw [h.read (by omega)]
      rfl
    rw [List.range_succ, List.foldl_append, ih (by omega), List.foldl_cons, List.foldl_nil, List.map_append, hstep]
    rfl

theorem unpoisoned (h : CleanFrame s a) {i : Nat} (hi : i < 16) : (frameAt s a i).2 = false := by
  show (s.bytesAt (a + 4 * i) 4).any (·.2) = false
  refine List.any_eq_false.2 fun x hx => ?_
  obtain ⟨j, hj, rfl⟩ := List.mem_map.1 hx
  have hc := h.clean (4 * i + j) (by have := List.mem_range.1 hj; omega)
  rw [← Nat.add_assoc] at hc
  rw [byteAt_clean hc]
  exact Bool.false_ne_true

end CleanFrame

/-- The registers of a frame, written to the file. -/
def eretRegs (k : CoreS) (w : Nat → Tagged) : CoreS :=
  regPut ((List.range 10).foldl (fun k i => regPut k (i + 1) (w (5 + i)).1 (w (5 + i)).2) k) 31 (w 15).1 false

/-- The core behind an ERET. -/
def eretCore (k : CoreS) (w : Nat → Tagged) : CoreS :=
  { eretRegs k w with
    waited := 0, pc := (w 0).1.toNat, slot := if bitOf (w 1).1 5 then some (w 4).1.toNat else none, held := false, skid := none,
    seq := (eretRegs k w).seq + 1 }

theorem regPut_base (k : CoreS) (r : Nat) (v : Word) (p : Bool) (b : Tbl Tagged) :
    { regPut k r v p with base := b } = { k with base := b } := by
  unfold regPut
  split <;> rfl

theorem eretRegs_rest (k : CoreS) (w : Nat → Tagged) : { eretRegs k w with base := k.base } = k := by
  have h (m : Nat) : { (List.range m).foldl (fun k i => regPut k (i + 1) (w (5 + i)).1 (w (5 + i)).2) k with base := k.base } = k := by
    induction m with
    | zero => rfl
    | succ m ih =>
      rw [List.range_succ, List.foldl_append, List.foldl_cons, List.foldl_nil]
      exact (regPut_base ..).trans ih
  exact (regPut_base ..).trans (h 10)

/-- The register file behind an ERET. -/
theorem eretRegs_base (k : CoreS) (w : Nat → Tagged) {r : Nat} (hr : r ≠ 0) :
    tget (fun _ => (0, false)) (eretRegs k w).base r =
      if r ≤ 10 then w (4 + r) else if r = 31 then ((w 15).1, false) else tget (fun _ => (0, false)) k.base r := by
  have h (m : Nat) : tget (fun _ => (0, false))
      ((List.range m).foldl (fun k i => regPut k (i + 1) (w (5 + i)).1 (w (5 + i)).2) k).base r =
        if r ≤ m then w (4 + r) else tget (fun _ => (0, false)) k.base r := by
    induction m with
    | zero => exact (if_neg (by omega)).symm
    | succ m ih =>
      rw [List.range_succ, List.foldl_append, List.foldl_cons, List.foldl_nil, base_regPut, ih]
      by_cases hm : r = m + 1
      · subst hm
        rw [if_pos ⟨by omega, rfl⟩, if_pos le_rfl, show 4 + (m + 1) = 5 + m by omega]
      · rw [if_neg (fun e => hm e.2)]
        exact if_congr (by omega) rfl rfl
  rw [eretRegs, base_regPut, h]
  by_cases h31 : r = 31
  · subst h31
    rfl
  · rw [if_neg (fun e => h31 e.2), if_neg h31]

/-- What a restored frame leaves. -/
def eretDone (s : State) (n : Nat) (ws : List Tagged) : State :=
  (crSet s (512 + n) 2 ((ws.getD 1 (0, false)).1 &&& 0x5F)).setCore (512 + n)
    (eretCore ((crSet s (512 + n) 2 ((ws.getD 1 (0, false)).1 &&& 0x5F)).core (512 + n)) (fun i => ws.getD i (0, false)))

theorem frames_get (f : Nat → Tagged) {i : Nat} (hi : i < 16) : ((List.range 16).map f).getD i (0, false) = f i := by
  rw [List.getD_eq_getElem _ _ (by simpa using hi), List.getElem_map, List.getElem_range]

/-- A supervisor at rest returns from the frame below G31, which is clean. -/
theorem svEret_done {s : State} {n : Nat} (hrest : AtRest s (512 + n)) (hoff : coreOff s (512 + n) = false)
    (hok : stackOk s n ((reg s (512 + n) 31).1.toNat - 64) = true)
    (hframe : CleanFrame s ((reg s (512 + n) 31).1.toNat - 64)) :
    ∃ u, (∀ m, u.core m = s.core m) ∧ onlyCore s u (512 + n) [] ∧
      svEret s n = eretDone u n ((List.range 16).map (frameAt s ((reg s (512 + n) 31).1.toNat - 64))) := by
  have hst : crSync (finishAll s (512 + n)) (512 + n) = s.setCore (512 + n) (s.core (512 + n)) := entryState_eq hrest
  have hcore := core_setCore_self s (512 + n)
  have hself := core_setCore_self (s.setCore (512 + n) (s.core (512 + n))) (512 + n)
  have hbase : baseReg (s.setCore (512 + n) (s.core (512 + n))) (512 + n) 31 = reg s (512 + n) 31 := by
    rw [reg_baseReg hrest.infl (by decide), baseReg, baseReg, hcore]
  have hdrain := drainBuffer_nil (s := s.setCore (512 + n) (s.core (512 + n))) (c := 512 + n) (by rw [hcore]; exact hrest.sb)
  unfold svEret
  dsimp only
  rw [hst, hbase, hdrain]
  have hoff' : coreOff ((s.setCore (512 + n) (s.core (512 + n))).setCore (512 + n)
      ((s.setCore (512 + n) (s.core (512 + n))).core (512 + n))) (512 + n) = false := hoff
  have hok' : stackOk (s.setCore (512 + n) (s.core (512 + n))) n ((reg s (512 + n) 31).1.toNat - 64) = true := hok
  have hclr : clring (s.setCore (512 + n) (s.core (512 + n))) ((reg s (512 + n) 31).1.toNat - 64) = false :=
    sram_clring (s := s.setCore _ _) hframe.quiet ⟨hframe.low, by have := hframe.high; omega⟩
  have hwords : (List.range 16).foldl (frameStep ((reg s (512 + n) 31).1.toNat - 64)) ([], (s.setCore (512 + n) (s.core (512 + n))).setCore (512 + n)
      ((s.setCore (512 + n) (s.core (512 + n))).core (512 + n))) =
      ((List.range 16).map (frameAt s ((reg s (512 + n) 31).1.toNat - 64)), (s.setCore (512 + n) (s.core (512 + n))).setCore (512 + n)
      ((s.setCore (512 + n) (s.core (512 + n))).core (512 + n))) := CleanFrame.words (s := (s.setCore (512 + n) (s.core (512 + n))).setCore (512 + n)
      ((s.setCore (512 + n) (s.core (512 + n))).core (512 + n))) (a := (reg s (512 + n) 31).1.toNat - 64)
    ⟨hframe.quiet, hframe.aligned, hframe.low, hframe.high, hframe.clean⟩ 16 le_rfl
  have hbad : badFrameWord ((List.range 16).map (frameAt s ((reg s (512 + n) 31).1.toNat - 64))) = none := by
    refine List.find?_eq_none.2 fun i hi => ?_
    have h16 : i < 16 := by
      simp only [List.mem_cons, List.not_mem_nil, or_false] at hi
      omega
    rw [frames_get _ h16, hframe.unpoisoned h16]
    exact Bool.false_ne_true
  unfold frameStep at hwords
  rw [hok', hclr, hoff', hwords]
  refine ⟨_, fun m => (hself m).trans (hcore m), onlyCore_trans (setCore_onlyCore ..) (setCore_onlyCore ..), ?_⟩
  generalize (List.range 16).map (frameAt s ((reg s (512 + n) 31).1.toNat - 64)) = ws at hbad ⊢
  generalize (s.setCore (512 + n) (s.core (512 + n))).setCore (512 + n) ((s.setCore (512 + n) (s.core (512 + n))).core (512 + n)) = u
  rw [if_neg (show ¬ (!true) = true by decide), if_neg Bool.false_ne_true, if_neg Bool.false_ne_true, hbad]
  rfl

end Sys2Proof.Pipeline
end

section
namespace Sys2Proof.Pipeline
open Sys2Proof Sys2Proof.Machine Sys2Proof.Safety Sys2Proof.Laws
open Sys2Proof.Proofs hiding stepped zeroWord

/-! ### ERET and SVC at issue (R151, R173, R206, R208) -/

/-- A supervisor's core, ST and the rest of the state behind an ERET from the frame at `a`. -/
structure Returned (s t : State) (n a : Nat) : Prop where
  coreOf : t.core (512 + n) = { eretCore (s.core (512 + n)) (frameAt s a) with stepOne := false }
  stOf : crAct t (512 + n) 2 = (frameAt s a 1).1 &&& 0x5F
  only : onlyCore s t (512 + n) [crKey (512 + n) 2]

theorem eretCore_congr (k : CoreS) {w w' : Nat → Tagged} (h : ∀ i < 16, w i = w' i) : eretCore k w = eretCore k w' := by
  have hregs : eretRegs k w = eretRegs k w' := by
    unfold eretRegs
    rw [h 15 (by decide)]
    congr 1
    refine List.foldl_ext _ _ _ fun k i hi => ?_
    rw [h (5 + i) (by have := List.mem_range.1 hi; omega)]
  unfold eretCore
  rw [hregs, h 0 (by decide), h 1 (by decide), h 4 (by decide)]

theorem eret_returned {s : State} {n : Nat} (hn : n < 4) (hi : issues s (512 + n) = true) (hset : settled s (512 + n) = true)
    (hok : stackOk s n ((reg s (512 + n) 31).1.toNat - 64) = true) (hframe : CleanFrame s ((reg s (512 + n) 31).1.toNat - 64)) :
    Returned s (endStep (noteDone s (svEret s n) (512 + n)) (512 + n)) n ((reg s (512 + n) 31).1.toNat - 64) := by
  obtain ⟨hup, -, -, hfar, hlong, -⟩ := issues_core hi
  have hcr : ¬ (512 ≤ 512 + n ∧ 24 ≤ 2 ∧ 2 < 32) := by omega
  obtain ⟨u, hcore, honly, hgo⟩ := svEret_done (issues_atRest hi hset) (up_coreOff hup _) hok hframe
  have h1 : ((List.range 16).map (frameAt s ((reg s (512 + n) 31).1.toNat - 64))).getD 1 (0, false) =
      frameAt s ((reg s (512 + n) 31).1.toNat - 64) 1 := frames_get _ (by decide)
  have hb : (svEret s n).core (512 + n) = eretCore (s.core (512 + n)) (frameAt s ((reg s (512 + n) 31).1.toNat - 64)) := by
    rw [hgo, eretDone, core_setCore_same, core_crSet, hcore]
    exact eretCore_congr _ fun i hi => frames_get _ hi
  have hst : crAct (svEret s n) (512 + n) 2 = (frameAt s ((reg s (512 + n) 31).1.toNat - 64) 1).1 &&& 0x5F := by
    rw [hgo, eretDone, h1]
    exact crAct_crSet_same u _ hcr
  have hbonly : onlyCore s (svEret s n) (512 + n) [crKey (512 + n) 2] := by
    rw [hgo]
    exact onlyCore_trans (onlyCore_mono honly (by simp)) (onlyCore_trans (crSet_onlyCore u (512 + n) 2 _ (by simp)) (setCore_onlyCore ..))
  have hrest := eretRegs_rest (s.core (512 + n)) (frameAt s ((reg s (512 + n) 31).1.toNat - 64))
  obtain ⟨hend, hfr⟩ := ended s (b := svEret s n) (c := 512 + n) (by omega) (by rw [hb]; rfl)
    (by rw [hb]; exact (congrArg CoreS.far hrest :).trans hfar) (by rw [hb]; exact (congrArg CoreS.long hrest :).trans hlong)
  exact ⟨by rw [hend, hb], (onlyCore_crAct hfr hcr (by simp)).trans hst, onlyCore_trans hbonly (onlyCore_mono hfr (by simp))⟩

/-- The registers behind an ERET. -/
theorem Returned.reads {s t : State} {n a : Nat} (h : Returned s t n a) (hinfl : (s.core (512 + n)).infl = []) (r : Nat) :
    reg t (512 + n) r = if r = 0 then (0, false) else if r ≤ 10 then frameAt s a (4 + r)
      else if r = 31 then ((frameAt s a 15).1, false) else reg s (512 + n) r := by
  have hregs : (eretRegs (s.core (512 + n)) (frameAt s a)).infl = (s.core (512 + n)).infl := by
    have hrest := congrArg CoreS.infl (eretRegs_rest (s.core (512 + n)) (frameAt s a))
    dsimp only at hrest
    exact hrest
  have hi : (t.core (512 + n)).infl = [] := by
    rw [h.coreOf, ← hinfl, ← hregs, eretCore]
  by_cases hr : r = 0
  · subst hr; rfl
  · have hbase : (t.core (512 + n)).base = (eretRegs (s.core (512 + n)) (frameAt s a)).base := by
      rw [h.coreOf]
      rfl
    rw [if_neg hr, reg_baseReg hi hr, reg_baseReg hinfl hr, baseReg, hbase]
    exact eretRegs_base _ _ hr

/-- ERET of a privileged supervisor that is no delay slot. -/
theorem execEret_sv {v : Fin 4} {s : State} (hi : issues s (512 + v) = true) (hpriv : svPriv s v = true)
    (hslot : (s.core (512 + v)).slot = none) :
    exec (.eret (.sv v)) s = .next (endStep (noteDone s (svEret s v) (512 + v)) (512 + v)) := by
  have hv : 512 + v.val - 512 = v := Nat.add_sub_cancel_left ..
  refine congrArg Host.Outcome.next ((issue_issues _ _ hi (fun _ => hslot) (by simp) (by simp) (fun _ _ => by rw [hv]; exact hpriv)
    (by simp)).trans ?_)
  refine congrArg (fun b => endStep (noteDone s b (512 + v.val)) (512 + v.val)) ((if_pos (Nat.le_add_right 512 v)).trans ?_)
  exact congrArg (svEret s) hv

/-- ERET of an engine (R151). -/
theorem execEret_ce {n : Fin 512} {s : State} (hi : issues s n = true) (hslot : (s.core n).slot = none)
    (hflag : bitOf (crAct s n 4) 31 = true) :
    ∃ t, exec (.eret (.ce n)) s = .next t ∧ (t.core n).pc = 4 * fld (crAct s n 4) 13 2 + 4 ∧
      bitOf (crAct t n 4) 31 = false ∧ (t.core n).seq = (s.core n).seq + 1 ∧ regsSet s t n 0 (0, false) ∧
      onlyCore s t n [crKey n 4] := by
  have hcr : ¬ (512 ≤ n.val ∧ 24 ≤ 4 ∧ 4 < 32) := by omega
  have hn : ¬ 512 ≤ n.val := by omega
  obtain ⟨us, hus⟩ := core_markCr s n [] [4]
  have hmark := markCr_onlyCore s n [] [4] [crKey n 4]
  have hgo : exec (.eret (.ce n)) s = .next (endStep (noteDone s
      (goTo (crSet (markCr s n [] [4]) n 4 (setBit (crAct s n 4) 31 false)) n (4 * fld (crAct s n 4) 13 2 + 4)) n) n) := by
    refine congrArg Host.Outcome.next ((issue_issues _ _ hi (fun _ => hslot) (by simp) (by simp) (fun _ h => absurd h hn) (by simp)).trans ?_)
    refine congrArg (fun b => endStep (noteDone s b n) n) ?_
    refine (if_neg hn).trans ?_
    refine if_neg ?_
    show ¬ (!bitOf (crAct s n 4) 31) = true
    rw [hflag]
    decide
  rw [hgo]
  generalize hw : crSet (markCr s n [] [4]) n 4 (setBit (crAct s n 4) 31 false) = w
  have h4 : crAct w n 4 = setBit (crAct s n 4) 31 false := by rw [← hw]; exact crAct_crSet_same _ _ hcr
  have hcore : w.core n = { s.core n with undo := us } := by rw [← hw]; exact hus
  have hframe : onlyCore s w n [crKey n 4] := by rw [← hw]; exact onlyCore_trans hmark (crSet_onlyCore _ _ _ _ (by simp))
  have h := goTo_moved (p := 4 * fld (crAct s n 4) 13 2 + 4) hi (show n.val < 516 by omega) hcore
  refine ⟨_, rfl, h.pc, ?_, h.seq, h.regs, onlyCore_trans hframe (onlyCore_mono h.frame (by simp))⟩
  rw [onlyCore_crAct h.frame hcr (by simp), h4, bitOf_setBit _ _ _ _ (by decide), if_pos rfl]

end Sys2Proof.Pipeline
end

section
namespace Sys2Proof.Pipeline
open Sys2Proof Sys2Proof.Machine Sys2Proof.Safety Sys2Proof.Laws
open Sys2Proof.Proofs hiding stepped zeroWord

/-! ### SVC and the return from it (R173, R206, R208) -/

/-- What the PMU counts before an entry does not show in it. -/
theorem Entry.of_pmu {s s' t : State} {n code epc sp : Nat} {eaddr : Word} {p : Bool} (hp : PmuOnly s s')
    (h : Entry s' t n code epc eaddr sp p) : Entry s t n code epc eaddr sp p := by
  have hcore : s'.core (512 + n) = s.core (512 + n) := hp.core _
  have hact (j : Nat) (hj : j < 24) : crAct s' (512 + n) j = crAct s (512 + n) j := hp.crAct (by omega)
  have hws : frameWords s' n epc code eaddr = frameWords s n epc code eaddr := frameWords_congr hcore (hact 2 (by decide)) ..
  have hmem : PmuOnly { s with mem := t.mem, chk := t.chk, vld := t.vld } { s' with mem := t.mem, chk := t.chk, vld := t.vld } :=
    ⟨by have e := congrArg (fun u : State => { u with mem := t.mem, chk := t.chk, vld := t.vld }) hp.rest; exact e, hp.regs⟩
  refine ⟨?_, h.epcOf, ?_, h.causeOf, h.eaddrOf, ?_, ?_, ?_, ?_, fun b hb => (h.else_ b hb).trans (hp.byteAt b),
    onlyCore_trans (hmem.onlyCore ..) h.only⟩
  · rw [h.coreOf, hcore, hact 3 (by decide)]
  · rw [h.estOf, hcore, hact 2 (by decide)]
  · rw [h.etgtOf, hcore]
  · rw [h.stOf, hact 2 (by decide)]
  · rw [← hws]; exact h.at_
  · rw [← hws]; exact h.clean

/-- The check of a frame reads ST and the two bounds. -/
theorem stackOk_congr {s t : State} {n : Nat} (h2 : bitOf (crAct t (512 + n) 2) 4 = bitOf (crAct s (512 + n) 2) 4)
    (h8 : crAct t (512 + n) 8 = crAct s (512 + n) 8) (h9 : crAct t (512 + n) 9 = crAct s (512 + n) 9) (sp : Int) :
    stackOk t n sp = stackOk s n sp := by
  unfold stackOk
  dsimp only
  rw [h2, h8, h9]

/-- The level of a supervisor is bit 0 of its ST. -/
theorem svPriv_crAct (s : State) (n : Nat) : svPriv s n = bitOf (crAct s (512 + n) 2) 0 := by
  rw [svPriv, crAct, if_neg (by omega), crReg, if_neg (by omega), crIdx, if_neg (by omega), Nat.add_sub_cancel_left]
  rfl

/-- The count of an SVC, which completes only where its entry can be made (R173, R363). -/
def svcCount (s : State) (n : Nat) : State :=
  if entryWaits s n || !entryFits s n then s else countDone (s.core (512 + n)).skid (svPriv s n) s n

theorem svcCount_pmuOnly (s : State) {n : Nat} (hn : n < 4) : PmuOnly s (svcCount s n) :=
  .ite (.refl s) (countDone_pmuOnly _ _ s hn)

/-- What an SVC does. -/
def svcEntry (s : State) (n : Nat) (code : BitVec 20) : State :=
  takeException (svcCount s n) n 9 (((s.core (512 + n)).pc + 4) % 2 ^ 32) (code.zeroExtend 32) (s.core (512 + n)).pc

/-- SVC of a supervisor at rest enters the handler of code 9 (R173, R204). -/
theorem svc_entry {v : Fin 4} {code : BitVec 20} {s t : State} (hi : issues s (512 + v) = true) (hset : settled s (512 + v) = true)
    (hslot : (s.core (512 + v)).slot = none) (hq : sramQuiet s = true) (hok : stackOk s v (reg s (512 + v) 31).1.toNat = true)
    (ht : exec (.svc (.sv v) code) s = .next t) :
    Entry s t v 9 (((s.core (512 + v)).pc + 4) % 2 ^ 32) (code.zeroExtend 32) (reg s (512 + v) 31).1.toNat (reg s (512 + v) 31).2 := by
  have hv := v.isLt
  have hgo : exec (.svc (.sv v) code) s = .next (endStep (noteDone s (svcEntry s v code) (512 + v)) (512 + v)) := by
    refine congrArg Host.Outcome.next ((issue_issues _ _ hi (fun _ => hslot) (by simp) (by simp) (by simp) (by simp)).trans ?_)
    refine congrArg (fun b => endStep (noteDone s b (512 + v.val)) (512 + v.val)) ?_
    have hsub : 512 + v.val - 512 = v := Nat.add_sub_cancel_left ..
    simp only [coreNum, hsub, svcEntry, svcCount]
  rw [hgo] at ht
  injection ht with ht
  subst ht
  refine Entry.ended ?_ (noteDone_pmuOnly s _ (by omega))
  have hp := svcCount_pmuOnly s hv
  unfold svcEntry
  generalize svcCount s v = u at hp
  refine Entry.of_pmu hp ?_
  have hcore := hp.core (512 + v)
  have hfm : u.fm = s.fm := (congrArg State.fm hp.rest :)
  have hpend : u.crPend = s.crPend := (congrArg State.crPend hp.rest :)
  have hreg : reg u (512 + v) 31 = reg s (512 + v) 31 := by rw [reg, hcore, reg]
  have hqu : sramQuiet u = true :=
    (onlyCore_sramQuiet (hp.onlyCore (512 + v) []) (fun _ h => absurd h List.not_mem_nil)).trans hq
  have hoku : stackOk u v (reg u (512 + v) 31).1.toNat = true := by
    rw [hreg, ← hok]
    exact stackOk_congr (by rw [hp.crAct (by omega)]) (hp.crAct (by omega)) (hp.crAct (by omega)) _
  have h := takeException_entry 9 (((s.core (512 + v)).pc + 4) % 2 ^ 32) (code.zeroExtend 32) (s.core (512 + v)).pc hv
    ((coreOff_congr hfm _).trans (up_coreOff (issues_core hi).1 _)) ((issues_atRest hi hset).congr hcore hpend) hqu hoku
  rwa [hreg] at h

/-- The state behind an entry is ready for the return from it. -/
theorem Entry.cleanFrame {s t : State} {n code epc sp : Nat} {eaddr : Word} {p : Bool} (h : Entry s t n code epc eaddr sp p)
    (hq : sramQuiet s = true) (hal : sp % 8 = 0) (hlo : 0x20000000 ≤ sp) (hhi : sp + 64 ≤ 0x20400000)
    (hpure : ∀ i < 16, ((frameWords s n epc code eaddr).getD i (0, false)).2 = false) : CleanFrame t sp := by
  have hqt : sramQuiet t = true := by
    rw [onlyCore_sramQuiet h.only (fun k hk => ?_)]
    · exact hq
    · simp only [entryKeys, List.mem_cons, List.not_mem_nil, or_false] at hk
      rcases hk with rfl | rfl | rfl | rfl | rfl | rfl <;> exact crKey_ge ..
  refine ⟨hqt, hal, hlo, hhi, fun x hx => h.clean x hx ?_⟩
  have hw := hpure (x / 4) (by omega)
  unfold frameByte
  dsimp only
  generalize (frameWords s n epc code eaddr).getD (x / 4) (0, false) = w at hw
  have h4 : x % 4 < (wordBytes w.1 w.2).length := by rw [wordBytes_length]; omega
  rw [List.getD_eq_getElem _ _ h4]
  simp [wordBytes, hw]

theorem frameWords_saved (s : State) (n epc code : Nat) (eaddr : Word) {r : Nat} (h1 : 1 ≤ r) (h10 : r ≤ 10) :
    (frameWords s n epc code eaddr).getD (4 + r) (0, false) = baseReg s (512 + n) r := by
  interval_cases r <;> rfl

/-- The word an SVC's frame holds for a register has no poison when the registers have none. -/
theorem frameWords_pure {s : State} {n epc code : Nat} {eaddr : Word} (hinfl : (s.core (512 + n)).infl = [])
    (h31 : (reg s (512 + n) 31).2 = false) (hp : ∀ r ≤ 10, (reg s (512 + n) r).2 = false) {i : Nat} (hi : i < 16) :
    ((frameWords s n epc code eaddr).getD i (0, false)).2 = false := by
  by_cases h5 : i < 5
  · interval_cases i <;> rfl
  · by_cases h15 : i = 15
    · subst h15
      rw [reg_baseReg hinfl (by decide)] at h31
      exact h31
    · have hr := hp (i - 4) (by omega)
      rw [reg_baseReg hinfl (by omega), ← frameWords_saved s n epc code eaddr (by omega) (by omega)] at hr
      rwa [show 4 + (i - 4) = i by omega] at hr

/-- A handler that has been entered is at rest. -/
theorem Entry.settled {s t : State} {n code epc sp : Nat} {eaddr : Word} {p : Bool} (h : Entry s t n code epc eaddr sp p)
    (hset : Safety.settled s (512 + n) = true) : Safety.settled t (512 + n) = true := by
  have hpend : t.crPend = s.crPend := (congrArg State.crPend h.only.1 :)
  have hrest := regPut_rest (s.core (512 + n)) 31 (wd (sp + 64)) p
  have hinfl : (t.core (512 + n)).infl = (s.core (512 + n)).infl := by
    rw [h.coreOf]
    exact (congrArg CoreS.infl hrest :)
  have hsb : (t.core (512 + n)).sb = (s.core (512 + n)).sb := by
    rw [h.coreOf]
    exact (congrArg CoreS.sb hrest :)
  rw [← hset]
  unfold Safety.settled crPending
  rw [hinfl, hsb, hpend]

/-- ST of an SVC's frame, restored, is ST before it but for the delay slot's mark (R206, R208). -/
theorem restored_st (st : Word) : setBit st 5 false &&& 0x5F = st &&& 0x5F := by
  refine BitVec.eq_of_getLsbD_eq fun b hb => ?_
  rw [BitVec.getLsbD_and, BitVec.getLsbD_and, ← bitOf_eq_getLsbD, ← bitOf_eq_getLsbD, bitOf_setBit _ _ _ _ hb]
  split
  next h =>
    subst h
    have h0 : bitOf 0x5F 5 = false := by decide
    rw [h0, Bool.and_false, Bool.and_false]
  · rfl

/-- After SVC and ERET the supervisor stands behind the SVC as it stood before it. -/
theorem svc_eret {v : Fin 4} {code : BitVec 20} {s t : State} (hi : issues s (512 + v) = true) (hset : settled s (512 + v) = true)
    (hslot : (s.core (512 + v)).slot = none) (hq : sramQuiet s = true) (hok : stackOk s v (reg s (512 + v) 31).1.toNat = true)
    (h31 : (reg s (512 + v) 31).2 = false) (hp : ∀ r ≤ 10, (reg s (512 + v) r).2 = false)
    (ht : exec (.svc (.sv v) code) s = .next t) (hit : issues t (512 + v) = true) :
    ∃ u, exec (.eret (.sv v)) t = .next u ∧ (u.core (512 + v)).pc = ((s.core (512 + v)).pc + 4) % 2 ^ 32 ∧
      (∀ r, reg u (512 + v) r = reg s (512 + v) r) ∧ crAct u (512 + v) 2 = crAct s (512 + v) 2 &&& 0x5F ∧
      (u.core (512 + v)).slot = none ∧
      ∀ x, x < (reg s (512 + v) 31).1.toNat ∨ (reg s (512 + v) 31).1.toNat + 64 ≤ x → u.byteAt x = s.byteAt x := by
  have h := svc_entry hi hset hslot hq hok ht
  obtain ⟨hal, hlo, hhi⟩ := stackOk_sram v.isLt hok
  have hrest := issues_atRest hi hset
  have hsett := h.settled hset
  have hframe := h.cleanFrame hq hal hlo hhi fun i hi => frameWords_pure hrest.infl h31 hp hi
  have htrest := issues_atRest hit hsett
  generalize hsp : (reg s (512 + v) 31).1.toNat = sp at h hok hal hlo hhi hframe
  have hbase (r : Nat) (hr : r ≠ 0) : reg t (512 + v) r = if r = 31 then (wd (sp + 64), (reg s (512 + v) 31).2) else reg s (512 + v) r := by
    rw [reg_baseReg htrest.infl hr, reg_baseReg hrest.infl hr, baseReg, h.coreOf]
    exact (base_regPut ..).trans (if_congr ⟨fun e => e.2, fun e => ⟨by decide, e⟩⟩ rfl rfl)
  have h64 : (reg t (512 + v) 31).1.toNat = sp + 64 := by
    rw [hbase 31 (by decide), if_pos rfl, wd, BitVec.toNat_ofNat]
    omega
  have hst (b : Nat) (hb : b < 32) := h.stOf ▸ bitOf_entrySt (crAct s (512 + v) 2) 9 hb
  have hact (j : Nat) (hj : crKey (512 + v) j ∉ entryKeys (512 + v)) (hlt : j < 24) : crAct t (512 + v) j = crAct s (512 + v) j :=
    onlyCore_crAct h.only (by omega) hj
  have hpriv : svPriv t v = true := (svPriv_crAct t v).trans ((hst 0 (by decide)).trans (if_pos rfl))
  have hokt : stackOk t v sp = true := by
    rw [← hok]
    exact stackOk_congr (hst 4 (by decide)) (hact 8 (by simp [entryKeys, crKey_eq_iff]) (by decide))
      (hact 9 (by simp [entryKeys, crKey_eq_iff]) (by decide)) _
  have hback : (reg t (512 + v) 31).1.toNat - 64 = sp := by omega
  have hret := eret_returned v.isLt hit hsett (by rw [h64]; push_cast; rw [Int.add_sub_cancel]; exact hokt) (hback.symm ▸ hframe)
  rw [hback] at hret
  have hword (i : Nat) (hi : i < 16) : frameAt t sp i =
      (frameWords s v (((s.core (512 + v)).pc + 4) % 2 ^ 32) 9 (code.zeroExtend 32)).getD i (0, false) :=
    frame_word h.at_ (by omega)
  have htslot : (t.core (512 + v)).slot = none := by rw [h.coreOf]; rfl
  refine ⟨_, execEret_sv hit hpriv htslot, ?_, fun r => ?_, ?_, ?_, fun x hx => ?_⟩
  · rw [hret.coreOf]
    show (frameAt t sp 0).1.toNat = _
    rw [hword 0 (by decide)]
    exact (BitVec.toNat_ofNat ..).trans (Nat.mod_mod ..)
  · rw [hret.reads htrest.infl r]
    split_ifs with h0 h10 h31'
    · subst h0; rfl
    · rw [hword _ (by omega), frameWords_saved _ _ _ _ _ (by omega) h10, reg_baseReg hrest.infl h0]
    · subst h31'
      rw [hword 15 (by decide), reg_baseReg hrest.infl h0]
      rw [reg_baseReg hrest.infl h0] at h31
      exact Prod.ext rfl h31.symm
    · rw [hbase r h0, if_neg h31']
  · rw [hret.stOf, hword 1 (by decide)]
    exact (congrArg (fun b => setBit (crAct s (512 + v) 2) 5 b &&& 0x5F) (by rw [hslot]; rfl)).trans (restored_st _)
  · rw [hret.coreOf]
    show (if bitOf (frameAt t sp 1).1 5 then _ else none) = none
    refine if_neg (Bool.eq_false_iff.1 ?_)
    rw [hword 1 (by decide)]
    exact (bitOf_setBit _ _ _ _ (by decide)).trans ((if_pos rfl).trans (by rw [hslot]; rfl))
  · rw [onlyCore_byteAt hret.only, h.else_ x hx]

/-- Settles O31: both returns at issue, and the frame of an SVC read back word by word. -/
theorem eretCompletes : Obligations.eret_completes := by
  unfold Obligations.eret_completes
  refine ⟨?_, fun n s hi hslot hflag => execEret_ce hi hslot hflag, ?_⟩
  · intro v s hi hset c k a w hpriv hslot hq h64 hok hclean
    have hsub : ((reg s (512 + v) 31).1.toNat : Int) - 64 = (a : Int) := (Int.natCast_sub h64).symm
    obtain ⟨hal, hlo, hhi⟩ := stackOk_sram v.isLt hok
    have hframe : CleanFrame s a := ⟨hq, hal, hlo, hhi, hclean⟩
    have hret := eret_returned v.isLt hi hset (by rw [hsub]; exact hok) hframe
    refine ⟨_, execEret_sv hi hpriv hslot, ?_, hret.stOf, ?_, fun r => ?_, hret.only⟩
    · rw [hret.coreOf]; rfl
    · rw [hret.coreOf]; rfl
    · rw [hret.reads (issues_atRest hi hset).infl r]
      have h15 : ((frameAt s a 15).1, false) = frameAt s a 15 := by rw [← hframe.unpoisoned (i := 15) (by decide)]
      rw [h15]
      rfl
  · intro v code s t hi hset c sp hslot hq hok hp31 hp ht hit
    exact svc_eret hi hset hslot hq hok hp31 hp ht hit

end Sys2Proof.Pipeline
end

section
namespace Sys2Proof.Pipeline
open Sys2Proof Sys2Proof.Machine Sys2Proof.Safety Sys2Proof.Laws
open Sys2Proof.Proofs hiding stepped zeroWord

/-! ### The arithmetic report (R149, R233) -/

/-- The word of the interrupt controller that an arithmetic report changes. -/
def reportWord (s : State) (e bits : Nat) : State :=
  let s := s.setB .irqAexr (e / 8) 0 (e % 8)
  let s := s.wrF .irqAexr (e / 8) 0 11 8 (s.rdF .irqAexr (e / 8) 0 11 8 ||| bits)
  s.incF .irqAexr (e / 8) 0 19 12

/-- What the device's resets and its power phase hold. -/
theorem gate_of_fm {s0 s : State} (hu : up s0 = true) (h : s.fm = s0.fm) (r : Reg) (i : Nat) (f : State → State) : s.gate r i f = f s := by
  have he : s.regHeld r i = s0.regHeld r i := by
    unfold State.regHeld State.funcHeld State.inRst
    rw [h]
  rw [State.gate, he, up_regHeld hu, if_neg Bool.false_ne_true]

theorem aexReport_up {s0 s : State} (hu : up s0 = true) (h : s.fm = s0.fm) (e bits : Nat) :
    aexReport s e bits = (reportWord s e bits).irqEdge (193 + e / 8) := gate_of_fm hu h ..

theorem reportWord_rest (s : State) (e bits : Nat) : { reportWord s e bits with regs := s.regs } = s := by
  unfold reportWord State.incF State.wrF State.setB State.wrB State.wr
  rfl

theorem reportWord_fm (s : State) (e bits : Nat) : (reportWord s e bits).fm = s.fm :=
  (congrArg State.fm (reportWord_rest s e bits) :)

theorem bit_reportWord (s : State) (e bits : Nat) : (reportWord s e bits).bit .irqAexr (e / 8) 0 (e % 8) = true := by
  have hb : e % 8 < 8 := Nat.mod_lt _ (by decide)
  unfold reportWord State.incF
  dsimp only
  rw [State.bit, rd_wrF_same, bitOf_setFld _ _ _ _ _ (by omega), if_neg (by omega), rd_wrF_same, bitOf_setFld _ _ _ _ _ (by omega),
    if_neg (by omega), State.setB, rd_wrB_same, bitOf_setBit _ _ _ _ (by omega), if_pos rfl]

theorem ceCr_reportWord (s : State) {e n j : Nat} (bits : Nat) (he : e < 512) (hn : n < 512) (hj : j < 64) :
    (reportWord s e bits).rd .ceCr n j = s.rd .ceCr n j := by
  have hk : e / 8 < 64 := by omega
  have h (t : State) (v : Word) : (t.wr .irqAexr (e / 8) 0 v).rd .ceCr n j = t.rd .ceCr n j :=
    rd_wr_other t v (by decide) hk (by decide) hn hj
  exact (h ..).trans ((h ..).trans (h ..))

/-- What an arithmetic report of an engine leaves. -/
structure Reported (s t : State) (n bits : Nat) : Prop where
  rest : { t with regs := s.regs, irq := s.irq, irqKeep := s.irqKeep } = s
  cr : ∀ j < 64, crAct t n j = if j = 1 then setFld (setFld (crAct s n 1) 11 8 bits) 3 0 (fld (crAct s n 1) 3 0 - bits) else crAct s n j
  bit : t.bit .irqAexr (n / 8) 0 (n % 8) = true
  edge : s.irqKeep = none → t.irq.edge = tput (fun _ => false) s.irq.edge (193 + n / 8) true

/-- The bits that an engine reports. -/
def reportBits (s : State) (n : Nat) : Nat := fld (crAct s n 1) 3 0 &&& fld (crAct s n 2) 3 0

theorem reportAex_none {s : State} {n : Nat} (h : reportBits s n = 0) : reportAex s n = s := if_pos h

theorem reportAex_reported {s0 s : State} {n : Nat} (hu : up s0 = true) (hfm : s.fm = s0.fm) (hn : n < 512) (h : reportBits s n ≠ 0) :
    Reported s (reportAex s n) n (reportBits s n) := by
  have hno (j : Nat) : ¬ (512 ≤ n ∧ 24 ≤ j ∧ j < 32) := by omega
  have hgo : reportAex s n = aexReport (crSet s n 1 (setFld (setFld (crAct s n 1) 11 8 (reportBits s n)) 3 0
      (fld (crAct s n 1) 3 0 - reportBits s n))) n (reportBits s n) := if_neg h
  rw [hgo]
  generalize reportBits s n = bits
  generalize hw : setFld (setFld (crAct s n 1) 11 8 bits) 3 0 (fld (crAct s n 1) 3 0 - bits) = w
  have hr : (reportWord (crSet s n 1 w) n bits).inRst 72 = false := by
    have h : (reportWord (crSet s n 1 w) n bits).fm = s0.fm := (reportWord_fm ..).trans hfm
    rw [State.inRst, h]
    exact up_inRst hu 72
  have hframe : { reportWord (crSet s n 1 w) n bits with regs := s.regs } = s :=
    congrArg (fun t : State => { t with regs := s.regs }) (reportWord_rest (crSet s n 1 w) n bits)
  have hbit := bit_reportWord (crSet s n 1 w) n bits
  have hcr (j : Nat) (hj : j < 64) := ceCr_reportWord (crSet s n 1 w) bits hn hn hj
  rw [aexReport_up hu (s := crSet s n 1 w) hfm]
  generalize reportWord (crSet s n 1 w) n bits = u at hr hframe hbit hcr
  have he := irqEdge_frame u (193 + n / 8)
  have hregs : (u.irqEdge (193 + n / 8)).regs = u.regs := (congrArg State.regs he :)
  refine ⟨?_, fun j hj => ?_, ?_, fun hkeep => ?_⟩
  · have e := congrArg (fun t : State => { t with regs := s.regs, irq := s.irq, irqKeep := s.irqKeep }) he
    have f := congrArg (fun t : State => { t with irq := s.irq, irqKeep := s.irqKeep }) hframe
    exact e.trans f
  · rw [crAct_eq _ (hno j), crReg, if_pos hn, crIdx, if_pos hn, State.rd, hregs]
    refine (hcr j hj).trans ?_
    have hread : (crSet s n 1 w).rd .ceCr n j = crAct (crSet s n 1 w) n j := by
      rw [crAct_eq _ (hno j), crReg, if_pos hn, crIdx, if_pos hn]
    rw [hread]
    split
    next h1 => rw [h1, hw]; exact crAct_crSet_same _ _ (hno 1)
    next h1 => exact crAct_crSet_ne _ _ h1 (hno j)
  · rw [State.bit, State.rd, hregs]
    exact hbit
  · have hku : u.irqKeep = none := (congrArg State.irqKeep hframe :).trans hkeep
    have hiu : u.irq = s.irq := (congrArg State.irq hframe :)
    unfold State.irqEdge
    rw [hr, hku, hiu]
    rfl

/-! ### CHECK, COMMIT, FENCE and WFI (R138, R149, R171, R173, R174) -/

theorem execCheck_done {n : Fin 512} {s : State} (hi : issues s n = true) :
    ∃ t, exec (.check (.ce n)) s = .next t ∧ stepped (s.core n) (t.core n) ∧ regsSet s t n 0 (0, false) ∧
      (let bits := fld (crAct s n 1) 3 0 &&& fld (crAct s n 2) 3 0
       fld (crAct t n 1) 3 0 + bits = fld (crAct s n 1) 3 0 ∧
       (bits = 0 → onlyCore s t n []) ∧
       (bits ≠ 0 → fld (crAct t n 1) 11 8 = bits ∧ t.bit .irqAexr (n / 8) 0 (n % 8) = true ∧
         (s.irqKeep = none → t.irq.edge = tput (fun _ => false) s.irq.edge (193 + n / 8) true))) := by
  have hn := n.isLt
  have hno (j : Nat) : ¬ (512 ≤ n.val ∧ 24 ≤ j ∧ j < 32) := by omega
  obtain ⟨hup, -, -, hfar, hlong, -⟩ := issues_core hi
  obtain ⟨us, hus⟩ := core_markCr s n [] [1]
  have hmark := markCr_onlyCore s n [] [1] []
  have hgo : exec (.check (.ce n)) s = .next (endStep (noteDone s (complete (reportAex (markCr s n [] [1]) n) n []) n) n) :=
    congrArg Host.Outcome.next (issue_issues { ceOnly := true, quiet := true } _ hi (by simp) (fun _ => hn) (by simp) (by simp) (by simp))
  have hbits : reportBits (markCr s n [] [1]) n = fld (crAct s n 1) 3 0 &&& fld (crAct s n 2) 3 0 := by
    rw [reportBits, onlyCore_crAct hmark (hno 1) (by simp), onlyCore_crAct hmark (hno 2) (by simp)]
  have h1 : crAct (markCr s n [] [1]) n 1 = crAct s n 1 := onlyCore_crAct hmark (hno 1) (by simp)
  have hfm : (markCr s n [] [1]).fm = s.fm := (congrArg State.fm hmark.1 :)
  rw [hgo]
  generalize markCr s n [] [1] = u at hus hmark hbits h1 hfm
  have hcore : (reportAex u n).core n = u.core n := by
    by_cases hz : reportBits u n = 0
    · rw [reportAex_none hz]
    · have hc : (reportAex u n).cores = u.cores := (congrArg State.cores (reportAex_reported hup hfm hn hz).rest :)
      rw [State.core, hc, State.core]
  have hperf := performed_end s (b := complete (reportAex u n) n []) (show n.val < 516 by omega)
    (k := { s.core n with undo := us }) (os := []) (by rw [← hus, ← hcore]; exact complete_completed ..) hfar hlong
  have hframe := onlyCore_trans (complete_onlyCore (reportAex u n) n [] []) hperf.frame
  refine ⟨_, rfl, stepped_congr hperf.step rfl, hperf.regsSet_nil ⟨rfl, rfl, rfl⟩, ?_⟩
  generalize endStep (noteDone s (complete (reportAex u n) n []) n) n = t at hframe
  have ht1 : crAct t n 1 = crAct (reportAex u n) n 1 := onlyCore_crAct hframe (hno 1) (by simp)
  dsimp only
  rw [← hbits, ht1]
  by_cases hz : reportBits u n = 0
  · rw [reportAex_none hz] at hframe ⊢
    refine ⟨by rw [hz, h1]; rfl, fun _ => onlyCore_trans hmark hframe, fun h => absurd hz h⟩
  · have hrep := reportAex_reported hup hfm hn hz
    have hle : reportBits u n ≤ fld (crAct s n 1) 3 0 := by rw [hbits]; exact Nat.and_le_left
    have hlt : fld (crAct s n 1) 3 0 < 16 := fld_lt ..
    have hnew := hrep.cr 1 (by decide)
    rw [if_pos rfl, h1] at hnew
    rw [hnew]
    refine ⟨?_, fun h => absurd h hz, fun _ => ⟨?_, ?_, fun hkeep => ?_⟩⟩
    · rw [fld_setFld_same _ _ _ _ (by decide), Nat.mod_eq_of_lt (by omega)]
      omega
    · rw [fld_setFld_ne _ _ _ _ _ _ (by decide) (.inl (by decide)), fld_setFld_same _ _ _ _ (by decide), Nat.mod_eq_of_lt (by omega)]
    · rw [State.bit, onlyCore_rd hframe (addr_not_inPmu (by decide) (by decide) (by decide) (show n.val / 8 < 64 by omega) (by decide)) (by simp)]
      exact hrep.bit
    · have hirq : t.irq = (reportAex u n).irq := (congrArg State.irq hframe.1 :)
      have hsu : u.irq = s.irq := (congrArg State.irq hmark.1 :)
      have hku : u.irqKeep = none := (congrArg State.irqKeep hmark.1 :).trans hkeep
      rw [hirq, hrep.edge hku, hsu]

theorem execCommit_done {n : Fin 512} {s : State} (hi : issues s n = true) (hslot : (s.core n).slot = none)
    (hlen : (s.core n).sb.length < 4) :
    ∃ t, exec (.commit (.ce n)) s = .next t ∧ regsSet s t n 0 (0, false) ∧ onlyCore s t n [] ∧
      stepped { s.core n with sb := (s.core n).sb ++ [{ idx := (s.core n).seq, commit := true, addr := 0, bytes := [] }] } (t.core n) := by
  obtain ⟨-, -, -, hfar, hlong, -⟩ := issues_core hi
  have hcap : ¬ sbCap n ≤ (s.core n).sb.length := by
    rw [sbCap, if_pos n.isLt]
    omega
  generalize hk : ({ s.core n with sb := (s.core n).sb ++ [{ idx := (s.core n).seq, commit := true, addr := 0, bytes := [] }] } : CoreS) = k
  have hgo : exec (.commit (.ce n)) s = .next (endStep (noteDone s (complete (s.setCore n k) n []) n) n) := by
    refine congrArg Host.Outcome.next ((issue_issues _ _ hi (fun _ => hslot) (fun _ => n.isLt) (by simp) (by simp) (by simp)).trans ?_)
    refine congrArg (fun b => endStep (noteDone s b n) n) ((if_neg hcap).trans ?_)
    rw [← hk]
    rfl
  have hperf := performed_end s (b := complete (s.setCore n k) n []) (show n.val < 516 by omega) (k := k) (os := [])
    (by have h := complete_completed (s.setCore n k) n []; rwa [core_setCore_same] at h) (by rw [← hk]; exact hfar) (by rw [← hk]; exact hlong)
  exact ⟨_, hgo, hperf.regsSet_nil (by rw [← hk]; exact ⟨rfl, rfl, rfl⟩),
    onlyCore_trans (onlyCore_trans (setCore_onlyCore ..) (complete_onlyCore ..)) hperf.frame, hperf.step⟩

theorem execFence_done {v : Fin 4} {s : State} (hi : issues s (512 + v) = true) (hpriv : svPriv s v = true)
    (hsb : (s.core (512 + v)).sb = []) :
    ∃ t, exec (.fence (.sv v)) s = .next t ∧ stepped (s.core (512 + v)) (t.core (512 + v)) ∧ regsSet s t (512 + v) 0 (0, false) ∧
      onlyCore s t (512 + v) [] := by
  obtain ⟨-, -, -, hfar, hlong, -⟩ := issues_core hi
  have hgo : exec (.fence (.sv v)) s = .next (endStep (noteDone s (complete s (512 + v) []) (512 + v)) (512 + v)) :=
    congrArg Host.Outcome.next (issue_issues { svOnly := true, priv := true, drained := true } _ hi (by simp) (by simp)
      (fun _ => Nat.le_add_right ..) (fun _ _ => (congrArg (svPriv s) (Nat.add_sub_cancel_left ..)).trans hpriv) (fun _ => hsb))
  have hperf := performed_end s (show 512 + v.val < 516 by omega) (complete_completed s (512 + v) []) hfar hlong
  exact ⟨_, hgo, hperf.step, hperf.regsSet_nil ⟨rfl, rfl, rfl⟩, onlyCore_trans (complete_onlyCore ..) hperf.frame⟩

theorem execWfi_done {v : Fin 4} {s : State} (hi : issues s (512 + v) = true) (hpriv : svPriv s v = true)
    (hslot : (s.core (512 + v)).slot = none) :
    ∃ t, exec (.wfi (.sv v)) s = .next t ∧ stepped { s.core (512 + v) with mode := .wfi } (t.core (512 + v)) ∧
      regsSet s t (512 + v) 0 (0, false) ∧ onlyCore s t (512 + v) [] := by
  obtain ⟨-, -, -, hfar, hlong, -⟩ := issues_core hi
  have hgo : exec (.wfi (.sv v)) s = .next (endStep (noteDone s ((complete s (512 + v) []).setCore (512 + v)
      { (complete s (512 + v) []).core (512 + v) with mode := .wfi }) (512 + v)) (512 + v)) :=
    congrArg Host.Outcome.next (issue_issues { noSlot := true, svOnly := true, priv := true } _ hi (fun _ => hslot) (by simp)
      (fun _ => Nat.le_add_right ..) (fun _ _ => (congrArg (svPriv s) (Nat.add_sub_cancel_left ..)).trans hpriv) (by simp))
  have hdone := complete_completed s (512 + v) []
  have hfr := complete_onlyCore s (512 + v) [] []
  rw [hgo]
  generalize complete s (512 + v) [] = u at hdone hfr
  have hperf := performed_end s (b := u.setCore (512 + v) { u.core (512 + v) with mode := .wfi }) (show 512 + v.val < 516 by omega)
    (k := { s.core (512 + v) with mode := .wfi }) (os := [])
    (by
      rw [core_setCore_same]
      have e := congrArg (fun c : CoreS => { c with mode := .wfi }) hdone.step
      exact hdone.congr rfl rfl rfl rfl rfl rfl e) hfar hlong
  exact ⟨_, rfl, hperf.step, hperf.regsSet_nil ⟨rfl, rfl, rfl⟩, onlyCore_trans (onlyCore_trans hfr (setCore_onlyCore ..)) hperf.frame⟩

theorem execWfiEnd_done {v : Fin 4} {s : State} (hu : up s = true) (hm : (s.core (512 + v)).mode = .wfi)
    (hh : (s.core (512 + v)).halted = false) (hs : signalled s v = true) :
    ∃ t, exec (.wfiEnd v) s = .next t ∧ t.core (512 + v) = { s.core (512 + v) with mode := .active } ∧ onlyCore s t (512 + v) [] := by
  obtain ⟨-, -, hp, -⟩ := (up_iff s).1 hu
  have hgo : exec (.wfiEnd v) s = .next (leaveWfi s (512 + v)) :=
    if_neg (by rw [up_coreOff hu, hm, hh, hs]; decide)
  have hleave : leaveWfi s (512 + v) = s.setCore (512 + v) { s.core (512 + v) with mode := .active } :=
    if_neg (show ¬ (s.fm.power == .enteringIdle) = true by rw [hp]; decide)
  exact ⟨_, hgo, by rw [hleave, core_setCore_same], by rw [hleave]; exact setCore_onlyCore ..⟩

theorem execWfiEnd_unsignalled {v : Fin 4} {s : State} (h : signalled s v = false) : exec (.wfiEnd v) s = .next s :=
  if_pos (by rw [h]; simp)

end Sys2Proof.Pipeline
end

section
namespace Sys2Proof.Pipeline
open Sys2Proof Sys2Proof.Machine Sys2Proof.Safety Sys2Proof.Laws
open Sys2Proof.Proofs hiding stepped zeroWord

/-! ### SYNC of the pending copies (R143, R172) -/

/-- Of the state, only registers and pending copies differ. -/
def CrOnly (s t : State) : Prop := { t with regs := s.regs, crPend := s.crPend } = s

theorem CrOnly.trans {s t u : State} (h : CrOnly s t) (g : CrOnly t u) : CrOnly s u := by
  have e := congrArg (fun v : State => { v with regs := s.regs, crPend := s.crPend }) g
  exact e.trans h

/-- A pending copy becomes active and is pending no more; the others stay pending. -/
theorem crCommit_pending (s : State) (c j : Nat) : CrOnly s (crCommit s c j) ∧
    ∀ i < 64, crPending (crCommit s c j) c i = if i = j then none else crPending s c i := by
  cases hp : crPending s c j with
  | none =>
    have hid : crCommit s c j = s := by
      unfold crCommit
      rw [hp]
    rw [hid]
    refine ⟨rfl, fun i _ => ?_⟩
    split
    next h => rw [h, hp]
    · rfl
  | some v =>
    unfold crCommit
    rw [hp]
    dsimp only
    generalize hu : ({ s with crPend := tput (fun _ => none) s.crPend (64 * c + j) none } : State) = u
    have hcr : CrOnly s u := by rw [← hu]; rfl
    have hpend (i : Nat) : crPending u c i = if i = j then none else crPending s c i := by
      rw [← hu]
      have hij : 64 * c + i = 64 * c + j ↔ i = j := by omega
      exact (tget_tput (fun _ => none) s.crPend (64 * c + j) (64 * c + i) none).trans (if_congr hij rfl rfl)
    have hwr (r : Reg) (i j : Nat) (w : Word) : CrOnly u (u.wr r i j w) := rfl
    split
    · unfold State.gate
      split
      · exact ⟨hcr, fun i _ => hpend i⟩
      · exact ⟨hcr.trans (hwr ..), fun i _ => hpend i⟩
    · exact ⟨hcr.trans (hwr ..), fun i _ => hpend i⟩

theorem crSync_pending (s : State) (c : Nat) : CrOnly s (crSync s c) ∧ ∀ j < 64, crPending (crSync s c) c j = none := by
  have h (m : Nat) (hm : m ≤ 64) : CrOnly s (s.forN m (crCommit · c)) ∧
      ∀ j < m, crPending (s.forN m (crCommit · c)) c j = none := by
    induction m with
    | zero => exact ⟨rfl, fun _ h => absurd h (Nat.not_lt_zero _)⟩
    | succ m ih =>
      obtain ⟨hcr, hnone⟩ := ih (by omega)
      rw [forN_succ]
      obtain ⟨hstep, hpend⟩ := crCommit_pending (s.forN m (crCommit · c)) c m
      refine ⟨hcr.trans hstep, fun j hj => ?_⟩
      rw [hpend j (by omega)]
      split
      · rfl
      · exact hnone j (by omega)
  exact h 64 le_rfl

/-! ### YIELD (R144, R170) -/

/-- A register that no result in flight is for reads as the file has it. -/
theorem seen_base {k : CoreS} {r : Nat} (hr : r ≠ 0) (h : ∀ p ∈ k.infl, p.reg ≠ r) :
    seen k r = tget (fun _ => (0, false)) k.base r := by
  rw [seen, if_neg hr, List.find?_eq_none.2 fun p hp => by simpa using fun e => absurd e (h p hp)]

/-- Writing the flight to the file leaves the other registers. -/
theorem flushInfl_base {k : CoreS} {r : Nat} (hr : r ≠ 0) (h : ∀ p ∈ k.infl, p.reg ≠ r) :
    tget (fun _ => (0, false)) (flushInfl k).base r = tget (fun _ => (0, false)) k.base r := by
  have hnone : k.infl.find? (fun p => p.reg == r) = none := List.find?_eq_none.2 fun p hp => by simpa using h p hp
  rw [flushInfl_eq]
  exact (written_base k k.infl hr).trans (by rw [hnone])

theorem retire_flight {k : CoreS} {p : Producer} (h : p ∈ (retire k).infl) : p ∈ k.infl := by
  rw [retire_eq] at h
  rw [← staying_append_leaving k]
  exact List.mem_append_left _ h

/-- An instruction that delivers nothing adds nothing to the flight. -/
theorem finished_flight {k : CoreS} {p : Producer} (h : p ∈ (finished k []).infl) : p ∈ k.infl := by
  have hmem := retire_flight h
  rw [advance_eq] at hmem
  exact hmem

/-- An engine whose activation has ended. -/
def yielded (k : CoreS) : CoreS :=
  { flushInfl k with mode := .idle, yielding := false, held := false, atM := false, wait := 0, waited := 0, undo := [], pcs := [] }

theorem reportAex_rest {s0 s : State} {n : Nat} (hu : up s0 = true) (hfm : s.fm = s0.fm) (hn : n < 512) :
    { reportAex s n with regs := s.regs, irq := s.irq, irqKeep := s.irqKeep } = s := by
  by_cases hz : reportBits s n = 0
  · rw [reportAex_none hz]
  · exact (reportAex_reported hu hfm hn hz).rest

/-- An activation ends: the core is Idle and none of its control registers is pending. -/
theorem endYield_ended {s0 s : State} {n : Nat} (hu : up s0 = true) (hfm : s.fm = s0.fm) (hn : n < 512) (hy : (s.core n).yielding = true)
    (hsb : (s.core n).sb = []) (hd : (s.core n).divU = none) (hc : (s.core n).corU = none)
    (ha : ∀ x < 4, (s.slot (n / 8) x).acts = []) :
    (endYield s n).core n = yielded (s.core n) ∧
      ∀ j < 64, crPending (endYield s n) n j = none := by
  generalize hk : yielded (s.core n) = k
  have hgo : endYield s n = checkerYield (crSync (reportAex (s.setCore n k) n) n) n := by
    unfold endYield
    dsimp only
    rw [if_neg (by simp [hy, hsb, hd, hc]), ← hk]
    rfl
  have hcore : (s.setCore n k).core n = k := core_setCore_same ..
  have hrep := reportAex_rest (s := s.setCore n k) hu hfm hn
  have hslots : (s.setCore n k).slots = s.slots := rfl
  rw [hgo]
  generalize s.setCore n k = u at hcore hrep hslots
  generalize reportAex u n = v at hrep
  obtain ⟨hcr, hpend⟩ := crSync_pending v n
  generalize crSync v n = w at hcr hpend
  have hwslots : w.slots = s.slots := ((congrArg State.slots hcr :).trans (congrArg State.slots hrep :)).trans hslots
  have hwcores : w.cores = u.cores := (congrArg State.cores hcr :).trans (congrArg State.cores hrep :)
  have hck := checkerYield_checkerOnly (s := w) hn fun x hx => by
    rw [State.slot, hwslots]
    exact ha x hx
  refine ⟨?_, fun j hj => ?_⟩
  · rw [hck.core, State.core, hwcores]
    exact hcore
  · rw [crPending, hck.crPend]
    exact hpend j hj

theorem execYield_done {n : Fin 512} {s : State} (hi : issues s n = true) (hslot : (s.core n).slot = none) (hsb : (s.core n).sb = [])
    (ha : ∀ x < 4, (s.slot (n / 8) x).acts = []) :
    ∃ t, exec (.yield (.ce n)) s = .next t ∧ (t.core n).mode = .idle ∧ (t.core n).yielding = false ∧ (t.core n).infl = [] ∧
      (∀ j < 64, crPending t n j = none) ∧ ∀ r, r ≠ 0 → (∀ p ∈ (s.core n).infl, p.reg ≠ r) → reg t n r = reg s n r := by
  have hn := n.isLt
  obtain ⟨hup, -, -, hfar, hlong, -, hd, hc, -⟩ := issues_core hi
  have hdone := complete_completed s n []
  have hcore := complete_core s n []
  have hfr := complete_onlyCore s n [] []
  have hgo : exec (.yield (.ce n)) s = .next (endStep (noteDone s (endYield ((complete s n []).setCore n
      { (complete s n []).core n with yielding := true }) n) n) n) :=
    congrArg Host.Outcome.next (issue_issues { noSlot := true, ceOnly := true } _ hi (fun _ => hslot) (fun _ => hn) (by simp) (by simp) (by simp))
  rw [hgo]
  generalize complete s n [] = u at hdone hcore hfr
  have hself : (u.setCore n { u.core n with yielding := true }).core n = { u.core n with yielding := true } := core_setCore_same ..
  have hfm : (u.setCore n { u.core n with yielding := true }).fm = s.fm := (congrArg State.fm hfr.1 :)
  have hslots : (u.setCore n { u.core n with yielding := true }).slots = s.slots := (congrArg State.slots hfr.1 :)
  generalize u.setCore n { u.core n with yielding := true } = v at hself hfm hslots
  have hvsb : (v.core n).sb = [] := by rw [hself]; exact (congrArg CoreS.sb hdone.step :).trans hsb
  have hvd : (v.core n).divU = none := by rw [hself]; exact (congrArg CoreS.divU hdone.step :).trans hd
  have hvc : (v.core n).corU = none := by rw [hself]; exact (congrArg CoreS.corU hdone.step :).trans hc
  obtain ⟨hend, hpend⟩ := endYield_ended hup hfm hn (by rw [hself]) hvsb hvd hvc fun x hx => by
    rw [State.slot, hslots]
    exact ha x hx
  have hnote : noteDone s (endYield v n) n = endYield v n := if_neg fun h => absurd h.1 (by omega)
  have hrest := flushInfl_rest (v.core n)
  have hff : ((endYield v n).core n).far = none := by
    rw [hend]
    exact (congrArg CoreS.far hrest :).trans (by rw [hself]; exact (congrArg CoreS.far hdone.step :).trans hfar)
  have hfl : ((endYield v n).core n).long = none := by
    rw [hend]
    exact (congrArg CoreS.long hrest :).trans (by rw [hself]; exact (congrArg CoreS.long hdone.step :).trans hlong)
  have ht : (endStep (endYield v n) n).core n = { (endYield v n).core n with stepOne := false } :=
    endStep_core (by rw [hend]; rfl) hff hfl
  have htp : (endStep (endYield v n) n).crPend = (endYield v n).crPend := (congrArg State.crPend (endStep_onlyCore (endYield v n) n []).1 :)
  rw [hnote]
  refine ⟨_, rfl, by rw [ht, hend]; rfl, by rw [ht, hend]; rfl, by rw [ht, hend]; rfl, fun j hj => ?_, fun r hr hp => ?_⟩
  · rw [crPending, htp]
    exact hpend j hj
  · have hsub : ∀ p ∈ (v.core n).infl, p.reg ≠ r := fun p hp' => by
      refine hp p ?_
      rw [hself, hcore] at hp'
      exact finished_flight hp'
    have hbase : ((endStep (endYield v n) n).core n).base = (flushInfl (v.core n)).base := by rw [ht, hend]; rfl
    have hinfl : ((endStep (endYield v n) n).core n).infl = [] := by rw [ht, hend]; rfl
    rw [reg_baseReg hinfl hr, baseReg, hbase, flushInfl_base hr hsub, ← seen_base hr hsub, reg, hself]
    have hseen := hdone.regs r
    rw [produce_nil] at hseen
    refine ((seen_congr rfl rfl rfl r).trans hseen).trans ?_
    rw [seen_base hr hp]
    exact seen_base (k := next (s.core n)) hr hp

/-- Settles O26, instruction by instruction. -/
theorem orderingInstructionsComplete : Obligations.ordering_instructions_complete := by
  unfold Obligations.ordering_instructions_complete
  exact ⟨fun n s hi hslot hsb ha => execYield_done hi hslot hsb ha, fun n s hi hslot hlen => execCommit_done hi hslot hlen,
    fun n s hi => execCheck_done hi, fun v s hi hpriv hsb => execFence_done hi hpriv hsb,
    fun v s => ⟨fun hi hpriv hslot => execWfi_done hi hpriv hslot, fun hu hm hh hs => execWfiEnd_done hu hm hh hs,
      fun h => execWfiEnd_unsignalled h⟩⟩

end Sys2Proof.Pipeline
end

section
namespace Sys2Proof.Pipeline
open Sys2Proof Sys2Proof.Machine Sys2Proof.Safety Sys2Proof.Laws
open Sys2Proof.Proofs hiding stepped zeroWord

/-! ### What a binary32 word stands for (R163) -/

/-- Sign, exponent and fraction make the word. -/
theorem word_ext {a b : Word} (hs : bitOf a 31 = bitOf b 31) (hx : fld a 30 23 = fld b 30 23) (hf : fld a 22 0 = fld b 22 0) : a = b := by
  refine BitVec.eq_of_getLsbD_eq fun i hi => ?_
  rw [← bitOf_eq_getLsbD, ← bitOf_eq_getLsbD]
  by_cases h22 : i ≤ 22
  · have h := congrArg (Nat.testBit · i) hf
    simpa [testBit_fld, show i < 22 + 1 - 0 by omega] using h
  · by_cases h30 : i ≤ 30
    · have h := congrArg (Nat.testBit · (i - 23)) hx
      simpa [testBit_fld, show i - 23 < 30 + 1 - 23 by omega, show 23 + (i - 23) = i by omega] using h
    · rw [show i = 31 by omega, hs]

/-- The size of a word's number in units of 2^−149, an infinity or a NaN by the same reading of its fields. -/
def scaled (w : Word) : Nat := if fld w 30 23 = 0 then fld w 22 0 else (2 ^ 23 + fld w 22 0) * 2 ^ (fld w 30 23 - 1)

/-- A word's number in units of 2^−149. -/
def signed (w : Word) : Int := (if bitOf w 31 then -1 else 1) * scaled w

/-- The size of an infinity. -/
def infSize : Nat := 2 ^ 23 * 2 ^ 254

theorem numOf_eq (w : Word) : numOf w = (signed w : ℚ) / 2 ^ 149 := by
  have hsize : (if fld w 30 23 = 0 then (fld w 22 0 : ℚ) / 2 ^ 149
      else ((2 ^ 23 + fld w 22 0 : ℕ) : ℚ) * 2 ^ ((fld w 30 23 : ℤ) - 150)) = (scaled w : ℚ) / 2 ^ 149 := by
    unfold scaled
    split
    · rfl
    next hx =>
      have he : ((fld w 30 23 : ℤ) - 150) = ((fld w 30 23 - 1 : ℕ) : ℤ) - ((149 : ℕ) : ℤ) := by omega
      rw [he, zpow_sub₀ (by norm_num), zpow_natCast, zpow_natCast]
      push_cast
      ring
  rw [numOf, hsize, signed]
  push_cast
  split <;> ring

theorem fraction_lt (w : Word) : fld w 22 0 < 2 ^ 23 := fld_lt ..

theorem exponent_lt (w : Word) : fld w 30 23 < 256 := fld_lt w 30 23

/-- The sizes of one exponent lie below those of the next. -/
theorem scaled_lt (w : Word) : scaled w < 2 ^ 23 * 2 ^ fld w 30 23 := by
  have hf := fraction_lt w
  unfold scaled
  split
  next hx => rw [hx]; omega
  next hx =>
    obtain ⟨x, hx'⟩ := Nat.exists_eq_succ_of_ne_zero hx
    rw [hx', Nat.succ_sub_one, Nat.pow_succ]
    calc (2 ^ 23 + fld w 22 0) * 2 ^ x < (2 ^ 23 + 2 ^ 23) * 2 ^ x :=
          Nat.mul_lt_mul_of_pos_right (Nat.add_lt_add_left hf _) (Nat.two_pow_pos x)
      _ = 2 ^ 23 * (2 ^ x * 2) := by ring

theorem le_scaled (w : Word) (hx : fld w 30 23 ≠ 0) : 2 ^ 23 * 2 ^ (fld w 30 23 - 1) ≤ scaled w := by
  rw [scaled, if_neg hx]
  exact Nat.mul_le_mul_right _ (Nat.le_add_right ..)

theorem scaled_lt_of_exponent {a b : Word} (h : fld a 30 23 < fld b 30 23) : scaled a < scaled b :=
  (scaled_lt a).trans_le ((Nat.mul_le_mul_left _ (Nat.pow_le_pow_right (by decide) (by omega))).trans (le_scaled b (by omega)))

/-- Words of one size have the same fields. -/
theorem fields_of_scaled {a b : Word} (h : scaled a = scaled b) : fld a 30 23 = fld b 30 23 ∧ fld a 22 0 = fld b 22 0 := by
  have hx : fld a 30 23 = fld b 30 23 := by
    rcases Nat.lt_trichotomy (fld a 30 23) (fld b 30 23) with hlt | heq | hgt
    · exact absurd h (scaled_lt_of_exponent hlt).ne
    · exact heq
    · exact absurd h (scaled_lt_of_exponent hgt).ne'
  refine ⟨hx, ?_⟩
  unfold scaled at h
  rw [hx] at h
  split at h
  · exact h
  · have := Nat.eq_of_mul_eq_mul_right (Nat.two_pow_pos _) h
    omega

theorem word_of_signed {a b : Word} (hs : bitOf a 31 = bitOf b 31) (h : signed a = signed b) : a = b := by
  have hn : scaled a = scaled b := by
    unfold signed at h
    rw [hs] at h
    split at h <;> omega
  exact word_ext hs (fields_of_scaled hn).1 (fields_of_scaled hn).2

/-! ### NaNs, infinities and finite words -/

theorem word_kinds (w : Word) : isNanWord w = true ∨ isInfWord w = true ∨ finiteWord w = true := by
  unfold isNanWord isInfWord finiteWord
  by_cases hx : fld w 30 23 = 255 <;> by_cases hf : fld w 22 0 = 0 <;> simp [hx, hf]

theorem isNan_fval (w : Word) : isNan (fval w) = isNanWord w := by
  unfold fval isNanWord
  by_cases hx : fld w 30 23 = 255
  · by_cases hf : fld w 22 0 = 0
    · simp [hx, hf, isNan]
    · cases bitOf w 22 <;> simp [hx, hf, isNan]
  · by_cases h0 : fld w 30 23 = 0
    · simp [h0, isNan]
    · have hfin (m : Nat) (e : Int) : isNan (.fin (bitOf w 31) m e) = false := rfl
      simp [hx, h0, hfin]

theorem snan_fval (w : Word) : (fval w == .snan) = Safety.signals w := by
  unfold fval Safety.signals isNanWord
  by_cases hx : fld w 30 23 = 255
  · by_cases hf : fld w 22 0 = 0
    · simp [hx, hf]
    · cases bitOf w 22 <;> simp [hx, hf]
  · by_cases h0 : fld w 30 23 = 0
    · simp [h0]
    · have hfin (m : Nat) (e : Int) : (FVal.fin (bitOf w 31) m e == .snan) = false := rfl
      simp [hx, h0, hfin]

theorem not_signals {w : Word} (h : isNanWord w = false) : Safety.signals w = false := by rw [Safety.signals, h, Bool.false_and]

theorem inf_fields {w : Word} (h : isInfWord w = true) : fld w 30 23 = 255 ∧ fld w 22 0 = 0 := by
  simpa [isInfWord] using h

theorem inf_not_nan {w : Word} (h : isInfWord w = true) : isNanWord w = false := by
  simp [isNanWord, (inf_fields h).2]

theorem finite_exponent {w : Word} (h : finiteWord w = true) : fld w 30 23 ≠ 255 := by simpa [finiteWord] using h

theorem finite_not_nan {w : Word} (h : finiteWord w = true) : isNanWord w = false := by
  simp [isNanWord, finite_exponent h]

theorem finite_not_inf {w : Word} (h : finiteWord w = true) : isInfWord w = false := by
  simp [isInfWord, finite_exponent h]

theorem fval_inf {w : Word} (h : isInfWord w = true) : fval w = .inf (bitOf w 31) := by
  obtain ⟨hx, hf⟩ := inf_fields h
  simp [fval, hx, hf]

theorem scaled_inf {w : Word} (h : isInfWord w = true) : scaled w = infSize := by
  obtain ⟨hx, hf⟩ := inf_fields h
  simp [scaled, hx, hf, infSize]

theorem scaled_finite {w : Word} (h : finiteWord w = true) : scaled w < infSize := by
  have hx := finite_exponent h
  have hlt := exponent_lt w
  exact (scaled_lt w).trans_le (Nat.mul_le_mul_left _ (Nat.pow_le_pow_right (by decide) (by omega)))

theorem scaled_nan {w : Word} (h : isNanWord w = true) : scaled w ≠ 0 := by
  have hx : fld w 30 23 ≠ 0 := fun e => by simp [isNanWord, e] at h
  have hle := le_scaled w hx
  have hp := Nat.two_pow_pos (fld w 30 23 - 1)
  omega

/-- The mantissa and the exponent of a finite word. -/
def mantOf (w : Word) : Nat := if fld w 30 23 = 0 then fld w 22 0 else fld w 22 0 + 2 ^ 23
def expOf (w : Word) : Int := if fld w 30 23 = 0 then -149 else fld w 30 23 - 150

theorem fval_finite {w : Word} (h : finiteWord w = true) : fval w = .fin (bitOf w 31) (mantOf w) (expOf w) := by
  unfold fval mantOf expOf
  dsimp only
  rw [if_neg (finite_exponent h)]
  split <;> rfl

theorem expOf_range {w : Word} (h : finiteWord w = true) : -149 ≤ expOf w ∧ expOf w ≤ 104 := by
  have hx := finite_exponent h
  have hlt := exponent_lt w
  unfold expOf
  split <;> omega

theorem mantOf_expOf (w : Word) : mantOf w * 2 ^ (expOf w + 149).toNat = scaled w := by
  unfold mantOf expOf scaled
  split
  · exact Nat.mul_one _
  next hx =>
    rw [show ((fld w 30 23 : Int) - 150 + 149).toNat = fld w 30 23 - 1 by omega, Nat.add_comm]

theorem mantOf_eq_zero (w : Word) : mantOf w = 0 ↔ scaled w = 0 := by
  rw [← mantOf_expOf w]
  simp

/-- The number of a finite word. -/
theorem atExp_min (w : Word) : atExp (bitOf w 31) (mantOf w) (expOf w) (-149) = signed w := by
  rw [atExp, show expOf w - -149 = expOf w + 149 by omega, mantOf_expOf, signed]

/-- A mantissa at a lower exponent. -/
theorem atExp_mul (s : Bool) (m : Nat) {e e0 : Int} (h0 : -149 ≤ e0) (he : e0 ≤ e) :
    atExp s m e e0 * 2 ^ (e0 + 149).toNat = atExp s m e (-149) := by
  unfold atExp
  rw [mul_assoc]
  congr 1
  rw [show (e - -149).toNat = (e - e0).toNat + (e0 + 149).toNat by omega, pow_add]
  push_cast
  ring

/-! ### The words of a sign -/

theorem bitOf_infWord (s : Bool) : bitOf (infWord s) 31 = s := by cases s <;> rfl
theorem bitOf_zeroWord (s : Bool) : bitOf (zeroWord s) 31 = s := by cases s <;> rfl
theorem isInf_infWord (s : Bool) : isInfWord (infWord s) = true := by cases s <;> rfl
theorem scaled_zeroWord (s : Bool) : scaled (zeroWord s) = 0 := by cases s <;> rfl

theorem infWord_of {w : Word} (h : isInfWord w = true) : infWord (bitOf w 31) = w := by
  have hf := fields_of_scaled ((scaled_inf (isInf_infWord (bitOf w 31))).trans (scaled_inf h).symm)
  exact word_ext (bitOf_infWord _) hf.1 hf.2

theorem zeroWord_of {w : Word} (h : scaled w = 0) : zeroWord (bitOf w 31) = w := by
  have hf := fields_of_scaled ((scaled_zeroWord (bitOf w 31)).trans h.symm)
  exact word_ext (bitOf_zeroWord _) hf.1 hf.2

theorem infWord_inj {s t : Bool} : infWord s = infWord t ↔ s = t :=
  ⟨fun h => by rw [← bitOf_infWord s, h, bitOf_infWord], congrArg _⟩

theorem and_sign (w : Word) : w &&& 0x80000000 = zeroWord (bitOf w 31) := by
  refine BitVec.eq_of_getLsbD_eq fun i hi => ?_
  have hz (s : Bool) : (zeroWord s).getLsbD i = (s && decide (i = 31)) := by
    cases s
    · simp [zeroWord, signBit, wd]
    · rw [show zeroWord true = BitVec.twoPow 32 31 by decide, BitVec.getLsbD_twoPow]
      simp [eq_comm]
  rw [BitVec.getLsbD_and, show (0x80000000 : Word) = zeroWord true from rfl, hz, hz]
  by_cases h : i = 31
  · subst h; simp [bitOf_eq_getLsbD]
  · simp [h]

theorem xor_sign (a b : Word) : (a ^^^ b) &&& 0x80000000 = zeroWord (bitOf a 31 != bitOf b 31) := by
  rw [and_sign, bitOf_eq_getLsbD, BitVec.getLsbD_xor, ← bitOf_eq_getLsbD, ← bitOf_eq_getLsbD]

theorem inf_or_sign (s : Bool) : 0x7F800000 ||| zeroWord s = infWord s := by cases s <;> rfl

theorem signed_eq_zero {w : Word} : signed w = 0 ↔ scaled w = 0 := by
  unfold signed
  split <;> omega

theorem numOf_eq_zero {w : Word} : numOf w = 0 ↔ scaled w = 0 := by
  rw [numOf_eq, div_eq_zero_iff, ← signed_eq_zero]
  simp

theorem numOf_lt {a b : Word} : numOf a < numOf b ↔ signed a < signed b := by
  rw [numOf_eq, numOf_eq, div_lt_div_iff_of_pos_right (by positivity), Int.cast_lt]

theorem numOf_inj {a b : Word} : numOf a = numOf b ↔ signed a = signed b := by
  rw [numOf_eq, numOf_eq, div_left_inj' (by positivity), Int.cast_inj]

theorem numOf_neg {w : Word} : numOf w < 0 ↔ bitOf w 31 = true ∧ scaled w ≠ 0 := by
  rw [numOf_eq, div_lt_iff₀ (by positivity), zero_mul, Int.cast_lt_zero, signed]
  cases bitOf w 31
  · simp
  · simp [Nat.pos_iff_ne_zero]

end Sys2Proof.Pipeline
end

section
namespace Sys2Proof.Pipeline
open Sys2Proof Sys2Proof.Machine Sys2Proof.Safety Sys2Proof.Laws
open Sys2Proof.Proofs hiding stepped zeroWord

/-! ### NaN operands (R148, R163) -/

/-- The INV bit of the words `xs`. -/
def invOf (xs : List Word) : Nat := if xs.any Safety.signals then 2 else 0

theorem nanRes_words (xs : List Word) : nanRes (xs.map fval) = { val := 0x7FC00000, aex := invOf xs } := by
  unfold nanRes invOf
  rw [List.any_map]
  simp only [Function.comp_def, snan_fval]
  split <;> rfl

theorem snanBit_words (a b : Word) : snanBit (fval a) (fval b) = invOf [a, b] := by
  unfold snanBit invOf
  simp only [snan_fval, List.any_cons, List.any_nil, Bool.or_false]
  rfl

theorem invOf_numbers {a b : Word} (ha : isNanWord a = false) (hb : isNanWord b = false) : invOf [a, b] = 0 := by
  simp [invOf, not_signals ha, not_signals hb]

theorem fAdd_nan {a b : Word} (h : (isNanWord a || isNanWord b) = true) : fAdd a b = { val := 0x7FC00000, aex := invOf [a, b] } := by
  rw [← isNan_fval, ← isNan_fval] at h
  exact (if_pos h).trans (nanRes_words [a, b])

theorem fMul_nan {a b : Word} (h : (isNanWord a || isNanWord b) = true) : fMul a b = { val := 0x7FC00000, aex := invOf [a, b] } := by
  rw [← isNan_fval, ← isNan_fval] at h
  exact (if_pos h).trans (nanRes_words [a, b])

theorem fDiv_nan {a b : Word} (h : (isNanWord a || isNanWord b) = true) : fDiv a b = { val := 0x7FC00000, aex := invOf [a, b] } := by
  rw [← isNan_fval, ← isNan_fval] at h
  exact (if_pos h).trans (nanRes_words [a, b])

theorem fSqrt_nan {a : Word} (h : isNanWord a = true) : fSqrt a = { val := 0x7FC00000, aex := invOf [a] } := by
  have hs := snan_fval a
  rw [← isNan_fval] at h
  unfold fSqrt invOf
  simp only [List.any_cons, List.any_nil, Bool.or_false, ← hs]
  cases hv : fval a with
  | fin s m e => rw [hv] at h; exact absurd h (by simp [isNan])
  | inf s => rw [hv] at h; exact absurd h (by simp [isNan])
  | qnan => rfl
  | snan => rfl

/-- A product of two numbers has no value exactly where one is an infinity and the other 0. -/
theorem mulV_none {a b : Word} (ha : isNanWord a = false) (hb : isNanWord b = false) :
    mulV (fval a) (fval b) = none ↔ (isInfWord a && numOf b == 0 || numOf a == 0 && isInfWord b) = true := by
  have hz {w : Word} (h : finiteWord w = true) : (numOf w == 0) = decide (mantOf w = 0) := by
    rw [beq_eq_decide]
    exact decide_eq_decide.2 (numOf_eq_zero.trans (mantOf_eq_zero w).symm)
  have hinf {w : Word} (h : isInfWord w = true) : (numOf w == 0) = false := by
    rw [beq_eq_false_iff_ne, Ne, numOf_eq_zero, scaled_inf h]
    decide
  rcases (word_kinds a).resolve_left (by simp [ha]) with hia | hfa <;> rcases (word_kinds b).resolve_left (by simp [hb]) with hib | hfb
  · simp [fval_inf hia, fval_inf hib, mulV, hinf hia, hinf hib]
  · by_cases h0 : mantOf b = 0 <;>
      simp [fval_inf hia, fval_finite hfb, mulV, hia, hz hfb, finite_not_inf hfb, h0]
  · by_cases h0 : mantOf a = 0 <;>
      simp [fval_finite hfa, fval_inf hib, mulV, hib, hz hfa, finite_not_inf hfa, h0]
  · simp [fval_finite hfa, fval_finite hfb, mulV, finite_not_inf hfa, finite_not_inf hfb]

theorem fMa_nan {a b d : Word} (h : (isNanWord a || isNanWord b || isNanWord d) = true) : fMa a b d =
    { val := 0x7FC00000, aex := if isInfWord a && numOf b == 0 || numOf a == 0 && isInfWord b then 2 else invOf [a, b, d] } := by
  have hnz {w : Word} (h : isNanWord w = true) : isInfWord w = false ∧ (numOf w == 0) = false := by
    refine ⟨?_, ?_⟩
    · cases hi : isInfWord w
      · rfl
      · rw [inf_not_nan hi] at h; exact h.symm
    · rw [beq_eq_false_iff_ne, Ne, numOf_eq_zero]
      exact scaled_nan h
  unfold fMa
  dsimp only
  by_cases hab : (isNanWord a || isNanWord b) = true
  · rw [if_pos (by rw [isNan_fval, isNan_fval]; exact hab), if_neg ?_]
    · exact nanRes_words [a, b, d]
    · rcases Bool.or_eq_true _ _ ▸ hab with hn | hn <;> simp [hnz hn]
  · rw [Bool.not_eq_true, Bool.or_eq_false_iff] at hab
    obtain ⟨ha, hb⟩ := hab
    have hd : isNanWord d = true := by simpa [ha, hb] using h
    have hnone := mulV_none ha hb
    rw [if_neg (by rw [isNan_fval, isNan_fval, ha, hb]; decide)]
    cases hm : mulV (fval a) (fval b) with
    | none => rw [if_pos (hnone.1 hm)]; rfl
    | some p =>
      dsimp only
      have hne : ¬ (isInfWord a && numOf b == 0 || numOf a == 0 && isInfWord b) = true := fun e => by
        rw [hnone.2 e] at hm
        exact absurd hm (by simp)
      rw [if_pos ((isNan_fval d).trans hd), if_neg hne]
      have hinv : invOf [d] = invOf [a, b, d] := by simp [invOf, not_signals ha, not_signals hb]
      rw [← hinv]
      exact nanRes_words [d]

/-! ### Sums and products in either order (R163) -/

theorem nanRes_perm {xs ys : List FVal} (h : xs.Perm ys) : nanRes xs = nanRes ys := by
  unfold nanRes
  rw [h.any_eq]

theorem fAddV_comm (x y : FVal) : fAddV x y = fAddV y x := by
  unfold fAddV
  rw [Bool.or_comm, nanRes_perm (List.Perm.swap y x [])]
  refine if_congr Iff.rfl rfl ?_
  cases x <;> cases y
  case fin.fin s m e t n f => simp only [min_comm e f, add_comm (atExp s m e _), Bool.and_comm s t]
  case inf.inf s t =>
    by_cases h : s = t
    · subst h; rfl
    · simp [h, Ne.symm h]
  all_goals rfl

theorem mulV_comm (x y : FVal) : mulV x y = mulV y x := by
  have hb (s t : Bool) : (s != t) = (t != s) := Bool.xor_comm s t
  cases x <;> cases y
  case fin.fin s m e t n f => simp only [mulV, hb s t, Nat.mul_comm m n, add_comm e f]
  case inf.inf s t => simp only [mulV, hb s t]
  case inf.fin s t n f => simp only [mulV, hb s t]
  case fin.inf s m e t => simp only [mulV, hb s t]
  all_goals rfl

theorem fAdd_comm (a b : Word) : fAdd a b = fAdd b a := fAddV_comm ..

theorem fMul_comm (a b : Word) : fMul a b = fMul b a := by
  unfold fMul
  dsimp only
  rw [Bool.or_comm, nanRes_perm (List.Perm.swap _ _ []), mulV_comm]

theorem fMa_comm (a b d : Word) : fMa a b d = fMa b a d := by
  unfold fMa
  dsimp only
  rw [Bool.or_comm (isNan (fval a)), nanRes_perm (List.Perm.swap (fval b) (fval a) [fval d]), mulV_comm (fval a)]

/-! ### Infinities and zeros (R148, R163) -/

theorem signBit_xor (a b : Word) : infWord (bitOf a 31 != bitOf b 31) = 0x7F800000 ||| ((a ^^^ b) &&& 0x80000000) := by
  rw [xor_sign]
  exact (inf_or_sign _).symm

theorem numbers {a b : Word} (ha : isNanWord a = false) (hb : isNanWord b = false) : ¬ (isNan (fval a) || isNan (fval b)) = true := by
  rw [isNan_fval, isNan_fval, ha, hb]
  decide

section
variable {a b d : Word}

theorem fAdd_inf (ha : isInfWord a = true) (hb : isNanWord b = false) :
    fAdd a b = if isInfWord b = true ∧ a ≠ b then { val := 0x7FC00000, aex := 2 } else { val := a } := by
  refine (if_neg (numbers (inf_not_nan ha) hb)).trans ?_
  rw [fval_inf ha]
  rcases (word_kinds b).resolve_left (by simp [hb]) with hi | hf
  · rw [fval_inf hi]
    dsimp only
    have hab : a ≠ b ↔ ¬ bitOf a 31 = bitOf b 31 :=
      not_congr ⟨congrArg (bitOf · 31), fun h => by rw [← infWord_of ha, ← infWord_of hi, h]⟩
    by_cases h : bitOf a 31 = bitOf b 31
    · rw [if_pos h, if_neg fun e => hab.1 e.2 h, infWord_of ha]
    · rw [if_neg h, if_pos ⟨hi, hab.2 h⟩]
      rfl
  · rw [fval_finite hf, if_neg fun e => by rw [finite_not_inf hf] at e; exact absurd e.1 Bool.false_ne_true]
    exact congrArg (fun w => ({ val := w } : Res)) (infWord_of ha)

theorem mulV_inf (ha : isInfWord a = true) (hb : isNanWord b = false) : mulV (fval a) (fval b) =
    if numOf b = 0 then none else some (.inf (bitOf a 31 != bitOf b 31)) := by
  rw [fval_inf ha]
  rcases (word_kinds b).resolve_left (by simp [hb]) with hi | hf
  · rw [fval_inf hi, if_neg]
    · rfl
    · rw [numOf_eq_zero, scaled_inf hi]
      decide
  · rw [fval_finite hf]
    exact if_congr ((mantOf_eq_zero b).trans numOf_eq_zero.symm) rfl rfl

theorem fMul_inf (ha : isInfWord a = true) (hb : isNanWord b = false) : fMul a b =
    if numOf b = 0 then { val := 0x7FC00000, aex := 2 } else { val := 0x7F800000 ||| ((a ^^^ b) &&& 0x80000000) } := by
  rw [fMul, if_neg (numbers (inf_not_nan ha) hb), mulV_inf ha hb, ← signBit_xor]
  by_cases h0 : numOf b = 0
  · rw [if_pos h0, if_pos h0]
    rfl
  · rw [if_neg h0, if_neg h0]
    rfl

theorem fDiv_inf (ha : isInfWord a = true) (hb : isNanWord b = false) : fDiv a b =
    if isInfWord b = true then { val := 0x7FC00000, aex := 2 } else { val := 0x7F800000 ||| ((a ^^^ b) &&& 0x80000000) } := by
  rw [fDiv, if_neg (numbers (inf_not_nan ha) hb), fval_inf ha, ← signBit_xor]
  rcases (word_kinds b).resolve_left (by simp [hb]) with hi | hf
  · rw [fval_inf hi, if_pos hi]
    rfl
  · rw [fval_finite hf, if_neg (by rw [finite_not_inf hf]; decide)]

theorem fDiv_by_inf (ha : isInfWord a = true) (hb : isNanWord b = false) : fDiv b a =
    if isInfWord b = true then { val := 0x7FC00000, aex := 2 } else { val := (a ^^^ b) &&& 0x80000000 } := by
  rw [fDiv, if_neg (numbers hb (inf_not_nan ha)), fval_inf ha, BitVec.xor_comm, xor_sign]
  rcases (word_kinds b).resolve_left (by simp [hb]) with hi | hf
  · rw [fval_inf hi, if_pos hi]
    rfl
  · rw [fval_finite hf, if_neg (by rw [finite_not_inf hf]; decide)]

theorem fSqrt_inf (ha : isInfWord a = true) : fSqrt a = if a = 0x7F800000 then { val := a } else { val := 0x7FC00000, aex := 2 } := by
  have hpos : a = 0x7F800000 ↔ bitOf a 31 = false := by
    rw [show (0x7F800000 : Word) = infWord false from rfl, ← infWord_of ha, infWord_inj, bitOf_infWord]
  rw [fSqrt, fval_inf ha]
  dsimp only
  by_cases h : bitOf a 31 = true
  · rw [if_pos h, if_neg fun e => by rw [hpos.1 e] at h; exact absurd h Bool.false_ne_true]
    rfl
  · rw [if_neg h, if_pos (hpos.2 (Bool.not_eq_true _ ▸ h)), hpos.2 (Bool.not_eq_true _ ▸ h)]
    rfl

theorem fMa_inf (ha : isInfWord a = true) (hb : isNanWord b = false) (hd : isNanWord d = false) : fMa a b d =
    if numOf b = 0 then { val := 0x7FC00000, aex := 2 } else fAdd (0x7F800000 ||| ((a ^^^ b) &&& 0x80000000)) d := by
  rw [fMa, if_neg (numbers (inf_not_nan ha) hb), mulV_inf ha hb, ← signBit_xor]
  by_cases h0 : numOf b = 0
  · rw [if_pos h0, if_pos h0]
    rfl
  · rw [if_neg h0, if_neg h0]
    dsimp only
    rw [if_neg (by rw [isNan_fval, hd]; decide), fAdd, fval_inf (isInf_infWord _), bitOf_infWord, fAddV_comm]

theorem fMa_add_inf (ha : isInfWord a = true) (hb : finiteWord b = true) (hd : finiteWord d = true) : fMa b d a = { val := a } := by
  rw [fMa, if_neg (numbers (finite_not_nan hb) (finite_not_nan hd)), fval_finite hb, fval_finite hd, fval_inf ha]
  dsimp only [mulV]
  exact congrArg (fun w => ({ val := w } : Res)) (infWord_of ha)

theorem fDiv_zero (ha : finiteWord a = true) (hb : numOf b = 0) : fDiv a b =
    if numOf a = 0 then { val := 0x7FC00000, aex := 2 } else { val := (a &&& 0x80000000) ||| 0x7F7FFFFF, aex := 1 } := by
  have hsb := numOf_eq_zero.1 hb
  have hfb : finiteWord b = true := by
    rcases word_kinds b with hn | hi | hf
    · exact absurd hsb (scaled_nan hn)
    · rw [scaled_inf hi] at hsb
      exact absurd hsb (by decide)
    · exact hf
  have hlargest (s : Bool) : wd (signBit s + 0x7F7FFFFF) = zeroWord s ||| 0x7F7FFFFF := by cases s <;> rfl
  rw [fDiv, if_neg (numbers (finite_not_nan ha) (finite_not_nan hfb)), fval_finite ha, fval_finite hfb, and_sign, ← hlargest]
  dsimp only
  rw [if_pos ((mantOf_eq_zero b).2 hsb)]
  exact if_congr ((mantOf_eq_zero a).trans numOf_eq_zero.symm) rfl rfl

theorem fSqrt_zero (h : numOf a = 0) : fSqrt a = { val := a } := by
  have hs := numOf_eq_zero.1 h
  have hf : finiteWord a = true := by
    rcases word_kinds a with hn | hi | hf
    · exact absurd hs (scaled_nan hn)
    · rw [scaled_inf hi] at hs
      exact absurd hs (by decide)
    · exact hf
  rw [fSqrt, fval_finite hf]
  dsimp only
  rw [if_pos ((mantOf_eq_zero a).2 hs), zeroWord_of hs]

theorem fSqrt_negative (hn : isNanWord a = false) (h : numOf a < 0) : fSqrt a = { val := 0x7FC00000, aex := 2 } := by
  obtain ⟨hs, hz⟩ := numOf_neg.1 h
  rcases (word_kinds a).resolve_left (by simp [hn]) with hi | hf
  · rw [fSqrt, fval_inf hi, hs]
    rfl
  · rw [fSqrt, fval_finite hf, hs]
    dsimp only
    rw [if_neg fun e => hz ((mantOf_eq_zero a).1 e)]
    rfl

end

end Sys2Proof.Pipeline
end

section
namespace Sys2Proof.Pipeline
open Sys2Proof Sys2Proof.Machine Sys2Proof.Safety Sys2Proof.Laws
open Sys2Proof.Proofs hiding stepped zeroWord

/-! ### Order of numbers (R163) -/

theorem signed_inf {w : Word} (h : isInfWord w = true) : signed w = (if bitOf w 31 then -1 else 1) * (infSize : Int) := by
  unfold signed
  rw [scaled_inf h]

theorem signed_finite {w : Word} (h : finiteWord w = true) : -(infSize : Int) < signed w ∧ signed w < infSize := by
  have hlt := scaled_finite h
  unfold signed
  split <;> omega

section
variable {a b : Word}

theorem fLt_signed (ha : isNanWord a = false) (hb : isNanWord b = false) : fLt (fval a) (fval b) = decide (signed a < signed b) := by
  have hpos : 0 < infSize := by unfold infSize; positivity
  rcases (word_kinds a).resolve_left (by simp [ha]) with hia | hfa <;> rcases (word_kinds b).resolve_left (by simp [hb]) with hib | hfb
  · have ha' := signed_inf hia
    have hb' := signed_inf hib
    rw [fval_inf hia, fval_inf hib]
    refine Bool.eq_iff_iff.2 ?_
    generalize infSize = i at hpos ha' hb'
    generalize bitOf a 31 = s at ha' ⊢
    generalize bitOf b 31 = t at hb' ⊢
    cases s <;> cases t <;> simp [fLt] at ha' hb' ⊢ <;> omega
  · have ha' := signed_inf hia
    have hb' := signed_finite hfb
    rw [fval_inf hia, fval_finite hfb]
    refine Bool.eq_iff_iff.2 ?_
    generalize infSize = i at hpos ha' hb'
    generalize bitOf a 31 = s at ha' ⊢
    cases s <;> simp [fLt] at ha' ⊢ <;> omega
  · have ha' := signed_finite hfa
    have hb' := signed_inf hib
    rw [fval_finite hfa, fval_inf hib]
    refine Bool.eq_iff_iff.2 ?_
    generalize infSize = i at hpos ha' hb'
    generalize bitOf b 31 = t at hb' ⊢
    cases t <;> simp [fLt] at hb' ⊢ <;> omega
  · obtain ⟨hea, -⟩ := expOf_range hfa
    obtain ⟨heb, -⟩ := expOf_range hfb
    have h0 : -149 ≤ min (expOf a) (expOf b) := le_min hea heb
    rw [fval_finite hfa, fval_finite hfb]
    refine decide_eq_decide.2 ?_
    rw [← atExp_min a, ← atExp_min b, ← atExp_mul _ _ h0 (min_le_left ..), ← atExp_mul _ _ h0 (min_le_right ..)]
    exact (Int.mul_lt_mul_right (by positivity)).symm

theorem fLt_words (ha : isNanWord a = false) (hb : isNanWord b = false) : fLt (fval a) (fval b) = decide (numOf a < numOf b) :=
  (fLt_signed ha hb).trans (decide_eq_decide.2 numOf_lt.symm)

theorem fEq_words (ha : isNanWord a = false) (hb : isNanWord b = false) : fEq (fval a) (fval b) = (numOf a == numOf b) := by
  rw [fEq, isNan_fval, isNan_fval, ha, hb, fLt_words ha hb, fLt_words hb ha, beq_eq_decide]
  rcases lt_trichotomy (numOf a) (numOf b) with h | h | h
  · simp [h, h.ne]
  · simp [h]
  · simp [h, h.ne']

/-- A compare of two words. -/
theorem fCmp_words (rel : FVal → FVal → Bool) (p : Bool) (h : isNanWord a = false → isNanWord b = false → rel (fval a) (fval b) = p) :
    fCmp rel a b = { val := if !isNanWord a && !isNanWord b && p then 1 else 0, aex := invOf [a, b] } := by
  rw [fCmp, snanBit_words, isNan_fval, isNan_fval]
  congr 1
  by_cases hn : isNanWord a = false ∧ isNanWord b = false
  · obtain ⟨ha, hb⟩ := hn
    rw [h ha hb, ha, hb]
    cases p <;> rfl
  · rcases not_and_or.1 hn with h' | h' <;> simp [Bool.not_eq_false _ ▸ h', b2n, wd]

theorem fMinMax_nan (big : Bool) (ha : isNanWord a = true) :
    fMinMax big a b = { val := if isNanWord b then 0x7FC00000 else b, aex := invOf [a, b] } := by
  rw [fMinMax, snanBit_words, isNan_fval, isNan_fval, ha]
  cases isNanWord b <;> rfl

theorem fMinMax_nan_right (big : Bool) (ha : isNanWord a = true) :
    fMinMax big b a = { val := if isNanWord b then 0x7FC00000 else b, aex := invOf [a, b] } := by
  have hinv : invOf [b, a] = invOf [a, b] := by
    unfold invOf
    rw [(List.Perm.swap a b []).any_eq]
  rw [fMinMax, snanBit_words, isNan_fval, isNan_fval, ha, hinv]
  cases isNanWord b <;> rfl

theorem fMinMax_numbers (big : Bool) (ha : isNanWord a = false) (hb : isNanWord b = false) : fMinMax big a b =
    { val := if (decide (numOf a < numOf b) || (numOf a == numOf b && bitOf a 31)) != big then a else b } := by
  rw [fMinMax, snanBit_words, isNan_fval, isNan_fval, ha, hb, fLt_words ha hb, fEq_words ha hb, invOf_numbers ha hb]
  rfl

/-- The smaller of two numbers, −0 below +0, is the minimum in either order. -/
theorem fMinMax_less (big : Bool) (ha : isNanWord a = false) (hb : isNanWord b = false)
    (h : numOf a < numOf b ∨ (numOf a = numOf b ∧ bitOf a 31 = true)) :
    fMinMax big a b = { val := if big then b else a } ∧ fMinMax big b a = { val := if big then b else a } := by
  have hl : (decide (numOf a < numOf b) || (numOf a == numOf b && bitOf a 31)) = true := by
    rcases h with h | ⟨h, hs⟩
    · simp [h]
    · simp [h, hs]
  refine ⟨?_, ?_⟩
  · rw [fMinMax_numbers big ha hb, hl]
    cases big <;> rfl
  · rw [fMinMax_numbers big hb ha]
    rcases h with h | ⟨h, hs⟩
    · rw [decide_eq_false h.le.not_gt, beq_eq_false_iff_ne.2 h.ne']
      cases big <;> rfl
    · rw [h, decide_eq_false (lt_irrefl _), beq_self_eq_true]
      cases hb31 : bitOf b 31
      · cases big <;> rfl
      · rw [word_of_signed (hs.trans hb31.symm) (numOf_inj.1 h)]
        cases big <;> rfl

end

/-! ### Conversions to integers (R163) -/

/-- A signed whole number of size `n`. -/
def signedNat (s : Bool) (n : Nat) : Int := if s then -(n : Int) else n

theorem wdi_limits (s : Bool) : wdi (if s then -2 ^ 31 else 2 ^ 31 - 1) = if s then 0x80000000 else 0x7FFFFFFF := by cases s <;> rfl

/-- A result beyond the format. -/
theorem satRes_over (s : Bool) {n : Nat} (h : 2 ^ 31 < n) (bit : Nat) :
    satRes (signedNat s n) bit = { val := if s then 0x80000000 else 0x7FFFFFFF, aex := bit } := by
  have hmax : max (-2 ^ 31) (min (2 ^ 31 - 1) (signedNat s n)) = if s then -2 ^ 31 else 2 ^ 31 - 1 := by
    unfold signedNat
    cases s
    · show max (-2 ^ 31) (min (2 ^ 31 - 1) (n : Int)) = 2 ^ 31 - 1
      omega
    · show max (-2 ^ 31) (min (2 ^ 31 - 1) (-(n : Int))) = -2 ^ 31
      omega
  have hout : ¬ (-2 ^ 31 ≤ signedNat s n ∧ signedNat s n < 2 ^ 31) := by
    unfold signedNat
    split <;> omega
  rw [satRes_eq, hmax, wdi_limits, if_neg hout]

/-- FFTOI limits as saturation does. -/
theorem limited_satRes (s : Bool) (n : Nat) :
    (if sat32 (signedNat s n) = signedNat s n then ({ val := wdi (signedNat s n) } : Res)
      else { val := if s then 0x80000000 else 0x7FFFFFFF, aex := aexInv }) = satRes (signedNat s n) 2 := by
  by_cases h : sat32 (signedNat s n) = signedNat s n
  · rw [if_pos h, satRes, h, if_pos rfl]
  · have hn : 2 ^ 31 < n ∨ n = 2 ^ 31 ∧ s = false := by
      unfold sat32 signedNat at h
      cases s <;> simp at h ⊢ <;> omega
    rw [if_neg h]
    rcases hn with hn | ⟨rfl, rfl⟩
    · exact (satRes_over s hn 2).symm
    · rfl

theorem scaled_floor {a : Word} {k : Nat} (hk : expOf a = (k : Int)) : scaled a / 2 ^ 149 = mantOf a * 2 ^ k := by
  rw [← mantOf_expOf a, hk, show ((k : Int) + 149).toNat = k + 149 by omega, Nat.pow_add, ← Nat.mul_assoc,
    Nat.mul_div_cancel _ (Nat.two_pow_pos 149)]

theorem scaled_floor_neg {a : Word} {k : Nat} (hk : expOf a = -(k : Int)) (hle : k ≤ 149) : scaled a / 2 ^ 149 = mantOf a / 2 ^ k := by
  rw [← mantOf_expOf a, hk, show (-(k : Int) + 149).toNat = 149 - k by omega]
  conv_lhs => rw [show 149 = k + (149 - k) by omega, Nat.pow_add, show k + (149 - k) - k = 149 - k by omega]
  exact Nat.mul_div_mul_right _ _ (Nat.two_pow_pos _)

/-- The whole part of a number's size. -/
theorem truncated (a : Word) : (if numOf a < 0 then ⌈numOf a⌉ else ⌊numOf a⌋) = signedNat (bitOf a 31) (scaled a / 2 ^ 149) := by
  have hfloor : ⌊((scaled a : ℕ) : ℚ) / ((2 ^ 149 : ℕ) : ℚ)⌋ = ((scaled a / 2 ^ 149 : ℕ) : Int) := Rat.floor_natCast_div_natCast ..
  have hq : numOf a = (if bitOf a 31 then -1 else 1) * (((scaled a : ℕ) : ℚ) / ((2 ^ 149 : ℕ) : ℚ)) := by
    rw [numOf_eq, signed]
    push_cast
    split <;> ring
  unfold signedNat
  by_cases hneg : numOf a < 0
  · rw [if_pos hneg, (numOf_neg.1 hneg).1, if_pos rfl, ← hfloor, hq, (numOf_neg.1 hneg).1, if_pos rfl, neg_one_mul, Int.ceil_neg]
  · rw [if_neg hneg]
    cases hs : bitOf a 31
    · rw [hq, hs, if_neg Bool.false_ne_true, if_neg Bool.false_ne_true, one_mul, hfloor]
    · have hz : scaled a = 0 := by
        by_contra h0
        exact hneg (numOf_neg.2 ⟨hs, h0⟩)
      rw [numOf_eq_zero.2 hz, hz]
      simp

theorem fFtoi_number {a : Word} (h : isNanWord a = false) : fFtoi a = satRes (signedNat (bitOf a 31) (scaled a / 2 ^ 149)) 2 := by
  rcases (word_kinds a).resolve_left (by simp [h]) with hi | hf
  · rw [fFtoi, fval_inf hi, satRes_over _ (by rw [scaled_inf hi, infSize]; decide)]
    rfl
  · obtain ⟨hlo, hhi⟩ := expOf_range hf
    rw [fFtoi, fval_finite hf]
    dsimp only
    by_cases h32 : 32 < expOf a
    · obtain ⟨k, hk⟩ := Int.eq_ofNat_of_zero_le (show 0 ≤ expOf a by omega)
      rw [if_pos h32, scaled_floor hk]
      by_cases h0 : mantOf a = 0
      · rw [if_pos h0, h0, Nat.zero_mul]
        cases bitOf a 31 <;> rfl
      · rw [if_neg h0, satRes_over]
        · rfl
        · calc 2 ^ 31 < 2 ^ k := Nat.pow_lt_pow_right (by decide) (by omega)
            _ ≤ mantOf a * 2 ^ k := Nat.le_mul_of_pos_left _ (by omega)
    · rw [if_neg h32]
      have hn : (if 0 ≤ expOf a then mantOf a * 2 ^ (expOf a).toNat else mantOf a / 2 ^ (-expOf a).toNat) = scaled a / 2 ^ 149 := by
        split
        next h0 => exact (scaled_floor (k := (expOf a).toNat) (by omega)).symm
        next h0 => exact (scaled_floor_neg (k := (-expOf a).toNat) (by omega) (by omega)).symm
      rw [hn]
      generalize scaled a / 2 ^ 149 = n
      exact limited_satRes (bitOf a 31) n

end Sys2Proof.Pipeline
end

section
namespace Sys2Proof.Pipeline
open Sys2Proof Sys2Proof.Machine Sys2Proof.Safety Sys2Proof.Laws
open Sys2Proof.Proofs hiding stepped zeroWord

/-! ### Rounding to nearest with ties to even (R163) -/

/-- `v` is `x` rounded to nearest with ties to even. -/
def RoundsTo (x : ℚ) (v : Int) : Prop := |x - v| ≤ 1 / 2 ∧ (|x - v| = 1 / 2 → v % 2 = 0)

namespace RoundsTo

variable {x : ℚ} {v w : Int}

theorem neg (h : RoundsTo x v) : RoundsTo (-x) (-v) := by
  have habs : |-x - ((-v : Int) : ℚ)| = |x - v| := by
    rw [← abs_neg (x - v)]
    push_cast
    ring_nf
  unfold RoundsTo
  rw [habs]
  exact ⟨h.1, fun e => by have := h.2 e; omega⟩

theorem whole (v : Int) : RoundsTo v v := by
  unfold RoundsTo
  rw [sub_self, abs_zero]
  norm_num

/-- Two whole numbers next to each other are both half a unit away only if one is odd. -/
theorem le_of (h : RoundsTo x v) (g : RoundsTo x w) : v ≤ w := by
  by_contra hlt
  obtain ⟨h1, h2⟩ := h
  obtain ⟨g1, g2⟩ := g
  rw [abs_le] at h1 g1
  have hle : (v : ℚ) ≤ w + 1 := by linarith [h1.1, g1.2]
  have hv : v = w + 1 := by
    have : v ≤ w + 1 := by exact_mod_cast hle
    omega
  subst hv
  push_cast at h1 h2
  have hx : x - w = 1 / 2 := by linarith [h1.1, g1.2]
  have he := g2 (by rw [hx]; norm_num)
  have ho := h2 (by rw [show x - (w + 1) = -(1 / 2) by linarith, abs_neg]; norm_num)
  omega

theorem unique (h : RoundsTo x v) (g : RoundsTo x w) : v = w := le_antisymm (h.le_of g) (g.le_of h)

end RoundsTo

theorem signedNat_roundsTo {s : Bool} {x : ℚ} {n : Nat} (h : RoundsTo x n) : RoundsTo ((if s then -1 else 1) * x) (signedNat s n) := by
  unfold signedNat
  cases s
  · simpa using h
  · simpa using h.neg

section
variable {q r half : Nat} (hpos : 0 < half)
include hpos

/-- The part of a unit above the whole one below. -/
theorem half_iff : (r : ℚ) / (2 * half) = 1 / 2 ↔ r = half := by
  have h0 : (0 : ℚ) < half := by exact_mod_cast hpos
  rw [div_eq_div_iff (by positivity) (by norm_num), mul_comm, one_mul]
  exact ⟨fun h => by exact_mod_cast mul_left_cancel₀ two_ne_zero h, fun h => by rw [h]⟩

theorem roundsTo_down (h : r ≤ half) (he : r = half → q % 2 = 0) : RoundsTo (q + r / (2 * half)) (q : ℕ) := by
  have h0 : (0 : ℚ) < 2 * half := by positivity
  have hle : (r : ℚ) / (2 * half) ≤ 1 / 2 := by
    rw [div_le_iff₀ h0, one_div, inv_mul_cancel_left₀ two_ne_zero]
    exact_mod_cast h
  have habs : |(q : ℚ) + r / (2 * half) - ((q : ℕ) : Int)| = r / (2 * half) := by
    rw [Int.cast_natCast, add_sub_cancel_left, abs_of_nonneg (by positivity)]
  unfold RoundsTo
  rw [habs, half_iff hpos]
  exact ⟨hle, fun e => by have := he e; omega⟩

theorem roundsTo_up (h : half ≤ r) (hlt : r < 2 * half) (ho : r = half → q % 2 = 1) : RoundsTo (q + r / (2 * half)) (q + 1 : ℕ) := by
  have h0 : (0 : ℚ) < 2 * half := by positivity
  have hge : 1 / 2 ≤ (r : ℚ) / (2 * half) := by
    rw [le_div_iff₀ h0, one_div, inv_mul_cancel_left₀ two_ne_zero]
    exact_mod_cast h
  have hle : (r : ℚ) / (2 * half) ≤ 1 := by
    rw [div_le_one h0]
    exact_mod_cast hlt.le
  have habs : |(q : ℚ) + r / (2 * half) - ((q + 1 : ℕ) : Int)| = 1 - r / (2 * half) := by
    push_cast
    rw [abs_of_nonpos (by linarith)]
    ring
  have htie : 1 - (r : ℚ) / (2 * half) = 1 / 2 ↔ r = half := by
    rw [← half_iff (r := r) hpos]
    constructor <;> intro e <;> linarith
  unfold RoundsTo
  rw [habs, htie]
  exact ⟨by linarith, fun e => by have := ho e; omega⟩

end

/-- The rounding of a mantissa at an exponent not above 0. -/
theorem roundEven_roundsTo (m k : Nat) : RoundsTo ((m : ℚ) / 2 ^ k) (roundEven m (-(k : Int))) := by
  unfold roundEven
  rw [neg_neg, Int.toNat_natCast]
  dsimp only
  by_cases hk : k = 0
  · subst hk
    simpa using RoundsTo.whole m
  · rw [if_neg hk]
    have hpow : 2 ^ k = 2 * 2 ^ (k - 1) := by rw [← pow_succ', show k - 1 + 1 = k by omega]
    have hdiv := Nat.div_add_mod m (2 ^ k)
    have hlt := Nat.mod_lt m (Nat.two_pow_pos k)
    have hpos : 0 < 2 ^ (k - 1) := Nat.two_pow_pos _
    have hcast : ((2 : ℚ) ^ k) = ((2 ^ k : ℕ) : ℚ) := by push_cast; rfl
    rw [hcast]
    rw [hpow] at hdiv hlt ⊢
    generalize 2 ^ (k - 1) = half at *
    generalize m / (2 * half) = q at *
    generalize m % (2 * half) = r at *
    have hx : (m : ℚ) / ((2 * half : ℕ) : ℚ) = q + r / (2 * half) := by
      rw [← hdiv]
      have h0 : (half : ℚ) ≠ 0 := by positivity
      push_cast
      field_simp
    rw [hx]
    split
    next hup => exact roundsTo_up hpos (by omega) hlt (by omega)
    next hdown => exact roundsTo_down hpos (by omega) (by omega)

theorem fval_nan {a : Word} (h : isNanWord a = true) : fval a = .qnan ∨ fval a = .snan := by
  rw [← isNan_fval] at h
  simpa [isNan] using h

/-- The size that FTOQ rounds: a number in units of 2^−31. -/
theorem numOf_q31 (a : Word) : numOf a * 2 ^ 31 = (if bitOf a 31 then -1 else 1) * ((scaled a : ℚ) / 2 ^ 118) := by
  rw [numOf_eq, signed]
  push_cast
  split <;> ring

/-- FTOQ of a number (R163). -/
theorem fToq_number {a : Word} {v : Int} (h : isNanWord a = false) (hv : RoundsTo (numOf a * 2 ^ 31) v) : fToq a = satRes v 8 := by
  rw [numOf_q31] at hv
  rcases (word_kinds a).resolve_left (by simp [h]) with hi | hf
  · have hint : (infSize : ℚ) / 2 ^ 118 = ((2 ^ 159 : ℕ) : ℚ) := by unfold infSize; norm_num
    rw [scaled_inf hi, hint] at hv
    rw [hv.unique (signedNat_roundsTo (RoundsTo.whole (2 ^ 159 : ℕ))), fToq, fval_inf hi, satRes_over _ (by norm_num)]
    rfl
  · rw [fToq, fval_finite hf]
    obtain ⟨hlo, hhi⟩ := expOf_range hf
    have hscaled := mantOf_expOf a
    dsimp only
    by_cases hpos : 0 < expOf a + 31
    · obtain ⟨k, hk⟩ := Int.eq_ofNat_of_zero_le hpos.le
      have hsize : (scaled a : ℚ) / 2 ^ 118 = ((mantOf a * 2 ^ k : ℕ) : ℚ) := by
        rw [← hscaled, show (expOf a + 149).toNat = k + 118 by omega]
        push_cast
        rw [pow_add]
        field_simp
      rw [hsize] at hv
      rw [if_pos hpos, hv.unique (signedNat_roundsTo (RoundsTo.whole (mantOf a * 2 ^ k : ℕ))), show (expOf a + 31).toNat = k by omega]
      by_cases h64 : k ≤ 64
      · rw [show Nat.min 64 k = k from Nat.min_eq_right h64]
        rfl
      · rw [show Nat.min 64 k = 64 from Nat.min_eq_left (by omega)]
        by_cases h0 : mantOf a = 0
        · rw [h0, Nat.zero_mul, Nat.zero_mul]
          rfl
        · have hbig {j : Nat} (hj : 64 ≤ j) : 2 ^ 31 < mantOf a * 2 ^ j :=
            (Nat.pow_lt_pow_right (by decide) (by omega)).trans_le (Nat.le_mul_of_pos_left _ (by omega))
          exact (satRes_over (bitOf a 31) (hbig le_rfl) 8).trans (satRes_over (bitOf a 31) (hbig (by omega)) 8).symm
    · obtain ⟨k, hk⟩ := Int.eq_ofNat_of_zero_le (show 0 ≤ -(expOf a + 31) by omega)
      have hsize : (scaled a : ℚ) / 2 ^ 118 = (mantOf a : ℚ) / 2 ^ k := by
        rw [← hscaled, show (2 : ℚ) ^ 118 = 2 ^ (expOf a + 149).toNat * 2 ^ k by rw [← pow_add]; congr 1; omega]
        push_cast
        field_simp
      rw [hsize] at hv
      rw [if_neg hpos, hv.unique (signedNat_roundsTo (roundEven_roundsTo (mantOf a) k)), show expOf a + 31 = -(k : Int) by omega]
      rfl

/-! ### Integer division (R148, R164) -/

theorem sDiv_value {a b : Word} (hb : b ≠ 0) (ho : ¬ (a = 0x80000000 ∧ b = 0xFFFFFFFF)) : sDiv a b = { val := a.sdiv b, aex := 0 } := by
  rw [sDiv, if_neg hb, if_neg ho]
  have hv : wdi (Int.tdiv (sgn a) (sgn b)) = a.sdiv b := by
    refine BitVec.eq_of_toInt_eq ?_
    rw [wdi, BitVec.toInt_ofInt, BitVec.toInt_sdiv]
    rfl
  rw [hv]

theorem uDiv_value {a b : Word} (hb : b ≠ 0) : uDiv a b = { val := a / b, aex := 0 } := by
  rw [uDiv, if_neg hb]
  have hv : wd (a.toNat / b.toNat) = a / b := by
    refine BitVec.eq_of_toNat_eq ?_
    rw [wd, BitVec.toNat_ofNat, BitVec.toNat_udiv, Nat.mod_eq_of_lt ((Nat.div_le_self _ _).trans_lt a.isLt)]
  rw [hv]

/-- Settles O14, operation by operation. -/
theorem arithmeticResults : Obligations.arithmetic_results := by
  unfold Obligations.arithmetic_results
  refine ⟨fun a b d => ?_, fun a b => ⟨fun hb ho => sDiv_value hb ho, fun hb => uDiv_value hb, rfl, rfl, rfl⟩⟩
  dsimp only
  refine ⟨fun h => ?_, fun h => fMa_nan h, fun h => fSqrt_nan h, ⟨fAdd_comm a b, fMul_comm a b, fMa_comm a b d⟩, fun ha hb => ?_,
    fun ha hb => fDiv_zero ha hb, fun h => fSqrt_zero h, fun hn h => fSqrt_negative hn h, ?_, fun ha big => ?_, fun ha => ?_, fun ha => ?_,
    fun v ha h1 h2 => ?_⟩
  · simp only [List.forall_mem_cons, List.not_mem_nil, IsEmpty.forall_iff, implies_true, and_true]
    exact ⟨fAdd_nan h, fMul_nan h, fDiv_nan h⟩
  · refine ⟨fAdd_inf ha hb, fMul_inf ha hb, fDiv_inf ha hb, fDiv_by_inf ha hb, fSqrt_inf ha, fun hd => ?_, fun hb hd => fMa_add_inf ha hb hd⟩
    exact ⟨fun h0 => (fMa_inf ha hb hd).trans (if_pos h0), fun h0 => (fMa_inf ha hb hd).trans (if_neg h0)⟩
  · refine ⟨fCmp_words _ _ fun ha hb => fEq_words ha hb, fCmp_words _ _ fun ha hb => fLt_words ha hb, fCmp_words _ _ fun ha hb => ?_,
      fun h hless big => ?_⟩
    · rw [fLt_words hb ha, ← decide_not]
      exact decide_eq_decide.2 not_lt
    · rw [Bool.and_eq_true, Bool.not_eq_true', Bool.not_eq_true'] at h
      exact fMinMax_less big h.1 h.2 hless
  · exact ⟨fMinMax_nan big ha, fMinMax_nan_right big ha⟩
  · rcases fval_nan ha with h | h <;> exact ⟨by rw [fFtoi, h]; rfl, by rw [fToq, h]; rfl⟩
  · rw [truncated, fFtoi_number ha, satRes_eq]
  · rw [fToq_number ha ⟨h1, h2⟩, satRes_eq]

end Sys2Proof.Pipeline
end
